-- ==== Sys2Proof/Word.lean ====
section
/-!
DEFINITION. The word types of the model: bytes, register widths, sparse tables, and exact rationals as plain data.
-/
namespace Sys2Proof

/-- One byte; every multi-byte value is little-endian (00 R14). -/
abbrev Byte := BitVec 8
/-- A string of bytes, lowest address first. -/
abbrev Bytes := List Byte
/-- A 16-bit register. -/
abbrev U16 := BitVec 16
/-- A 32-bit register. -/
abbrev U32 := BitVec 32
/-- A 64-bit register. -/
abbrev U64 := BitVec 64
/-- A vector register of 1,024 bits (05 R190). -/
abbrev V1024 := BitVec 1024
/-- A sparse table keyed by a number, keys strictly rising. -/
abbrev Table (α : Type) := List (Nat × α)

/-- An exact rational as plain data: `num / den`, with `den` never 0 where the model builds one. -/
structure Q where
  num : Int := 0
  den : Nat := 1
  deriving DecidableEq, Repr

end Sys2Proof
end

