-- ==== Sys2Proof/Syntax.lean ====
section
/-!
DEFINITION. The commands and events of the block: one constructor of `Instr` per row of spec/opcode_table.json.
An operand is what the row's sender (host software, a link, a pin, a sensor) or the device's own agent names.
-/
namespace Sys2Proof

/-- A hardware thread: logical core and thread slot (05 R185). -/
structure ThreadRef where
  core : Nat
  slot : Nat
  deriving DecidableEq, Repr

/-- The fields of a 64-bit instruction word beside its opcode (05 Table 5-3). -/
structure KFields where
  pneg : Bool := false
  pred : BitVec 3 := 0
  mod  : BitVec 4 := 0
  dst  : BitVec 6 := 0
  a    : BitVec 6 := 0
  b    : BitVec 6 := 0
  c    : BitVec 6 := 0
  imm  : BitVec 24 := 0
  deriving DecidableEq, Repr

/-- A command ring pair: a function's admin ring, or a context's ring (11 R391). -/
inductive RingRef where
  | admin (fn : Nat)
  | ctx (slot : Nat)
  deriving DecidableEq, Repr

/-- What a host-link transfer that completes or fails belonged to (11 R398, R548). -/
inductive DmaTarget where
  | command (ring : RingRef) (seq : Nat)
  | deviceWrite
  deriving DecidableEq, Repr

/-- The system-only operations 0xE0–0xEF of the built-in layer code, by what each does (05 R193, 04). -/
inductive BuiltIn where
  | layerStep
  | expand
  | epilogue
  | warpBlend
  | composite
  deriving DecidableEq, Repr

/-- Causes of a core retirement (15 R487, R488, R489). -/
inductive CoreCause where
  | corrected
  | test
  | uncorrectable
  | parity
  deriving DecidableEq, Repr

/-- What a voltage, clock, temperature or test-mode sensor saw (15 R503). -/
inductive SensorCause where
  | voltage
  | clock
  | temperature
  | testMode
  deriving DecidableEq, Repr

/-- A unit whose error is reported (15 R480; 11 Table 11-12). -/
inductive FaultUnit where
  | vault
  | coreStore
  | register
  | staging
  | vaultCache
  deriving DecidableEq, Repr

/-- A fixed-function unit with parity on its state (15 R480). -/
inductive FixedUnit where
  | frontEnd (i : Nat)
  | rtu (i : Nat)
  | flowEngine (i : Nat)
  | detect (i : Nat)
  | ingest
  deriving DecidableEq, Repr

/-- What a patrol scrub pass corrected, by store (15 R481, R483, Table 15-4). -/
structure Corrected where
  coreStore : Nat := 0
  register : Nat := 0
  staging : Nat := 0
  vcache : Nat := 0
  vault : Nat := 0
  keeper : Nat := 0
  deriving DecidableEq, Repr

/-- The outcome of a DisplayPort link training (09 R337). -/
structure LinkResult where
  ok    : Bool := false
  rate  : Nat := 0
  lanes : Nat := 0
  deriving DecidableEq, Repr

/-- The readings that the sensors and current monitors give at a refresh (16 R521, Table 16-8): hottest and mean junction
temperature as signed 16-bit patterns in 1/16 °C, the hottest sensor's index, power over the last 1 ms in 1/16 W, rails in mV. -/
structure Readings where
  tempMax : Nat := 0
  tempAvg : Nat := 0
  hot : Nat := 0
  power : Nat := 0
  core : Nat := 0
  sram : Nat := 0
  vault : Nat := 0
  io : Nat := 0
  aux : Nat := 0
  deriving DecidableEq, Repr

/-- One constructor per row of spec/opcode_table.json. -/
inductive Instr where
  -- frame path, chapters 1, 2, 6, 7, 8, 10, 13
  | ingestRender (slot seq : Nat)
  | ingestPose (slot seq : Nat)
  | packetArrival (ward index : Nat)
  | ingestCheck (ward : Nat)
  | ingestDecodeComplete (slot set : Nat)
  | poseIngestComplete (ward : Nat)
  | frameStart (slot : Nat)
  | cutOff (slot : Nat)
  | geometryPassStart (slot : Nat)
  | feSetupGroup (fe : Nat)
  | poolGrowthComplete (slot : Nat)
  | binningComplete (slot : Nat)
  | fragmentBatch (slot fe core : Nat)
  | splatComplete (slot : Nat)
  | rayTaskStart (slot tile : Nat)
  | rayTaskComplete (slot tile : Nat)
  | taskAdmit (core : Nat)
  | steal (core : Nat)
  | stealWaitExpiry (core : Nat)
  | quantumBoundary (core : Nat)
  | stripeTaskComplete (core task : Nat)
  | digestComplete (slot : Nat) (infoOk : Bool)
  | detentCheck (slot : Nat)
  | detentComparator (head : Nat)
  | captureTask (slot p : Nat)
  | stepBoundary (slot : Nat)
  | trainingStepComplete (slot : Nat)
  | visionNodeStart (slot node : Nat)
  | visionSliceBoundary (engine : Nat)
  | flowBandComplete (slot node band : Nat)
  | graphRunEnd (slot : Nat)
  | headPeriodStart (head : Nat)
  | sliceBegin (head : Nat)
  | sliceWritten (head : Nat) (underrun : List Nat) (entryOk : Bool)
  | frameScanEnd (head : Nat)
  | gpioSyncEdge
  | dpLinkLoss (head : Nat)
  | ringConsumerWrite (fn head value : Nat)
  | waitLimit (t : ThreadRef)
  | haspTimeout (t : ThreadRef)
  | remoteWaitLimit (rec : Nat)
  | teardownComplete (slot : Nat)
  -- core instructions, chapter 5
  | nop (t : ThreadRef) (f : KFields)
  | endThread (t : ThreadRef) (f : KFields)
  | br (t : ThreadRef) (f : KFields)
  | add (t : ThreadRef) (f : KFields)
  | sub (t : ThreadRef) (f : KFields)
  | mul (t : ThreadRef) (f : KFields)
  | div (t : ThreadRef) (f : KFields)
  | andS (t : ThreadRef) (f : KFields)
  | orS (t : ThreadRef) (f : KFields)
  | xorS (t : ThreadRef) (f : KFields)
  | shl (t : ThreadRef) (f : KFields)
  | shr (t : ThreadRef) (f : KFields)
  | sra (t : ThreadRef) (f : KFields)
  | minS (t : ThreadRef) (f : KFields)
  | maxS (t : ThreadRef) (f : KFields)
  | addi (t : ThreadRef) (f : KFields)
  | movi (t : ThreadRef) (f : KFields)
  | movh (t : ThreadRef) (f : KFields)
  | cmp (t : ThreadRef) (f : KFields)
  | cmpi (t : ThreadRef) (f : KFields)
  | sel (t : ThreadRef) (f : KFields)
  | plog (t : ThreadRef) (f : KFields)
  | rdtb (t : ThreadRef) (f : KFields)
  | pcrd (t : ThreadRef) (f : KFields)
  | vadd (t : ThreadRef) (f : KFields)
  | vsub (t : ThreadRef) (f : KFields)
  | vmul (t : ThreadRef) (f : KFields)
  | vfma (t : ThreadRef) (f : KFields)
  | vmin (t : ThreadRef) (f : KFields)
  | vmax (t : ThreadRef) (f : KFields)
  | vdiv (t : ThreadRef) (f : KFields)
  | vsqrt (t : ThreadRef) (f : KFields)
  | vfn (t : ThreadRef) (f : KFields)
  | vcvt (t : ThreadRef) (f : KFields)
  | vcmp (t : ThreadRef) (f : KFields)
  | vsel (t : ThreadRef) (f : KFields)
  | vlog (t : ThreadRef) (f : KFields)
  | vsh (t : ThreadRef) (f : KFields)
  | vbcast (t : ThreadRef) (f : KFields)
  | viota (t : ThreadRef) (f : KFields)
  | vsum (t : ThreadRef) (f : KFields)
  | vrq (t : ThreadRef) (f : KFields)
  | vbsc (t : ThreadRef) (f : KFields)
  | vpack (t : ThreadRef) (f : KFields)
  | vunpk (t : ThreadRef) (f : KFields)
  | ldc (t : ThreadRef) (f : KFields)
  | stc (t : ThreadRef) (f : KFields)
  | ldcx (t : ThreadRef) (f : KFields)
  | ldw (t : ThreadRef) (f : KFields)
  | stw (t : ThreadRef) (f : KFields)
  | atom (t : ThreadRef) (f : KFields)
  | vaultReply (core req : Nat) (uncorrectable : Bool)
  | mcopy (t : ThreadRef) (f : KFields)
  | mcopyComplete (core copy : Nat)
  | waitc (t : ThreadRef) (f : KFields)
  | fenceScope (t : ThreadRef) (f : KFields)
  | lset (t : ThreadRef) (f : KFields)
  | lclr (t : ThreadRef) (f : KFields)
  | lwait (t : ThreadRef) (f : KFields)
  | ltest (t : ThreadRef) (f : KFields)
  | hacq (t : ThreadRef) (f : KFields)
  | hrel (t : ThreadRef) (f : KFields)
  | htry (t : ThreadRef) (f : KFields)
  | pxlock (t : ThreadRef) (f : KFields)
  | pxunlock (t : ThreadRef) (f : KFields)
  | tzero (t : ThreadRef) (f : KFields)
  | tmm (t : ThreadRef) (f : KFields)
  | tmmb (t : ThreadRef) (f : KFields)
  | trd (t : ThreadRef) (f : KFields)
  | smp (t : ThreadRef) (f : KFields)
  -- the Keyway host interface, chapter 11
  | kwSqDb (fn slot value : Nat)
  | kwCqDb (fn slot value : Nat)
  | kwCqArm (fn slot value : Nat)
  | kwCqLost (fn slot : Nat)
  | kwAdmSqDb (fn value : Nat)
  | kwAdmCqDb (fn value : Nat)
  | kwAdmArm (fn value : Nat)
  | adminEnable (fn value : Nat)
  | adminDisable (fn value : Nat)
  | registerWrite (fn bar offset width value : Nat)
  | bar2Read (fn offset length : Nat)
  | bar2Write (fn offset : Nat) (data : Bytes)
  | commandFetch (ring : RingRef) (ok : Bool)
  | wardConfig (fn seq : Nat)
  | wardReset (fn seq : Nat)
  | memoryGrant (fn seq : Nat)
  | ctxCreate (fn seq : Nat)
  | ctxDestroy (fn seq : Nat)
  | imageLoad (fn seq : Nat)
  | imageUnload (fn seq : Nat)
  | headConfig (fn seq : Nat)
  | headQuery (fn seq : Nat) (sink : Bool) (edid dpcd : Bytes)
  | tapConfig (fn seq : Nat)
  | hingeConfig (fn seq : Nat)
  | fwStage (fn seq : Nat)
  | fwActivate (fn seq : Nat)
  | fwSwitchComplete
  | kwNop (slot seq : Nat)
  | kwFence (slot seq : Nat)
  | ctxConfigure (slot seq : Nat)
  | imageBind (slot seq : Nat)
  | hierLoad (slot seq : Nat)
  | hierUnload (slot seq : Nat)
  | graphLoad (slot seq : Nat)
  | graphUnload (slot seq : Nat)
  | headBind (slot seq : Nat)
  | headUnbind (slot seq : Nat)
  | auxRun (slot seq : Nat)
  | haspGrant (slot seq : Nat)
  | haspRelease (slot seq : Nat)
  | copy (slot seq : Nat)
  | adaptPublish (slot seq : Nat)
  | adapterLoad (slot seq : Nat)
  | adapterExport (slot seq : Nat)
  | storeClear (slot seq : Nat)
  | trainControl (slot seq : Nat)
  | acctQuery (slot seq : Nat)
  | replayFrame (slot seq : Nat)
  | flrVf (fn : Nat)
  | flrPf
  | keeperHeartbeat
  -- hinge links, chapter 12
  | render (port : Nat)
  | pose (port : Nat)
  | slice (port : Nat)
  | sliceCredit (port : Nat)
  | remoteReq (port : Nat)
  | remoteRep (port : Nat)
  | inherit (port : Nat)
  | holderGone (port : Nat)
  | hello (port : Nat)
  | linkDown (port : Nat)
  | linkUp (port : Nat)
  | portTrained (port : Nat) (up : Bool) (lanes : Nat)
  | laneFail (port lanes : Nat)
  | retrainComplete (port : Nat) (ok : Bool)
  | neighbourLoss (port : Nat)
  | reroute
  -- counters, chapter 14
  | bwCfgWrite (core value : Nat)
  | bwWindowEnd (core : Nat)
  | counterFreeze (freeze : Bool)
  | counterClear
  | sampleTimerEnable (value : Nat)
  | sampleExternalEnable (value : Nat)
  | sampleTimer
  | sampleRecordWrite (core : Nat) (thread : Option Nat) (ok : Bool)
  | sbufEnable (value : Nat)
  | sbufConsumerWrite (value : Nat)
  | sbufLostRead
  | perfUserWrite (slot : Nat) (set : Bool)
  -- reliability and security, chapter 15
  | scrubPass (vault : Bool) (corrected : Corrected) (latent : List (Nat × Nat))
  | rowSpare (channel : Nat)
  | channelSpareStart (channel : Nat)
  | channelSpareComplete (channel : Nat)
  | channelLost (channel : Nat)
  | coreSelfTest (core : Nat)
  | coreDrainStart (core : Nat) (cause : CoreCause)
  | coreDrainEnd (core : Nat) (timedOut : Bool)
  | coreRetireImmediate (core : Nat) (cause : CoreCause)
  | keeperWatchdog (codeError stateLost : Bool)
  | rngFail
  | sensorReset (cause : SensorCause)
  | bypass
  | idcode
  | samplePreload
  | extest
  | clamp
  | highz
  | unlockChallenge
  | unlockResponse (r s : Nat)
  | unlockHoldoffExpiry
  | yakabryDebugAccess (op : Nat)
  -- start-up, clocks, power and management, chapter 16
  | bootImageCheck (flashOk : Bool)
  | vaultTrain (failed : List Nat)
  | coreBringup (failed : List Nat)
  | opCtrlWrite (value : Nat)
  | mgRefresh (r : Readings)
  | thermNChange (level : Bool)
  | d3hotEntry (fn : Nat)
  | d0Return (fn : Nat)
  | smbusArp (addr : Nat)
  | setEndpointId (eid : Nat)
  | pldmDiscovery (request : Nat)
  | getPdr (record : Nat)
  | getSensorReading (id : Nat)
  | getStateSensorReadings (id : Nat)
  -- the rows the reader added
  | flit (port : Nat) (bits : BitVec 2048)
  | dpHotPlug (head : Nat) (result : LinkResult)
  | dpLinkTrainingEnd (head : Nat) (result : LinkResult)
  | activeLineScan (head : Nat) (delivered : Nat)
  | selfTestComplete (phys : Nat) (pass : Bool)
  | unitParityError (unit : FixedUnit) (served : Option Nat)
  | deviceUncorrectable (unit : Option FaultUnit)
  | vfEnable (count : Nat)
  | hostDmaComplete (target : DmaTarget) (ok : Bool)
  | bar0ImproperAccess (fn : Nat) (write : Bool)
  | builtInInstruction (t : ThreadRef) (op : BuiltIn)
  | detectJobComplete (unit : Nat)
  -- commands without operands, chapters 15, 16
  | powerOnReset
  | powerFail
  | coldReset
  | perstNRelease
  | linkReset
  | pllLock
  | configReady
  | opEvaluation
  | thermalPeakRead
  | powerPeakRead
  | tapReset
  | flashProgramComplete
  deriving DecidableEq, Repr

end Sys2Proof
end

