-- ==== Sys2Proof/Decode.lean ====
section
/-!
DEFINITION. What a word spells by the bits of spec/opcode_table.json. The table gives no row any bits (every row's
fields are empty), so no word spells a command.
-/
namespace Sys2Proof

/-- The command a word spells: none, since the table gives its rows no bits. -/
def decodeTableWord (_nbits _w : Nat) : Option Instr := none

end Sys2Proof
end

