-- ==== Sys2Proof/Machine/Bits.lean ====
section
/-!
DEFINITION. Pure helpers over the word types: bit fields, byte strings, sparse tables, byte memory and exact rationals.
-/
namespace Sys2Proof.Machine

/-! ## Bit fields and integers -/

/-- Field [hi:lo] of a number (00 R14). -/
def field (n hi lo : Nat) : Nat := (n >>> lo) % 2 ^ (hi - lo + 1)
/-- Bit i of a number as 0 or 1. -/
def bitN (n i : Nat) : Nat := (n >>> i) % 2
/-- A Bool as one bit. -/
def b2n (b : Bool) : Nat := if b then 1 else 0
/-- A number of `w` bits read as two's complement. -/
def sext (w n : Nat) : Int := if n % 2 ^ w < 2 ^ (w - 1) then (n % 2 ^ w : Nat) else (n % 2 ^ w : Nat) - (2 ^ w : Nat)
/-- The low `w` bits of an integer. -/
def trunc (w : Nat) (x : Int) : Nat := (x % (2 ^ w : Nat)).toNat
/-- Clamp an integer to [lo, hi]. -/
def clampI (lo hi x : Int) : Int := if x < lo then lo else if hi < x then hi else x
/-- ⌈a / b⌉. -/
def cdiv (a b : Nat) : Nat := (a + b - 1) / b
/-- How many bits of a mask are set below `w`. -/
def popcount (w n : Nat) : Nat := (List.range w).foldl (fun k i => k + bitN n i) 0
/-- The set bits of a mask below `w`, rising. -/
def bitList (w n : Nat) : List Nat := (List.range w).filter (fun i => n.testBit i)
/-- Is every bit of `a` a bit of `b`? -/
def subMask (a b : Nat) : Bool := a &&& b == a
/-- `a` without the bits of `b`. -/
def maskDiff (a b : Nat) : Nat := a ^^^ (a &&& b)
/-- The sum of a list. -/
def sumL (l : List Nat) : Nat := l.foldl (· + ·) 0
/-- Is `a` later than `b` as `w`-bit counters (00 R19)? -/
def later (w a b : Nat) : Bool :=
  let d := (a + 2 ^ w - b % 2 ^ w) % 2 ^ w
  decide (1 ≤ d) && decide (d ≤ 2 ^ (w - 1) - 1)

/-! ## Byte strings -/

/-- A little-endian byte string as a number (00 R14). -/
def leNat : Bytes → Nat
  | [] => 0
  | b :: r => b.toNat + 256 * leNat r
/-- The low `k` bytes of a number, little-endian. -/
def natLe : Nat → Nat → Bytes
  | 0, _ => []
  | k + 1, n => BitVec.ofNat 8 n :: natLe k (n / 256)
/-- The `len` bytes at `off`, as a number; bytes past the end read as zero. -/
def fld (b : Bytes) (off len : Nat) : Nat := leNat ((b.drop off).take len)
/-- `len` bytes at `off`, padded with zeros to `len`. -/
def slice (b : Bytes) (off len : Nat) : Bytes :=
  let r := (b.drop off).take len
  r ++ List.replicate (len - r.length) 0
/-- Replace the bytes at `off` by `v`. -/
def patch (b : Bytes) (off : Nat) (v : Bytes) : Bytes := b.take off ++ v ++ b.drop (off + v.length)
/-- Pad or cut to exactly `n` bytes. -/
def fit (n : Nat) (b : Bytes) : Bytes := slice b 0 n
/-- Are all the bytes zero? -/
def allZero (b : Bytes) : Bool := b.all (· == 0)

/-! ## Sparse tables -/

/-- The entry at key k. -/
def tget {α : Type} : Table α → Nat → Option α
  | [], _ => none
  | (k', v) :: r, k => if k = k' then some v else tget r k
/-- The entry at key k, or a default. -/
def tgetD {α : Type} (t : Table α) (k : Nat) (d : α) : α := (tget t k).getD d
/-- Put an entry, keeping the keys rising. -/
def tput {α : Type} : Table α → Nat → α → Table α
  | [], k, v => [(k, v)]
  | (k', v') :: r, k, v =>
    if k < k' then (k, v) :: (k', v') :: r
    else if k = k' then (k, v) :: r
    else (k', v') :: tput r k v
/-- Drop the entry at key k. -/
def tdel {α : Type} : Table α → Nat → Table α
  | [], _ => []
  | (k', v') :: r, k => if k = k' then r else (k', v') :: tdel r k
/-- Change the entry at key k, if there is one. -/
def tmod {α : Type} : Table α → Nat → (α → α) → Table α
  | [], _, _ => []
  | (k', v) :: r, k, f => if k = k' then (k', f v) :: r else (k', v) :: tmod r k f
/-- Change the entry at key k, starting from a default where there is none. -/
def tupd {α : Type} (t : Table α) (k : Nat) (d : α) (f : α → α) : Table α := tput t k (f (tgetD t k d))
/-- The lowest key at or above `k` that the table does not hold. -/
def freeKeyFrom {α : Type} : Table α → Nat → Nat
  | [], k => k
  | (k', _) :: r, k => if k' = k then freeKeyFrom r (k + 1) else if k < k' then k else freeKeyFrom r k

/-! ## Byte memory: addresses strictly rising, no entry equal to what an unlisted address reads as (zero) -/

/-- A byte memory. -/
abbrev Mem := List (Nat × BitVec 8)
/-- What an unlisted address reads as: zero (10 R377, 05 R188; log 3 for host memory). -/
def Mem.unlisted : Byte := 0
/-- One byte. -/
def Mem.read (m : Mem) (a : Nat) : Byte := (tget m a).getD Mem.unlisted
/-- Write one byte, keeping the canonical form. -/
def Mem.write (m : Mem) (a : Nat) (b : Byte) : Mem := if b = Mem.unlisted then tdel m a else tput m a b
/-- The canonical form: keys strictly rising, and no entry equal to the unlisted byte. -/
def Mem.wf : Mem → Bool
  | [] => true
  | [(_, b)] => decide (b ≠ Mem.unlisted)
  | (a, b) :: (a', b') :: r => decide (a < a') && decide (b ≠ Mem.unlisted) && Mem.wf ((a', b') :: r)
/-- `n` bytes from address `a`. -/
def Mem.readN (m : Mem) (a : Nat) : Nat → Bytes
  | 0 => []
  | n + 1 => Mem.read m a :: Mem.readN m (a + 1) n
/-- Write a byte string from address `a`. -/
def Mem.writeN (m : Mem) (a : Nat) : Bytes → Mem
  | [] => m
  | b :: r => Mem.writeN (Mem.write m a b) (a + 1) r
/-- Drop every listed byte in [a, a + n): they read as zero again (10 R377). -/
def Mem.scrub (m : Mem) (a n : Nat) : Mem := m.filter (fun c => decide (c.1 < a) || decide (a + n ≤ c.1))

/-! ## Exact rationals -/

/-- An integer as a rational. -/
def Q.ofInt (n : Int) : Q := { num := n, den := 1 }
/-- A ratio of naturals; a zero divisor gives zero, and no caller passes one. -/
def Q.ratio (n : Int) (d : Nat) : Q := if d = 0 then { num := 0, den := 1 } else { num := n, den := d }
def Q.add (x y : Q) : Q := { num := x.num * y.den + y.num * x.den, den := x.den * y.den }
def Q.sub (x y : Q) : Q := { num := x.num * y.den - y.num * x.den, den := x.den * y.den }
def Q.mul (x y : Q) : Q := { num := x.num * y.num, den := x.den * y.den }
def Q.le (x y : Q) : Bool := decide (x.num * y.den ≤ y.num * x.den)
def Q.lt (x y : Q) : Bool := decide (x.num * y.den < y.num * x.den)
def Q.max (x y : Q) : Q := if Q.le x y then y else x
def Q.floor (x : Q) : Int := x.num / x.den
def Q.ceil (x : Q) : Int := -((-x.num) / x.den)

end Sys2Proof.Machine
end

