-- ==== Sys2Proof/Machine/Flags.lean ====
section
/-!
DEFINITION. Arithmetic on bit patterns: decoding, exact values, rounding and conversion of the floating-point formats,
the IEEE operations and elementary functions, saturation and the integer lane operations (chapter 3).
-/
namespace Sys2Proof.Machine

/-! ## Formats -/

/-- A floating-point format: exponent and mantissa widths; `ieee` when the top exponent holds infinities (03 Table 3-1). -/
structure Fmt where
  eb : Nat
  mb : Nat
  ieee : Bool
  deriving DecidableEq, Repr

def fE4M3 : Fmt := { eb := 4, mb := 3, ieee := false }
def fE5M2 : Fmt := { eb := 5, mb := 2, ieee := true }
def fBF16 : Fmt := { eb := 8, mb := 7, ieee := true }
def fFP16 : Fmt := { eb := 5, mb := 10, ieee := true }
def fFP32 : Fmt := { eb := 8, mb := 23, ieee := true }

def Fmt.bias (f : Fmt) : Int := (2 ^ (f.eb - 1) - 1 : Nat)
def Fmt.width (f : Fmt) : Nat := 1 + f.eb + f.mb
/-- The code of the largest finite magnitude. -/
def Fmt.maxCode (f : Fmt) : Nat := if f.ieee then (2 ^ f.eb - 1) * 2 ^ f.mb - 1 else 2 ^ (f.eb + f.mb) - 2
/-- The canonical NaN (03 Table 3-1, R99). -/
def Fmt.nan (f : Fmt) : Nat :=
  if f.ieee then (2 ^ f.eb - 1) * 2 ^ f.mb + 2 ^ (f.mb - 1) else 2 ^ (f.eb + f.mb) - 1
def Fmt.infCode (f : Fmt) : Nat := (2 ^ f.eb - 1) * 2 ^ f.mb
def Fmt.signBit (f : Fmt) : Nat := 2 ^ (f.eb + f.mb)

/-- An exact value: `fin neg m e` is (−1)^neg × m × 2^e. -/
inductive FV where
  | nan
  | inf (neg : Bool)
  | fin (neg : Bool) (m : Nat) (e : Int)
  deriving DecidableEq, Repr

/-- The value a code stands for (03 R97). -/
def unpack (f : Fmt) (x : Nat) : FV :=
  let neg := decide (x / f.signBit % 2 = 1)
  let e := x / 2 ^ f.mb % 2 ^ f.eb
  let m := x % 2 ^ f.mb
  if e = 0 then .fin neg m (1 - f.bias - f.mb)
  else if e = 2 ^ f.eb - 1 ∧ f.ieee then (if m = 0 then .inf neg else .nan)
  else if e = 2 ^ f.eb - 1 ∧ m = 2 ^ f.mb - 1 ∧ !f.ieee then .nan
  else .fin neg (2 ^ f.mb + m) (e - f.bias - f.mb)

/-- A sign put on a magnitude code. -/
def withSign (f : Fmt) (neg : Bool) (c : Nat) : Nat := if neg then f.signBit + c else c

/-- The magnitude code of m × 2^e, rounded to nearest even with no upper limit on the exponent (03 R122). -/
def roundMag (f : Fmt) (m : Nat) (e : Int) : Nat :=
  if m = 0 then 0 else
  let top : Int := (Nat.log2 m : Int) + e
  let emin : Int := 1 - f.bias
  let q : Int := (if top < emin then emin else top) - f.mb
  let base := ((q + f.mb + f.bias - 1).toNat) * 2 ^ f.mb
  if q ≤ e then base + m * 2 ^ (e - q).toNat
  else
    let sh := (q - e).toNat
    let k := m / 2 ^ sh
    let r := m % 2 ^ sh
    let half := 2 ^ (sh - 1)
    base + (if half < r ∨ (r = half ∧ k % 2 = 1) then k + 1 else k)

/-- What a conversion gives: the code, and whether it counts as a saturation (03 R124) or a NaN. -/
structure Conv where
  code : Nat
  sat : Bool := false
  nan : Bool := false
  deriving DecidableEq, Repr

/-- Convert an exact value to a format (03 Table 3-4); `sat` is the saturation setting. -/
def convert (f : Fmt) (sat : Bool) : FV → Conv
  | .nan => { code := f.nan, nan := true }
  | .inf neg =>
    { code := if sat then withSign f neg f.maxCode else if f.ieee then withSign f neg f.infCode else f.nan, sat := true }
  | .fin neg m e =>
    let c := roundMag f m e
    if f.maxCode < c then
      { code := if sat then withSign f neg f.maxCode else if f.ieee then withSign f neg f.infCode else f.nan, sat := true }
    else { code := withSign f neg c }

/-- Round to a format with round-to-nearest-even; overflow gives the infinity of the sign (03 R136). -/
def rne (f : Fmt) (v : FV) : Nat := (convert f false v).code
/-- RNE32 of 03 R116. -/
def rne32 (v : FV) : Nat := rne fFP32 v

/-! ## Exact arithmetic -/

/-- A signed dyadic as an exact value; zero is +0. -/
def FV.ofInt (n : Int) (e : Int) : FV := .fin (decide (n < 0)) n.natAbs e
/-- The signed mantissa of a finite value. -/
def smant (neg : Bool) (m : Nat) : Int := if neg then -(m : Int) else m
/-- Exact sum; an exact zero is +0 unless both terms are −0 (03 R98). -/
def FV.add : FV → FV → FV
  | .nan, _ => .nan
  | _, .nan => .nan
  | .inf a, .inf b => if a = b then .inf a else .nan
  | .inf a, _ => .inf a
  | _, .inf b => .inf b
  | .fin na ma ea, .fin nb mb eb =>
    let e := if ea < eb then ea else eb
    let s := smant na (ma * 2 ^ (ea - e).toNat) + smant nb (mb * 2 ^ (eb - e).toNat)
    if s = 0 then .fin (na && nb && ma == 0 && mb == 0) 0 e else .ofInt s e
def FV.neg : FV → FV
  | .nan => .nan
  | .inf a => .inf (!a)
  | .fin n m e => .fin (!n) m e
def FV.abs : FV → FV
  | .nan => .nan
  | .inf _ => .inf false
  | .fin _ m e => .fin false m e
/-- Exact product; ∞ × 0 is NaN. -/
def FV.mul : FV → FV → FV
  | .nan, _ => .nan
  | _, .nan => .nan
  | .inf a, .inf b => .inf (a != b)
  | .inf a, .fin n m _ => if m = 0 then .nan else .inf (a != n)
  | .fin n m _, .inf b => if m = 0 then .nan else .inf (n != b)
  | .fin na ma ea, .fin nb mb eb => .fin (na != nb) (ma * mb) (ea + eb)
/-- Multiply by 2^k exactly. -/
def FV.scale (k : Int) : FV → FV
  | .fin n m e => .fin n m (e + k)
  | v => v
/-- Is the value an exact zero? -/
def FV.isZero : FV → Bool
  | .fin _ 0 _ => true
  | _ => false
def FV.isNaN : FV → Bool
  | .nan => true
  | _ => false
def FV.isFin : FV → Bool
  | .fin .. => true
  | _ => false
/-- Comparison of two values neither of which is NaN: a < b. -/
def FV.lt : FV → FV → Bool
  | .nan, _ => false
  | _, .nan => false
  | .inf a, .inf b => a && !b
  | .inf a, .fin .. => a
  | .fin .., .inf b => !b
  | .fin na ma ea, .fin nb mb eb =>
    let e := if ea < eb then ea else eb
    decide (smant na (ma * 2 ^ (ea - e).toNat) < smant nb (mb * 2 ^ (eb - e).toNat))
/-- Equality of values; −0 equals +0 and NaN equals nothing. -/
def FV.eq (a b : FV) : Bool := !a.isNaN && !b.isNaN && !FV.lt a b && !FV.lt b a
def FV.le (a b : FV) : Bool := FV.lt a b || FV.eq a b

/-- ⌊√n⌋ by Newton steps from above; `fuel` steps. -/
def isqrtLoop (n : Nat) : Nat → Nat → Nat
  | 0, x => x
  | fuel + 1, x => let y := (x + n / x) / 2; if y < x then isqrtLoop n fuel y else x
/-- ⌊√n⌋. -/
def isqrt (n : Nat) : Nat := if n = 0 then 0 else isqrtLoop n (Nat.log2 n + 2) (2 ^ (Nat.log2 n / 2 + 1))

/-- Quotient with a sticky bit below 80 further bits: enough for one rounding to any format. -/
def FV.div : FV → FV → FV
  | .nan, _ => .nan
  | _, .nan => .nan
  | .inf _, .inf _ => .nan
  | .inf a, .fin n _ _ => .inf (a != n)
  | .fin n _ _, .inf b => .fin (n != b) 0 0
  | .fin na ma ea, .fin nb mb eb =>
    if mb = 0 then (if ma = 0 then .nan else .inf (na != nb))
    else if ma = 0 then .fin (na != nb) 0 0
    else
      let k := 80 + Nat.log2 mb
      let q := ma * 2 ^ k / mb
      let r := ma * 2 ^ k % mb
      .fin (na != nb) (2 * q + (if r = 0 then 0 else 1)) (ea - eb - k - 1)
/-- Square root with a sticky bit. -/
def FV.sqrt : FV → FV
  | .nan => .nan
  | .inf n => if n then .nan else .inf false
  | .fin n m e =>
    if m = 0 then .fin n 0 e
    else if n then .nan
    else
      let k : Nat := 160 + (e % 2).toNat
      let x := m * 2 ^ k
      let r := isqrt x
      .fin false (2 * r + (if r * r = x then 0 else 1)) ((e - k) / 2 - 1)
/-- Reciprocal square root with a sticky bit (03 R137). -/
def FV.rsqrt : FV → FV
  | .nan => .nan
  | .inf n => if n then .nan else .fin false 0 0
  | .fin n m e =>
    if m = 0 then .inf n
    else if n then .nan
    else
      let par : Nat := (e % 2).toNat
      let k : Nat := 240 + par
      let r := isqrt (2 ^ k / m)
      .fin false (2 * r + (if r * r * m = 2 ^ k then 0 else 1)) (-((e + k) / 2) - 1)

/-- Fixed-point precision of the elementary functions. -/
def fxBits : Nat := 160
/-- The product of 2^(2^−i) over the set bits of a fraction of `fxBits` bits, by iterated square roots. -/
def exp2Loop (frac : Nat) : Nat → Nat → Nat → Nat → Nat
  | 0, _, _, acc => acc
  | n + 1, i, c, acc =>
    let c' := isqrt (c * 2 ^ fxBits)
    exp2Loop frac n (i + 1) c' (if frac.testBit (fxBits - 1 - i) then acc * c' / 2 ^ fxBits else acc)
/-- 2^x with a sticky bit (03 R137). Beyond ±2^12 the result over- or underflows in every format. -/
def FV.exp2 : FV → FV
  | .nan => .nan
  | .inf n => if n then .fin false 0 0 else .inf false
  | .fin n m e =>
    if m = 0 then .fin false 1 0
    else
      let top : Int := (Nat.log2 m : Int) + e
      if 12 ≤ top then (if n then .fin false 1 (-4096) else .inf false)
      else if top < -40 then .fin false (if n then 2 ^ 100 - 1 else 2 ^ 100 + 1) (-100)
      else
        let x : Int := smant n (if 0 ≤ e + fxBits then m * 2 ^ (e + fxBits).toNat else m / 2 ^ (-(e + fxBits)).toNat)
        let w := x / (2 ^ fxBits : Nat)
        let fr := (x % (2 ^ fxBits : Nat)).toNat
        if fr = 0 then .fin false 1 w
        else .fin false (2 * exp2Loop fr 100 0 (2 * 2 ^ fxBits) (2 ^ fxBits) + 1) (w - fxBits - 1)

/-- The binary digits of log2 of f in [1, 2), f in `p` fraction bits, most significant first, accumulated. -/
def log2Loop (p : Nat) : Nat → Nat → Nat → Nat
  | 0, _, acc => acc
  | n + 1, f, acc =>
    let g := f * f / 2 ^ p
    if 2 * 2 ^ p ≤ g then log2Loop p n (g / 2) (2 * acc + 1) else log2Loop p n g (2 * acc)
/-- log2 x with a sticky bit (03 R137). -/
def FV.log2 : FV → FV
  | .nan => .nan
  | .inf n => if n then .nan else .inf false
  | .fin n m e =>
    if m = 0 then .inf true
    else if n then .nan
    else
      let l := Nat.log2 m
      let ex : Int := (l : Int) + e
      if m = 2 ^ l then .ofInt ex 0
      else
        let fr := log2Loop 300 110 (m * 2 ^ (300 - l)) 0
        .ofInt (2 * (ex * (2 ^ 110 : Nat) + fr) + 1) (-111)
/-- Reciprocal (03 R137). -/
def FV.rcp (x : FV) : FV := FV.div (.fin false 1 0) x

/-! ## Operations on codes of one format, each correctly rounded (03 R136, R137) -/

def fadd (f : Fmt) (a b : Nat) : Nat := rne f (FV.add (unpack f a) (unpack f b))
def fneg (f : Fmt) (a : Nat) : Nat := if (unpack f a).isNaN then f.nan else (a + f.signBit) % (2 * f.signBit)
def fsub (f : Fmt) (a b : Nat) : Nat := rne f (FV.add (unpack f a) (unpack f b).neg)
def fmul (f : Fmt) (a b : Nat) : Nat := rne f (FV.mul (unpack f a) (unpack f b))
/-- a × b + c rounded once. -/
def ffma (f : Fmt) (a b c : Nat) : Nat := rne f (FV.add (FV.mul (unpack f a) (unpack f b)) (unpack f c))
def fdiv (f : Fmt) (a b : Nat) : Nat := rne f (FV.div (unpack f a) (unpack f b))
def fsqrt (f : Fmt) (a : Nat) : Nat := rne f (FV.sqrt (unpack f a))
def flt (f : Fmt) (a b : Nat) : Bool := FV.lt (unpack f a) (unpack f b)
def feq (f : Fmt) (a b : Nat) : Bool := FV.eq (unpack f a) (unpack f b)
def fle (f : Fmt) (a b : Nat) : Bool := FV.le (unpack f a) (unpack f b)
def fisNaN (f : Fmt) (a : Nat) : Bool := (unpack f a).isNaN
def fisFin (f : Fmt) (a : Nat) : Bool := (unpack f a).isFin
/-- min of 03 R125. -/
def fmin (f : Fmt) (a b : Nat) : Nat :=
  if fisNaN f a || fisNaN f b then f.nan
  else if (unpack f a).isZero && (unpack f b).isZero then (if f.signBit ≤ a ∨ f.signBit ≤ b then f.signBit else 0)
  else if flt f b a then b else a
/-- max of 03 R125. -/
def fmax (f : Fmt) (a b : Nat) : Nat :=
  if fisNaN f a || fisNaN f b then f.nan
  else if (unpack f a).isZero && (unpack f b).isZero then (if f.signBit ≤ a ∧ f.signBit ≤ b then f.signBit else 0)
  else if flt f a b then b else a
/-- The VFN functions: 0 reciprocal, 1 reciprocal square root, 2 exp2, 3 log2 (05 Table 5-4). -/
def vfnOf (k : Nat) (f : Fmt) (a : Nat) : Nat :=
  let x := unpack f a
  rne f (if k = 0 then x.rcp else if k = 1 then x.rsqrt else if k = 2 then x.exp2 else x.log2)

/-! ## Short names for FP32 and FP16 -/

def add32 (a b : Nat) : Nat := fadd fFP32 a b
def sub32 (a b : Nat) : Nat := fsub fFP32 a b
def mul32 (a b : Nat) : Nat := fmul fFP32 a b
def div32 (a b : Nat) : Nat := fdiv fFP32 a b
def lt32 (a b : Nat) : Bool := flt fFP32 a b
def le32 (a b : Nat) : Bool := fle fFP32 a b
def min32 (a b : Nat) : Nat := fmin fFP32 a b
def max32 (a b : Nat) : Nat := fmax fFP32 a b
def isFin32 (a : Nat) : Bool := fisFin fFP32 a
def isNaN32 (a : Nat) : Bool := fisNaN fFP32 a
/-- An integer in FP32. -/
def int32f (n : Int) : Nat := rne32 (.ofInt n 0)
/-- A ratio of integers rounded once to FP32. -/
def ratio32 (n : Int) (d : Nat) : Nat := rne32 (FV.div (.ofInt n 0) (.fin false d 0))
/-- An exact rational rounded once to FP32. -/
def q32 (q : Q) : Nat := ratio32 q.num q.den
def one32 : Nat := 0x3F800000
def half32 : Nat := 0x3F000000
def neg32 (a : Nat) : Nat := fneg fFP32 a
/-- FP16 to FP32, exact. -/
def h2f (a : Nat) : Nat := rne32 (unpack fFP16 a)
/-- FP32 to FP16, round to nearest even, overflow to infinity. -/
def f2h (a : Nat) : Nat := rne fFP16 (unpack fFP32 a)

/-- RNE_int of an exact finite value (03 R122). -/
def rneInt : FV → Int
  | .fin n m e =>
    if 0 ≤ e then smant n (m * 2 ^ e.toNat)
    else
      let sh := (-e).toNat
      let k := m / 2 ^ sh
      let r := m % 2 ^ sh
      smant n (if 2 ^ (sh - 1) < r ∨ (r = 2 ^ (sh - 1) ∧ k % 2 = 1) then k + 1 else k)
  | _ => 0
/-- ⌊x⌋ of an exact finite value. -/
def floorFV : FV → Int
  | .fin n m e => if 0 ≤ e then smant n (m * 2 ^ e.toNat) else smant n m / (2 ^ (-e).toNat : Nat)
  | _ => 0
/-- ⌊x⌋ of an FP32 code. -/
def floor32 (a : Nat) : Int := floorFV (unpack fFP32 a)

/-! ## Integer lanes and requantisation -/

/-- The signed value of a 32-bit pattern. -/
def s32 (n : Nat) : Int := sext 32 n
/-- Clamp to the S32 range, as a 32-bit pattern. -/
def sat32 (x : Int) : Nat := trunc 32 (clampI (-2147483648) 2147483647 x)
/-- The correctly rounded square root. -/
def sqrt32 (x : Nat) : Nat := fsqrt fFP32 x
/-- FP32 to S32 of VCVT: RNE_int, clamped, 0 for NaN (05 Table 5-4). -/
def f2s32 (a : Nat) : Nat :=
  match unpack fFP32 a with
  | .nan => 0
  | .inf n => if n then 0x80000000 else 0x7FFFFFFF
  | v => sat32 (rneInt v)
/-- q of 03 R115 before the zero point: acc × mul ÷ 2^sh, rounded half to even. -/
def requantQ (acc mul : Int) (sh : Nat) : Int :=
  let t := acc * mul
  let d : Int := (2 ^ sh : Nat)
  let q := t / d
  let r := t - q * d
  let half : Int := (2 ^ (sh - 1) : Nat)
  if r > half ∨ (r = half ∧ q % 2 = 1) then q + 1 else q
/-- Quantise an FP32 value with reciprocal scale r and zero point z (03 Table 3-4). -/
def quantise (lo hi z : Int) (r x : Nat) : Int :=
  if isNaN32 x then z else
  match unpack fFP32 (mul32 x r) with
  | .nan => z
  | .inf n => if n then lo else hi
  | v => clampI lo hi (rneInt v + z)

/-! ## Block scales (03 R104, R126) -/

/-- The element types of block-scaled tensors: 0 BS8-S8, 1 BS8-E4M3, 2 BS8-E5M2, 3 BS4-S4. -/
def blockMax (ty : Nat) : FV :=
  if ty = 0 then .fin false 127 0 else if ty = 1 then .fin false 448 0 else if ty = 2 then .fin false 57344 0 else .fin false 7 0
/-- The smallest scale code from `c` on with a × 2^(127 − c) no larger than `lim`. -/
def scaleCodeFrom (lim a : FV) : Nat → Nat → Nat
  | 0, c => c
  | n + 1, c => if FV.le (a.scale (127 - (c : Int))) lim then c else scaleCodeFrom lim a n (c + 1)
/-- The code of step 3 of 03 R126 for a finite magnitude. -/
def scaleCode (lim a : FV) : Nat := if a.isZero then 0 else scaleCodeFrom lim a 254 0
/-- The largest magnitude of a list of exact finite values. -/
def amaxFV (xs : List FV) : FV := xs.foldl (fun a x => if x.isFin && FV.lt a x.abs then x.abs else a) (.fin false 0 0)
/-- The block scale code of a block of FP32 values (03 R126). -/
def blockCode (ty : Nat) (xs : List Nat) : Nat :=
  let vs := xs.map (unpack fFP32)
  if vs.any (fun v => !v.isFin) then 0xFF else scaleCode (blockMax ty) (amaxFV vs)
/-- One element of a block as its code, under scale code c (03 R126). -/
def blockElem (ty c x : Nat) : Nat :=
  let v := (unpack fFP32 x).scale (127 - (c : Int))
  if ty = 1 then (convert fE4M3 true v).code
  else if ty = 2 then (convert fE5M2 true v).code
  else if ty = 0 then trunc 8 (clampI (-127) 127 (rneInt v))
  else trunc 4 (clampI (-7) 7 (rneInt v))
/-- The exact value of a block element's code, before the scale. -/
def blockVal (ty x : Nat) : FV :=
  if ty = 1 then unpack fE4M3 x else if ty = 2 then unpack fE5M2 x
  else if ty = 0 then .ofInt (sext 8 x) 0 else .ofInt (sext 4 x) 0

/-! ## Chunked accumulation (03 R118, R119) -/

/-- The exact sum of a list of terms: +0 unless every term is −0 (03 R98); +0 of no terms. -/
def exactSum : List FV → FV
  | [] => .fin false 0 0
  | x :: r => r.foldl FV.add x
/-- The element types BS8-S8 and BS4-S4. -/
def blockIsInt (ty : Nat) : Bool := ty == 0 || ty == 3
/-- The exact product of two block elements; a product of integers has no signed zero. -/
def blockMul (ta tb a b : Nat) : FV :=
  match FV.mul (blockVal ta a) (blockVal tb b) with
  | .fin n m e => .fin (n && !(blockIsInt ta && m == 0)) m e
  | v => v
/-- One block pair of 03 R119: an accumulator, the scale codes and the exact products of the block. -/
def blockPair (acc ca cb : Nat) (terms : List FV) : Nat :=
  if ca = 0xFF ∨ cb = 0xFF then fFP32.nan
  else rne32 (FV.add (unpack fFP32 acc) ((exactSum terms).scale ((ca : Int) + cb - 254)))

/-- acc + an exact sum of products, rounded once to FP32; infinities of both signs and NaNs give NaN. -/
def accStep (acc : Nat) (prods : List FV) : Nat :=
  rne32 (prods.foldl FV.add (unpack fFP32 acc))

/-- Keyed stochastic rounding of an FP32 pattern to BF16 (03 R133). -/
def srBf16 (v seed step index : Nat) : Nat :=
  if isNaN32 v then 0x7FC0
  else if v % 2 ^ 31 = 0x7F800000 then v / 65536
  else
    let m := 2 ^ 64
    let x0 := seed ^^^ ((step <<< 32) ||| index)
    let x1 := ((x0 ^^^ (x0 >>> 30)) * 0xBF58476D1CE4E5B9) % m
    let x2 := ((x1 ^^^ (x1 >>> 27)) * 0x94D049BB133111EB) % m
    let x3 := x2 ^^^ (x2 >>> 31)
    let hi := v / 65536
    let hi' := if 65536 ≤ v % 65536 + x3 % 65536 then hi + 1 else hi
    if hi' % 32768 = 0x7F80 then (hi' / 32768) * 32768 + 0x7F7F else hi'

/-- Element format codes of 04 Table 4-7 that are floating-point. -/
def fmtOf (code : Nat) : Option Fmt :=
  if code = 0x05 then some fE4M3 else if code = 0x06 then some fE5M2 else if code = 0x07 then some fBF16
  else if code = 0x08 then some fFP16 else if code = 0x09 then some fFP32 else none

end Sys2Proof.Machine
end

