-- ==== Sys2Proof/Machine/Operands.lean ====
section
/-!
DEFINITION. Operand forms: the fields of a command entry (11 Table 11-7), of the parameter blocks (11 Table 11-9) and of
an instruction word's immediates (05 Table 5-3).
-/
namespace Sys2Proof.Machine

/-! ## Command entries -/

def entOpcode (e : Bytes) : Nat := fld e 0 1
def entIrq (e : Bytes) : Bool := (fld e 2 1).testBit 0
def entFence (e : Bytes) : Bool := (fld e 2 1).testBit 1
def entQuiet (e : Bytes) : Bool := (fld e 2 1).testBit 2
def entTag (e : Bytes) : Nat := fld e 4 4
def entAddr0 (e : Bytes) : Nat := fld e 8 8
def entAddr1 (e : Bytes) : Nat := fld e 16 8
/-- ARGi, i = 0–5. -/
def entArg (e : Bytes) (i : Nat) : Nat := fld e (24 + 4 * i) 4

/-! ## The context block (256 bytes) -/

def cbClassBE (c : Bytes) : Bool := fld c 0x001 1 == 1
def cbGroup (c : Bytes) : Nat := fld c 0x002 1
def cbFlags (c : Bytes) : Nat := fld c 0x003 1
def cbGuard (c : Bytes) : Bool := (cbFlags c).testBit 0
def cbFlow (c : Bytes) : Bool := (cbFlags c).testBit 1
def cbExtra (c : Bytes) : Bool := (cbFlags c).testBit 2
def cbRefetch (c : Bytes) : Bool := (cbFlags c).testBit 3
def cbImmediate (c : Bytes) : Bool := (cbFlags c).testBit 4
def cbDigest (c : Bytes) : Bool := (cbFlags c).testBit 5
def cbReplay (c : Bytes) : Bool := (cbFlags c).testBit 6
def cbFeMask (c : Bytes) : Nat := fld c 0x004 2
def cbG (c : Bytes) : Nat := fld c 0x006 1
def cbStartRung (c : Bytes) : Nat := fld c 0x007 1
def cbWidth (c : Bytes) : Nat := fld c 0x008 2
def cbHeight (c : Bytes) : Nat := fld c 0x00A 2
def cbSxCode (c : Bytes) : Nat := fld c 0x00C 1
def cbSyCode (c : Bytes) : Nat := fld c 0x00D 1
def cbUi (c : Bytes) : Nat := fld c 0x00E 1
def cbX (c : Bytes) : Nat := fld c 0x00F 1
def cbPoseLead (c : Bytes) : Nat := fld c 0x010 4
def cbSMax (c : Bytes) : Nat := fld c 0x014 4
def cbF0 (c : Bytes) : Nat := fld c 0x018 4
def cbSat (c : Bytes) : Nat := fld c 0x01C 1
/-- PROJECTION: six FP32 patterns. -/
def cbProj (c : Bytes) : List Nat := (List.range 6).map (fun i => fld c (0x020 + 4 * i) 4)
def cbPoolInit (c : Bytes) : Nat := fld c 0x038 2
def cbPoolMax (c : Bytes) : Nat := fld c 0x03A 2
def cbGrowth (c : Bytes) : Nat := fld c 0x03C 1
def cbNodeLimit (c : Bytes) : Nat := fld c 0x03E 2
def cbBlend (c : Bytes) : Nat := fld c 0x040 2
def cbHit (c : Bytes) : Nat := fld c 0x042 2
def cbGeomArg (c : Bytes) (i : Nat) : Nat := fld c (0x044 + 4 * i) 4
def cbLatches (c : Bytes) : Nat := fld c 0x054 2
def cbStaging (c : Bytes) : Nat := fld c 0x056 2
def cbHasps (c : Bytes) : Nat := fld c 0x058 2
def cbHaspInit (c : Bytes) : Nat := fld c 0x05A 2
def cbWaitLimit (c : Bytes) : Nat := fld c 0x05C 4
def cbHaspTimeout (c : Bytes) : Nat := fld c 0x060 4
def cbRemoteLimit (c : Bytes) : Nat := fld c 0x064 4
def cbGMax (c : Bytes) : Nat := fld c 0x068 4
def cbAdaptFlags (c : Bytes) : Nat := fld c 0x070 1
def cbAdapt (c : Bytes) : Bool := (cbAdaptFlags c).testBit 0
def cbStrict (c : Bytes) : Bool := (cbAdaptFlags c).testBit 1
def cbLockstep (c : Bytes) : Bool := (cbAdaptFlags c).testBit 2
def cbCaptures (c : Bytes) : Nat := fld c 0x071 1
def cbStagingDepth (c : Bytes) : Nat := fld c 0x072 1
def cbBatch (c : Bytes) : Nat := fld c 0x073 1
def cbTrainRung (c : Bytes) : Nat := fld c 0x074 1
def cbSteps (c : Bytes) : Nat := fld c 0x076 2
def cbSeed (c : Bytes) : Nat := fld c 0x078 8
def cbStore (c : Bytes) : Nat := fld c 0x080 2
def cbPublish (c : Bytes) : Nat := fld c 0x084 4
def cbLr (c : Bytes) : Nat := fld c 0x088 4
def cbBeta1 (c : Bytes) : Nat := fld c 0x08C 4
def cbBeta2 (c : Bytes) : Nat := fld c 0x090 4
def cbEps (c : Bytes) : Nat := fld c 0x094 4
def cbDecay (c : Bytes) : Nat := fld c 0x098 4
def cbMemory (c : Bytes) : Nat := fld c 0x0A0 8
def cbSqBase (c : Bytes) : Nat := fld c 0x0A8 8
def cbCqBase (c : Bytes) : Nat := fld c 0x0B0 8
def cbSqLog2 (c : Bytes) : Nat := fld c 0x0B8 1
def cbCqLog2 (c : Bytes) : Nat := fld c 0x0B9 1
def cbVector (c : Bytes) : Nat := fld c 0x0BA 2
def cbIrqMask (c : Bytes) : Nat := fld c 0x0BC 2
def cbInfoBase (c : Bytes) : Nat := fld c 0x0C0 8
def cbInfoCount (c : Bytes) : Nat := fld c 0x0C8 4
def cbReport (c : Bytes) : Nat := fld c 0x0D0 8

/-- Twice the factor of a scale code: codes 0–4 give 1, 1.5, 2, 3, 4. -/
def scale2 (code : Nat) : Nat := [2, 3, 4, 6, 8].getD code 2
/-- The input width of a context (02 R65). -/
def inWidth (c : Bytes) : Nat := cbWidth c * 2 / scale2 (cbSxCode c)
/-- The input height of a context (02 R65). -/
def inHeight (c : Bytes) : Nat := cbHeight c * 2 / scale2 (cbSyCode c)
/-- Output tiles per row, per column, and in all (01 R25). -/
def tilesX (c : Bytes) : Nat := cdiv (cbWidth c) 64
def tilesY (c : Bytes) : Nat := cdiv (cbHeight c) 64
def tileCount (c : Bytes) : Nat := tilesX c * tilesY c
/-- INFO_BYTES of 11 R403. -/
def infoBytes (c : Bytes) : Nat := 128 + 64 * cdiv (cdiv (tileCount c) 4) 64

/-! ## The head block (128 bytes) -/

def hbFormat (h : Bytes) : Nat := fld h 0x01 1
def hbColour (h : Bytes) : Nat := fld h 0x02 1
def hbFlags (h : Bytes) : Nat := fld h 0x03 1
def hbVrr (h : Bytes) : Bool := (hbFlags h).testBit 0
def hbGenlock (h : Bytes) : Bool := (hbFlags h).testBit 1
def hbHeaderOnly (h : Bytes) : Bool := (hbFlags h).testBit 2
def hbDsc (h : Bytes) : Bool := (hbFlags h).testBit 3
def hbHinge (h : Bytes) : Bool := (hbFlags h).testBit 4
def hbHead (h : Bytes) : Nat := fld h 0x04 2
def hbWidth (h : Bytes) : Nat := fld h 0x08 2
def hbHeight (h : Bytes) : Nat := fld h 0x0A 2
def hbVtField (h : Bytes) : Nat := fld h 0x0C 2
def hbLead (h : Bytes) : Nat := fld h 0x0E 2
def hbSlice (h : Bytes) : Nat := fld h 0x10 2
def hbFreeze (h : Bytes) : Nat := fld h 0x12 1
def hbBlank (h : Bytes) (i : Nat) : Nat := fld h (0x14 + 2 * i) 2
def hbPeriodField (h : Bytes) : Nat := fld h 0x20 8
def hbMinPeriod (h : Bytes) : Nat := fld h 0x28 8
def hbMaxPeriod (h : Bytes) : Nat := fld h 0x30 8
def hbOffset (h : Bytes) : Nat := fld h 0x38 8
def hbPixClock (h : Bytes) : Nat := fld h 0x40 4
def hbRate (h : Bytes) : Nat := fld h 0x44 1
def hbLanes (h : Bytes) : Nat := fld h 0x45 1
def hbDscBpp (h : Bytes) : Nat := fld h 0x46 1
def hbDscSlices (h : Bytes) : Nat := fld h 0x47 1
def hbDscHeight (h : Bytes) : Nat := fld h 0x48 2
def hbRingBase (h : Bytes) : Nat := fld h 0x50 8
def hbProducer (h : Bytes) : Nat := fld h 0x58 8
def hbEntryBytes (h : Bytes) : Nat := fld h 0x60 4
def hbEntryCount (h : Bytes) : Nat := fld h 0x64 2
def hbHingeDest (h : Bytes) : Nat := fld h 0x68 4
/-- The vertical total of a head (09 Table 9-1). -/
def hbVt (h : Bytes) : Nat :=
  if 1024 ≤ hbHead h then hbHeight h + hbBlank h 3 + hbBlank h 4 + hbBlank h 5 else hbVtField h
/-- The horizontal total of a physical head. -/
def hbHt (h : Bytes) : Nat := hbWidth h + hbBlank h 0 + hbBlank h 1 + hbBlank h 2
/-- PERIOD in head units (09 R322). -/
def hbPeriod (h : Bytes) : Nat :=
  if 1024 ≤ hbHead h then hbHt h * hbVt h * 2 ^ 40 / hbPixClock h else hbPeriodField h
/-- D in head units: the offset of line `lead lines` (01 R57, 09 R322). -/
def hbD (h : Bytes) : Nat := hbLead h * hbPeriod h / hbVt h

/-! ## The ward block (16,896 bytes) -/

def wbWard (b : Bytes) : Nat := fld b 0x0001 1

/-! ## Instruction words -/

/-- IMM36 of MOVI: SRC_B, SRC_C and IMM24 as one field (05 R191). -/
def imm36 (f : KFields) : Nat := (f.b.toNat * 64 + f.c.toNat) * 2 ^ 24 + f.imm.toNat
/-- The immediate of MOVH: its low 32 bits. -/
def imm32 (f : KFields) : Nat := imm36 f % 2 ^ 32
/-- IMM24 sign-extended. -/
def immS (f : KFields) : Int := sext 24 f.imm.toNat
/-- The word of an instruction: opcode and fields as 05 Table 5-3 lays them out. -/
def kword (op : Nat) (f : KFields) : Nat :=
  op * 2 ^ 56 + b2n f.pneg * 2 ^ 55 + f.pred.toNat * 2 ^ 52 + f.mod.toNat * 2 ^ 48 + f.dst.toNat * 2 ^ 42
    + f.a.toNat * 2 ^ 36 + f.b.toNat * 2 ^ 30 + f.c.toNat * 2 ^ 24 + f.imm.toNat
/-- The fields of an instruction word. -/
def kfields (w : Nat) : KFields :=
  { pneg := w.testBit 55, pred := BitVec.ofNat 3 (w >>> 52), mod := BitVec.ofNat 4 (w >>> 48),
    dst := BitVec.ofNat 6 (w >>> 42), a := BitVec.ofNat 6 (w >>> 36), b := BitVec.ofNat 6 (w >>> 30),
    c := BitVec.ofNat 6 (w >>> 24), imm := BitVec.ofNat 24 w }

end Sys2Proof.Machine
end

