-- ==== Sys2Proof/Config.lean ====
section
/-!
DEFINITION. What a part fixes, and the free values: constants with no body, so that nothing in Lean can prove a value of one.
-/
namespace Sys2Proof.Config

/-- A fresh value that the spec leaves open (log 2): the model applies it to the counter `State.free`. -/
opaque freeWord : Nat → BitVec 64
/-- A byte of host memory that a failed transfer leaves undefined (11 R398, R407, R548; log 2). -/
opaque freeByte : Nat → BitVec 8
/-- The silicon stepping of KW_ID [27:24] (11 Table 11-5; log 2). -/
opaque stepping : BitVec 4
/-- The 64-bit device ID fused into the part (15 R502; log 2). -/
opaque deviceId : BitVec 64
/-- SVN_FUSED of MG_SEC_STATUS at power-on (15 Table 15-4; log 2). -/
opaque svnFused : BitVec 6
/-- The SHA-256 hash of root public key k, k = 0–3 (15 R493; log 2). -/
opaque rootKeyHash : Nat → BitVec 256
/-- The SHA-256 hash of the debug public key (15 R502; log 2). -/
opaque debugKeyHash : BitVec 256
/-- The unique device identifier of SMBus ARP (16 R524; log 2). -/
opaque udid : BitVec 128
/-- The energy coefficient, in femtojoules, of quantity q of 16 Table 16-9 at operating point p (10 R383, 16 R523; log 2). -/
opaque energy : Nat → Nat → Nat
/-- The mesh position (column, row) of the k-th core of a BKZ-1280 that is not fused off (16 R511; log 2). -/
opaque meshPos : Nat → Nat × Nat
/-- Is root key slot k revoked (15 R493; log 2)? -/
opaque keyRevoked : Nat → Bool
/-- The vault channel that the Keeper chooses for one granule, from the ward's channel mask and the allocation's number (10 R349). -/
opaque placement : Nat → Nat → Nat
/-- The integer that a projected position that is not finite snaps to (06 R222 states none; log 2). -/
opaque snapOpen : BitVec 32 → Int
/-- The pending records that a context with a block needs of its ward (10 R353 states none; log 83). -/
opaque pendingNeed : Nat → Nat
/-- Whether a context's built-in work that ends at an instant read a line of an object: where planes, tensors and weights lie in an
object's granules, and so which work reads a line, 02 R77, 04 R148 and 15 R482 do not say: allocation number, line, slot, instant
(log 88). -/
opaque lineRead : Nat → Nat → Nat → Nat → Bool

end Sys2Proof.Config
end

