-- ==== Sys2Proof/Machine/State.lean ====
section
/-!
DEFINITION. The state of the block as plain data: everything the spec gives the machine, the queue of waiting
commands, and the state after reset. Float values are held as bit patterns; instants are root-PLL cycles since TB 0
(one TB cycle is 60 of them, one fabric cycle 8: 00 Table 0-3).
-/
namespace Sys2Proof.Machine

/-! ## Images of pixels -/

/-- A decoded plane of `w` × `h` elements of `ch` channels, row-major, each channel a bit pattern. -/
structure Img where
  w : Nat := 0
  h : Nat := 0
  ch : Nat := 1
  data : List Nat := []
  deriving DecidableEq, Repr

/-- The codes of a tensor, row-major with channels innermost, the scale codes of its blocks, the code of a delayed scale, and
the first block whose tags disagree (03 R107): its number, the expected tag, the data tag and the scale tag. -/
structure TVal where
  data : List Nat := []
  scales : List Nat := []
  dcode : Nat := 127
  skew : Option (Nat × Nat × Nat × Nat) := none
  deriving DecidableEq, Repr

/-! ## Rings and functions (chapter 11) -/

/-- A fetched command entry in progress (11 R405). -/
structure Cmd where
  seq : Nat := 0
  /-- The 64 bytes of the entry as fetched. -/
  entry : Bytes := []
  started : Bool := false
  /-- Bytes that the command has read, for commands of more than one step. -/
  block : Bytes := []
  /-- A value kept between the command's steps (a handle, a head, a digest). -/
  aux : Nat := 0
  deriving DecidableEq, Repr

/-- A completion record to be posted (11 Table 11-10), without SEQ of non-completions and PHASE. -/
structure Rec where
  type : Nat := 1
  code : Nat := 0
  reason : Nat := 0
  opcode : Nat := 0
  /-- SEQ of a COMPLETION; other types take the ring's last fetched SEQ. -/
  seq : Option Nat := none
  /-- Bytes 12–31. -/
  body : Bytes := []
  fence : Bool := false
  irq : Bool := false
  slot : Nat := 0
  gen : Nat := 0
  deriving DecidableEq, Repr

/-- A submission and completion ring pair (11 R391–R395, R409). -/
structure Ring where
  live : Bool := false
  sqBase : Nat := 0
  cqBase : Nat := 0
  sqLog2 : Nat := 6
  cqLog2 : Nat := 6
  /-- TAIL as last accepted. -/
  tail : Nat := 0
  /-- HEAD of KW_CQ_DB as last accepted. -/
  head : Nat := 0
  /-- CTX_GEN of KW_SQ_DB, KW_CQ_DB and KW_CQ_ARM as last accepted; reserved on an admin page (11 Table 11-6). -/
  tailGen : Nat := 0
  headGen : Nat := 0
  armGen : Nat := 0
  /-- The last TAIL write: when, with TAIL and its CTX_GEN before. A teardown of the same fabric cycle takes it back (11 R396). -/
  tailWas : Option (Nat × Nat × Nat) := none
  /-- When a write last cleared ARM: a record of the same fabric cycle was posted before it (11 R409). -/
  disarmedAt : Option Nat := none
  /-- The records dropped in the fabric cycle of an instant: a write of KW_CQ_DB in it lets them be posted (11 R396). -/
  droppedAt : Nat := 0
  dropped : List Rec := []
  fetchHead : Nat := 0
  nextSeq : Nat := 0
  /-- Records posted since the ring was created or enabled; index and PHASE follow from it (11 R394). -/
  posted : Nat := 0
  /-- For each posted, unreturned record, oldest first: did it raise the interrupt condition (11 R408)? -/
  unreturned : List Bool := []
  lost : Nat := 0
  /-- Records dropped since the last EVENTS_LOST record. -/
  lostOwed : Nat := 0
  arm : Bool := false
  cmds : List Cmd := []
  deriving DecidableEq, Repr

/-- A function's MSI-X table entry (11 Table 11-1). -/
structure MsixEntry where
  addr : Nat := 0
  data : Nat := 0
  masked : Bool := true
  deriving DecidableEq, Repr

/-- The registers of one PCI Express function (11 Tables 11-4, 11-5). -/
structure Fn where
  errStatus : BitVec 32 := 0
  /-- Bits of KW_ERR_STATUS that the device has set in this fabric cycle: a write does not clear them (00 R18). -/
  errFresh : BitVec 32 := 0
  errMask : BitVec 32 := 0x0E
  errInfo : U64 := 0
  aperture : U64 := 0
  sqBase : U64 := 0
  cqBase : U64 := 0
  /-- KW_ADM_CFG without ENABLE. -/
  admCfg : BitVec 32 := 0
  enabled : Bool := false
  /-- ENABLE was cleared and reads 1 until every fetched admin command has posted its record (11 R390). -/
  disabling : Bool := false
  ring : Ring := {}
  d3hot : Bool := false
  msix : Table MsixEntry := []
  /-- Vectors whose pending bit is set. -/
  pba : List Nat := []
  deriving DecidableEq, Repr

/-! ## Wards (chapter 10) -/

/-- A ward's resources (10 Table 10-1), masks as numbers. -/
structure WardCfg where
  quantum : Nat := 0
  ingest : Nat := 0
  staging : Nat := 0
  latches : Nat := 0
  hasps : Nat := 0
  ctxLimit : Nat := 0
  pendRecs : Nat := 0
  ways : Nat := 0
  feMask : Nat := 0
  rtuMask : Nat := 0
  flowMask : Nat := 0
  chanMask : Nat := 0
  coreMask : Nat := 0
  headMask : Nat := 0
  groups : List Nat := []
  deriving DecidableEq, Repr

/-- What a run of granules of a ward's memory holds (11 R388). -/
inductive AllocKind where
  | general (slot : Nat)
  | buffers (slot : Nat)
  | binPool (slot : Nat)
  | store (slot : Nat)
  | stats (slot : Nat)
  | staging (slot : Nat)
  /-- Frame-scope tensors of an image that CUSTOM kernels address (04 R148; 05 Table 5-10). -/
  | tensors (slot image : Nat)
  | image (handle : Nat)
  | hierarchy (slot handle : Nat)
  | graph (slot : Nat)
  /-- The copies of the weights in the backward range (08 R309). -/
  | copies (slot : Nat)
  | spare
  deriving DecidableEq, Repr

/-- A run of 256 KiB granules from ward address `base` × 2^18 (11 R388). -/
structure Alloc where
  base : Nat := 0
  count : Nat := 0
  kind : AllocKind
  /-- Mapped read-only, with this content (images and hierarchies). -/
  ro : Bool := false
  content : Bytes := []
  /-- The allocation's number, from which `Config.placement` gives its channels. -/
  serial : Nat := 0
  /-- The ward's channel mask when it was placed. -/
  chans : Nat := 0
  /-- Granules of address space kept for the object to grow into (a statistics area, 14 R477). -/
  room : Nat := 0
  deriving DecidableEq, Repr

/-- A loaded model image (04 R144); its bytes are the content of its allocation. -/
structure Image where
  base : Nat := 0
  bytes : Bytes := []
  deriving DecidableEq, Repr

/-- A render or pose packet in transit or in a queue of its ward (02 R81, R83). -/
structure Packet where
  pose : Bool := false
  /-- 0 the host link, 1 + p hinge port p (02 R79). -/
  port : Nat := 0
  hops : Nat := 0
  bytes : Bytes := []
  /-- The instant its last byte arrived. -/
  arrival : Nat := 0
  /-- The INGEST command that carries it: the slot of its ring and its SEQ. -/
  cmd : Option (Nat × Nat) := none
  /-- S of 01 Table 1-5: its bytes and those queued ahead of it when it arrived. -/
  size : Nat := 0
  deriving DecidableEq, Repr

/-- A pool growth that waits for chunks: its context, when its front end stopped, and the chunks it takes (06 R237). -/
structure GrowthWait where
  slot : Nat := 0
  since : Nat := 0
  chunks : Nat := 0
  deriving DecidableEq, Repr
/-- A ward (10 R345–R350). -/
structure Ward where
  cfg : WardCfg := {}
  /-- The ward's vault key, as a serial number of a value drawn from the random source (15 R499). -/
  key : Option Nat := none
  allocs : List Alloc := []
  mem : Mem := []
  /-- Free 64 KiB chunks of the spare pool (10 R350); its granules are allocations of kind `spare`. -/
  spare : Nat := 0
  images : Table Image := []
  transit : List Packet := []
  ingestQ : List Packet := []
  poseQ : List Packet := []
  discards : Nat := 0
  /-- Pool growths that wait for chunks, in the order of 06 R237. -/
  growthWait : List GrowthWait := []
  /-- Ward addresses of lines that read as uncorrectable (15 R482). -/
  poisoned : List Nat := []
  deriving DecidableEq, Repr

/-! ## Cores, tasks and threads (chapters 5 and 10) -/

/-- Why a thread does not issue (05 R187). -/
inductive Park where
  | running
  | latch (staging : Bool) (index : Nat)
  | hasp (id : Nat)
  | pixels (seq : Nat) (px : List Nat)
  | rtu
  | copies (atMost : Nat)
  | fence (scopes : Nat)
  | release
  | remote (record : Nat)
  | recordWait
  | ending
  | ended
  deriving DecidableEq, Repr

/-- What a parked thread still has to do: a release held until its copies are complete (05 R198), or a remote operation held
until an earlier one of the thread ends or a pending record is free (10 R368; 12 R431). -/
inductive Held where
  | setLatch (staging : Bool) (index : Nat)
  | haspRelease (index : Nat)
  | remote (op index dst : Nat)
  deriving DecidableEq, Repr

/-- An accumulator tile of 16 × 16 elements, row-major (05 R194). -/
structure AccTile where
  fp : Bool := false
  vals : List (BitVec 32) := []
  deriving DecidableEq, Repr

/-- A register of a thread as a destination. -/
inductive Dest where
  | none
  | s (i : Nat)
  | v (i : Nat)
  deriving DecidableEq, Repr

/-- One hardware thread (05 R185, R190). Registers not listed hold zero; s0 and p0 are hard-wired in the accessors. -/
structure Thread where
  task : Nat := 0
  index : Nat := 0
  pc : Nat := 0
  s : List U64 := []
  v : List V1024 := []
  p : List U64 := []
  tiles : Table AccTile := []
  park : Park := .running
  parkedAt : Nat := 0
  held : Option Held := none
  /-- Destinations of loads that have not returned. -/
  pendingDest : List Dest := []
  /-- The number of its latest issue among its core's; zero before the first (05 R186). -/
  lastIssue : Nat := 0
  /-- Pixels handed to the thread with their sequence number, not yet released (05 R206). -/
  fragments : List (Nat × Nat) := []
  /-- The thread has executed an ATOM or a remote operation (10 R363, 15 R489). -/
  irrevocable : Bool := false
  deriving DecidableEq, Repr

/-- The kinds of task the Tumbler deals (10 R356, R357). -/
inductive TaskKind where
  | tile (i : Nat)
  | bin (b : Nat)
  | ray (tile : Nat)
  | hit (tile : Nat)
  | splat
  | capture (p : Nat)
  | stripe (layer j : Nat)
  | aux (layer j : Nat)
  | train (step : Nat)
  /-- A batch of a BLEND kernel, and in bin mode the bin task whose planes it works on (06 R242). -/
  | blend (bin : Nat) (parent : Option Nat)
  /-- The kernel of a CUSTOM layer that a tile task runs (05 R215): its threads beside the tile task's own. -/
  | custom (parent : Nat)
  deriving DecidableEq, Repr

/-- The code a task runs: the device's own, or a kernel of a loaded image (05 R212, R215). -/
inductive Code where
  | builtIn
  | kernel (image index : Nat)
  deriving DecidableEq, Repr

/-- A task (10 R356–R358). -/
structure Task where
  slot : Nat := 0
  gen : Nat := 0
  core : Nat := 0
  kind : TaskKind := .splat
  lc : Bool := false
  /-- Deadline key in root cycles (10 R357). -/
  deadline : Nat := 0
  index : Nat := 0
  /-- Output frame the task belongs to, if any. -/
  frame : Option Nat := none
  started : Bool := false
  /-- The instants at which it was dealt and admitted (04 R161; 10 R363). -/
  dealtAt : Nat := 0
  startedAt : Nat := 0
  /-- The core from whose deque another core stole it (10 R363). -/
  stolenFrom : Option Nat := none
  threads : Nat := 8
  vregs : Nat := 32
  size : Nat := 0
  /-- Its pages of the task area, 0–59 (05 R188). -/
  pages : List Nat := []
  code : Code := .builtIn
  store : Mem := []
  latches : BitVec 8 := 0
  /-- The fabric cycle in which local latches were last set, and those set in it (05 R199). -/
  latchMark : Nat × Nat := (0, 0)
  layer : Nat := 0
  /-- Layers of the built-in code already run. -/
  progress : Nat := 0
  /-- Registers that its threads start with, where a table gives them (06 Tables 6-3, 6-8; 05 R215). -/
  boot : Option Thread := none
  /-- The output streams of the CUSTOM layers that a tile task has run, by layer (05 R215). -/
  customs : Table Bytes := []
  rung : Nat := 0
  /-- The task inherits LC level, with this deadline key (10 R366). -/
  inheritKey : Option Nat := none
  deriving DecidableEq, Repr

/-- A vault request that has not returned (05 R196). -/
structure VReq where
  thread : Nat := 0
  dest : Dest := .none
  value : Nat := 0
  addr : Nat := 0
  slot : Nat := 0
  gen : Nat := 0
  deriving DecidableEq, Repr

/-- A copy that has not completed (05 R211): what it will write. -/
structure Copy where
  thread : Nat := 0
  slot : Nat := 0
  gen : Nat := 0
  ward : Nat := 0
  wardWrites : List (Nat × Bytes) := []
  storeWrites : List (Nat × Bytes) := []
  /-- An uncorrectable line that the copy reads (15 R482). -/
  spoiled : Option Nat := none
  deriving DecidableEq, Repr

/-- A halo slot in use on a core (05 R189). -/
structure HaloSlot where
  slot : Nat := 0
  layer : Nat := 0
  stripe : Nat := 0
  /-- The first of its four pages. -/
  page : Nat := 0
  /-- The input tensor's rows that were pushed: how many, and their bytes. -/
  count : Nat := 0
  rows : List Bytes := []
  deriving DecidableEq, Repr

/-- Whether a logical core runs, drains or has no physical core (15 R488–R490). -/
inductive CoreMode where
  | running
  | draining (cause : CoreCause) (since : Nat)
  | failed
  deriving DecidableEq, Repr

/-- A logical core. -/
structure Core where
  mode : CoreMode := .running
  owner : Option Nat := none
  /-- The last owner named (10 R359). -/
  lastOwner : Nat := 1023
  quantumStart : Nat := 0
  /-- Q of the present quantum: a change applies from the next boundary (10 R349). -/
  quantum : Nat := 0
  /-- The instant at which an idle core that stole nothing began to wait (10 R362). -/
  stealWait : Option Nat := none
  threads : Table Thread := []
  vreqs : Table VReq := []
  copies : Table Copy := []
  /-- Texture-cache lines: ward line address and its 64 bytes, newest first (05 R210). -/
  tex : List (Nat × Bytes) := []
  halo : List HaloSlot := []
  /-- The instants to which the TE, VE, ME and SE are occupied (14 R464). -/
  busy : List Nat := [0, 0, 0, 0]
  /-- The queues of the TE and the SE: the instant at which each instruction is done, and whether it is LC-level (05 R184). -/
  teQ : List (Nat × Bool) := []
  seQ : List (Nat × Bool) := []
  /-- Instructions issued: the order of issues, by which the issue stage finds the thread that issued least recently (05 R186). -/
  issues : Nat := 0
  deriving DecidableEq, Repr

/-- A parked acquirer of a hasp, or a waiter on a latch: a thread here, or a context of a peer device with its request's TAG
and OP_DATA (12 R429–R431). -/
inductive Waiter where
  | thread (t : ThreadRef)
  | peer (dev ward slot tag op : Nat) (inherit : Bool)
  deriving DecidableEq, Repr

/-- A remote holder of a hasp: device, ward and slot (12 R430). -/
structure Peer where
  dev : Nat := 0
  ward : Nat := 0
  slot : Nat := 0
  deriving DecidableEq, Repr

/-- A hasp (05 R202, R203; 10 R365). -/
structure Hasp where
  ward : Nat := 0
  owner : Option Nat := none
  count : BitVec 16 := 0
  /-- Outstanding count of each holding context slot. -/
  held : Table Nat := []
  /-- Outstanding counts of remote holders. -/
  peers : List (Peer × Nat) := []
  /-- Remote holders that an INHERIT (on) has been sent to (12 R433). -/
  inheritSent : List Peer := []
  /-- Parked acquirers in order of arrival. -/
  parked : List Waiter := []
  /-- Acquisitions by threads of this device in the fabric cycle named: the thread, its issue, and HTRY's destination (05 R199). -/
  cycle : Nat := 0
  recent : List (ThreadRef × Nat × Option Nat) := []
  /-- Grants in force: grantee slot and its index there. -/
  grants : List (Nat × Nat) := []
  deriving DecidableEq, Repr

/-! ## Packets as ingested (chapter 2) -/

/-- A camera: view matrix of 12 and projection of 6 FP32 patterns (02 Table 2-5). -/
structure Camera where
  view : List Nat := []
  proj : List Nat := []
  deriving DecidableEq, Repr

/-- A pose packet as received (02 Table 2-8). -/
structure Pose where
  seq : Nat := 0
  sampleTime : Nat := 0
  view : List Nat := []
  /-- PROJECTION, when PROJ_VALID. -/
  proj : Option (List Nat) := none
  arrival : Nat := 0
  /-- The instant its ingest completed. -/
  ingested : Option Nat := none
  bytes : Bytes := []
  deriving DecidableEq, Repr

/-- An object of a proxy mesh (02 Table 2-6). -/
structure MeshObject where
  id : Nat := 0
  first : Nat := 0
  tris : Nat := 0
  occluder : Bool := false
  transform : List Nat := []
  deriving DecidableEq, Repr

/-- An accepted mesh set (02 R70). -/
structure Mesh where
  verts : List (Nat × Nat × Nat) := []
  indices : List Nat := []
  objects : List MeshObject := []
  deriving DecidableEq, Repr

/-- The requested kind of a rendered frame, or G (00 R8). -/
inductive Kind where
  | u
  | g
  | a
  | p
  deriving DecidableEq, Repr

/-- Use of a rendered-frame buffer set (02 R77). -/
inductive SetUse where
  | free
  | filling
  | full
  deriving DecidableEq, Repr

/-- A rendered-frame buffer set and the packet it holds (02 R75–R77). -/
structure BufferSet where
  use : SetUse := .free
  /-- Order of release: the free set with the least value was released earliest. -/
  freedAt : Nat := 0
  packet : Packet := {}
  frame : Nat := 0
  kind : Kind := .u
  arrival : Nat := 0
  /-- The instant at which the checks of 02 R73 accepted it. -/
  acceptedAt : Nat := 0
  hops : Nat := 0
  depthReversed : Bool := false
  primaries : Nat := 0
  transfer : Nat := 0
  /-- Directory indices accepted by 02 R73 and, after decoding, not found missing since. -/
  accepted : List Nat := []
  /-- COLOUR is accepted, and not found missing since. -/
  hasColour : Bool := false
  colour : Img := {}
  depth : Option Img := none
  motion : Option Img := none
  normal : Option Img := none
  objectId : Option Img := none
  mesh : Option Mesh := none
  /-- EXPOSURE accepted: channel 5 of the presence mask. -/
  hasExposure : Bool := false
  camera : Camera := {}
  pyrColour : List Img := []
  pyrDepth : List Img := []
  /-- The instant stages 2 and 3 completed. -/
  decoded : Option Nat := none
  /-- Motion written by the flow pass (07 R264, R278). -/
  flowMotion : Option Img := none
  /-- The packet's graph run has a MOTION_OUT, the mask of its band latches that are set, and whether all are (07 R268, R270). -/
  flowNeeded : Bool := false
  flowBands : Nat := 0
  flowDone : Bool := false
  /-- Its HIERARCHY_REF is marked missing: frames whose base it is have no reference in force (02 R72). -/
  hierBad : Bool := false
  deriving DecidableEq, Repr

/-- What the device keeps of a packet whose ingest completed, beyond its buffer set. -/
structure Past where
  frame : Nat := 0
  /-- It is a rendered frame: its colour was accepted and decoded (02 R75). -/
  colour : Bool := false
  kind : Kind := .u
  arrival : Nat := 0
  /-- The instant stages 2 and 3 completed. -/
  done : Nat := 0
  hops : Nat := 0
  camera : Camera := {}
  /-- Its accepted mesh set's objects (01 R34); none without one. -/
  objects : Option (List MeshObject) := none
  /-- SHA-256 of the packet, taken while digest records are on (13 R449). -/
  digest : Option Bytes := none
  deriving DecidableEq, Repr

/-- A UI layer's content: the packet that supplied it, the instant it came into force, rectangle and premultiplied linear
FP32 pixels of 4 channels (02 R78, R93). -/
structure UiLayer where
  src : Nat := 0
  since : Nat := 0
  x : Nat := 0
  y : Nat := 0
  img : Img := {}
  deriving DecidableEq, Repr

/-! ## Output frames (chapter 1) -/

/-- The kind of slot that 01 R26 gives an output frame. -/
inductive SlotKind where
  | rendered
  | genExtra
  | genInter
  deriving DecidableEq, Repr

/-- One output tile of the frame in progress. -/
structure Tile where
  started : Bool := false
  done : Bool := false
  rung : Nat := 0
  /-- Pre-UI pixels, FP16 patterns of 4 channels. -/
  px : Option Img := none
  deriving DecidableEq, Repr

/-- Where the geometry pass of a frame stands (chapter 6). -/
inductive GeoPhase where
  | waiting
  | running
  | complete
  deriving DecidableEq, Repr

/-- A sub-triangle that setup keeps (06 R221, R222): its interlock key, its object, and per vertex the snapped position,
depth, view-space Z and motion. -/
structure SubTri where
  key : Nat := 0
  obj : Nat := 0
  occluder : Bool := false
  sx : List Int := []
  sy : List Int := []
  d : List Nat := []
  z : List Nat := []
  mx : List Nat := []
  my : List Nat := []
  deriving DecidableEq, Repr

/-- One write of a front end into the bin pool: a setup record, or the entry of a sub-triangle in a bin (06 R230). -/
structure BinWrite where
  sub : SubTri := {}
  bin : Option Nat := none
  deriving DecidableEq, Repr

/-- A batch of fragments of one sub-triangle in one bin (06 R241): frame pixel indices in row-major order. -/
structure Batch where
  sub : SubTri := {}
  bin : Nat := 0
  px : List Nat := []
  deriving DecidableEq, Repr

/-- What one allotted front end has of a frame's geometry pass (06 R231): setup groups to take (a group of 256 triangles,
or none for the UI layers), writes not yet made, the instant at which it stopped, and batches to send. -/
structure FrontEnd where
  groups : List (Option Nat) := []
  writes : List BinWrite := []
  stopped : Option Nat := none
  batches : List Batch := []
  deriving DecidableEq, Repr

/-- A geometry pass (chapter 6). -/
structure GeoState where
  phase : GeoPhase := .waiting
  /-- The pass keeps lists in the bin pool. -/
  binMode : Bool := true
  fes : Table FrontEnd := []
  /-- Entries of each sub-list, by bin × 16 + front end, and the entries of each bin. -/
  lists : Table Nat := []
  entries : Table (List SubTri) := []
  /-- Units of the pool in use by the frame (06 R235). -/
  units : Nat := 0
  /-- BIN_GROW has been posted for the stop in progress (06 R237). -/
  waitsGrant : Bool := false
  /-- When a grant ended that wait (06 R240). -/
  grantedAt : Option Nat := none
  /-- Every front end has finished, and every batch is processed. -/
  binned : Bool := false
  /-- The owner core of a bin in immediate mode (06 R232). -/
  owners : Table Nat := []
  /-- Bins whose bin task is complete. -/
  binsDone : List Nat := []
  /-- Interlock key of the fragment each pixel holds (06 R225). -/
  keys : Table Nat := []
  /-- Masks of UI layers by bin (06 R226). -/
  uiMasks : Table Nat := []
  /-- The splat is complete; the pixels it marked, as a bit plane (06 R244). -/
  splat : Bool := false
  marks : Nat := 0
  /-- Tiles whose ray task has started, and tiles whose geometry latch is set (06 R246, R254). -/
  rays : List Nat := []
  latches : List Nat := []
  deriving DecidableEq, Repr

/-- An output frame being computed (01 R24–R60). -/
structure Frame where
  number : Nat := 0
  /-- The cores of its context's group, and the RTUs of its ward, as it started (10 R349). -/
  group : Nat := 0
  rtus : Nat := 0
  slotKind : SlotKind := .rendered
  /-- The render frame number n of the slot and its place among the slots of n (01 R26). -/
  render : Nat := 0
  place : Nat := 0
  kind : Kind := .g
  substituted : Bool := false
  interpolated : Bool := false
  /-- The start instant, root cycles. -/
  t0 : Nat := 0
  /-- The packet that triggered it, for a U, A, P or interpolated frame. -/
  own : Option Nat := none
  /-- The base rendered frame b (01 R33); of a U, A or P frame, its own (log 24). -/
  base : Option Nat := none
  phi : Q := {}
  pose : Option Pose := none
  /-- The geometry pass waits for the triggering pose's ingest (01 R38): the pose's arrival order. -/
  poseWait : Option Nat := none
  camera : Camera := {}
  /-- Object transforms at the frame's phase (01 R34), by object id. -/
  objs : Table (List Nat) := []
  /-- Camera and object transforms of the context's previous output frame (06 R220). -/
  prevCam : Camera := {}
  prevObjs : Table (List Nat) := []
  /-- Divisor of the core clock f (16 R517). -/
  fdiv : Nat := 4
  startRung : Nat := 0
  /-- The rung given to tiles not yet started. -/
  rung : Nat := 0
  /-- Deadline in head units (09 R322), and the cut-off in root cycles. -/
  deadline : Nat := 0
  cutoff : Int := 0
  tiles : List Tile := []
  geo : GeoState := {}
  /-- The history it reads: none means zero history (01 R46). -/
  histIn : Option Img := none
  /-- A checkpoint is due (10 R371), and the multiple of A last reached by started tiles. -/
  checkDue : Bool := false
  startedMark : Nat := 0
  /-- A, N, Q and the divisor of f as the last checkpoint found them; a change of any is a checkpoint (10 R371). -/
  seen : List Nat := []
  lowered : Bool := false
  /-- When the Detent last lowered the frame, and the rung before: an admission of that fabric cycle comes first (10 R375). -/
  rungWas : Option (Nat × Nat) := none
  hops : Nat := 0
  /-- UI layers in force at the start instant (01 R49). -/
  ui : Table UiLayer := []
  exposure : Option (Nat × Nat) := none
  hier : Option (Nat × Nat × Nat) := none
  /-- Largest magnitudes that its tiles met, by tensor (03 R131). -/
  amax : Table Nat := []
  /-- The delayed-scaling histories that it started with, where an image has been bound since: it completes with its own image
  (03 R127, R131; 04 R144). -/
  hist : Option (Table (List Nat)) := none
  /-- The adapter elements in force (08 R316) and their digest. -/
  adapters : List Nat := []
  adapterDigest : Bytes := []
  config : Bytes := []
  /-- The configuration with the adaptation parameters in force when it started (08 R288). -/
  adapt : Bytes := []
  /-- The kept boxes of its own guard run (01 R43); none before the run ends. -/
  guard : Option (List (List Nat)) := none
  image : Option Nat := none
  /-- The head bound at the start. -/
  head : Nat := 0
  /-- REPLAY_FRAME's record and rung map (13 R457). -/
  held : Option (Bytes × Bytes) := none
  latestRender : Nat := 0
  /-- It is the first frame since creation, a binding, or a zero history (13 R449). -/
  fresh : Bool := false
  /-- SHA-256 of the hierarchy in force and of the loaded frame graph, 32 zero bytes without one; none where no digest was taken. -/
  shas : List (Option Bytes) := []
  /-- Repeatable-timing mode was in effect at the start (13 R445). -/
  repeatable : Bool := false
  /-- The context's frame-path state before this frame began, for an abandoned frame (02 R550). -/
  undoBase : Option Nat := none
  undoRendered : Option Nat := none
  undoStarted : Option Nat := none
  deriving DecidableEq, Repr

/-- A ready frame kept for its head and its digest (01 R40, 09 R326, 13 R447). -/
structure Ready where
  frame : Frame := {}
  readyAt : Nat := 0
  late : Bool := false
  /-- The rung of each tile. -/
  rungs : List Nat := []
  /-- The finished frame: FP16 patterns, RGBA. -/
  img : Img := {}
  shown : Bool := false
  /-- The frame's records have been written (13 R452). -/
  digested : Bool := false
  /-- The packets of the input set with their digests, in order (13 R449); none while digests are off. -/
  inputs : List (Nat × Option Bytes) := []
  deriving DecidableEq, Repr

/-! ## Heads (chapter 9) -/

/-- What a head shows in the slot it scans (09 R326, R335). -/
inductive Shown where
  | nothing
  | black
  | frame (number : Nat)
  deriving DecidableEq, Repr

/-- A head (09 Table 9-1, Table 9-6). -/
structure Head where
  /-- The configuration block in force and one waiting for a period start (09 R320). -/
  cfg : Option Bytes := none
  pendingCfg : Option Bytes := none
  ctx : Option Nat := none
  /-- CTX_SLOT and CTX_GEN, which unbinding does not clear (09 R344). -/
  ctxSlot : Nat := 0
  gen : Nat := 0
  /-- Reference frame and instant in head units (09 R324). -/
  refFrame : Nat := 0
  refInstant : Nat := 0
  /-- The next period start, in head units. -/
  nextStart : Nat := 0
  prevStart : Option Nat := none
  /-- The slot frame number whose scan is in progress, its start, and what is shown. -/
  slotFrame : Nat := 0
  scanStart : Nat := 0
  shown : Shown := .nothing
  isRepeat : Bool := false
  /-- A black slot has begun since binding. -/
  everBlack : Bool := false
  /-- A slot has begun since binding, and the first reference frame of the binding. -/
  begun : Bool := false
  boundFrame : Nat := 0
  /-- The frame last shown since binding. -/
  store : Option Ready := none
  /-- Slices begun or dropped of the slot, or active lines scanned of a physical head's. -/
  slicesBegun : Nat := 0
  /-- Slices begun and not yet written: slice index and START_TB. -/
  inFlight : List (Nat × Nat) := []
  /-- The last pixel of the slot read from the frame store in time: column and line. -/
  lastPx : Option (Nat × Nat) := none
  /-- The codes that a physical head has sent on its latest active line (09 R339). -/
  lineSent : List Nat := []
  droppedFrame : Nat := 0
  underrunFrame : Nat := 0
  afterDrop : Bool := false
  scanDone : Bool := true
  /-- Ring indices: producer p, begin q (09 R333). -/
  prod : U32 := 0
  beg : U32 := 0
  consumer : U32 := 0
  /-- Register block fields of 09 Table 9-6. -/
  nextDeadline : U64 := 0
  lastStart : U64 := 0
  signature : U32 := 0
  sigFrame : U32 := 0
  ringDrops : U32 := 0
  skips : U32 := 0
  repeats : U32 := 0
  misses : U32 := 0
  underruns : U32 := 0
  lastFrame : U32 := 0
  freezeRun : Nat := 0
  /-- FREEZE was posted and the run has not returned to 0. -/
  freezePosted : Bool := false
  /-- Status bits [11:7]. -/
  wrapped : Bool := false
  ringFull : Bool := false
  freeze : Bool := false
  underrun : Bool := false
  miss : Bool := false
  /-- Those of them that the device has set in this fabric cycle, at their places (00 R18). -/
  fresh : Nat := 0
  locked : Bool := false
  linkUp : Bool := false
  lanes : Nat := 0
  rate : Nat := 0
  /-- F′ of 09 R341: frame number, signature, rendered frame, view. -/
  prevShown : Option (Nat × Nat × Nat × List Nat) := none
  /-- Consecutive genlock edges outside the window (09 R327). -/
  outside : Nat := 0
  /-- The comparator: the Detent's instant in root cycles, or counter sampling's line (10 R373, 14 R472). -/
  detentAt : Option Nat := none
  sampling : Bool := false
  /-- A HEAD_UNBIND waits for the next scan-out start (09 R321): its SEQ. -/
  unbindSeq : Option Nat := none
  /-- Slice credits for a hinge destination (12 R428). -/
  sliceCredits : Nat := 0
  deriving DecidableEq, Repr

/-- The monitoring tap (09 R338): its virtual head, its own timing block, its next period start and what it shows. -/
structure Tap where
  head : Nat := 0
  cfg : Bytes := []
  nextStart : Nat := 0
  shown : Option Ready := none
  deriving DecidableEq, Repr

/-! ## Contexts -/

/-- Context slot states (10 Table 10-2). -/
inductive SlotState where
  | free
  | live
  | teardown
  | retired
  deriving DecidableEq, Repr

/-- A context slot (10 R351, R352). -/
structure Slot where
  state : SlotState := .free
  gen : Nat := 0
  /-- PERF_USER (14 R476). -/
  perfUser : Bool := false
  deriving DecidableEq, Repr

/-- Why a context is being torn down: its code, reason and detail bytes 12–31 of 11 Table 11-12. -/
structure FaultReport where
  code : Nat := 0
  reason : Nat := 0
  detail : Bytes := []
  /-- A destroy, ward reset or FLR posts no FAULT record (11 R404). -/
  isFault : Bool := false
  /-- When it was detected, and on which logical core; 0xFFFF for the Keeper (10 R380). -/
  raisedAt : Nat := 0
  core : Nat := 0xFFFF
  deriving DecidableEq, Repr

/-- Accounting counters of a context (10 Table 10-6), energy in femtojoules. -/
structure Account where
  hingeTx : U64 := 0
  hingeRx : U64 := 0
  hostTx : U64 := 0
  hostRx : U64 := 0
  vaultWr : U64 := 0
  vaultRd : U64 := 0
  se : U64 := 0
  me : U64 := 0
  ve : U64 := 0
  te : U64 := 0
  fixed : U64 := 0
  energyFj : Nat := 0
  deriving DecidableEq, Repr

/-- What the ingest of a context keeps (chapter 2). -/
structure CtxIngest where
  sets : List BufferSet := [{}, { freedAt := 1 }, { freedAt := 2 }, { freedAt := 3 }]
  /-- Count of set releases, ordering `BufferSet.freedAt`. -/
  releases : Nat := 4
  /-- Accepted packets without colour, whose sets are released (02 R75). -/
  lite : List BufferSet := []
  /-- Render frame numbers accepted and still live. -/
  accepted : List Nat := []
  /-- Packets accepted whose colour is missing, with the instant it was found so (01 R29, R37). -/
  missing : List (Nat × Nat) := []
  /-- Packets rejected at packet level, with the instant (13 R455). -/
  rejected : List (Nat × Nat) := []
  past : List Past := []
  /-- Pose packets in order of arrival. -/
  poses : List Pose := []
  /-- The projection in force; none for that of the context block (02 R68, R69). -/
  proj : Option (List Nat) := none
  /-- What packets have put in force, newest first, each with its packet and instant: exposure values, hierarchy references
  (handle and generation), and the content of each UI layer. -/
  exposures : List (Nat × Nat × Nat) := []
  hierRefs : List (Nat × Nat × Nat × Nat) := []
  ui : Table (List UiLayer) := []
  deriving DecidableEq, Repr

/-- The frame path of a context (chapter 1). -/
structure CtxFrames where
  /-- A frame has started since creation. -/
  placed : Bool := false
  nextNumber : Nat := 0
  nextRender : Nat := 0
  nextPlace : Nat := 0
  /-- The cut-off of the next frame has passed (01 R29, R37). -/
  cut : Bool := false
  /-- The next frame starts no earlier than this: the instant at which its slot's first frame was abandoned (02 R550). -/
  notBefore : Nat := 0
  cur : Option Frame := none
  /-- The previous frame's ready instant. -/
  readyAt : Nat := 0
  ready : List Ready := []
  /-- History: pre-UI output of the previous frame; none means zero history (01 R46). -/
  history : Option Img := none
  /-- FRAME_HASH of the previous frame is not chained to the next frame to start (13 R449). -/
  fresh : Bool := true
  /-- The next frame to start has zero history: it is the first after an IMAGE_BIND (01 R46). -/
  zeroNext : Bool := false
  /-- FRAME_HASH of the latest frame whose records are written; empty where it was not taken. -/
  prevHash : Bytes := []
  /-- Guard boxes in output pixels of the most recent U or A frame, and its pre-UI output (01 R43, R44). -/
  guardBoxes : List (List Nat) := []
  guardPre : Option Img := none
  /-- Of started frames: the latest base by 00 R19 (02 R73), the last rendered slot begun, the last frame number. -/
  latestBase : Option Nat := none
  lastRendered : Option Nat := none
  lastStarted : Option Nat := none
  prevCam : Camera := {}
  prevObjs : Table (List Nat) := []
  /-- Rung maps held by REPLAY_FRAME: frame, digest record, map, instant of completion (11 R400). -/
  held : List (Nat × Bytes × Bytes × Nat) := []
  deriving DecidableEq, Repr

/-- A patch of the sample store or of staging (08 R294, R295): its planes by source, its target and its header. -/
structure Patch where
  valid : Bool := false
  seq : Nat := 0
  render : Nat := 0
  x0 : Nat := 0
  y0 : Nat := 0
  planes : Table Img := []
  target : Img := {}
  crc : Nat := 0
  deriving DecidableEq, Repr

/-- A captured anchor in staging (08 R297, R298). -/
structure Anchor where
  render : Nat := 0
  frame : Nat := 0
  /-- Capture tasks that have not ended, and the instant at which the latest one did. -/
  left : Nat := 0
  lastAt : Nat := 0
  patches : List Patch := []
  deriving DecidableEq, Repr

/-- A training step in progress (08 R306): its parameters, the samples of its batch, none where a place is cleared, and whether
the search for a sample ended short (08 R304). -/
structure Step where
  block : Bytes := []
  batch : List (Option Patch) := []
  short : Bool := false
  deriving DecidableEq, Repr

/-- Adaptation of a context (chapter 8). -/
structure Adapt where
  /-- The live adapter set, its digest and the step number it was taken at (08 R316). -/
  live : List Nat := []
  digest : Bytes := []
  liveStep : Nat := 0
  /-- The adapter buffer marked pending, and the instant of the mark. -/
  ready : Option (List Nat × Bytes × Nat) := none
  readyAt : Nat := 0
  /-- A publish is due at the next step boundary. -/
  due : Bool := false
  /-- Master weights, BF16, and the moments as block codes and scales (08 R311). -/
  master : List Nat := []
  mCodes : List Nat := []
  mScales : List Nat := []
  vCodes : List Nat := []
  vScales : List Nat := []
  p1 : Nat := 0x3F800000
  p2 : Nat := 0x3F800000
  step : Nat := 0
  /-- Applied steps (08 R312), and those since the last publish by interval. -/
  t : Nat := 0
  applied : Nat := 0
  store : List Patch := []
  captured : Nat := 0
  committed : Nat := 0
  staging : List Anchor := []
  /-- The cursor (e, p), N_e and the oldest slot of the epoch; no epoch has begun while `begun` is false (08 R299). -/
  epoch : Nat := 0
  pos : Nat := 0
  size : Nat := 0
  oldest : Nat := 0
  begun : Bool := false
  /-- The parameters in force at the last boundary (08 R288). -/
  block : Bytes := []
  running : Option Step := none
  paused : Bool := false
  /-- Steps since the last commit (08 R313). -/
  sinceCommit : Nat := 0
  anyCommit : Bool := false
  /-- Delayed-scaling histories of the training passes (03 R127). -/
  hist : Table (List Nat) := []
  deriving DecidableEq, Repr

/-- What a frame-scope network runs for: the overlay guard of a frame (01 R43), a node of a frame graph (07 R269), or an
AUX_RUN command (11 Table 11-8). -/
inductive RunFor where
  | guard (frame : Nat)
  | node (run k : Nat)
  | command (seq : Nat)
  deriving DecidableEq, Repr

/-- A run of a frame-scope network (04 R155–R163). -/
structure NetRun where
  image : Nat := 0
  why : RunFor := .command 0
  running : Bool := true
  /-- The halo strategy it began with: exchange (04 R162). -/
  exchange : Bool := false
  lc : Bool := false
  /-- Deadline key in root cycles. -/
  deadline : Nat := 0
  frame : Option Nat := none
  /-- Values of its source tensors and of what it has computed. -/
  vals : Table TVal := []
  /-- Per layer: the mask of stripes computed, and of stripe latches set (04 R159). -/
  made : Table Nat := []
  latches : Table Nat := []
  /-- Its delayed-scaling histories, where an image has been bound since it began (03 R127; 04 R144). -/
  hist : Option (Table (List Nat)) := none
  /-- The render frame whose MOTION_OUT its motion source still waits for (07 R270). -/
  awaits : Option Nat := none
  deriving DecidableEq, Repr

/-- A run of a frame graph (07 R262–R270): its packet, its graph, its sources as found, the nodes begun and finished, the engine work
done on each, the records or elements of each written buffer, and each buffer's band latches. -/
structure GraphRun where
  id : Nat := 0
  render : Nat := 0
  graph : Bytes := []
  /-- The converted colour of frame n, of frame n − 1 as found when the run starts, and the renderer's motion of frame n. -/
  cur : Img := {}
  prev : Option Img := none
  motion : Option Img := none
  /-- The flow engines of its ward as it started (10 R349). -/
  engines : Nat := 0
  /-- Source buffers as decided: an image, or none where the source is missing (07 R276, R284). -/
  inputs : Table (Option Img) := []
  begun : List Nat := []
  ended : List Nat := []
  work : Table Nat := []
  recs : Table (List Nat) := []
  latches : Table Nat := []
  deriving DecidableEq, Repr

/-- A slice of a flow engine: the context's slot and generation, the graph run and the node. -/
structure Slice where
  slot : Nat := 0
  gen : Nat := 0
  run : Nat := 0
  node : Nat := 0
  deriving DecidableEq, Repr
/-- A flow engine (07 R259, R260): the slice it runs, since when, and the slots it served last at each level. -/
structure FlowEngine where
  job : Option Slice := none
  since : Nat := 0
  lastLc : Nat := 1023
  lastBe : Nat := 1023
  deriving DecidableEq, Repr

/-- A BOX_DECODE or NMS job of a run, in order of submission, and the detection post-processor that runs it (10 R364). -/
structure DetectJob where
  slot : Nat := 0
  gen : Nat := 0
  net : Nat := 0
  layer : Nat := 0
  lc : Bool := false
  unit : Option Nat := none
  deriving DecidableEq, Repr

/-- A loaded hierarchy of a context (06 R248, R249). -/
structure Hier where
  gen : Nat := 0
  base : Nat := 0
  bytes : Bytes := []
  /-- SHA-256 of it, taken at load while digest records are on (13 R449). -/
  digest : Option Bytes := none
  /-- An unload waits for the last frame using it (11 Table 11-8). -/
  unloading : Bool := false
  deriving DecidableEq, Repr

/-- A context (chapters 1, 2, 10, 11). -/
structure Ctx where
  ward : Nat := 0
  gen : Nat := 0
  /-- The context block as last accepted (11 Table 11-9), and as in force for frames (01 R24). -/
  cfg : Bytes := []
  cfgInForce : Bytes := []
  /-- The cores of its group in force: additions come in with a frame start (10 R349, R355). -/
  group : Nat := 0
  ring : Ring := {}
  head : Option Nat := none
  image : Option Nat := none
  ing : CtxIngest := {}
  fr : CtxFrames := {}
  acct : Account := {}
  /-- Own hasps in order of index, and granted ones by index 4,096 on (10 R365). -/
  hasps : List (Option Nat) := []
  granted : Table Nat := []
  /-- Staging latches that are set, as a bit mask (05 R200). -/
  stagingBits : Nat := 0
  /-- The fabric cycle in which staging latches were last set by LSET, and those set in it (05 R199). -/
  stagingMark : Nat × Nat := (0, 0)
  /-- Stripe latches of the bound image's frame-scope networks and band latches of the frame graph (10 R353). -/
  stripeLatches : Nat := 0
  bandLatches : Nat := 0
  /-- A loaded frame graph (07 R261), and its digest, taken while digest records are on (13 R449). -/
  graph : Option Bytes := none
  graphDigest : Option Bytes := none
  fault : Option FaultReport := none
  /-- Remote waiters on the context's staging latches (12 R430). -/
  latchWaiters : List (Nat × Waiter) := []
  /-- Counts of remote hasps that the context holds, one entry each: device, ward, slot and index there (12 R432). -/
  heldAt : List (Nat × Nat × Nat × Nat) := []
  /-- The INHERITs (on) in force from peers: the device of each with its deadline key (12 R433). -/
  inheritKeys : List (Nat × Nat) := []
  hiers : Table Hier := []
  nextHier : Nat := 1
  /-- N of L_3 as last evaluated. -/
  n : Nat := 1
  /-- 64 KiB chunks in the bin pool, and those of a growth in progress (06 R235, R236). -/
  pool : Nat := 0
  growing : Option Nat := none
  ad : Adapt := {}
  /-- Delayed-scaling histories: per tensor of the bound image, its FP32 amax entries, newest first (03 R127). -/
  hist : Table (List Nat) := []
  /-- The latest run of each frame-scope network of the bound image, by network record. -/
  runs : Table NetRun := []
  /-- Graph runs in progress, oldest first. -/
  graphRuns : List GraphRun := []
  nextGraph : Nat := 0
  /-- The graph before the latest change, and the instant of that change (07 R263). -/
  graphOld : Option (Nat × Option Bytes) := none
  deriving DecidableEq, Repr

/-! ## The device -/

/-- The part (00 R1, R2). -/
inductive Part where
  | bkz2048
  | bkz1280
  deriving DecidableEq, Repr

/-- A message on the host link that the device has sent. -/
inductive HostMsg where
  | msix (fn vector : Nat)
  | aerUncorrectable
  | aerHostAccess
  deriving DecidableEq, Repr

/-- Firmware and Keeper (chapter 15; 11 R412). -/
structure Firmware where
  running : Bool := false
  ready : Bool := false
  slot : Nat := 0
  switching : Bool := false
  /-- L_3 of each context and kind of slot as the switch began: the Keeper computes none during it (15 R496). -/
  l3Held : List ((Nat × SlotKind) × Nat) := []
  /-- The switch in progress: target slot, whether it is a recovery, when it began, and FW_ACTIVATE's function and SEQ. -/
  target : Nat := 0
  recovery : Bool := false
  switchAt : Nat := 0
  byCommand : Option (Nat × Nat) := none
  /-- A recovery overtook the FW_ACTIVATE, which then completes with IN_USE (15 R498). -/
  overtaken : Bool := false
  persist : Bool := false
  raiseSvn : Bool := false
  lastRecovery : Option Nat := none
  heldRecs : List (RingRef × Rec) := []
  /-- Doorbell writes held during a switch: function, slot or admin, register, value (11 R396). -/
  heldDoorbells : List (RingRef × Nat × Nat) := []
  heartbeat : U32 := 0
  beatAt : Nat := 0
  deriving DecidableEq, Repr

/-- Start-up, pins and the boot registers (16 R505–R511; 17 R533, R541). -/
structure Boot where
  /-- PWR_GOOD is high. -/
  power : Bool := true
  /-- PERST_N is low. -/
  perst : Bool := true
  /-- The root PLL has locked since the last device reset, so TB runs (16 R513). -/
  pll : Bool := false
  /-- MG_BOOT fields (16 Table 16-8). -/
  stage : Nat := 0
  failCode : Nat := 0
  slotsValid : Nat := 0
  bootSlot : Nat := 0
  readyUs : Nat := 0
  /-- MG_RESET.LAST_CAUSE. -/
  lastCause : Nat := 1
  /-- The configuration-ready instant has come: configuration requests are answered and BARs decoded (16 R508, R510). -/
  decoded : Bool := false
  /-- PERST_N was asserted while PWR_GOOD was high and has not been released (16 R506). -/
  coldHeld : Bool := false
  /-- A link reset waits for a firmware switch to end (16 R506). -/
  linkResetWaits : Bool := false
  /-- The level of THERM_N last recognised (17 R541). -/
  thermN : Bool := true
  deriving DecidableEq, Repr

/-- The flash regions the device uses (16 R509; 17 R538) and the resident images of Keeper memory (15 R492, R495). -/
structure Flash where
  record : Bytes := []
  slot0 : Bytes := []
  slot1 : Bytes := []
  /-- Resident images verified since reset: slots 0 and 1. -/
  image0 : Option Bytes := none
  image1 : Option Bytes := none
  /-- A flash write that has not ended: slot and image; slot 2 is the boot record. -/
  program : Option (Nat × Bytes) := none
  deriving DecidableEq, Repr

/-- Operating points (16 R514–R519) and the thermal and power registers (16 Table 16-8). -/
structure OpPoint where
  repeatable : Bool := false
  powerLimit : Nat := 400
  tHigh : Nat := 105
  target : Nat := 0
  /-- The requested point at the last evaluation. -/
  requested : Nat := 0
  /-- The point of cores that have not moved yet, and of which contexts a start is awaited (16 R516). -/
  prev : Nat := 0
  waits : List Nat := []
  /-- A decision is being applied, until every awaited context has started a frame. -/
  pending : Bool := false
  /-- The instant of the last decision (16 R516, R519). -/
  decidedAt : Option Nat := none
  /-- The target, and the point before it, were chosen under repeatable mode (16 R518). -/
  chosenRep : Bool := false
  prevRep : Bool := false
  changes : U32 := 0
  /-- CAUSE_JUNCTION, CAUSE_POWER and CAUSE_THERM_N as bits 0–2. -/
  causes : Nat := 0
  causesFresh : Nat := 0
  /-- Milliseconds of TB at the next evaluation due and at the next refresh due, and at the last evaluation at which a step-up
  condition did not hold. -/
  evalMs : Nat := 0
  freshMs : Nat := 0
  upFailMs : Nat := 0
  readings : Readings := {}
  /-- PEAK of MG_THERMAL, none since its last read. -/
  tempPeak : Option Nat := none
  powerPeak : Nat := 0
  /-- The last ten 1 ms powers, newest first. -/
  powers : List Nat := []
  /-- PLDM sensors 1–11 as of the last refresh (16 R525). -/
  sensors : List Nat := [0, 0, 0, 0, 0, 0, 0, 1500, 0, 0, 0]
  deriving DecidableEq, Repr

/-- The repair block and what repairs the device has made (15 R481–R491). -/
structure Ras where
  sparesLeft : Nat := 64
  /-- Physical core of each logical one, where it differs from the boot numbering's default, and the spare cores. -/
  phys : Table Nat := []
  spares : List Nat := []
  failedChans : List Nat := []
  /-- Spare channels left in each stack. -/
  chanSpares : List Nat := [1, 1, 1, 1, 1, 1]
  /-- Spare rows used in each channel that has used any. -/
  rowsUsed : Table Nat := []
  /-- Channels whose sparing copy is in progress. -/
  copying : List Nat := []
  /-- Physical cores under self-test, with the logical number each gave up. -/
  testing : List (Nat × Nat) := []
  ceCoreStore : Nat := 0
  ceRegister : Nat := 0
  ceStaging : Nat := 0
  ceVcache : Nat := 0
  ceVault : Nat := 0
  ceKeeper : Nat := 0
  ueContext : Nat := 0
  ueLatent : Nat := 0
  recoveries : Nat := 0
  remaps : Nat := 0
  lastLogical : Nat := 0
  lastPhys : Nat := 0
  lastCause : Nat := 0
  vaultPasses : Nat := 0
  sramPasses : Nat := 0
  deriving DecidableEq, Repr

/-- Pins under a boundary-scan instruction (15 Table 15-7). -/
inductive PinMode where
  | functional
  | extest
  | clamp
  | highz
  deriving DecidableEq, Repr

/-- Security and the JTAG port (15 R499, R502, R503). -/
structure Sec where
  /-- TAMPER bits [12:8] as bits 0–4. -/
  tamper : Nat := 0
  tamperFresh : Nat := 0
  /-- Some TAMPER bit has been set since power-on (16 Table 16-11). -/
  tamperEver : Bool := false
  unlocked : Bool := false
  /-- The last debug unlock: its instant, and TAMPER and whether any of it was set before it (15 R503). -/
  unlockWas : Option (Nat × Nat × Bool) := none
  rngFail : Bool := false
  /-- The highest SVN blown by RAISE_SVN since manufacture. -/
  svnRaised : Nat := 0
  /-- The last RAISE_SVN: its instant, and what was blown before it (15 R503). -/
  svnWas : Option (Nat × Nat) := none
  /-- The TAP's instruction register. -/
  ir : Nat := 0x01
  pins : PinMode := .functional
  /-- The most recent challenge, 128 bits. -/
  challenge : Option Nat := none
  /-- No new challenge is issued while the holdoff lasts. -/
  holdoff : Bool := false
  holdoffAt : Nat := 0
  /-- What the last scan shifted out. -/
  shiftedOut : Nat := 0
  deriving DecidableEq, Repr

/-- The SMBus endpoint (16 R524–R526). -/
structure Smb where
  address : Nat := 0
  eid : Nat := 0
  /-- The last response, and whether a request waits for a quiesce to end. -/
  reply : List Nat := []
  waiting : List (Nat × Nat) := []
  deriving DecidableEq, Repr

/-! ## Hinge links (chapter 12) -/

/-- A message: its 32-byte header and its payload. -/
structure HMsg where
  hdr : Bytes := []
  payload : Bytes := []
  /-- The ward that its flits are charged to; none for one that is forwarded (14 Table 14-5). -/
  ward : Option Nat := none
  deriving DecidableEq, Repr

/-- One flit of a message on its way out: START, END and the payload bytes in use. -/
structure TxFlit where
  cls : Nat := 3
  start : Bool := false
  stop : Bool := false
  data : Bytes := []
  /-- The credits it returned when it was sent: class, 3 for none, and count. -/
  cc : Nat := 3
  cn : Nat := 0
  ward : Option Nat := none
  deriving DecidableEq, Repr

/-- A hinge port (12 R414–R421, Table 12-7). -/
structure Port where
  /-- 0 DOWN, 1 TRAINING, 2 UP, 3 DISABLED. -/
  state : Nat := 0
  /-- TRAINING is a retrain (12 R417). -/
  retraining : Bool := false
  txFlits : U64 := 0
  rxFlits : U64 := 0
  replays : U32 := 0
  crcErrors : U32 := 0
  discards : U32 := 0
  retrains : U32 := 0
  neighbour : Nat := 0xFFF
  laneFail : Nat := 0
  lanes : Nat := 0
  wrapped : Bool := false
  degraded : Bool := false
  dupId : Bool := false
  downEvent : Bool := false
  /-- Status bits [7:4] that the device has set in this fabric cycle (00 R18). -/
  fresh : Nat := 0
  /-- Flits queued in classes control, LC and BE. -/
  q0 : List TxFlit := []
  q1 : List TxFlit := []
  q2 : List TxFlit := []
  /-- Sent flits that no ACK has released, oldest first, with their SEQ (12 R416). -/
  replay : List (Nat × TxFlit) := []
  nextSeq : Nat := 0
  /-- Credits held: control, LC reserve, shared (12 R419). -/
  cCtl : Nat := 32
  cLc : Nat := 248
  cShared : Nat := 744
  /-- The LC reserve of the other end's buffers as this end counts it. -/
  reserve : Nat := 248
  /-- The SEQ expected next, whether a NAK is owed, NAKs in a row received for one SEQ, credits owed per class. -/
  expected : Nat := 0
  nakOwed : Bool := false
  nakRun : Nat := 0
  nakSeq : Nat := 0
  o0 : Nat := 0
  o1 : Nat := 0
  o2 : Nat := 0
  /-- Messages being assembled, by class. -/
  p0 : Bytes := []
  p1 : Bytes := []
  p2 : Bytes := []
  /-- Whole messages received and not yet taken. -/
  rx : List HMsg := []
  /-- Flits put on the wire, oldest first, 256 bytes each. -/
  wire : List Bytes := []
  /-- LC and BE flits put there, with class and ward, and flits sent again, that are still to be counted (14 Table 14-5). -/
  sent : List (Nat × Option Nat) := []
  again : Nat := 0
  deriving DecidableEq, Repr

/-- The hinge unit (12 R422–R439). -/
structure Hinge where
  ports : List Port := [{}, {}, {}, {}]
  /-- The HINGE_CONFIG block in force. -/
  cfg : Option Bytes := none
  reroutes : U16 := 0
  /-- Broken links, as positions of their ends, that are known, and those that routes avoid; port p that leads to an attached
  endpoint stands as the pair (0x10000 + p, 0x10000 + p). -/
  known : List (Nat × Nat) := []
  avoided : List (Nat × Nat) := []
  nextRequest : Nat := 0
  /-- REMOTE_REQ headers taken in this fabric cycle, in order, each with its port: they act when the cycle ends, after the local
  operations and any HOLDER_GONE of it (12 R434). -/
  requests : List (Nat × Bytes) := []
  deriving DecidableEq, Repr

/-- A remote operation in progress, which holds a pending record (10 R368; 12 R431). -/
structure Remote where
  thread : ThreadRef := { core := 0, slot := 0 }
  slot : Nat := 0
  gen : Nat := 0
  ward : Nat := 0
  op : Nat := 0
  /-- Predicate register of an HTRY or LTEST. -/
  dst : Nat := 0
  dev : Nat := 0
  port : Nat := 0
  sentAt : Nat := 0
  request : Nat := 0
  /-- Target index at the peer, and the peer's ward and slot. -/
  target : Nat := 0
  tward : Nat := 0
  tslot : Nat := 0
  /-- The remote-wait limit has passed: the record is lost when the fabric cycle ends, unless its reply has landed (12 R434). -/
  expired : Bool := false
  deriving DecidableEq, Repr

/-! ## Counters (chapter 14) -/

/-- A sample of a core that is triggered and not yet written (14 R472). -/
structure PSample where
  /-- 1 overflow, 2 timer, 3 external. -/
  trigger : Nat := 1
  ovfMask : Nat := 0
  at_ : Nat := 0
  deriving DecidableEq, Repr

/-- Whom an occurrence is charged to: slot, generation, and the level its task runs at. -/
structure Who where
  slot : Nat := 0
  gen : Nat := 0
  lc : Bool := false
  deriving DecidableEq, Repr

/-- An occurrence of this fabric cycle, counted when the cycle ends (14 R471): of a core event on a core, charged to a context or to
none; or of a chip event at a unit, charged to a ward or to none. -/
inductive Occurrence where
  | core (core event count : Nat) (who : Option Who)
  | chip (event unit count : Nat) (ward : Option Nat)
  deriving DecidableEq, Repr

/-- A core counter block (14 Tables 14-1, 14-2): counters of 48 bits, selections, windows. -/
structure CorePerf where
  cnt : List Nat := [0, 0, 0, 0, 0, 0, 0, 0]
  sel : List Nat := [0, 0, 0, 0, 0, 0, 0, 0]
  ovf : Nat := 0
  /-- The counters whose VALUE was written in this fabric cycle, by bit, and the selections before its first PC_SEL write (14 R471). -/
  wrote : Nat := 0
  selWas : Option (List Nat) := none
  bwEnable : Bool := false
  bwWindow : Nat := 0
  /-- A window has started since PC_BW_CFG was written. -/
  bwRuns : Bool := false
  /-- The window, by number since TB 0, that runs or in which PC_BW_CFG was written. -/
  bwIndex : Nat := 0
  bwCur : List Nat := [0, 0, 0, 0, 0, 0]
  bwLast : List Nat := [0, 0, 0, 0, 0, 0]
  bwPeak : List Nat := [0, 0, 0, 0, 0, 0]
  sample : Option PSample := none
  deriving DecidableEq, Repr

/-- A chip counter and its selection (14 Table 14-4); UNIT resets to 0xFF. -/
structure ChipPerf where
  cnt : Nat := 0
  sel : Nat := 0xFF * 2 ^ 40
  /-- Its VALUE was written in this fabric cycle, and its selection before the cycle's first write of it (14 R471). -/
  wrote : Bool := false
  selWas : Option Nat := none
  deriving DecidableEq, Repr

/-- The counter region (14 Tables 14-1 to 14-6); blocks that are not listed hold their reset values. -/
structure Perf where
  cores : Table CorePerf := []
  chip : Table ChipPerf := []
  chipOvf : Nat := 0
  freeze : Bool := false
  /-- CLEAR was written in this fabric cycle (14 R471). -/
  cleared : Bool := false
  /-- PERF_USER, as it was, of the slots whose bit was written in this fabric cycle (14 R476). -/
  userWas : Table Bool := []
  /-- This fabric cycle's occurrences. -/
  noted : List Occurrence := []
  sbufBase : Nat := 0
  sbufEnable : Bool := false
  sbufVector : Nat := 0
  sbufLog2 : Nat := 6
  watermark : Nat := 1
  producer : Nat := 0
  consumer : Nat := 0
  lost : Nat := 0
  timerOn : Bool := false
  externalOn : Bool := false
  head : Nat := 0
  line : Nat := 0
  /-- The slot start for which the timer last fired. -/
  lastTimer : Option Nat := none
  conflict : Nat := 0
  sampleCores : Nat := 0
  deriving DecidableEq, Repr

/-! ## Stops -/

/-- Faults of a step: the model stops. -/
inductive Fault where
  /-- Raised by no meaning at present: every fault of the spec is a next state with its record (safe). -/
  | unreachable
  deriving DecidableEq, Repr

/-- Refusals of a step. -/
inductive Refusal where
  /-- The row has no meaning yet (safe: nothing is proved of it). -/
  | notModelled (mnemonic : String)
  /-- An event of the device's own agents that the rules do not let happen in this state (safe: the device has no
  such step here). Raised by the event rows when their rule's own conditions do not hold. -/
  | notEnabled (why : String)
  deriving DecidableEq, Repr

/-- A kernel's store or atomic of the fabric cycle in progress (05 R199): who made it, what it writes, and what stood there. -/
structure WardOp where
  at_ : Nat := 0
  ward : Nat := 0
  core : Nat := 0
  slot : Nat := 0
  writes : List (Nat × Bytes) := []
  /-- Of an atomic: MOD, operand, comparand and its vault request. -/
  atom : Option (Nat × Nat × Nat × Nat) := none
  before : List (Nat × Bytes) := []
  deriving DecidableEq, Repr

/-- The state of the block. `pending` is the queue of waiting commands, first in first out. -/
structure State where
  pending : List Instr := []
  /-- Root-PLL cycles since TB 0. -/
  now : Nat := 0
  /-- The model's own counter of free values drawn (log 2). -/
  free : Nat := 0
  part : Part := .bkz2048
  fw : Firmware := {}
  boot : Boot := {}
  flash : Flash := {}
  op : OpPoint := {}
  ras : Ras := {}
  sec : Sec := {}
  smb : Smb := {}
  vfs : Nat := 0
  fns : List Fn := List.replicate 16 {}
  wards : List Ward := List.replicate 16 {}
  slots : Table Slot := []
  ctxs : Table Ctx := []
  heads : Table Head := []
  tap : Option Tap := none
  cores : Table Core := []
  tasks : Table Task := []
  nextTask : Nat := 0
  nextSerial : Nat := 0
  hasps : Table Hasp := []
  /-- Kernels' stores and atomics of the latest fabric cycle that had one, in order of core and slot (05 R199). -/
  cycleOps : List WardOp := []
  detect : List DetectJob := []
  engines : Table FlowEngine := []
  /-- The context slot that each raster front end served last (10 R364). -/
  feLast : Table Nat := []
  hinge : Hinge := {}
  /-- Pending records (10 R368), by the model's own number. -/
  remotes : Table Remote := []
  perf : Perf := {}
  hostMem : Mem := []
  sent : List HostMsg := []
  /-- What the last read returned. -/
  lastRead : Bytes := []
  /-- The last read returned a poisoned completion (11 R388). -/
  lastPoisoned : Bool := false
  deriving DecidableEq, Repr

/-- The device right after a power-on reset, PERST_N still asserted: every field at its reset value. -/
def State.reset : State := {}

end Sys2Proof.Machine
end

