-- ==== Sys2Proof/Machine/Ops.lean ====
section
/-!
DEFINITION. The named operations over the state that every family shares: instants, lookups and updates, host memory,
error status and interrupts, completion records, ward memory, hasps, and the beginning of a teardown.
-/
namespace Sys2Proof.Machine

/-- The outcome type of a step. -/
abbrev Out := Host.Outcome State Fault Refusal
/-- An event row whose own conditions do not hold (log 4). -/
def notNow (why : String) : Out := .refused (.notEnabled why)
/-- Go on with `f` when there is a value; otherwise the event is not possible here. -/
def need {α : Type} (o : Option α) (why : String) (f : α → Out) : Out :=
  match o with
  | some a => f a
  | none => notNow why
/-- Go on when a condition holds; otherwise the event is not possible here. -/
def guardThat (b : Bool) (why : String) (k : Out) : Out := if b then k else notNow why

/-! ## Instants (00 Table 0-3) -/

/-- TB in cycles. -/
def tb (s : State) : Nat := s.now / 60
/-- The present instant in head units, floor (09 R322). -/
def nowHead (s : State) : Nat := s.now * 65536 / 60
/-- A head-unit instant has been reached. -/
def headReached (s : State) (u : Nat) : Bool := decide (u * 60 ≤ s.now * 65536)
/-- The TB instant of a value in head units. -/
def tbOfHead (u : Nat) : Nat := u / 65536
/-- TB cycles as root cycles. -/
def rootOfTb (n : Nat) : Nat := 60 * n
/-- Root cycles of one core cycle at an operating point (16 Table 16-5). -/
def coreDiv (point : Nat) : Nat := [4, 5, 6, 8, 12].getD point 4

/-! ## Lookups and updates -/

/-- A context binds the cores of its group: it is live, and LC or bound to a head (16 R516). -/
def bindsCores (s : State) (slot : Nat) : Bool :=
  (tgetD s.slots slot {}).state == .live && ((tget s.ctxs slot).map (fun x => !cbClassBE x.cfg || x.head.isSome)).getD false
/-- The contexts of which a decision still awaits a frame start (16 R516). -/
def opWaits (s : State) : List Nat := s.op.waits.filter (bindsCores s)
/-- The cores that have not moved to the target yet. -/
def unmovedCores (s : State) : Nat :=
  (opWaits s).foldl (fun m i => m ||| ((tget s.ctxs i).map (·.group)).getD 0) 0
/-- The operating point of a core: cores of a context whose frame start is awaited have not moved yet (16 R516). -/
def corePoint (s : State) (c : Nat) : Nat := if (unmovedCores s).testBit c then s.op.prev else s.op.target
/-- A decision is complete once no frame start is awaited (16 R516, R517). -/
def settleOp (s : State) : State :=
  if s.op.pending && (opWaits s).isEmpty then
    { s with op := { s.op with pending := false, waits := [], changes := s.op.changes + 1 } }
  else s

/-- Change element i of a list. -/
def lmod {α : Type} (l : List α) (i : Nat) (f : α → α) : List α := l.modify i f

def fnOf (s : State) (f : Nat) : Fn := s.fns.getD f {}
def modFn (f : Nat) (g : Fn → Fn) (s : State) : State := { s with fns := lmod s.fns f g }
def wardOf (s : State) (w : Nat) : Ward := s.wards.getD w {}
def modWard (w : Nat) (g : Ward → Ward) (s : State) : State := { s with wards := lmod s.wards w g }
def slotOf (s : State) (i : Nat) : Slot := tgetD s.slots i {}
def modSlot (i : Nat) (g : Slot → Slot) (s : State) : State := { s with slots := tput s.slots i (g (slotOf s i)) }
def ctxOf (s : State) (i : Nat) : Option Ctx := tget s.ctxs i
def modCtx (i : Nat) (g : Ctx → Ctx) (s : State) : State := { s with ctxs := tmod s.ctxs i g }
def headOf (s : State) (h : Nat) : Head := tgetD s.heads h {}
def modHead (h : Nat) (g : Head → Head) (s : State) : State := { s with heads := tput s.heads h (g (headOf s h)) }
/-- The latest accepted configuration of a head. -/
def headCfg (h : Head) : Option Bytes := if h.pendingCfg.isSome then h.pendingCfg else h.cfg
def coreOf (s : State) (c : Nat) : Core := tgetD s.cores c {}
def modCore (c : Nat) (g : Core → Core) (s : State) : State := { s with cores := tput s.cores c (g (coreOf s c)) }
def modTask (t : Nat) (g : Task → Task) (s : State) : State := { s with tasks := tmod s.tasks t g }
def threadOf (s : State) (t : ThreadRef) : Option Thread := tget (coreOf s t.core).threads t.slot
def modThread (t : ThreadRef) (g : Thread → Thread) (s : State) : State :=
  modCore t.core (fun c => { c with threads := tmod c.threads t.slot g }) s
def modHasp (h : Nat) (g : Hasp → Hasp) (s : State) : State := { s with hasps := tmod s.hasps h g }

/-- A live context and its slot's generation match. -/
def liveCtx (s : State) (slot : Nat) : Option Ctx :=
  if (slotOf s slot).state = .live then ctxOf s slot else none
/-- A live context that a (slot, generation) pair names (10 R352). -/
def namedCtx (s : State) (slot gen : Nat) : Option Ctx :=
  if (slotOf s slot).state = .live ∧ (slotOf s slot).gen = gen then ctxOf s slot else none
/-- The function of a ward (10 R345). -/
def fnOfWard (w : Nat) : Nat := w
/-- A function exists: the PF, or an enabled VF. -/
def fnExists (s : State) (f : Nat) : Bool := f == 0 || (decide (f ≤ s.vfs) && decide (f ≤ 15))

/-- The BARs of a function are decoded: the configuration-ready instant has come (16 R508, R510), the function exists and
is in D0 (16 R520), and the device is not held in reset (16 R505). -/
def barsOpen (s : State) (f : Nat) : Bool :=
  s.boot.decoded && s.boot.power && !s.boot.perst && fnExists s f && !(fnOf s f).d3hot

/-- Logical cores of the part. -/
def coreCount (s : State) : Nat := if s.part = .bkz2048 then 2048 else 1280
/-- Vault channels of the part. -/
def channelCount (s : State) : Nat := if s.part = .bkz2048 then 96 else 64

/-- An instant falls in an earlier fabric cycle than another one. -/
def earlierCycle (t u : Nat) : Bool := decide (t / 8 < u / 8)

/-! ## Free values (log 2) -/

/-- Draw a fresh 64-bit free value. -/
def drawFree (s : State) : U64 × State := (Config.freeWord s.free, { s with free := s.free + 1 })
/-- `n` fresh free bytes. -/
def freeBytes (s : State) (n : Nat) : Bytes := (List.range n).map (fun i => Config.freeByte (s.free * 65536 + i))
/-- Host memory that a failed transfer leaves undefined (11 R407). -/
def spoilHost (addr n : Nat) (s : State) : State :=
  { s with hostMem := Mem.writeN s.hostMem addr (freeBytes s n), free := s.free + 1 }

/-! ## Host memory -/

def hostRead (s : State) (addr n : Nat) : Bytes := Mem.readN s.hostMem addr n
def hostWrite (addr : Nat) (b : Bytes) (s : State) : State := { s with hostMem := Mem.writeN s.hostMem addr b }

/-! ## Accounting (10 R381–R383) -/

def modAcct (slot : Nat) (g : Account → Account) (s : State) : State := modCtx slot (fun c => { c with acct := g c.acct }) s
/-- Charge host-link bytes: received by the device, sent by it. -/
def chargeHost (slot rx tx : Nat) (s : State) : State :=
  modAcct slot (fun a => { a with
    hostRx := a.hostRx + BitVec.ofNat 64 rx, hostTx := a.hostTx + BitVec.ofNat 64 tx,
    energyFj := a.energyFj + (rx + tx) * Config.energy 11 0 }) s
/-- Charge hinge payload bytes received and sent. -/
def chargeHinge (slot rx tx : Nat) (s : State) : State :=
  modAcct slot (fun a => { a with
    hingeRx := a.hingeRx + BitVec.ofNat 64 rx, hingeTx := a.hingeTx + BitVec.ofNat 64 tx,
    energyFj := a.energyFj + (rx + tx) * Config.energy 12 0 }) s
/-- Charge fixed-function fabric cycles. -/
def chargeFixed (slot n : Nat) (s : State) : State :=
  modAcct slot (fun a => { a with fixed := a.fixed + BitVec.ofNat 64 n, energyFj := a.energyFj + n * Config.energy 8 0 }) s
/-- Charge vault bytes read and written. -/
def chargeVault (slot rd wr : Nat) (s : State) : State :=
  modAcct slot (fun a => { a with
    vaultRd := a.vaultRd + BitVec.ofNat 64 rd, vaultWr := a.vaultWr + BitVec.ofNat 64 wr,
    energyFj := a.energyFj + rd * Config.energy 9 0 + wr * Config.energy 10 0 }) s

/-- Charge work whose cycles and bytes no rule states: each quantity grows by a free value (log 30). -/
def chargeWork (slot : Nat) (s : State) : State :=
  let w := fun (k : Nat) => Config.freeWord (s.free + k)
  { modAcct slot (fun a => { a with
      se := a.se + w 0, me := a.me + w 1, ve := a.ve + w 2, te := a.te + w 3, fixed := a.fixed + w 4
      vaultRd := a.vaultRd + w 5, vaultWr := a.vaultWr + w 6, energyFj := a.energyFj + (w 7).toNat }) s with free := s.free + 8 }

/-! ## Interrupt messages and error status (11 R408–R410) -/

/-- Send the MSI-X message of a vector, or set its pending bit while it is masked. -/
def sendMsix (fn vector : Nat) (s : State) : State :=
  if (tgetD (fnOf s fn).msix vector {}).masked then
    modFn fn (fun f => { f with pba := if f.pba.contains vector then f.pba else f.pba ++ [vector] }) s
  else { s with sent := s.sent ++ [.msix fn vector] }
/-- ERR_VECTOR of a function. -/
def errVector (s : State) (fn : Nat) : Nat := field (fnOf s fn).admCfg.toNat 29 19
/-- The fresh status bits of a head with `bits`, and with WRAPPED where a counter wraps (00 R18). -/
def headFresh (h : Head) (bits : Nat) (wraps : Bool) : Nat := h.fresh ||| bits ||| (if wraps then 2048 else 0)
/-- Set one bit of a function's KW_ERR_STATUS and describe it in KW_ERR_INFO; the message goes out when
(STATUS & MASK) leaves zero (11 R409). UNIT is a reason of 11 Table 11-12; it is a free value for an error outside those
units, which `unit` 0 stands for (log 36). -/
def raiseErrFn (fn bit unit detail : Nat) (s0 : State) : State :=
  let f := fnOf s0 fn
  let st := f.errStatus ||| BitVec.ofNat 32 (2 ^ bit)
  let u := if unit = 0 then (Config.freeWord s0.free).toNat % 256 else unit
  let info : U64 := BitVec.ofNat 64 (bit * 2 ^ 56 + u * 2 ^ 48 + detail % 2 ^ 48)
  let s : State := if unit = 0 then { s0 with free := s0.free + 1 } else s0
  let s' := modFn fn (fun f => { f with errStatus := st, errFresh := f.errFresh ||| BitVec.ofNat 32 (2 ^ bit), errInfo := info }) s
  if f.errStatus &&& f.errMask = 0 ∧ st &&& f.errMask ≠ 0 then sendMsix fn (errVector s fn) s' else s'
/-- A device error: in the PF, and in the VF of the ward it concerns (11 R410). -/
def raiseErr (bit unit detail : Nat) (ward : Option Nat) (s : State) : State :=
  let s1 := raiseErrFn 0 bit unit detail s
  match ward with
  | some w => if w ≠ 0 ∧ w ≤ s.vfs then raiseErrFn w bit unit detail s1 else s1
  | none => s1
/-- Bits of KW_ERR_STATUS (11 Table 11-5). -/
def eCorrected : Nat := 0
def eUncorrDevice : Nat := 1
def eKeeperHalt : Nat := 2
def eHostDma : Nat := 3
def eThermal : Nat := 4
def eSpareRemap : Nat := 5
def eLaneDegrade : Nat := 6
def eFwSwitched : Nat := 7
/-- An improper access of a function: HOST_DMA in that function's own register (11 R387, R388, R392). -/
def raiseHostDma (fn addr : Nat) (s : State) : State := raiseErrFn fn eHostDma 0 addr s
/-- A failed transfer to or from host memory: HOST_DMA with the bus address, and the AER report (11 R410, R548). -/
def hostDmaFailed (ward addr : Nat) (s : State) : State :=
  raiseErr eHostDma 0 addr (some ward) { s with sent := s.sent ++ [.aerHostAccess] }

/-! ## Rings and completion records (11 R391–R395, R402) -/

/-- The ring of a function or a context. -/
def ringOf (s : State) : RingRef → Option Ring
  | .admin fn => if (fnOf s fn).enabled || (fnOf s fn).disabling then some (fnOf s fn).ring else none
  | .ctx slot => (ctxOf s slot).map (·.ring)
def modRing (r : RingRef) (g : Ring → Ring) (s : State) : State :=
  match r with
  | .admin fn => modFn fn (fun f => { f with ring := g f.ring }) s
  | .ctx slot => modCtx slot (fun c => { c with ring := g c.ring }) s
/-- The function whose table holds the ring's vector. -/
def ringFn (s : State) : RingRef → Nat
  | .admin fn => fn
  | .ctx slot => ((ctxOf s slot).map (·.ward)).getD 0
def ringVector (s : State) : RingRef → Nat
  | .admin fn => field (fnOf s fn).admCfg.toNat 18 8
  | .ctx slot => ((ctxOf s slot).map (fun c => cbVector c.cfg)).getD 0
/-- F of 11 R395. -/
def ringF (r : Ring) : Nat := 2 ^ r.cqLog2 - r.unreturned.length
/-- F − K ≥ 4. -/
def ringRoomy (r : Ring) : Bool := decide (r.cmds.length + 4 ≤ ringF r)

/-- The 32 bytes of a record at its place in a ring (11 Table 11-10). -/
def recBytes (r : Ring) (admin : Bool) (x : Rec) : Bytes :=
  let seq := x.seq.getD ((r.nextSeq + 2 ^ 32 - 1) % 2 ^ 32)
  let phase := b2n (r.posted / 2 ^ r.cqLog2 % 2 == 0)
  natLe 4 seq ++
  natLe 4 (x.gen % 65536 + (x.slot % 1024) * 2 ^ 16 + b2n x.fence * 2 ^ 27 + b2n admin * 2 ^ 28 + phase * 2 ^ 31) ++
  natLe 1 x.type ++ natLe 1 x.code ++ natLe 1 x.reason ++ natLe 1 x.opcode ++ fit 20 x.body
/-- Does the record raise the interrupt condition (11 R408)? -/
def recRaises (s : State) (r : RingRef) (x : Rec) : Bool :=
  match r with
  | .admin _ => true
  | .ctx slot => x.type == 4 || x.irq || ((ctxOf s slot).map (fun c => (cbIrqMask c.cfg).testBit x.type)).getD false
/-- Write a record at the ring's next index, and send the interrupt message if it is due (11 R394, R409). -/
def putRecord (r : RingRef) (x : Rec) (s : State) : State :=
  match ringOf s r with
  | none => s
  | some g =>
    let admin := match r with | .admin _ => true | .ctx _ => false
    let addr := g.cqBase + 32 * (g.posted % 2 ^ g.cqLog2)
    let raises := recRaises s r x
    let s1 := hostWrite addr (recBytes g admin x) s
    let s2 := match r with | .ctx slot => chargeHost slot 0 32 s1 | .admin _ => s1
    let s3 := modRing r (fun g => { g with posted := g.posted + 1, unreturned := g.unreturned ++ [raises] }) s2
    let armed := g.arm || (match g.disarmedAt with | some t => !earlierCycle t s.now | none => false)
    if raises && armed then
      sendMsix (ringFn s r) (ringVector s r) (modRing r (fun g => { g with arm := false, disarmedAt := none }) s3)
    else s3
/-- Post a record that always finds room. No record is posted while Phipel is stopped (11 R412); during a firmware
switch it is held (11 R396, 15 R495). -/
def postAlways (r : RingRef) (x : Rec) (s : State) : State :=
  if s.fw.switching then { s with fw := { s.fw with heldRecs := s.fw.heldRecs ++ [(r, x)] } }
  else if s.fw.running then putRecord r x s else s
/-- The slot and generation that a ring's records name. -/
def ringSlot (s : State) : RingRef → Nat × Nat
  | .ctx i => (i, (slotOf s i).gen)
  | .admin _ => (0, 0)
/-- Post the EVENTS_LOST record owed, once F − K ≥ 4 again (11 R395). -/
def settleLost (r : RingRef) (s : State) : State :=
  match ringOf s r with
  | none => s
  | some g =>
    if 0 < g.lostOwed ∧ ringRoomy g then
      postAlways r { type := 6, body := natLe 4 g.lostOwed, slot := (ringSlot s r).1, gen := (ringSlot s r).2 }
        (modRing r (fun g => { g with lostOwed := 0 }) s)
    else s
/-- Post a record that is dropped and counted when there is no room (11 R395). -/
def postOther (r : RingRef) (x : Rec) (s : State) : State :=
  match ringOf s r with
  | none => s
  | some g =>
    if ringRoomy g then postAlways r x s
    else modRing r (fun g => { g with
      lost := if g.lost = 2 ^ 32 - 1 then g.lost else g.lost + 1
      lostOwed := g.lostOwed + 1
      droppedAt := s.now
      dropped := (if earlierCycle g.droppedAt s.now then [] else g.dropped) ++ [x] }) s
/-- The records dropped earlier in this fabric cycle are posted, as room allows: their test sees a KW_CQ_DB write of it (11 R396). -/
def repost (r : RingRef) (s : State) : State :=
  match ringOf s r with
  | none => s
  | some g =>
    if earlierCycle g.droppedAt s.now then s
    else g.dropped.foldl (fun s x => postOther r x (modRing r (fun g => { g with lost := g.lost - 1, lostOwed := g.lostOwed - 1 }) s))
      (modRing r (fun g => { g with dropped := [] }) s)
/-- Post an EVENT on a context's ring, bytes 12–31 as 11 Table 11-12 gives them. -/
def postEvent (slot code reason : Nat) (body : Bytes) (s : State) : State :=
  postOther (.ctx slot) { type := 3, code := code, reason := reason, body := body, slot := slot, gen := (slotOf s slot).gen } s
/-- Post an EVENT on a function's admin ring. -/
def postFnEvent (fn code reason slot gen : Nat) (body : Bytes) (s : State) : State :=
  postOther (.admin fn) { type := 3, code := code, reason := reason, body := body, slot := slot, gen := gen } s

/-- A fetched command in progress. -/
def cmdOf (s : State) (r : RingRef) (seq : Nat) : Option Cmd :=
  (ringOf s r).bind (fun g => g.cmds.find? (fun c => c.seq == seq))
def modCmd (r : RingRef) (seq : Nat) (g : Cmd → Cmd) (s : State) : State :=
  modRing r (fun x => { x with cmds := x.cmds.map (fun c => if c.seq == seq then g c else c) }) s
/-- ENABLE reads 0 once every fetched admin command has posted its record (11 R390). -/
def settleDisable (r : RingRef) (s : State) : State :=
  match r with
  | .admin fn =>
    if (fnOf s fn).disabling && (fnOf s fn).ring.cmds.isEmpty then modFn fn (fun f => { f with disabling := false }) s else s
  | .ctx _ => s
/-- Complete a command: its record unless QUIET and KW_OK, RESULT in bytes 16–31 (11 R397, R402, R406). -/
def complete (r : RingRef) (seq code reason : Nat) (result : Bytes) (s : State) : State :=
  match cmdOf s r seq with
  | none => s
  | some c =>
    let s1 := modRing r (fun x => { x with cmds := x.cmds.filter (fun c => c.seq != seq) }) s
    let x : Rec :=
      { type := 1, code := code, reason := reason, opcode := entOpcode c.entry, seq := some seq,
        body := natLe 4 (entTag c.entry) ++ fit 16 result,
        fence := entFence c.entry || (entOpcode c.entry == 0x21 && code == 0), irq := entIrq c.entry,
        slot := (ringSlot s r).1, gen := (ringSlot s r).2 }
    let s2 := if entQuiet c.entry && code == 0 then s1 else postAlways r x s1
    settleDisable r (settleLost r s2)
/-- Complete with KW_OK. -/
def completeOk (r : RingRef) (seq : Nat) (result : Bytes) (s : State) : State := complete r seq 0x00 0 result s

/-! ## Codes of 11 Table 11-11 -/

def kInputBounds : Nat := 0x01
def kScaleSkew : Nat := 0x02
def kBinGrow : Nat := 0x03
def kBinExhausted : Nat := 0x04
def kDeadlineRung : Nat := 0x05
def kDeadlineMiss : Nat := 0x06
def kHaspTimeout : Nat := 0x07
def kRemoteLost : Nat := 0x08
def kUncorrectable : Nat := 0x09
def kConflict : Nat := 0x0A
def kDegenerate : Nat := 0x0B
def kFreeze : Nat := 0x0C
def kUnderrun : Nat := 0x0D
def kFwSwitch : Nat := 0x0E
def kKernelFault : Nat := 0x10
def kCaptureShort : Nat := 0x11
def kSampleDrop : Nat := 0x12
def kAdapterSwap : Nat := 0x13
def kLinkChange : Nat := 0x14
def kBadEntry : Nat := 0x20
def kBadConfig : Nat := 0x21
def kCreateRefused : Nat := 0x22
def kWardRefused : Nat := 0x23
def kImageRejected : Nat := 0x24
def kGraphRejected : Nat := 0x25
def kHierRejected : Nat := 0x26
def kNoMemory : Nat := 0x27
def kBadState : Nat := 0x28
def kCancelled : Nat := 0x29
def kHostError : Nat := 0x2A

/-! ## Ward memory (11 R388) -/

/-- Granules of a ward: 6,144 per channel of 1.5 GiB (10 R350). -/
def wardGranules (w : Ward) : Nat := 6144 * popcount 96 w.cfg.chanMask
/-- Is the object in staging memory, which takes no vault granule? -/
def inStaging (k : AllocKind) : Bool := match k with | .staging _ => true | .tensors _ _ => true | _ => false
/-- Granules allocated, the spare pool's among them. -/
def usedGranules (w : Ward) : Nat := ((w.allocs.filter (fun a => !inStaging a.kind)).map (·.count)).foldl (· + ·) 0
def freeGranules (w : Ward) : Nat := wardGranules w - usedGranules w
/-- The allocation that maps a ward address. -/
def allocAt (w : Ward) (addr : Nat) : Option Alloc :=
  w.allocs.find? (fun a => decide (a.base * 2 ^ 18 ≤ addr) && decide (addr < (a.base + a.count) * 2 ^ 18))
/-- Is the allocation in the address space of kernels and BAR2? The spare pool is not mapped. -/
def mappedAlloc (w : Ward) (addr : Nat) : Option Alloc :=
  match allocAt w addr with
  | some a => if a.kind = .spare then none else some a
  | none => none
/-- One byte of ward memory; an unmapped address reads as zero (11 R388). -/
def wardByte (w : Ward) (addr : Nat) : Byte :=
  match mappedAlloc w addr with
  | none => 0
  | some a => if a.ro then a.content.getD (addr - a.base * 2 ^ 18) 0 else Mem.read w.mem addr
/-- `n` bytes of ward memory. -/
def wardRead (w : Ward) (addr : Nat) : Nat → Bytes
  | 0 => []
  | n + 1 => wardByte w addr :: wardRead w (addr + 1) n
/-- Does every granule of [addr, addr + n) belong to a mapped object that satisfies a test? -/
def mappedBy (w : Ward) (addr n : Nat) (ok : Alloc → Bool) : Bool :=
  n == 0 || (List.range ((addr + n - 1) / 2 ^ 18 + 1 - addr / 2 ^ 18)).all (fun i =>
    ((mappedAlloc w ((addr / 2 ^ 18 + i) * 2 ^ 18)).map ok).getD false)
/-- Are all of [addr, addr + n) mapped, and writable when `write`? -/
def wardMapped (w : Ward) (addr n : Nat) (write : Bool) : Bool := mappedBy w addr n (fun a => !write || !a.ro)
/-- Does a granule's owner let this context reach it? Another context's memory is not mapped for it (05 R216). -/
def allocFor (slot : Nat) (a : Alloc) : Bool :=
  match a.kind with
  | .general i => i == slot
  | .staging i => i == slot
  | .stats i => i == slot
  | .tensors i _ => i == slot
  | .buffers i => i == slot
  | .image _ => true
  | .hierarchy i _ => i == slot
  | .graph i => i == slot
  | _ => false
/-- Is the range mapped for a context's kernels (05 R215, R216)? -/
def ctxMapped (w : Ward) (slot addr n : Nat) (write : Bool) : Bool := mappedBy w addr n (fun a => (!write || !a.ro) && allocFor slot a)
/-- Does a line of 64 bytes meet [addr, addr + n)? -/
def lineMeets (addr n l : Nat) : Bool := decide (l < addr + n) && decide (addr < l + 64)
/-- The first poisoned line of a range (15 R482). -/
def poisonIn (w : Ward) (addr n : Nat) : Option Nat := w.poisoned.find? (lineMeets addr n)
/-- Write bytes that are mapped and writable; a line that is written is no longer poisoned (15 R482). -/
def wardWrite (wd addr : Nat) (b : Bytes) (s : State) : State :=
  modWard wd (fun w => { w with
    mem := Mem.writeN w.mem addr b, poisoned := w.poisoned.filter (fun l => !lineMeets addr b.length l) }) s

/-- The lowest base at or above `base` where `count` granules are free, looking past each allocation in turn. -/
def findGap (allocs : List Alloc) (count : Nat) : Nat → Nat → Nat
  | 0, base => base
  | fuel + 1, base =>
    match allocs.find? (fun a => decide (a.base < base + count) && decide (base < a.base + a.count + a.room)) with
    | some a => findGap allocs count fuel (a.base + a.count + a.room)
    | none => base
/-- Take granules from free memory for an object, at the lowest free ward address above 0 (log 5); none when too few are free. -/
def allocate (wd count : Nat) (kind : AllocKind) (ro : Bool) (content : Bytes) (s : State) : Option (Nat × State) :=
  let w := wardOf s wd
  if !inStaging kind && decide (freeGranules w < count) then none
  else
    let base := findGap w.allocs count (w.allocs.length + 1) 1
    let a : Alloc := { base := base, count := count, kind := kind, ro := ro, content := content,
                       serial := s.nextSerial, chans := w.cfg.chanMask }
    some (base * 2 ^ 18,
      { modWard wd (fun w => { w with allocs := w.allocs ++ [a] }) s with nextSerial := s.nextSerial + 1 })
/-- Return the granules of the allocations that satisfy a test to free memory; they read as zero until written (10 R377), and the scrub
writes every line of theirs (15 R482). -/
def release (wd : Nat) (test : Alloc → Bool) (s : State) : State :=
  modWard wd (fun w =>
    { w with
      mem := (w.allocs.filter test).foldl (fun m a => Mem.scrub m (a.base * 2 ^ 18) (a.count * 2 ^ 18)) w.mem
      poisoned := w.poisoned.filter (fun l => !(w.allocs.filter test).any (fun a => a.base ≤ l / 2 ^ 18 && l / 2 ^ 18 < a.base + a.count))
      allocs := w.allocs.filter (fun a => !test a) }) s

end Sys2Proof.Machine
end

