-- ==== Sys2Proof/Machine/Kernels.lean ====
section
/-!
DEFINITION. The registers of a thread, and the instruction words of kernels: which fields each opcode of 05 Table 5-4 uses, the checks of 05 R213 on a
word, and where a kernel's code lies in its image (05 R212).
-/
namespace Sys2Proof.Machine

/-! ## Registers (05 R190) -/

/-- Scalar register i; s0 reads as zero. -/
def rdS (th : Thread) (i : Nat) : Nat := if i = 0 then 0 else (th.s.getD i 0).toNat
/-- Put a value at place i of a register list, growing it with zeros. -/
def regSet {α : Type} (d : α) (l : List α) (i : Nat) (x : α) : List α :=
  if i < l.length then l.set i x else l ++ List.replicate (i - l.length) d ++ [x]
/-- Write scalar register i; a write to s0 is discarded. -/
def wrS (i n : Nat) (th : Thread) : Thread := if i = 0 then th else { th with s := regSet 0 th.s i (BitVec.ofNat 64 n) }
/-- Predicate register i; p0 reads as all ones. -/
def rdP (th : Thread) (i : Nat) : Nat := if i = 0 then 2 ^ 64 - 1 else (th.p.getD i 0).toNat
/-- Write predicate register i; a write to p0 is discarded. -/
def wrP (i n : Nat) (th : Thread) : Thread := if i = 0 then th else { th with p := regSet 0 th.p i (BitVec.ofNat 64 n) }
/-- Vector register i. -/
def rdV (th : Thread) (i : Nat) : Nat := (th.v.getD i 0).toNat
/-- Write vector register i. -/
def wrV (i n : Nat) (th : Thread) : Thread := { th with v := regSet 0 th.v i (BitVec.ofNat 1024 n) }
/-- Lane i of `w` bits. -/
def lane (w v i : Nat) : Nat := v / 2 ^ (w * i) % 2 ^ w
/-- A vector of lanes of `w` bits. -/
def ofLanes (w : Nat) (l : List Nat) : Nat := l.foldr (fun x acc => x % 2 ^ w + 2 ^ w * acc) 0
/-- The lanes of a register. -/
def lanesOf (w v : Nat) : List Nat := (List.range (1024 / w)).map (lane w v)

/-! ## Instruction words (05 R191, R213) -/

/-- How an opcode uses a register field (05 R191). -/
inductive Use where
  | no
  | s
  | v
  | p
  | t
  deriving DecidableEq, Repr

/-- The fields an opcode uses under a MOD value: registers and the mask of IMM24 bits. -/
structure OpUse where
  d : Use := .no
  a : Use := .no
  b : Use := .no
  c : Use := .no
  imm : Nat := 0
  deriving DecidableEq, Repr

/-- The field use of an opcode under a MOD value, and none where the pair is reserved or system-only (05 Table 5-4). -/
def opUse (op mod : Nat) : Option OpUse :=
  let all := 0xFFFFFF
  let on (ok : Bool) (u : OpUse) : Option OpUse := if ok then some u else none
  match op with
  | 0x00 => on (mod == 0) {}
  | 0x01 => on (mod == 0) {}
  | 0x02 => on (decide (mod ≤ 2)) { imm := all }
  | 0x10 | 0x11 => on (decide (mod ≤ 1)) { d := .s, a := .s, b := .s }
  | 0x12 => on (mod == 0) { d := .s, a := .s, b := .s }
  | 0x13 => on (decide (mod ≤ 3)) { d := .s, a := .s, b := .s }
  | 0x14 | 0x15 | 0x16 => on (mod == 0) { d := .s, a := .s, b := .s }
  | 0x17 | 0x18 | 0x19 => on (decide (mod ≤ 1)) { d := .s, a := .s, b := .s }
  | 0x1A | 0x1B => on (decide (mod ≤ 1)) { d := .s, a := .s, b := .s }
  | 0x1C => on (mod == 0) { d := .s, a := .s, imm := all }
  | 0x1D | 0x1E => on (mod == 0) { d := .s }
  | 0x1F => on (decide (mod ≤ 5)) { d := .p, a := .s, b := .s }
  | 0x20 => on (decide (mod ≤ 5)) { d := .p, a := .s, imm := all }
  | 0x21 => on (mod == 0) { d := .s, a := .s, b := .s, c := .p }
  | 0x22 => on (decide (mod ≤ 3)) { d := .p, a := .p, b := .p }
  | 0x23 => on (mod == 0) { d := .s }
  | 0x24 => on (mod == 0) { d := .s, imm := 0x7 }
  | 0x40 | 0x41 | 0x42 => on (decide (mod ≤ 3)) { d := .v, a := .v, b := .v }
  | 0x43 => on (decide (mod ≤ 1)) { d := .v, a := .v, b := .v, c := .v }
  | 0x44 | 0x45 => on (decide (mod ≤ 2)) { d := .v, a := .v, b := .v }
  | 0x46 => on (decide (mod ≤ 1)) { d := .v, a := .v, b := .v }
  | 0x47 => on (decide (mod ≤ 1)) { d := .v, a := .v }
  | 0x48 => on (decide (mod ≤ 1)) { d := .v, a := .v, imm := 0x3 }
  | 0x49 => on (mod == 0) { d := .v, a := .v, imm := 0x1FFFF }
  | 0x4A => on (decide (mod < 12)) { d := .p, a := .v, b := .v }
  | 0x4B => on (decide (mod ≤ 2)) { d := .v, a := .v, b := .v, c := .p }
  | 0x4C => on (decide (mod ≤ 2)) { d := .v, a := .v, b := .v, imm := 0x3 }
  | 0x4D => on (decide (mod ≤ 2)) { d := .v, a := .v, b := .v, imm := 0x3 }
  | 0x4E => on (decide (mod ≤ 1)) { d := .v, a := .s }
  | 0x4F => on (decide (mod ≤ 2)) { d := .v }
  | 0x50 => on (mod == 0 || mod == 2) { d := .s, a := .v }
  | 0x51 => on (mod == 0 || mod == 2) { d := .v, a := .v, b := .v, c := .v }
  | 0x52 => on (mod == 0) { d := .s, a := .v, imm := 0x3 }
  | 0x53 => on (decide (mod ≤ 2)) { d := .v, a := .v }
  | 0x54 => on (decide (mod ≤ 6) && mod != 3) { d := .v, a := .v }
  | 0x80 => on (decide (mod ≤ 7)) { d := if mod = 0 then .v else .s, a := .s, imm := all }
  | 0x81 => on (decide (mod ≤ 4)) { a := .s, b := if mod = 0 then .v else .s, imm := all }
  | 0x82 => on (mod == 0) { d := .v, a := .s, b := .v }
  | 0x83 => on (decide (mod ≤ 7)) { d := if mod = 0 then .v else .s, a := .s, imm := all }
  | 0x84 => on (decide (mod ≤ 4)) { a := .s, b := if mod = 0 then .v else .s, imm := all }
  | 0x85 => on (decide (mod ≤ 7)) { d := .s, a := .s, b := .s, c := if mod = 7 then .s else .no }
  | 0x86 => on (decide (mod ≤ 5)) (if mod ≤ 1 then { a := .s, b := .s, c := .s } else { a := .s })
  | 0x87 => on (mod == 0) { imm := all }
  | 0x88 => on (mod == 0) { imm := 0x1F }
  | 0xA0 | 0xA1 | 0xA2 => on (mod == 0) { a := .s, imm := 0x1FFFF }
  | 0xA3 => on (mod == 0) { d := .p, a := .s, imm := 0x1FFFF }
  | 0xA4 | 0xA5 => on (mod == 0) { a := .s, imm := 0xFFF }
  | 0xA6 => on (mod == 0) { d := .p, a := .s, imm := 0xFFF }
  | 0xA7 => on (mod == 0) { a := .v, b := .s }
  | 0xA8 => on (mod == 0) { a := .v }
  | 0xC0 => on (decide (mod ≤ 1)) { d := .t }
  | 0xC1 => on (mod == 0) { d := .t, a := .s, b := .s, c := .s, imm := all }
  | 0xC2 => on (mod == 0) { d := .t, a := .s, b := .s, c := .s, imm := 0x3FFFF }
  | 0xC3 => on (mod == 0) { d := .v, imm := 0x7 }
  | 0xD0 => on (decide (mod ≤ 2)) { d := .v, a := .s, b := .v, c := .v }
  | _ => none

/-- How many vector registers an opcode writes or reads from its first one (VPACK, VUNPK, TRD, SMP by channels). -/
def vSpan (op mod : Nat) : Nat × Nat :=
  if op = 0x53 then (1, if mod = 0 then 4 else if mod = 1 then 2 else 8)
  else if op = 0x54 then ((if mod % 4 = 0 then 4 else if mod % 4 = 1 then 2 else 8), 1)
  else if op = 0xC3 then (8, 1) else (1, 1)

/-- A register field is well formed for its use: vector bit [5] zero and below VREGS, predicate bits [5:3] zero. -/
def regOk (u : Use) (vregs span x : Nat) : Bool :=
  match u with
  | .no => x == 0
  | .s => true
  | .v => decide (x < 32) && decide (x + span ≤ vregs)
  | .p => decide (x < 8)
  | .t => decide (x < 8)

/-- The operand pair of a TMM is permitted by 03 R109 or R117, of codes 0x01–0x08 of 04 Table 4-7. -/
def tmmPairOk (a b : Nat) : Bool :=
  let int8 := fun x => x == 1 || x == 2
  let int4 := fun x => x == 3 || x == 4
  let fp8 := fun x => x == 5 || x == 6
  ((int8 a || int4 a) && (int8 b || int4 b)) || (fp8 a && fp8 b) || (a == 7 && b == 7) || (a == 8 && b == 8)

/-- Immediate codes that an opcode defines (05 Table 5-4): VFN, VLOG, VSH, VCVT, TMM. -/
def immOk (op imm : Nat) : Bool :=
  if op = 0x4C then decide (imm % 4 ≤ 2)
  else if op = 0x4D then decide (imm % 4 ≤ 2)
  else if op = 0x49 then
    let src := imm % 256; let dst := imm / 256 % 256
    let fc := fun x => decide (5 ≤ x) && decide (x ≤ 9)
    ((src == 9 && (fc dst || dst == 0x0A)) || (dst == 9 && (fc src || src == 0x0A)))
  else if op = 0xC1 then tmmPairOk (imm / 2 ^ 20 % 16) (imm / 2 ^ 16 % 16)
  else true

/-- A word's opcode, MOD and fields are all defined, the fields it does not use zero, its registers in range
(05 R191, R213 cases 3 and 6). -/
def wordOkFor (op : Nat) (f : KFields) (vregs : Nat) : Bool :=
  match opUse op f.mod.toNat with
  | none => false
  | some u =>
    let m := f.mod.toNat
    let sp := vSpan op m
    if op = 0x1D then decide (imm36 f < 2 ^ 36) && f.a == 0
    else if op = 0x1E then decide (imm36 f < 2 ^ 32) && f.a == 0
    else
      regOk u.d vregs sp.1 f.dst.toNat && regOk u.a vregs sp.2 f.a.toNat && regOk u.b vregs 1 f.b.toNat
        && regOk u.c vregs 1 f.c.toNat && f.imm.toNat &&& u.imm == f.imm.toNat && immOk op f.imm.toNat

/-- The timing-visible instructions of 05 R214. -/
def timingVisible (op : Nat) (f : KFields) : Bool :=
  op == 0x23 || op == 0x24 || op == 0xA3 || op == 0xA6
    || (op == 0x85 && (f.dst != 0 || f.mod == 5 || f.mod == 6 || f.mod == 7))

/-! ## The image's sections and its kernels (04 Tables 4-1 to 4-3, 05 R212) -/

/-- Offset, length and count of an image's section of a type (04 Table 4-2). -/
def imgSection (b : Bytes) (ty : Nat) : Option (Nat × Nat × Nat) :=
  ((List.range (fld b 5 1)).find? (fun k => fld b (128 + 16 * k) 1 == ty)).map
    (fun k => (fld b (128 + 16 * k + 4) 4, fld b (128 + 16 * k + 8) 4, fld b (128 + 16 * k + 12) 4))
/-- The bytes of a section; none where the image has no such section. -/
def imgBytes (b : Bytes) (ty : Nat) : Bytes :=
  match imgSection b ty with
  | some (o, l, _) => slice b o l
  | none => []
/-- A kernel record (05 Table 5-9). -/
structure KernelRec where
  kind : Nat := 0
  timing : Bool := false
  threads : Nat := 0
  vregs : Nat := 0
  store : Nat := 0
  entry : Nat := 0
  codeOffset : Nat := 0
  codeLength : Nat := 0
  deriving DecidableEq, Repr
/-- Record k of a KERNELS section. -/
def kernelRec (sec : Bytes) (k : Nat) : KernelRec :=
  let o := 16 + 32 * k
  { kind := fld sec o 1 % 16, timing := (fld sec o 1).testBit 7, threads := fld sec (o + 4) 1, vregs := fld sec (o + 5) 1,
    store := fld sec (o + 12) 4, entry := fld sec (o + 16) 4, codeOffset := fld sec (o + 20) 4, codeLength := fld sec (o + 24) 4 }
/-- Kernels of a section. -/
def kernelCount (sec : Bytes) : Nat := fld sec 0 4
/-- The instruction word at a byte offset of a kernel's code. -/
def kernelWord (sec : Bytes) (k pc : Nat) : Nat := fld sec ((kernelRec sec k).codeOffset + pc) 8

/-- An accepted kernel's code obeys 05 R213 cases 2 to 8. -/
def kernelCodeOk (sec : Bytes) (k : Nat) : Bool :=
  let r := kernelRec sec k
  let n := r.codeLength / 8
  decide (r.threads * r.vregs ≤ 1024) && decide (r.entry < r.codeLength) &&
  ((List.range n).all (fun i =>
    let w := kernelWord sec k (8 * i)
    let op := w / 2 ^ 56
    let f := kfields w
    wordOkFor op f r.vregs
      && (op != 0x02 || (let t := 8 * (i : Int) + 8 * immS f; decide (0 ≤ t) && decide (t < r.codeLength)))
      && (op != 0xA7 && op != 0xA8 || r.kind == 1)
      && (r.timing || !timingVisible op f))) &&
  (let w := kernelWord sec k (8 * (n - 1))
   w / 2 ^ 56 == 0x01 || (w / 2 ^ 56 == 0x02 && (kfields w).pred == 0 && !(kfields w).pneg))
/-- The section obeys 05 R212 and its records their ranges (case 1 of 05 R213). -/
def kernelSectionOk (sec : Bytes) : Bool :=
  let n := kernelCount sec
  decide (1 ≤ n) && decide (n ≤ 256) && allZero (slice sec 4 12) && decide (16 + 32 * n ≤ sec.length)
/-- A record's own ranges and its code area (05 R212, Table 5-9). -/
def kernelRecOk (sec : Bytes) (k : Nat) : Bool :=
  let r := kernelRec sec k
  let o := 16 + 32 * k
  decide (r.kind ≤ 2) && fld sec o 1 &&& 0x70 == 0 && allZero (slice sec (o + 1) 3) && allZero (slice sec (o + 6) 6)
    && allZero (slice sec (o + 28) 4)
    && decide (1 ≤ r.threads) && decide (r.threads ≤ 64) && (r.vregs == 8 || r.vregs == 16 || r.vregs == 24 || r.vregs == 32)
    && decide (r.store % 64 = 0) && decide (r.store ≤ 196608) && decide (r.entry % 8 = 0)
    && decide (r.codeOffset % 64 = 0) && decide (r.codeLength % 8 = 0) && decide (8 ≤ r.codeLength) && decide (r.codeLength ≤ 65536)
    && decide (16 + 32 * kernelCount sec ≤ r.codeOffset) && decide (r.codeOffset + r.codeLength ≤ sec.length)
    && (List.range k).all (fun j =>
      let q := kernelRec sec j
      decide (r.codeOffset + r.codeLength ≤ q.codeOffset) || decide (q.codeOffset + q.codeLength ≤ r.codeOffset))
/-- The first kernel that 05 R213 rejects; none when the section is accepted. -/
def kernelReject (sec : Bytes) : Option Nat :=
  if !kernelSectionOk sec then some 0
  else (List.range (kernelCount sec)).find? (fun k => !(kernelRecOk sec k && kernelCodeOk sec k))

end Sys2Proof.Machine
end

