-- ==== Sys2Proof/Machine/Hash.lean ====
section
/-!
DEFINITION. The CRC-32 of 02 R68, SHA-256 (13 R453), and ECDSA P-384 verification (15 R494).
-/
namespace Sys2Proof.Machine

/-! ## CRC-32 (02 R68) -/

/-- Eight shift steps of the reflected CRC register. -/
def crcShift : Nat → Nat → Nat
  | 0, c => c
  | n + 1, c => crcShift n (if c % 2 = 1 then (c / 2) ^^^ 0xEDB88320 else c / 2)
/-- The CRC register after a byte string. -/
def crcStep : Nat → Bytes → Nat
  | c, [] => c
  | c, b :: r => crcStep (crcShift 8 (c ^^^ b.toNat)) r
/-- CRC-32: polynomial 0x04C1_1DB7 reflected, initial value and final XOR of all ones. -/
def crc32 (b : Bytes) : Nat := crcStep 0xFFFFFFFF b ^^^ 0xFFFFFFFF

/-! ## SHA-256 -/

/-- The 64 round constants. -/
def shaK : List Nat :=
  [0x428A2F98, 0x71374491, 0xB5C0FBCF, 0xE9B5DBA5, 0x3956C25B, 0x59F111F1, 0x923F82A4, 0xAB1C5ED5] ++
  [0xD807AA98, 0x12835B01, 0x243185BE, 0x550C7DC3, 0x72BE5D74, 0x80DEB1FE, 0x9BDC06A7, 0xC19BF174] ++
  [0xE49B69C1, 0xEFBE4786, 0x0FC19DC6, 0x240CA1CC, 0x2DE92C6F, 0x4A7484AA, 0x5CB0A9DC, 0x76F988DA] ++
  [0x983E5152, 0xA831C66D, 0xB00327C8, 0xBF597FC7, 0xC6E00BF3, 0xD5A79147, 0x06CA6351, 0x14292967] ++
  [0x27B70A85, 0x2E1B2138, 0x4D2C6DFC, 0x53380D13, 0x650A7354, 0x766A0ABB, 0x81C2C92E, 0x92722C85] ++
  [0xA2BFE8A1, 0xA81A664B, 0xC24B8B70, 0xC76C51A3, 0xD192E819, 0xD6990624, 0xF40E3585, 0x106AA070] ++
  [0x19A4C116, 0x1E376C08, 0x2748774C, 0x34B0BCB5, 0x391C0CB3, 0x4ED8AA4A, 0x5B9CCA4F, 0x682E6FF3] ++
  [0x748F82EE, 0x78A5636F, 0x84C87814, 0x8CC70208, 0x90BEFFFA, 0xA4506CEB, 0xBEF9A3F7, 0xC67178F2]
/-- The initial hash value. -/
def shaInit : List Nat := [0x6A09E667, 0xBB67AE85, 0x3C6EF372, 0xA54FF53A, 0x510E527F, 0x9B05688C, 0x1F83D9AB, 0x5BE0CD19]
/-- Rotate a 32-bit word right. -/
def rotr (x n : Nat) : Nat := (x >>> n) ||| ((x <<< (32 - n)) % 2 ^ 32)
/-- A big-endian byte string as a number. -/
def beNat (b : Bytes) : Nat := b.foldl (fun a x => 256 * a + x.toNat) 0
/-- The low `k` bytes of a number, big-endian. -/
def natBe (k n : Nat) : Bytes := (natLe k n).reverse
/-- Extend the message schedule: `w` holds the last 16 words, oldest first; `n` further words are produced. -/
def shaSchedule : Nat → List Nat → List Nat
  | 0, w => w
  | n + 1, w =>
    let a := w.getD 1 0
    let b := w.getD 14 0
    let s0 := rotr a 7 ^^^ rotr a 18 ^^^ (a >>> 3)
    let s1 := rotr b 17 ^^^ rotr b 19 ^^^ (b >>> 10)
    let x := (w.getD 0 0 + s0 + w.getD 9 0 + s1) % 2 ^ 32
    w.getD 0 0 :: shaSchedule n (w.drop 1 ++ [x])
/-- One round on the eight working words. -/
def shaRound (h : List Nat) (kw : Nat × Nat) : List Nat :=
  match h with
  | [a, b, c, d, e, f, g, hh] =>
    let s1 := rotr e 6 ^^^ rotr e 11 ^^^ rotr e 25
    let ch := (e &&& f) ^^^ ((e ^^^ 0xFFFFFFFF) &&& g)
    let t1 := (hh + s1 + ch + kw.1 + kw.2) % 2 ^ 32
    let s0 := rotr a 2 ^^^ rotr a 13 ^^^ rotr a 22
    let mj := (a &&& b) ^^^ (a &&& c) ^^^ (b &&& c)
    [(t1 + s0 + mj) % 2 ^ 32, a, b, c, (d + t1) % 2 ^ 32, e, f, g]
  | x => x
/-- The 16 big-endian words of a block. -/
def shaWords : Nat → Bytes → List Nat
  | 0, _ => []
  | n + 1, b => beNat (b.take 4) :: shaWords n (b.drop 4)
/-- One block of 64 bytes. -/
def shaBlock (h : List Nat) (b : Bytes) : List Nat :=
  List.zipWith (fun x y => (x + y) % 2 ^ 32) h ((shaK.zip (shaSchedule 48 (shaWords 16 b))).foldl shaRound h)
/-- All the blocks of a padded message; `n` of them. -/
def shaBlocks : Nat → List Nat → Bytes → List Nat
  | 0, h, _ => h
  | n + 1, h, b => shaBlocks n (shaBlock h (b.take 64)) (b.drop 64)
/-- The padded message. -/
def shaPad (b : Bytes) : Bytes :=
  b ++ [0x80] ++ List.replicate ((119 - b.length % 64) % 64) 0 ++ natBe 8 (8 * b.length)
/-- SHA-256: 32 bytes, the first hash word's most significant byte first (13 R448). -/
def sha256 (b : Bytes) : Bytes :=
  let p := shaPad b
  (shaBlocks (p.length / 64) shaInit p).flatMap (natBe 4)

/-! ## ECDSA on P-384 (15 R494) -/

/-- The field prime. -/
def p384 : Nat := 2 ^ 384 - 2 ^ 128 - 2 ^ 96 + 2 ^ 32 - 1
/-- The order of the base point. -/
def n384 : Nat := 0xffffffffffffffffffffffffffffffffffffffffffffffffc7634d81f4372ddf581a0db248b0a77aecec196accc52973
/-- The coefficient b of y² = x³ − 3x + b. -/
def b384 : Nat := 0xb3312fa7e23ee7e4988e056be3f82d19181d9c6efe8141120314088f5013875ac656398d8a2ed19d2a85c8edd3ec2aef
/-- The base point. -/
def gx384 : Nat := 0xaa87ca22be8b05378eb1c71ef320ad746e1d3b628ba79b9859f741e082542a385502f25dbf55296c3a545e3872760ab7
def gy384 : Nat := 0x3617de4a96262c6f5d9e98bf9292dc29f8f41dbd289a147ce9da3113b5f0b8c00a60b1ce1d7e819d7a431d7c90ea0e5f
/-- x^e mod m, by the bits of e from the most significant; `n` bits. -/
def powModLoop (m x e : Nat) : Nat → Nat → Nat
  | 0, acc => acc
  | n + 1, acc => powModLoop m x e n (if e.testBit n then acc * acc % m * x % m else acc * acc % m)
/-- The inverse modulo a prime, by Fermat. -/
def invMod (m x : Nat) : Nat := powModLoop m (x % m) (m - 2) 384 1
/-- A point in Jacobian coordinates; z = 0 is the point at infinity. -/
structure JPoint where
  x : Nat := 1
  y : Nat := 1
  z : Nat := 0
  deriving DecidableEq, Repr
/-- a − b in the field. -/
def fsub384 (a b : Nat) : Nat := (a + p384 - b % p384) % p384
/-- Doubling on a curve with a = −3. -/
def jdbl (q : JPoint) : JPoint :=
  if q.z = 0 ∨ q.y = 0 then {}
  else
    let d := q.z * q.z % p384
    let g := q.y * q.y % p384
    let be := q.x * g % p384
    let al := 3 * (fsub384 q.x d * (q.x + d) % p384) % p384
    let x := fsub384 (al * al % p384) (8 * be)
    let yz := q.y + q.z
    { x := x, z := fsub384 (yz * yz % p384) (g + d),
      y := fsub384 (al * fsub384 (4 * be) x % p384) (8 * (g * g % p384)) }
/-- Addition. -/
def jadd (p q : JPoint) : JPoint :=
  if p.z = 0 then q
  else if q.z = 0 then p
  else
    let z1 := p.z * p.z % p384
    let z2 := q.z * q.z % p384
    let u1 := p.x * z2 % p384
    let u2 := q.x * z1 % p384
    let s1 := p.y * q.z % p384 * z2 % p384
    let s2 := q.y * p.z % p384 * z1 % p384
    if u1 = u2 then (if s1 = s2 then jdbl p else {})
    else
      let h := fsub384 u2 u1
      let r := fsub384 s2 s1
      let h2 := h * h % p384
      let h3 := h2 * h % p384
      let v := u1 * h2 % p384
      let x := fsub384 (r * r % p384) (h3 + 2 * v)
      { x := x, y := fsub384 (r * fsub384 v x % p384) (s1 * h3), z := p.z * q.z % p384 * h % p384 }
/-- k × P, by the bits of k from the most significant; `n` bits. -/
def jmulLoop (k : Nat) (p : JPoint) : Nat → JPoint → JPoint
  | 0, acc => acc
  | n + 1, acc => jmulLoop k p n (if k.testBit n then jadd (jdbl acc) p else jdbl acc)
/-- Does (x, y) lie on the curve? -/
def onCurve (x y : Nat) : Bool :=
  decide (x < p384) && decide (y < p384) && (y * y % p384 == (fsub384 (x * x % p384 * x % p384) (3 * x) + b384) % p384)
/-- ECDSA verification over a SHA-256 digest, by FIPS 186-5. -/
def ecdsaVerify (px py r s : Nat) (digest : Bytes) : Bool :=
  if r = 0 ∨ n384 ≤ r ∨ s = 0 ∨ n384 ≤ s ∨ onCurve px py = false then false
  else
    let w := invMod n384 s
    let e := beNat digest
    let q := jadd (jmulLoop (e * w % n384) { x := gx384, y := gy384, z := 1 } 384 {})
                  (jmulLoop (r * w % n384) { x := px, y := py, z := 1 } 384 {})
    if q.z = 0 then false
    else
      let zi := invMod p384 q.z
      q.x * (zi * zi % p384) % p384 % n384 == r

end Sys2Proof.Machine
end

