-- ==== Sys2Proof/Machine/Tally.lean ====
section
/-!
DEFINITION. Counting: occurrences of core and chip events, bandwidth windows, sample triggers (14 R462–R474), and a
context's statistics area (14 R477).
-/
namespace Sys2Proof.Machine

/-! ## Samples (14 R472, R474) -/

def corePerf (s : State) (c : Nat) : CorePerf := tgetD s.perf.cores c {}
def modPerf (g : Perf → Perf) (s : State) : State := { s with perf := g s.perf }
def modCorePerf (c : Nat) (g : CorePerf → CorePerf) (s : State) : State :=
  modPerf (fun p => { p with cores := tput p.cores c (g (tgetD p.cores c {})) }) s
/-- Records written and not returned. -/
def sbufUnread (p : Perf) : Nat := (p.producer + 2 ^ 32 - p.consumer) % 2 ^ 32
/-- Count one lost record, saturating. -/
def loseSample (s : State) : State := modPerf (fun p => { p with lost := min (2 ^ 32 - 1) (p.lost + 1) }) s
/-- A core triggers a record: it waits to be written, or is lost where the buffer is full or one waits already. -/
def triggerSample (c trigger mask : Nat) (s : State) : State :=
  if !s.perf.sbufEnable then s
  else if (corePerf s c).sample.isSome ∨ sbufUnread s.perf = 2 ^ s.perf.sbufLog2 then loseSample s
  else modCorePerf c (fun p => { p with sample := some { trigger := trigger, ovfMask := mask, at_ := s.now } }) s
/-- A timer or external trigger: every core of PC_SAMPLE_CORES (14 R472). -/
def triggerAll (trigger : Nat) (s : State) : State :=
  (bitList (coreCount s) s.perf.sampleCores).foldl (fun s c => triggerSample c trigger 0 s) s

/-! ## Core events (14 R462, R463, R468) -/

/-- A selection matches an occurrence of an event. -/
def selMatches (sel ev : Nat) (who : Option Who) : Bool :=
  sel.testBit 63 && sel % 1024 == ev &&
    (match field sel 61 60, who with
     | 0, _ => true
     | 1, some w => field sel 25 16 == w.slot && field sel 47 32 == w.gen
     | 2, some w => w.lc
     | 3, some w => !w.lc
     | _, none => false
     | _, some _ => false)
/-- One counter advances: its value and whether it wrapped. -/
def ctrAdd (v n : Nat) : Nat × Bool := ((v + n) % 2 ^ 48, decide (2 ^ 48 ≤ v + n))
/-- A mask of bit numbers. -/
def maskOf (l : List Nat) : Nat := l.foldl (fun m i => m ||| 2 ^ i) 0
/-- An occurrence is counted when its fabric cycle ends (14 R471). -/
def note (o : Occurrence) (s : State) : State := modPerf (fun p => { p with noted := p.noted ++ [o] }) s
/-- n occurrences of a core event on a core; a core that has no counter selected counts nothing. -/
def tally (c ev n : Nat) (who : Option Who) (s : State) : State :=
  if n = 0 ∨ tget s.perf.cores c = none then s else note (.core c ev n who) s
/-- What an occurrence adds to a counter of core c that has selection `sel`. -/
def coreAdds (c sel : Nat) (o : Occurrence) : Nat :=
  match o with
  | .core c1 ev n who => if c1 = c ∧ selMatches sel ev who = true then n else 0
  | .chip _ _ _ _ => 0
/-- A core's counters advance by the occurrences of a fabric cycle and by its core cycles `cycles`, of which a selection counts those
that `hit` it, under the selections before the cycle's writes; a counter whose VALUE was written does not advance; a wrap sets OVF, and
triggers a sample where SAMPLE is set (14 R468, R471). -/
def countCore (c cycles : Nat) (hit : Nat → Bool) (l : List Occurrence) (s : State) : State :=
  match tget s.perf.cores c with
  | none => s
  | some p =>
    let sels := p.selWas.getD p.sel
    let adds := (List.range 8).map (fun i =>
      let sel := sels.getD i 0
      if p.wrote.testBit i then 0 else (if hit sel then cycles else 0) + (l.map (coreAdds c sel)).sum)
    let ws := (List.range 8).filter (fun i => (ctrAdd (p.cnt.getD i 0) (adds.getD i 0)).2)
    let s1 := modCorePerf c (fun p =>
      { p with cnt := (List.range 8).map (fun i => (ctrAdd (p.cnt.getD i 0) (adds.getD i 0)).1), ovf := p.ovf ||| maskOf ws }) s
    let sampled := ws.filter (fun i => (sels.getD i 0).testBit 62)
    if sampled.isEmpty then s1 else triggerSample c 1 (maskOf sampled) s1
/-- Bytes through a port of a core land in the running window (14 R466). -/
def portBytes (c port n : Nat) (s : State) : State :=
  match tget s.perf.cores c with
  | none => s
  | some p =>
    if p.bwEnable && p.bwRuns then modCorePerf c (fun p => { p with bwCur := lmod p.bwCur port (fun x => (x + n) % 2 ^ 48) }) s else s

/-! ## Chip events (14 R467) -/

/-- Instances of a chip event's unit; none for events without one. -/
def chipUnits (ev : Nat) : Option Nat :=
  if 0x210 ≤ ev ∧ ev ≤ 0x212 then some 16 else if ev = 0x218 ∨ ev = 0x219 then some 32 else if ev = 0x220 then some 8
  else if 0x228 ≤ ev ∧ ev ≤ 0x22B then some 96 else if 0x230 ≤ ev ∧ ev ≤ 0x232 then some 4 else if ev = 0x248 then some 4 else none
/-- A chip selection matches an occurrence at a unit, charged to a ward or to none. -/
def chipMatches (sel ev unit : Nat) (ward : Option Nat) : Bool :=
  sel.testBit 63 && sel % 1024 == ev
    && (field sel 47 40 == 0xFF || ((chipUnits ev).isSome && field sel 47 40 == unit))
    && (!sel.testBit 56 || ward == some (field sel 51 48))
/-- n occurrences of a chip event; nothing is counted where no chip counter is selected. -/
def tallyChip (ev unit n : Nat) (ward : Option Nat) (s : State) : State :=
  if n = 0 ∨ s.perf.chip = [] then s else note (.chip ev unit n ward) s
/-- What an occurrence adds to a chip counter. -/
def chipAdds (sel : Nat) (o : Occurrence) : Nat :=
  match o with
  | .core _ _ _ _ => 0
  | .chip ev unit n ward => if chipMatches sel ev unit ward = true then n else 0
/-- The chip counters advance by the occurrences of a fabric cycle (14 R467, R468, R471). -/
def countChip (l : List Occurrence) (s : State) : State :=
  let add := fun (x : ChipPerf) => if x.wrote then 0 else (l.map (chipAdds (x.selWas.getD x.sel))).sum
  modPerf (fun p => { p with
    chip := p.chip.map (fun x => (x.1, { x.2 with cnt := (ctrAdd x.2.cnt (add x.2)).1 }))
    chipOvf := p.chipOvf ||| maskOf ((p.chip.filter (fun x => (ctrAdd x.2.cnt (add x.2)).2)).map (·.1)) }) s

/-! ## The statistics area (14 R477, R478, Table 14-8) -/

/-- Change the bytes of a context's statistics area, noting the instant of the update. -/
def modStats (slot : Nat) (g : Bytes → Bytes) (s : State) : State :=
  match ctxOf s slot with
  | none => s
  | some x =>
    modWard x.ward (fun w => { w with allocs := w.allocs.map (fun a =>
      if a.kind = .stats slot then { a with content := patch (g a.content) 0x010 (natLe 8 (tb s)) } else a) }) s
/-- Bytes of an area up to `n`, zero where it holds none yet. -/
def padTo (n : Nat) (b : Bytes) : Bytes := if b.length < n then fit n b else b
/-- Add to a 64-bit count of the fixed part, modulo 2^64. -/
def addStat (slot off n : Nat) (s : State) : State :=
  if n = 0 then s
  else modStats slot (fun b => let p := padTo 4096 b; patch p off (natLe 8 (fld p off 8 + n))) s
/-- Write a field of the area. -/
def putStat (slot off bytes v : Nat) (s : State) : State := modStats slot (fun b => patch (padTo 4096 b) off (natLe bytes v)) s
/-- Add to a 32-bit count of layer i, saturating: field 0 saturations, 4 NaNs, 8 recomputes. -/
def addLayerStat (slot i f n : Nat) (s : State) : State :=
  if n = 0 then s
  else modStats slot (fun b =>
    let o := 4096 + 16 * i + f
    let p := padTo (4096 + 16 * i + 16) b
    patch p o (natLe 4 (min (2 ^ 32 - 1) (fld p o 4 + n)))) s
/-- The head of a new area: version, slot, generation and the ward's discards so far. -/
def statsHead (slot gen discards : Nat) : Bytes :=
  natLe 2 1 ++ natLe 2 slot ++ natLe 2 gen ++ List.replicate 26 0 ++ natLe 8 discards
/-- Statistics of the fixed part by name (14 Table 14-8). -/
def stReplace : Nat := 0x018
def stDiscard : Nat := 0x020
def stSat : Nat := 0x028
def stNan : Nat := 0x030
def stRecompute : Nat := 0x038
def stDegenerate : Nat := 0x040
def stGeoSkip : Nat := 0x048
def stRays : Nat := 0x050
def stRayLimit : Nat := 0x058
def stApplied : Nat := 0x060
def stSkipped : Nat := 0x068
def stEmpty : Nat := 0x070
def stFlow : Nat := 0x078
def stDisp : Nat := 0x098

end Sys2Proof.Machine
end

