-- ==== Sys2Proof/Machine/Links.lean ====
section
/-!
DEFINITION. The hinge unit below its messages' meanings: the configuration block's fields (12 Table 12-6), routes
(R422–R424), message headers (Table 12-3), flits, credits and replay (R415–R419), and the sending of messages.
-/
namespace Sys2Proof.Machine

/-! ## The HINGE_CONFIG block -/

def hcTopology (b : Bytes) : Nat := fld b 1 1
def hcId (b : Bytes) : Nat := fld b 2 2
def hcRingSize (b : Bytes) : Nat := fld b 4 2
def hcPosition (b : Bytes) : Nat := fld b 6 2
def hcEnable (b : Bytes) (p : Nat) : Bool := (fld b 8 1).testBit p
def hcReserve (b : Bytes) (p : Nat) : Nat := fld b (0x0A + p) 1
def hcHopLimit (b : Bytes) : Nat := fld b 0x0E 2
def hcRoutes (b : Bytes) : Nat := fld b 0x10 2
def hcRemotes (b : Bytes) : Nat := fld b 0x12 2
/-- A route entry. -/
structure Route where
  dest : Nat := 0
  wards : Nat := 0
  position : Nat := 0
  port : Nat := 0
  deriving DecidableEq, Repr
def hcRoute (b : Bytes) (k : Nat) : Route :=
  let o := 64 + 8 * k
  { dest := fld b o 2, wards := fld b (o + 2) 2, position := fld b (o + 4) 2, port := fld b (o + 6) 1 }
/-- A remote entry: an exported or imported range. -/
structure RemoteRange where
  kind : Nat := 0
  ward : Nat := 0
  slot : Nat := 0
  first : Nat := 0
  count : Nat := 0
  peer : Nat := 0
  peerWard : Nat := 0
  peerSlot : Nat := 0
  peerFirst : Nat := 0
  deriving DecidableEq, Repr
def hcRemote (b : Bytes) (k : Nat) : RemoteRange :=
  let o := 64 + 8 * hcRoutes b + 16 * k
  { kind := fld b o 1, ward := fld b (o + 1) 1, slot := fld b (o + 2) 2, first := fld b (o + 4) 2, count := fld b (o + 6) 2,
    peer := fld b (o + 8) 2, peerWard := fld b (o + 10) 1, peerSlot := fld b (o + 12) 2, peerFirst := fld b (o + 14) 2 }
/-- All remote entries. -/
def hcRanges (b : Bytes) : List RemoteRange := (List.range (hcRemotes b)).map (hcRemote b)
/-- The route entry of a destination. -/
def routeOf (s : State) (dest : Nat) : Option Route :=
  match s.hinge.cfg with
  | none => none
  | some b => ((List.range (hcRoutes b)).map (hcRoute b)).find? (fun r => r.dest == dest)
/-- This device's ID, 0xFFF before a configuration. -/
def ownId (s : State) : Nat := (s.hinge.cfg.map hcId).getD 0xFFF

/-! ## Ports -/

def portOf (s : State) (p : Nat) : Port := s.hinge.ports.getD p {}
def modPort (p : Nat) (g : Port → Port) (s : State) : State :=
  { s with hinge := { s.hinge with ports := lmod s.hinge.ports p g } }
/-- Change a port that may transmit: the flits it sends and sends again are counted (14 Table 14-5). -/
def sendPort (p : Nat) (g : Port → Port) (s : State) : State :=
  let x := g (portOf s p)
  x.sent.foldl (fun s f => tallyChip (if f.1 = 1 then 0x230 else 0x231) p 1 f.2 s)
    (tallyChip 0x232 p x.again none (modPort p (fun _ => { x with sent := [], again := 0 }) s))
/-- Add to a 32-bit counter of a port, setting WRAPPED when it wraps (12 R439). -/
def bump32 (c : U32) (n : Nat) : U32 × Bool := (c + BitVec.ofNat 32 n, decide (2 ^ 32 ≤ c.toNat + n))
def bump64 (c : U64) (n : Nat) : U64 × Bool := (c + BitVec.ofNat 64 n, decide (2 ^ 64 ≤ c.toNat + n))
/-- The fresh bits of a port with WRAPPED among them where a counter wraps. -/
def portFresh (x : Port) (wraps : Bool) : Nat := if wraps then x.fresh ||| 128 else x.fresh
/-- Count discarded messages at a port. -/
def discardAt (p n : Nat) (s : State) : State :=
  modPort p (fun x => { x with discards := (bump32 x.discards n).1, wrapped := x.wrapped || (bump32 x.discards n).2, fresh := portFresh x ((bump32 x.discards n).2) }) s

/-! ## Routes (12 R423, R435, R437) -/

/-- The positions crossed going up from a to b in a ring of n: each stands for the link to the next position. -/
def upLinks (n a b : Nat) : List Nat := (List.range ((b + n - a) % n)).map (fun i => (a + i) % n)
/-- Is a link, named by its two positions, among those a path of lower ends crosses? -/
def crosses (n : Nat) (path : List Nat) (l : Nat × Nat) : Bool :=
  path.any (fun a => (l.1 == a && l.2 == (a + 1) % n) || (l.2 == a && l.1 == (a + 1) % n))
/-- The port that a message for a destination leaves by; none when it is unreachable. -/
def routePort (s : State) (dest : Nat) : Option Nat :=
  match s.hinge.cfg, routeOf s dest with
  | some b, some r =>
    let n := hcRingSize b
    let own := hcPosition b
    let attached := if s.hinge.avoided.contains (0x10000 + r.port, 0x10000 + r.port) then none else some r.port
    if hcTopology b = 0 then attached
    else if r.position = own ∧ r.port ≠ 0xFF then attached
    else if hcTopology b = 1 then
      let up := own < r.position
      let path := if up then upLinks n own r.position else upLinks n r.position own
      if s.hinge.avoided.any (crosses n path) then none else some (if up then 0 else 1)
    else
      let dUp := (r.position + n - own) % n
      let up := decide (dUp ≤ n - dUp)
      let bad := fun (u : Bool) => s.hinge.avoided.any (crosses n (if u then upLinks n own r.position else upLinks n r.position own))
      if !bad up then some (if up then 0 else 1) else if !bad (!up) then some (if up then 1 else 0) else none
  | _, _ => none

/-! ## Headers (12 Table 12-3) -/

def mMagic (h : Bytes) : Nat := fld h 0 2
def mVersion (h : Bytes) : Nat := fld h 6 1
def mType (h : Bytes) : Nat := fld h 7 1
def mClass (h : Bytes) : Nat := fld h 8 1 % 2
def mStatus (h : Bytes) : Nat := fld h 9 1
def mDest (h : Bytes) : Nat := fld h 10 2 % 4096
def mSrc (h : Bytes) : Nat := fld h 12 2 % 4096
def mHops (h : Bytes) : Nat := fld h 14 2
def mTag (h : Bytes) : Nat := fld h 16 4
def mLength (h : Bytes) : Nat := fld h 20 4
def mOp (h : Bytes) : Nat := fld h 24 8
/-- Build a header. -/
def mkHdr (ty cls status dest src hops tag len op : Nat) : Bytes :=
  natLe 2 0x4748 ++ natLe 4 0 ++ [0x01] ++ natLe 1 ty ++ natLe 1 cls ++ natLe 1 status ++ natLe 2 dest ++ natLe 2 src
    ++ natLe 2 hops ++ natLe 4 tag ++ natLe 4 len ++ natLe 8 op
/-- Message types (12 Table 12-4). -/
def tyRender : Nat := 0x01
def tyPose : Nat := 0x02
def tySlice : Nat := 0x03
def tyCredit : Nat := 0x04
def tyReq : Nat := 0x10
def tyRep : Nat := 0x11
def tyInherit : Nat := 0x12
def tyGone : Nat := 0x13
def tyHello : Nat := 0x20
def tyDown : Nat := 0x21
def tyUp : Nat := 0x22
/-- The flit class of a message: control types, else its CLASS field (12 R418). -/
def msgClass (h : Bytes) : Nat :=
  let t := mType h
  if t = tyHello ∨ t = tyDown ∨ t = tyUp ∨ t = tyRep ∨ t = tyInherit ∨ t = tyGone ∨ t = tyCredit then 0
  else if mClass h = 0 then 1 else 2
/-- A LENGTH fits its TYPE (12 Table 12-4). -/
def lengthFits (h : Bytes) : Bool :=
  let n := mLength h
  let t := mType h
  if t = tyRender then decide (4096 ≤ n) && decide (n ≤ 268435456)
  else if t = tyPose then n == 128
  else if t = tySlice then decide (64 ≤ n)
  else n == 0
/-- TAG and OP_DATA bits that a TYPE leaves zero are zero (12 Table 12-4). -/
def opFits (h : Bytes) : Bool :=
  let t := mType h
  let op := mOp h
  let tagZero := mTag h == 0
  if t = tyRender ∨ t = tyPose ∨ t = tyHello then tagZero && op == 0
  else if t = tySlice then decide (op < 1024)
  else if t = tyCredit then tagZero && subMask op 0xFFFF03FF
  else if t = tyReq ∨ t = tyRep then subMask (mTag h) 0x3FFFFFFF && subMask op 0xFFFFFFFF003FFF1F
  else if t = tyGone then subMask (mTag h) 0x3FFF0000 && subMask op 0xFFFFFFFF003FFF00
  else if t = tyInherit then tagZero && subMask op 0xFFFFFFFF003FFF01
  else tagZero && subMask op 0xFFFFFF
/-- The header is well formed (12 R426). -/
def hdrOk (h : Bytes) : Bool :=
  let t := mType h
  mMagic h == 0x4748 && mVersion h == 1 && fld h 2 4 == 0 && subMask (fld h 8 1) 1
    && subMask (fld h 10 2) 0xFFF && subMask (fld h 12 2) 0xFFF
    && [tyRender, tyPose, tySlice, tyCredit, tyReq, tyRep, tyInherit, tyGone, tyHello, tyDown, tyUp].contains t
    && (t == tyRep && decide (mStatus h ≤ 2) || t != tyRep && mStatus h == 0)
    && (msgClass h != 0 || mClass h == 0) && (t != tySlice || mClass h == 0)
    && lengthFits h && opFits h

/-! ## Flits (12 R415, Table 12-2) -/

/-- The 256 bytes of a flit. -/
def flitBytes (f : TxFlit) (seq ack : Nat) (nak : Bool) : Bytes :=
  let valid := if f.cls = 3 then 240 else if f.stop then f.data.length else 240
  let ctl := valid * 2 ^ 47 + b2n f.stop * 2 ^ 55 + b2n f.start * 2 ^ 56 + b2n nak * 2 ^ 57 + f.cls * 2 ^ 58
    + f.cn * 2 ^ 60 + f.cc * 2 ^ 70 + ack * 2 ^ 72 + seq * 2 ^ 84
  let body := fit 240 f.data ++ natLe 12 ctl
  body ++ natLe 4 (crc32 body)
/-- Cut a message into chunks of 240 bytes; `n` chunks at most. -/
def chunks240 : Nat → Bytes → List Bytes
  | 0, _ => []
  | n + 1, b => if b.length ≤ 240 then [b] else b.take 240 :: chunks240 n (b.drop 240)
/-- The flits of a message. -/
def msgFlits (m : HMsg) : List TxFlit :=
  let b := m.hdr ++ m.payload
  let cs := chunks240 (b.length / 240 + 1) b
  (List.range cs.length).map (fun i =>
    { cls := msgClass m.hdr, ward := m.ward, start := i == 0, stop := i + 1 == cs.length, data := cs.getD i [] })

/-- Credits owed to the other end: the class returned by the next flit and how many. -/
def owedCredit (x : Port) : Nat × Nat :=
  if x.o0 ≠ 0 then (0, x.o0) else if x.o1 ≠ 0 then (1, x.o1) else if x.o2 ≠ 0 then (2, x.o2) else (3, 0)
/-- Put one flit on the wire with the next SEQ, returning owed credits and a NAK owed. -/
def sendFlit (f : TxFlit) (x : Port) : Port :=
  let oc := owedCredit x
  let cnt := if 1023 < oc.2 then 1023 else oc.2
  let ack := (x.expected + 4095) % 4096
  let g := { f with cc := oc.1, cn := cnt }
  { x with
    wire := x.wire ++ [flitBytes g x.nextSeq ack x.nakOwed]
    replay := x.replay ++ [(x.nextSeq, g)]
    sent := if f.cls = 1 ∨ f.cls = 2 then x.sent ++ [(f.cls, f.ward)] else x.sent
    nextSeq := (x.nextSeq + 1) % 4096
    nakOwed := false
    o0 := if oc.1 = 0 then x.o0 - cnt else x.o0
    o1 := if oc.1 = 1 then x.o1 - cnt else x.o1
    o2 := if oc.1 = 2 then x.o2 - cnt else x.o2
    txFlits := (bump64 x.txFlits 1).1
    wrapped := x.wrapped || (bump64 x.txFlits 1).2, fresh := portFresh x ((bump64 x.txFlits 1).2) }
/-- The next flit that the port transmits, with the port after it has spent its credit: control, then LC, then BE, each
only when its class holds a credit (12 R418); an LC flit takes a shared credit before one of the reserve (12 R419). -/
def nextFlit (x : Port) : Option (TxFlit × Port) :=
  if x.q0 ≠ [] ∧ 0 < x.cCtl then some (x.q0.headD {}, { x with q0 := x.q0.drop 1, cCtl := x.cCtl - 1 })
  else if x.q1 ≠ [] ∧ 0 < x.cShared then some (x.q1.headD {}, { x with q1 := x.q1.drop 1, cShared := x.cShared - 1 })
  else if x.q1 ≠ [] ∧ 0 < x.cLc then some (x.q1.headD {}, { x with q1 := x.q1.drop 1, cLc := x.cLc - 1 })
  else if x.q2 ≠ [] ∧ 0 < x.cShared then some (x.q2.headD {}, { x with q2 := x.q2.drop 1, cShared := x.cShared - 1 })
  else none
/-- Transmit while a class holds a flit and a credit and the replay buffer has room. -/
def pump : Nat → Port → Port
  | 0, x => x
  | n + 1, x =>
    if x.state = 2 ∧ x.replay.length < 1024 then
      match nextFlit x with
      | some (f, x') => pump n (sendFlit f x')
      | none => x
    else x
/-- Transmit all that can go, and an idle flit where credits or a NAK are owed and nothing else carried them. -/
def pumpAll (x : Port) : Port :=
  let x1 := pump (x.q0.length + x.q1.length + x.q2.length) x
  if x1.state = 2 ∧ x1.replay.length < 1024 ∧ (x1.nakOwed ∨ (owedCredit x1).1 ≠ 3) then sendFlit {} x1 else x1
/-- Queue a message at a port; at a port that is DOWN or DISABLED it is lost and counted (12 R436). -/
def queueAt (p : Nat) (m : HMsg) (s : State) : State :=
  if (portOf s p).state = 0 ∨ (portOf s p).state = 3 then discardAt p 1 s
  else
    let fs := msgFlits m
    let c := msgClass m.hdr
    sendPort p (fun x => pumpAll
      { x with q0 := if c = 0 then x.q0 ++ fs else x.q0, q1 := if c = 1 then x.q1 ++ fs else x.q1,
               q2 := if c = 2 then x.q2 ++ fs else x.q2 }) s
/-- Send a message of this device, charged to a ward, by its route; none when the destination is unreachable. -/
def sendMsg (ward : Option Nat) (ty cls status dest tag : Nat) (payload : Bytes) (op : Nat) (s : State) : Option State :=
  match s.hinge.cfg, routePort s dest with
  | some b, some p =>
    some (queueAt p { hdr := mkHdr ty cls status dest (hcId b) (hcHopLimit b) tag payload.length op, payload := payload, ward := ward } s)
  | _, _ => none
/-- Send a message, or drop it when the destination is unreachable. -/
def sendFor (ward : Option Nat) (ty cls status dest tag : Nat) (payload : Bytes) (op : Nat) (s : State) : State :=
  (sendMsg ward ty cls status dest tag payload op s).getD s
/-- The same for a control message, whose flits are not counted by class. -/
def sendOrDrop (ty cls status dest tag : Nat) (payload : Bytes) (op : Nat) (s : State) : State :=
  sendFor none ty cls status dest tag payload op s

/-- TAG of a request: number, requester slot and ward (12 Table 12-4). -/
def reqTag (number slot ward : Nat) : Nat := number % 65536 + slot % 1024 * 2 ^ 16 + ward % 16 * 2 ^ 26
/-- OP_DATA of a request. -/
def reqOp (op : Nat) (inherit : Bool) (tward tslot target gen : Nat) : Nat :=
  op + b2n inherit * 16 + tward * 2 ^ 8 + tslot * 2 ^ 12 + target * 2 ^ 32 + gen * 2 ^ 48

end Sys2Proof.Machine
end

