-- ==== Sys2Proof/Machine/Hasps.lean ====
section
/-!
DEFINITION. Hasps (05 R202, R203; 10 R365), with local and remote acquirers (12 R430), and priority inheritance (10 R366).
-/
namespace Sys2Proof.Machine

/-- The context slot that a thread's task belongs to. -/
def threadSlot (s : State) (t : ThreadRef) : Option Nat :=
  (threadOf s t).bind (fun th => (tget s.tasks th.task).map (·.slot))
/-- Is the task LC-level now: dealt so, or inheriting (10 R356, R366)? -/
def taskLc (t : Task) : Bool := t.lc || t.inheritKey.isSome
/-- The deadline key of a task (10 R357, R366). -/
def taskKey (t : Task) : Nat := t.inheritKey.getD t.deadline
/-- Is a context of class LC, by the configuration in force? -/
def ctxLc (s : State) (slot : Nat) : Bool := ((ctxOf s slot).map (fun c => !cbClassBE c.cfgInForce)).getD false

/-- The outstanding count of a remote holder. -/
def peerCount (h : Hasp) (p : Peer) : Nat := ((h.peers.find? (fun x => x.1 == p)).map (·.2)).getD 0
/-- Put a remote holder's outstanding count, dropping it at zero. -/
def putPeer (p : Peer) (n : Nat) (h : Hasp) : Hasp :=
  { h with peers := h.peers.filter (fun x => x.1 != p) ++ (if n = 0 then [] else [(p, n)]) }
/-- Contexts that hold a hasp. -/
def holders (h : Hasp) : Nat := h.held.length + h.peers.length
/-- May a context acquire now: the count is above zero, and it holds the hasp or fewer than eight contexts do (05 R203). -/
def haspMay (h : Hasp) (slot : Nat) : Bool :=
  decide (h.count ≠ 0) && (decide (0 < tgetD h.held slot 0) || decide (holders h < 8))
/-- The same for a remote context. -/
def haspMayPeer (h : Hasp) (p : Peer) : Bool :=
  decide (h.count ≠ 0) && (decide (0 < peerCount h p) || decide (holders h < 8))
/-- Take one count for a context. -/
def haspTake (slot : Nat) (h : Hasp) : Hasp := { h with count := h.count - 1, held := tupd h.held slot 0 (· + 1) }
def haspTakePeer (p : Peer) (h : Hasp) : Hasp := putPeer p (peerCount h p + 1) { h with count := h.count - 1 }
/-- One context's release: increment the count and lower its outstanding count, dropping it at zero. -/
def haspGive (slot : Nat) (h : Hasp) : Hasp :=
  let n := tgetD h.held slot 0
  { h with count := h.count + 1, held := if n ≤ 1 then tdel h.held slot else tput h.held slot (n - 1) }
def haspGivePeer (p : Peer) (h : Hasp) : Hasp := putPeer p (peerCount h p - 1) { h with count := h.count + 1 }
/-- A context gives up all it holds of a hasp at teardown (10 R365). -/
def haspReturnAll (slot : Nat) (h : Hasp) : Hasp :=
  { h with count := h.count + BitVec.ofNat 16 (tgetD h.held slot 0), held := tdel h.held slot }
def haspReturnPeer (p : Peer) (h : Hasp) : Hasp := putPeer p 0 { h with count := h.count + BitVec.ofNat 16 (peerCount h p) }

/-- Reply to a peer's request: status 0 OK, 1 FAIL, 2 GONE, with the request's own TAG and OP_DATA (12 Table 12-4). -/
def replyTo (dev tag op status : Nat) (s : State) : State := sendOrDrop tyRep 0 status dev tag [] op s
/-! ## One fabric cycle (05 R199) -/

/-- The acquisitions of a hasp in the fabric cycle of now. -/
def recentOf (s : State) (h : Hasp) : List (ThreadRef × Nat × Option Nat) := if h.cycle = s.now / 8 then h.recent else []
/-- Note an acquisition. -/
def noteTaken (s : State) (t : ThreadRef) (dst : Option Nat) (h : Hasp) : Hasp :=
  { h with cycle := s.now / 8, recent := recentOf s h ++ [(t, ((threadOf s t).map (·.lastIssue)).getD 0, dst)] }
/-- A thread comes after another one: a higher logical core, or its higher thread slot. -/
def threadLater (a b : ThreadRef) : Bool := decide (b.core < a.core) || (a.core == b.core && decide (b.slot < a.slot))
/-- Join the parked acquirers in order of arrival: before those at the end that parked in this fabric cycle and come after it. -/
def joinParked (s : State) (t : ThreadRef) (h : Hasp) : Hasp :=
  let late := fun (w : Waiter) => match w with
    | .thread u => threadLater u t && ((threadOf s u).map (fun th => th.parkedAt / 8 == s.now / 8)).getD false
    | .peer .. => false
  let last := (h.parked.reverse.takeWhile late).reverse
  { h with parked := h.parked.take (h.parked.length - last.length) ++ .thread t :: last }
/-- The acquirer that a thread arriving in the same fabric cycle comes before, where it has not issued since: the last in order. -/
def outdone (s : State) (t : ThreadRef) (h : Hasp) : Option (ThreadRef × Nat × Option Nat) :=
  (recentOf s h).foldl (fun best r =>
    let may := threadLater r.1 t && ((threadOf s r.1).map (fun th => th.park == .running && th.lastIssue == r.2.1)).getD false
    if may && (match best with | none => true | some b => threadLater r.1 b.1) then some r else best) none
/-- An acquirer gives way: its HACQ parks instead, or its HTRY fails. -/
def giveWay (id : Nat) (r : ThreadRef × Nat × Option Nat) (s : State) : State :=
  let slot := (threadSlot s r.1).getD 0
  let s1 := modHasp id (fun h => haspGive slot { h with recent := h.recent.filter (· != r) }) s
  match r.2.2 with
  | some d => modThread r.1 (wrP d 0) s1
  | none =>
    modHasp id (joinParked s1 r.1) (modThread r.1 (fun th => { th with park := .hasp id, parkedAt := s.now }) s1)
/-- An HACQ or HTRY of a thread reaches a hasp: it acquires, at once or over a later acquirer of the same fabric cycle, or not. -/
def acquire (id : Nat) (t : ThreadRef) (slot : Nat) (dst : Option Nat) (s : State) : Option State :=
  let take := fun (s : State) => modHasp id (fun h => noteTaken s t dst (haspTake slot h)) s
  let h := tgetD s.hasps id {}
  if haspMay h slot then some (take s)
  else match outdone s t h with
    | none => none
    | some r =>
      let s1 := giveWay id r s
      if haspMay (tgetD s1.hasps id {}) slot then some (take s1) else none

/-- May a waiter acquire now? -/
def waiterMay (s : State) (h : Hasp) : Waiter → Bool
  | .thread t => ((threadSlot s t).map (haspMay h)).getD false
  | .peer dev ward slot _ _ _ => haspMayPeer h { dev := dev, ward := ward, slot := slot }
/-- Serve one waiter: it takes a count, and its thread runs again or its reply goes out. -/
def serveWaiter (id : Nat) (w : Waiter) (s : State) : State :=
  let s1 := modHasp id (fun h => { h with parked := h.parked.filter (· != w) }) s
  match w with
  | .thread t => modThread t (fun th => { th with park := .running }) (modHasp id (haspTake ((threadSlot s t).getD 0)) s1)
  | .peer dev ward slot tag op _ =>
    replyTo dev tag op 0 (modHasp id (haspTakePeer { dev := dev, ward := ward, slot := slot }) s1)
/-- Serve parked acquirers in order of arrival, each that may acquire (05 R202; log 6). -/
def haspServe (id : Nat) : Nat → State → State
  | 0, s => s
  | fuel + 1, s =>
    match tget s.hasps id with
    | none => s
    | some h =>
      match h.parked.find? (waiterMay s h) with
      | none => s
      | some w => haspServe id fuel (serveWaiter id w s)
/-- Drop a hasp that neither its owner nor a grantee has any more (10 R365). -/
def haspReap (id : Nat) (s : State) : State :=
  match tget s.hasps id with
  | some h => if h.owner = none ∧ h.grants = [] then { s with hasps := tdel s.hasps id } else s
  | none => s
/-- Serve a hasp whose count or holders changed: as many waiters as it has. -/
def haspSettle (id : Nat) (s : State) : State :=
  haspServe id (((tget s.hasps id).map (fun h => h.parked.length)).getD 0) s

/-! ## Teardown (10 R365; 12 R432) -/

/-- Withdraw what a context has parked on a hasp and what it holds; requests of peers parked on its own hasps get GONE. -/
def haspDropCtx (slot : Nat) (id : Nat) (s : State) : State :=
  match tget s.hasps id with
  | none => s
  | some h =>
    let owned := h.owner == some slot
    let gone := if owned then h.parked.filter (fun w => match w with | .peer .. => true | .thread _ => false) else []
    let s1 := gone.foldl (fun s w => match w with
      | .peer dev _ _ tag op _ => replyTo dev tag op 2 s
      | .thread _ => s) s
    let s2 := modHasp id (fun h =>
      let h1 := haspReturnAll slot
        { h with parked := h.parked.filter (fun w => !gone.contains w &&
                   (match w with | .thread t => threadSlot s t != some slot | .peer .. => true)) }
      { h1 with owner := if owned then none else h1.owner, grants := h1.grants.filter (fun g => g.1 != slot) }) s1
    haspReap id (haspSettle id s2)
/-- What a teardown does to every hasp. -/
def haspTeardown (slot : Nat) (s : State) : State := s.hasps.foldl (fun s x => haspDropCtx slot x.1 s) s
/-- A remote context is gone: its parked requests are withdrawn and its counts returned. -/
def haspDropPeer (p : Peer) (id : Nat) (s : State) : State :=
  haspSettle id (modHasp id (fun h =>
    haspReturnPeer p { h with
      inheritSent := h.inheritSent.filter (· != p)
      parked := h.parked.filter (fun w => match w with
        | .peer dev ward slot _ _ _ => decide ({ dev := dev, ward := ward, slot := slot } ≠ p)
        | .thread _ => true) }) s)

end Sys2Proof.Machine
end

