-- ==== Sys2Proof/Machine/Model.lean ====
section
/-!
DEFINITION. The Twiuf model image: its header, sections and records, and the checks of the Keeper at load in the order of
04 Table 4-6a.
-/
namespace Sys2Proof.Machine

/-! ## Header and records (04 Tables 4-1 to 4-10) -/

def imPyramid (b : Bytes) : Nat := fld b 56 1
def imMargin (b : Bytes) : Nat := fld b 57 1
def imRayBudget (b : Bytes) : Nat := fld b 58 2
/-- The C_k entry of a row of the rung table (04 R141). -/
def imCost (b : Bytes) (row k : Nat) : Nat := fld (imgBytes b 0x01) (16 * row + 4 * k) 4
/-- Records of a section. -/
def imCount (b : Bytes) (ty : Nat) : Nat := match imgSection b ty with | some (_, _, n) => n | none => 0
/-- Does the image have a section? -/
def imHas (b : Bytes) (ty : Nat) : Bool := (imgSection b ty).isSome

/-- A network record (04 Table 4-4). -/
structure Net where
  role : Nat := 0
  rung : Nat := 0
  first : Nat := 0
  count : Nat := 0
  store : Nat := 0
  deriving DecidableEq, Repr
def netAt (sec : Bytes) (k : Nat) : Net :=
  let o := 16 * k
  { role := fld sec o 1, rung := fld sec (o + 1) 1 % 4, first := fld sec (o + 4) 4, count := fld sec (o + 8) 4, store := fld sec (o + 12) 4 }
def netsOf (b : Bytes) : List Net := let sec := imgBytes b 0x02; (List.range (imCount b 0x02)).map (netAt sec)
def netSynth (n : Net) : Bool := decide (n.role ≤ 2)

/-- A tensor descriptor (04 Table 4-6). -/
structure Tensor where
  fmt : Nat := 0
  src : Nat := 0
  satOff : Bool := false
  delayed : Bool := false
  perCh : Bool := false
  const : Bool := false
  tag : Nat := 0
  w : Nat := 0
  h : Nat := 0
  c : Nat := 0
  q : Nat := 0
  dataOff : Nat := 0
  scaleOff : Nat := 0
  dataBytes : Nat := 0
  deriving DecidableEq, Repr
def tensorAt (sec : Bytes) (k : Nat) : Tensor :=
  let o := 64 * k
  let fl := fld sec (o + 2) 1
  { fmt := fld sec o 1, src := fld sec (o + 1) 1, satOff := fl.testBit 0, delayed := fl.testBit 1, perCh := fl.testBit 2,
    const := fl.testBit 3, tag := fld sec (o + 4) 2, w := fld sec (o + 8) 2, h := fld sec (o + 10) 2, c := fld sec (o + 12) 2,
    q := fld sec (o + 16) 4, dataOff := fld sec (o + 20) 4, scaleOff := fld sec (o + 24) 4, dataBytes := fld sec (o + 28) 4 }
/-- No operand. -/
def noIndex : Nat := 0xFFFFFFFF

/-- A layer descriptor (04 Table 4-10). -/
structure Layer where
  op : Nat := 0
  act : Nat := 0
  axis : Nat := 0
  adapter : Bool := false
  fpBias : Bool := false
  in0 : Nat := 0
  in1 : Nat := 0
  in2 : Nat := 0
  out : Nat := 0
  epi : Nat := 0
  stripe : Nat := 0
  lut : Nat := 0
  actParam : Nat := 0
  /-- PARAMS: the last 64 bytes. -/
  par : Bytes := []
  deriving DecidableEq, Repr
def layerAt (sec : Bytes) (k : Nat) : Layer :=
  let o := 128 * k
  let fl := fld sec (o + 2) 1
  { op := fld sec o 1, act := fld sec (o + 1) 1, axis := fl % 4, adapter := fl.testBit 2, fpBias := fl.testBit 3,
    in0 := fld sec (o + 4) 4, in1 := fld sec (o + 8) 4, in2 := fld sec (o + 12) 4, out := fld sec (o + 16) 4,
    epi := fld sec (o + 20) 4, stripe := fld sec (o + 24) 2, lut := fld sec (o + 26) 2, actParam := fld sec (o + 28) 4,
    par := slice sec (o + 64) 64 }
/-- The layers of an image. -/
def layersOf (b : Bytes) : List Layer := let sec := imgBytes b 0x03; (List.range (imCount b 0x03)).map (layerAt sec)
/-- The tensors of an image. -/
def tensorsOf (b : Bytes) : List Tensor := let sec := imgBytes b 0x04; (List.range (imCount b 0x04)).map (tensorAt sec)
/-- Tensor i, or an empty descriptor. -/
def tn (ts : List Tensor) (i : Nat) : Tensor := ts.getD i {}

def pKH (l : Layer) : Nat := fld l.par 0 1
def pKW (l : Layer) : Nat := fld l.par 1 1
def pSY (l : Layer) : Nat := fld l.par 2 1
def pSX (l : Layer) : Nat := fld l.par 3 1
def pDY (l : Layer) : Nat := fld l.par 4 1
def pDX (l : Layer) : Nat := fld l.par 5 1
def pPT (l : Layer) : Nat := fld l.par 6 1
def pPB (l : Layer) : Nat := fld l.par 7 1
def pPL (l : Layer) : Nat := fld l.par 8 1
def pPR (l : Layer) : Nat := fld l.par 9 1
def pGroups (l : Layer) : Nat := fld l.par 10 2
def pCountPad (l : Layer) : Bool := (fld l.par 12 1).testBit 0
def pFilter (l : Layer) : Nat := fld l.par 0 1
def pEdge (l : Layer) : Bool := (fld l.par 1 1).testBit 0
/-- The FP32 at bits [575:544]: WARP_SCALE, EPS, VAR_Y, IOU_THR. -/
def pF (l : Layer) : Nat := fld l.par 4 4
def pBlock (l : Layer) : Nat := fld l.par 0 1
def pMode (l : Layer) : Nat := fld l.par 0 1
def pNormGroups (l : Layer) : Nat := fld l.par 1 2
def pOp (l : Layer) : Nat := fld l.par 0 1
def pClasses (l : Layer) : Nat := fld l.par 0 1
/-- FP32 word j of a BOX_DECODE block from VAR_Y: VAR_Y, VAR_X, VAR_H, VAR_W, SCORE_THR, CLIP_W, CLIP_H. -/
def pBox (l : Layer) (j : Nat) : Nat := fld l.par (4 + 4 * j) 4
def pMaxCand (l : Layer) : Nat := fld l.par 0 2
def pMaxOut (l : Layer) : Nat := fld l.par 2 2 % 512
def pAgnostic (l : Layer) : Bool := (fld l.par 3 1).testBit 1
def pKernel (l : Layer) : Nat := fld l.par 0 4

/-- An EPILOGUE entry (04 Table 4-12). -/
structure Epi where
  colSum : Nat := 0
  mul : Nat := 0
  shift : Nat := 0
  bias : Nat := 0
  sc : Nat := 0
  gamma : Nat := 0
  beta : Nat := 0
  deriving DecidableEq, Repr
def epiAt (sec : Bytes) (k : Nat) : Epi :=
  let o := 32 * k
  { colSum := fld sec o 4, mul := fld sec (o + 4) 4, shift := fld sec (o + 8) 1, bias := fld sec (o + 16) 4,
    sc := fld sec (o + 20) 4, gamma := fld sec (o + 24) 4, beta := fld sec (o + 28) 4 }
/-- A QPARAMS entry (04 Table 4-9): scale, zero point, reciprocal. -/
structure QPar where
  scale : Nat := 0
  zero : Int := 0
  recip : Nat := 0
  deriving DecidableEq, Repr
def qparAt (sec : Bytes) (k : Nat) : QPar :=
  { scale := fld sec (16 * k) 4, zero := sext 32 (fld sec (16 * k + 4) 4), recip := fld sec (16 * k + 8) 4 }

/-! ## Formats (04 Table 4-7) -/

def isInt (f : Nat) : Bool := decide (1 ≤ f) && decide (f ≤ 4)
/-- The integer formats with S32 (03 Table 3-1). -/
def isIntS (f : Nat) : Bool := isInt f || f == 0x0A
def isBlock (f : Nat) : Bool := decide (0x0B ≤ f) && decide (f ≤ 0x0E)
def isFloat (f : Nat) : Bool := decide (5 ≤ f) && decide (f ≤ 9)
def isFp8 (f : Nat) : Bool := f == 5 || f == 6
/-- Bits of an element. -/
def fmtBits (f : Nat) : Nat :=
  if f = 3 ∨ f = 4 ∨ f = 0x0E then 4 else if f = 7 ∨ f = 8 then 16 else if f = 9 ∨ f = 0x0A then 32 else 8
/-- The element type of a block-scaled format, as 03 R104 numbers it here. -/
def blockTy (f : Nat) : Nat := f - 0x0B
/-- Blocks of a tensor (03 R104). -/
def blocksOf (t : Tensor) : Nat := t.h * t.w * cdiv t.c 32
/-- Bytes of a tensor's data stream (03 R100, R105). -/
def tensorBytes (t : Tensor) : Nat :=
  if isBlock t.fmt then cdiv (blocksOf t) 16 * (if t.fmt = 0x0E then 320 else 576)
  else if fmtBits t.fmt = 4 then t.h * t.w * cdiv t.c 2
  else t.h * t.w * t.c * (fmtBits t.fmt / 8)
/-- Bytes of a tensor's scale stream: whole segments of 16 entries (03 R105). -/
def scaleBytes (t : Tensor) : Nat := if isBlock t.fmt then 64 * cdiv (blocksOf t) 16 else 0
/-- The code range of an integer format. -/
def codeRange (f : Nat) : Int × Int :=
  if f = 1 then (0, 255) else if f = 2 then (-128, 127) else if f = 3 then (0, 15)
  else if f = 0x0A then (-2147483648, 2147483647) else (-8, 7)
/-- The value of an integer code. -/
def codeVal (f x : Nat) : Int := if f = 2 then sext 8 x else if f = 4 then sext 4 x else if f = 0x0A then sext 32 x else x
/-- The QPARAMS entry of index n of a tensor's channel axis: scale 1 and zero point 0 without one (03 R101, R103). -/
def qOf (qp : Bytes) (t : Tensor) (n : Nat) : QPar :=
  if t.q = noIndex then { scale := 0x3F800000, zero := 0, recip := 0x3F800000 } else qparAt qp (t.q + (if t.perCh then n else 0))
/-- Tensor i holds the weights of a CONV2D or MATMUL: its channel axis is W (04 R145). -/
def isWeight (ls : List Layer) (i : Nat) : Bool := ls.any (fun l => (l.op == 1 || l.op == 2) && l.in1 == i)
/-- Entries that tensor i has in QPARAMS: one, or one per index of its channel axis (03 R101; 04 R145). -/
def qCount (ls : List Layer) (i : Nat) (t : Tensor) : Nat := if t.perCh then (if isWeight ls i then t.w else t.c) else 1
/-- Two tensors share format, scale and zero point, channel by channel, each index taken modulo the tensor's channels
(04 R170, R173, R177); a delayed tensor shares them with none. -/
def sameQuant (qp : Bytes) (a b : Tensor) (n : Nat) : Bool :=
  a.fmt == b.fmt && !a.delayed && !b.delayed && (List.range n).all (fun k =>
    (qOf qp a (k % max 1 a.c)).scale == (qOf qp b (k % max 1 b.c)).scale && (qOf qp a (k % max 1 a.c)).zero == (qOf qp b (k % max 1 b.c)).zero)

/-! ## The checks (04 Table 4-6a): each gives the failing index -/

/-- The rung-3 costs of a row (01 Table 1-4). -/
def rung3Cost (row : Nat) : Nat := [4096, 8192, 6144].getD row 0
/-- 0x01 HEADER. -/
def badHeader (b : Bytes) (len : Nat) : Option Nat :=
  if fld b 0 4 = 0x494D5754 ∧ fld b 4 1 = 1 ∧ 6 ≤ fld b 5 1 ∧ fld b 5 1 ≤ 10 ∧ fld b 6 2 = 0 ∧ fld b 8 4 = len ∧ 4096 ≤ len
      ∧ len ≤ 2 ^ 31 ∧ fld b 12 4 = 0 ∧ imPyramid b ≤ 7 ∧ imMargin b ≤ 64 ∧ imRayBudget b ≤ 4096 ∧ allZero (slice b 60 68) then none
  else some noIndex
/-- 0x02 DIGEST. -/
def badDigest (b : Bytes) : Option Nat :=
  if sha256 (patch b 16 (List.replicate 32 0)) = slice b 16 32 then none else some noIndex
/-- Record size of a section type; 0 for byte streams. -/
def recSize (ty : Nat) : Nat := [0, 48, 16, 128, 64, 16, 32, 0, 256, 0, 0].getD ty 0
/-- 0x03 SECTION: a required type that is missing is reported with 0xFFFF_FFFF (DESIGN CHOICE, log 59). -/
def badSection (b : Bytes) : Option Nat :=
  let n := fld b 5 1
  let ent := fun k => (fld b (128 + 16 * k) 1, fld b (128 + 16 * k + 4) 4, fld b (128 + 16 * k + 8) 4, fld b (128 + 16 * k + 12) 4)
  let ok := fun k =>
    let (ty, off, l, cnt) := ent k
    decide (1 ≤ ty) && decide (ty ≤ 10) && fld b (128 + 16 * k + 1) 3 == 0 && off % 64 == 0
      && decide (128 + 16 * n ≤ off) && decide (off + l ≤ fld b 8 4)
      && (if recSize ty = 0 then cnt == 0 else l == cnt * recSize ty) && (ty != 1 || cnt == 1)
      && (List.range k).all (fun j => (ent j).1 != ty && (decide (off + l ≤ (ent j).2.1) || decide ((ent j).2.1 + (ent j).2.2.1 ≤ off)))
  ((List.range n).find? (fun k => !ok k)).orElse
    (fun _ => if (List.range 6).all (fun t => imHas b (t + 1)) then none else some noIndex)
/-- The directory index of the rung table. -/
def rungSection (b : Bytes) : Nat := ((List.range (fld b 5 1)).find? (fun k => fld b (128 + 16 * k) 1 == 1)).getD 0
/-- 0x04 RUNG_ORDER. -/
def badRungOrder (b : Bytes) : Option Nat :=
  if (List.range 3).all (fun r => (List.range 3).all (fun k => decide (imCost b r (k + 1) ≤ imCost b r k))) then none else some (rungSection b)
/-- 0x05 RUNG3_COST. -/
def badRung3 (b : Bytes) : Option Nat :=
  if (List.range 3).all (fun r => imCost b r 3 == rung3Cost r) then none else some (rungSection b)
/-- 0x06 NETWORK. -/
def badNetwork (b : Bytes) : Option Nat :=
  let ns := netsOf b
  let nl := imCount b 0x03
  let ok := fun k =>
    let n := ns.getD k {}
    let prev := ns.take k
    decide (n.role ≤ 4) && decide (n.rung ≤ 2) && (netSynth n || n.rung == 0)
      && (if netSynth n then decide (4096 ≤ n.store) && decide (n.store ≤ 196608) && n.store % 64 == 0 else n.store == 0)
      && decide (1 ≤ n.count) && decide (n.count ≤ 65536) && decide (n.first + n.count ≤ nl)
      && prev.all (fun m => (decide (n.first + n.count ≤ m.first) || decide (m.first + m.count ≤ n.first))
          && !(m.role == n.role && n.role != 4 && (m.rung == n.rung)))
      && (n.role != 4 || decide ((prev.filter (fun m => m.role == 4)).length < 64))
  let have_ := fun role rung => ns.any (fun n => n.role == role && n.rung == rung)
  ((List.range ns.length).find? (fun k => !ok k)).orElse (fun _ =>
    if !((List.range 3).all (fun role => (List.range 3).all (fun r => have_ role r))) then some noIndex
    else (List.range nl).find? (fun l => !ns.any (fun n => decide (n.first ≤ l) && decide (l < n.first + n.count))))
/-- The PARAMS bits that Table 4-14 assigns to an opcode, numbered from bit 512. -/
def paramMask (op : Nat) : Nat :=
  if op = 0x01 then 2 ^ 96 - 1
  else if op = 0x03 ∨ op = 0x04 then 2 ^ 80 - 1 + (if op = 0x04 then 2 ^ 96 else 0)
  else if op = 0x05 then 0xFF
  else if op = 0x06 then 0xFF + 2 ^ 8 + (2 ^ 64 - 2 ^ 32)
  else if op = 0x07 ∨ op = 0x08 then 0xFF
  else if op = 0x09 then 2 ^ 24 - 1 + (2 ^ 64 - 2 ^ 32)
  else if op = 0x0A then 0xFF
  else if op = 0x0D then 0xFF + (2 ^ 256 - 2 ^ 32)
  else if op = 0x0E then 2 ^ 26 - 1 + (2 ^ 64 - 2 ^ 32)
  else if op = 0x0F then 2 ^ 512 - 1
  else 0
/-- 0x07 RESERVED: networks, layers, tensors, QPARAMS and EPILOGUE in that order. -/
def badReserved (b : Bytes) : Option Nat :=
  let ne := imgBytes b 0x02; let ly := imgBytes b 0x03; let tt := imgBytes b 0x04; let qp := imgBytes b 0x05; let ep := imgBytes b 0x06
  let find := fun ty (bad : Nat → Bool) => (List.range (imCount b ty)).find? bad
  (find 0x02 (fun k => !subMask (fld ne (16 * k + 1) 3) 3)).orElse fun _ =>
  (find 0x03 (fun k => !subMask (fld ly (128 * k + 2) 2) 0xF || fld ly (128 * k + 2) 1 % 4 != 0 || !allZero (slice ly (128 * k + 32) 32)
      || !subMask (leNat (slice ly (128 * k + 64) 64)) (paramMask (fld ly (128 * k) 1)))).orElse fun _ =>
  (find 0x04 (fun k => !subMask (fld tt (64 * k + 2) 2) 0xF || fld tt (64 * k + 6) 2 != 0 || fld tt (64 * k + 14) 2 != 0
      || !allZero (slice tt (64 * k + 32) 32))).orElse fun _ =>
  (find 0x05 (fun k => fld qp (16 * k + 12) 4 != 0)).orElse fun _ =>
  (find 0x06 (fun k => fld ep (32 * k + 9) 7 != 0))
/-- Format and channels of a source (04 Table 4-8): none for an undefined code; 0 stands for any. -/
def sourceSpec (s : Nat) : Option (Nat × Nat) :=
  if s = 0 then some (0, 0) else if s = 1 then some (8, 4) else if s = 2 then some (9, 1) else if s = 3 then some (8, 2)
  else if s = 4 then some (8, 3) else if s = 5 then some (10, 1) else if s = 6 then some (9, 1)
  else if 0x11 ≤ s ∧ s ≤ 0x17 then some (8, 4) else if 0x19 ≤ s ∧ s ≤ 0x1F then some (9, 1)
  else if s = 0x20 then some (8, 4) else if s = 0x21 then some (9, 1) else if s = 0x22 then some (10, 1) else if s = 0x23 then some (8, 2)
  else if s = 0x24 then some (8, 3) else if s = 0x25 then some (8, 1) else if s = 0x26 then some (8, 8) else if s = 0x27 then some (9, 1)
  else if s = 0x30 then some (8, 0) else if s = 0x31 ∨ s = 0x40 ∨ s = 0x41 then some (0, 0) else none
/-- Is the source one that a layer writes? -/
def outSource (s : Nat) : Bool := s == 0x30 || s == 0x31 || s == 0x41
/-- 0x08 FORMAT. -/
def badFormat (ts : List Tensor) : Option Nat :=
  ts.findIdx? (fun t => !(decide (1 ≤ t.fmt) && decide (t.fmt ≤ 0x0E) &&
    (match sourceSpec t.src with | some (f, _) => f == 0 || f == t.fmt | none => false)))
/-- 0x09 TENSOR_SHAPE. -/
def badShape (b : Bytes) (ts : List Tensor) (ls : List Layer) : Option Nat :=
  let wl := (imgBytes b 0x07).length
  let nq := imCount b 0x05
  (List.range ts.length).find? (fun i =>
    let t := tn ts i
    let srcOk := match sourceSpec t.src with
      | some (_, c) => (c == 0 || c == t.c) && (t.src != 0x30 || t.c == 3 || t.c == 4) && ((t.src != 6 && t.src != 0x27) || (t.w == 1 && t.h == 1))
      | none => true
    let scaleLen := if isBlock t.fmt then 4 * blocksOf t else 0
    !(decide (1 ≤ t.w) && decide (1 ≤ t.h) && decide (t.h ≤ 8192) && decide (1 ≤ t.c) && decide (t.h * t.w * t.c ≤ 2 ^ 31) && srcOk
      && (t.q == noIndex && !isInt t.fmt || decide (t.q + qCount ls i t ≤ nq) || (t.q == noIndex && t.delayed))
      && (isBlock t.fmt || t.tag == 0) && (!t.delayed || isFp8 t.fmt) && (!t.const || t.src == 0)
      && (if t.const then t.dataOff % 64 == 0 && t.dataBytes == tensorBytes t && decide (t.dataOff + t.dataBytes ≤ wl)
            && (if isBlock t.fmt then t.scaleOff % 64 == 0 && decide (t.scaleOff + scaleLen ≤ wl) else t.scaleOff == 0)
          else t.dataOff == 0 && t.scaleOff == 0 && t.dataBytes == 0)))
/-- 0x0A OPCODE. -/
def badOpcode (ts : List Tensor) (ls : List Layer) : Option Nat :=
  ls.findIdx? (fun l =>
    let f := (tn ts l.out).fmt
    !(decide (1 ≤ l.op) && decide (l.op ≤ 0x10) && decide (l.act ≤ 8)
      && (if isIntS f then l.act == 0 || l.act == 1 || l.act == 2 || (l.act == 8 && (f == 1 || f == 2)) else l.act != 8)))
/-- Output extent of a window along one axis (04 R164). -/
def outExtent (n k s d p0 p1 : Nat) : Nat := (n + p0 + p1 - d * (k - 1) - 1) / s + 1
/-- The reduction length K of a CONV2D or MATMUL layer. -/
def redLen (ts : List Tensor) (l : Layer) : Nat :=
  if l.op = 2 then (tn ts l.in0).c else pKH l * pKW l * ((tn ts l.in0).c / max 1 (pGroups l))
/-- The network of a layer index is in frame scope. -/
def frameScope (ns : List Net) (i : Nat) : Bool := ns.any (fun n => decide (n.first ≤ i) && decide (i < n.first + n.count) && decide (3 ≤ n.role))
/-- Does a layer's epilogue serve each channel with its own entry (04 R151)? -/
def epiPerCh (ts : List Tensor) (l : Layer) : Bool := ((l.op == 1 || l.op == 2) && (tn ts l.in1).perCh) || (tn ts l.out).perCh
/-- The epilogue entry index of output channel n. -/
def epiIndex (ts : List Tensor) (l : Layer) (n : Nat) : Nat := if epiPerCh ts l then l.epi + n else l.epi
/-- Does a layer use its epilogue entries (04 Table 4-11)? -/
def usesEpi (ts : List Tensor) (l : Layer) : Bool := l.op == 1 || l.op == 2 || l.op == 9 || (l.op == 4 && isIntS (tn ts l.in0).fmt)
/-- Epilogue entries of a layer. -/
def epiCount (ts : List Tensor) (l : Layer) : Nat := if epiPerCh ts l then (tn ts l.out).c else 1
/-- The operands of a layer: those of Table 4-11 name tensors, and the others are 0xFFFF_FFFF; a CUSTOM layer's may be either
(04 R149). -/
def operandsOk (ts : List Tensor) (l : Layer) : Bool :=
  let use := fun k => decide (k < ts.length)
  let may := fun k => use k || k == noIndex
  use l.out &&
    (if l.op = 15 then may l.in0 && may l.in1 && may l.in2
     else use l.in0 && (if [1, 2, 6, 10, 11, 13].contains l.op then use l.in1 else l.in1 == noIndex)
      && (if l.op = 13 then use l.in2 else l.in2 == noIndex))
/-- EPILOGUE_INDEX names the layer's entries, or is 0xFFFF_FFFF where the operator uses none (04 Table 4-10, R151). -/
def epiOk (b : Bytes) (ts : List Tensor) (l : Layer) : Bool :=
  if usesEpi ts l then decide (l.epi + epiCount ts l ≤ imCount b 0x06)
  else l.epi == noIndex || (l.op == 15 && decide (l.epi < imCount b 0x06))
/-- The format limits of Table 4-15 but for the operand pairs of products, and the quantisation that a copying operator carries
over (04 R170, R173). -/
def formatsOk (b : Bytes) (ts : List Tensor) (ls : List Layer) (l : Layer) : Bool :=
  let x := tn ts l.in0; let y := tn ts l.in1; let z := tn ts l.out
  let plain := fun (t : Tensor) => !isBlock t.fmt
  let keeps := sameQuant (imgBytes b 0x05) x z (max x.c z.c) || (x.fmt == z.fmt && x.delayed && z.delayed)
  if l.op = 3 then plain x && keeps
  else if l.op = 4 then isIntS x.fmt || x.fmt == 7 || x.fmt == 8 || x.fmt == 9
  else if l.op = 5 ∨ l.op = 9 then plain x
  else if l.op = 6 then plain x && (y.fmt == 8 || y.fmt == 9)
  else if l.op = 7 ∨ l.op = 8 then keeps
  else if l.op = 13 then plain x && plain y && (tn ts l.in2).fmt == 9
  else if l.op = 14 then plain z && ls.any (fun m => m.op == 13 && m.out == l.in0)
  else if l.op = 16 then x.fmt == 8 || x.fmt == 9
  else true
/-- Operator limits and shapes of one layer (04 Table 4-15, R164–R178). A format that Table 4-15 does not list is outside it,
and only the operand pairs of products are left to OPERAND_PAIR; K is left to REDUCTION_LENGTH (DESIGN CHOICE, log 60). -/
def layerParamOk (b : Bytes) (ns : List Net) (ts : List Tensor) (ls : List Layer) (i : Nat) : Bool :=
  let l := ls.getD i {}
  let x := tn ts l.in0; let y := tn ts l.in1; let z := tn ts l.out
  let frame := frameScope ns i
  let winOk := decide (1 ≤ pKH l) && decide (pKH l ≤ 15) && decide (1 ≤ pKW l) && decide (pKW l ≤ 15)
  let geo := decide (pDY l * (pKH l - 1) + 1 ≤ x.h + pPT l + pPB l) && decide (pDX l * (pKW l - 1) + 1 ≤ x.w + pPL l + pPR l)
    && (!frame || z.h == outExtent x.h (pKH l) (pSY l) (pDY l) (pPT l) (pPB l) && z.w == outExtent x.w (pKW l) (pSX l) (pDX l) (pPL l) (pPR l))
  let pool := winOk && decide (1 ≤ pSY l) && decide (pSY l ≤ 15) && decide (1 ≤ pSX l) && decide (pSX l ≤ 15) && pDY l == 1 && pDX l == 1
    && decide (pPT l < pKH l) && decide (pPB l < pKH l) && decide (pPL l < pKW l) && decide (pPR l < pKW l) && x.c == z.c && geo
  let lim8 := fun a c => decide (c * 8 ≥ a) && decide (c ≤ 8 * a)
  operandsOk ts l && epiOk b ts l && formatsOk b ts ls l
    && (if frame then decide (1 ≤ l.stripe) && decide (l.stripe ≤ 8192) else l.stripe == 0)
    && (if l.act = 8 then decide (l.lut < imCount b 0x08) else l.lut == 0)
    && (if l.op = 1 then winOk && decide (1 ≤ pSY l) && decide (pSY l ≤ 8) && decide (1 ≤ pSX l) && decide (pSX l ≤ 8)
          && decide (1 ≤ pDY l) && decide (1 ≤ pDX l) && decide (1 ≤ pGroups l) && x.c % max 1 (pGroups l) == 0 && z.c % max 1 (pGroups l) == 0
          && (!isBlock x.fmt || x.c / max 1 (pGroups l) % 32 == 0) && y.h == 1 && y.w == z.c && y.c == redLen ts l && geo
        else if l.op = 2 then y.h == 1 && y.w == z.c && y.c == x.c && z.h == x.h && z.w == x.w
        else if l.op = 3 then pool && pGroups l == 0
        else if l.op = 4 then pool && pGroups l == 0 && (!isIntS x.fmt || pCountPad l)
        else if l.op = 5 then decide (pFilter l ≤ 2) && lim8 x.h z.h && lim8 x.w z.w && x.c == z.c
        else if l.op = 6 then (pFilter l == 1 || pFilter l == 2) && isFin32 (pF l) && y.c == 2 && y.h == x.h && y.w == x.w
          && z.h == x.h && z.w == x.w && z.c == x.c
        else if l.op = 7 then decide (2 ≤ pBlock l) && decide (pBlock l ≤ 4) && x.c == pBlock l * pBlock l * z.c && z.h == x.h * pBlock l && z.w == x.w * pBlock l
          && (!isBlock x.fmt || z.c % 32 == 0)
        else if l.op = 8 then decide (2 ≤ pBlock l) && decide (pBlock l ≤ 4) && z.c == pBlock l * pBlock l * x.c && x.h == z.h * pBlock l && x.w == z.w * pBlock l
          && (!isBlock x.fmt || x.c % 32 == 0)
        else if l.op = 9 then decide (pMode l ≤ 2) && (!frame || pMode l == 0) && (pMode l == 2 || pNormGroups l == 0)
          && (pMode l != 2 || (decide (1 ≤ pNormGroups l) && x.c % max 1 (pNormGroups l) == 0)) && le32 0x33800000 (pF l)
          && decide ((if pMode l = 0 then x.c else if pMode l = 1 then x.h * x.w else x.h * x.w * x.c / max 1 (pNormGroups l)) ≤ 2 ^ 24)
          && z.h == x.h && z.w == x.w && z.c == x.c
        else if l.op = 10 then decide (pOp l ≤ 4) && y.c == x.c && ((y.h == x.h && y.w == x.w) || (y.h == 1 && y.w == 1))
          && z.h == x.h && z.w == x.w && z.c == x.c
        else if l.op = 11 then y.h == x.h && y.w == x.w && z.h == x.h && z.w == x.w && z.c == x.c + y.c
        else if l.op = 12 then z.h == x.h && z.w == x.w && z.c == x.c
        else if l.op = 13 then decide (1 ≤ pClasses l) && decide (pClasses l ≤ 16) && y.c == pClasses l && x.c == 4
          && (tn ts l.in2).c == 4 && decide (x.h * x.w ≤ 65536) && y.h * y.w == x.h * x.w && (tn ts l.in2).h * (tn ts l.in2).w == x.h * x.w
        else if l.op = 14 then decide (1 ≤ pMaxCand l) && decide (pMaxCand l ≤ 16384) && decide (1 ≤ pMaxOut l) && decide (pMaxOut l ≤ 256)
          && le32 0 (pF l) && le32 (pF l) one32 && tensorBytes z == 32 * (pMaxOut l + 1)
        else if l.op = 16 then z.h == cdiv x.h 2 && z.w == cdiv x.w 2 && z.c == x.c
        else true)
/-- 0x0B PARAMETER. -/
def badParameter (b : Bytes) (ns : List Net) (ts : List Tensor) (ls : List Layer) : Option Nat :=
  (List.range ls.length).find? (fun i => !layerParamOk b ns ts ls i)
/-- The tensors a layer reads. -/
def layerReads (l : Layer) : List Nat := ([l.in0, l.in1, l.in2]).filter (· != noIndex)
/-- A tensor that no layer writes: neither constant nor bound to the frame path, or an output source (04 R146, R152). -/
def unwritten (ts : List Tensor) (ls : List Layer) : Option Nat :=
  (List.range ts.length).find? (fun i =>
    let t := tn ts i
    !t.const && (t.src == 0 || outSource t.src) && !ls.any (fun l => l.out == i))
/-- 0x0C ORDER (04 R152, R147): the layer, or the tensor that no layer writes. -/
def badOrder (ns : List Net) (ts : List Tensor) (ls : List Layer) : Option Nat :=
  let netOf := fun i => (ns.findIdx? (fun n => decide (n.first ≤ i) && decide (i < n.first + n.count))).getD 0
  ((List.range ls.length).find? (fun i =>
    let l := ls.getD i {}
    let n := ns.getD (netOf i) {}
    let earlier := (List.range (i - n.first)).map (fun j => ls.getD (n.first + j) {})
    let readable := fun t => (tn ts t).const || ((tn ts t).src != 0 && !outSource (tn ts t).src) || earlier.any (fun e => e.out == t)
    let alone := fun t => (List.range ls.length).all (fun j => netOf j == netOf i || !((layerReads (ls.getD j {})).contains t || (ls.getD j {}).out == t))
    !((layerReads l).all readable && !(tn ts l.out).const && ((tn ts l.out).src == 0 || outSource (tn ts l.out).src)
      && (List.range ls.length).all (fun j => j == i || (ls.getD j {}).out != l.out)
      && ((layerReads l).filter (fun t => !(tn ts t).const && (tn ts t).src == 0)).all alone
      && ((tn ts l.out).src != 0x30 || (netSynth n && !earlier.any (fun e => (tn ts e.out).src == 0x30)))
      && ((tn ts l.out).src != 0x31 || (n.role == 3 && l.op == 14 && !earlier.any (fun e => (tn ts e.out).src == 0x31)))
      && (i + 1 != n.first + n.count ||
          (if netSynth n then (tn ts l.out).src == 0x30 || earlier.any (fun e => (tn ts e.out).src == 0x30)
           else n.role != 3 || (tn ts l.out).src == 0x31 || earlier.any (fun e => (tn ts e.out).src == 0x31)))))).orElse
    (fun _ => unwritten ts ls)
/-- A block-scaled pair that 03 R119 permits. -/
def blockPairOk (a c : Nat) : Bool :=
  let int := fun x => x == 0x0B || x == 0x0E
  let fp := fun x => x == 0x0C || x == 0x0D
  (int a && int c) || (fp a && fp c)
/-- 0x0D OPERAND_PAIR. -/
def badPair (ts : List Tensor) (ls : List Layer) : Option Nat :=
  ls.findIdx? (fun l =>
    let x := (tn ts l.in0).fmt; let y := (tn ts l.in1).fmt
    (l.op == 1 || l.op == 2) && !(tmmPairOk x y && decide (x ≤ 8) && decide (y ≤ 8) || blockPairOk x y))
/-- 0x0E QPARAM_AXIS (03 R102). -/
def badAxis (ts : List Tensor) (ls : List Layer) : Option Nat :=
  ls.findIdx? (fun l => (l.op == 1 || l.op == 2) && (tn ts l.in0).perCh)
/-- 0x0F REDUCTION_LENGTH (03 R110). -/
def badReduction (ts : List Tensor) (ls : List Layer) : Option Nat :=
  ls.findIdx? (fun l => (l.op == 1 || l.op == 2) && decide (32768 < redLen ts l))
/-- One element of a stream as its code. -/
def codeAt (f : Nat) (row : Bytes) (i : Nat) : Nat :=
  let w := fmtBits f
  if w = 4 then field (row.getD (i / 2) 0).toNat (4 * (i % 2) + 3) (4 * (i % 2)) else fld row (i * (w / 8)) (w / 8)
/-- The bytes of position p (of H × W) of a plain tensor's data stream. -/
def rowBytes (t : Tensor) (data : Bytes) (p : Nat) : Bytes :=
  let n := if fmtBits t.fmt = 4 then cdiv t.c 2 else t.c * (fmtBits t.fmt / 8)
  slice data (p * n) n
/-- A code of a floating-point format is finite. -/
def codeFinite (f x : Nat) : Bool := match fmtOf f with | some g => fisFin g x | none => true
/-- A constant tensor, or its scales, holds a value that is not finite. -/
def constNotFinite (b : Bytes) (t : Tensor) : Bool :=
  t.const && (isFloat t.fmt || isBlock t.fmt) &&
    (let data := slice (imgBytes b 0x07) t.dataOff t.dataBytes
     if isFloat t.fmt then
       (List.range (t.h * t.w)).any (fun p => let r := rowBytes t data p; (List.range t.c).any (fun i => !codeFinite t.fmt (codeAt t.fmt r i)))
     else (List.range (blocksOf t)).any (fun j =>
       let f := if t.fmt = 0x0C then 5 else 6
       fld (imgBytes b 0x07) (t.scaleOff + 4 * j) 1 == 0xFF || (t.fmt == 0x0C || t.fmt == 0x0D) &&
       (List.range 32).any (fun i => !codeFinite f (fld data (576 * (j / 16) + 32 * (j % 16) + i) 1))))
/-- A QPARAMS entry obeys 03 R101: its scale is positive and finite, and its zero point lies within the code range, zero for
floating-point formats (04 Table 4-9). -/
def qparBad (f : Nat) (q : QPar) : Bool :=
  !isFin32 q.scale || !lt32 0 q.scale ||
    (if isIntS f then decide (q.zero < (codeRange f).1) || decide ((codeRange f).2 < q.zero) else q.zero != 0)
/-- 0x10 WEIGHT_VALUE: tensors, then the layers' epilogue values and parameters. A zero point outside its range is reported here
too (DESIGN CHOICE, log 60). -/
def badWeight (b : Bytes) (ts : List Tensor) (ls : List Layer) : Option Nat :=
  let qp := imgBytes b 0x05; let ep := imgBytes b 0x06
  ((List.range ts.length).find? (fun i =>
    let t := tn ts i
    constNotFinite b t || (t.q != noIndex && !t.delayed && (List.range (qCount ls i t)).any (fun k => qparBad t.fmt (qparAt qp (t.q + k)))))).orElse
  (fun _ => ls.findIdx? (fun l => !isFin32 l.actParam || (usesEpi ts l &&
      (List.range (epiCount ts l)).any (fun n =>
        let e := epiAt ep (l.epi + n)
        !isFin32 e.sc || !isFin32 e.gamma || !isFin32 e.beta || (l.fpBias && !isFin32 e.bias)))))
/-- 0x11 COLUMN_SUM (03 R112). -/
def badColumn (b : Bytes) (ts : List Tensor) (ls : List Layer) : Option Nat :=
  let ep := imgBytes b 0x06; let ws := imgBytes b 0x07
  ls.findIdx? (fun l =>
    let y := tn ts l.in1
    (l.op == 1 || l.op == 2) && isInt y.fmt && y.const &&
      (let data := slice ws y.dataOff y.dataBytes
       (List.range y.w).any (fun n =>
         let r := rowBytes y data n
         (epiAt ep (epiIndex ts l n)).colSum != trunc 32 ((List.range y.c).foldl (fun a k => a + codeVal y.fmt (codeAt y.fmt r k)) 0))))
/-- Does a layer requantise an integer accumulator by its MUL and SHIFT (03 R115; 04 R170)? -/
def requantises (ts : List Tensor) (l : Layer) : Bool :=
  isIntS (tn ts l.out).fmt && (((l.op == 1 || l.op == 2) && !l.adapter && isInt (tn ts l.in0).fmt) || (l.op == 4 && isIntS (tn ts l.in0).fmt))
/-- 0x12 REQUANT (03 R115). -/
def badRequant (b : Bytes) (ts : List Tensor) (ls : List Layer) : Option Nat :=
  let ep := imgBytes b 0x06
  ls.findIdx? (fun l =>
    requantises ts l && (List.range (epiCount ts l)).any (fun n =>
        let e := epiAt ep (l.epi + n)
        !((e.mul == 0 || (decide (2 ^ 30 ≤ e.mul) && decide (e.mul < 2 ^ 31))) && decide (1 ≤ e.shift) && decide (e.shift ≤ 63))))
/-- How far, in its own elements, one output element of a layer reaches into its first input along the columns, or along the
rows (`y`). -/
def reach (y : Bool) (l : Layer) : Nat :=
  if l.op = 1 ∨ l.op = 3 ∨ l.op = 4 then
    (if y then max (pPT l) (pDY l * (pKH l - 1) - pPT l) else max (pPL l) (pDX l * (pKW l - 1) - pPL l))
  else if l.op = 5 ∨ l.op = 6 then (if pFilter l = 0 then 0 else pFilter l) else 0
/-- Input elements per output element of a layer along an axis, as a ratio (04 R157). -/
def stepOf (y : Bool) (ts : List Tensor) (l : Layer) : Nat × Nat :=
  if l.op = 1 ∨ l.op = 3 ∨ l.op = 4 then (if y then pSY l else pSX l, 1)
  else if l.op = 5 then (if y then ((tn ts l.in0).h, max 1 (tn ts l.out).h) else ((tn ts l.in0).w, max 1 (tn ts l.out).w))
  else if l.op = 7 then (1, max 1 (pBlock l)) else if l.op = 8 then (pBlock l, 1) else if l.op = 0x10 then (2, 1) else (1, 1)
/-- The receptive radius of a network in output pixels along an axis, walking its layers backwards: for each tensor the size of
its element in output pixels and the radius so far (log 61). -/
def radiusWalk (y : Bool) (ts : List Tensor) : List Layer → Table (Q × Q) → Q → Q
  | [], _, best => best
  | l :: r, m, best =>
    let (pitch, rad) := (tget m l.out).getD (Q.ofInt 1, Q.ofInt 0)
    let st := stepOf y ts l
    let p := Q.mul pitch (Q.ratio st.2 st.1)
    let rad' := Q.add rad (Q.mul p (Q.ofInt (reach y l)))
    let m' := (layerReads l).foldl (fun m t => tput m t (p, Q.max rad' ((tget m t).getD (p, Q.ofInt 0)).2)) m
    radiusWalk y ts r m' (Q.max best rad')
/-- 0x13 MARGIN: the network's index. -/
def badMargin (b : Bytes) (ns : List Net) (ts : List Tensor) (ls : List Layer) : Option Nat :=
  ns.findIdx? (fun n => netSynth n && [false, true].any (fun y =>
    Q.lt (Q.ofInt (imMargin b)) (radiusWalk y ts (((ls.drop n.first).take n.count).reverse) [] (Q.ofInt 0))))
/-- Core-store bytes of a tensor, each stream rounded up to 64 bytes. -/
def storeBytes (t : Tensor) : Nat := cdiv (tensorBytes t) 64 * 64 + scaleBytes t
/-- 0x15 KERNEL (05 R213). -/
def badKernel (b : Bytes) (ls : List Layer) : Option Nat :=
  let sec := imgBytes b 0x09
  let customBad := (ls.filter (fun l => l.op == 15)).find? (fun l => decide (kernelCount sec ≤ pKernel l) || (kernelRec sec (pKernel l)).kind != 0)
  (if imHas b 0x09 then kernelReject sec else none).orElse (fun _ => customBad.map pKernel)

/-! ## Adapter attachments (08 R289, R290) -/

/-- An adapter attachment record (08 Table 8-3). -/
structure Attach where
  layer : Nat := 0
  rank : Nat := 0
  k : Nat := 0
  n : Nat := 0
  base : Nat := 0
  alpha : Nat := 0
  init : Nat := 0
  deriving DecidableEq, Repr
def attachAt (ad : Bytes) (i : Nat) : Attach :=
  let o := 16 + 32 * i
  { layer := fld ad o 4, rank := fld ad (o + 4) 1, k := fld ad (o + 12) 2, n := fld ad (o + 16) 2, base := fld ad (o + 20) 4,
    alpha := fld ad (o + 24) 4, init := fld ad (o + 28) 4 }
def attachCount (ad : Bytes) : Nat := fld ad 0 1
def attaches (b : Bytes) : List Attach := let ad := imgBytes b 0x0A; (List.range (attachCount ad)).map (attachAt ad)
/-- Elements of one attachment. -/
def attachLen (a : Attach) : Nat := a.k * a.rank + a.rank * a.n
/-- TOTAL_ELEMENTS. -/
def totalElements (b : Bytes) : Nat := fld (imgBytes b 0x0A) 4 4
/-- Bytes live while layer i of a network from layer `first` runs: its intermediate tensors (04 R155, R157), the store of a CUSTOM
layer's kernel (05 R213), and u of an attached layer at its own rank (08 R292). -/
def liveAt (b : Bytes) (ts : List Tensor) (ls : List Layer) (first i : Nat) : Nat :=
  let l := ls.getD i {}
  let mids := (List.range (i + 1)).map (fun j => (ls.getD j {}).out)
  let live := mids.filter (fun t => t == l.out || (ls.drop i).any (fun m => (layerReads m).contains t))
  let ker := if l.op = 15 then (kernelRec (imgBytes b 0x09) (pKernel l)).store else 0
  let u := match if l.adapter then (attaches b).find? (fun a => a.layer == first + i) else none with
    | some a => a.rank * 4 * (tn ts l.out).h * (tn ts l.out).w
    | none => 0
  (live.map (fun t => storeBytes (tn ts t))).foldl (· + ·) 0 + cdiv ker 64 * 64 + cdiv u 64 * 64
/-- 0x14 STORE: the network's index. -/
def badStore (b : Bytes) (ns : List Net) (ts : List Tensor) (ls : List Layer) : Option Nat :=
  ns.findIdx? (fun n => netSynth n &&
    (let mine := (ls.drop n.first).take n.count
     (List.range mine.length).any (fun i => decide (n.store < liveAt b ts mine n.first i))))
/-- Operators that training differentiates (08 Table 8-6). -/
def trainable (l : Layer) : Bool := [1, 2, 7, 8, 11, 12].contains l.op || (l.op == 10 && decide (pOp l ≤ 2))
/-- 0x16 ADAPTER: the record's index. -/
def badAdapter (b : Bytes) (ns : List Net) (ts : List Tensor) (ls : List Layer) : Option Nat :=
  let ad := imgBytes b 0x0A
  let as := attaches b
  let ws := imgBytes b 0x07; let ep := imgBytes b 0x06; let qp := imgBytes b 0x05
  let hdrOk := !imHas b 0x0A || (decide (1 ≤ attachCount ad) && decide (attachCount ad ≤ 64) && fld ad 1 3 == 0 && fld ad 8 8 == 0
    && ad.length == 16 + 32 * attachCount ad && totalElements b == (as.map attachLen).foldl (· + ·) 0
    && decide (1 ≤ totalElements b) && decide (totalElements b ≤ 4194304))
  let netOf := fun i => ns.find? (fun n => decide (n.first ≤ i) && decide (i < n.first + n.count))
  let ok := fun i =>
    let a := as.getD i {}
    let l := ls.getD a.layer {}
    let y := tn ts l.out
    let o := 16 + 32 * i
    decide (a.layer < ls.length) && ((netOf a.layer).map (·.role)) == some 0 && (l.op == 1 || l.op == 2) && l.adapter
      && fld ad (o + 5) 7 == 0 && fld ad (o + 14) 2 == 0 && fld ad (o + 18) 2 == 0
      && decide (4 ≤ a.rank) && decide (a.rank ≤ 16) && (as.take i).all (fun p => decide (p.layer < a.layer))
      && a.k == redLen ts l && a.n == y.c && a.base == ((as.take i).map attachLen).foldl (· + ·) 0
      && a.init % 64 == 0 && decide (a.init + 2 * attachLen a ≤ ws.length)
      && (List.range (attachLen a)).all (fun e => codeFinite 7 (fld ws (a.init + 2 * e) 2)) && isFin32 a.alpha
      && (List.range (epiCount ts l)).all (fun n => (epiAt ep (l.epi + n)).sc != 0)
      && (!isInt y.fmt || (List.range (if y.perCh then y.c else 1)).all (fun n => (qparAt qp (y.q + n)).recip != 0))
      && (match netOf a.layer with
          | some n => (List.range n.count).all (fun j => decide (n.first + j < a.layer) ||
              (let m := ls.getD (n.first + j) {}; trainable m && decide (m.act ≤ 3)))
          | none => false)
  let missing := (List.range ls.length).any (fun i => (ls.getD i {}).adapter && !as.any (fun a => a.layer == i))
  if !hdrOk then some 0
  else ((List.range as.length).find? (fun i => !ok i)).orElse (fun _ => if missing then some as.length else none)

/-- The checks of Table 4-6a in order, each as its reason and the failing index. -/
def imageCheckList (b : Bytes) (len : Nat) (ns : List Net) (ts : List Tensor) (ls : List Layer) : List (Nat × (Unit → Option Nat)) :=
  [(0x01, fun _ => badHeader b len), (0x02, fun _ => badDigest b), (0x03, fun _ => badSection b),
   (0x04, fun _ => badRungOrder b), (0x05, fun _ => badRung3 b), (0x06, fun _ => badNetwork b),
   (0x07, fun _ => badReserved b), (0x08, fun _ => badFormat ts), (0x09, fun _ => badShape b ts ls),
   (0x0A, fun _ => badOpcode ts ls), (0x0B, fun _ => badParameter b ns ts ls)] ++
  [(0x0C, fun _ => badOrder ns ts ls), (0x0D, fun _ => badPair ts ls), (0x0E, fun _ => badAxis ts ls),
   (0x0F, fun _ => badReduction ts ls), (0x10, fun _ => badWeight b ts ls), (0x11, fun _ => badColumn b ts ls),
   (0x12, fun _ => badRequant b ts ls), (0x13, fun _ => badMargin b ns ts ls), (0x14, fun _ => badStore b ns ts ls),
   (0x15, fun _ => badKernel b ls), (0x16, fun _ => badAdapter b ns ts ls)]
/-- The first failing check of Table 4-6a: reason and index. -/
def imageReject (b : Bytes) (len : Nat) : Option (Nat × Nat) :=
  (imageCheckList b len (netsOf b) (tensorsOf b) (layersOf b)).findSome? (fun c => (c.2 ()).map (fun i => (c.1, i)))

/-! ## What the rest of the device asks of an image -/

/-- The network of a role and rung. -/
def netOfRole (b : Bytes) (role rung : Nat) : Option (Nat × Net) :=
  let ns := netsOf b
  (ns.findIdx? (fun n => n.role == role && n.rung == rung)).map (fun i => (i, ns.getD i {}))
/-- Has the image a guard network? -/
def hasGuard (b : Bytes) : Bool := (netOfRole b 3 0).isSome
/-- Stripes of a frame-scope layer (04 R158). -/
def stripesOf (ts : List Tensor) (l : Layer) : Nat := if l.stripe = 0 then 0 else cdiv (tn ts l.out).h l.stripe
/-- Stripe latches of an image's frame-scope networks: one per stripe of the layer that writes each tensor (04 R159). -/
def stripeLatchCount (b : Bytes) : Nat :=
  let ts := tensorsOf b; let ls := layersOf b
  ((netsOf b).filter (fun n => decide (3 ≤ n.role))).foldl (fun a n =>
    a + (((ls.drop n.first).take n.count).map (stripesOf ts)).foldl (· + ·) 0) 0
/-- A CONV2D layer is degenerate: its kernel sides are odd and every tap but the centre is padded at every output (04 R167). -/
def degenerate (ts : List Tensor) (l : Layer) : Bool :=
  let x := tn ts l.in0; let z := tn ts l.out
  let padded := fun (n out k s d p t : Nat) => (List.range out).all (fun y =>
    decide (y * s + t * d < p) || decide (n + p ≤ y * s + t * d)) && decide (t < k)
  l.op == 1 && pKH l % 2 == 1 && pKW l % 2 == 1 &&
  (List.range (pKH l)).all (fun ky => (List.range (pKW l)).all (fun kx =>
    (ky == (pKH l - 1) / 2 && kx == (pKW l - 1) / 2) ||
      (ky != (pKH l - 1) / 2 && padded x.h z.h (pKH l) (pSY l) (pDY l) (pPT l) ky) ||
      (kx != (pKW l - 1) / 2 && padded x.w z.w (pKW l) (pSX l) (pDX l) (pPL l) kx) ||
      (List.range z.h).all (fun oy => (List.range z.w).all (fun ox =>
        decide (oy * pSY l + ky * pDY l < pPT l) || decide (x.h + pPT l ≤ oy * pSY l + ky * pDY l) ||
        decide (ox * pSX l + kx * pDX l < pPL l) || decide (x.w + pPL l ≤ ox * pSX l + kx * pDX l)))))

end Sys2Proof.Machine
end

