-- ==== Sys2Proof/Machine/Teardown.lean ====
section
/-!
DEFINITION. The beginning of a teardown (10 R376, R377 steps 1–3), shared by every fault, destroy, ward reset and FLR.
-/
namespace Sys2Proof.Machine

/-- The bytes 12–31 of a KERNEL_FAULT report (11 Table 11-12). -/
def kernelFaultBody (layer kernel offset addr : Nat) : Bytes :=
  natLe 4 layer ++ natLe 2 kernel ++ natLe 2 offset ++ natLe 6 addr
/-- Drop from a core every thread, vault request and copy of a context (10 R377 steps 1–3). -/
def coreDropCtx (s : State) (slot : Nat) (c : Core) : Core :=
  let mine : Nat → Bool := fun task => ((tget s.tasks task).map (fun t => t.slot == slot)).getD false
  { c with
    threads := c.threads.filter (fun x => !mine x.2.task)
    vreqs := c.vreqs.filter (fun x => x.2.slot != slot)
    copies := c.copies.filter (fun x => x.2.slot != slot)
    halo := c.halo.filter (fun x => x.slot != slot)
    owner := if c.owner = some slot then none else c.owner }
/-- Unbind a context's head at a teardown (10 R377 step 3): its frames are no longer shown. -/
def headDropCtx (slot : Nat) (h : Head) : Head :=
  if h.ctx = some slot then
    { h with ctx := none, nextDeadline := 0, detentAt := none, unbindSeq := none, begun := false, scanDone := true, inFlight := []
             shown := .nothing, store := none }
  else h
/-- The exporters at which a context holds a hasp or has a request parked: device, ward and slot (12 R432). -/
def exportersOf (s : State) (slot : Nat) : List (Nat × Nat × Nat) :=
  let held := ((ctxOf s slot).map (fun x => x.heldAt.map (fun e => (e.1, e.2.1, e.2.2.1)))).getD []
  let sent := (s.remotes.filter (fun r => r.2.slot == slot && (r.2.op == 0 || r.2.op == 5))).map (fun r => (r.2.dev, r.2.tward, r.2.tslot))
  (held ++ sent).foldl (fun l e => if l.contains e then l else l ++ [e]) []
/-- Tell every exporter that the context is gone (12 R432). -/
def sendGone (slot : Nat) (x : Ctx) (s : State) : State :=
  (exportersOf s slot).foldl (fun s e =>
    sendOrDrop tyGone 0 0 e.1 (reqTag 0 slot x.ward) [] (reqOp 0 false e.2.1 e.2.2 0 x.gen) s) s
/-- Remote requests parked on the latches of a context get GONE (12 R432). -/
def goneWaiters (x : Ctx) (s : State) : State :=
  x.latchWaiters.foldl (fun s w =>
    match w.2 with
    | .peer dev _ _ tag op _ => replyTo dev tag op 2 s
    | .thread _ => s) s
/-- A TAIL write in the fabric cycle of a teardown's beginning has no effect (11 R396). -/
def untail (now : Nat) (g : Ring) : Ring :=
  match g.tailWas with
  | some (t, tail, gen) => if earlierCycle t now then g else { g with tail := tail, tailGen := gen, tailWas := none }
  | none => g
/-- What a context keeps of its work once its teardown begins: no frame, runs, latches or training step. -/
def ctxStopped (r : FaultReport) (c : Ctx) : Ctx :=
  { c with
    fault := some r, stagingBits := 0, latchWaiters := [], heldAt := [], runs := [], graphRuns := []
    fr := { c.fr with cur := none }, ad := { c.ad with running := none } }
/-- Of two happenings of one fabric cycle that tear a context down, a fault's report goes before a reset's or destroy command's, and
the lower logical core's before another's (10 R380). -/
def worseReport (old new : FaultReport) : Bool :=
  new.isFault && !earlierCycle old.raisedAt new.raisedAt && (!old.isFault || decide (new.core < old.core))
/-- Begin the teardown of a live context with its report. A later fault changes nothing but the report, in the same fabric cycle. -/
def startTeardown (slot : Nat) (r0 : FaultReport) (s : State) : State :=
  let r := { r0 with raisedAt := s.now }
  if (slotOf s slot).state = .teardown then
    modCtx slot (fun x => { x with fault := x.fault.map (fun old => if worseReport old r then r else old) }) s
  else if (slotOf s slot).state ≠ .live then s
  else
    let x := (ctxOf s slot).getD {}
    let s1 := goneWaiters x (sendGone slot x (haspTeardown slot s))
    let s2 : State := { s1 with
      cores := s1.cores.map (fun x => (x.1, coreDropCtx s1 slot x.2))
      tasks := s1.tasks.filter (fun x => x.2.slot != slot)
      heads := s1.heads.map (fun x => (x.1, headDropCtx slot x.2)) }
    modSlot slot (fun x => { x with state := .teardown })
      (modCtx slot (fun c => ctxStopped r { c with ring := untail s.now c.ring }) (modWard x.ward (fun w => { w with growthWait := w.growthWait.filter (·.slot != slot) }) s2))
/-- A fault on a logical core tears down its context (10 Table 10-5). -/
def faultOn (core slot code reason : Nat) (detail : Bytes) (s : State) : State :=
  startTeardown slot { code := code, reason := reason, detail := detail, isFault := true, core := core } s
/-- The same for a fault that no core raises. -/
def faultCtx (slot code reason : Nat) (detail : Bytes) (s : State) : State := faultOn 0xFFFF slot code reason detail s
/-- An uncorrectable error in a context's data tears it down and is counted in UE_CONTEXT (15 Table 15-4): reason of 11
Table 11-12, ward address, logical core. -/
def uncorrectable (slot reason addr core : Nat) (s : State) : State :=
  let s1 : State := if (slotOf s slot).state = .live then
      { s with ras := { s.ras with ueContext := min (2 ^ 16 - 1) (s.ras.ueContext + 1) } }
    else s
  faultOn core slot kUncorrectable reason (natLe 6 addr ++ natLe 2 core) s1

/-! ## Uncorrectable lines (15 R480, R482) -/

/-- The context that an allocation belongs to. -/
def ownerOf (a : Alloc) : Option Nat :=
  match a.kind with
  | .general i => some i
  | .buffers i => some i
  | .binPool i => some i
  | .store i => some i
  | .stats i => some i
  | .graph i => some i
  | .hierarchy i _ => some i
  | .copies i => some i
  | .tensors i _ => some i
  | _ => none
/-- A context's data lie in an image: it is bound to it, or a frame or a run of it works with it (15 R480). -/
def usesImage (h : Nat) (x : Ctx) : Bool :=
  x.image == some h || (x.fr.cur.map (fun f => f.image == some h)).getD false || x.runs.any (fun r => r.2.running && r.2.image == h)
/-- A context's built-in work reads a line: one of its own objects, or of an image that it uses, in so far as the work's reads meet it
(`Config.lineRead`). Kernels' own reads, copies, samples and hierarchies are judged where they read. -/
def readsLine (s : State) (slot : Nat) (x : Ctx) (l : Nat) : Bool :=
  match mappedAlloc (wardOf s x.ward) l with
  | none => false
  | some a =>
    (match a.kind with
    | .general _ | .stats _ | .staging _ | .store _ | .hierarchy _ _ | .spare => false
    | .image h => usesImage h x
    | _ => ownerOf a == some slot) && Config.lineRead a.serial (l - a.base * 2 ^ 18) slot s.now
/-- Work of a context ends as `go` says, unless it read an uncorrectable line: then the context is torn down. -/
def unlessSpoiled (slot core : Nat) (s : State) (go : State → State) : State :=
  match (liveCtx s slot).bind (fun x => (wardOf s x.ward).poisoned.find? (readsLine s slot x)) with
  | some l => uncorrectable slot 0x01 l core s
  | none => go s

end Sys2Proof.Machine
end

