-- ==== Sys2Proof/Machine/Threads.lean ====
section
/-!
DEFINITION. Issue of an instruction by a thread (05 R184–R187, R192; 10 R360): when it may issue, what every issue does,
the thread's registers, lanes and guard, and the faults of 05 R216.
-/
namespace Sys2Proof.Machine

/-! ## The guard (05 R192) -/

/-- The guard value of an instruction, 64 bits. -/
def guardOf (th : Thread) (f : KFields) : Nat :=
  let p := rdP th f.pred.toNat
  if f.pneg then (2 ^ 64 - 1) ^^^ p else p
/-- Guard bit 0. -/
def guard0 (th : Thread) (f : KFields) : Bool := (guardOf th f).testBit 0
/-- Write the enabled lanes of register d. -/
def wrLanes (w : Nat) (g d : Nat) (new : Nat → Nat) (th : Thread) : Thread :=
  wrV d (ofLanes w ((List.range (1024 / w)).map (fun i => if g.testBit i then new i else lane w (rdV th d) i))) th

/-! ## Issue -/

/-- Requests of 64 bytes outstanding on a core (05 R184): two of a vector load, one of a scalar load, an atomic or a copy. -/
def outstanding (c : Core) : Nat := sumL (c.vreqs.map (fun x => match x.2.dest with | .v _ => 2 | _ => 1)) + c.copies.length
/-- Is an LC-level task admitted on a core? -/
def coreHasLc (s : State) (c : Nat) : Bool :=
  s.tasks.any (fun x => x.2.core == c && x.2.started && taskLc x.2)
/-- Vault requests that BE-level threads of a core hold (10 R360). -/
def beOutstanding (s : State) (c : Core) : Nat :=
  let be := fun thread => ((tget c.threads thread).bind (fun th => tget s.tasks th.task)).any (fun t => !taskLc t)
  outstanding { c with vreqs := c.vreqs.filter (fun x => be x.2.thread), copies := c.copies.filter (fun x => be x.2.thread) }
/-- A core issues while it runs or drains (15 R488). -/
def coreIssues (c : Core) : Bool := match c.mode with | .failed => false | _ => true
/-- The word at the thread's pc is this instruction, where the thread runs a kernel (05 R212, R215). -/
def codeMatches (s : State) (t : Task) (th : Thread) (op : Nat) (f : KFields) : Bool :=
  match t.code with
  | .builtIn => true
  | .kernel h k =>
    match (ctxOf s t.slot).bind (fun c => tget (wardOf s c.ward).images h) with
    | some im => kernelWord (imgBytes im.bytes 0x09) k th.pc == kword op f
    | none => false
/-- Registers as destinations of pending loads that an instruction reads or writes (05 R187). -/
def waitsFor (u : OpUse) (op : Nat) (f : KFields) (th : Thread) : Bool :=
  let sp := vSpan op f.mod.toNat
  let hits : Use → Nat → Nat → Bool := fun u x span =>
    match u with
    | .s => th.pendingDest.contains (.s x)
    | .v => (List.range span).any (fun j => th.pendingDest.contains (.v (x + j)))
    | _ => false
  hits u.d f.dst.toNat sp.1 || hits u.a f.a.toNat sp.2 || hits u.b f.b.toNat 1 || hits u.c f.c.toNat 1
/-- What an instruction adds to the outstanding requests. A store needs its requests to find room too, though it completes at issue,
and a copy counts as one while it is outstanding (log 71). -/
def requestsOf (op : Nat) (f : KFields) : Nat :=
  if op = 0x83 ∨ op = 0x84 then (if f.mod = 0 then 2 else 1) else if op = 0x85 ∨ op = 0x86 then 1 else 0
/-- The queue that an opcode enters, its depth and its entries: the TE's, of 8, or the SE's, of 16 (05 R184). -/
def queueOf (op : Nat) (c : Core) : Option (Nat × List (Nat × Bool)) :=
  if 0xC0 ≤ op ∧ op ≤ 0xC3 then some (8, c.teQ) else if op = 0xD0 then some (16, c.seQ) else none
/-- The opcode's queue has room at an instant: an instruction holds its place until its engine is done with it, and a BE-level one
finds at most its own while an LC-level task is admitted (05 R184, R187; 10 R360; log 72). -/
def queueRoom (op : Nat) (c : Core) (lc lcHere : Bool) (now : Nat) : Bool :=
  match queueOf op c with
  | none => true
  | some (depth, q) =>
    let held := q.filter (fun e => decide (now < e.1))
    decide (held.length < depth) && (lc || !lcHere || held.all (·.2))
/-- The thread could issue this instruction now but for other threads' turns (05 R184, R185, R187; 10 R360): it runs, its task is
started and its context live, its code holds this word, the word is defined, its registers are complete and its queue has room. -/
def canIssue (op : Nat) (t : ThreadRef) (f : KFields) (s : State) : Bool :=
  match threadOf s t with
  | none => false
  | some th =>
    match tget s.tasks th.task with
    | none => false
    | some k =>
      decide (th.park = .running) && k.started && decide ((slotOf s k.slot).state = .live) && coreIssues (coreOf s t.core)
        && codeMatches s k th op f && wordOkFor op f k.vregs
        && (match opUse op f.mod.toNat with | some u => !waitsFor u op f th | none => false)
        && decide (outstanding (coreOf s t.core) + requestsOf op f ≤ 64)
        && (taskLc k || !coreHasLc s t.core || decide (beOutstanding s (coreOf s t.core) + requestsOf op f ≤ 48))
        && queueRoom op (coreOf s t.core) (taskLc k) (coreHasLc s t.core) s.now
/-- The issue slot of an opcode (05 R186): 1 the VE, 2 the queues of the TE, ME and SE, 0 the scalar unit (log 73). -/
def issueSlot (op : Nat) : Nat :=
  if 0x40 ≤ op ∧ op < 0x80 then 1 else if (0x80 ≤ op ∧ op ≤ 0x86) ∨ 0xC0 ≤ op then 2 else 0
/-- The order in which threads take an issue slot: the quantum's owner, other LC-level work, BE-level work; then the thread that
issued least recently, then the lower thread slot (05 R186; 10 R359). -/
def turnKey (c : Core) (k : Task) (th : Thread) (slot : Nat) : Nat × Nat × Nat :=
  (if !taskLc k then 2 else if c.owner = some k.slot then 0 else 1, th.lastIssue, slot)
def turnBefore (a b : Nat × Nat × Nat) : Bool :=
  decide (a.1 < b.1) || (a.1 == b.1 && (decide (a.2.1 < b.2.1) || (a.2.1 == b.2.1 && decide (a.2.2 < b.2.2))))
/-- The next word of a thread that runs a kernel. -/
def nextWord (s : State) (k : Task) (th : Thread) : Option Nat :=
  match k.code with
  | .builtIn => none
  | .kernel h j =>
    ((ctxOf s k.slot).bind (fun c => tget (wardOf s c.ward).images h)).map (fun im => kernelWord (imgBytes im.bytes 0x09) j th.pc)
/-- No other thread of the core that may issue into the same slot comes first. What a thread of built-in code issues next is the
device's own affair, and it competes with none (log 73). -/
def hasTurn (op : Nat) (t : ThreadRef) (th : Thread) (k : Task) (s : State) : Bool :=
  let c := coreOf s t.core
  c.threads.all (fun u =>
    u.1 == t.slot ||
      (match tget s.tasks u.2.task with
       | none => true
       | some j =>
         match nextWord s j u.2 with
         | none => true
         | some w =>
           issueSlot (w / 2 ^ 56) != issueSlot op || !turnBefore (turnKey c j u.2 u.1) (turnKey c k th t.slot)
             || !canIssue (w / 2 ^ 56) { core := t.core, slot := u.1 } (kfields w) s))
/-- The thread may issue this instruction now: it can, and its turn has come. -/
def okIssue (op : Nat) (t : ThreadRef) (f : KFields) (s : State) : Bool :=
  canIssue op t f s &&
    (match threadOf s t with
     | none => false
     | some th => match tget s.tasks th.task with | none => false | some k => hasTurn op t th k s)

/-- Engines charged by 10 R381. -/
inductive Engine where
  | none
  | te (cls : Nat)
  | ve
  | me
  | se
  deriving DecidableEq, Repr
/-- Charge an engine's cycles to a context at the core's operating point. -/
def chargeEngine (slot : Nat) (e : Engine) (n point : Nat) (s : State) : State :=
  modAcct slot (fun a =>
    let x := BitVec.ofNat 64 n
    match e with
    | .none => a
    | .te q => { a with te := a.te + x, energyFj := a.energyFj + n * Config.energy q point }
    | .ve => { a with ve := a.ve + x, energyFj := a.energyFj + n * Config.energy 5 point }
    | .me => { a with me := a.me + x, energyFj := a.energyFj + n * Config.energy 6 point }
    | .se => { a with se := a.se + x, energyFj := a.energyFj + n * Config.energy 7 point }) s

/-- Whom a task's occurrences are charged to. -/
def whoOf (k : Task) : Who := { slot := k.slot, gen := k.gen, lc := taskLc k }
/-- The index of an engine in the counters (14 Table 14-3). -/
def engineIndex (e : Engine) : Option Nat :=
  match e with
  | .none => none
  | .te _ => some 0
  | .ve => some 1
  | .me => some 2
  | .se => some 3
/-- The issue event of an engine: scalar unit, VE, or the queues. -/
def issueEvent (e : Engine) : Nat :=
  match e with
  | .none => 0x008
  | .ve => 0x009
  | _ => 0x00A
/-- The instruction has no effect under its guard (05 R192); a branch's guard is its condition. -/
def guardOff (op : Nat) (e : Engine) (th : Thread) (f : KFields) : Bool :=
  op != 0x02 && (match e with
    | .ve | .se => guardOf th f % 2 ^ (if f.mod = 1 then 64 else 32) == 0
    | _ => !guard0 th f)
/-- An engine of a core takes an instruction of n core cycles after those before it (05 R184; 14 R464); the TE's and the SE's stand in
their queues until they are done. -/
def occupy (c i n point : Nat) (lc : Bool) (s : State) : State :=
  modCore c (fun x =>
    let done := max (x.busy.getD i 0) s.now + n * coreDiv point
    let enter := fun (q : List (Nat × Bool)) => q.filter (fun e => decide (s.now < e.1)) ++ [(done, lc)]
    { x with
      busy := lmod x.busy i (fun _ => done)
      teQ := if i = 0 then enter x.teQ else x.teQ
      seQ := if i = 3 then enter x.seQ else x.seQ }) s
/-- Count an issue: its issue event, its guard, its engine's slots and a tensor operation (14 R463, R464). -/
def countIssue (op : Nat) (t : ThreadRef) (f : KFields) (e : Engine) (n : Nat) (th : Thread) (k : Task) (s : State) : State :=
  let who := some (whoOf k)
  let off := guardOff op e th f
  let s1 := tally t.core (issueEvent e) 1 who s
  let s2 := if off then tally t.core 0x00B 1 who s1 else s1
  match engineIndex e with
  | none => s2
  | some i =>
    let s3 := occupy t.core i n (corePoint s t.core) (taskLc k) (tally t.core (0x010 + 4 * i + b2n off) n who s2)
    if (op = 0xC1 ∨ op = 0xC2) ∧ off = false then tally t.core 0x020 1 who s3 else s3
/-- The thread's own part of an issue: its pc moves past the word, and it is the core's latest to have issued. -/
def stepThread (t : ThreadRef) (s : State) : State :=
  modCore t.core (fun c => { c with
    issues := c.issues + 1, threads := tmod c.threads t.slot (fun th => { th with pc := th.pc + 8, lastIssue := c.issues + 1 }) }) s
/-- What every issue does: the thread steps, the issue is counted, and the engine's cycles are charged. -/
def issued (op : Nat) (t : ThreadRef) (f : KFields) (e : Engine) (n : Nat) (th : Thread) (k : Task) (s : State) : State :=
  countIssue op t f e n th k (chargeEngine k.slot e n (corePoint s t.core) (stepThread t s))

/-- The bytes of a bin task's three working planes (06 R230). -/
def planeBytes3 : Nat := 12288
/-- A task with the core store that it sees. A BLEND task in bin mode sees its own STORE_BYTES and, after them, the working planes of
its bin task (06 R230, R242; log 78). -/
def withStore (s : State) (k : Task) : Task :=
  match k.kind with
  | .blend _ (some p) =>
    { k with store := k.store ++ (tgetD s.tasks p {}).store.map (fun c => (k.size + c.1, c.2)), size := k.size + planeBytes3 }
  | _ => k
/-- Issue an instruction and go on with its effect on the thread, the task and the state. -/
def issue (op : Nat) (t : ThreadRef) (f : KFields) (e : Engine) (n : Nat) (s : State) (go : Thread → Task → State → State) : Out :=
  if okIssue op t f s then
    match threadOf s t with
    | none => notNow "no thread"
    | some th =>
      match tget s.tasks th.task with
      | none => notNow "no task"
      | some k => .next (go th (withStore s k) (issued op t f e n th k s))
  else notNow "the thread cannot issue this instruction"
/-- The shape of the instructions that write one scalar register under guard bit 0. -/
def issueS (op : Nat) (t : ThreadRef) (f : KFields) (s : State) (val : Thread → Nat) : Out :=
  issue op t f .none 0 s (fun th _ s => if guard0 th f then modThread t (wrS f.dst.toNat (val th)) s else s)
/-- The shape of the scalar instructions that write one predicate register under guard bit 0. -/
def issueP (op : Nat) (t : ThreadRef) (f : KFields) (s : State) (val : Thread → Nat) : Out :=
  issue op t f .none 0 s (fun th _ s => if guard0 th f then modThread t (wrP f.dst.toNat (val th)) s else s)
/-- The shape of the vector instructions that write the enabled lanes of one register. -/
def issueV (op : Nat) (t : ThreadRef) (f : KFields) (cycles w : Nat) (s : State) (val : Thread → Nat → Nat) : Out :=
  issue op t f .ve cycles s (fun th _ s => modThread t (wrLanes w (guardOf th f) f.dst.toNat (val th)) s)

/-! ## Faults of a kernel (05 R216) -/

/-- A KERNEL_FAULT of the thread's instruction: the context's teardown begins, with its report. -/
def kernelFault (th : Thread) (k : Task) (reason addr : Nat) (s : State) : State :=
  let kidx := match k.code with | .kernel _ i => i | .builtIn => 0
  faultOn k.core k.slot kKernelFault reason (kernelFaultBody k.layer kidx th.pc addr) s
/-- The instruction has no effect but its fault, or has its effect. -/
def orFault (th : Thread) (k : Task) (bad : Option (Nat × Nat)) (before after : State) : State :=
  match bad with
  | some (reason, addr) => kernelFault th k reason addr before
  | none => after

/-! ## Core store (05 R188) -/

/-- A core-store access of n bytes lies in the task's range. -/
def storeIn (k : Task) (a : Int) (n : Nat) : Bool := decide (0 ≤ a) && decide (a + n ≤ k.size)
def storeRead (k : Task) (a n : Nat) : Bytes := Mem.readN k.store a n
/-- Write bytes of the core store that a task sees: those beyond a BLEND task's own in bin mode are its bin task's. -/
def storeWrite (task a : Nat) (b : Bytes) (s : State) : State :=
  let put := fun (id a : Nat) (b : Bytes) (s : State) => modTask id (fun k => { k with store := Mem.writeN k.store a b }) s
  let k := tgetD s.tasks task {}
  match k.kind with
  | .blend _ (some p) => put p (a - k.size) (b.drop (k.size - a)) (put task a (b.take (k.size - a)) s)
  | _ => put task a b s

end Sys2Proof.Machine
end

