-- ==== Sys2Proof/Machine/Keyway.lean ====
section
/-!
DEFINITION. Rings, doorbells and the fetch and check of command entries (11 R390–R398, R405, R406).
-/
namespace Sys2Proof.Machine

/-! ## Doorbells (11 R391–R396) -/

/-- CTX_GEN of a doorbell write, reserved on an admin page (11 Table 11-6). -/
def genField (r : RingRef) (value : Nat) : Nat := match r with | .admin _ => 0 | .ctx _ => value / 65536 % 65536
/-- A TAIL write: a value at or above the ring size is ignored and sets HOST_DMA (11 R392). -/
def writeTail (r : RingRef) (value : Nat) (s : State) : State :=
  match ringOf s r with
  | none => s
  | some g =>
    if 2 ^ g.sqLog2 ≤ value % 65536 then raiseHostDma (ringFn s r) 0 s
    else modRing r (fun g => { g with
      tail := value % 65536
      tailGen := genField r value
      tailWas := match g.tailWas with
        | some w => if earlierCycle w.1 s.now then some (s.now, g.tail, g.tailGen) else some w
        | none => some (s.now, g.tail, g.tailGen) }) s
/-- A HEAD write returns records; one that would return a record not yet posted is ignored (11 R393). -/
def writeHead (r : RingRef) (value : Nat) (s : State) : State :=
  match ringOf s r with
  | none => s
  | some g =>
    let n := 2 ^ g.cqLog2
    let v := value % 65536
    let count := (v + n - g.head) % n
    if n ≤ v ∨ g.unreturned.length < count then s
    else settleLost r <| repost r (modRing r (fun g => { g with head := v, headGen := genField r value, unreturned := g.unreturned.drop count }) s)
/-- An ARM write: a waiting record that raises the condition sends the message at once and leaves ARM clear (11 R409). -/
def writeArm (r : RingRef) (value : Nat) (s : State) : State :=
  match ringOf s r with
  | none => s
  | some g =>
    if value % 2 = 0 then modRing r (fun g => { g with
      arm := false, armGen := genField r value, disarmedAt := if g.arm then some s.now else g.disarmedAt }) s
    else if g.unreturned.any id then sendMsix (ringFn s r) (ringVector s r) (modRing r (fun g => { g with arm := false, armGen := genField r value }) s)
    else modRing r (fun g => { g with arm := true, armGen := genField r value }) s
/-- One doorbell register: 0 KW_SQ_DB, 1 KW_CQ_DB, 2 KW_CQ_ARM. -/
def doorbellReg (r : RingRef) (reg value : Nat) (s : State) : State :=
  if reg = 0 then writeTail r value s else if reg = 1 then writeHead r value s else writeArm r value s
/-- A doorbell write takes effect: on an enabled admin ring, or on a LIVE slot whose generation it carries (11 R392). -/
def doorbellAct (r : RingRef) (reg value : Nat) (s : State) : State :=
  match r with
  | .admin fn =>
    if (fnOf s fn).enabled ∨ ((fnOf s fn).disabling ∧ reg ≠ 0) then doorbellReg r reg value s else s
  | .ctx slot =>
    if (slotOf s slot).state = .live ∧ (slotOf s slot).gen = value / 65536 % 65536 then doorbellReg r reg value s else s
/-- The page of a slot is a function's own: the slot is LIVE or TEARDOWN in its ward (11 R387). -/
def pageOpen (s : State) (fn slot : Nat) : Bool :=
  ((slotOf s slot).state == .live || (slotOf s slot).state == .teardown) && ((ctxOf s slot).map (·.ward)) == some fn
/-- A doorbell write of a function: ignored before READY, held during a firmware switch (11 R390, R396). -/
def doorbell (fn : Nat) (r : RingRef) (reg value : Nat) (s : State) : State :=
  let open_ := match r with
    | .admin f => f == fn
    | .ctx slot => pageOpen s fn slot
  if !barsOpen s fn || !s.fw.ready || !open_ then s
  else if s.fw.switching then { s with fw := { s.fw with heldDoorbells := s.fw.heldDoorbells ++ [(r, reg, value)] } }
  else doorbellAct r reg value s

/-- KW_SQ_DB of a context. -/
def execKwSqDb (fn slot value : Nat) (s : State) : Out := .next (doorbell fn (.ctx slot) 0 value s)
/-- KW_CQ_DB of a context. -/
def execKwCqDb (fn slot value : Nat) (s : State) : Out := .next (doorbell fn (.ctx slot) 1 value s)
/-- KW_CQ_ARM of a context. -/
def execKwCqArm (fn slot value : Nat) (s : State) : Out := .next (doorbell fn (.ctx slot) 2 value s)
/-- KW_ADM_SQ_DB. -/
def execKwAdmSqDb (fn value : Nat) (s : State) : Out := .next (doorbell fn (.admin fn) 0 value s)
/-- KW_ADM_CQ_DB. -/
def execKwAdmCqDb (fn value : Nat) (s : State) : Out := .next (doorbell fn (.admin fn) 1 value s)
/-- KW_ADM_ARM. -/
def execKwAdmArm (fn value : Nat) (s : State) : Out := .next (doorbell fn (.admin fn) 2 value s)

/-- What a read of a register returns. -/
def readBack (b : Bytes) (s : State) : State := { s with lastRead := b, lastPoisoned := false }
/-- KW_CQ_LOST: the count of dropped records, cleared by the read (11 Table 11-6). -/
def execKwCqLost (fn slot : Nat) (s : State) : Out :=
  if barsOpen s fn && pageOpen s fn slot then
    .next (modRing (.ctx slot) (fun g => { g with lost := 0 })
      (readBack (natLe 4 (((ctxOf s slot).map (·.ring.lost)).getD 0)) s))
  else .next (readBack (natLe 4 0) s)

/-! ## The admin ring's enable (11 R390) -/

/-- The fields of KW_ADM_CFG that a write sets: the vectors always, the sizes only while ENABLE is 0 and with a code up to 10. -/
def admCfgWrite (f : Fn) (value : Nat) : BitVec 32 :=
  let old := f.admCfg.toNat
  let open_ := !f.enabled && !f.disabling
  let sq := if open_ && decide (value % 16 ≤ 10) then value % 16 else old % 16
  let cq := if open_ && decide (field value 7 4 ≤ 10) then field value 7 4 else field old 7 4
  BitVec.ofNat 32 (field value 29 8 * 2 ^ 8 + cq * 16 + sq)
/-- The admin ring as ENABLE makes it: both indices 0, the phase restarted, the register's sizes and bases. -/
def admRing (f : Fn) : Ring :=
  { live := true, sqBase := f.sqBase.toNat, cqBase := f.cqBase.toNat,
    sqLog2 := 6 + field f.admCfg.toNat 3 0, cqLog2 := 6 + field f.admCfg.toNat 7 4 }
/-- A write of KW_ADM_CFG. -/
def writeAdmCfg (fn value : Nat) (s : State) : State :=
  if !barsOpen s fn then s
  else
    let s1 := modFn fn (fun f => { f with admCfg := admCfgWrite f value }) s
    let f := fnOf s fn
    if value.testBit 31 then
      if f.enabled || f.disabling then s1
      else modFn fn (fun f => { f with enabled := true, ring := admRing f }) s1
    else if f.enabled then
      settleDisable (.admin fn)
        (modFn fn (fun f => { f with
          enabled := false, disabling := true, ring := { f.ring with tail := f.ring.fetchHead } }) s1)
    else s1
/-- ADMIN_ENABLE: the write of KW_ADM_CFG with ENABLE set. -/
def execAdminEnable (fn value : Nat) (s : State) : Out := .next (writeAdmCfg fn (value % 2 ^ 31 + 2 ^ 31) s)
/-- ADMIN_DISABLE: the write of KW_ADM_CFG with ENABLE clear. -/
def execAdminDisable (fn value : Nat) (s : State) : Out := .next (writeAdmCfg fn (value % 2 ^ 31) s)

/-! ## Entries (11 R397, Table 11-8) -/

/-- What Table 11-8 says of an opcode: its ring, privilege, class, which operand bits it names, and ADDR0's and ADDR1's alignments. -/
structure CmdSpec where
  admin : Bool := false
  pf : Bool := false
  /-- Class S. -/
  state : Bool := true
  a0 : Bool := false
  a1 : Bool := false
  /-- Masks of the named bits of ARG0–ARG5. -/
  args : List Nat := []
  align : Nat := 1
  deriving DecidableEq, Repr

/-- All 32 bits of an argument. -/
def argAll : Nat := 0xFFFFFFFF
/-- Table 11-8 by opcode. -/
def cmdSpec (op : Nat) : Option CmdSpec :=
  match op with
  | 0x01 => some { admin := true, pf := true, a0 := true, args := [argAll] }
  | 0x02 => some { admin := true, pf := true, args := [argAll] }
  | 0x03 => some { admin := true, args := [argAll, 1] }
  | 0x04 => some { admin := true, a0 := true, align := 64 }
  | 0x05 => some { admin := true, args := [argAll, argAll] }
  | 0x06 => some { admin := true, a0 := true, args := [argAll], align := 64 }
  | 0x07 => some { admin := true, args := [argAll] }
  | 0x08 => some { admin := true, a0 := true }
  | 0x09 => some { admin := true, state := false, a0 := true, args := [argAll] }
  | 0x0A => some { admin := true, pf := true, a0 := true, args := [0x800007FF] }
  | 0x0B => some { admin := true, pf := true, a0 := true, args := [argAll] }
  | 0x0C => some { admin := true, pf := true, a0 := true, args := [argAll] }
  | 0x0D => some { admin := true, pf := true, args := [argAll, 3] }
  | 0x20 => some { state := false }
  | 0x21 => some { state := false }
  | 0x22 => some { a0 := true }
  | 0x23 => some { state := false, a0 := true, args := [argAll], align := 16 }
  | 0x24 => some { state := false, a0 := true, align := 64 }
  | 0x25 => some { args := [argAll] }
  | 0x26 => some { a0 := true, args := [argAll], align := 64 }
  | 0x27 => some { args := [argAll, argAll] }
  | 0x28 => some { a0 := true, args := [argAll], align := 64 }
  | 0x29 => some {}
  | 0x2A => some { a1 := true, args := [argAll] }
  | 0x2B => some {}
  | 0x2C => some { state := false, a0 := true, a1 := true, args := [argAll] }
  | 0x2D => some { args := [argAll, argAll, argAll] }
  | 0x2E => some { args := [argAll] }
  | 0x2F => some { state := false, a0 := true, a1 := true, args := [argAll, 3] }
  | 0x30 => some {}
  | 0x31 => some { a0 := true, args := [argAll] }
  | 0x32 => some { state := false, a0 := true }
  | 0x33 => some {}
  | 0x34 => some { args := [1] }
  | 0x35 => some { state := false, a0 := true, align := 64 }
  | 0x36 => some { a0 := true, args := [argAll] }
  | _ => none

/-- No reserved field of the entry is nonzero: the fixed ones of Table 11-7 and the operands that Table 11-8 does not name. -/
def entReservedOk (e : Bytes) (c : CmdSpec) : Bool :=
  fld e 1 1 == 0 && fld e 2 1 &&& 0xF8 == 0 && fld e 3 1 == 0 && allZero (slice e 48 16)
    && (c.a0 || entAddr0 e == 0) && (c.a1 || entAddr1 e == 0)
    && (List.range 6).all (fun i => subMask (entArg e i) (c.args.getD i 0))
    && (entOpcode e != 0x2F || entArg e 1 != 3)
/-- A length that Table 11-8 bounds lies in its range. -/
def entLengthOk (s : State) (r : RingRef) (e : Bytes) : Bool :=
  let n := entArg e 0
  if entOpcode e = 0x01 then n == 16896
  else if entOpcode e = 0x23 then
    decide (4096 ≤ n) && (match r with
      | .ctx slot => ((ctxOf s slot).map (fun c => decide (n ≤ cbSMax c.cfg))).getD false
      | .admin _ => false)
  else if entOpcode e = 0x2F then decide (n % 64 = 0) && decide (64 ≤ n) && decide (n ≤ 2 ^ 31)
  else true
/-- The reason of KW_BAD_ENTRY for an entry of a ring, if any (11 R397); the tests run opcode, ring, privilege, reserved
fields, alignment, length. -/
def entryBad (s : State) (r : RingRef) (e : Bytes) : Option Nat :=
  match cmdSpec (entOpcode e) with
  | none => some 0x01
  | some c =>
    let isAdmin := match r with | .admin _ => true | .ctx _ => false
    if c.admin ≠ isAdmin then some 0x03
    else if c.pf ∧ r ≠ .admin 0 then some 0x04
    else if !entReservedOk e c then some 0x02
    else if entAddr0 e % c.align ≠ 0 then some 0x05
    else if !entLengthOk s r e then some 0x06
    else none

/-- The Keeper serves commands: Phipel runs, rings are accepted and no switch is in progress (11 R390, R412; 15 R496). -/
def keeperServes (s : State) : Bool := s.fw.running && s.fw.ready && !s.fw.switching
/-- A ring is being served: an enabled admin ring, or the ring of a LIVE slot. -/
def ringServed (s : State) : RingRef → Bool
  | .admin fn => fnExists s fn && !(fnOf s fn).d3hot && (fnOf s fn).enabled
  | .ctx slot => (slotOf s slot).state == .live
/-- The ring's next entry can be fetched now (11 R395). -/
def canFetch (s : State) (r : RingRef) : Bool :=
  keeperServes s && ringServed s r && (match ringOf s r with
    | some g => decide (g.fetchHead ≠ g.tail) && ringRoomy g
    | none => false)
/-- The bus address of a ring's next entry. -/
def fetchAddr (g : Ring) : Nat := g.sqBase + 64 * g.fetchHead
/-- The entry takes its index and its SEQ (11 R391). -/
def takeEntry (r : RingRef) (e : Bytes) (s : State) : State :=
  modRing r (fun g => { g with
    fetchHead := (g.fetchHead + 1) % 2 ^ g.sqLog2
    nextSeq := (g.nextSeq + 1) % 2 ^ 32
    cmds := g.cmds ++ [{ seq := g.nextSeq, entry := e }] }) s
/-- The ward that a ring's errors concern. -/
def ringWard (s : State) (r : RingRef) : Nat := ringFn s r
/-- Fetch one entry: a failed read completes with KW_HOST_ERROR (11 R398), a malformed entry with KW_BAD_ENTRY (11 R397). -/
def fetchEntry (r : RingRef) (g : Ring) (ok : Bool) (s : State) : State :=
  if ok then
    let e := hostRead s (fetchAddr g) 64
    let s1 := takeEntry r e (match r with | .ctx slot => chargeHost slot 64 0 s | .admin _ => s)
    match entryBad s r e with
    | some reason => complete r g.nextSeq kBadEntry reason [] s1
    | none => s1
  else
    complete r g.nextSeq kHostError 0 [] (takeEntry r (List.replicate 64 0) (hostDmaFailed (ringWard s r) (fetchAddr g) s))
/-- COMMAND_FETCH. -/
def execCommandFetch (ring : RingRef) (ok : Bool) (s : State) : Out :=
  guardThat (canFetch s ring) "no entry can be fetched from the ring"
    (match ringOf s ring with
     | some g => .next (fetchEntry ring g ok s)
     | none => notNow "no ring")

/-! ## Starting a command (11 R405, R406) -/

/-- Is the command of class S on its ring? Every command of an admin ring is. -/
def classS (r : RingRef) (e : Bytes) : Bool :=
  match r with
  | .admin _ => true
  | .ctx _ => ((cmdSpec (entOpcode e)).map (·.state)).getD false
/-- The commands fetched before one that have not completed. -/
def before (g : Ring) (seq : Nat) : List Cmd := g.cmds.takeWhile (fun c => c.seq != seq)
/-- Nothing holds a command back: no earlier FENCE is open, no earlier class S command where it is of class S itself, and
nothing at all before a FENCE. -/
def mayStart (r : RingRef) (g : Ring) (c : Cmd) : Bool :=
  let p := before g c.seq
  p.all (fun x => entOpcode x.entry != 0x21) &&
    (if entOpcode c.entry = 0x21 then p.isEmpty else !classS r c.entry || p.all (fun x => !classS r x.entry))
/-- A fetched command of an opcode that may start or go on now. -/
def readyCmd (r : RingRef) (seq op : Nat) (s : State) : Option Cmd :=
  if keeperServes s && (match r with | .admin _ => true | .ctx slot => (slotOf s slot).state == .live) then
    match ringOf s r with
    | none => none
    | some g =>
      match g.cmds.find? (fun c => c.seq == seq) with
      | none => none
      | some c => if entOpcode c.entry = op ∧ mayStart r g c then some c else none
  else none
/-- The shape of a command row: the command is ready, and `go` gives its effect. -/
def command (r : RingRef) (seq op : Nat) (s : State) (go : Cmd → State → State) : Out :=
  need (readyCmd r seq op s) "the command is not ready" (fun c => .next (go c s))
/-- The same for a context's ring, with its context. -/
def ctxCommand (slot seq op : Nat) (s : State) (go : Cmd → Ctx → State → State) : Out :=
  need (readyCmd (.ctx slot) seq op s) "the command is not ready" (fun c =>
    need (ctxOf s slot) "no context" (fun x => .next (go c x s)))
/-- Complete a command with a code and no result. -/
def fail (r : RingRef) (seq code reason : Nat) (s : State) : State := complete r seq code reason [] s

/-- NOP completes when it has been fetched. -/
def execKwNop (slot seq : Nat) (s : State) : Out := command (.ctx slot) seq 0x20 s (fun _ s => completeOk (.ctx slot) seq [] s)
/-- FENCE completes when every entry before it has (11 R406). -/
def execKwFence (slot seq : Nat) (s : State) : Out := command (.ctx slot) seq 0x21 s (fun _ s => completeOk (.ctx slot) seq [] s)

end Sys2Proof.Machine
end

