-- ==== Sys2Proof/Machine/Wards.lean ====
section
/-!
DEFINITION. Wards: the ward block and its checks, WARD_CONFIG, WARD_RESET, and what a ward loses when it becomes
inactive or is reset (10 R345–R350, R379; 11 R401).
-/
namespace Sys2Proof.Machine

/-! ## The ward block (11 Table 11-9) -/

/-- A ward's resources as its block gives them. -/
def wardCfgOf (b : Bytes) : WardCfg :=
  { quantum := fld b 0x0004 4, ingest := fld b 0x0008 2, staging := fld b 0x000A 2, latches := fld b 0x000C 2,
    hasps := fld b 0x000E 2, ctxLimit := fld b 0x0010 2, pendRecs := fld b 0x0012 2, ways := fld b 0x0014 2,
    feMask := fld b 0x0016 2, rtuMask := fld b 0x0018 4, flowMask := fld b 0x001C 1, chanMask := fld b 0x0020 16,
    coreMask := fld b 0x0040 256, headMask := fld b 0x0140 192,
    groups := (List.range (fld b 0x001D 1)).map (fun g => fld b (0x0200 + 256 * g) 256) }
/-- A ward is active while it holds a core, a channel and a cache way (10 R348). -/
def wardActive (c : WardCfg) : Bool := c.coreMask != 0 && c.chanMask != 0 && c.ways != 0

/-- The contexts of a ward in a slot state. -/
def wardCtxs (s : State) (w : Nat) (p : SlotState → Bool) : List (Nat × Ctx) :=
  s.ctxs.filter (fun x => x.2.ward == w && p (slotOf s x.1).state)
def isLive (x : SlotState) : Bool := x == .live
def isHeld (x : SlotState) : Bool := x == .live || x == .teardown
/-- Latches that a context takes: kernel latches, geometry latches, stripe latches and band latches (10 R353). -/
def latchUse (c : Ctx) : Nat := 64 * cbLatches c.cfg + tileCount c.cfg + c.stripeLatches + c.bandLatches
/-- What a ward's contexts take of latches, staging units and hasps, and its pending records in use. -/
def latchesUsed (s : State) (w : Nat) : Nat := ((wardCtxs s w isHeld).map (fun x => latchUse x.2)).foldl (· + ·) 0
def stagingUsed (s : State) (w : Nat) : Nat := ((wardCtxs s w isHeld).map (fun x => cbStaging x.2.cfg)).foldl (· + ·) 0
def haspsUsed (s : State) (w : Nat) : Nat := (s.hasps.filter (fun x => x.2.ward == w)).length
def pendingUsed (s : State) (w : Nat) : Nat := (s.remotes.filter (fun x => x.2.ward == w)).length
/-- The channel of granule i of an allocation: one of the ward's channels at the time, by the Keeper's placement (10 R349). -/
def granuleChannel (a : Alloc) (i : Nat) : Nat :=
  let cs := bitList 96 a.chans
  cs.getD (Config.placement a.chans (a.serial * 2 ^ 24 + i) % cs.length) 0
/-- Channels that hold a granule outside free memory. -/
def channelsInUse (w : Ward) : Nat :=
  (w.allocs.filter (fun a => !inStaging a.kind)).foldl (fun m a => (List.range a.count).foldl (fun m i => m ||| 2 ^ granuleChannel a i) m) 0
/-- Does a context name a group? -/
def namesGroup (c : Ctx) (g : Nat) : Bool := cbGroup c.cfg == g || cbGroup c.cfgInForce == g
/-- Is the core marked failed (15 R490)? -/
def coreFailed (s : State) (c : Nat) : Bool := (coreOf s c).mode == .failed
/-- Logical cores marked failed, as a mask. -/
def failedCores (s : State) : Nat := s.cores.foldl (fun m x => if x.2.mode = .failed then m ||| 2 ^ x.1 else m) 0
/-- Vault channels marked failed (15 R486), as a mask. -/
def failedChans (s : State) : Nat := s.ras.failedChans.foldl (fun m c => m ||| 2 ^ c) 0

/-! ## The checks (10 R347–R349, R547; 11 R401) -/

/-- Reasons of KW_WARD_REFUSED. -/
def wrValue : Nat := 0x01
def wrHeld : Nat := 0x02
def wrTotal : Nat := 0x03
def wrInUse : Nat := 0x04
def wrPart : Nat := 0x05
def wrFailed : Nat := 0x06
def wrRng : Nat := 0x07
def wrDebug : Nat := 0x08

/-- Field checks of one kind: offset and reason of the first that fails. -/
def firstBad (l : List (Bool × Nat × Nat)) : Option (Nat × Nat) := (l.find? (fun x => x.1)).map (·.2)
/-- Units that other wards hold. -/
def othersMask (s : State) (w : Nat) (f : WardCfg → Nat) : Nat :=
  (List.range 16).foldl (fun m v => if v = w then m else m ||| f (wardOf s v).cfg) 0
/-- The sum over the other wards. -/
def othersSum (s : State) (w : Nat) (f : WardCfg → Nat) : Nat :=
  (List.range 16).foldl (fun m v => if v = w then m else m + f (wardOf s v).cfg) 0
/-- An LC context and a head-bound BE context of the ward would share a core under these groups (10 R354, R349). -/
def conflict (s : State) (w : Nat) (groups : List Nat) : Bool :=
  let live := wardCtxs s w isLive
  live.any (fun x => cbClassBE x.2.cfg && x.2.head.isSome &&
    live.any (fun y => !cbClassBE y.2.cfg && groups.getD (cbGroup x.2.cfg) 0 &&& groups.getD (cbGroup y.2.cfg) 0 != 0))
/-- The checks of one group of the block. -/
def groupBad (s : State) (w g : Nat) (old new : WardCfg) (b : Bytes) : Option (Nat × Nat) :=
  let off := 0x0200 + 256 * g
  let m := fld b off 256
  let o := old.groups.getD g 0
  let named := (wardCtxs s w isLive).any (fun x => namesGroup x.2 g)
  firstBad [(decide (new.groups.length ≤ g) && m != 0, off, wrValue), (!subMask m new.coreMask, off, wrValue),
    (named && (decide (new.groups.length ≤ g) || maskDiff o m != 0), off, wrInUse),
    (named && conflict s w ((new.groups.take (g + 1)) ++ old.groups.drop (g + 1)) && !conflict s w (new.groups.take g ++ old.groups.drop g), off, wrInUse)]
/-- The first failing offset and reason of the fields below the core groups, in increasing offset; within a field a value outside
its range, a part without the unit, a unit held elsewhere or failed, a sum, then a use (log 11). -/
def wardFieldsBad (s : State) (b : Bytes) : Option (Nat × Nat) :=
  let w := wbWard b
  let n := wardCfgOf b
  let o := (wardOf s w).cfg
  let live := wardCtxs s w isLive
  let dead := (wardCtxs s w isHeld).isEmpty
  let goes := !wardActive n && wardActive o && !dead
  let total := fun (f : WardCfg → Nat) (lim : Nat) => decide (lim < othersSum s w f + f n)
  let held := fun (f : WardCfg → Nat) => f n &&& othersMask s w f != 0
  let part := s.part == .bkz1280
  let flowUse := live.any (fun x => cbFlow x.2.cfg || x.2.graph.isSome)
  let rtuUse := live.any (fun x => x.2.hiers != [])
  let headUse := live.foldl (fun m x => match x.2.head with | some h => m ||| 2 ^ h | none => m) 0
  let feUse := live.foldl (fun m x => m ||| cbFeMask x.2.cfg ||| cbFeMask x.2.cfgInForce) 0
  let coreUse := live.foldl (fun m x => m ||| o.groups.getD (cbGroup x.2.cfg) 0 ||| o.groups.getD (cbGroup x.2.cfgInForce) 0) 0
  let q := n.quantum
  firstBad ([
    (fld b 0 1 != 1, 0x0000, wrValue), (decide (15 < w), 0x0001, wrValue), (fld b 2 1 != 0, 0x0002, wrValue), (fld b 3 1 != 0, 0x0003, wrValue),
    (decide (q < 1024) || decide (65536 < q) || q % 1024 != 0, 0x0004, wrValue),
    (decide (1024 < n.ingest), 0x0008, wrValue), (total (·.ingest) 1024, 0x0008, wrTotal),
    (n.ingest == 0 && headUse != 0, 0x0008, wrInUse),
    (decide (1024 < n.staging), 0x000A, wrValue), (total (·.staging) 1024, 0x000A, wrTotal),
    (decide (n.staging < stagingUsed s w), 0x000A, wrInUse),
    (decide (1024 < n.latches), 0x000C, wrValue), (total (·.latches) 1024, 0x000C, wrTotal),
    (decide (64 * n.latches < latchesUsed s w), 0x000C, wrInUse),
    (decide (4096 < n.hasps), 0x000E, wrValue), (total (·.hasps) 4096, 0x000E, wrTotal),
    (decide (n.hasps < haspsUsed s w), 0x000E, wrInUse),
    (decide (1024 < n.ctxLimit), 0x0010, wrValue), (total (·.ctxLimit) 1024, 0x0010, wrTotal),
    (decide (1024 < n.pendRecs), 0x0012, wrValue), (total (·.pendRecs) 4096, 0x0012, wrTotal),
    (decide (n.pendRecs < pendingUsed s w), 0x0012, wrInUse),
    (held (·.ways), 0x0014, wrHeld), (n.ways == 0 && (goes || o.ways != 0 && !live.isEmpty), 0x0014, wrInUse),
    (held (·.feMask), 0x0016, wrHeld), (!subMask (feUse &&& o.feMask) n.feMask, 0x0016, wrInUse),
    (held (·.rtuMask), 0x0018, wrHeld), (n.rtuMask == 0 && o.rtuMask != 0 && rtuUse, 0x0018, wrInUse),
    (held (·.flowMask), 0x001C, wrHeld), (n.flowMask == 0 && o.flowMask != 0 && flowUse, 0x001C, wrInUse),
    (decide (64 < fld b 0x001D 1), 0x001D, wrValue),
    (fld b 0x001E 1 != 0, 0x001E, wrValue), (fld b 0x001F 1 != 0, 0x001F, wrValue),
    (decide (2 ^ 96 ≤ n.chanMask), 0x0020, wrValue), (part && decide (2 ^ 64 ≤ n.chanMask), 0x0020, wrPart),
    (held (·.chanMask), 0x0020, wrHeld), (n.chanMask &&& failedChans s != 0, 0x0020, wrFailed),
    (n.chanMask == 0 && goes, 0x0020, wrInUse),
    (wardActive n && !subMask (channelsInUse (wardOf s w)) n.chanMask, 0x0020, wrInUse)] ++
  (List.range 16).map (fun i => (fld b (0x0030 + i) 1 != 0, 0x0030 + i, wrValue)) ++
  [(part && decide (2 ^ 1280 ≤ n.coreMask), 0x0040, wrPart),
    (held (·.coreMask), 0x0040, wrHeld), (n.coreMask &&& failedCores s != 0, 0x0040, wrFailed),
    (n.coreMask == 0 && goes, 0x0040, wrInUse), (!subMask (coreUse &&& o.coreMask) n.coreMask, 0x0040, wrInUse),
    (decide (2 ^ 1026 ≤ n.headMask), 0x0140, wrValue),
    (held (·.headMask), 0x0140, wrHeld), (!subMask headUse n.headMask, 0x0140, wrInUse)])
/-- The first failing offset and reason of a ward block: the fields, then the core groups. -/
def wardBlockBad (s : State) (b : Bytes) : Option (Nat × Nat) :=
  let w := wbWard b
  let n := wardCfgOf b
  let o := (wardOf s w).cfg
  (wardFieldsBad s b).orElse (fun _ => (List.range 64).findSome? (fun g => groupBad s w g o n b))

/-! ## Keys and what a ward loses -/

/-- Draw a ward's vault key: a fresh serial number stands for a fresh random value (15 R499). -/
def newKey (w : Nat) (s : State) : State :=
  { modWard w (fun x => { x with key := some s.nextSerial }) s with nextSerial := s.nextSerial + 1 }
/-- Everything a ward's memory held can no longer be read: images and the spare pool go with it (10 R348). -/
def emptyWard (x : Ward) : Ward :=
  { x with key := none, allocs := [], mem := [], spare := 0, images := [], growthWait := [], poisoned := [] }
/-- A head leaves its ward: its configuration is dropped. -/
def dropHead (h : Nat) (s : State) : State := modHead h (fun _ => {}) s
/-- Put a ward configuration in force (10 R346, R348). -/
def applyWard (w : Nat) (n : WardCfg) (s : State) : State :=
  let o := (wardOf s w).cfg
  let s1 := (bitList 1026 (maskDiff o.headMask n.headMask)).foldl (fun s h => dropHead h s) s
  let s2 := modWard w (fun x => { x with cfg := n }) s1
  if wardActive n then (if (wardOf s w).key.isSome then s2 else newKey w s2)
  else modWard w emptyWard s2

/-- The answer of WARD_CONFIG: code, reason and offset, or none when the block is accepted. -/
def wardRefusal (s : State) (b : Bytes) : Option (Nat × Nat) :=
  match wardBlockBad s b with
  | some x => some x
  | none =>
    let becomes := wardActive (wardCfgOf b)
    if becomes && s.sec.unlocked then some (0xFFFFFFFF, wrDebug)
    else if becomes && (wardOf s (wbWard b)).key.isNone && s.sec.rngFail then some (0xFFFFFFFF, wrRng)
    else none
/-- WARD_CONFIG. -/
def execWardConfig (fn seq : Nat) (s : State) : Out :=
  command (.admin fn) seq 0x01 s (fun c s =>
    let b := hostRead s (entAddr0 c.entry) 16896
    match wardRefusal s b with
    | some (off, reason) => complete (.admin fn) seq kWardRefused reason (natLe 4 off) s
    | none => completeOk (.admin fn) seq [] (applyWard (wbWard b) (wardCfgOf b) s))

/-- Tear down every context of a ward at once (10 R379). -/
def teardownWard (w : Nat) (s : State) : State :=
  (wardCtxs s w isLive).foldl (fun s x => startTeardown x.1 {} s) s
/-- A ward reset: contexts torn down, the key replaced, and nothing written before can be read afterwards; the spare
pool's granules stay granted (log 12). -/
def resetWard (w : Nat) (s : State) : State :=
  let s1 := teardownWard w s
  if (wardOf s w).key.isSome then
    newKey w (modWard w (fun x => { x with
      mem := [], images := [], poisoned := [], growthWait := []
      allocs := x.allocs.filter (fun a => match a.kind with | .image _ => false | _ => true)
      transit := [], ingestQ := [], poseQ := [] }) s1)
  else s1
/-- Does the ward still have a context being torn down? -/
def wardTearing (s : State) (w : Nat) : Bool := !(wardCtxs s w isHeld).isEmpty
/-- WARD_RESET: it completes at once where the ward holds no context, and otherwise when the last teardown completes. -/
def execWardReset (fn seq : Nat) (s : State) : Out :=
  need (readyCmd (.admin fn) seq 0x02 s) "the command is not ready" (fun c =>
    guardThat (!c.started) "the reset is in progress"
      (let w := entArg c.entry 0
       if 15 < w then .next (complete (.admin fn) seq kBadState 0x03 [] s)
       else
         let s1 := resetWard w s
         if wardTearing s1 w then .next (modCmd (.admin fn) seq (fun c => { c with started := true, aux := w }) s1)
         else .next (completeOk (.admin fn) seq [] s1)))

end Sys2Proof.Machine
end

