-- ==== Sys2Proof/Machine/CoreMemory.lean ====
section
/-!
DEFINITION. Core-store and ward-memory instructions of 05 Table 5-4 and the copies of 05 R211. A store, and an atomic's
memory effect, take place at issue; a load's value is read at issue and delivered by VAULT_REPLY (log 9).
-/
namespace Sys2Proof.Machine

/-- Size in bytes of a MOD of LDC and LDW. -/
def ldSize (m : Nat) : Nat :=
  if m = 0 then 128 else if m = 1 ∨ m = 5 then 1 else if m = 2 ∨ m = 6 then 2 else if m = 3 ∨ m = 7 then 4 else 8
/-- Alignment of a MOD: 16 for the vector form, else the size. -/
def ldAlign (m : Nat) : Nat := if m = 0 then 16 else ldSize m
/-- The register value a loaded byte string gives. -/
def ldValue (m : Nat) (b : Bytes) : Nat := if 5 ≤ m then trunc 64 (sext (8 * ldSize m) (leNat b)) else leNat b
/-- s[a] + IMM24 modulo 2^64. -/
def effAddr (th : Thread) (f : KFields) : Nat := trunc 64 ((rdS th f.a.toNat : Int) + immS f)
/-- KERNEL_FAULT reasons of 05 Table 5-11. -/
def kfStoreRange : Nat := 0x01
def kfWardRange : Nat := 0x02
def kfAlign : Nat := 0x03
def kfLatchRange : Nat := 0x04
def kfHaspRange : Nat := 0x05
def kfHaspOverflow : Nat := 0x06
def kfAccType : Nat := 0x07
def kfTexDesc : Nat := 0x08
def kfCopyDesc : Nat := 0x09
def kfWaitLimit : Nat := 0x0A

/-- The fault of a core-store access, if any. -/
def storeBad (k : Task) (a n al : Nat) : Option (Nat × Nat) :=
  if !storeIn k a n then some (kfStoreRange, a % 2 ^ 48) else if a % al ≠ 0 then some (kfAlign, a) else none
/-- The ward of a task's context. -/
def taskWard (s : State) (k : Task) : Nat := ((ctxOf s k.slot).map (·.ward)).getD 0
/-- The fault of a ward-memory access, if any. -/
def wardBad (s : State) (k : Task) (a n al : Nat) (write : Bool) : Option (Nat × Nat) :=
  if !ctxMapped (wardOf s (taskWard s k)) k.slot a n write then some (kfWardRange, a % 2 ^ 48)
  else if a % al ≠ 0 then some (kfAlign, a) else none
/-- Write a loaded value to the destination of a MOD. -/
def wrLoad (m d v : Nat) (th : Thread) : Thread := if m = 0 then wrV d v th else wrS d v th

/-- LDC: core-store load. -/
def execLdc (t : ThreadRef) (f : KFields) (s : State) : Out :=
  issue 0x80 t f .me 1 s (fun th k s1 =>
    let m := f.mod.toNat
    let a := effAddr th f
    if !guard0 th f then s1
    else orFault th k (storeBad k a (ldSize m) (ldAlign m)) s
      (modThread t (wrLoad m f.dst.toNat (ldValue m (storeRead k a (ldSize m)))) s1))
/-- The bytes of a vector store with their enabled lanes: (offset, 4 bytes) of each. -/
def laneStores (th : Thread) (f : KFields) : List (Nat × Bytes) :=
  ((List.range 32).filter (fun i => (guardOf th f).testBit i)).map (fun i => (4 * i, natLe 4 (vLane i)))
where vLane (i : Nat) : Nat := lane 32 (rdV th f.b.toNat) i
/-- What a store writes: offsets and bytes. -/
def stores (th : Thread) (f : KFields) : List (Nat × Bytes) :=
  if f.mod = 0 then laneStores th f else [(0, natLe (ldSize f.mod.toNat) (rdS th f.b.toNat))]
/-- STC: core-store store of v[b] or s[b]. -/
def execStc (t : ThreadRef) (f : KFields) (s : State) : Out :=
  issue 0x81 t f .me 1 s (fun th k s1 =>
    let m := f.mod.toNat
    let a := effAddr th f
    if !guard0 th f then s1
    else orFault th k (storeBad k a (ldSize m) (ldAlign m)) s
      ((stores th f).foldl (fun s w => storeWrite th.task (a + w.1) w.2 s) s1))
/-- LDCX: gather; disabled lanes take no part. -/
def execLdcx (t : ThreadRef) (f : KFields) (s : State) : Out :=
  issue 0x82 t f .me 2 s (fun th k s1 =>
    let g := guardOf th f
    let addr := fun i => (rdS th f.a.toNat + lane 32 (rdV th f.b.toNat) i) % 2 ^ 64
    let bad := (List.range 32).findSome? (fun i => if g.testBit i then storeBad k (addr i) 4 4 else none)
    if !guard0 th f then s1
    else orFault th k bad s
      (modThread t (wrLanes 32 g f.dst.toNat (fun i => leNat (storeRead k (addr i) 4))) s1))
/-- Is a ward address in staging memory? -/
def stagingAddr (w : Ward) (addr : Nat) : Bool := ((allocAt w addr).map (fun a => inStaging a.kind)).getD false
/-- The vault channel of a ward address. -/
def channelAt (w : Ward) (addr : Nat) : Nat :=
  match allocAt w addr with
  | some a => granuleChannel a (addr / 2 ^ 18 - a.base)
  | none => 0
/-- Traffic of n requests of 64 bytes of a task on a core, reading or writing: requests, hits and misses, port bytes, and
the bytes that move between the vault cache and the channels. Whether the cache serves a request is the device's own
affair: a free value (log 2). -/
def vaultTraffic (core : Nat) (k : Task) (ward addr n : Nat) (write : Bool) (s : State) : State :=
  let who := some (whoOf k)
  let w := wardOf s ward
  if n = 0 then s
  else if stagingAddr w addr then portBytes core (if write then 3 else 2) (64 * n) s
  else
    let d := drawFree s
    let miss := d.1.toNat.testBit 0
    let s1 := portBytes core (b2n write) (64 * n) (tally core 0x028 n who d.2)
    if miss then
      tallyChip (0x228 + b2n write) (channelAt w addr) (64 * n) (some ward)
        (chargeVault k.slot (if write then 0 else 64 * n) (if write then 64 * n else 0) (tally core 0x02A n who s1))
    else tally core 0x029 n who s1
/-- Begin a vault request whose value is delivered later. -/
def request (t : ThreadRef) (k : Task) (d : Dest) (value addr : Nat) (s : State) : State :=
  let d' := if d = .s 0 then .none else d
  vaultTraffic t.core k (taskWard s k) addr (match d with | .v _ => 2 | _ => 1) false
    (modCore t.core (fun c => { c with
      vreqs := tput c.vreqs (freeKeyFrom c.vreqs 0)
        { thread := t.slot, dest := d', value := value, addr := addr, slot := k.slot, gen := k.gen }
      threads := tmod c.threads t.slot (fun th =>
        { th with pendingDest := if d' = .none then th.pendingDest else th.pendingDest ++ [d'] }) }) s)
/-- LDW: ward-memory load. -/
def execLdw (t : ThreadRef) (f : KFields) (s : State) : Out :=
  issue 0x83 t f .me (requestsOf 0x83 f) s (fun th k s1 =>
    let m := f.mod.toNat
    let a := effAddr th f
    let d : Dest := if m = 0 then .v f.dst.toNat else .s f.dst.toNat
    if !guard0 th f then s1
    else orFault th k (wardBad s k a (ldSize m) (ldAlign m) false) s
      (request t k d (ldValue m (wardRead (wardOf s (taskWard s k)) a (ldSize m))) a s1))
/-- The new value that an ATOM stores, of old x, operand y and comparand z (05 Table 5-4). -/
def atomNew (m x y z : Nat) : Nat :=
  if m = 0 then (x + y) % 2 ^ 32
  else if m = 1 then (if s32 x ≤ s32 y then x else y)
  else if m = 2 then (if s32 x ≤ s32 y then y else x)
  else if m = 3 then x ||| y
  else if m = 4 then x &&& y
  else if m = 5 then add32 x y
  else if m = 6 then y
  else if x = z then y else x
/-! ## Stores and atomics of one fabric cycle (05 R199) -/

/-- Write the bytes of an operation. -/
def writeAll (wd : Nat) (l : List (Nat × Bytes)) (s : State) : State := l.foldl (fun s w => wardWrite wd w.1 w.2 s) s
/-- Do two operations write a byte in common? -/
def opsMeet (a b : WardOp) : Bool :=
  a.ward == b.ward && a.writes.any (fun x => b.writes.any (fun y => decide (x.1 < y.1 + y.2.length) && decide (y.1 < x.1 + x.2.length)))
/-- An operation comes after another one of its fabric cycle: a higher logical core, or its higher thread slot. -/
def opLater (a b : WardOp) : Bool := decide (b.core < a.core) || (a.core == b.core && decide (b.slot < a.slot))
/-- The operations of this fabric cycle that come after a new one, where one of them meets it: they are done again after it. -/
def laterOps (o : WardOp) (s : State) : List WardOp :=
  let l := s.cycleOps.filter (fun p => p.at_ / 8 == s.now / 8 && opLater p o)
  if l.any (opsMeet o) then l else []
/-- Carry out an operation: an atomic's value, its new one and what its request returns, follow from what stands there now. -/
def doOp (o : WardOp) (s : State) : WardOp × State :=
  let w := wardOf s o.ward
  let before := o.writes.map (fun x => (x.1, wardRead w x.1 x.2.length))
  match o.atom with
  | none => ({ o with before := before }, writeAll o.ward o.writes s)
  | some (m, y, z, req) =>
    let a := (o.writes.map (·.1)).headD 0
    let old := leNat (wardRead w a 4)
    let n := [(a, natLe 4 (atomNew m old y z))]
    ({ o with before := before, writes := n },
     modCore o.core (fun c => { c with vreqs := tmod c.vreqs req (fun r => { r with value := old }) }) (writeAll o.ward n s))
/-- A store or atomic takes effect among those of its fabric cycle, in order of logical core and thread slot. -/
def doInCycle (o : WardOp) (s : State) : State :=
  let late := laterOps o s
  let s1 := late.reverse.foldl (fun s p => writeAll p.ward p.before s) s
  let r := doOp o s1
  let q := late.foldl (fun (acc : List WardOp × State) p => let d := doOp p acc.2; (acc.1 ++ [d.1], d.2)) ([], r.2)
  let now := s.cycleOps.filter (fun p => p.at_ / 8 == s.now / 8)
  let after := if late.isEmpty then now.filter (fun p => opLater p o) else q.1
  { q.2 with cycleOps := now.filter (fun p => !opLater p o) ++ r.1 :: after }
/-- STW: ward-memory store. -/
def execStw (t : ThreadRef) (f : KFields) (s : State) : Out :=
  issue 0x84 t f .me (if f.mod = 0 then 2 else 1) s (fun th k s1 =>
    let m := f.mod.toNat
    let a := effAddr th f
    if !guard0 th f then s1
    else orFault th k (wardBad s k a (ldSize m) (ldAlign m) true) s
      (vaultTraffic t.core k (taskWard s k) a (if m = 0 then 2 else 1) true
        (doInCycle { at_ := s.now, ward := taskWard s k, core := t.core, slot := t.slot,
                     writes := (stores th f).map (fun w => (a + w.1, w.2)) } s1)))
/-- ATOM: a 32-bit atomic at ward address s[a]; the old value goes to s[d] unless d = 0. -/
def execAtom (t : ThreadRef) (f : KFields) (s : State) : Out :=
  issue 0x85 t f .me 1 s (fun th k s1 =>
    let a := rdS th f.a.toNat
    if !guard0 th f then s1
    else
      let y := rdS th f.b.toNat % 2 ^ 32; let z := rdS th f.c.toNat % 2 ^ 32
      let req := freeKeyFrom (coreOf s1 t.core).vreqs 0
      orFault th k (wardBad s k a 4 4 true) s
        (doInCycle { at_ := s.now, ward := taskWard s k, core := t.core, slot := t.slot, writes := [(a, [0, 0, 0, 0])],
                     atom := some (f.mod.toNat, y, z, req) }
          (request t k (.s f.dst.toNat) 0 a
            (modThread t (fun x => { x with irrevocable := true }) (vaultTraffic t.core k (taskWard s k) a 1 true s1)))))

/-! ## Copies (05 R211) -/

/-- Begin a copy that MCOPY_COMPLETE applies. -/
def beginCopy (t : ThreadRef) (k : Task) (addr : Nat) (wardW storeW : List (Nat × Bytes)) (reads : List (Nat × Nat)) (s : State) : State :=
  let wb := (wardW.map (fun x => x.2.length)).foldl (· + ·) 0
  let sb := (storeW.map (fun x => x.2.length)).foldl (· + ·) 0
  vaultTraffic t.core k (taskWard s k) addr (cdiv sb 64) false (vaultTraffic t.core k (taskWard s k) addr (cdiv wb 64) true
    (modCore t.core (fun c => { c with
      copies := tput c.copies (freeKeyFrom c.copies 0)
        { thread := t.slot, slot := k.slot, gen := k.gen, ward := taskWard s k, wardWrites := wardW, storeWrites := storeW
          spoiled := reads.findSome? (fun r => poisonIn (wardOf s (taskWard s k)) r.1 r.2) } }) s))
/-- The fields of a block copy descriptor (05 Table 5-8). -/
structure CopyDesc where
  data : Nat := 0
  scale : Nat := 0
  storeData : Nat := 0
  storeScales : Nat := 0
  count : Nat := 0
  first : Nat := 0
  last : Bool := false
  tagBase : Nat := 0
  ok : Bool := false
  deriving DecidableEq, Repr
def copyDesc (b : Bytes) : CopyDesc :=
  let d := fld b 0 6; let sc := fld b 6 6
  { data := d, scale := sc, storeData := fld b 12 4, storeScales := fld b 16 4, count := fld b 20 2, first := fld b 24 4,
    last := (fld b 28 2).testBit 15, tagBase := fld b 30 2,
    ok := fld b 22 2 == 0 && fld b 28 2 % 2 ^ 15 == 0 && decide (1 ≤ fld b 20 2) && decide (fld b 20 2 ≤ 4096)
      && decide (d % 64 = 0) && decide (sc % 64 = 0) && decide (fld b 12 4 % 16 = 0) }
/-- Segment bytes, element bytes a block, and the offset of the tags: BS8 or BS4 (03 R105). -/
def segBytes (bs4 : Bool) : Nat := if bs4 then 320 else 576
def elemBytes (bs4 : Bool) : Nat := if bs4 then 16 else 32
def blockAddr (bs4 : Bool) (data j : Nat) : Nat := data + segBytes bs4 * (j / 16) + elemBytes bs4 * (j % 16)
def tagAddr (bs4 : Bool) (data j : Nat) : Nat := data + segBytes bs4 * (j / 16) + 16 * elemBytes bs4 + 2 * (j % 16)
/-- The first block of an unpack whose tags disagree (03 R107): its number, expected, data and scale tag. -/
def skewOf (w : Ward) (bs4 : Bool) (d : CopyDesc) : Option (Nat × Nat × Nat × Nat) :=
  (List.range d.count).findSome? (fun i =>
    let j := d.first + i
    let e := (d.tagBase + j) % 65536
    let dt := leNat (wardRead w (tagAddr bs4 d.data j) 2)
    let st := leNat (wardRead w (d.scale + 4 * j + 2) 2)
    if dt = e ∧ st = e then none else some (j, e, dt, st))
/-- The ranges a block copy touches are mapped, and in core store. -/
def blockCopyBad (s : State) (k : Task) (bs4 write : Bool) (d : CopyDesc) : Option (Nat × Nat) :=
  let w := wardOf s (taskWard s k)
  let s0 := d.data + segBytes bs4 * (d.first / 16)
  let n := segBytes bs4 * ((d.first + d.count - 1) / 16 + 1 - d.first / 16)
  if !ctxMapped w k.slot s0 n write then some (kfWardRange, s0 % 2 ^ 48)
  else if !ctxMapped w k.slot (d.scale + 4 * d.first) (4 * d.count) write then some (kfWardRange, (d.scale + 4 * d.first) % 2 ^ 48)
  else if !storeIn k d.storeData (elemBytes bs4 * d.count) then some (kfStoreRange, d.storeData)
  else if !storeIn k d.storeScales d.count then some (kfStoreRange, d.storeScales) else none
/-- The ranges of ward memory that an unpack reads. -/
def unpackReads (bs4 : Bool) (d : CopyDesc) : List (Nat × Nat) :=
  [(d.data + segBytes bs4 * (d.first / 16), segBytes bs4 * ((d.first + d.count - 1) / 16 + 1 - d.first / 16)), (d.scale + 4 * d.first, 4 * d.count)]
/-- What an unpack writes to core store. -/
def unpackWrites (w : Ward) (bs4 : Bool) (d : CopyDesc) : List (Nat × Bytes) :=
  (List.range d.count).flatMap (fun i =>
    let j := d.first + i
    [(d.storeData + elemBytes bs4 * i, wardRead w (blockAddr bs4 d.data j) (elemBytes bs4)),
     (d.storeScales + i, wardRead w (d.scale + 4 * j) 1)])
/-- What a pack writes to ward memory (05 R211). -/
def packWrites (k : Task) (bs4 : Bool) (d : CopyDesc) : List (Nat × Bytes) :=
  let blocks := (List.range d.count).flatMap (fun i =>
    let j := d.first + i
    let tag := natLe 2 (d.tagBase + j)
    [(blockAddr bs4 d.data j, storeRead k (d.storeData + elemBytes bs4 * i) (elemBytes bs4)),
     (tagAddr bs4 d.data j, tag),
     (d.scale + 4 * j, storeRead k (d.storeScales + i) 1 ++ [0] ++ tag)])
  let lastJ := d.first + d.count - 1
  let segs := (List.range (lastJ / 16 + 1 - d.first / 16)).map (fun i =>
    (d.data + segBytes bs4 * (d.first / 16 + i) + 16 * elemBytes bs4 + 32, List.replicate 32 (0 : Byte)))
  let tail := if d.last then (List.range (15 - lastJ % 16)).flatMap (fun i =>
    let j := lastJ + 1 + i
    [(tagAddr bs4 d.data j, [0, 0]), (d.scale + 4 * j, [0, 0, 0, 0])]) else []
  blocks ++ segs ++ tail
/-- MCOPY: asynchronous copy; MOD 0 ward to core store, 1 the reverse, 2–5 block copies. A copy descriptor names no tensor, so the
tensor index of an unpacking copy's SCALE_SKEW report is a free value (03 R107; DESIGN CHOICE, log 89). -/
def execMcopy (t : ThreadRef) (f : KFields) (s : State) : Out :=
  issue 0x86 t f .me 1 s (fun th k s1 =>
    let m := f.mod.toNat
    let w := wardOf s (taskWard s k)
    if !guard0 th f then s1
    else if m ≤ 1 then
      let wa := if m = 0 then rdS th f.a.toNat else rdS th f.b.toNat
      let sa := if m = 0 then rdS th f.b.toNat else rdS th f.a.toNat
      let n := rdS th f.c.toNat
      if n % 16 ≠ 0 then kernelFault th k kfAlign (wa % 2 ^ 48) s
      else orFault th k ((storeBad k sa n 16).orElse (fun _ => wardBad s k wa n 16 (m == 1))) s
        (if m = 0 then beginCopy t k wa [] [(sa, wardRead w wa n)] [(wa, n)] s1
        else beginCopy t k wa [(wa, storeRead k sa n)] [] [] s1)
    else
      let da := rdS th f.a.toNat
      let d := copyDesc (storeRead k da 32)
      let bs4 := m == 3 || m == 5
      if !storeIn k da 32 then kernelFault th k kfStoreRange (da % 2 ^ 48) s
      else if !d.ok then kernelFault th k kfCopyDesc da s
      else if m ≤ 3 then
        match blockCopyBad s k bs4 false d with
        | some (r, x) => kernelFault th k r x s
        | none =>
          match skewOf w bs4 d with
          | some (j, e, dt, st) =>
            let fw := drawFree s
            faultOn k.core k.slot kScaleSkew 0
              (natLe 4 fw.1.toNat ++ natLe 4 j ++ natLe 2 e ++ natLe 2 dt ++ natLe 2 st ++ natLe 4 k.layer) fw.2
          | none => beginCopy t k d.data [] (unpackWrites w bs4 d) (unpackReads bs4 d) s1
      else
        orFault th k (blockCopyBad s k bs4 true d) s (beginCopy t k d.data (packWrites k bs4 d) [] [] s1))

end Sys2Proof.Machine
end

