-- ==== Sys2Proof/Machine/CoreTensor.lean ====
section
/-!
DEFINITION. The tensor-engine instructions of 05 R194, R195: accumulator tiles of 16 × 16, tile products and reads.
The tiles belong to the thread (log 10), and every product takes effect at issue (log 9).
-/
namespace Sys2Proof.Machine

/-- Tile d of a thread: S32 zeros until a TZERO sets it. -/
def tileOf (th : Thread) (d : Nat) : AccTile := tgetD th.tiles d { fp := false, vals := List.replicate 256 0 }
/-- Element (m, n) of a tile. -/
def tileAt (a : AccTile) (m n : Nat) : Nat := (a.vals.getD (16 * m + n) 0).toNat
/-- A tile from its elements. -/
def mkTile (fp : Bool) (g : Nat → Nat → Nat) : AccTile :=
  { fp := fp, vals := (List.range 256).map (fun i => BitVec.ofNat 32 (g (i / 16) (i % 16))) }
/-- TZERO: MOD 0 S32, MOD 1 FP32 +0. -/
def execTzero (t : ThreadRef) (f : KFields) (s : State) : Out :=
  issue 0xC0 t f (.te (if f.mod = 1 then 3 else 0)) 1 s (fun th _ s =>
    if guard0 th f then
      modThread t (fun th => { th with tiles := tput th.tiles f.dst.toNat { fp := f.mod == 1, vals := List.replicate 256 0 } }) s
    else s)
/-- Bits of an element of a format code 0x01–0x08. -/
def codeBits (c : Nat) : Nat := if c = 3 ∨ c = 4 then 4 else if c = 7 ∨ c = 8 then 16 else 8
/-- The integer value of an element code of formats U8, S8, U4, S4. -/
def codeInt (c x : Nat) : Int := if c = 2 then sext 8 x else if c = 4 then sext 4 x else x
/-- Element k of a row of bytes. -/
def elemAt (bits : Nat) (row : Bytes) (k : Nat) : Nat := leNat row / 2 ^ (bits * k) % 2 ^ bits
/-- Bytes of a row of kc elements. -/
def kcBytes (bits kc : Nat) : Nat := cdiv (bits * kc) 8
/-- One integer step: acc plus the products, modulo 2^32. -/
def intStep (ca cb kc : Nat) (acc : Nat) (ra rb : Bytes) : Nat :=
  trunc 32 ((List.range kc).foldl (fun x k =>
    x + codeInt ca (elemAt (codeBits ca) ra k) * codeInt cb (elemAt (codeBits cb) rb k)) (s32 acc))
/-- One floating-point step of 03 R118. -/
def fpStep (fa fb : Fmt) (kc : Nat) (acc : Nat) (ra rb : Bytes) : Nat :=
  accStep acc ((List.range kc).map (fun k =>
    FV.mul (unpack fa (elemAt fa.width ra k)) (unpack fb (elemAt fb.width rb k))))
/-- The TE format class of an operand pair (16 Table 16-9). -/
def teClass (ca cb : Nat) : Nat :=
  if ca = 3 ∨ ca = 4 then (if cb = 3 ∨ cb = 4 then 1 else 0) else if ca ≤ 2 then 0 else if ca ≤ 6 then 2 else 3
/-- TMM: tile d += A × B over one chunk. -/
def execTmm (t : ThreadRef) (f : KFields) (s : State) : Out :=
  let ca := f.imm.toNat / 2 ^ 20
  let cb := f.imm.toNat / 2 ^ 16 % 16
  issue 0xC1 t f (.te (teClass ca cb)) (if codeBits ca = 16 then 64 else if codeBits ca = 4 ∧ codeBits cb = 4 then 8 else 16) s (fun th k s1 =>
    if !guard0 th f then s1
    else
      let c := rdS th f.c.toNat
      let kc := if c / 2 ^ 16 % 32 = 0 then 16 else c / 2 ^ 16 % 32
      let pa := f.imm.toNat % 2 ^ 16
      let pb := c % 2 ^ 16
      let a := fun m => (rdS th f.a.toNat + m * pa) % 2 ^ 64
      let b := fun n => (rdS th f.b.toNat + n * pb) % 2 ^ 64
      let na := kcBytes (codeBits ca) kc
      let nb := kcBytes (codeBits cb) kc
      let bad := (List.range 16).findSome? (fun i => (storeBad k (a i) na 1).orElse (fun _ => storeBad k (b i) nb 1))
      let fp := decide (5 ≤ ca)
      let old := tileOf th f.dst.toNat
      let typeBad := if old.fp != fp then some (kfAccType, 0) else none
      let new := mkTile fp (fun m n =>
        match fmtOf ca, fmtOf cb with
        | some fa, some fb => fpStep fa fb kc (tileAt old m n) (storeRead k (a m) na) (storeRead k (b n) nb)
        | _, _ => intStep ca cb kc (tileAt old m n) (storeRead k (a m) na) (storeRead k (b n) nb))
      orFault th k (typeBad.orElse (fun _ => bad)) s
        (modThread t (fun th => { th with tiles := tput th.tiles f.dst.toNat new }) s1))
/-- One block pair of 03 R119 from the rows of bytes of its elements. -/
def blockStep (ty acc ca cb : Nat) (ra rb : Bytes) : Nat :=
  let bits := if ty = 3 then 4 else 8
  blockPair acc ca cb ((List.range 32).map (fun k => blockMul ty ty (elemAt bits ra k) (elemAt bits rb k)))
/-- TMMB: one block pair of 16 rows and 16 columns, with 32 scale codes at s[c]. Its operands are addressed as for TMM, so the
pitch of B's columns is s[c][15:0] too (DEDUCED, log 57). -/
def execTmmb (t : ThreadRef) (f : KFields) (s : State) : Out :=
  let ty := f.imm.toNat / 2 ^ 16 % 4
  issue 0xC2 t f (.te 4) (if ty = 3 then 16 else 32) s (fun th k s1 =>
    if !guard0 th f then s1
    else
      let pa := f.imm.toNat % 2 ^ 16
      let a := fun m => (rdS th f.a.toNat + m * pa) % 2 ^ 64
      let sc := rdS th f.c.toNat
      let b := fun n => (rdS th f.b.toNat + n * (sc % 2 ^ 16)) % 2 ^ 64
      let nb := if ty = 3 then 16 else 32
      let bad := ((List.range 16).findSome? (fun i => (storeBad k (a i) nb 1).orElse (fun _ => storeBad k (b i) nb 1))).orElse
        (fun _ => storeBad k sc 32 1)
      let old := tileOf th f.dst.toNat
      let typeBad := if !old.fp then some (kfAccType, 0) else none
      let codes := storeRead k sc 32
      let new := mkTile true (fun m n =>
        blockStep ty (tileAt old m n) (codes.getD m 0).toNat (codes.getD (16 + n) 0).toNat (storeRead k (a m) nb) (storeRead k (b n) nb))
      orFault th k (typeBad.orElse (fun _ => bad)) s
        (modThread t (fun th => { th with tiles := tput th.tiles f.dst.toNat new }) s1))
/-- TRD: element (m, n) of the tile to lane 16 × (m mod 2) + n of v[d + ⌊m/2⌋]. -/
def execTrd (t : ThreadRef) (f : KFields) (s : State) : Out :=
  issue 0xC3 t f (.te 0) 8 s (fun th _ s =>
    let a := tileOf th (f.imm.toNat % 8)
    if guard0 th f then
      modThread t (fun th => (List.range 8).foldl (fun acc j =>
        wrV (f.dst.toNat + j) (ofLanes 32 ((List.range 32).map (fun i => tileAt a (2 * j + i / 16) (i % 16)))) acc) th) s
    else s)

end Sys2Proof.Machine
end

