-- ==== Sys2Proof/Machine/Sampler.lean ====
section
/-!
DEFINITION. The sampler engine: the filters of 05 R209 over any source of FP32 texels, the texture descriptors and layouts
of R207 and R208, the texture cache of R210, and SMP.
-/
namespace Sys2Proof.Machine

/-! ## Filters (05 R209) -/

/-- A texel source: width, height, whether taps outside read +0, and the FP32 code of a texel. -/
structure Tex where
  w : Nat
  h : Nat
  border : Bool
  at_ : Nat → Nat → Nat

/-- One tap: clamped to the edge, or +0 outside under BORDER. -/
def Tex.tap (t : Tex) (x y : Int) : Nat :=
  if t.border && (decide (x < 0) || decide ((t.w : Int) ≤ x) || decide (y < 0) || decide ((t.h : Int) ≤ y)) then 0
  else t.at_ (clampI 0 ((t.w : Int) - 1) x).toNat (clampI 0 ((t.h : Int) - 1) y).toNat
/-- A position on an axis of `n` texels as its integer part and fraction; an infinite position lies wholly outside. -/
def axisOf (n : Nat) (x : Nat) : Int × Nat :=
  match unpack fFP32 x with
  | .inf true => (-16, 0)
  | .inf false => ((n : Int) + 16, 0)
  | v => (floorFV v, rne32 (FV.add v (.ofInt (-(floorFV v)) 0)))
/-- The nearest tap on an axis: ⌊RNE32(x + 0.5)⌋. -/
def nearestOf (n : Nat) (x : Nat) : Int := (axisOf n (add32 x half32)).1
/-- lerp of R209. -/
def lerp32 (c0 c1 t : Nat) : Nat := add32 c0 (mul32 t (sub32 c1 c0))
/-- The four Catmull-Rom weights of a fraction. -/
def cubicWeights (t : Nat) : List Nat :=
  let two := int32f 2; let three := int32f 3; let four := int32f 4; let five := int32f 5
  let t2 := mul32 t t
  let t3 := mul32 t2 t
  [mul32 half32 (sub32 (sub32 (mul32 two t2) t3) t),
   mul32 half32 (add32 (sub32 (mul32 three t3) (mul32 five t2)) two),
   mul32 half32 (add32 (sub32 (mul32 four t2) (mul32 three t3)) t),
   mul32 half32 (sub32 t3 t2)]
/-- f of R209: ((w0 c0 + w1 c1) + w2 c2) + w3 c3. -/
def cubicSum (w : List Nat) (c : Int → Nat) (i : Int) : Nat :=
  let m := fun k : Nat => mul32 (w.getD k 0) (c (i - 1 + k))
  add32 (add32 (add32 (m 0) (m 1)) (m 2)) (m 3)
/-- One channel sampled at (x, y): filter 0 nearest, 1 bilinear, 2 bicubic; a NaN position gives the canonical NaN. -/
def sampleTex (t : Tex) (filter x y : Nat) : Nat :=
  if isNaN32 x || isNaN32 y then fFP32.nan
  else if filter = 0 then t.tap (nearestOf t.w x) (nearestOf t.h y)
  else
    let ax := axisOf t.w x
    let ay := axisOf t.h y
    if filter = 1 then
      let row := fun r => lerp32 (t.tap ax.1 r) (t.tap (ax.1 + 1) r) ax.2
      lerp32 (row ay.1) (row (ay.1 + 1)) ay.2
    else
      let wx := cubicWeights ax.2
      cubicSum (cubicWeights ay.2) (fun r => cubicSum wx (fun x => t.tap x r) ax.1) ay.1
/-- The source position of R171 for output index i: RNE32(RNE32(i + 0.5) × RNE32(a / b)). -/
def resamplePos (a b i : Nat) : Nat := mul32 (add32 (int32f i) half32) (ratio32 a b)
/-- RESAMPLE of R171 at output (x, y) of a w × h output. -/
def resampleTex (t : Tex) (filter w h x y : Nat) : Nat :=
  let ux := resamplePos t.w w x
  let uy := resamplePos t.h h y
  if filter = 0 then t.tap (min (floor32 ux) ((t.w : Int) - 1)) (min (floor32 uy) ((t.h : Int) - 1))
  else sampleTex t filter (sub32 ux half32) (sub32 uy half32)

/-! ## Texture descriptors (05 Table 5-7) and layouts (R208) -/

/-- A texture descriptor. -/
structure TexDesc where
  fmt : Nat := 0
  swizzle : Bool := false
  border : Bool := false
  base : Nat := 0
  pitch : Nat := 0
  w : Nat := 0
  h : Nat := 0
  ok : Bool := false
  deriving DecidableEq, Repr
/-- Bytes of a texel and its channels. -/
def texBytes (f : Nat) : Nat := [0, 2, 4, 8, 4, 8, 1, 4].getD f 0
def texChans (f : Nat) : Nat := [0, 1, 2, 4, 1, 2, 1, 4].getD f 0
def texDesc (b : Bytes) : TexDesc :=
  let c := fld b 0 2
  let f := c % 256
  let sw := field c 10 9 == 1
  let base := fld b 8 6
  let pitch := fld b 16 4
  let w := fld b 22 2
  let h := fld b 24 2
  { fmt := f, swizzle := sw, border := c.testBit 11, base := base, pitch := pitch, w := w, h := h,
    ok := decide (1 ≤ f) && decide (f ≤ 7) && decide (field c 10 9 ≤ 1) && !c.testBit 8 && decide (c < 2 ^ 12)
      && allZero (slice b 2 6) && allZero (slice b 14 2) && allZero (slice b 20 2) && allZero (slice b 26 6)
      && decide (1 ≤ w) && decide (1 ≤ h)
      && (if sw then pitch == 0 && base % 4096 == 0 else base % 64 == 0 && pitch % 16 == 0 && decide (w * texBytes f ≤ pitch)) }
/-- The byte offset of texel (x, y) in the SWIZZLE layout. -/
def swizzleOffset (mw e x y : Nat) : Nat :=
  let micro := (y % 64 / 8) * 8 + x % 64 / 8
  let morton := bitN x 0 + 2 * bitN y 0 + 4 * bitN x 1 + 8 * bitN y 1 + 16 * bitN x 2 + 32 * bitN y 2
  ((y / 64 * mw + x / 64) * 4096 + micro * 64 + morton) * e
/-- The ward address of a texel. -/
def texelAddr (d : TexDesc) (x y : Nat) : Nat :=
  let e := texBytes d.fmt
  d.base + (if d.swizzle then swizzleOffset (cdiv d.w 64) e x y else y * d.pitch + x * e)
/-- Bytes of ward memory that a texture spans. -/
def texSpan (d : TexDesc) : Nat :=
  let e := texBytes d.fmt
  if d.swizzle then cdiv d.w 64 * cdiv d.h 64 * 4096 * e else (d.h - 1) * d.pitch + d.w * e
/-- Channel j of a texel's bytes as FP32: FP16 and FP32 exactly, U8 as its integer code. -/
def texelChan (f j : Nat) (b : Bytes) : Nat :=
  if f ≤ 3 then h2f (fld b (2 * j) 2) else if f ≤ 5 then rne32 (unpack fFP32 (fld b (4 * j) 4)) else int32f (fld b j 1)

/-! ## The texture cache (05 R210): 512 lines of 64 bytes, first in first out (log 13) -/

/-- A line as the cache holds it, or as ward memory holds it now. -/
def texLine (c : Core) (w : Ward) (a : Nat) : Bytes :=
  match c.tex.find? (fun l => l.1 == a) with
  | some l => l.2
  | none => wardRead w a 64
/-- Bring lines into the cache in order. -/
def texFill (w : Ward) (lines : List Nat) (c : Core) : Core :=
  lines.foldl (fun c a => if c.tex.any (fun l => l.1 == a) then c else { c with tex := ((a, wardRead w a 64) :: c.tex).take 512 }) c
/-- The bytes of a texel through the cache. -/
def texelBytes (c : Core) (w : Ward) (d : TexDesc) (x y : Nat) : Bytes :=
  let a := texelAddr d x y
  slice (texLine c w (a / 64 * 64)) (a % 64) (texBytes d.fmt)
/-- The texel positions that a filter reads at (x, y). -/
def texTaps (d : TexDesc) (filter x y : Nat) : List (Nat × Nat) :=
  if isNaN32 x || isNaN32 y then []
  else
    let px := if filter = 0 then [nearestOf d.w x] else
      (List.range (if filter = 1 then 2 else 4)).map (fun k => (axisOf d.w x).1 + k - (if filter = 1 then 0 else 1))
    let py := if filter = 0 then [nearestOf d.h y] else
      (List.range (if filter = 1 then 2 else 4)).map (fun k => (axisOf d.h y).1 + k - (if filter = 1 then 0 else 1))
    py.flatMap (fun (j : Int) => (px.filter (fun (i : Int) => !d.border || (decide (0 ≤ i) && decide (i < d.w) && decide (0 ≤ j) && decide (j < d.h)))).map
      (fun (i : Int) => ((clampI 0 ((d.w : Int) - 1) i).toNat, (clampI 0 ((d.h : Int) - 1) j).toNat)))
/-- Cycles that SMP occupies the SE: 32 samples at the rate of its filter (05 Table 5-1). -/
def smpCycles (filter : Nat) : Nat := if filter = 0 then 2 else if filter = 1 then 4 else 16
/-- SMP (an uncorrectable line among those it brings in tears the context down, 15 R482): 32 samples of a texture, channel j to
v[d + j]; the enabled lanes are written. -/
def execSmp (t : ThreadRef) (f : KFields) (s : State) : Out :=
  issue 0xD0 t f .se (smpCycles f.mod.toNat) s (fun th k s1 =>
    let g := guardOf th f
    let da := rdS th f.a.toNat
    let d := texDesc (storeRead k da 32)
    let w := wardOf s (taskWard s k)
    let lanes := (List.range 32).filter (fun i => g.testBit i)
    if lanes = [] then s1
    else if !storeIn k da 32 then kernelFault th k kfStoreRange (da % 2 ^ 48) s
    else if !d.ok then kernelFault th k kfTexDesc da s
    else if !ctxMapped w k.slot d.base (texSpan d) false then kernelFault th k kfWardRange d.base s
    else
      let pos := fun i => (lane 32 (rdV th f.b.toNat) i, lane 32 (rdV th f.c.toNat) i)
      let lines := lanes.flatMap (fun i => (texTaps d f.mod.toNat (pos i).1 (pos i).2).map (fun p => texelAddr d p.1 p.2 / 64 * 64))
      let old := coreOf s t.core
      match (lines.filter (fun l => !old.tex.any (fun y => y.1 == l))).findSome? (fun l => poisonIn w l 64) with
      | some l => uncorrectable k.slot 0x01 l t.core s1
      | none =>
      let c := texFill w lines old
      let tex := fun j : Nat => ({ w := d.w, h := d.h, border := d.border, at_ := fun x y => texelChan d.fmt j (texelBytes c w d x y) } : Tex)
      let distinct := lines.dedup
      let hits := (distinct.filter (fun l => old.tex.any (fun x => x.1 == l))).length
      let fills := distinct.length - hits
      let who := some (whoOf k)
      let chans := min (texChans d.fmt) (k.vregs - f.dst.toNat)
      vaultTraffic t.core k (taskWard s k) d.base fills false (tally t.core 0x030 hits who (tally t.core 0x031 fills who
        (modThread t (fun th => (List.range chans).foldl (fun th j =>
            wrLanes 32 g (f.dst.toNat + j) (fun i => sampleTex (tex j) f.mod.toNat (pos i).1 (pos i).2) th) th)
          (modCore t.core (fun x => { x with tex := c.tex }) s1)))))

end Sys2Proof.Machine
end

