-- ==== Sys2Proof/Machine/Layers.lean ====
section
/-!
DEFINITION. The exact result of every operator of a network (04 R153–R180 over 03 R109–R131): tensor values, products and
their epilogues, pooling, resampling, rearrangement, normalisation, element-wise operators, conversion with its counts and
scales, box decode and suppression.
-/
namespace Sys2Proof.Machine

/-! ## Values of tensors -/

/-- Where a tile-scope tensor lies in the frame: its first element and the frame's extent at its resolution. Elements
outside the frame are not computed (04 R156); `whole` says that every element is present. -/
structure Ext where
  whole : Bool := true
  ox : Int := 0
  oy : Int := 0
  fw : Nat := 0
  fh : Nat := 0
  deriving DecidableEq, Repr
def Ext.has (e : Ext) (y x : Nat) : Bool :=
  e.whole || (decide (0 ≤ e.ox + x) && decide (e.ox + x < e.fw) && decide (0 ≤ e.oy + y) && decide (e.oy + y < e.fh))

/-- What a network's layers are evaluated against. -/
structure NEnv where
  img : Bytes
  ts : List Tensor
  ls : List Layer
  qp : Bytes
  ep : Bytes
  ws : Bytes
  /-- The adapter elements in force, BF16 codes by element index. -/
  adapters : List Nat
  /-- The largest history entry of a delayed tensor; none when every entry is +0 (03 R128). -/
  hist : Nat → Option Nat
  /-- The saturation-fraction setting k of 03 R129. -/
  satK : Nat
  vals : Table TVal
  exts : Table Ext
/-- Environment of an image with no tensors computed. -/
def envOf (b : Bytes) (adapters : List Nat) (hist : Nat → Option Nat) (satK : Nat) : NEnv :=
  { img := b, ts := tensorsOf b, ls := layersOf b, qp := imgBytes b 0x05, ep := imgBytes b 0x06, ws := imgBytes b 0x07,
    adapters := adapters, hist := hist, satK := satK, vals := [], exts := [] }
def NEnv.t (e : NEnv) (i : Nat) : Tensor := tn e.ts i
def NEnv.ext (e : NEnv) (i : Nat) : Ext := tgetD e.exts i {}

/-! ## Streams (03 R100, R105) -/

/-- The element codes of a data stream. -/
def codesOf (t : Tensor) (data : Bytes) : List Nat :=
  if isBlock t.fmt then
    let bs4 := t.fmt == 0x0E
    let nb := cdiv t.c 32
    (List.range (t.h * t.w * t.c)).map (fun i =>
      let j := i / t.c * nb + i % t.c / 32
      codeAt (if bs4 then 4 else 2) (slice data (blockAddr bs4 0 j) (elemBytes bs4)) (i % t.c % 32))
  else (List.range (t.h * t.w)).flatMap (fun p => let r := rowBytes t data p; (List.range t.c).map (codeAt t.fmt r))
/-- The first block of a block-scaled tensor whose tags in its two streams disagree with the expected one (03 R107). -/
def streamSkew (t : Tensor) (data scale : Bytes) : Option (Nat × Nat × Nat × Nat) :=
  if isBlock t.fmt then
    (List.range (blocksOf t)).findSome? (fun j =>
      let x := (t.tag + j) % 65536
      let dt := fld data (tagAddr (t.fmt == 0x0E) 0 j) 2
      let st := fld scale (4 * j + 2) 2
      if dt = x ∧ st = x then none else some (j, x, dt, st))
  else none
/-- The value of a tensor from its data and scale streams (03 R100, R104, R105). -/
def valOf (t : Tensor) (data scale : Bytes) : TVal :=
  { data := codesOf t data, skew := streamSkew t data scale,
    scales := if isBlock t.fmt then (List.range (blocksOf t)).map (fun j => fld scale (4 * j) 1) else [] }
/-- The value of a tensor from its data stream followed by its scale stream. -/
def valOfStreams (t : Tensor) (b : Bytes) : TVal := valOf t (slice b 0 (tensorBytes t)) (slice b (tensorBytes t) (scaleBytes t))
/-- The value of a constant tensor. -/
def constVal (e : NEnv) (t : Tensor) : TVal := valOf t (slice e.ws t.dataOff t.dataBytes) (slice e.ws t.scaleOff (4 * blocksOf t))
/-- The value of a tensor: its constant, or what has been bound or computed. -/
def NEnv.val (e : NEnv) (i : Nat) : TVal := if (e.t i).const then constVal e (e.t i) else tgetD e.vals i {}
/-- The first mismatch that a layer's own reads meet: the tensor and the tags; a CUSTOM layer's kernel checks what it copies
(03 R107). -/
def layerSkew (e : NEnv) (l : Layer) : Option (Nat × Nat × Nat × Nat × Nat) :=
  if l.op = 15 then none else (layerReads l).findSome? (fun i => (e.val i).skew.map (fun x => (i, x)))
/-- Two 4-bit codes to a byte (03 R100). -/
def nibbles (n : Nat) (es : List Nat) : Bytes :=
  (List.range n).map (fun k => BitVec.ofNat 8 (es.getD (2 * k) 0 % 16 + 16 * (es.getD (2 * k + 1) 0 % 16)))
/-- The data and scale streams of a tensor value (03 R100, R104–R106): an odd row of 4-bit codes ends with the zero point, that of
the last channel where each has its own (DESIGN CHOICE, log 62), and a final segment with zero entries and tags. -/
def streamsOf (qp : Bytes) (t : Tensor) (v : TVal) : Bytes × Bytes :=
  if isBlock t.fmt then
    let bs4 := t.fmt == 0x0E
    let nb := cdiv t.c 32
    let n := blocksOf t
    let blockBytes := fun j =>
      let es := (List.range 32).map (fun i =>
        let ch := j % nb * 32 + i
        if ch < t.c then v.data.getD (j / nb * t.c + ch) 0 else 0)
      if bs4 then nibbles 16 es else es.map (fun x => BitVec.ofNat 8 x)
    let seg := fun k =>
      ((List.range 16).flatMap (fun i => if 16 * k + i < n then blockBytes (16 * k + i) else List.replicate (elemBytes bs4) 0)) ++
      ((List.range 16).flatMap (fun i => natLe 2 (if 16 * k + i < n then t.tag + 16 * k + i else 0))) ++ List.replicate 32 0
    ((List.range (cdiv n 16)).flatMap seg,
     (List.range (16 * cdiv n 16)).flatMap (fun j => if j < n then natLe 1 (v.scales.getD j 0) ++ [0] ++ natLe 2 (t.tag + j) else natLe 4 0))
  else
    let w := fmtBits t.fmt
    let pad := trunc 4 (qOf qp t (t.c - 1)).zero
    let row := fun p =>
      let es := (List.range t.c).map (fun i => v.data.getD (p * t.c + i) 0)
      if w = 4 then nibbles (cdiv t.c 2) (es ++ [pad]) else es.flatMap (natLe (w / 8))
    ((List.range (t.h * t.w)).flatMap row, [])

/-! ## Elements -/

/-- The code at (y, x, ch). -/
def elem (t : Tensor) (v : TVal) (y x ch : Nat) : Nat := v.data.getD ((y * t.w + x) * t.c + ch) 0
/-- The scale code of the block of (y, x, ch). -/
def elemScale (t : Tensor) (v : TVal) (y x ch : Nat) : Nat := v.scales.getD ((y * t.w + x) * cdiv t.c 32 + ch / 32) 0
/-- The QPARAMS entry of an index of a tensor's channel axis. -/
def NEnv.q (e : NEnv) (t : Tensor) (n : Nat) : QPar := qOf e.qp t n
/-- The scale of a floating-point tensor (03 R103, R128). -/
def NEnv.scaleOf (e : NEnv) (i n : Nat) : Nat :=
  let t := e.t i
  if t.delayed then rne32 (.fin false 1 (((e.val i).dcode : Int) - 127)) else if isBlock t.fmt then one32 else (e.q t n).scale
/-- An element as FP32 (04 R175): integers dequantised, blocks scaled, floating-point values converted exactly. `scale` is the
scale code of the element's block, or of a delayed tensor, whose element x represents x × 2^(c − 127) (03 R103, R128; DEDUCED,
log 63). -/
def deqCode (e : NEnv) (t : Tensor) (n code scale : Nat) : Nat :=
  if isIntS t.fmt then rne32 (FV.mul (.ofInt (codeVal t.fmt code - (e.q t n).zero) 0) (unpack fFP32 (e.q t n).scale))
  else if isBlock t.fmt then (if scale = 0xFF then fFP32.nan else rne32 ((blockVal (blockTy t.fmt) code).scale ((scale : Int) - 127)))
  else match fmtOf t.fmt with
    | some f => rne32 (if t.delayed then (unpack f code).scale ((scale : Int) - 127) else unpack f code)
    | none => 0
/-- The scale code that goes with the element at (y, x, ch): its block's, or the tensor's delayed one. -/
def scaleAt (t : Tensor) (v : TVal) (y x ch : Nat) : Nat := if isBlock t.fmt then elemScale t v y x ch else v.dcode
def NEnv.deq (e : NEnv) (i y x ch : Nat) : Nat :=
  let t := e.t i
  let v := e.val i
  deqCode e t ch (elem t v y x ch) (scaleAt t v y x ch)

/-! ## Activations (04 Table 4-13, R154) -/

def log2e32 : Nat := 0x3FB8AA3B
def exp2_32 (x : Nat) : Nat := rne32 (FV.exp2 (unpack fFP32 x))
def rcp32 (x : Nat) : Nat := rne32 (FV.rcp (unpack fFP32 x))
def rsqrt32 (x : Nat) : Nat := rne32 (FV.rsqrt (unpack fFP32 x))
def sigmoid32 (x : Nat) : Nat := rcp32 (add32 one32 (exp2_32 (mul32 (neg32 x) log2e32)))
def tanh32 (x : Nat) : Nat := sub32 (mul32 (int32f 2) (sigmoid32 (mul32 (int32f 2) x))) one32
/-- The floating-point form of an activation. -/
def actFp (act param x : Nat) : Nat :=
  if act = 1 then max32 x 0
  else if act = 2 then min32 (max32 x 0) param
  else if act = 3 then (if isNaN32 x then fFP32.nan else if le32 0 x then x else mul32 x param)
  else if act = 4 then sigmoid32 x
  else if act = 5 then tanh32 x
  else if act = 6 then mul32 x (sigmoid32 x)
  else if act = 7 then mul32 x (sigmoid32 (mul32 0x3FD9DB23 x))
  else x
/-- The integer form, on a value before the clamp, as a code value. -/
def actInt (e : NEnv) (l : Layer) (t : Tensor) (n : Nat) (y : Int) : Int :=
  let q := e.q t n
  let r := codeRange t.fmt
  if l.act = 1 then max y q.zero
  else if l.act = 2 then
    let hi := clampI r.1 r.2 (rneInt (unpack fFP32 (mul32 l.actParam q.recip)) + q.zero)
    min (max y q.zero) hi
  else if l.act = 8 then
    let k := (clampI r.1 r.2 y - r.1).toNat
    codeVal t.fmt (fld (imgBytes e.img 0x08) (256 * l.lut + k) 1)
  else y

/-! ## Products (03 R109–R120; 04 R164–R167) -/

/-- Geometry of a CONV2D, MATMUL or pooling layer. -/
structure Geo where
  kh : Nat := 1
  kw : Nat := 1
  sy : Nat := 1
  sx : Nat := 1
  dy : Nat := 1
  dx : Nat := 1
  pt : Nat := 0
  pl : Nat := 0
  cg : Nat := 1
  og : Nat := 1
  deriving DecidableEq, Repr
def geoOf (ts : List Tensor) (l : Layer) : Geo :=
  let x := tn ts l.in0; let z := tn ts l.out
  if l.op = 2 then { cg := x.c, og := max 1 z.c }
  else
    let g := if l.op = 1 then max 1 (pGroups l) else 1
    { kh := pKH l, kw := pKW l, sy := pSY l, sx := pSX l, dy := pDY l, dx := pDX l, pt := pPT l, pl := pPL l,
      cg := x.c / g, og := max 1 (z.c / g) }
/-- The input position of a tap of output (y, x): none for a padded tap. -/
def tapAt (t : Tensor) (ex : Ext) (g : Geo) (y x ky kx : Nat) : Option (Nat × Nat) :=
  let iy : Int := (y * g.sy : Nat) - (g.pt : Int) + (ky * g.dy : Nat)
  let ix : Int := (x * g.sx : Nat) - (g.pl : Int) + (kx * g.dx : Nat)
  if 0 ≤ iy ∧ iy < t.h ∧ 0 ≤ ix ∧ ix < t.w ∧ ex.has iy.toNat ix.toNat then some (iy.toNat, ix.toNat) else none
/-- The taps of the patch row of output (y, x) and channel n: (position or padded, channel), in order of k. -/
def patch_ (e : NEnv) (l : Layer) (y x n : Nat) : List (Option (Nat × Nat) × Nat) :=
  let g := geoOf e.ts l
  let t := e.t l.in0
  let c0 := n / g.og * g.cg
  (List.range g.kh).flatMap (fun ky => (List.range g.kw).flatMap (fun kx =>
    let p := tapAt t (e.ext l.in0) g y x ky kx
    (List.range g.cg).map (fun c => (p, c0 + c))))
/-- Codes of a patch row: a padded tap gives z_x for integers and the code of +0 otherwise (04 R165). -/
def patchCodes (e : NEnv) (l : Layer) (y x n : Nat) : List Nat :=
  let t := e.t l.in0
  let v := e.val l.in0
  let pad := if isInt t.fmt then trunc (fmtBits t.fmt) (e.q t 0).zero else 0
  (patch_ e l y x n).map (fun p => match p.1 with | some (iy, ix) => elem t v iy ix p.2 | none => pad)
/-- Weight codes of output channel n, in order of k. -/
def weightCodes (e : NEnv) (l : Layer) (n k : Nat) : List Nat :=
  let t := e.t l.in1
  let v := e.val l.in1
  (List.range k).map (fun i => elem t v 0 n i)
/-- Consecutive pieces of `n` elements. -/
def chunksN {α : Type} (n : Nat) : Nat → List α → List (List α)
  | 0, _ => []
  | _ + 1, [] => []
  | k + 1, x :: r => ((x :: r).take n) :: chunksN n k ((x :: r).drop n)
/-- A chunked sum of exact terms in chunks of 16 (03 R118, 04 R169). -/
def csumFV (xs : List FV) : Nat := (chunksN 16 xs.length xs).foldl accStep 0
/-- The chunked sum of FP32 terms. -/
def csum (xs : List Nat) : Nat := csumFV (xs.map (unpack fFP32))
/-- The corrected integer accumulator of 03 R113, before the bias, as a 32-bit pattern. -/
def intAcc (e : NEnv) (l : Layer) (y x n : Nat) : Nat :=
  let tx := e.t l.in0; let tw := e.t l.in1
  let xs := (patchCodes e l y x n).map (codeVal tx.fmt)
  let ws := (weightCodes e l n xs.length).map (codeVal tw.fmt)
  let zx := (e.q tx 0).zero
  let zw := (e.q tw n).zero
  let p := (List.zipWith (· * ·) xs ws).foldl (· + ·) 0
  trunc 32 (p - zw * xs.foldl (· + ·) 0 - zx * ws.foldl (· + ·) 0 + xs.length * zx * zw)
/-- The FP32 accumulator of 03 R118. -/
def fpAcc (e : NEnv) (l : Layer) (y x n : Nat) : Nat :=
  let tx := e.t l.in0; let tw := e.t l.in1
  match fmtOf tx.fmt, fmtOf tw.fmt with
  | some fx, some fw =>
    let xs := patchCodes e l y x n
    csumFV (List.zipWith (fun a b => FV.mul (unpack fx a) (unpack fw b)) xs (weightCodes e l n xs.length))
  | _, _ => 0
/-- The FP32 accumulator of 03 R119: block pairs in order along k; a block of padded taps is zeros under code 0. -/
def blockAcc (e : NEnv) (l : Layer) (y x n : Nat) : Nat :=
  let tx := e.t l.in0; let tw := e.t l.in1
  let vx := e.val l.in0; let vw := e.val l.in1
  let taps := patch_ e l y x n
  (List.range (cdiv taps.length 32)).foldl (fun acc j =>
    let row := (taps.drop (32 * j)).take 32
    let ca := match row with
      | (some (iy, ix), c) :: _ => elemScale tx vx iy ix c
      | _ => 0
    let cb := elemScale tw vw 0 n (32 * j)
    let terms := (List.range 32).map (fun i =>
      let a := match row.getD i (none, 0) with
        | (some (iy, ix), c) => elem tx vx iy ix c
        | (none, _) => 0
      blockMul (blockTy tx.fmt) (blockTy tw.fmt) a (if i < row.length then elem tw vw 0 n (32 * j + i) else 0))
    blockPair acc ca cb terms) 0

/-! ## Adapters (08 R291, R292) -/

/-- The attachment of a layer of the image. -/
def attachOf (e : NEnv) (layer : Nat) : Option Attach := (attaches e.img).find? (fun a => a.layer == layer)
/-- An adapter element as FP32, exact from BF16. -/
def NEnv.ad (e : NEnv) (i : Nat) : Nat := rne32 (unpack fBF16 (e.adapters.getD i 0))
/-- x_real of 08 R292: the dequantised patch row, +0 at padded taps. -/
def patchReal (e : NEnv) (l : Layer) (y x n : Nat) : List Nat :=
  (patch_ e l y x n).map (fun p => match p.1 with | some (iy, ix) => e.deq l.in0 iy ix p.2 | none => 0)
/-- u[m][j]. -/
def adapterU (e : NEnv) (a : Attach) (xs : List Nat) (j : Nat) : Nat :=
  csum ((List.range a.k).map (fun k => mul32 (xs.getD k 0) (e.ad (a.base + k * a.rank + j))))
/-- δ[m][n]. -/
def adapterDelta (e : NEnv) (a : Attach) (us : List Nat) (n : Nat) : Nat :=
  mul32 a.alpha (csum ((List.range a.rank).map (fun j => mul32 (us.getD j 0) (e.ad (a.base + a.k * a.rank + j * a.n + n)))))

/-! ## What an operator gives for one element, before its conversion -/

/-- Nothing, at a position outside the frame (04 R156); a code copied unchanged with its scale code; an integer value before its
clamp; or an FP32 value. -/
inductive Pre where
  | skip
  | code (c scale : Nat)
  | int (y : Int)
  | fp (x : Nat)
  deriving DecidableEq, Repr

/-- Requantise an accumulator by 03 R115. -/
def requantPre (e : NEnv) (l : Layer) (n acc : Nat) : Pre :=
  let t := e.t l.out
  let p := epiAt e.ep (epiIndex e.ts l n)
  .int (actInt e l t n (requantQ (s32 acc) p.mul p.shift + (e.q t n).zero))
/-- CONV2D and MATMUL. -/
def prePro (e : NEnv) (idx : Nat) (l : Layer) (y x n : Nat) : Pre :=
  let tx := e.t l.in0; let tz := e.t l.out
  let p := epiAt e.ep (epiIndex e.ts l n)
  let int := isInt tx.fmt
  let acc := if int then intAcc e l y x n else if isBlock tx.fmt then blockAcc e l y x n else fpAcc e l y x n
  let biased := if int && !l.fpBias && isIntS tz.fmt then (acc + p.bias) % 2 ^ 32 else acc
  if requantises e.ts l then requantPre e l n biased
  else
    let y0 := if int then mul32 (int32f (s32 biased)) p.sc else mul32 acc (mul32 (e.scaleOf l.in0 0) (e.scaleOf l.in1 n))
    let y1 := if l.fpBias then add32 y0 p.bias else y0
    let y2 := match if l.adapter then attachOf e idx else none with
      | some a =>
        let xs := patchReal e l y x n
        add32 y1 (adapterDelta e a ((List.range a.rank).map (adapterU e a xs)) n)
      | none => y1
    .fp (actFp l.act l.actParam y2)
/-- POOL_MAX and POOL_AVG (04 R170). An integer average under a floating-point output is scaled by SC (DESIGN CHOICE, log 64). -/
def prePool (e : NEnv) (l : Layer) (y x n : Nat) : Pre :=
  let t := e.t l.in0
  let v := e.val l.in0
  let g := geoOf e.ts l
  let taps := (List.range g.kh).flatMap (fun ky => (List.range g.kw).filterMap (fun kx => tapAt t (e.ext l.in0) g y x ky kx))
  let codes := taps.map (fun p => elem t v p.1 p.2 n)
  if l.op = 3 then
    match taps with
    | [] => .skip
    | p :: r =>
      if isIntS t.fmt then .int (actInt e l (e.t l.out) n (r.foldl (fun a q => max a (codeVal t.fmt (elem t v q.1 q.2 n))) (codeVal t.fmt (elem t v p.1 p.2 n))))
      else .fp (actFp l.act l.actParam (r.foldl (fun a q => max32 a (e.deq l.in0 q.1 q.2 n)) (e.deq l.in0 p.1 p.2 n)))
  else if isIntS t.fmt then
    let acc := trunc 32 ((codes.map (fun c => codeVal t.fmt c - (e.q t n).zero)).foldl (· + ·) 0)
    if isIntS (e.t l.out).fmt then requantPre e l n acc
    else .fp (actFp l.act l.actParam (mul32 (int32f (s32 acc)) (epiAt e.ep (epiIndex e.ts l n)).sc))
  else
    let count := if pCountPad l then g.kh * g.kw else taps.length
    .fp (actFp l.act l.actParam (div32 (csum (taps.map (fun p => e.deq l.in0 p.1 p.2 n))) (int32f count)))
/-- The first and last place along an axis of a tensor that lies in the frame. -/
def inFrame (whole : Bool) (o : Int) (f n : Nat) : Int × Int :=
  if whole then (0, (n : Int) - 1) else (max 0 (-o), min ((n : Int) - 1) ((f : Int) - 1 - o))
/-- The columns and rows of tensor i that lie in the frame. -/
def NEnv.cols (e : NEnv) (i : Nat) : Int × Int := let x := e.ext i; inFrame x.whole x.ox x.fw (e.t i).w
def NEnv.rows (e : NEnv) (i : Nat) : Int × Int := let x := e.ext i; inFrame x.whole x.oy x.fh (e.t i).h
/-- An element with addressing clamped to the tensor and to the frame edge (04 R156, R171, R174). -/
def NEnv.clamped (e : NEnv) (i : Nat) (y x : Int) (ch : Nat) : Nat :=
  let c := e.cols i; let r := e.rows i
  e.deq i (clampI r.1 r.2 y).toNat (clampI c.1 c.2 x).toNat ch
/-- A tensor's channel as a texel source. -/
def texOf (e : NEnv) (i ch : Nat) (border : Bool) : Tex :=
  { w := (e.t i).w, h := (e.t i).h, border := border, at_ := fun x y => e.clamped i y x ch }
/-- WARP (04 R172). -/
def preWarp (e : NEnv) (l : Layer) (y x n : Nat) : Nat :=
  let vx := e.deq l.in1 y x 0; let vy := e.deq l.in1 y x 1
  if isNaN32 vx || isNaN32 vy then fFP32.nan
  else
    let px := sub32 (int32f x) (mul32 (pF l) vx)
    let py := sub32 (int32f y) (mul32 (pF l) vy)
    let out := fun (p : Nat) (r : Int × Int) => lt32 p (sub32 (int32f r.1) half32) || lt32 (add32 (int32f r.2) half32) p
    if pEdge l && (out px (e.cols l.in0) || out py (e.rows l.in0)) then 0 else sampleTex (texOf e l.in0 n false) (pFilter l) px py
/-- NORM (04 R176). -/
def preNorm (e : NEnv) (l : Layer) (y x n : Nat) : Nat :=
  let t := e.t l.in0
  let cg := t.c / max 1 (pNormGroups l)
  let all := (List.range t.h).flatMap (fun y => (List.range t.w).map (fun x => (y, x)))
  let xs := if pMode l = 0 then (List.range t.c).map (fun c => e.deq l.in0 y x c)
    else if pMode l = 1 then all.map (fun p => e.deq l.in0 p.1 p.2 n)
    else all.flatMap (fun p => (List.range cg).map (fun c => e.deq l.in0 p.1 p.2 (n / cg * cg + c)))
  let cnt := int32f xs.length
  let mean := div32 (csum xs) cnt
  let ds := xs.map (fun v => sub32 v mean)
  let var := div32 (csum (ds.map (fun d => mul32 d d))) cnt
  let inv := rsqrt32 (add32 var (pF l))
  let p := epiAt e.ep (epiIndex e.ts l n)
  add32 (mul32 (mul32 (sub32 (e.deq l.in0 y x n) mean) inv) p.gamma) p.beta
/-- ELTWISE on a pair. -/
def eltOp (k a b : Nat) : Nat :=
  if k = 0 then add32 a b else if k = 1 then sub32 a b else if k = 2 then mul32 a b else if k = 3 then max32 a b else min32 a b
/-- PYRAMID_DOWN (04 R174): clamped reads of the four pixels. -/
def prePyr (e : NEnv) (l : Layer) (y x n : Nat) : Nat :=
  let r := fun (yy xx : Nat) => e.clamped l.in0 yy xx n
  mul32 (add32 (add32 (r (2 * y) (2 * x)) (r (2 * y) (2 * x + 1))) (add32 (r (2 * y + 1) (2 * x)) (r (2 * y + 1) (2 * x + 1)))) 0x3E800000
/-- An input of CONCAT, placed from channel `off` of the output, has the output's format, scale and zero point (04 R177). -/
def concatSame (e : NEnv) (a b : Tensor) (off : Nat) : Bool :=
  a.fmt == b.fmt && !a.delayed && !b.delayed && (!isBlock a.fmt || off % 32 == 0) && (List.range a.c).all (fun k =>
    (e.q a k).scale == (e.q b (off + k)).scale && (e.q a k).zero == (e.q b (off + k)).zero)
/-- A code of input i at (y, x, ch), with its scale code. -/
def preCopy (e : NEnv) (i y x ch : Nat) : Pre :=
  let t := e.t i
  let v := e.val i
  .code (elem t v y x ch) (scaleAt t v y x ch)
/-- One element of a layer's output before its conversion. Every operator applies its layer's ACTIVATION but those that copy codes
unchanged (DESIGN CHOICE, log 65). -/
def preOf (e : NEnv) (idx : Nat) (l : Layer) (y x n : Nat) : Pre :=
  let tx := e.t l.in0; let tz := e.t l.out
  let fp := fun v => Pre.fp (actFp l.act l.actParam v)
  match l.op with
  | 1 | 2 => prePro e idx l y x n
  | 3 | 4 => prePool e l y x n
  | 5 => fp (resampleTex (texOf e l.in0 n false) (pFilter l) tz.w tz.h x y)
  | 6 => fp (preWarp e l y x n)
  | 7 => let b := max 1 (pBlock l); preCopy e l.in0 (y / b) (x / b) ((y % b * b + x % b) * tz.c + n)
  | 8 => let b := max 1 (pBlock l); preCopy e l.in0 (y * b + n / tx.c / b) (x * b + n / tx.c % b) (n % tx.c)
  | 9 => fp (preNorm e l y x n)
  | 10 =>
    let ty := e.t l.in1
    let one := ty.h == 1 && ty.w == 1
    fp (eltOp (pOp l) (e.deq l.in0 y x n) (e.deq l.in1 (if one then 0 else y) (if one then 0 else x) n))
  | 11 =>
    let i := if n < tx.c then l.in0 else l.in1
    let ch := if n < tx.c then n else n - tx.c
    let t := e.t i
    if concatSame e t tz (n - ch) then preCopy e i y x ch else fp (e.deq i y x ch)
  | 12 => fp (e.deq l.in0 y x n)
  | 16 => fp (prePyr e l y x n)
  | _ => .code 0 0

/-! ## Conversion, counts and scales (03 R121–R131) -/

/-- What the conversion of a tensor gives. -/
structure EncRes where
  val : TVal := {}
  sat : Nat := 0
  nan : Nat := 0
  amax : Nat := 0
  recompute : Bool := false
  /-- Which elements saturated, for training (08 R306). -/
  satAt : List Bool := []
  deriving DecidableEq, Repr
/-- The element conversion of one value: code, saturated, NaN. An S32 output is an integer code with the tensor's scale and zero
point, 1 and 0 without QPARAMS (DESIGN CHOICE, log 66); a position that is not computed holds the padding code of 04 R165. -/
def encElem (e : NEnv) (l : Layer) (t : Tensor) (dcode n : Nat) : Pre → Conv
  | .skip => { code := if isInt t.fmt then trunc (fmtBits t.fmt) (e.q t n).zero else 0 }
  | .code c _ => { code := c }
  | .int y =>
    let r := codeRange t.fmt
    { code := trunc (fmtBits t.fmt) (clampI r.1 r.2 y), sat := decide (y < r.1) || decide (r.2 < y) }
  | .fp x =>
    if isIntS t.fmt then
      let q := e.q t n
      let r := codeRange t.fmt
      let y := quantise r.1 r.2 q.zero q.recip x
      let y' := if l.act = 8 then actInt e l t n y else y
      let big := match unpack fFP32 (mul32 x q.recip) with
        | .nan => false
        | .inf _ => true
        | v => decide (rneInt v + q.zero < r.1) || decide (r.2 < rneInt v + q.zero)
      { code := trunc (fmtBits t.fmt) y', sat := big && !isNaN32 x, nan := isNaN32 x }
    else match fmtOf t.fmt with
      | some f =>
        let v := unpack fFP32 x
        let v' := if t.delayed then v.scale (127 - (dcode : Int)) else v
        convert f (!t.satOff && t.fmt != 9) v'
      | none => { code := 0, nan := isNaN32 x, sat := match unpack fFP32 x with | .inf _ => true | _ => false }
/-- FP32 values entering conversion. -/
def preFp (e : NEnv) (t : Tensor) (n : Nat) : Pre → Nat
  | .fp x => x
  | .int _ => 0
  | .skip => 0
  | .code c s => deqCode e t n c s
/-- The largest finite magnitude among the values entering conversion, as FP32 (03 R128). -/
def amaxOf (xs : List Nat) : Nat := rne32 (amaxFV (xs.map (unpack fFP32)))
/-- The delayed scale code of a magnitude (03 R126 step 3). -/
def delayedCode (fmt a : Nat) : Nat := scaleCode (blockMax (if fmt = 5 then 1 else 2)) (unpack fFP32 a)
/-- Convert plain elements under a delayed scale code. -/
def encPlain (e : NEnv) (l : Layer) (t : Tensor) (dcode : Nat) (pres : List Pre) : EncRes :=
  let cs := (List.range pres.length).map (fun i => encElem e l t dcode (i % max 1 t.c) (pres.getD i (.code 0 0)))
  { val := { data := cs.map (·.code), dcode := dcode }, sat := (cs.filter (·.sat)).length, nan := (cs.filter (·.nan)).length,
    satAt := cs.map (·.sat) }
/-- Convert the elements of whole positions into blocks; copied blocks keep their scale codes (03 R126; 04 R173). The elements of a
block of scale code 0xFF get code 0 (DESIGN CHOICE, log 67). -/
def encBlocks (e : NEnv) (t : Tensor) (pres : List Pre) : EncRes :=
  let ty := blockTy t.fmt
  let rows := chunksN (max 1 t.c) pres.length pres
  let blocks := rows.flatMap (fun r => chunksN 32 r.length r)
  let one := fun (b : List Pre) =>
    match b with
    | Pre.code _ s :: _ => (s, b.map (fun p => match p with | Pre.code c _ => c | _ => 0))
    | Pre.skip :: _ => (0, b.map (fun _ => 0))
    | _ =>
      let xs := b.map (preFp e t 0)
      let c := blockCode ty xs
      (c, xs.map (fun x => if c = 0xFF then 0 else blockElem ty c x))
  let bs := blocks.map one
  let xs := pres.map (fun p => match p with | .fp x => x | _ => 0)
  { val := { data := bs.flatMap (·.2), scales := bs.map (·.1) },
    sat := (xs.filter (fun x => match unpack fFP32 x with | .inf _ => true | _ => false)).length, nan := (xs.filter isNaN32).length,
    satAt := xs.map (fun x => match unpack fFP32 x with | .inf _ => true | _ => false) }
/-- Must a tensor written with a delayed code be computed again (03 R129)? -/
def mustRecompute (e : NEnv) (t : Tensor) (n sat amax dcode : Nat) : Bool :=
  let lim := blockMax (if t.fmt = 5 then 1 else 2)
  decide (n < sat * 2 ^ e.satK) ||
    (lt32 0 amax && FV.lt ((unpack fFP32 amax).scale (127 - (dcode : Int))) (lim.scale (-4)))
/-- Convert a layer's elements: block scales, delayed scales with their check and recompute, or plainly. A recompute counts the
saturations and NaNs of its own pass only (DESIGN CHOICE, log 68); codes that are copied keep the delayed scale of their input,
with nothing to check (04 R173). -/
def encode (e : NEnv) (l : Layer) (pres : List Pre) : EncRes :=
  let t := e.t l.out
  if isBlock t.fmt then encBlocks e t pres
  else if t.delayed && (l.op == 7 || l.op == 8) then encPlain e l t (e.val l.in0).dcode pres
  else if t.delayed then
    let xs := (List.range pres.length).map (fun i => preFp e t (i % max 1 t.c) (pres.getD i (.code 0 0)))
    let amax := amaxOf xs
    match e.hist l.out with
    | none => { encPlain e l t (delayedCode t.fmt amax) pres with amax := amax }
    | some h =>
      let c := delayedCode t.fmt h
      let r := encPlain e l t c pres
      if mustRecompute e t (pres.filter (· != .skip)).length r.sat amax c then
        { encPlain e l t (delayedCode t.fmt amax) pres with amax := amax, recompute := true }
      else { r with amax := amax }
  else encPlain e l t 127 pres

/-! ## Detection (04 R178–R180) -/

/-- A decoded box. -/
structure Box where
  x0 : Nat := 0
  y0 : Nat := 0
  x1 : Nat := 0
  y1 : Nat := 0
  score : Nat := 0
  cls : Nat := 0
  anchor : Nat := 0
  deriving DecidableEq, Repr
/-- The colour source of a layer's network: its width and height. -/
def colourExtent (e : NEnv) (idx : Nat) : Nat × Nat :=
  let net := (netsOf e.img).find? (fun n => decide (n.first ≤ idx) && decide (idx < n.first + n.count))
  let reads := match net with
    | some n => ((e.ls.drop n.first).take n.count).flatMap layerReads
    | none => []
  match (reads.map e.t).find? (fun t => t.src == 1) with
  | some t => (t.w, t.h)
  | none => (0, 0)
/-- The best class of an anchor: class and score; NaN scores are ignored, the lowest class wins a tie. -/
def bestClass (scores : List Nat) : Option (Nat × Nat) :=
  (List.range scores.length).foldl (fun b c =>
    let s := scores.getD c 0
    if isNaN32 s then b else match b with
      | none => some (c, s)
      | some (_, t) => if lt32 t s then some (c, s) else b) none
/-- The candidate of an anchor, if any (04 R178). -/
def boxOf (e : NEnv) (idx : Nat) (l : Layer) (i : Nat) : Option Box :=
  let at_ := fun (ti ch : Nat) => let t := e.t ti; e.deq ti (i / max 1 t.w) (i % max 1 t.w) ch
  let a := at_ l.in2; let d := at_ l.in0
  let cy := add32 (mul32 (mul32 (d 0) (pBox l 0)) (a 2)) (a 0)
  let cx := add32 (mul32 (mul32 (d 1) (pBox l 1)) (a 3)) (a 1)
  let h := mul32 (a 2) (exp2_32 (mul32 (mul32 (d 2) (pBox l 2)) log2e32))
  let w := mul32 (a 3) (exp2_32 (mul32 (mul32 (d 3) (pBox l 3)) log2e32))
  let ce := colourExtent e idx
  let lim := fun p n => if (unpack fFP32 p).isZero then int32f n else p
  let cw := lim (pBox l 5) ce.1; let ch := lim (pBox l 6) ce.2
  let clamp := fun v m => min32 (max32 v 0) m
  let y0 := clamp (sub32 cy (mul32 h half32)) ch; let y1 := clamp (add32 cy (mul32 h half32)) ch
  let x0 := clamp (sub32 cx (mul32 w half32)) cw; let x1 := clamp (add32 cx (mul32 w half32)) cw
  match bestClass ((List.range (pClasses l)).map (at_ l.in1)) with
  | none => none
  | some (c, s) =>
    if lt32 s (pBox l 4) || [x0, y0, x1, y1].any (fun c => !isFin32 c) then none
    else some { x0 := x0, y0 := y0, x1 := x1, y1 := y1, score := s, cls := c, anchor := i }
/-- The order of 04 R179: score highest first, then class, then anchor. -/
def boxBefore (a b : Box) : Bool :=
  lt32 b.score a.score || (!lt32 a.score b.score && (decide (a.cls < b.cls) || (a.cls == b.cls && decide (a.anchor < b.anchor))))
/-- Insert in order. -/
def boxInsert (b : Box) : List Box → List Box
  | [] => [b]
  | x :: r => if boxBefore b x then b :: x :: r else x :: boxInsert b r
def boxSort (l : List Box) : List Box := l.foldl (fun acc b => boxInsert b acc) []
/-- Does a kept box suppress a candidate? -/
def suppresses (thr : Nat) (a b : Box) : Bool :=
  let iw := max32 (sub32 (min32 a.x1 b.x1) (max32 a.x0 b.x0)) 0
  let ih := max32 (sub32 (min32 a.y1 b.y1) (max32 a.y0 b.y0)) 0
  let inter := mul32 iw ih
  let area := fun (c : Box) => mul32 (sub32 c.x1 c.x0) (sub32 c.y1 c.y0)
  lt32 (mul32 thr (sub32 (add32 (area a) (area b)) inter)) inter
/-- Visit candidates in order (04 R179). -/
def nmsLoop (thr maxOut : Nat) (agn : Bool) : List Box → List Box → List Box
  | [], kept => kept
  | b :: r, kept =>
    if maxOut ≤ kept.length then kept
    else if kept.any (fun k => (agn || k.cls == b.cls) && suppresses thr k b) then nmsLoop thr maxOut agn r kept
    else nmsLoop thr maxOut agn r (kept ++ [b])
/-- The boxes an NMS layer keeps, from the BOX_DECODE layer that writes its input. -/
def nmsBoxes (e : NEnv) (l : Layer) : List Box :=
  match e.ls.findIdx? (fun m => m.op == 13 && m.out == l.in0) with
  | none => []
  | some i =>
    let d := e.ls.getD i {}
    let t := e.t d.in0
    let cands := (List.range (t.h * t.w)).filterMap (boxOf e i d)
    nmsLoop (pF l) (pMaxOut l) (pAgnostic l) ((boxSort cands).take (pMaxCand l)) []
/-- The records of 04 Table 4-16, with the terminator, padded to MAX_OUT + 1. -/
def boxRecords (maxOut : Nat) (bs : List Box) : Bytes :=
  fit (32 * (maxOut + 1))
    (bs.flatMap (fun b => natLe 4 b.x0 ++ natLe 4 b.y0 ++ natLe 4 b.x1 ++ natLe 4 b.y1 ++ natLe 4 b.score
      ++ natLe 2 b.cls ++ [0, 0] ++ natLe 4 b.anchor ++ natLe 4 0) ++ List.replicate 20 0 ++ natLe 2 0xFFFF ++ List.replicate 10 0)

/-! ## Layers -/

/-- Replace rows of a value. -/
def patchRows (t : Tensor) (v : TVal) (r0 : Nat) (part : TVal) : TVal :=
  let put := fun (old new : List Nat) (w : Nat) =>
    let o := old ++ List.replicate (t.h * w - old.length) 0
    o.take (r0 * w) ++ new ++ o.drop (r0 * w + new.length)
  { part with data := put v.data part.data (t.w * t.c), scales := if isBlock t.fmt then put v.scales part.scales (t.w * cdiv t.c 32) else [] }
/-- Where a layer's output lies in the frame, from where its first input lies (04 R156, log 14). -/
def extOut (e : NEnv) (l : Layer) : Ext :=
  let x := e.ext l.in0
  let tx := e.t l.in0; let tz := e.t l.out
  if l.op = 1 ∨ l.op = 3 ∨ l.op = 4 then
    let g := geoOf e.ts l
    let mid := fun (k d : Nat) => (d * (k - 1) / 2 : Nat)
    { whole := false, ox := (x.ox - (g.pl : Int) + mid g.kw g.dx) / (max 1 g.sx : Nat),
      oy := (x.oy - (g.pt : Int) + mid g.kh g.dy) / (max 1 g.sy : Nat), fw := cdiv x.fw (max 1 g.sx), fh := cdiv x.fh (max 1 g.sy) }
  else if l.op = 5 then
    { whole := false, ox := x.ox * tz.w / (max 1 tx.w : Nat), oy := x.oy * tz.h / (max 1 tx.h : Nat),
      fw := x.fw * tz.w / max 1 tx.w, fh := x.fh * tz.h / max 1 tx.h }
  else if l.op = 7 then
    { whole := false, ox := x.ox * pBlock l, oy := x.oy * pBlock l, fw := x.fw * pBlock l, fh := x.fh * pBlock l }
  else if l.op = 8 then
    let b := max 1 (pBlock l)
    { whole := false, ox := x.ox / (b : Nat), oy := x.oy / (b : Nat), fw := x.fw / b, fh := x.fh / b }
  else if l.op = 16 then
    { whole := false, ox := x.ox / 2, oy := x.oy / 2, fw := cdiv x.fw 2, fh := cdiv x.fh 2 }
  else { x with whole := false }
/-- Where a layer's output lies: a layer whose input lies nowhere in particular leaves a whole tensor. -/
def extAfter (e : NEnv) (l : Layer) : Ext := if (e.ext l.in0).fw = 0 then {} else extOut e l
/-- The elements of rows r0 to r0 + n − 1 of a layer's output, before conversion; those outside the frame are not computed
(04 R156). -/
def preRows (e : NEnv) (idx : Nat) (l : Layer) (r0 n : Nat) : List Pre :=
  let t := e.t l.out
  let ex := extAfter e l
  (List.range n).flatMap (fun y => (List.range t.w).flatMap (fun x => (List.range t.c).map (fun ch =>
    if ex.has (r0 + y) x then preOf e idx l (r0 + y) x ch else .skip)))
/-- Run one whole layer in tile scope: its value joins the environment, with its extent. -/
def runLayer (e : NEnv) (idx : Nat) : NEnv × EncRes :=
  let l := e.ls.getD idx {}
  let t := e.t l.out
  let r := if l.op = 14 then { val := { data := codesOf t (boxRecords (pMaxOut l) (nmsBoxes e l)) } }
    else if l.op = 13 ∨ l.op = 15 then {} else encode e l (preRows e idx l 0 t.h)
  ({ e with vals := tput e.vals l.out r.val, exts := tput e.exts l.out (extAfter e l) }, r)

end Sys2Proof.Machine
end

