-- ==== Sys2Proof/Machine/Stripes.lean ====
section
/-!
DEFINITION. Stripes of frame-scope networks: their rows, the rows that they read, and when their inputs are complete (04 R158, R159).
-/
namespace Sys2Proof.Machine

/-! ## Stripes and the rows they read (04 R158) -/

/-- The network that a layer belongs to. -/
def netOfLayer (b : Bytes) (i : Nat) : Option (Nat × Net) :=
  let ns := netsOf b
  (ns.findIdx? (fun n => decide (n.first ≤ i) && decide (i < n.first + n.count))).map (fun k => (k, ns.getD k {}))
/-- Stripes of a layer; a detection layer is one job. -/
def stripeCount (ts : List Tensor) (l : Layer) : Nat := if l.op = 13 ∨ l.op = 14 then 1 else max 1 (stripesOf ts l)
/-- First row and rows of stripe j. -/
def stripeRows (ts : List Tensor) (l : Layer) (j : Nat) : Nat × Nat :=
  let h := (tn ts l.out).h
  if l.stripe = 0 then (0, h) else (j * l.stripe, min ((j + 1) * l.stripe) h - j * l.stripe)
/-- The first and last row of an input that output rows r0 to r0 + n − 1 read, clipped; none for a whole input. -/
def needRows (ts : List Tensor) (l : Layer) (input r0 n : Nat) : Option (Nat × Nat) :=
  let h : Int := (tn ts input).h
  let clip := fun (a b : Int) => some ((clampI 0 (h - 1) a).toNat, (clampI 0 (h - 1) b).toNat)
  let last := r0 + (n - 1)
  match l.op with
  | 1 | 3 | 4 =>
    let g := geoOf ts l
    clip ((r0 * g.sy : Nat) - (g.pt : Int)) ((last * g.sy + (g.kh - 1) * g.dy : Nat) - (g.pt : Int))
  | 5 =>
    let at_ := fun i => floor32 (sub32 (resamplePos (tn ts l.in0).h (tn ts l.out).h i) half32)
    if pFilter l = 0 then
      let row := fun i => floor32 (resamplePos (tn ts l.in0).h (tn ts l.out).h i)
      clip (row r0) (row last)
    else if pFilter l = 2 then clip (at_ r0 - 1) (at_ last + 2) else clip (at_ r0) (at_ last + 1)
  | 7 => let b := max 1 (pBlock l); clip (r0 / b : Nat) (last / b : Nat)
  | 8 => let b := max 1 (pBlock l); clip (r0 * b : Nat) (last * b + b - 1 : Nat)
  | 9 => if pMode l = 0 then clip r0 last else none
  | 16 => clip (2 * r0 : Nat) (2 * last + 1 : Nat)
  | 2 | 10 | 11 | 12 => if (tn ts input).h = 1 then clip 0 0 else clip r0 last
  | _ => none
/-- The layer of a network that writes a tensor. -/
def producerOf (ls : List Layer) (n : Net) (t : Nat) : Option Nat :=
  (List.range n.count).findSome? (fun k => if (ls.getD (n.first + k) {}).out = t then some (n.first + k) else none)
/-- A stripe latch of a run. -/
def latchSet (r : NetRun) (layer j : Nat) : Bool := (tgetD r.latches layer 0).testBit j
/-- The latches that stripe j of a layer waits for are set, and the run's motion source is there (04 R159; 07 R270). -/
def stripeReady (b : Bytes) (r : NetRun) (idx j : Nat) : Bool :=
  let ts := tensorsOf b; let ls := layersOf b
  let l := ls.getD idx {}
  match if r.awaits.isSome then none else netOfLayer b idx with
  | none => false
  | some (_, n) =>
    (layerReads l).all (fun t =>
      match if (tn ts t).const then none else producerOf ls n t with
      | none => true
      | some p =>
        let pl := ls.getD p {}
        let rows := stripeRows ts l j
        let need := if l.op = 13 ∨ l.op = 14 then none else needRows ts l t rows.1 rows.2
        (List.range (stripeCount ts pl)).all (fun k =>
          latchSet r p k ||
            (match need with
             | none => false
             | some (lo, hi) => let q := stripeRows ts pl k; decide (hi < q.1) || decide (q.1 + q.2 ≤ lo))))

/-- The image of a run. -/
def runImage (s : State) (wd : Nat) (r : NetRun) : Bytes := ((tget (wardOf s wd).images r.image).map (·.bytes)).getD []

end Sys2Proof.Machine
end

