-- ==== Sys2Proof/Machine/Inherit.lean ====
section
/-!
DEFINITION. Inheritance of LC level by the holders of a hasp (10 R366, R367; 12 R433).
-/
namespace Sys2Proof.Machine

/-! ## Inheritance (10 R366; 12 R433) -/

/-- The earlier of two keys, where none means "no key of its own". -/
def minKey : Option (Option Nat) → Option (Option Nat) → Option (Option Nat)
  | none, k => k
  | k, none => k
  | some none, k => k
  | k, some none => k
  | some (some a), some (some b) => some (some (min a b))
/-- The key that a context that is not LC inherits, while it holds a hasp with a qualifying waiter; chains pass along at
most `fuel` contexts. The inner none is a waiter whose deadline is not known (a peer's request). -/
def inheritOf (s : State) : Nat → Nat → Option (Option Nat)
  | 0, _ => none
  | fuel + 1, slot =>
    if ctxLc s slot then none
    else
      let own := ((ctxOf s slot).map (·.inheritKeys)).getD [] |>.foldl (fun k e => minKey k (some (some e.2))) none
      s.hasps.foldl (fun k x =>
        if tgetD x.2.held slot 0 = 0 then k
        else x.2.parked.foldl (fun k w =>
          match w with
          | .peer _ _ _ _ _ inh => if inh then minKey k (some none) else k
          | .thread t =>
            match (threadOf s t).bind (fun th => tget s.tasks th.task) with
            | none => k
            | some task =>
              if task.slot = slot then k
              else if ctxLc s task.slot then minKey k (some (some task.deadline))
              else minKey k (inheritOf s fuel task.slot)) k) own
/-- The run that a stripe task of layer i belongs to. -/
def runOfStripe (s : State) (x : Ctx) (i : Nat) : Option (Nat × NetRun) :=
  x.runs.find? (fun r => r.2.running && (match netOfLayer (runImage s x.ward r.2) i with | some (k, _) => k == r.1 | none => false))
/-- The tasks of a context's layer that have started. -/
def layerStarted (s : State) (slot i : Nat) : List Task :=
  (s.tasks.filter (fun q => q.2.started && q.2.slot == slot && (match q.2.kind with | .stripe k _ => k == i | _ => false))).map (·.2)
/-- A context runs a layer: a stripe of it has started, or may start since its inputs are complete (10 R366; log 82). -/
def layerRuns (s : State) (slot i : Nat) : Bool :=
  !(layerStarted s slot i).isEmpty ||
    (match (ctxOf s slot).bind (fun x => (runOfStripe s x i).map (fun r => (runImage s x.ward r.2, r.2))) with
     | none => false
     | some (b, r) =>
       tgetD r.made i 0 != 0 || (List.range (stripeCount (tensorsOf b) ((layersOf b).getD i {}))).any (stripeReady b r i))
/-- A layer started in this fabric cycle: the release of the last qualifying waiter comes before it (10 R367). -/
def layerFresh (s : State) (slot i : Nat) : Bool :=
  (layerStarted s slot i).all (fun q => q.startedAt / 8 == s.now / 8)
    && (((ctxOf s slot).bind (fun x => (runOfStripe s x i).map (fun r => tgetD r.2.made i 0 == 0))).getD true)
/-- A stripe task under its context's inheritance: a task of a layer that the context runs inherits; without a qualifying waiter, one
that has not started returns to its own level. No other work of a context that is not LC inherits: training is BE-level for every
context (08 R313; 00 R9). -/
def inheritTask (s : State) (k : Option (Option Nat)) (t : Task) : Task :=
  match t.kind with
  | .stripe i _ =>
    (match k with
     | some key => if layerRuns s t.slot i then { t with inheritKey := some (key.getD t.deadline) } else t
     | none => if t.started && !layerFresh s t.slot i then t else { t with inheritKey := none })
  | _ => t
/-- Does a hasp have a qualifying waiter, and the deadline it carries? -/
def qualifies (s : State) (h : Hasp) : Option (Option Nat) :=
  h.parked.foldl (fun k w =>
    match w with
    | .peer _ _ _ _ _ inh => if inh then minKey k (some none) else k
    | .thread t =>
      match (threadOf s t).bind (fun th => tget s.tasks th.task) with
      | none => k
      | some task => if ctxLc s task.slot then minKey k (some (some task.deadline)) else minKey k (inheritOf s 8 task.slot)) none
/-- Tell a hasp's remote holders of a qualifying waiter, or that none remains (12 R433). -/
def inheritPeers (id : Nat) (s : State) : State :=
  match tget s.hasps id with
  | none => s
  | some h =>
    let q := qualifies s h
    let want := if q.isSome then h.peers.map (·.1) else []
    let on := want.filter (fun p => !h.inheritSent.contains p)
    let off := h.inheritSent.filter (fun p => !want.contains p)
    let left := match q with
      | some (some d) => min (2 ^ 32 - 1) ((d - s.now) / 60)
      | _ => 0
    let msg := fun (flag : Nat) (p : Peer) (s : State) =>
      sendOrDrop tyInherit 0 0 p.dev 0 [] (flag + p.ward * 2 ^ 8 + p.slot * 2 ^ 12 + left * 2 ^ 32 * flag) s
    let s1 := on.foldl (fun s p => msg 1 p s) s
    let s2 := off.foldl (fun s p => msg 0 p s) s1
    modHasp id (fun h => { h with inheritSent := want }) s2
/-- Bring inheritance up to date after a waiter parked, was served or left, or tasks were dealt. -/
def settleInherit (s : State) : State :=
  let s1 : State := { s with tasks := s.tasks.map (fun x => (x.1, if x.2.lc then x.2 else inheritTask s (inheritOf s 8 x.2.slot) x.2)) }
  s1.hasps.foldl (fun s x => inheritPeers x.1 s) s1

end Sys2Proof.Machine
end

