-- ==== Sys2Proof/Machine/Patches.lean ====
section
/-!
DEFINITION. The planes of an adaptation patch and their sizes (08 R294–R296, Table 8-4; 04 R155).
-/
namespace Sys2Proof.Machine

/-! ## Footprints (04 R155) -/

/-- The extent of an axis at a source's resolution, of the output interval from `x0` of `n` pixels with margin `m`; the
factor of the axis is `num / 2`, and `half` is log2 of the pyramid level's reduction. First position and count. -/
def footAxis (num half x0 n m : Nat) : Int × Nat :=
  let d : Int := num * 2 ^ half
  let lo := (2 * ((x0 : Int) - m)) / d
  let hi := -((-(2 * ((x0 : Int) + n + m))) / d)
  (lo, (hi - lo).toNat)
/-- Twice the factor and the pyramid level of a source on the x axis. -/
def sourceScale (c : Bytes) (y : Bool) (src : Nat) : Nat × Nat :=
  let s := scale2 (if y then cbSyCode c else cbSxCode c)
  if 0x11 ≤ src ∧ src ≤ 0x17 then (s, src - 0x10)
  else if 0x19 ≤ src ∧ src ≤ 0x1F then (s, src - 0x18)
  else if 1 ≤ src ∧ src ≤ 5 then (s, 0) else (2, 0)
/-- Is the source a single value? -/
def scalarSource (src : Nat) : Bool := src == 0x06 || src == 0x26 || src == 0x27
/-- First column, first row, columns and rows of a source over `n` × `n` output pixels from (x0, y0). -/
def footprint (c : Bytes) (src x0 y0 n m : Nat) : Int × Int × Nat × Nat :=
  if scalarSource src then (0, 0, 1, 1)
  else
    let a := sourceScale c false src
    let b := sourceScale c true src
    let x := footAxis a.1 a.2 x0 n m
    let y := footAxis b.1 b.2 y0 n m
    (x.1, y.1, x.2, y.2)
/-- Width and height of a source over the whole frame (04 Table 4-8). -/
def sourceSize (c : Bytes) (src : Nat) : Nat × Nat :=
  if scalarSource src then (1, 1)
  else if 0x11 ≤ src ∧ src ≤ 0x17 then (cdiv (inWidth c) (2 ^ (src - 0x10)), cdiv (inHeight c) (2 ^ (src - 0x10)))
  else if 0x19 ≤ src ∧ src ≤ 0x1F then (cdiv (inWidth c) (2 ^ (src - 0x18)), cdiv (inHeight c) (2 ^ (src - 0x18)))
  else if 1 ≤ src ∧ src ≤ 5 then (inWidth c, inHeight c) else (cbWidth c, cbHeight c)
/-- The extents that the device supplies for a source: in tile scope the largest tile footprint, in frame scope the full input
(04 R146; log 14). -/
def suppliedExtent (c img : Bytes) (tileScope : Bool) (src : Nat) : Nat × Nat :=
  if scalarSource src then (1, 1)
  else if tileScope then
    (((List.range (tilesX c)).map (fun i => (footprint c src (64 * i) 0 64 (imMargin img)).2.2.1)).foldl max 0,
     ((List.range (tilesY c)).map (fun i => (footprint c src 0 (64 * i) 64 (imMargin img)).2.2.2)).foldl max 0)
  else sourceSize c src
/-- Every source tensor that a network reads has the extents that the device supplies; an AUXILIARY network's own input is judged
where it is bound. -/
def extentsFit (c img : Bytes) : Bool :=
  let ts := tensorsOf img
  (netsOf img).all (fun n => (((layersOf img).drop n.first).take n.count).all (fun l => (layerReads l).all (fun i =>
    let t := tn ts i
    t.src == 0 || t.src == 0x40 || outSource t.src || (t.w, t.h) == suppliedExtent c img (netSynth n) t.src)))
/-- Bytes of one element of a source (04 Table 4-8). -/
def sourceElem (src : Nat) : Nat :=
  match sourceSpec src with
  | some (fmt, ch) => fmtBits fmt / 8 * ch
  | none => 0

/-! ## Patches -/

/-- The training-rung network of a configuration (08 Table 8-1). -/
def trainNet (img c : Bytes) : Option (Nat × Net) := netOfRole img 0 (cbTrainRung c)
/-- The sources that a network's layers read. -/
def netSources (img : Bytes) (n : Net) : List Nat :=
  let ts := tensorsOf img
  ((layersOf img).drop n.first).take n.count |>.flatMap (fun l => (layerReads l).map (fun i => (tn ts i).src))
/-- Sources in the order of Table 8-4. -/
def patchOrder : List Nat :=
  [1, 2, 3, 4, 5, 6] ++ (List.range 7).map (· + 0x11) ++ (List.range 7).map (· + 0x19) ++ [0x20, 0x25, 0x26, 0x27]
/-- The sources stored in a patch: those the training-rung network reads, pyramid levels up to K. -/
def patchSources (img c : Bytes) : List Nat :=
  match trainNet img c with
  | none => []
  | some (_, n) =>
    let used := netSources img n
    let k := imPyramid img
    patchOrder.filter (fun s => used.contains s
      && !(decide (0x11 + k ≤ s) && decide (s ≤ 0x17)) && !(decide (0x19 + k ≤ s) && decide (s ≤ 0x1F)))
/-- Round up to 64 bytes. -/
def up64 (n : Nat) : Nat := cdiv n 64 * 64
/-- Bytes of a stored plane of a patch at the frame's corner, by which PATCH_BYTES is reckoned. -/
def planeBytes (img c : Bytes) (src : Nat) : Nat :=
  let f := footprint c src 0 0 128 (imMargin img)
  up64 (f.2.2.1 * f.2.2.2 * sourceElem src)
/-- PATCH_BYTES: the target of 128 × 128 RGBA16F, the stored planes and the header, up to 4,096 (08 R296). -/
def patchBytes (img c : Bytes) : Nat :=
  cdiv (131072 + ((patchSources img c).map (planeBytes img c)).foldl (· + ·) 0 + 64) 4096 * 4096
/-- Has the image an adapter attachment in the network at the training rung (08 R287)? -/
def trainAttached (img c : Bytes) : Bool :=
  match trainNet img c with
  | none => false
  | some (_, n) => (attaches img).any (fun a => decide (n.first ≤ a.layer) && decide (a.layer < n.first + n.count))
/-- Bytes that the sample store and staging take from the ward while an image is bound (08 R296; 01 R551). -/
def storeNeed (img : Option Bytes) (c : Bytes) : Nat :=
  match img with
  | none => 0
  | some b => (cbStore c + cbStagingDepth c * cbCaptures c) * patchBytes b c

end Sys2Proof.Machine
end

