-- ==== Sys2Proof/Machine/Contexts.lean ====
section
/-!
DEFINITION. Contexts: the context block and its checks, what a context takes from its ward, CTX_CREATE, CTX_CONFIGURE,
CTX_DESTROY, hasp grants, memory grants and accounting queries (10 R350–R354, R365, R382, R547; 11 R401).
-/
namespace Sys2Proof.Machine

/-! ## What a context needs (10 R353; 11 R401) -/

/-- The bytes of the image bound to a context. -/
def boundImage (s : State) (x : Ctx) : Option Bytes :=
  x.image.bind (fun h => (tget (wardOf s x.ward).images h).map (·.bytes))
/-- Pixels of all levels 1–7 of a pyramid. -/
def pyramidPixels (w h : Nat) : Nat :=
  ((List.range 7).map (fun k => cdiv w (2 ^ (k + 1)) * cdiv h (2 ^ (k + 1)))).foldl (· + ·) 0
/-- Bytes of one rendered-frame buffer set: one instance of every input surface as decoded, its pyramids and one mesh set
(02 R77); the manual gives the contents and no byte count (log 16). -/
def setBytes (c : Bytes) : Nat :=
  26 * inWidth c * inHeight c + 12 * pyramidPixels (inWidth c) (inHeight c) + 24 * cbGMax c
/-- Bytes of the head table: 8 per bin and front end, up to 64 KiB (06 R235). -/
def headTableBytes (c : Bytes) : Nat := cdiv (8 * 4 * tileCount c * popcount 16 (cbFeMask c)) 65536 * 65536
/-- Bytes of the resolved planes and of the disocclusion values of every tile (06 R225, R246; log 16). -/
def planesBytes (c : Bytes) : Nat := 12 * cbWidth c * cbHeight c + 24576 * tileCount c
/-- Granules of the resolved planes, the buffer sets and the head table. -/
def bufferGranules (c : Bytes) : Nat := cdiv (planesBytes c + 4 * setBytes c + headTableBytes c) (2 ^ 18)
/-- Granules that hold a count of 64 KiB chunks. -/
def chunkGranules (n : Nat) : Nat := cdiv n 4
/-- Granules of the adaptation store (08 R296). -/
def storeGranules (img : Option Bytes) (c : Bytes) : Nat := cdiv (storeNeed img c) (2 ^ 18)
/-- Granules of general memory. -/
def generalGranules (c : Bytes) : Nat := cbMemory c / 2 ^ 18
/-- Granules of the statistics area of an image with `l` layers (14 R477). -/
def statsGranules (l : Nat) : Nat := cdiv (4096 + 16 * l) (2 ^ 18)
/-- Granules that any image's statistics area may grow to: an image has at most 2^25 layer records. -/
def statsRoom : Nat := 2049
/-- Granules that a context takes besides its general memory. -/
def otherGranules (img : Option Bytes) (pool : Nat) (c : Bytes) : Nat := bufferGranules c + chunkGranules pool + storeGranules img c
/-- Granules that a ward's objects of a kind hold. -/
def granulesOf (w : Ward) (p : AllocKind → Bool) : Nat := ((w.allocs.filter (fun a => p a.kind)).map (·.count)).foldl (· + ·) 0
/-- The buffers, pool and store of a context's slot. -/
def isOther (slot : Nat) (k : AllocKind) : Bool := k == .buffers slot || k == .binPool slot || k == .store slot
/-- Band latches of the built-in flow graph: one per 64 input rows (07 R266, R268). -/
def flowBands (c : Bytes) : Nat := if cbFlow c then cdiv (inHeight c) 64 else 0

/-! ## The context block (11 Table 11-9) -/

/-- Why a context block is refused. -/
structure CtxBad where
  /-- RESOURCE_CONFLICT with `reason` as its code of 10 Table 10-7; otherwise the block's own status. -/
  conflict : Bool := false
  reason : Nat := 1
  off : Nat := 0
  deriving DecidableEq, Repr
/-- Reasons of KW_CREATE_REFUSED and KW_BAD_CONFIG. -/
def ccValue : Nat := 0x01
def ccLimit : Nat := 0x02
def ccMemory : Nat := 0x03
def ccLatches : Nat := 0x04
def ccStaging : Nat := 0x05
def ccHasps : Nat := 0x06
def ccPending : Nat := 0x07
def ccImage : Nat := 0x08
def ccPart : Nat := 0x09
def ccLink : Nat := 0x0A

/-- A value outside its range, at an offset. -/
def badAt (off : Nat) (bad : Bool) : Bool × CtxBad := (bad, { off := off })
/-- Reserved bytes, each failing at its own offset. -/
def reservedAt (b : Bytes) (off n : Nat) : List (Bool × CtxBad) :=
  (List.range n).map (fun i => badAt (off + i) (fld b (off + i) 1 != 0))
/-- An FP32 value lies in an interval: lower end closed or open, upper end closed or open. -/
def fpIn (x lo hi : Nat) (loOpen hiOpen : Bool) : Bool :=
  isFin32 x && (if loOpen then lt32 lo x else le32 lo x) && (if hiOpen then lt32 x hi else le32 x hi)
/-- The kernel that the block names is of a kind in the bound image. -/
def kernelFits (img : Option Bytes) (k kind : Nat) : Bool :=
  match img with
  | none => true
  | some b => k == 0xFFFF || (let sec := imgBytes b 0x09
                              decide (k < kernelCount sec) && (kernelRec sec k).kind == kind && (kernelRec sec k).threads == 1)
/-- What a check of a context block knows besides the block: the ward, the context where there is one, its image and what
it holds already. -/
structure CtxEnv where
  ward : Nat := 0
  slot : Option Nat := none
  img : Option Bytes := none
  head : Option Nat := none
  /-- The context is in replay mode. -/
  replay : Bool := false
  graph : Bool := false
  stripe : Nat := 0
  band : Nat := 0
  /-- Latches, staging units and granules that the context holds now. -/
  latches : Nat := 0
  staging : Nat := 0
  granules : Nat := 0
  /-- Own hasp places that hold one. -/
  hasps : List (Option Nat) := []
  /-- Chunks of the bin pool, and the initial size that the block in force gives. -/
  pool : Nat := 0
  poolInit : Nat := 0
  deriving DecidableEq, Repr
/-- Own hasps that a block newly allocates (11 Table 11-9): places below HASPS that hold none. -/
def newHasps (old : List (Option Nat)) (n : Nat) : Nat := ((List.range n).filter (fun i => (old.getD i none).isNone)).length
/-- Latches of a context with a block: kernel latches and the frame path's (10 R353). -/
def latchNeed (e : CtxEnv) (c : Bytes) : Nat :=
  64 * cbLatches c + tileCount c + e.stripe + (if cbFlow c then flowBands c else e.band)
/-- Another live context of the ward that conflicts under 10 R354: this one LC and that one head-bound BE, or the reverse. -/
def groupConflict (s : State) (e : CtxEnv) (c : Bytes) : Bool :=
  let groups := (wardOf s e.ward).cfg.groups
  let mine := groups.getD (cbGroup c) 0
  (wardCtxs s e.ward isLive).any (fun y =>
    some y.1 != e.slot && groups.getD (cbGroup y.2.cfg) 0 &&& mine != 0 &&
      (if cbClassBE c then e.head.isSome && !cbClassBE y.2.cfg else cbClassBE y.2.cfg && y.2.head.isSome))
/-- Chunks of the bin pool after a block: chunks above a smaller initial size go, and a larger one is met (06 R235). -/
def poolAfter (e : CtxEnv) (c : Bytes) : Nat :=
  if e.slot.isNone || decide (cbPoolInit c < e.poolInit) then cbPoolInit c else max e.pool (cbPoolInit c)
/-- The ward's pending records cannot supply a context (10 R353). The spec states no number that a context needs: it is a free value,
which the most that a ward may hold always meets (10 Table 10-1; log 83). -/
def pendingShort (records : Nat) (c : Bytes) : Bool := decide (records < 1024) && decide (records < Config.pendingNeed (leNat c))
/-- The checks at offsets below 0x054. -/
def ctxChecksLow (s : State) (e : CtxEnv) (c : Bytes) : List (Bool × CtxBad) :=
  let w := (wardOf s e.ward).cfg
  let bound := e.head.isSome
  let hd := (e.head.map (headOf s)).bind headCfg
  [badAt 0x000 (fld c 0 1 != 1), badAt 0x001 (decide (1 < fld c 1 1)),
   badAt 0x002 (decide (w.groups.length ≤ cbGroup c)),
   badAt 0x002 (bound && w.groups.getD (cbGroup c) 0 == 0),
   (groupConflict s e c, { conflict := true, reason := 0x06 }),
   badAt 0x003 ((cbFlags c).testBit 7), badAt 0x003 (cbReplay c && !cbDigest c),
   (cbGuard c && (e.img.map (fun b => !hasGuard b)).getD false, { reason := ccImage, off := 0x003 }),
   (e.replay && !cbReplay c && e.head.isSome && s.perf.timerOn && e.head == some s.perf.head, { conflict := true, reason := 0x03 }),
   (!cbRefetch c && s.part == .bkz1280, { reason := ccPart, off := 0x003 }),
   (cbFlow c && e.graph, { conflict := true, reason := 0x04 }),
   (cbFlow c && w.flowMask == 0, { conflict := true, reason := 0x05 }),
   badAt 0x004 (!subMask (cbFeMask c) w.feMask), badAt 0x004 (bound && cbFeMask c == 0),
   badAt 0x006 (decide (4 < cbG c)), badAt 0x007 (decide (3 < cbStartRung c)),
   badAt 0x008 (decide (cbWidth c < 64) || decide (8192 < cbWidth c) || cbWidth c % 2 != 0),
   badAt 0x00A (decide (cbHeight c < 64) || decide (8192 < cbHeight c) || cbHeight c % 2 != 0),
   badAt 0x00A ((hd.map (fun h => hbWidth h != cbWidth c || hbHeight h != cbHeight c)).getD false),
   badAt 0x00C (decide (4 < cbSxCode c) || cbWidth c * 2 % scale2 (cbSxCode c) != 0),
   badAt 0x00D (decide (4 < cbSyCode c) || cbHeight c * 2 % scale2 (cbSyCode c) != 0),
   badAt 0x00E (decide (8 < cbUi c)), badAt 0x00F (cbX c == 0 || decide (8 < cbX c)),
   badAt 0x010 (decide (cbPoseLead c < 10000) || decide (5000000 < cbPoseLead c)),
   badAt 0x014 (decide (cbSMax c < 4096) || decide (268435456 < cbSMax c)), badAt 0x01C (decide (20 < cbSat c))]
  ++ reservedAt c 0x01D 3 ++
  [badAt 0x038 (cbPoolInit c == 0 || decide (4096 < cbPoolInit c)),
   badAt 0x03A (decide (cbPoolMax c < cbPoolInit c) || decide (4096 < cbPoolMax c)),
   badAt 0x03C (cbGrowth c == 0 || decide (64 < cbGrowth c))]
  ++ reservedAt c 0x03D 1 ++
  [badAt 0x03E (decide (cbNodeLimit c < 16) || decide (4096 < cbNodeLimit c)),
   (!kernelFits e.img (cbBlend c) 1, { reason := ccImage, off := 0x040 }),
   (!kernelFits e.img (cbHit c) 2, { reason := ccImage, off := 0x042 })]
/-- A wait limit in TB cycles lies in its range. -/
def limitBad (n : Nat) : Bool := decide (n < 1000) || decide (1000000000 < n)
/-- The checks from 0x054 to 0x09F. -/
def ctxChecksMid (s : State) (e : CtxEnv) (c : Bytes) : List (Bool × CtxBad) :=
  let w := (wardOf s e.ward).cfg
  let one := 0x3F800000
  [(decide (64 * w.latches + e.latches < latchesUsed s e.ward + latchNeed e c), { reason := ccLatches, off := 0x054 }),
   (decide (w.staging + e.staging < stagingUsed s e.ward + cbStaging c), { reason := ccStaging, off := 0x056 }),
   badAt 0x058 (decide (4096 < cbHasps c)),
   (decide (w.hasps < haspsUsed s e.ward + newHasps e.hasps (cbHasps c)), { reason := ccHasps, off := 0x058 }),
   badAt 0x05C (limitBad (cbWaitLimit c)), badAt 0x060 (limitBad (cbHaspTimeout c)), badAt 0x064 (limitBad (cbRemoteLimit c)),
   badAt 0x068 (decide (4194304 < cbGMax c))]
  ++ reservedAt c 0x06C 4 ++
  [badAt 0x070 (cbAdaptFlags c &&& 0xF8 != 0), badAt 0x070 (cbAdapt c && (decide (cbWidth c < 128) || decide (cbHeight c < 128))),
   badAt 0x071 (cbCaptures c == 0 || decide (64 < cbCaptures c)), badAt 0x072 (cbStagingDepth c == 0 || decide (4 < cbStagingDepth c)),
   badAt 0x073 (cbBatch c == 0 || decide (64 < cbBatch c)), badAt 0x074 (decide (2 < cbTrainRung c)),
   (cbAdapt c && (e.img.map (fun b => !trainAttached b c)).getD false, { reason := ccImage, off := 0x074 })]
  ++ reservedAt c 0x075 1 ++
  [badAt 0x076 (cbSteps c == 0 || decide (256 < cbSteps c)), badAt 0x080 (cbStore c == 0 || decide (4096 < cbStore c))]
  ++ reservedAt c 0x082 2 ++
  [badAt 0x084 (cbPublish c == 0 || decide (65536 < cbPublish c)),
   badAt 0x088 (!fpIn (cbLr c) 0 one true false), badAt 0x08C (!fpIn (cbBeta1 c) 0 one false true),
   badAt 0x090 (!fpIn (cbBeta2 c) 0 one false true), badAt 0x094 (!isFin32 (cbEps c) || !lt32 0 (cbEps c)),
   badAt 0x098 (!fpIn (cbDecay c) 0 one false false)]
  ++ reservedAt c 0x09C 4
/-- The checks from 0x0A0 on; those of creation-only fields apply at creation alone. -/
def ctxChecksHigh (s : State) (e : CtxEnv) (c : Bytes) : List (Bool × CtxBad) :=
  let new := e.slot.isNone
  let need := otherGranules e.img (poolAfter e c) c + (if new then generalGranules c + statsGranules 0 else 0)
  let only := fun (l : List (Bool × CtxBad)) => if new then l else []
  let n := cbInfoCount c
  only [badAt 0x0A0 (cbMemory c % 2 ^ 18 != 0)]
  ++ [(decide (freeGranules (wardOf s e.ward) + e.granules < need), { reason := ccMemory, off := 0x0A0 })]
  ++ only [badAt 0x0A8 (cbSqBase c % 4096 != 0), badAt 0x0B0 (cbCqBase c % 4096 != 0),
       badAt 0x0B8 (decide (cbSqLog2 c < 6) || decide (16 < cbSqLog2 c)), badAt 0x0B9 (decide (cbCqLog2 c < 6) || decide (16 < cbCqLog2 c))]
  ++ [badAt 0x0BA (decide (2047 < cbVector c))] ++ reservedAt c 0x0BE 2
  ++ only [badAt 0x0C0 (cbInfoBase c % 4096 != 0), badAt 0x0C8 (decide (n < 2) || decide (65536 < n) || 2 ^ Nat.log2 n != n)]
  ++ reservedAt c 0x0CC 4 ++ only [badAt 0x0D0 (cbReport c % 64 != 0)] ++ reservedAt c 0x0D8 40
  ++ [(pendingShort (wardOf s e.ward).cfg.pendRecs c, { reason := ccPending, off := 0xFFFFFFFF })]
/-- The first refusal of a context block, fields in increasing offset; within a field its own range comes first. -/
def ctxBlockBad (s : State) (e : CtxEnv) (c : Bytes) : Option CtxBad :=
  ((ctxChecksLow s e c ++ ctxChecksMid s e c ++ ctxChecksHigh s e c).find? (fun x => x.1)).map (·.2)
/-- Complete a command with a block's refusal. -/
def refuseBlock (r : RingRef) (seq status : Nat) (x : CtxBad) (s : State) : State :=
  if x.conflict then complete r seq kConflict x.reason [] s else complete r seq status x.reason (natLe 4 x.off) s

/-! ## Creation -/

/-- The lowest FREE slot. -/
def freeSlot (s : State) : Option Nat := (List.range 1024).find? (fun i => (slotOf s i).state == .free)
/-- Allocate granules, or leave the state as it is where there are none (the caller has checked the supply). -/
def take (wd count : Nat) (kind : AllocKind) (s : State) : State :=
  if count = 0 then s else ((allocate wd count kind false [] s).map (·.2)).getD s
/-- Allocate general memory with the statistics area after it and room for the area to grow; its ward address. -/
def takeGeneral (wd slot count : Nat) (s : State) : Nat × State :=
  let w := wardOf s wd
  let base := findGap w.allocs (count + statsRoom) (w.allocs.length + 1) 1
  let g : List Alloc := if count = 0 then [] else
    [{ base := base, count := count, kind := .general slot, serial := s.nextSerial, chans := w.cfg.chanMask }]
  let a : Alloc := { base := base + count, count := statsGranules 0, kind := .stats slot, ro := true,
                     content := statsHead slot (slotOf s slot).gen w.discards, serial := s.nextSerial + 1, chans := w.cfg.chanMask, room := statsRoom - 1 }
  (base * 2 ^ 18, { modWard wd (fun x => { x with allocs := x.allocs ++ g ++ [a] }) s with nextSerial := s.nextSerial + 2 })
/-- Allocate staging memory for a context, with room to grow in place up to a ward's 256 granules. -/
def takeStaging (wd slot units : Nat) (s : State) : State :=
  if units = 0 then s
  else
    let w := wardOf s wd
    let a : Alloc := { base := findGap w.allocs 256 (w.allocs.length + 1) 1, count := cdiv units 4, kind := .staging slot,
                       serial := s.nextSerial, chans := w.cfg.chanMask, room := 256 - cdiv units 4 }
    { modWard wd (fun x => { x with allocs := x.allocs ++ [a] }) s with nextSerial := s.nextSerial + 1 }
/-- Allocate hasps of a ward's pool to a context: the new own list, place by place below `n`. -/
def takeHasps (wd slot init : Nat) (old : List (Option Nat)) : Nat → State → List (Option Nat) × State
  | 0, s => ([], s)
  | n + 1, s =>
    let r := takeHasps wd slot init old n s
    match old.getD n none with
    | some h => (r.1 ++ [some h], r.2)
    | none =>
      let id := freeKeyFrom r.2.hasps 0
      (r.1 ++ [some id], { r.2 with hasps := tput r.2.hasps id { ward := wd, owner := some slot, count := BitVec.ofNat 16 init } })
/-- The ring of a new context (11 R391, R394). -/
def ctxRing (c : Bytes) : Ring := { live := true, sqBase := cbSqBase c, cqBase := cbCqBase c, sqLog2 := cbSqLog2 c, cqLog2 := cbCqLog2 c }
/-- Create a context in a slot: its memory, hasps, ring and configuration; the ward address of its general memory. -/
def createCtx (wd slot : Nat) (c : Bytes) (s : State) : Nat × State :=
  let g := takeGeneral wd slot (generalGranules c) s
  let s1 := take wd (chunkGranules (cbPoolInit c)) (.binPool slot) (take wd (bufferGranules c) (.buffers slot) g.2)
  let s2 := takeStaging wd slot (cbStaging c) s1
  let h := takeHasps wd slot (cbHaspInit c) [] (cbHasps c) s2
  let x : Ctx := { ward := wd, gen := (slotOf s slot).gen, cfg := c, cfgInForce := c, group := (wardOf s wd).cfg.groups.getD (cbGroup c) 0
                   ring := ctxRing c, hasps := h.1
                   bandLatches := flowBands c, pool := cbPoolInit c, fr := { nextNumber := cbF0 c }, ad := { block := c } }
  (g.1, modSlot slot (fun y => { y with state := .live, perfUser := false }) { h.2 with ctxs := tput h.2.ctxs slot x })
/-- A ward's context limit is reached, or no slot is FREE (10 R352). -/
def limitReached (s : State) (wd : Nat) : Bool :=
  decide ((wardOf s wd).cfg.ctxLimit ≤ (wardCtxs s wd isHeld).length) || (freeSlot s).isNone
/-- The RESULT of CTX_CREATE: slot, generation and the ward address of general memory. -/
def createResult (slot gen addr : Nat) : Bytes := natLe 2 slot ++ natLe 2 gen ++ natLe 4 0 ++ natLe 6 addr
/-- CTX_CREATE with its block read. -/
def ctxCreateGo (fn seq : Nat) (b : Bytes) (s : State) : State :=
  if limitReached s fn then complete (.admin fn) seq kCreateRefused ccLimit (natLe 4 0xFFFFFFFF) s
  else
    match ctxBlockBad s { ward := fn } b with
    | some x => refuseBlock (.admin fn) seq kCreateRefused x s
    | none =>
      let slot := (freeSlot s).getD 0
      let r := createCtx fn slot b s
      completeOk (.admin fn) seq (createResult slot (slotOf s slot).gen r.1) r.2
/-- CTX_CREATE: the function's ward takes a context in the lowest FREE slot (10 R352). -/
def execCtxCreate (fn seq : Nat) (s : State) : Out :=
  command (.admin fn) seq 0x04 s (fun c s => ctxCreateGo fn seq (hostRead s (entAddr0 c.entry) 256) s)

/-! ## The frame graph (07 R261–R263, R266) -/

/-- The graph that a context's packets run under: the built-in one, in the form of 07 R266, or a loaded one. -/
def builtInGraph (c : Bytes) : Bytes :=
  let buf := fun (binding content : Nat) => natLe 1 binding ++ natLe 1 content ++ [0, 0] ++ natLe 2 (inWidth c) ++ natLe 2 (inHeight c)
    ++ List.replicate 24 0
  natLe 4 0x48524647 ++ [1] ++ natLe 4 192 ++ [1, 3] ++ List.replicate 53 0
    ++ ([1, 0, 1, 2, 0, 0, 0, 0] ++ natLe 2 256 ++ natLe 2 48 ++ List.replicate 20 0)
    ++ buf 0x01 1 ++ buf 0x02 1 ++ buf 0x10 2
def graphOf (x : Ctx) (c : Bytes) : Option Bytes := if cbFlow c then some (builtInGraph c) else x.graph
/-- A context whose graph changes at an instant keeps the one that stood before the first change of this fabric cycle (07 R263). -/
def noteGraph (now : Nat) (x : Ctx) : Ctx :=
  if x.graphOld.any (fun o => o.1 / 8 == now / 8) then x else { x with graphOld := some (now, graphOf x x.cfg) }

/-! ## Reconfiguration -/

/-- A block with the creation-only fields of the context's present block (11 R401). -/
def keepCreation (old new : Bytes) : Bytes :=
  patch (patch (patch new 0x0A0 (slice old 0x0A0 26)) 0x0C0 (slice old 0x0C0 12)) 0x0D0 (slice old 0x0D0 8)
/-- What the checks know of a live context. -/
def ctxEnv (s : State) (slot : Nat) (x : Ctx) : CtxEnv :=
  { ward := x.ward, slot := some slot, img := boundImage s x, head := x.head, replay := cbReplay x.cfg, graph := x.graph.isSome, stripe := x.stripeLatches,
    band := x.bandLatches, latches := latchUse x, staging := cbStaging x.cfg,
    granules := granulesOf (wardOf s x.ward) (isOther slot), hasps := x.hasps, pool := x.pool, poolInit := cbPoolInit x.cfg }
/-- Own hasps at and above a reconfigured count are released (log 17). -/
def dropHasps (slot n : Nat) (old : List (Option Nat)) (s : State) : State :=
  (old.drop n).foldl (fun s h => match h with
    | some id => haspReap id (modHasp id (fun x => { x with owner := if x.owner = some slot then none else x.owner }) s)
    | none => s) s
/-- Give an object of a ward a new size in granules, in place of its present one. -/
def resizeObject (wd count : Nat) (kind : AllocKind) (s : State) : State :=
  if granulesOf (wardOf s wd) (· == kind) = count then s else take wd count kind (release wd (·.kind == kind) s)
/-- Give the bin pool a new size: chunks above a smaller initial size return to the spare pool (06 R235). -/
def resizePool (slot wd new : Nat) (x : Ctx) (s : State) : State :=
  let s1 := if new < x.pool then
      modWard wd (fun w => { w with
        spare := w.spare + (x.pool - new)
        allocs := w.allocs.flatMap (fun a =>
          if a.kind = .binPool slot ∧ chunkGranules new < a.count then
            [{ a with count := chunkGranules new }, { a with base := a.base + chunkGranules new,
                                                              count := a.count - chunkGranules new, kind := .spare }]
          else [a]) }) s
    else if x.pool < new then take wd (chunkGranules (new - x.pool)) (.binPool slot) s else s
  modCtx slot (fun c => { c with pool := new }) s1
/-- Staging memory keeps its place when its size changes. -/
def resizeStaging (wd slot units : Nat) (s : State) : State :=
  if (wardOf s wd).allocs.any (fun a => a.kind == .staging slot) then
    if units = 0 then release wd (·.kind == .staging slot) s
    else modWard wd (fun w => { w with allocs := w.allocs.map (fun a =>
      if a.kind = .staging slot then { a with count := cdiv units 4, room := 256 - cdiv units 4 } else a) }) s
  else takeStaging wd slot units s
/-- The context's mode is extrapolation, which g = 0 counts as (01 R26). -/
def extrapolates (c : Bytes) : Bool := cbExtra c || cbG c == 0
/-- The output frame number of a slot (01 R26). -/
def slotNumber (c : Bytes) (n place : Nat) : Nat := (cbF0 c + n * (1 + cbG c) + place) % 2 ^ 32
/-- The slot that follows a change of F0, cadence or mode: the first of those of the present render frame that is still to come
under the new block, or the first of the next render frame (01 R24, R26, R27; DESIGN CHOICE, log 56). -/
def nextAfterChange (old new : Bytes) (n place : Nat) : Nat × Nat :=
  let begun := extrapolates old && place != 0
  if begun then (if extrapolates new && decide (place ≤ cbG new) then (n, place) else ((n + 1) % 2 ^ 32, 0))
  else if extrapolates new then (n, 0)
  else (n, min place (cbG new))
/-- The frame path's next slot under a new block. -/
def replan (old new : Bytes) (f : CtxFrames) : CtxFrames :=
  if (cbF0 old, cbG old, extrapolates old) = (cbF0 new, cbG new, extrapolates new) then f
  else
    let p := nextAfterChange old new f.nextRender f.nextPlace
    { f with nextNumber := slotNumber new p.1 p.2, nextRender := p.1, nextPlace := p.2, cut := false }
/-- Put an accepted block in place of the present one; frames take it up by 01 R24. -/
def applyCtx (slot : Nat) (x : Ctx) (b : Bytes) (s : State) : State :=
  let e := ctxEnv s slot x
  let wd := x.ward
  let s1 := resizePool slot wd (poolAfter e b) x s
  let s2 := resizeObject wd (storeGranules e.img b) (.store slot) (resizeObject wd (bufferGranules b) (.buffers slot) s1)
  let s3 := resizeStaging wd slot (cbStaging b) s2
  let s4 := dropHasps slot (cbHasps b) x.hasps s3
  let h := takeHasps wd slot (cbHaspInit b) (x.hasps.take (cbHasps b)) (cbHasps b) s4
  modCtx slot (fun c => { noteGraph s.now c with
    cfg := b, fr := replan x.cfg b { c.fr with held := if cbReplay b then c.fr.held else [] }, hasps := h.1,
    bandLatches := if cbFlow b then flowBands b else if x.graph.isSome then c.bandLatches else 0 }) h.2
/-- CTX_CONFIGURE with its block read. -/
def ctxConfigureGo (slot seq : Nat) (x : Ctx) (raw : Bytes) (s : State) : State :=
  let b := keepCreation x.cfg raw
  match ctxBlockBad s (ctxEnv s slot x) b with
  | some bad => refuseBlock (.ctx slot) seq kBadConfig bad s
  | none => completeOk (.ctx slot) seq [] (applyCtx slot x b s)
/-- CTX_CONFIGURE: accepted; frames take the new block up by 01 R24. -/
def execCtxConfigure (slot seq : Nat) (s : State) : Out :=
  ctxCommand slot seq 0x22 s (fun c x s =>
    ctxConfigureGo slot seq x (hostRead s (entAddr0 c.entry) 256) (chargeHost slot 256 0 s))

/-! ## Destruction, grants and queries -/

/-- CTX_DESTROY: it starts the teardown of the context it names, or waits for one in progress, and completes with the
teardown (10 R377; 11 R404); a slot or generation that is not the function's own is not found. -/
def ctxDestroyGo (fn seq : Nat) (c : Cmd) (s : State) : State :=
  let slot := entArg c.entry 0
  let named := decide (slot < 1024) && (slotOf s slot).gen == entArg c.entry 1 && isHeld (slotOf s slot).state
    && ((ctxOf s slot).map (·.ward)) == some fn
  if named then modCmd (.admin fn) seq (fun c => { c with started := true, aux := slot }) (startTeardown slot {} s)
  else complete (.admin fn) seq kBadState 0x03 [] s
/-- CTX_DESTROY. -/
def execCtxDestroy (fn seq : Nat) (s : State) : Out :=
  need (readyCmd (.admin fn) seq 0x05 s) "the command is not ready" (fun c =>
    guardThat (!c.started) "the destroy is in progress" (.next (ctxDestroyGo fn seq c s)))

/-- A hasp by a context's index: own below 4,096, granted from there on (10 R365). -/
def haspAt (x : Ctx) (i : Nat) : Option Nat := if i < 4096 then x.hasps.getD i none else tget x.granted i
/-- HASP_GRANT: an own hasp to another live context of the ward, at most 64 grants a hasp; the lowest free index of the
grantee. A hasp already granted to it, or with 64 grants, is in use. -/
def haspGrantGo (slot seq : Nat) (c : Cmd) (x : Ctx) (s : State) : State :=
  let r : RingRef := .ctx slot
  let g := entArg c.entry 1
  match (if entArg c.entry 0 < 4096 then haspAt x (entArg c.entry 0) else none), namedCtx s g (entArg c.entry 2) with
  | some id, some y =>
    if y.ward ≠ x.ward ∨ g = slot then fail r seq kBadState 0x03 s
    else if 64 ≤ (((tget s.hasps id).map (·.grants)).getD []).length ∨ y.granted.any (fun e => e.2 == id) then fail r seq kBadState 0x02 s
    else
      let i := freeKeyFrom y.granted 4096
      if 8192 ≤ i then fail r seq kBadState 0x02 s
      else
        completeOk r seq (natLe 4 i)
          (modHasp id (fun h => { h with grants := h.grants ++ [(g, i)] }) (modCtx g (fun y => { y with granted := tput y.granted i id }) s))
  | _, _ => fail r seq kBadState 0x03 s
/-- HASP_GRANT. -/
def execHaspGrant (slot seq : Nat) (s : State) : Out := ctxCommand slot seq 0x2D s (fun c x s => haspGrantGo slot seq c x s)
/-- HASP_RELEASE: the context gives up an own or granted hasp; the hasp stays allocated until its owner and every grantee
have. A hasp that the context holds, or on which one of its threads is parked, is in use (log 18). -/
def haspReleaseGo (slot seq : Nat) (c : Cmd) (x : Ctx) (s : State) : State :=
  let r : RingRef := .ctx slot
  let i := entArg c.entry 0
  match haspAt x i with
  | none => fail r seq kBadState 0x03 s
  | some id =>
    let h := (tget s.hasps id).getD {}
    if 0 < tgetD h.held slot 0 ∨ h.parked.any (fun w => match w with | .thread t => threadSlot s t == some slot | .peer .. => false)
    then fail r seq kBadState 0x02 s
    else
      let s1 := modCtx slot (fun y => { y with
        hasps := if i < 4096 then y.hasps.set i none else y.hasps
        granted := if i < 4096 then y.granted else tdel y.granted i }) s
      let s2 := modHasp id (fun h => { h with
        owner := if i < 4096 then none else h.owner
        grants := if i < 4096 then h.grants else h.grants.filter (· != (slot, i)) }) s1
      completeOk r seq [] (haspReap id s2)
/-- HASP_RELEASE. -/
def execHaspRelease (slot seq : Nat) (s : State) : Out := ctxCommand slot seq 0x2E s (fun c x s => haspReleaseGo slot seq c x s)

/-- The accounting record of a context (10 Table 10-6). -/
def acctRecord (s : State) (slot gen : Nat) (a : Account) : Bytes :=
  natLe 4 1 ++ natLe 2 slot ++ natLe 2 gen ++ List.replicate 16 0
    ++ natLe 8 a.fixed.toNat ++ natLe 8 a.te.toNat ++ natLe 8 a.ve.toNat ++ natLe 8 a.me.toNat ++ natLe 8 a.se.toNat
    ++ natLe 8 a.vaultRd.toNat ++ natLe 8 a.vaultWr.toNat ++ natLe 8 a.hostRx.toNat ++ natLe 8 a.hostTx.toNat
    ++ natLe 8 a.hingeRx.toNat ++ natLe 8 a.hingeTx.toNat ++ natLe 8 (a.energyFj / 10 ^ 9) ++ natLe 8 (tb s)
/-- ACCT_QUERY: the record of 10 Table 10-6, a snapshot of one instant. -/
def execAcctQuery (slot seq : Nat) (s : State) : Out :=
  ctxCommand slot seq 0x35 s (fun c x s =>
    completeOk (.ctx slot) seq [] (chargeHost slot 0 128 (hostWrite (entAddr0 c.entry) (acctRecord s slot x.gen x.acct) s)))

end Sys2Proof.Machine
end

