-- ==== Sys2Proof/Machine/Surfaces.lean ====
section
/-!
DEFINITION. Surfaces of a render packet: element formats, the packed-tile format, colour conversion, the conversion of the
other surfaces, and pyramids (02 R66, R84–R95).
-/
namespace Sys2Proof.Machine

/-! ## Formats (02 Tables 2-4, 2-11) -/

/-- Bytes of an element of a format; none for an undefined code. -/
def elemSize (f : Nat) : Option Nat :=
  match f with
  | 0x01 | 0x03 | 0x04 | 0x05 | 0x07 | 0x08 | 0x09 | 0x0C => some 4
  | 0x02 => some 8
  | 0x06 | 0x0B => some 2
  | 0x0A => some 12
  | 0x0D => some 64
  | 0x0E => some 16
  | _ => none
/-- Bit widths of a format's channels in coding order. -/
def chanBits (f : Nat) : List Nat :=
  match f with
  | 0x01 => [11, 11, 10]
  | 0x02 => [16, 16, 16, 16]
  | 0x03 | 0x07 => [32]
  | 0x04 | 0x05 => [16, 16]
  | 0x06 => [16]
  | 0x08 | 0x09 => [8, 8, 8, 8]
  | _ => []
/-- The formats that a surface type permits. -/
def typeFormats (t : Nat) : List Nat :=
  match t with
  | 1 => [0x01, 0x02]
  | 2 => [0x03]
  | 3 => [0x04]
  | 4 => [0x05]
  | 5 => [0x06]
  | 6 => [0x07]
  | 7 => [0x08, 0x09]
  | 8 => [0x0A]
  | 9 => [0x0B, 0x0C]
  | 10 => [0x0D]
  | 11 => [0x0E]
  | _ => []
/-- May the type be packed? -/
def typePacked (t : Nat) : Bool := (decide (1 ≤ t) && decide (t ≤ 5)) || t == 7

/-! ## Packed tiles (02 R84–R89) -/

/-- `w` bits of a number from bit `o`. -/
def bitsAt (n o w : Nat) : Nat := n / 2 ^ o % 2 ^ w
/-- Consecutive fields of the given widths, least significant first. -/
def splitBits (n o : Nat) : List Nat → List Nat
  | [] => []
  | w :: r => bitsAt n o w :: splitBits n (o + w) r
/-- Undo the zigzag of a residual and add the prediction (02 R88). -/
def unzig (w p z : Nat) : Nat :=
  let s := if z % 2 = 0 then z / 2 else (2 ^ w - 1) ^^^ (z / 2)
  (p + s) % 2 ^ w
/-- Decode the residual pixels after the first; `acc` holds the decoded pixels, last first. -/
def residuals (bw : Nat) (ws ks : List Nat) (n : Nat) : Nat → Nat → Nat → List (List Nat) → List (List Nat)
  | 0, _, _, acc => acc
  | fuel + 1, i, o, acc =>
    let p := if i % bw = 0 then acc.getD (bw - 1) [] else acc.headD []
    let zs := splitBits n o ks
    let px := (List.range ws.length).map (fun c => unzig (ws.getD c 0) (p.getD c 0) (zs.getD c 0))
    residuals bw ws ks n fuel (i + 1) (o + sumL ks) (px :: acc)
/-- The pixels of a block of `bw` × `bh`, each its channels; none for BLOCK_STREAM. -/
def decodeBlock (f bw bh : Nat) (b : Bytes) : Option (List (List Nat)) :=
  let ws := chanBits f
  let n := bw * bh
  let h := fld b 0 1
  let size := (elemSize f).getD 0
  if b.length = 0 ∨ 4 ≤ h then none
  else if h = 0 then
    if b.length < 1 + size * n then none
    else some ((List.range n).map (fun i => splitBits (fld b (1 + size * i) size) 0 ws))
  else if h = 1 then
    if 8 * (b.length - 1) < sumL ws then none else some (List.replicate n (splitBits (leNat (b.drop 1)) 0 ws))
  else if h = 2 then
    let k := ws.length
    let ks := (List.range k).map (fun c => fld b (1 + c) 1)
    if b.length < 1 + k ∨ (List.range k).any (fun c => decide (ws.getD c 0 < ks.getD c 0))
      ∨ 8 * (b.length - 1 - k) < sumL ws + (n - 1) * sumL ks then none
    else
      let bits := leNat (b.drop (1 + k))
      some ((residuals bw ws ks bits (n - 1) 1 (sumL ws) [splitBits bits 0 ws]).reverse)
  else none
/-- Blocks of an image. -/
def blockCount (w h : Nat) : Nat := cdiv w 16 * cdiv h 16
/-- The offset table obeys 02 R84. -/
def offsetsOk (w h : Nat) (p : Bytes) : Bool :=
  let n := blockCount w h
  let off := fun i => fld p (4 * i) 4
  decide (4 * n ≤ p.length) && (List.range n).all (fun i =>
    off i % 4 == 0 && decide (4 * n ≤ off i) && decide (off i < p.length) && (i == 0 || decide (off (i - 1) < off i)))
/-- Block i of a packed payload. -/
def blockOf (f w h : Nat) (p : Bytes) (i : Nat) : Option (List (List Nat)) :=
  let n := blockCount w h
  let x := i % cdiv w 16
  let y := i / cdiv w 16
  let o := fld p (4 * i) 4
  let e := if i + 1 < n then fld p (4 * (i + 1)) 4 else p.length
  decodeBlock f (min 16 (w - 16 * x)) (min 16 (h - 16 * y)) ((p.drop o).take (e - o))
/-- Put blocks together in raster order. -/
def joinBlocks (w h : Nat) (bs : List (List (List Nat))) : List Nat :=
  (List.range (w * h)).flatMap (fun i =>
    let x := i % w
    let y := i / w
    let bw := min 16 (w - x / 16 * 16)
    ((bs.getD (y / 16 * cdiv w 16 + x / 16) []).getD (y % 16 * bw + x % 16) []))
/-- Reasons of 02 Table 2-9 that decoding finds. -/
def irBlockOffset : Nat := 0x0C
def irBlockStream : Nat := 0x0D
/-- Decode a packed payload, or the reason it is missing. -/
def decodePacked (f w h : Nat) (p : Bytes) : Except Nat Img :=
  if !offsetsOk w h p then .error irBlockOffset
  else
    let bs := (List.range (blockCount w h)).map (blockOf f w h p)
    if bs.any (·.isNone) then .error irBlockStream
    else .ok { w := w, h := h, ch := (chanBits f).length, data := joinBlocks w h (bs.map (·.getD [])) }
/-- Decode a raw payload of rows `pitch` bytes apart. -/
def decodeRaw (f w h pitch : Nat) (p : Bytes) : Img :=
  let size := (elemSize f).getD 0
  let pt := if pitch = 0 then w * size else pitch
  { w := w, h := h, ch := (chanBits f).length,
    data := (List.range (w * h)).flatMap (fun i => splitBits (fld p (i / w * pt + i % w * size) size) 0 (chanBits f)) }

/-! ## Images -/

/-- A channel of an image at a position clamped to the image. -/
def Img.at_ (m : Img) (x y : Int) (c : Nat) : Nat :=
  let cx := (clampI 0 ((m.w : Int) - 1) x).toNat
  let cy := (clampI 0 ((m.h : Int) - 1) y).toNat
  m.data.getD ((cy * m.w + cx) * m.ch + c) 0
/-- An image from a function of column, row and channel. -/
def imgOf (w h ch : Nat) (f : Nat → Nat → Nat → Nat) : Img :=
  { w := w, h := h, ch := ch,
    data := (List.range (w * h)).flatMap (fun i => (List.range ch).map (f (i % w) (i / w))) }
/-- Map each pixel's channels. -/
def Img.mapPx (m : Img) (ch : Nat) (f : List Nat → List Nat) : Img :=
  { m with ch := ch, data := (List.range (m.w * m.h)).flatMap (fun i => f ((m.data.drop (i * m.ch)).take m.ch)) }

/-! ## Transfer tables (02 R92, R93): exact values, rounded to binary64 and then to binary32 -/

/-- binary64. -/
def fFP64 : Fmt := { eb := 11, mb := 52, ieee := true }
/-- Round a value to binary64 and then to binary32. -/
def via64 (v : FV) : Nat := rne32 (unpack fFP64 (rne fFP64 v))
/-- x to the power p / q for x ≥ 0, by the exponential of the logarithm. -/
def powFV (x : FV) (p : Int) (q : Nat) : FV :=
  if x.isZero then .fin false 0 0 else FV.exp2 (FV.div (FV.mul (FV.log2 x) (.ofInt p 0)) (.fin false q 0))
/-- A ratio as a value. -/
def ratioFV (n : Int) (d : Nat) : FV := FV.div (.ofInt n 0) (.fin false d 0)
/-- The ST 2084 display luminance ÷ 100 at x. -/
def pqFV (x : FV) : FV :=
  let t := powFV x 32 2523
  let a := FV.add t (ratioFV (-3424) 4096)
  let num := if FV.lt a (.fin false 0 0) then .fin false 0 0 else a
  let den := FV.add (ratioFV 2413 128) (FV.mul (ratioFV 2392 128) t).neg
  FV.mul (.fin false 100 0) (powFV (FV.div num den) 16384 2610)
/-- log2 e to 40 decimal places. -/
def log2e : FV := ratioFV 14426950408889634073599246810018921374266 (10 ^ 40)
/-- The BT.2100 HLG inverse OETF at x. -/
def hlgFV (x : FV) : FV :=
  if FV.le x (.fin false 1 (-1)) then FV.div (FV.mul x x) (.fin false 3 0)
  else
    let z := FV.div (FV.add x (ratioFV (-55991073) 100000000)) (ratioFV 17883277 100000000)
    FV.div (FV.add (FV.exp2 (FV.mul z log2e)) (ratioFV 28466892 100000000)) (.fin false 12 0)
/-- Node i of a table: 0 PQ, 1 HLG, 2 gamma. -/
def tableNode (t i : Nat) : Nat :=
  let x : FV := .fin false i (-10)
  via64 (if t = 0 then pqFV x else if t = 1 then hlgFV x else powFV x 1 5)
/-- Evaluate a table at an FP32 x of [0, 1] (02 R92). -/
def tableAt (t x : Nat) : Nat :=
  let x1024 := mul32 x (int32f 1024)
  let j := min (floor32 x1024).toNat 1023
  let fr := sub32 x1024 (int32f j)
  add32 (tableNode t j) (mul32 fr (sub32 (tableNode t (j + 1)) (tableNode t j)))
/-- The sRGB decoding of a byte / 255, or the byte / 255 itself. -/
def uiTable (srgb : Bool) (c : Nat) : Nat :=
  if !srgb then via64 (ratioFV c 255)
  else if c * 100000 ≤ 4045 * 255 then via64 (ratioFV (c * 100) (255 * 1292))
  else via64 (powFV (ratioFV (1000 * c + 55 * 255) (255 * 1055)) 12 5)

/-! ## Conversion (02 R90–R94) -/

/-- 65,504 in FP32. -/
def max16f : Nat := 0x477FE000
/-- A clamp of an FP32 value by the minimum and maximum of 03 R125. -/
def clamp32 (lo hi x : Nat) : Nat := min32 (max32 x lo) hi
/-- A coefficient of 02 R91 in ten-thousandths. -/
def coeff (n : Int) : Nat := ratio32 n 10000
/-- ((c0 × R + c1 × G) + c2 × B). -/
def dot3 (c0 c1 c2 : Int) (p : List Nat) : Nat :=
  add32 (add32 (mul32 (coeff c0) (p.getD 0 0)) (mul32 (coeff c1) (p.getD 1 0))) (mul32 (coeff c2) (p.getD 2 0))
/-- BT.709 to BT.2020 primaries. -/
def to2020 (p : List Nat) : List Nat := [dot3 6274 3293 433 p, dot3 691 9195 114 p, dot3 164 880 8956 p]
/-- A colour channel as FP32 before replacement. -/
def colourRaw (f c v : Nat) : Nat := if f = 1 then h2f (if c = 2 then v * 32 else v * 16) else h2f v
/-- NaN becomes 0 and infinities ±65,504. -/
def finite16 (v : Nat) : Nat :=
  if isNaN32 v then 0 else if isFin32 v then v else if v < 2 ^ 31 then max16f else max16f + 2 ^ 31
/-- Remove the transfer: 0 linear, 1 PQ, 2 HLG. -/
def unTransfer (t : Nat) (p : List Nat) : List Nat :=
  if t = 1 then p.map (fun v => tableAt 0 (clamp32 0 one32 v))
  else if t = 2 then
    let q := p.map (fun v => tableAt 1 (clamp32 0 one32 v))
    let ys := clamp32 0 one32 (dot3 2627 6780 593 q)
    let k := mul32 (int32f 10) (tableAt 2 ys)
    q.map (fun v => mul32 v k)
  else p
/-- One converted colour pixel: FP16, alpha 1.0. -/
def colourPx (f primaries transfer : Nat) (p : List Nat) : List Nat :=
  let raw := [finite16 (colourRaw f 0 (p.getD 0 0)), finite16 (colourRaw f 1 (p.getD 1 0)), finite16 (colourRaw f 2 (p.getD 2 0))]
  let lin := unTransfer transfer raw
  let prim := if primaries = 0 then to2020 lin else lin
  prim.map (fun c => f2h (min32 (max32 c 0) max16f)) ++ [0x3C00]
/-- Replacements of non-finite colour channels in an image. -/
def colourReplaced (f : Nat) (m : Img) : Nat :=
  ((List.range (m.w * m.h)).map (fun i =>
    ((List.range 3).filter (fun c => !isFin32 (colourRaw f c (m.data.getD (i * m.ch + c) 0)))).length)).foldl (· + ·) 0
/-- The converted colour of an image as decoded. -/
def convertColour (f primaries transfer : Nat) (m : Img) : Img := m.mapPx 4 (colourPx f primaries transfer)
/-- Farthest depth (02 Table 2-10). -/
def farthest (reversed : Bool) : Nat := if reversed then 0 else one32
/-- DEPTH: NaN becomes the farthest depth, other values are clamped to [0, 1]. -/
def convertDepth (reversed : Bool) (m : Img) : Img :=
  { m with data := m.data.map (fun d => if isNaN32 d then farthest reversed else clamp32 0 one32 d) }
/-- MOTION: NaN becomes 0 and infinities ±65,504. -/
def convertMotion (m : Img) : Img :=
  { m with data := m.data.map (fun v => if fisNaN fFP16 v then 0 else if fisFin fFP16 v then v else if v < 32768 then 0x7BFF else 0xFBFF) }
/-- NORMAL: the decoded unit normal, each component rounded once to FP16 (02 R66; log 23). -/
def normalPx (p : List Nat) : List Nat :=
  let vx : Int := max (sext 16 (p.getD 0 0)) (-32767)
  let vy : Int := max (sext 16 (p.getD 1 0)) (-32767)
  let z : Int := 32767 - vx.natAbs - vy.natAbs
  let sg := fun (v : Int) => if v < 0 then (-1 : Int) else 1
  let nx := if z < 0 then (32767 - (vy.natAbs : Int)) * sg vx else vx
  let ny := if z < 0 then (32767 - (vx.natAbs : Int)) * sg vy else vy
  let r := FV.rsqrt (.ofInt (nx * nx + ny * ny + z * z) 0)
  [nx, ny, z].map (fun c => rne fFP16 (FV.mul (.ofInt c 0) r))
/-- The replacements of non-finite values of a surface by type. -/
def replacedIn (ty f : Nat) (m : Img) : Nat :=
  if ty = 1 then colourReplaced f m
  else if ty = 2 then (m.data.filter (fun d => !isFin32 d)).length
  else if ty = 3 then (m.data.filter (fun d => !fisFin fFP16 d)).length
  else 0
/-- UI pixels: linear premultiplied FP32 values and alpha (02 R93). -/
def uiPx (f primaries : Nat) (p : List Nat) : List Nat :=
  let c := (List.range 3).map (fun i => uiTable (f == 9) (p.getD i 0))
  (if primaries = 0 then to2020 c else c) ++ [uiTable false (p.getD 3 0)]
def convertUi (f primaries : Nat) (m : Img) : Img := m.mapPx 4 (uiPx f primaries)

/-! ## Pyramids (02 R95) -/

/-- The next level of a colour pyramid. -/
def nextColour (m : Img) : Img :=
  imgOf (cdiv m.w 2) (cdiv m.h 2) m.ch (fun x y c =>
    let v := fun (dx dy : Nat) => h2f (m.at_ (2 * x + dx) (2 * y + dy) c)
    f2h (mul32 (add32 (add32 (v 0 0) (v 1 0)) (add32 (v 0 1) (v 1 1))) 0x3E800000))
/-- The next level of a depth pyramid: the nearest of four. -/
def nextDepth (reversed : Bool) (m : Img) : Img :=
  imgOf (cdiv m.w 2) (cdiv m.h 2) 1 (fun x y _ =>
    let v := fun (dx dy : Nat) => m.at_ (2 * x + dx) (2 * y + dy) 0
    let pick := if reversed then max32 else min32
    pick (pick (v 0 0) (v 1 0)) (pick (v 0 1) (v 1 1)))
/-- k levels above a base. -/
def levelsFrom (next : Img → Img) : Nat → Img → List Img
  | 0, _ => []
  | k + 1, m => let n := next m; n :: levelsFrom next k n

end Sys2Proof.Machine
end

