-- ==== Sys2Proof/Machine/Latency.lean ====
section
/-!
DEFINITION. The terms of the latency formula, deadlines, L_3 and cut-offs (01 R26, R56–R58, R61; 07 R285; 08 R297; 09 R322,
R324; 10 R354; 16 R517).
-/
namespace Sys2Proof.Machine

/-! ## The allotment and its clock -/

/-- The core mask of the group that a block of a ward's context names. -/
def groupMask (s : State) (wd : Nat) (c : Bytes) : Nat := (wardOf s wd).cfg.groups.getD (cbGroup c) 0
/-- A: the cores of an allotment. -/
def allotted (group : Nat) : Nat := popcount 2048 group
/-- N of 01 Table 1-5 for an LC context, and of 10 R354 for a head-bound BE context, with a block and the cores of a group. -/
def contenders (s : State) (slot wd : Nat) (c : Bytes) (group : Nat) : Nat :=
  1 + ((wardCtxs s wd isLive).filter (fun y =>
    y.1 != slot && (y.2.group &&& group) != 0 &&
      (if cbClassBE c then cbClassBE y.2.cfgInForce && y.2.head.isSome else !cbClassBE y.2.cfgInForce))).length
/-- The divisor of the lowest core clock in force or targeted on the group (16 R517): 10 R516 leaves some of its cores at the
earlier point while a context that shares a core with it is awaited. -/
def clockDiv (s : State) (group : Nat) : Nat :=
  if unmovedCores s &&& group != 0 then max (coreDiv s.op.target) (coreDiv s.op.prev) else coreDiv s.op.target

/-- A frame's start instant falls before the last decision, or in its fabric cycle (16 R516, R519). -/
def beforeDecision (s : State) (t0 : Nat) : Bool := (s.op.decidedAt.map (fun d => decide (t0 / 8 ≤ d / 8))).getD false
/-- The clock divider of a frame: from before a decision that its start instant precedes (16 R517, R519). -/
def frameDiv (s : State) (t0 group : Nat) : Nat := if beforeDecision s t0 then coreDiv s.op.prev else clockDiv s group
/-- Root cycles of ⌈T/A⌉ × (C + Q (N − 1)) / f. -/
def rounds (s : State) (slot wd : Nat) (c : Bytes) (div tiles cost : Nat) : Nat :=
  let m := groupMask s wd c
  cdiv tiles (allotted m) * ((cost + (wardOf s wd).cfg.quantum * (contenders s slot wd c m - 1)) * div)
/-- Root cycles of S/W: the share is in units of 62.5 MB/s. -/
def ingestTime (s : State) (wd bytes : Nat) : Q := Q.ratio (96 * bytes : Nat) (wardOf s wd).cfg.ingest
/-- Root cycles of G/ρ: a front end sets up one primitive in 2 fabric cycles. -/
def rasterTime (c : Bytes) (prims : Nat) : Q := Q.ratio (16 * prims : Nat) (popcount 16 (cbFeMask c))

/-! ## Costs (01 R50, R551) -/

/-- A rung-table entry: rows 0 U, 1 G by interpolation, 2 G by extrapolation. -/
def rungCost (img : Option Bytes) (row k : Nat) : Nat :=
  match img with
  | none => rung3Cost row
  | some b => if k = 3 then rung3Cost row else imCost b row k
/-- C_3 of an A or P frame. -/
def copyCost : Nat := 2048
/-- Patches captured from an A frame (08 R294). -/
def captureCount (c : Bytes) : Nat := min (cbCaptures c) ((cbWidth c / 64 - 1) * (cbHeight c / 64 - 1))
/-- C_cap of 08 R297. -/
def captureCost (img c : Bytes) : Nat := 2 * patchBytes img c / 64
/-- A configuration with the adaptation parameters in force, those of the latest step boundary (08 R288). -/
def adaptOver (c block : Bytes) : Bytes := patch c 0x070 (slice block 0x070 44)
/-- Adaptation acts: it is on, and an image is bound (01 R551). -/
def adapts (img : Option Bytes) (c : Bytes) : Bool := cbAdapt c && img.isSome

/-! ## The vision term (07 R285) -/

def fgNodes (g : Bytes) : Nat := fld g 9 1
def fgBuffers (g : Bytes) : Nat := fld g 10 1
/-- Node and buffer records of a frame graph. -/
def fgNode (g : Bytes) (k : Nat) : Bytes := slice g (64 + 32 * k) 32
def fgBuffer (g : Bytes) (k : Nat) : Bytes := slice g (64 + 32 * fgNodes g + 32 * k) 32
/-- Engine work of a node in fabric cycles: pixels of its first input. -/
def fgWork (g : Bytes) (k : Nat) : Nat :=
  let n := fgNode g k
  let b := fgBuffer g (fld n 1 1)
  let px := fld b 4 2 * fld b 6 2
  if fld n 0 1 = 1 then cdiv px 4 else if fld n 0 1 = 2 then cdiv (px * (fld n 12 1 + 1)) 64 else 0
/-- Has a graph a MOTION_OUT? -/
def hasMotionOut (g : Bytes) : Bool := (List.range (fgBuffers g)).any (fun k => fld (fgBuffer g k) 0 1 == 0x10)
/-- L_V in root cycles, zero without a MOTION_OUT: N_V counts the ward's LC contexts with a graph and this one (07 R285). -/
def visionTime (s : State) (x : Ctx) (c : Bytes) : Q :=
  match graphOf x c with
  | none => {}
  | some g =>
    if hasMotionOut g then
      let w := sumL ((List.range (fgNodes g)).map (fgWork g))
      let nv := ((wardCtxs s x.ward isLive).filter (fun y => !cbClassBE y.2.cfg && (graphOf y.2 y.2.cfg).isSome)).length + b2n (cbClassBE x.cfg)
      Q.add (Q.ofInt (4096 * 8 + 12000)) (Q.ratio (nv * w * 8 : Nat) (popcount 8 (wardOf s x.ward).cfg.flowMask))
    else {}

/-! ## Hops (01 Table 1-5; 12 R423) -/

/-- Links on the way to a destination device; a static route counts one (log 26). -/
def hopsTo (s : State) (dest : Nat) : Nat :=
  match s.hinge.cfg, routeOf s dest with
  | some b, some r =>
    let n := hcRingSize b
    let own := hcPosition b
    let last := if r.port = 0xFF then 0 else 1
    if hcTopology b = 0 then 1
    else if hcTopology b = 1 then (if own < r.position then r.position - own else own - r.position) + last
    else
      let up := (r.position + n - own) % n
      if r.position = own then last
      else if routePort s dest = some 0 then up + last else n - up + last
  | _, _ => 0
/-- Hops that a head's slices cross on their way out. -/
def hopsOut (s : State) (h : Bytes) : Nat := if hbHinge h then hopsTo s (hbHingeDest h % 4096) else 0
/-- H: hops of the latest accepted render packet and of the slices. -/
def hopsOf (s : State) (x : Ctx) (h : Bytes) : Nat :=
  hopsOut s h + ((x.ing.past.getLast?.map (·.hops)).getD 0)

/-! ## Slots (01 R26) -/

/-- The kind of the slot at a place among the 1 + g slots of a render frame number. -/
def slotKindAt (c : Bytes) (place : Nat) : SlotKind :=
  if extrapolates c then (if place = 0 then .rendered else .genExtra) else (if place = cbG c then .rendered else .genInter)
/-- The slot of rendered frame n itself. -/
def ownSlot (c : Bytes) (n : Nat) : Nat := slotNumber c n (if extrapolates c then 0 else cbG c)
/-- a − b of two 32-bit numbers, signed (00 R19). -/
def diff32 (a b : Nat) : Int := sext 32 ((a + 2 ^ 32 - b % 2 ^ 32) % 2 ^ 32)

/-! ## L_3, deadlines and cut-offs (01 R56–R58) -/

/-- L_3 without D, in whole root cycles, for a kind of slot: the largest of its cases. -/
def l3 (s : State) (slot : Nat) (x : Ctx) (h : Bytes) (k : SlotKind) : Nat :=
  let c := x.cfg
  let img := boundImage s x
  let div := clockDiv s (groupMask s x.ward c)
  let ui := 2 * cbUi c
  let tiles := tileCount c
  let case_ := fun (bytes prims cost extra : Nat) (v : Q) =>
    Q.add v (Q.add (Q.add (ingestTime s x.ward bytes) (rasterTime c prims)) (Q.ofInt (rounds s slot x.ward c div tiles cost + extra : Nat)))
  let v := visionTime s x c
  let cap := match img with
    | some b =>
      let a := adaptOver c x.ad.block
      if cbAdapt a then rounds s slot x.ward c div (captureCount a) (captureCost b a) else 0
    | none => 0
  let cases := match k with
    | .rendered => [case_ (cbSMax c) ui (rungCost img 0 3) 0 v, case_ (cbSMax c) ui copyCost cap v,
                    case_ 0 (cbGMax c + ui) (rungCost img 2 3) 0 {}]
    | .genExtra => [case_ 128 (cbGMax c + ui) (rungCost img 2 3) 0 {}]
    | .genInter => [case_ (cbSMax c) (cbGMax c + ui) (rungCost img 1 3) 0 v, case_ 0 (cbGMax c + ui) (rungCost img 2 3) 0 {}]
  (Q.ceil (cases.foldl Q.max {})).toNat + 2700 * hopsOf s x h
/-- L_3 as the Keeper last computed it: during a firmware switch, what it was as the switch began (15 R496). -/
def l3Now (s : State) (slot : Nat) (x : Ctx) (h : Bytes) (k : SlotKind) : Nat :=
  ((s.fw.l3Held.find? (fun e => e.1 == (slot, k))).map (·.2)).getD (l3 s slot x h k)
/-- L_3 of every context with a head, for a switch to hold. -/
def holdL3 (s : State) : List ((Nat × SlotKind) × Nat) :=
  s.ctxs.flatMap (fun c => match c.2.head.bind (fun h => (headOf s h).cfg) with
    | some h => [SlotKind.rendered, .genExtra, .genInter].map (fun k => ((c.1, k), l3 s c.1 c.2 h k))
    | none => [])
/-- The interval between deadlines (01 R56; 09 R325). -/
def headInterval (h : Bytes) : Nat := if hbVrr h then hbMaxPeriod h else hbPeriod h
/-- The deadline of a frame in head units, from the head's reference. -/
def deadlineOf (hd : Head) (number : Nat) : Nat :=
  match hd.cfg with
  | some h => ((hd.refInstant : Int) + diff32 number hd.refFrame * headInterval h).toNat
  | none => 0
/-- Deadline − D, formed in head units and taken to TB, in root cycles (01 R57). -/
def leadStart (h : Bytes) (deadline : Nat) : Int := ((deadline : Int) - hbD h) / 65536 * 60
/-- The cut-off of a frame in root cycles. -/
def cutoffOf (s : State) (slot : Nat) (x : Ctx) (hd : Head) (number : Nat) (k : SlotKind) : Int :=
  match hd.cfg with
  | some h => leadStart h (deadlineOf hd number) - l3Now s slot x h k
  | none => 0
/-- An instant falls no later than another one's fabric cycle (02 R79). -/
def byCycle (t : Nat) (c : Int) : Bool := decide ((t : Int) / 8 ≤ c / 8)

end Sys2Proof.Machine
end

