-- ==== Sys2Proof/Machine/Ingest.lean ====
section
/-!
DEFINITION. Ingest of render and pose packets: transfer, arrival, the checks of 02 R73, mesh sets, and pose ingest
(02 R64–R73, R75–R77, R81, R83; 11 R399).
-/
namespace Sys2Proof.Machine

/-! ## Headers (02 Tables 2-2, 2-3, 2-5, 2-8) -/

def rpKind (p : Bytes) : Nat := fld p 5 1
def rpCount (p : Bytes) : Nat := fld p 6 1
def rpReversed (p : Bytes) : Bool := (fld p 7 1).testBit 0
def rpCameraValid (p : Bytes) : Bool := (fld p 7 1).testBit 1
def rpSlot (p : Bytes) : Nat := fld p 8 2 % 1024
def rpGen (p : Bytes) : Nat := fld p 10 2
def rpFrame (p : Bytes) : Nat := fld p 12 4
def rpLength (p : Bytes) : Nat := fld p 16 4
def rpPrimaries (p : Bytes) : Nat := fld p 32 1
def rpTransfer (p : Bytes) : Nat := fld p 33 1
/-- `n` FP32 patterns from a byte offset. -/
def words32 (p : Bytes) (off n : Nat) : List Nat := (List.range n).map (fun i => fld p (off + 4 * i) 4)
def rpCamera (p : Bytes) : Camera := { view := words32 p 40 12, proj := words32 p 88 6 }
def posSlot (p : Bytes) : Nat := fld p 4 2 % 1024
def posGen (p : Bytes) : Nat := fld p 6 2
/-- The header is valid and agrees with the bytes transferred (02 R64, R73). -/
def headerOk (p : Bytes) : Bool :=
  fld p 0 4 == 0x504B5A42 && fld p 4 1 == 1 && decide (rpKind p ≤ 2) && decide (1 ≤ rpCount p) && decide (rpCount p ≤ 32)
    && subMask (fld p 7 1) 3 && decide (fld p 8 2 < 1024) && fld p 20 4 == 0 && decide (rpPrimaries p ≤ 1) && decide (rpTransfer p ≤ 2)
    && allZero (slice p 34 6) && allZero (slice p 112 16) && rpLength p == p.length && decide (128 + 32 * rpCount p ≤ rpLength p)
/-- A pose packet passes the checks of 02 R68. -/
def poseOk (p : Bytes) : Bool :=
  p.length == 128 && fld p 0 2 == 0x4F50 && fld p 2 1 == 1 && subMask (fld p 3 1) 1 && decide (fld p 4 2 < 1024)
    && allZero (slice p 96 28) && crc32 (slice p 0 124) == fld p 124 4

/-- A directory entry. -/
structure DirEnt where
  ty : Nat := 0
  fmt : Nat := 0
  enc : Nat := 0
  layer : Nat := 0
  w : Nat := 0
  h : Nat := 0
  pitch : Nat := 0
  off : Nat := 0
  len : Nat := 0
  dx : Nat := 0
  dy : Nat := 0
  deriving DecidableEq, Repr
/-- Entry i of a packet's directory. -/
def dirEnt (p : Bytes) (i : Nat) : DirEnt :=
  let o := 128 + 32 * i
  { ty := fld p o 1, fmt := fld p (o + 1) 1, enc := fld p (o + 2) 1, layer := fld p (o + 3) 1, w := fld p (o + 4) 2,
    h := fld p (o + 6) 2, pitch := fld p (o + 8) 4, off := fld p (o + 12) 4, len := fld p (o + 16) 4, dx := fld p (o + 20) 2,
    dy := fld p (o + 22) 2 }
/-- The payload of an entry. -/
def payloadOf (p : Bytes) (d : DirEnt) : Bytes := slice p d.off d.len
/-- Is the type a buffer (02 Table 2-4)? DESIGN CHOICE: the mesh types and HIERARCHY_REF are, and EXPOSURE is a raw image (log 53). -/
def isBuffer (ty : Nat) : Bool := decide (8 ≤ ty) && decide (ty ≤ 11)
/-- The DIRECTORY test of 02 R73. -/
def dirOk (p : Bytes) (i : Nat) : Bool :=
  let d := dirEnt p i
  (typeFormats d.ty).contains d.fmt && decide (d.enc ≤ 1) && (d.enc == 0 || typePacked d.ty)
    && (if d.ty = 7 then decide (d.layer ≤ 7) else d.layer == 0 && d.dx == 0 && d.dy == 0)
    && ((d.enc == 0 && !isBuffer d.ty) || d.pitch == 0) && allZero (slice p (128 + 32 * i + 24) 8)
/-- The PAYLOAD_RANGE test, against the ranges of earlier entries that passed it. -/
def rangeOk (p : Bytes) (earlier : List (Nat × Nat)) (d : DirEnt) : Bool :=
  let meets := fun (a n : Nat) => decide (0 < d.len) && decide (0 < n) && decide (d.off < a + n) && decide (a < d.off + d.len)
  d.off % 16 == 0 && decide (d.off + d.len ≤ p.length) && !meets 0 (128 + 32 * rpCount p) && earlier.all (fun r => !meets r.1 r.2)
/-- The DIM_PAYLOAD test. -/
def dimPayloadOk (d : DirEnt) : Bool :=
  let e := (elemSize d.fmt).getD 0
  let pitch := if d.pitch = 0 then d.w * e else d.pitch
  let need := if d.enc = 0 then pitch * (d.h - 1) + d.w * e else 4 * blockCount d.w d.h
  d.w != 0 && d.h != 0 && decide (need ≤ d.len) && (d.enc != 0 || d.pitch == 0 || decide (d.w * e ≤ d.pitch))
/-- The KIND_RESOLUTION test (01 R28). -/
def kindOk (c : Bytes) (kind : Nat) (d : DirEnt) : Bool :=
  d.ty != 1 || (if kind = 0 then d.w == inWidth c && d.h == inHeight c else d.w == cbWidth c && d.h == cbHeight c)
/-- The size rule of 02 Table 2-4. -/
def dimBindingOk (c : Bytes) (d : DirEnt) : Bool :=
  let n := d.w * d.h
  match d.ty with
  | 2 | 3 | 4 | 5 => d.w == inWidth c && d.h == inHeight c
  | 6 | 11 => d.w == 1 && d.h == 1
  | 7 => decide (d.dx + d.w ≤ cbWidth c) && decide (d.dy + d.h ≤ cbHeight c) && decide (d.layer < cbUi c)
  | 8 => decide (1 ≤ n) && decide (n ≤ 1048576)
  | 9 => decide (3 ≤ n) && decide (n ≤ 3145728) && n % 3 == 0
  | 10 => decide (1 ≤ n) && decide (n ≤ 4096)
  | _ => true

/-- Reasons of 02 Table 2-9. -/
def irHeader : Nat := 0x01
def irOversize : Nat := 0x02
def irStale : Nat := 0x03
def irDuplicate : Nat := 0x04
def irNoBuffer : Nat := 0x05
def irDirectory : Nat := 0x06
def irPayloadRange : Nat := 0x07
def irDimPayload : Nat := 0x08
def irKindResolution : Nat := 0x09
def irDimBinding : Nat := 0x0A
def irDuplicateSurface : Nat := 0x0B
def irMeshContent : Nat := 0x0E
def irHierarchyRef : Nat := 0x0F
def irPoseCheck : Nat := 0x10
def irExposureValue : Nat := 0x11

/-- What the entry checks carry along the directory: payload ranges, surfaces decided, entries accepted and missing. -/
structure DirScan where
  ranges : List (Nat × Nat) := []
  seen : List (Nat × Nat) := []
  accepted : List Nat := []
  missing : List (Nat × Nat) := []
  deriving DecidableEq, Repr
/-- One entry of the pseudocode of 02 R73. -/
def scanEntry (c p : Bytes) (st : DirScan) (i : Nat) : DirScan :=
  let d := dirEnt p i
  let miss := fun (s : DirScan) (r : Nat) => { s with missing := s.missing ++ [(i, r)] }
  if !dirOk p i then miss st irDirectory
  else
    let st1 := { st with seen := st.seen ++ [(d.ty, d.layer)] }
    if !rangeOk p st.ranges d then miss st1 irPayloadRange
    else
      let st2 := { st1 with ranges := st1.ranges ++ [(d.off, d.len)] }
      if !dimPayloadOk d then miss st2 irDimPayload
      else if !kindOk c (rpKind p) d then miss st2 irKindResolution
      else if !dimBindingOk c d then miss st2 irDimBinding
      else if st.seen.contains (d.ty, d.layer) then miss st2 irDuplicateSurface
      else { st2 with accepted := st2.accepted ++ [i] }
/-- The whole directory. -/
def scanDir (c p : Bytes) : DirScan := (List.range (rpCount p)).foldl (scanEntry c p) {}
/-- The accepted entry of a type. -/
def entryOf (p : Bytes) (accepted : List Nat) (ty : Nat) : Option Nat := accepted.find? (fun i => (dirEnt p i).ty == ty)

/-! ## Mesh sets and hierarchy references (02 R70, R72) -/

def meshVertices (p : Bytes) (d : DirEnt) : List (Nat × Nat × Nat) :=
  let b := payloadOf p d
  (List.range (d.w * d.h)).map (fun i => (fld b (12 * i) 4, fld b (12 * i + 4) 4, fld b (12 * i + 8) 4))
def meshIndices (p : Bytes) (d : DirEnt) : List Nat :=
  let b := payloadOf p d
  let e := (elemSize d.fmt).getD 1
  (List.range (d.w * d.h)).map (fun i => fld b (e * i) e)
/-- An OBJECT64 element, and whether its reserved bits are zero. -/
def meshObject (b : Bytes) (i : Nat) : MeshObject × Bool :=
  let o := 64 * i
  ({ id := fld b o 2, occluder := (fld b (o + 2) 1).testBit 0, first := fld b (o + 4) 4, tris := fld b (o + 8) 4,
     transform := words32 b (o + 16) 12 },
   subMask (fld b (o + 2) 2) 1 && fld b (o + 12) 4 == 0)
/-- The mesh set of a packet whose three surfaces passed; none when 02 R70 refuses it. -/
def meshOf (p : Bytes) (vi ii oi : Nat) : Option Mesh :=
  let dv := dirEnt p vi; let di := dirEnt p ii; let dob := dirEnt p oi
  let vs := meshVertices p dv
  let ix := meshIndices p di
  let ob := payloadOf p dob
  let objs := (List.range (dob.w * dob.h)).map (meshObject ob)
  let ids := objs.map (fun o => o.1.id)
  let ok := objs.all (fun o => o.2 && o.1.id != 0 && decide (1 ≤ o.1.tris) && o.1.first % 3 == 0
        && decide (o.1.first + 3 * o.1.tris ≤ ix.length) && o.1.transform.all isFin32)
      && (List.range ids.length).all (fun i => !((ids.take i).contains (ids.getD i 0)))
      && ix.all (fun v => decide (v < vs.length)) && vs.all (fun v => isFin32 v.1 && isFin32 v.2.1 && isFin32 v.2.2)
  if ok then some { verts := vs, indices := ix, objects := objs.map (·.1) } else none
/-- Judge the mesh surfaces together: the set, and the directory with the refused surfaces missing. -/
def judgeMesh (p : Bytes) (st : DirScan) : Option Mesh × DirScan :=
  let at_ := entryOf p st.accepted
  match at_ 8, at_ 9, at_ 10 with
  | some v, some i, some o =>
    match meshOf p v i o with
    | some m => (some m, st)
    | none => (none, { st with accepted := st.accepted.filter (fun k => k != v && k != i && k != o),
                               missing := st.missing ++ [(v, irMeshContent), (i, irMeshContent), (o, irMeshContent)] })
  | a, b, c =>
    let ks := [a, b, c].filterMap id
    (none, { st with accepted := st.accepted.filter (fun k => !ks.contains k), missing := st.missing ++ ks.map (fun k => (k, irMeshContent)) })
/-- The handle and generation that a HREF16 element names, when its reserved fields are zero. -/
def hrefOf (p : Bytes) (d : DirEnt) : Option (Nat × Nat) :=
  let b := payloadOf p d
  if allZero (slice b 6 10) then some (fld b 0 4, fld b 4 2) else none
/-- The reference is to a hierarchy loaded in the context (02 R72). -/
def hrefOk (x : Ctx) (r : Nat × Nat) : Bool := ((tget x.hiers r.1).map (fun h => h.gen == r.2 && !h.unloading)).getD false
/-- Judge the hierarchy reference. -/
def judgeHref (x : Ctx) (p : Bytes) (st : DirScan) : DirScan :=
  match entryOf p st.accepted 11 with
  | none => st
  | some i =>
    if ((hrefOf p (dirEnt p i)).map (hrefOk x)).getD false then st
    else { st with accepted := st.accepted.filter (· != i), missing := st.missing ++ [(i, irHierarchyRef)] }

/-! ## Buffer sets (02 R77) -/

/-- The most recent rendered frame: the latest by 00 R19 whose ingest completed with its colour (01 R30, 02 R75). -/
def latestOf (l : List Nat) : Option Nat :=
  l.foldl (fun b n => match b with | none => some n | some m => if later 32 n m then some n else some m) none
def latestRendered (g : CtxIngest) : Option Nat := latestOf ((g.past.filter (·.colour)).map (·.frame))
/-- Frames that the output frame in progress reads: its base b, and b + 1 of an interpolated one. -/
def curReads (f : CtxFrames) : List Nat :=
  match f.cur with
  | none => []
  | some c => (match c.base with | some b => if c.interpolated then [b, (b + 1) % 2 ^ 32] else [b] | none => [])
/-- The base that the next output frame would have: the latest rendered frame whose own slot precedes it (01 R33). -/
def nextBase (x : Ctx) : Option Nat :=
  latestOf (((x.ing.past.filter (·.colour)).map (·.frame)).filter (fun n => later 32 x.fr.nextNumber (ownSlot x.cfgInForce n)))
/-- A set is in use: it is filling, it is held for its slot, it is or may yet be the base of an output frame that is not ready,
captures of it are not made (DEDUCED, log 54), or it is the most recent rendered frame. -/
def setInUse (x : Ctx) (b : BufferSet) : Bool :=
  match b.use with
  | .free => false
  | .filling => true
  | .full =>
    (match x.fr.lastRendered with | none => true | some n => later 32 b.frame n)
      || (curReads x.fr).contains b.frame || latestRendered x.ing == some b.frame || nextBase x == some b.frame
      || x.ad.staging.any (fun a => a.render == b.frame && a.left != 0)
/-- Release the sets that nothing uses any more, in order of their numbers. -/
def settleSets (slot : Nat) (s : State) : State :=
  modCtx slot (fun x =>
    let r := x.ing.sets.foldl (fun (a : List BufferSet × Nat) b =>
      if b.use != .free && !setInUse x b then (a.1 ++ [{ freedAt := a.2 }], a.2 + 1) else (a.1 ++ [b], a.2)) ([], x.ing.releases)
    { x with ing := { x.ing with sets := r.1, releases := r.2 } }) s
/-- The free set that was released earliest. -/
def freeSet (g : CtxIngest) : Option Nat :=
  ((List.range g.sets.length).filter (fun i => (g.sets.getD i {}).use == .free)).foldl (fun b i =>
    match b with
    | none => some i
    | some j => if (g.sets.getD i {}).freedAt < (g.sets.getD j {}).freedAt then some i else some j) none

/-! ## Commands and arrival (11 R399; 02 R81) -/

/-- No earlier INGEST command of the ring has still to start its transfer. -/
def ingestTurn (g : Ring) (seq : Nat) : Bool :=
  (before g seq).all (fun c => !(entOpcode c.entry == 0x23 || entOpcode c.entry == 0x24) || c.started)
/-- Start the transfer of a packet for a ring's own context; another slot or generation is a malformed entry. -/
def ingestGo (pose : Bool) (slot seq : Nat) (c : Cmd) (x : Ctx) (s : State) : State :=
  let r : RingRef := .ctx slot
  let n := if pose then 128 else entArg c.entry 0
  let b := hostRead s (entAddr0 c.entry) n
  let named := if pose then (posSlot b, posGen b) else (rpSlot b, rpGen b)
  if named ≠ (slot, x.gen) then fail r seq kBadEntry 0x02 s
  else
    modCmd r seq (fun c => { c with started := true })
      (modWard x.ward (fun w => { w with transit := w.transit ++ [{ pose := pose, bytes := b, cmd := some (slot, seq) }] })
        (chargeHost slot n 0 s))
/-- The shape of both ingest commands: they transfer in the order of their SEQ values. -/
def ingestCommand (pose : Bool) (slot seq op : Nat) (s : State) : Out :=
  need (readyCmd (.ctx slot) seq op s) "the command is not ready" (fun c =>
    need (ctxOf s slot) "no context" (fun x =>
      guardThat (!c.started && ingestTurn x.ring seq) "the transfer is not due" (.next (ingestGo pose slot seq c x s))))
/-- INGEST_RENDER. -/
def execIngestRender (slot seq : Nat) (s : State) : Out := ingestCommand false slot seq 0x23 s
/-- INGEST_POSE. -/
def execIngestPose (slot seq : Nat) (s : State) : Out := ingestCommand true slot seq 0x24 s

/-- Queue order: arrival, then context slot, then ingest port (02 R79, R81). -/
def packetBefore (a b : Packet) : Bool :=
  let k := fun (p : Packet) => if p.pose then posSlot p.bytes else rpSlot p.bytes
  decide (a.arrival < b.arrival) || (a.arrival == b.arrival &&
    (decide (k a < k b) || (k a == k b && decide (a.port ≤ b.port))))
/-- Put a packet in its queue. -/
def queueInsert (p : Packet) : List Packet → List Packet
  | [] => [p]
  | q :: r => if packetBefore q p then q :: queueInsert p r else p :: q :: r
/-- Bytes of a ward's packets whose ingest is not complete. -/
def ingestBytes (s : State) (wd : Nat) : Nat :=
  sumL ((wardOf s wd).ingestQ.map (fun p => p.bytes.length)) +
    sumL ((wardCtxs s wd isLive).map (fun x =>
      sumL (((x.2.ing.sets ++ x.2.ing.lite).filter (fun b => b.use == .filling)).map (fun b => b.packet.bytes.length))))
/-- A pose packet as received. -/
def poseOf (p : Packet) : Pose :=
  { seq := fld p.bytes 8 4, sampleTime := fld p.bytes 16 8, view := words32 p.bytes 24 12,
    proj := if (fld p.bytes 3 1).testBit 0 then some (words32 p.bytes 72 6) else none, arrival := p.arrival, bytes := p.bytes }
/-- A packet's last byte arrives: a render packet joins its ward's queue; a valid pose packet is known to its context from
this instant (01 R37). -/
def arrive (wd : Nat) (p0 : Packet) (s : State) : State :=
  let p := { p0 with arrival := s.now, size := p0.bytes.length + ingestBytes s wd }
  let s1 := tallyChip 0x208 0 p.bytes.length (some wd) s
  if p.pose then
    let s2 := modWard wd (fun w => { w with poseQ := queueInsert p w.poseQ }) s1
    match namedCtx s (posSlot p.bytes) (posGen p.bytes) with
    | some x => if x.ward = wd && poseOk p.bytes then
        modCtx (posSlot p.bytes) (fun c => { c with ing := { c.ing with poses := c.ing.poses ++ [poseOf p] } }) s2 else s2
    | none => s2
  else modWard wd (fun w => { w with ingestQ := queueInsert p w.ingestQ }) s1
/-- Packets of one context from the host arrive in order (11 R399). -/
def inOrder (w : Ward) (index : Nat) (p : Packet) : Bool :=
  p.cmd.isNone || (w.transit.take index).all (fun q => (q.cmd.map (·.1)) != (p.cmd.map (·.1)))
/-- PACKET_ARRIVAL: the last byte of a packet in transit. -/
def execPacketArrival (ward index : Nat) (s : State) : Out :=
  need ((wardOf s ward).transit[index]?) "no packet in transit" (fun p =>
    guardThat (inOrder (wardOf s ward) index p) "an earlier packet of the context comes first"
      (.next (arrive ward p (modWard ward (fun w => { w with transit := w.transit.eraseIdx index }) s))))

/-! ## The check (02 R73, R74) -/

/-- Report a rejected packet: its command completes with the reason, or the context gets an EVENT. -/
def rejectPacket (p : Packet) (slot frame reason : Nat) (s : State) : State :=
  let d := natLe 4 frame ++ [0xFF]
  match p.cmd with
  | some (c, seq) => complete (.ctx c) seq kInputBounds reason d s
  | none => postEvent slot kInputBounds reason d s
/-- Post one event per missing surface, in directory order. -/
def postMissing (slot frame : Nat) (missing : List (Nat × Nat)) (s : State) : State :=
  (List.range 32).foldl (fun s i =>
    (missing.filter (fun m => m.1 == i)).foldl (fun s m => postEvent slot kInputBounds m.2 (natLe 4 frame ++ natLe 1 i) s) s) s
/-- Count a packet for a dead slot or generation in its ward, and in the statistics of its contexts (14 Table 14-8). -/
def discardPacket (wd : Nat) (s : State) : State :=
  (wardCtxs s wd isLive).foldl (fun s x => addStat x.1 stDiscard 1 s) (modWard wd (fun w => { w with discards := w.discards + 1 }) s)
/-- The first packet-level failure, in the order of 02 R73. -/
def packetBad (x : Ctx) (p : Bytes) : Option Nat :=
  let n := rpFrame p
  if !headerOk p then some irHeader
  else if cbSMax x.cfg < rpLength p then some irOversize
  else if (x.fr.latestBase.map (fun b => !later 32 n b)).getD false then some irStale
  else if x.ing.accepted.contains n then some irDuplicate
  else if (freeSet x.ing).isNone then some irNoBuffer
  else none
/-- Entries whose surfaces take effect without a colour (02 R75). -/
def liteOnly (p : Bytes) (l : List Nat) : List Nat := l.filter (fun i => [6, 7, 11].contains (dirEnt p i).ty)
/-- The buffer set as a packet fills it. -/
def fillSet (s : State) (pk : Packet) (st : DirScan) (mesh : Option Mesh) : BufferSet :=
  let p := pk.bytes
  { use := .filling, packet := pk, frame := rpFrame p, kind := if rpKind p = 0 then .u else if rpKind p = 1 then .a else .p,
    arrival := pk.arrival, acceptedAt := s.now, hops := pk.hops, depthReversed := rpReversed p, primaries := rpPrimaries p,
    transfer := rpTransfer p, accepted := st.accepted, hierBad := st.missing.any (fun m => m.2 == irHierarchyRef), hasColour := (entryOf p st.accepted 1).isSome, mesh := mesh }
/-- What the ingest keeps once a packet n is accepted: numbers that no frame to come can name are gone, so no two live numbers
are 2^31 or more apart (00 R20; log 55). The content in force stays, whatever its age. -/
def pruneIngest (x : Ctx) (n : Nat) (g : CtxIngest) : CtxIngest :=
  let ref := x.fr.latestBase.getD n
  let near := fun (k : Nat) => decide ((k + 65536 + 2 ^ 32 - ref % 2 ^ 32) % 2 ^ 32 < 2 ^ 31)
  { g with
    past := g.past.filter (fun p => near p.frame), missing := g.missing.filter (fun m => near m.1)
    rejected := g.rejected.filter (fun m => near m.1), exposures := g.exposures.take 1 ++ (g.exposures.drop 1).filter (fun e => near e.1)
    hierRefs := g.hierRefs.take 1 ++ (g.hierRefs.drop 1).filter (fun e => near e.1)
    ui := g.ui.map (fun l => (l.1, l.2.take 1 ++ (l.2.drop 1).filter (fun u => near u.src))) }
/-- Accept a packet into its set; without a colour it takes its set and, its checks complete, releases it (02 R75, R77). -/
def acceptPacket (slot : Nat) (x : Ctx) (pk : Packet) (s : State) : State :=
  let p := pk.bytes
  let n := rpFrame p
  let m := judgeMesh p (scanDir x.cfg p)
  let st := judgeHref x p m.2
  let b := fillSet s pk st m.1
  let keep := fun (l : List Nat) => l.filter (fun k => (x.fr.latestBase.map (fun a => later 32 k a)).getD true) ++ [n]
  let s1 := tallyChip 0x20A 0 st.missing.length (some x.ward) (postMissing slot n st.missing s)
  modCtx slot (fun c =>
    let g := pruneIngest x n { c.ing with accepted := keep c.ing.accepted }
    if b.hasColour then { c with ing := { g with sets := g.sets.set ((freeSet g).getD 0) b } }
    else
      { c with ing := { g with
          sets := g.sets.set ((freeSet g).getD 0) { freedAt := g.releases }, releases := g.releases + 1
          lite := g.lite ++ [{ b with accepted := liteOnly p b.accepted, mesh := none }]
          missing := g.missing ++ [(n, s.now)] } }) s1
/-- Take a render packet through the checks. -/
def checkPacket (wd : Nat) (pk : Packet) (s : State) : State :=
  let p := pk.bytes
  match namedCtx s (rpSlot p) (rpGen p) with
  | none => discardPacket wd s
  | some x =>
    if x.ward ≠ wd then discardPacket wd s
    else
      match packetBad x p with
      | some r =>
        let s1 := rejectPacket pk (rpSlot p) (rpFrame p) r (tallyChip 0x20A 0 1 (some wd) s)
        if r = irStale ∨ r = irDuplicate then s1
        else modCtx (rpSlot p) (fun c => { c with ing := { c.ing with rejected := c.ing.rejected ++ [(rpFrame p, s.now)] } }) s1
      | none => acceptPacket (rpSlot p) x pk s
/-- INGEST_CHECK: the ingest unit takes the packet at the head of a ward's queue. -/
def execIngestCheck (ward : Nat) (s : State) : Out :=
  match (wardOf s ward).ingestQ with
  | [] => notNow "no packet waits"
  | p :: r => .next (checkPacket ward p (modWard ward (fun w => { w with ingestQ := r }) s))

/-! ## Pose ingest (02 R68, R83) -/

/-- The first pose of a context that is not ingested is ingested now; a projection it carries comes into force. -/
def ingestPose (slot : Nat) (s : State) : State :=
  modCtx slot (fun x =>
    match x.ing.poses.findIdx? (fun p => p.ingested.isNone) with
    | none => x
    | some i =>
      let proj := ((x.ing.poses.getD i {}).proj).orElse (fun _ => x.ing.proj)
      { x with ing := { x.ing with
          proj := proj
          poses := lmod x.ing.poses i (fun p => { p with ingested := some s.now, proj := some (proj.getD (cbProj x.cfg)) }) } }) s
/-- Finish one pose packet. -/
def finishPose (wd : Nat) (pk : Packet) (s : State) : State :=
  let slot := posSlot pk.bytes
  match namedCtx s slot (posGen pk.bytes) with
  | none => discardPacket wd s
  | some x =>
    if x.ward ≠ wd then discardPacket wd s
    else if poseOk pk.bytes then
      let s1 := ingestPose slot s
      match pk.cmd with
      | some (c, seq) => completeOk (.ctx c) seq [] s1
      | none => s1
    else rejectPacket pk slot 0 irPoseCheck (tallyChip 0x20A 0 1 (some wd) s)
/-- POSE_INGEST_COMPLETE: the pose packet at the head of a ward's queue. -/
def execPoseIngestComplete (ward : Nat) (s : State) : Out :=
  match (wardOf s ward).poseQ with
  | [] => notNow "no pose packet waits"
  | p :: r => .next (finishPose ward p (modWard ward (fun w => { w with poseQ := r }) s))

end Sys2Proof.Machine
end

