-- ==== Sys2Proof/Machine/Sources.lean ====
section
/-!
DEFINITION. What a frame reads: the sources of 04 Table 4-8, the resolved planes and disocclusion values in ward memory, the
guard mask, and the object transforms and cameras of a phase (01 R34, R35, R43–R46; 02 R76; 06 R225, R246).
-/
namespace Sys2Proof.Machine

/-! ## The resolved planes in ward memory (06 R225, R246) -/

/-- First address of a context's buffers: depth, object ID and motion planes of 4 bytes a pixel lie there, then the
disocclusion values, 6 bytes a pixel in tiles (log 16). -/
def buffersBase (s : State) (slot wd : Nat) : Nat :=
  (((wardOf s wd).allocs.find? (fun a => a.kind == .buffers slot)).map (·.base)).getD 0 * 2 ^ 18
def planeAddr (s : State) (slot wd : Nat) (c : Bytes) (k px : Nat) : Nat :=
  buffersBase s slot wd + 4 * (k * cbWidth c * cbHeight c + px)
def disoccAddr (s : State) (slot wd : Nat) (c : Bytes) (tile local_ : Nat) : Nat :=
  buffersBase s slot wd + 12 * cbWidth c * cbHeight c + 24576 * tile + 6 * local_
/-- Four bytes of a plane. -/
def planeRead (s : State) (slot wd : Nat) (c : Bytes) (k px : Nat) : Nat := leNat (wardRead (wardOf s wd) (planeAddr s slot wd c k px) 4)
/-- The tile and the place within it of a frame pixel. -/
def tileOfPx (c : Bytes) (x y : Nat) : Nat × Nat := (y / 64 * tilesX c + x / 64, y % 64 * 64 + x % 64)
/-- A disocclusion channel at a frame pixel. -/
def disoccRead (s : State) (slot wd : Nat) (c : Bytes) (x y ch : Nat) : Nat :=
  let p := tileOfPx c x y
  leNat (wardRead (wardOf s wd) (disoccAddr s slot wd c p.1 p.2 + 2 * ch) 2)

/-! ## Sources -/

/-- A source over the whole frame: its extent, and the code of a channel at a column and row inside it. -/
structure SrcPlane where
  w : Nat
  h : Nat
  get : Nat → Nat → Nat → Nat
/-- A code with addressing clamped to the frame edge (01 R25). -/
def SrcPlane.clamped (p : SrcPlane) (x y : Int) (ch : Nat) : Nat :=
  p.get (clampI 0 ((p.w : Int) - 1) x).toNat (clampI 0 ((p.h : Int) - 1) y).toNat ch
/-- An image as a source. -/
def ofImg (m : Img) : SrcPlane := { w := m.w, h := m.h, get := fun x y ch => m.data.getD ((y * m.w + x) * m.ch + ch) 0 }
/-- One value everywhere. -/
def flatSrc (w h : Nat) (v : Nat → Nat) : SrcPlane := { w := w, h := h, get := fun _ _ ch => v ch }
/-- The buffer set that holds a rendered frame. -/
def setOf (x : Ctx) (n : Nat) : Option BufferSet := x.ing.sets.find? (fun b => b.use != .free && b.frame == n && b.hasColour)
/-- The presence mask of 02 R76. -/
def presence (b : BufferSet) (hier : Bool) : List Nat :=
  [b.hasColour, b.depth.isSome, b.motion.isSome, b.normal.isSome, b.objectId.isSome, b.hasExposure, b.mesh.isSome, hier].map
    (fun p => if p then 0x3C00 else 0)
/-- The depth, motion and other surfaces of a set, with the values of 02 Table 2-10 for those missing; the flow pass
replaces the renderer's motion (07 R278). -/
def setDepth (c : Bytes) (b : BufferSet) : SrcPlane :=
  match b.depth with | some m => ofImg m | none => flatSrc (inWidth c) (inHeight c) (fun _ => farthest b.depthReversed)
/-- The motion source of a set: a MOTION_OUT takes the place of the renderer's motion wherever the graph has one (07 R278). -/
def setMotion (c : Bytes) (b : BufferSet) : SrcPlane :=
  match if b.flowNeeded then b.flowMotion else b.motion with
  | some m => ofImg m
  | none => flatSrc (inWidth c) (inHeight c) (fun _ => 0)
def setNormal (c : Bytes) (b : BufferSet) : SrcPlane :=
  match b.normal with | some m => ofImg m | none => flatSrc (inWidth c) (inHeight c) (fun ch => if ch = 2 then 0x3C00 else 0)
def setObject (c : Bytes) (b : BufferSet) : SrcPlane :=
  match b.objectId with | some m => ofImg m | none => flatSrc (inWidth c) (inHeight c) (fun _ => 0)
/-- Zero history: RGB 0.0 and alpha 1.0 (01 R46). -/
def zeroHistory (w h : Nat) : SrcPlane := flatSrc w h (fun ch => if ch = 3 then 0x3C00 else 0)
/-- The exposure in force of a frame, 1.0 if none. -/
def exposureOf (f : Frame) : Nat := (f.exposure.map (·.2)).getD one32
/-- The guard mask at an output pixel: its centre lies inside a kept box (01 R43); DESIGN CHOICE: a centre on an edge of the box
is inside (log 50). -/
def inGuard (boxes : List (List Nat)) (x y : Nat) : Bool :=
  let cx := add32 (int32f x) half32; let cy := add32 (int32f y) half32
  boxes.any (fun b => le32 (b.getD 0 0) cx && le32 (b.getD 1 0) cy && le32 cx (b.getD 2 0) && le32 cy (b.getD 3 0))
/-- The boxes that guard a frame: none until a guard has run, and none without an image (01 R47, R551). -/
def guardBoxesOf (x : Ctx) (f : Frame) : List (List Nat) := if cbGuard f.config && f.image.isSome && f.kind != .p then x.fr.guardBoxes else []

/-- A source of a frame, whole. -/
def frameSource (s : State) (slot : Nat) (x : Ctx) (f : Frame) (src : Nat) : SrcPlane :=
  let c := f.config
  let w := cbWidth c; let h := cbHeight c
  let b := (f.base.bind (setOf x)).getD {}
  let plane := fun (k : Nat) => ({ w := w, h := h, get := fun px py _ => planeRead s slot x.ward c k (py * w + px) } : SrcPlane)
  if src = 0x01 then ofImg b.colour
  else if src = 0x02 then setDepth c b
  else if src = 0x03 then setMotion c b
  else if src = 0x04 then setNormal c b
  else if src = 0x05 then setObject c b
  else if src = 0x06 then flatSrc 1 1 (fun _ => exposureOf f)
  else if 0x11 ≤ src ∧ src ≤ 0x17 then ofImg (b.pyrColour.getD (src - 0x11) {})
  else if 0x19 ≤ src ∧ src ≤ 0x1F then ofImg (b.pyrDepth.getD (src - 0x19) {})
  else if src = 0x20 then (match x.fr.history with | some m => ofImg m | none => zeroHistory w h)
  else if src = 0x21 then plane 0
  else if src = 0x22 then plane 1
  else if src = 0x23 then
    { w := w, h := h, get := fun px py ch => planeRead s slot x.ward c 2 (py * w + px) / 2 ^ (16 * ch) % 65536 }
  else if src = 0x24 then { w := w, h := h, get := fun px py ch => disoccRead s slot x.ward c px py ch }
  else if src = 0x25 then
    let g := guardBoxesOf x f
    { w := w, h := h, get := fun px py _ => if inGuard g px py then 0x3C00 else 0 }
  else if src = 0x26 then
    let p := presence b f.hier.isSome
    flatSrc 1 1 (fun ch => p.getD ch 0)
  else flatSrc 1 1 (fun _ => if f.kind = .g then q32 f.phi else 0)

/-! ## Cameras and transforms at a phase (01 R34, R35; 02 R69) -/

/-- M = M_a + φ (M_a − M_z), per element in the order written. -/
def extrapolate (phi : Nat) (a z : List Nat) : List Nat := List.zipWith (fun p q => add32 p (mul32 phi (sub32 p q))) a z
/-- M = M_a + φ (M_b − M_a). -/
def interpolate (phi : Nat) (a b : List Nat) : List Nat := List.zipWith (fun p q => add32 p (mul32 phi (sub32 q p))) a b
/-- The latest thing the device keeps of an ingested packet. -/
def pastOf (x : Ctx) (n : Nat) : Option Past := (x.ing.past.filter (fun p => p.frame == n && p.colour)).getLast?
/-- The camera of a packet (02 R69). -/
def packetCamera (x : Ctx) (p : Bytes) : Camera :=
  if rpCameraValid p then rpCamera p
  else match (latestRendered x.ing).bind (pastOf x) with
    | some q => q.camera
    | none => { view := [one32, 0, 0, 0, 0, one32, 0, 0, 0, 0, one32, 0], proj := cbProj x.cfg }
/-- The camera and objects that a packet supplies, from its acceptance on: its header and mesh set are known before stages 2
and 3 complete. -/
def supplied (x : Ctx) (n : Nat) : Option Past :=
  (pastOf x n).orElse (fun _ => (setOf x n).map (fun b =>
    { frame := n, colour := true, kind := b.kind, camera := packetCamera x b.packet.bytes, objects := b.mesh.map (·.objects) }))
/-- Rendered frame b − 1, the only one that extrapolation pairs with b (02 R71). -/
def pastBefore (x : Ctx) (b : Nat) : Option Past := pastOf x ((b + 2 ^ 32 - 1) % 2 ^ 32)
/-- The transform that a packet supplied for an object. -/
def transformIn (p : Option Past) (id : Nat) : Option (List Nat) :=
  (p.bind (·.objects)).bind (fun os => (os.find? (fun o => o.id == id)).map (·.transform))
/-- The transforms of a frame's objects at its phase. -/
def objectsAt (x : Ctx) (f : Frame) : Table (List Nat) :=
  match f.base.bind (supplied x) with
  | none => []
  | some b =>
    let phi := q32 f.phi
    (b.objects.getD []).foldl (fun t o =>
      let m := if f.interpolated then
          match transformIn (supplied x ((b.frame + 1) % 2 ^ 32)) o.id with
          | some n => interpolate phi o.transform n
          | none => o.transform
        else match transformIn (pastBefore x b.frame) o.id with
          | some z => extrapolate phi o.transform z
          | none => o.transform
      tput t o.id m) []
/-- The objects of a rendered frame as supplied. -/
def objectsOf (p : Option Past) : Table (List Nat) := (((p.bind (·.objects)).getD [])).foldl (fun t o => tput t o.id o.transform) []
/-- A camera between or beyond two rendered cameras. -/
def cameraMix (mix : List Nat → List Nat → List Nat) (a b : Camera) : Camera := { view := mix a.view b.view, proj := mix a.proj b.proj }
/-- The camera of a frame (01 R35). -/
def cameraOf (x : Ctx) (f : Frame) : Camera :=
  let phi := q32 f.phi
  match f.base.bind (supplied x) with
  | none => (match f.pose with | some p => { view := p.view, proj := p.proj.getD (cbProj f.config) } | none => {})
  | some b =>
    if f.kind ≠ .g then b.camera
    else if f.interpolated then
      (match supplied x ((b.frame + 1) % 2 ^ 32) with | some n => cameraMix (interpolate phi) b.camera n.camera | none => b.camera)
    else match f.pose with
      | some p => { view := p.view, proj := p.proj.getD (cbProj f.config) }
      | none => (match pastBefore x b.frame with | some z => cameraMix (extrapolate phi) b.camera z.camera | none => b.camera)

end Sys2Proof.Machine
end

