-- ==== Sys2Proof/Machine/Tiles.lean ====
section
/-!
DEFINITION. What a tile task computes: rung 3 (01 R52), the synthesis networks (01 R45; 04 R155–R157), the guard mask
(01 R44) and the UI composite (01 R48).
-/
namespace Sys2Proof.Machine

/-! ## Rung 3 (01 R47, R51, R52) -/

/-- An FP16 channel of a source as a texel source, clamped at its edges. -/
def texPlane (p : SrcPlane) (ch : Nat) : Tex := { w := p.w, h := p.h, border := false, at_ := fun x y => h2f (p.get x y ch) }
/-- An output position on an axis of factor s2 / 2 as an input position. -/
def inPos (s2 p : Nat) : Nat := sub32 (div32 (add32 p half32) (ratio32 s2 2)) half32
/-- The U-tile bicubic sample of a rendered colour at an output position (FP32 codes). -/
def upSample (c : Bytes) (colour : SrcPlane) (px py ch : Nat) : Nat :=
  sampleTex (texPlane colour ch) 2 (inPos (scale2 (cbSxCode c)) px) (inPos (scale2 (cbSyCode c)) py)
/-- A rendered frame's motion at an output pixel, in output pixels. -/
def baseMotion (c : Bytes) (m : SrcPlane) (x y ch : Nat) : Nat :=
  let sx := scale2 (cbSxCode c); let sy := scale2 (cbSyCode c)
  mul32 (h2f (m.clamped ((2 * x + 1) / sx : Nat) ((2 * y + 1) / sy : Nat) ch)) (ratio32 (if ch = 0 then sx else sy) 2)
/-- A position lies outside the frame on an axis (04 R172's range). -/
def outOfFrame (n p : Nat) : Bool := lt32 p (rne32 (.fin true 1 (-1))) || lt32 (sub32 (int32f n) half32) p

/-- What rung 3 of one frame reads. -/
structure Rung3 where
  c : Bytes
  phi : Nat
  colour : SrcPlane
  motion : SrcPlane
  /-- Colour and motion of b + 1 of an interpolated frame. -/
  colourN : SrcPlane
  motionN : SrcPlane
  history : SrcPlane
  object : SrcPlane
  geoMotion : SrcPlane
  disocc : SrcPlane
def rung3Of (s : State) (slot : Nat) (x : Ctx) (f : Frame) : Rung3 :=
  let src := frameSource s slot x f
  let n := ((f.base.map (fun b => (b + 1) % 2 ^ 32)).bind (setOf x)).getD {}
  { c := f.config, phi := q32 f.phi, colour := src 0x01, motion := src 0x03, colourN := ofImg n.colour, motionN := setMotion f.config n,
    history := src 0x20, object := src 0x22, geoMotion := src 0x23, disocc := src 0x24 }
/-- One channel of the extrapolated-G result at a pixel, as FP32. -/
def extrapPx (r : Rung3) (x y ch : Nat) : Nat :=
  let m := fun k => if r.object.get x y 0 ≠ 0 then h2f (r.geoMotion.get x y k) else mul32 (baseMotion r.c r.motion x y k) r.phi
  let px := sub32 (int32f x) (m 0)
  let py := sub32 (int32f y) (m 1)
  if r.disocc.get x y 0 ≠ 0 || outOfFrame (cbWidth r.c) px || outOfFrame (cbHeight r.c) py then
    upSample r.c r.colour (int32f x) (int32f y) ch
  else sampleTex (texPlane r.history ch) 1 px py
/-- One channel of an interpolated G pixel. -/
def interpPx (r : Rung3) (x y ch : Nat) : Nat :=
  let w := sub32 one32 r.phi
  let pos := fun (p k : Nat) => sub32 (int32f p) (mul32 (baseMotion r.c r.motionN x y k) (neg32 w))
  add32 (mul32 w (extrapPx r x y ch)) (mul32 r.phi (upSample r.c r.colourN (pos x 0) (pos y 1) ch))
/-- One channel of a rung-3 pixel, as FP16; alpha is 1.0. -/
def rung3Px (f : Frame) (r : Rung3) (x y ch : Nat) : Nat :=
  if ch = 3 then 0x3C00
  else match f.kind with
    | .u => f2h (upSample r.c r.colour (int32f x) (int32f y) ch)
    | .a => r.colour.get x y ch
    | .p => r.colour.get x y ch
    | .g => if f.base.isNone then 0 else if f.interpolated then f2h (interpPx r x y ch) else f2h (extrapPx r x y ch)

/-! ## Networks over a tile (04 R146, R155–R157) -/

/-- The largest entry of a tensor's delayed-scaling history; none when every entry is +0 (03 R128). -/
def histMax (t : Table (List Nat)) (i : Nat) : Option Nat :=
  let l := tgetD t i []
  if l.all (· == 0) then none else some (l.foldl max32 0)
/-- The tensors with a source that the layers of a network read. -/
def sourceTensors (e : NEnv) (n : Net) : List Nat :=
  (((e.ls.drop n.first).take n.count).flatMap layerReads).eraseDups.filter (fun i => (e.t i).src != 0 && !outSource (e.t i).src)
/-- Bind a source tensor to its footprint from (lx, ly), clamped at the frame edge. -/
def bindSource (e : NEnv) (i : Nat) (p : SrcPlane) (lx ly : Int) : NEnv :=
  let t := e.t i
  let data := (List.range t.h).flatMap (fun y => (List.range t.w).flatMap (fun x =>
    (List.range t.c).map (fun ch => p.clamped (lx + x) (ly + y) ch)))
  { e with
    vals := tput e.vals i { data := data }
    exts := tput e.exts i { whole := true, ox := lx, oy := ly, fw := if scalarSource t.src then 0 else p.w, fh := p.h } }
/-- The role of a frame's synthesis network. -/
def synthRole (f : Frame) : Nat := match f.kind with | .g => if f.interpolated then 1 else 2 | _ => 0
/-- One layer: computed, or taken from what its CUSTOM kernel wrote. -/
def layerIn (customs : Table Bytes) (e : NEnv) (idx : Nat) : NEnv × EncRes :=
  let l := e.ls.getD idx {}
  if l.op = 15 then
    ({ e with
       vals := tput e.vals l.out (valOfStreams (e.t l.out) (tgetD customs idx []))
       exts := tput e.exts l.out (if (e.ext l.in0).fw = 0 then {} else { e.ext l.in0 with whole := false }) }, {})
  else runLayer e idx
/-- The first `n` layers from `first`, with what each conversion gave. -/
def runLayers (customs : Table Bytes) : Nat → Nat → NEnv → NEnv × List (Nat × EncRes)
  | 0, _, e => (e, [])
  | n + 1, idx, e =>
    let r := layerIn customs e idx
    let q := runLayers customs n (idx + 1) r.1
    (q.1, (idx, r.2) :: q.2)
/-- The environment of a tile's network, its sources bound. -/
def tileEnv (s : State) (slot : Nat) (x : Ctx) (f : Frame) (img : Bytes) (net : Net) (i : Nat) : NEnv :=
  let c := f.config
  let e := envOf img f.adapters (histMax (f.hist.getD x.hist)) (cbSat c)
  let m := imMargin img
  let x0 := i % tilesX c * 64; let y0 := i / tilesX c * 64
  (sourceTensors e net).foldl (fun e k =>
    let src := (e.t k).src
    let fp := footprint c src x0 y0 64 m
    bindSource e k (frameSource s slot x f src) fp.1 fp.2.1) e
/-- A channel of the network's output at a pixel of the tile: alpha is 1.0 whatever it computes (04 R147). -/
def netPx (e : NEnv) (net : Net) (lx ly ch : Nat) : Nat :=
  if ch = 3 then 0x3C00
  else
    match ((e.ls.drop net.first).take net.count).find? (fun l => (e.t l.out).src == 0x30) with
    | some l => elem (e.t l.out) (e.val l.out) ly lx ch
    | none => 0

/-! ## A tile's pixels -/

/-- The pixels of a tile, 64 × 64 of 4 FP16 channels, from a function of frame coordinates clamped to the frame. -/
def tileImg (c : Bytes) (i : Nat) (px : Nat → Nat → Nat → Nat → Nat → Nat) : Img :=
  let x0 := i % tilesX c * 64; let y0 := i / tilesX c * 64
  { w := 64, h := 64, ch := 4,
    data := (List.range 64).flatMap (fun ly => (List.range 64).flatMap (fun lx => (List.range 4).map (fun ch =>
      px lx ly (min (x0 + lx) (cbWidth c - 1)) (min (y0 + ly) (cbHeight c - 1)) ch))) }
/-- The image of a frame's image handle. -/
def frameImage (s : State) (x : Ctx) (f : Frame) : Option Bytes :=
  f.image.bind (fun h => (tget (wardOf s x.ward).images h).map (·.bytes))
/-- Guarded pixels of a G frame keep the pre-UI output of the latest U or A frame (01 R44). -/
def guarded (x : Ctx) (f : Frame) (boxes : List (List Nat)) (px py ch v : Nat) : Nat :=
  match x.fr.guardPre with
  | some m => if f.kind = .g && inGuard boxes px py then m.data.getD ((py * m.w + px) * 4 + ch) 0 else v
  | none => v
/-- The pre-UI pixels of tile i at a rung, with what each conversion of its network gave. -/
def tileResult (s : State) (slot : Nat) (x : Ctx) (f : Frame) (i rung : Nat) (customs : Table Bytes) : Img × List (Nat × EncRes) :=
  let boxes := guardBoxesOf x f
  let net := (frameImage s x f).bind (fun b => (netOfRole b (synthRole f) rung).map (fun n => (b, n.2)))
  match if rung < 3 then net else none with
  | some (b, n) =>
    let r := runLayers customs n.count n.first (tileEnv s slot x f b n i)
    (tileImg f.config i (fun lx ly px py ch => guarded x f boxes px py ch (netPx r.1 n lx ly ch)), r.2)
  | none =>
    let r := rung3Of s slot x f
    (tileImg f.config i (fun _ _ px py ch => guarded x f boxes px py ch (rung3Px f r px py ch)), [])

/-! ## Whole frames -/

/-- The pre-UI output of a frame from its tiles. -/
def preUi (f : Frame) : Img :=
  let c := f.config
  { w := cbWidth c, h := cbHeight c, ch := 4,
    data := (List.range (cbHeight c)).flatMap (fun y => (List.range (cbWidth c)).flatMap (fun x =>
      let p := tileOfPx c x y
      let t := ((f.tiles.getD p.1 {}).px).getD {}
      (List.range 4).map (fun ch => t.data.getD (4 * p.2 + ch) 0))) }
/-- The UI composite of one pixel's channel, layer by layer from the bottom. -/
def uiOver (ui : Table UiLayer) (x y ch v : Nat) : Nat :=
  ui.foldl (fun c l =>
    let u := l.2
    if u.x ≤ x ∧ x < u.x + u.img.w ∧ u.y ≤ y ∧ y < u.y + u.img.h then
      let at_ := fun k => u.img.data.getD (((y - u.y) * u.img.w + (x - u.x)) * 4 + k) 0
      add32 (at_ ch) (mul32 (sub32 one32 (at_ 3)) c)
    else c) v
/-- The finished frame: the UI layers over the pre-UI output, rounded to FP16; alpha is never composited (01 R48). -/
def finished (ui : Table UiLayer) (pre : Img) : Img :=
  { pre with data := (List.range (pre.w * pre.h * 4)).map (fun k =>
      let ch := k % 4; let p := k / 4
      let v := pre.data.getD k 0
      if ch = 3 then v else f2h (uiOver ui (p % pre.w) (p / pre.w) ch (h2f v))) }
/-- The rung map of a frame (01 R54). -/
def rungMap (rungs : List Nat) : Bytes :=
  (List.range (cdiv rungs.length 4)).map (fun k =>
    BitVec.ofNat 8 ((List.range 4).foldl (fun a j => a + rungs.getD (4 * k + j) 0 * 4 ^ j) 0))
/-- The entry of a rung map. -/
def rungAt (map : Bytes) (i : Nat) : Nat := fld map (i / 4) 1 / 4 ^ (i % 4) % 4

end Sys2Proof.Machine
end

