-- ==== Sys2Proof/Machine/Tasks.lean ====
section
/-!
DEFINITION. Tasks: their place in the deques (10 R357), dealing, their threads and their end (05 R185, R190; 10 R356–R358).
-/
namespace Sys2Proof.Machine

/-- The core at position i mod A of a group, its cores taken in increasing number (10 R357). -/
def coreAtPos (group i : Nat) : Nat :=
  let l := bitList 2048 group
  if l.length = 0 then 0 else l.getD (i % l.length) 0
/-- A head-unit deadline as a deadline key in root cycles. -/
def keyOfHead (u : Nat) : Nat := u / 65536 * 60
/-- The deadline key of work without a frame, submitted now (10 R357). -/
def keyOfNow (s : State) : Nat := (tb s + 2 ^ 63) * 60
/-- Deal a task: it joins the deque of its core; a core that waits for a deal waits no longer (10 R362). -/
def dealTask (t : Task) (s : State) : State :=
  let s1 := modCore t.core (fun c => { c with stealWait := none }) s
  { s1 with tasks := tput s1.tasks s1.nextTask { t with dealtAt := s.now }, nextTask := s1.nextTask + 1 }
/-- A task of a frame. -/
def frameTask (slot : Nat) (x : Ctx) (f : Frame) (kind : TaskKind) (pos index : Nat) : Task :=
  { slot := slot, gen := x.gen, core := coreAtPos f.group pos, kind := kind, lc := true, deadline := keyOfHead f.deadline,
    index := index, frame := some f.number }
/-- Order of tasks in a deque. -/
def taskBefore (a b : Task) : Bool :=
  let ka := [if taskLc a then 0 else 1, taskKey a, a.slot, a.index]
  let kb := [if taskLc b then 0 else 1, taskKey b, b.slot, b.index]
  let rec lt : List Nat → List Nat → Bool
    | x :: xs, y :: ys => decide (x < y) || (x == y && lt xs ys)
    | _, _ => false
  lt ka kb
/-- Insert by key. -/
def dequeInsert (x : Nat × Task) : List (Nat × Task) → List (Nat × Task)
  | [] => [x]
  | y :: r => if taskBefore x.2 y.2 then x :: y :: r else y :: dequeInsert x r
/-- The deque of a core: its tasks not started, in key order. -/
def deque (s : State) (c : Nat) : List (Nat × Task) :=
  (s.tasks.filter (fun x => x.2.core == c && !x.2.started)).foldl (fun l x => dequeInsert x l) []
/-- The tasks that satisfy a test, with the kernels of their CUSTOM layers, and all their threads, requests and copies, are gone. -/
def dropTasks (p : Nat → Task → Bool) (s : State) : State :=
  let hit := (s.tasks.filter (fun x => p x.1 x.2)).map (·.1)
  let gone := hit ++ (s.tasks.filter (fun x => match x.2.kind with | .custom q => hit.contains q && !hit.contains x.1 | _ => false)).map (·.1)
  let onCore := fun (c : Core) =>
    let mine := (c.threads.filter (fun t => gone.contains t.2.task)).map (·.1)
    { c with
      threads := c.threads.filter (fun t => !gone.contains t.2.task)
      vreqs := c.vreqs.filter (fun r => !mine.contains r.2.thread)
      copies := c.copies.filter (fun r => !mine.contains r.2.thread) }
  { s with tasks := s.tasks.filter (fun x => !gone.contains x.1), cores := s.cores.map (fun x => (x.1, onCore x.2)) }
/-- The thread slots that a core has free, of its 64. -/
def freeSlots (c : Core) : List Nat := (List.range 64).filter (fun k => (tget c.threads k).isNone)
/-- A thread of a task as it starts: the registers its table gives, and zero otherwise (05 R215). A ray task's threads wait for the
RTUs, parked, until the task completes (06 R257; log 77). -/
def bootThread (id : Nat) (t : Task) (k : Nat) (entry : Nat) : Thread :=
  let b := t.boot.getD {}
  let n := { b with task := id, index := k, pc := entry, park := match t.kind with | .ray _ => .rtu | _ => .running }
  match t.code with
  | .builtIn => n
  | .kernel _ _ => wrS 31 t.threads (wrS 30 k n)
/-- Put a task's threads into free slots of its core. The core's texture-cache lines are dropped, so that the task meets none that
was filled before it (05 R210; log 69). -/
def bootTask (id : Nat) (t : Task) (entry : Nat) (s : State) : State :=
  modCore t.core (fun c =>
    ((List.range t.threads).zip (freeSlots c)).foldl (fun c p =>
      { c with threads := tput c.threads p.2 (bootThread id t p.1 entry) }) { c with tex := [] }) s
/-- The threads of a task on its core. -/
def threadsOf (s : State) (id : Nat) (t : Task) : List (Nat × Thread) := (coreOf s t.core).threads.filter (fun x => x.2.task == id)
/-- Every thread of a task has ended. -/
def allEnded (s : State) (id : Nat) (t : Task) : Bool := (threadsOf s id t).all (fun x => x.2.park == .ended)
/-- The frame that a context computes, where it is the one a task belongs to. -/
def frameOfTask (x : Ctx) (t : Task) : Option Frame :=
  x.fr.cur.bind (fun f => if t.frame = some f.number then some f else none)
def modFrame (slot : Nat) (g : Frame → Frame) (s : State) : State := modCtx slot (fun x => { x with fr := { x.fr with cur := x.fr.cur.map g } }) s
/-- A checkpoint of a context's frame is due (10 R371). -/
def checkpoint (slot : Nat) (s : State) : State := modFrame slot (fun f => { f with checkDue := true }) s

/-! ## Resources of a core (05 R185, R188, R189; 10 R358) -/

/-- Tasks started on a core. -/
def startedOn (s : State) (c : Nat) : List (Nat × Task) := s.tasks.filter (fun x => x.2.core == c && x.2.started)
def vregsUsed (s : State) (c : Nat) : Nat := sumL ((startedOn s c).map (fun x => x.2.threads * x.2.vregs))
/-- The pages of the task area in use, four for each halo slot. -/
def pageList (s : State) (c : Nat) : List Nat :=
  (startedOn s c).flatMap (fun x => x.2.pages) ++ (coreOf s c).halo.flatMap (fun h => (List.range 4).map (h.page + ·))
def pagesUsed (s : State) (c : Nat) : Nat := (pageList s c).length
/-- The lowest n free pages (05 R188; log 70). -/
def freePages (s : State) (c n : Nat) : List Nat := ((List.range 60).filter (fun p => !(pageList s c).contains p)).take n
/-- Room on a core for `slots` threads, `regs` vector registers and `pages` pages. -/
def roomFor (s : State) (c slots regs pages : Nat) : Bool :=
  decide ((coreOf s c).threads.length + slots ≤ 64) && decide (vregsUsed s c + regs ≤ 1024) && decide (pagesUsed s c + pages ≤ 60)
/-- The largest TILE_STORE of a context's bound image. -/
def largestTile (s : State) (x : Ctx) : Nat :=
  match boundImage s x with
  | some b => ((netsOf b).filter netSynth).foldl (fun a n => max a n.store) 0
  | none => 0
/-- The LC-level contexts whose groups include a core: LC, or head-bound (10 R356). -/
def lcContexts (s : State) (c : Nat) : List (Nat × Ctx) :=
  s.ctxs.filter (fun x => (slotOf s x.1).state == .live && (!cbClassBE x.2.cfgInForce || x.2.head.isSome) && x.2.group.testBit c)
/-- The resources that stay free with `slots`, `regs` and `pages` more in use still hold the LC reserve. -/
def reserveKept (s : State) (c slots regs pages : Nat) : Bool :=
  let l := lcContexts s c
  l.isEmpty || roomFor s c (slots + 8) (regs + 256) (pages + cdiv (l.foldl (fun a x => max a (largestTile s x.2)) 0) 4096)
/-- The first of the lowest four adjacent, 16 KiB-aligned free pages for a halo slot, which a core grants while it has fewer than
eight in use and the LC reserve stays free (05 R189; 10 R358). -/
def freeHalo (s : State) (c : Nat) : Option Nat :=
  let used := pageList s c
  if 8 ≤ (coreOf s c).halo.length || !reserveKept s c 0 0 4 then none
  else ((List.range 15).map (4 * ·)).find? (fun p => (List.range 4).all (fun k => !used.contains (p + k)))
/-- The rung that a frame gives its tiles now: the one before a lowering of this fabric cycle (10 R375). -/
def frameRung (f : Frame) (now : Nat) : Nat :=
  match f.rungWas with
  | some (t, r) => if earlierCycle t now then f.rung else r
  | none => f.rung
/-- The rung of tile i when it starts: the recorded one in replay mode, and the one it started with when it starts again (15 R489). -/
def tileRung (f : Frame) (now i : Nat) : Nat :=
  if (f.tiles.getD i {}).started then (f.tiles.getD i {}).rung
  else match f.held with | some (_, m) => rungAt m i | none => frameRung f now
/-- What a task takes when it is admitted: threads, vector registers of each, and core-store bytes (05 R185, R188; log 27). -/
def taskSize (s : State) (t : Task) : Nat × Nat × Nat :=
  match t.kind with
  | .tile i =>
    let store := (ctxOf s t.slot).bind (fun x => (frameOfTask x t).bind (fun f =>
      let r := tileRung f s.now i
      if r < 3 then (frameImage s x f).bind (fun b => (netOfRole b (synthRole f) r).map (fun n => n.2.store)) else none))
    (8, 32, store.getD 0)
  | .bin _ => (8, 32, 12288)
  | _ => (t.threads, t.vregs, t.size)
/-- R358 would start a task on a core now. -/
def fits (s : State) (c : Nat) (t : Task) : Bool :=
  let n := taskSize s t
  let pages := cdiv n.2.2 4096
  roomFor s c n.1 (n.1 * n.2.1) pages && (taskLc t || reserveKept s c n.1 (n.1 * n.2.1) pages)
    && (match t.kind with
        | .tile _ => (startedOn s c).all (fun y => !((match y.2.kind with | .tile _ => true | _ => false) && y.2.slot == t.slot && y.2.frame == t.frame))
        | _ => true)
/-- The physical core of a logical one (16 R511; 15 R488), and its mesh position. -/
def physOf (s : State) (c : Nat) : Nat := tgetD s.ras.phys c c
def coreMesh (s : State) (c : Nat) : Nat × Nat :=
  if s.part = .bkz2048 then (physOf s c % 48, physOf s c / 48) else Config.meshPos (physOf s c)
/-- Mesh distance of two cores. -/
def meshDist (s : State) (a b : Nat) : Nat :=
  let p := coreMesh s a; let q := coreMesh s b
  (max p.1 q.1 - min p.1 q.1) + (max p.2 q.2 - min p.2 q.2)

end Sys2Proof.Machine
end

