-- ==== Sys2Proof/Machine/NetRun.lean ====
section
/-!
DEFINITION. Frame-scope networks: their runs, stripes, latches and halos, CUSTOM layers, detection jobs, and what the end of a
run does (04 R155–R163, R178–R181; 05 R215; 10 R364; 01 R43).
-/
namespace Sys2Proof.Machine

/-! ## Runs -/

/-- Change a run of a context. -/
def modRun (slot net : Nat) (g : NetRun → NetRun) (s : State) : State := modCtx slot (fun x => { x with runs := tmod x.runs net g }) s
/-- The environment of a run's layers. -/
def runEnv (x : Ctx) (b : Bytes) (r : NetRun) : NEnv := { envOf b [] (histMax (r.hist.getD x.hist)) (cbSat x.cfgInForce) with vals := r.vals }
/-- Free post-processors take waiting jobs, LC-level first, then in order of submission (10 R364). -/
def settleDetect (s : State) : State :=
  (List.range 4).foldl (fun s u =>
    if s.detect.any (fun d => d.unit == some u) then s
    else
      let waits := fun (d : DetectJob) => d.unit.isNone
      match (s.detect.findIdx? (fun d => waits d && d.lc)).orElse (fun _ => s.detect.findIdx? waits) with
      | some i => { s with detect := lmod s.detect i (fun d => { d with unit := some u }) }
      | none => s) s
/-- Submit the detection jobs of a run whose inputs are complete. -/
def submitDetect (slot net : Nat) (s : State) : State :=
  match ctxOf s slot with
  | none => s
  | some x =>
    match tget x.runs net with
    | none => s
    | some r =>
      let b := runImage s x.ward r
      let ls := layersOf b
      let n := (netsOf b).getD net {}
      let due := ((List.range n.count).map (· + n.first)).filter (fun i =>
        let l := ls.getD i {}
        (l.op == 13 || l.op == 14) && !latchSet r i 0 && stripeReady b r i 0
          && !s.detect.any (fun d => d.slot == slot && d.gen == x.gen && d.net == net && d.layer == i))
      settleDetect { s with detect := s.detect ++ due.map (fun i => { slot := slot, gen := x.gen, net := net, layer := i, lc := r.lc }) }
/-- Begin a run: the network's latches are cleared, its sources are bound, and its stripe tasks are dealt (04 R159; 10 R357). -/
def startRun (slot net : Nat) (r : NetRun) (srcs : NEnv → NEnv) (s : State) : State :=
  match ctxOf s slot with
  | none => s
  | some x =>
    let b := runImage s x.ward r
    let ts := tensorsOf b; let ls := layersOf b
    let n := (netsOf b).getD net {}
    let e := srcs (envOf b [] (histMax x.hist) (cbSat x.cfgInForce))
    let s1 := modCtx slot (fun x => { x with runs := tput x.runs net { r with vals := e.vals } }) s
    let deal := fun (s : State) (i : Nat) =>
      let l := ls.getD i {}
      if l.op = 13 ∨ l.op = 14 then s
      else (List.range (stripeCount ts l)).foldl (fun s j =>
        let k := kernelRec (imgBytes b 0x09) (pKernel l)
        let custom := l.op == 15
        dealTask { slot := slot, gen := x.gen, core := coreAtPos x.group j, kind := .stripe i j, lc := r.lc,
                   deadline := r.deadline, index := j, frame := r.frame, layer := i
                   threads := if custom then k.threads else 8
                   vregs := if custom then k.vregs else 32
                   size := if custom then k.store else 0
                   code := if custom then .kernel r.image (pKernel l) else .builtIn } s) s
    submitDetect slot net (settleInherit (((List.range n.count).map (· + n.first)).foldl deal s1))

/-! ## CUSTOM layers in frame scope (05 R215) -/

/-- Bytes of a tensor's streams in ward memory, each from a 64-byte boundary. -/
def streamBytes (t : Tensor) : Nat := up64 (tensorBytes t) + scaleBytes t
/-- Where tensor i lies in the area of frame-scope tensors. -/
def tensorOffset (ts : List Tensor) (i : Nat) : Nat := sumL (((ts.take i).filter (fun t => !t.const)).map streamBytes)
/-- The ward address of the area of frame-scope tensors of a context's image. -/
def tensorsBase (s : State) (slot wd image : Nat) : Nat :=
  (((wardOf s wd).allocs.find? (fun a => a.kind == .tensors slot image)).map (·.base)).getD 0 * 2 ^ 18
/-- Ward address of a section of a loaded image. -/
def sectionAt (im : Image) (ty : Nat) : Nat := im.base + ((imgSection im.bytes ty).map (fun o => o.1)).getD 0
/-- The addresses of a tensor's two streams, and whether they are task-local: constants lie in the image, others where
`place` says. -/
def streamAt (im : Image) (ts : List Tensor) (place : Nat → Nat × Bool) (i : Nat) : Nat × Nat × Bool :=
  if i = noIndex then (0, 0, false)
  else
    let t := tn ts i
    let scale := fun a => if isBlock t.fmt then a else 0
    if t.const then (sectionAt im 0x07 + t.dataOff, scale (sectionAt im 0x07 + t.scaleOff), false)
    else let p := place i; (p.1, scale (p.1 + up64 (tensorBytes t)), p.2)
/-- The registers of 05 Table 5-10, but for s30 and s31. -/
def customBoot (im : Image) (l : Layer) (place : Nat → Nat × Bool) (index first rows : Nat) : Thread :=
  let ts := tensorsOf im.bytes
  let ops := [l.in0, l.in1, l.in2, l.out]
  let st := ops.map (streamAt im ts place)
  let put := fun (th : Thread) (r : Nat × Nat) => wrS r.1 r.2 th
  let words := (List.range 15).map (fun k => (k + 1, fld l.par (4 + 4 * k) 4))
  let addrs := (List.range 4).flatMap (fun k =>
    let a := st.getD k (0, 0, false)
    let d := ops.getD k noIndex
    [(16 + k, a.1), (20 + k, a.2.1), (24 + k, if d = noIndex then 0 else sectionAt im 0x04 + 64 * d)])
  let bits := (List.range 4).foldl (fun m k => if (st.getD k (0, 0, false)).2.2 then m + 2 ^ k else m) 0
  (words ++ addrs ++ [(28, if l.epi = noIndex then 0 else sectionAt im 0x06 + 32 * l.epi), (29, index), (32, first), (33, rows), (34, bits)]).foldl
    put {}
/-- Before a CUSTOM stripe starts, its inputs lie in ward memory as streams. -/
def placeInputs (slot wd : Nat) (qp : Bytes) (ts : List Tensor) (r : NetRun) (l : Layer) (s : State) : State :=
  (layerReads l).foldl (fun s i =>
    let t := tn ts i
    if t.const then s
    else
      let st := streamsOf qp t (tgetD r.vals i {})
      let a := tensorsBase s slot wd r.image + tensorOffset ts i
      wardWrite wd (a + up64 (tensorBytes t)) st.2 (wardWrite wd a st.1 s)) s
/-- What a CUSTOM kernel wrote of its output, as a value. -/
def readOutput (s : State) (slot wd image : Nat) (ts : List Tensor) (i : Nat) : TVal :=
  let t := tn ts i
  let a := tensorsBase s slot wd image + tensorOffset ts i
  valOf t (wardRead (wardOf s wd) a (tensorBytes t)) (wardRead (wardOf s wd) (a + up64 (tensorBytes t)) (scaleBytes t))
/-- Granules of the area of frame-scope tensors of an image: none where no frame-scope layer is CUSTOM (log 29). -/
def tensorGranules (b : Bytes) : Nat :=
  let ls := layersOf b
  if (netsOf b).any (fun n => decide (3 ≤ n.role) && ((ls.drop n.first).take n.count).any (fun l => l.op == 15)) then
    cdiv (tensorOffset (tensorsOf b) (tensorsOf b).length) (2 ^ 18)
  else 0

/-! ## A stripe's end (04 R159, R161; 03 R129–R131) -/

/-- Count what a layer's conversion gave, and an execution of a degenerate layer (03 R124, R129; 04 R168; 14 Table 14-8). -/
def countLayer (slot idx : Nat) (deg : Bool) (r : EncRes) (s0 : State) : State :=
  let s := addStat slot stDegenerate (b2n deg) s0
  addLayerStat slot idx 8 (b2n r.recompute) (addLayerStat slot idx 4 r.nan (addLayerStat slot idx 0 r.sat
    (addStat slot stRecompute (b2n r.recompute) (addStat slot stNan r.nan (addStat slot stSat r.sat s)))))
/-- Append a step's amax to a delayed tensor's history of 16 entries (03 R127). -/
def pushAmax (t amax : Nat) (h : Table (List Nat)) : Table (List Nat) := tput h t ((amax :: tgetD h t []).take 16)
/-- Rows of a tensor's two streams: the data of rows a to b − 1, then, of a block-scaled tensor, their scale entries. Blocks fill
segments across rows, so a row takes the segments that hold its blocks (03 R105). -/
def haloRows (qp : Bytes) (t : Tensor) (v : TVal) (a b : Nat) : List Bytes :=
  let st := streamsOf qp t v
  if isBlock t.fmt then
    let per := t.w * cdiv t.c 32
    let seg := if t.fmt = 0x0E then 320 else 576
    (List.range (b - a)).flatMap (fun y =>
      let k0 := (a + y) * per / 16; let k1 := cdiv ((a + y + 1) * per) 16
      [slice st.1 (k0 * seg) ((k1 - k0) * seg), slice st.2 ((a + y) * per * 4) (per * 4)])
  else
    let pitch := tensorBytes t / max 1 t.h
    (List.range (b - a)).map (fun y => slice st.1 ((a + y) * pitch) pitch)
/-- The halo rows that stripe k of a layer reads of an input that the network writes: rows of other stripes of its producer (04 R158). -/
def haloNeed (b : Bytes) (i k t : Nat) : Nat :=
  let ts := tensorsOf b; let ls := layersOf b
  match netOfLayer b i with
  | none => 0
  | some (_, n) =>
    match if (tn ts t).const then none else producerOf ls n t with
    | none => 0
    | some p =>
      let m := ls.getD i {}
      let q := stripeRows ts m k
      let w := if m.op = 13 ∨ m.op = 14 then none else needRows ts m t q.1 q.2
      let own := stripeRows ts (ls.getD p {}) k
      let r := match w with | some (lo, hi) => (lo, hi + 1) | none => (0, (tn ts t).h)
      (r.2 - r.1) - (min r.2 (own.1 + own.2) - max r.1 own.1)
/-- A stripe task under the exchange strategy has read from ward memory the halo rows that were not pushed to it (14 Table 14-3). -/
def countFallback (core : Nat) (t : Task) (b : Bytes) (r : NetRun) (i j : Nat) (s : State) : State :=
  if !r.exchange then s
  else
    let need := sumL (((layerReads ((layersOf b).getD i {})).eraseDups).map (haloNeed b i j))
    let got := sumL (((coreOf s core).halo.filter (fun h => h.slot == t.slot && h.layer == i && h.stripe == j)).map (·.count))
    tally core 0x04A (need - got) (some (whoOf t)) s
/-- Halo rows of a completed stripe go to cores that have claimed a neighbouring stripe before this fabric cycle and grant a
credit: one of eight slots of four adjacent, aligned pages (04 R161; 05 R189). -/
def pushHalos (source : Option (Nat × Who)) (slot net : Nat) (b : Bytes) (r : NetRun) (idx j : Nat) (s : State) : State :=
  if !r.exchange then s
  else
    let ts := tensorsOf b; let ls := layersOf b
    let l := ls.getD idx {}
    let rows := stripeRows ts l j
    s.tasks.foldl (fun s x =>
      match x.2.kind with
      | .stripe i k =>
        let m := ls.getD i {}
        let claimed := x.2.started && earlierCycle x.2.startedAt s.now
        let mine := x.2.slot == slot && claimed && ((netOfLayer b i).map (·.1)) == some net && (layerReads m).contains l.out && k != j
        let q := stripeRows ts m k
        match if mine then needRows ts m l.out q.1 q.2 else none with
        | none => s
        | some (lo, hi) =>
          let from_ := max lo rows.1; let to_ := min (hi + 1) (rows.1 + rows.2)
          let bytes := haloRows (imgBytes b 0x05) (tn ts l.out) (tgetD r.vals l.out {}) from_ to_
          match if to_ ≤ from_ || 16384 < sumL (bytes.map (·.length)) then none else freeHalo s x.2.core with
          | none => s
          | some page =>
            let n := to_ - from_
            let size := sumL (bytes.map (·.length))
            let s1 := match source with
              | some (c, who) => if c = x.2.core then s else portBytes c 5 size (tally c 0x048 n (some who) s)
              | none => s
            let who := some (whoOf x.2)
            portBytes x.2.core 4 size (tally x.2.core 0x049 n who (tally x.2.core 0x04B 1 who
              (modCore x.2.core (fun c => { c with
                halo := c.halo ++ [{ slot := slot, layer := i, stripe := k, page := page, count := n, rows := bytes }] }) s1)))
      | _ => s) s
/-- A stripe's rows join the run, and its latch is set; a delayed-scale tensor is judged, computed again if it must be, and
its latches are set, when its last stripe is made. Of a delayed-scale tensor that a CUSTOM layer's kernel writes the device sees no
unconverted value: its history takes an amax of 0 and nothing is checked (03 R127; DESIGN CHOICE, log 90). -/
def makeStripe (source : Option (Nat × Who)) (slot net idx j : Nat) (s : State) : State :=
  match ctxOf s slot with
  | none => s
  | some x =>
    match tget x.runs net with
    | none => s
    | some r =>
      let b := runImage s x.ward r
      let e := runEnv x b r
      let l := e.ls.getD idx {}
      let t := e.t l.out
      let rows := stripeRows e.ts l j
      let made := tgetD r.made idx 0 ||| 2 ^ j
      let all := 2 ^ stripeCount e.ts l - 1
      let part : EncRes :=
        if l.op = 13 then {}
        else if l.op = 14 then (runLayer e idx).2
        else if l.op = 15 then { val := readOutput s slot x.ward r.image e.ts l.out }
        else if t.delayed then (if made = all then encode e l (preRows e idx l 0 t.h) else {})
        else encode e l (preRows e idx l rows.1 rows.2)
      let whole := l.op == 13 || l.op == 14 || l.op == 15 || t.delayed
      let val := if whole then part.val else patchRows t (tgetD r.vals l.out {}) rows.1 part.val
      let latches := if t.delayed then (if made = all then all else 0) else made
      let s1 := countLayer slot idx (degenerate e.ts l && made == all) part
        (modRun slot net (fun r => { r with vals := tput r.vals l.out val, made := tput r.made idx made, latches := tput r.latches idx latches }) s)
      let s2 := if !(t.delayed && made == all) then s1
        else if r.hist.isSome then modRun slot net (fun r => { r with hist := r.hist.map (pushAmax l.out part.amax) }) s1
        else modCtx slot (fun x => { x with hist := pushAmax l.out part.amax x.hist }) s1
      submitDetect slot net (pushHalos source slot net b ((((ctxOf s2 slot).bind (fun x => tget x.runs net))).getD r) idx j s2)
/-- Every layer of a run's network is complete. -/
def runComplete (b : Bytes) (n : Net) (r : NetRun) : Bool :=
  let ts := tensorsOf b; let ls := layersOf b
  (List.range n.count).all (fun k => tgetD r.latches (n.first + k) 0 == 2 ^ stripeCount ts (ls.getD (n.first + k) {}) - 1)

/-! ## The guard (01 R43) -/

/-- The value of a source tensor over the whole input. -/
def bindWhole (e : NEnv) (i : Nat) (p : SrcPlane) : NEnv := { bindSource e i p 0 0 with exts := tput e.exts i {} }
/-- The colour of an A frame resampled to the input size by 04 R171, bilinear. -/
def resampled (c : Bytes) (p : SrcPlane) : SrcPlane :=
  { w := inWidth c, h := inHeight c, get := fun x y ch => f2h (resampleTex (texPlane p ch) 1 (inWidth c) (inHeight c) x y) }
/-- The kept boxes of a guard run, scaled to output resolution: at most 256, from its NMS layer's records. -/
def guardResult (c b : Bytes) (n : Net) (r : NetRun) : List (List Nat) :=
  let ls := layersOf b; let ts := tensorsOf b
  let out := ((ls.drop n.first).take n.count).find? (fun l => (tn ts l.out).src == 0x31)
  let bytes : Bytes := match out with | some l => (streamsOf (imgBytes b 0x05) (tn ts l.out) (tgetD r.vals l.out {})).1 | none => []
  let sx := ratio32 (scale2 (cbSxCode c)) 2; let sy := ratio32 (scale2 (cbSyCode c)) 2
  ((List.range 256).map (fun k => slice bytes (32 * k) 32)).takeWhile (fun q => fld q 20 2 != 0xFFFF) |>.map (fun q =>
    [mul32 (fld q 0 4) sx, mul32 (fld q 4 4) sy, mul32 (fld q 8 4) sx, mul32 (fld q 12 4) sy])
/-- The render frame whose MOTION_OUT a network's motion source still waits for (07 R270). -/
def awaited (b : Bytes) (n : Net) (set : BufferSet) : Option Nat :=
  let ts := tensorsOf b
  let reads := (((layersOf b).drop n.first).take n.count).any (fun l => (layerReads l).any (fun i => (tn ts i).src == 0x03))
  if reads && set.flowNeeded && !set.flowDone then some set.frame else none
/-- A complete MOTION_OUT of render frame n reaches the runs that wait for it. -/
def bindMotion (slot n : Nat) (motion : SrcPlane) (s : State) : State :=
  match ctxOf s slot with
  | none => s
  | some x =>
    (x.runs.filter (fun r => r.2.awaits == some n)).foldl (fun s r =>
      let b := runImage s x.ward r.2
      let e := runEnv x b r.2
      let e1 := (sourceTensors e ((netsOf b).getD r.1 {})).foldl (fun e i => if (e.t i).src = 0x03 then bindWhole e i motion else e) e
      submitDetect slot r.1 (modRun slot r.1 (fun r => { r with vals := e1.vals, awaits := none }) s)) s
/-- Begin the overlay guard of a U or A frame whose colour is decoded (01 R43). -/
def startGuard (slot : Nat) (f : Frame) (s : State) : State :=
  match ctxOf s slot with
  | none => s
  | some x =>
    match if cbGuard f.config && (f.kind == .u || f.kind == .a) then frameImage s x f else none with
    | none => s
    | some b =>
      match netOfRole b 3 0 with
      | none => s
      | some (k, n) =>
        let set := (f.own.bind (setOf x)).getD {}
        let colour := if f.kind = .a then resampled f.config (ofImg set.colour) else ofImg set.colour
        let srcs := fun (e : NEnv) => (sourceTensors e n).foldl (fun e i =>
          bindWhole e i (if (e.t i).src = 0x01 then colour else frameSource s slot x f (e.t i).src)) e
        startRun slot k { image := f.image.getD 0, why := .guard f.number, exchange := !cbRefetch x.cfg,
                          lc := true, deadline := keyOfHead f.deadline, frame := some f.number, awaits := awaited b n set } srcs s
/-- A guard run of the context is still running. -/
def guardRuns (x : Ctx) : Bool := x.runs.any (fun r => r.2.running && (match r.2.why with | .guard _ => true | _ => false))

/-! ## What a run's end does -/

/-- A frame-graph buffer's content leaves the device where it is bound to the host (07 R264); an address that is not mapped and
writable for the context takes no write (log 31). -/
def hostBuffer (slot wd : Nat) (buf : Bytes) (off : Nat) (b : Bytes) (s : State) : State :=
  let a := fld buf 16 8 + off
  if fld buf 0 1 = 0x11 && ctxMapped (wardOf s wd) slot a b.length true then wardWrite wd a b (chargeVault slot 0 b.length s) else s
/-- Change a graph run of a context. -/
def modGraph (slot run : Nat) (g : GraphRun → GraphRun) (s : State) : State :=
  modCtx slot (fun x => { x with graphRuns := x.graphRuns.map (fun q => if q.id = run then g q else q) }) s
/-- The streams of a network's output tensor 0x41. -/
def auxOutput (b : Bytes) (n : Net) (r : NetRun) : Bytes :=
  let ls := layersOf b; let ts := tensorsOf b
  match ((ls.drop n.first).take n.count).find? (fun l => (tn ts l.out).src == 0x41) with
  | some l =>
    let st := streamsOf (imgBytes b 0x05) (tn ts l.out) (tgetD r.vals l.out {})
    if st.2.isEmpty then st.1 else fit (up64 st.1.length) st.1 ++ st.2
  | none => []
/-- The last layer of a run is complete: guard boxes come into force, a node's output is complete, or a command completes. -/
def endRun (slot net : Nat) (s : State) : State :=
  match ctxOf s slot with
  | none => s
  | some x =>
    match tget x.runs net with
    | none => s
    | some r =>
      let b := runImage s x.ward r
      let n := (netsOf b).getD net {}
      let s1 := modRun slot net (fun r => { r with running := false }) s
      match r.why with
      | .guard f =>
        let frames := x.fr.cur.toList ++ x.fr.ready.map (·.frame)
        let c := ((frames.find? (fun g => g.number == f)).map (·.config)).getD x.cfgInForce
        let boxes := guardResult c b n r
        let note := fun (g : Frame) => if g.number = f then { g with guard := some boxes } else g
        modCtx slot (fun x => { x with fr := { x.fr with
          guardBoxes := boxes, cur := x.fr.cur.map note, ready := x.fr.ready.map (fun q => { q with frame := note q.frame }) } }) s1
      | .node run k =>
        match x.graphRuns.find? (·.id == run) with
        | none => s1
        | some g =>
          let out := fld (fgNode g.graph k) 3 1
          let bytes := auxOutput b n r
          modGraph slot run (fun g => { g with
            ended := g.ended ++ [k], recs := tput g.recs out (bytes.map (·.toNat)), latches := tput g.latches out 1 })
            (hostBuffer slot x.ward (fgBuffer g.graph out) 0 bytes s1)
      | .command seq =>
        match cmdOf s1 (.ctx slot) seq with
        | none => s1
        | some c =>
          let bytes := auxOutput b n r
          completeOk (.ctx slot) seq [] (wardWrite x.ward (entAddr1 c.entry) bytes (chargeVault slot 0 bytes.length s1))
/-- A layer's stripe ends: a tag that disagrees tears the context down (03 R107), and otherwise its rows join the run. -/
def stripeEnd (source : Option (Nat × Who)) (slot net idx j : Nat) (s : State) : State :=
  match ctxOf s slot with
  | none => s
  | some x =>
    match tget x.runs net with
    | none => s
    | some r =>
      unlessSpoiled slot ((source.map (·.1)).getD 0xFFFF) s (fun s =>
      let b := runImage s x.ward r
      let e := runEnv x b r
      match layerSkew e (e.ls.getD idx {}) with
      | some (t, blk, want, d, sc) =>
        faultCtx slot kScaleSkew 0 (natLe 4 t ++ natLe 4 blk ++ natLe 2 want ++ natLe 2 d ++ natLe 2 sc ++ natLe 4 idx) s
      | none =>
        let s1 := settleInherit (makeStripe source slot net idx j (chargeWork slot s))
        match (ctxOf s1 slot).bind (fun x => tget x.runs net) with
        | some q => if runComplete b ((netsOf b).getD net {}) q then endRun slot net s1 else s1
        | none => s1)
/-- STRIPE_TASK_COMPLETE: every thread of a stripe task has ended. -/
def execStripeTaskComplete (core task : Nat) (s : State) : Out :=
  need (tget s.tasks task) "no such task" (fun t =>
    match t.kind with
    | .stripe i j =>
      guardThat (t.core == core && t.started && allEnded s task t) "the stripe has not ended"
        (need ((ctxOf s t.slot).bind (fun x => (x.runs.find? (fun r => r.2.running &&
            (match netOfLayer (runImage s x.ward r.2) i with | some (k, _) => k == r.1 | none => false))))) "no run" (fun r =>
          .next (stripeEnd (some (core, whoOf t)) t.slot r.1 i j
            (modCore core (fun c => { c with halo := c.halo.filter (fun h => !(h.slot == t.slot && h.layer == i && h.stripe == j)) })
              (dropTasks (fun k _ => k == task)
                (countFallback core t (runImage s (((ctxOf s t.slot).map (·.ward)).getD 0) r.2) r.2 i j s))))))
    | _ => notNow "not a stripe task")
/-- DETECT_JOB_COMPLETE: a post-processor's job ends, and it takes the next. -/
def execDetectJobComplete (unit : Nat) (s : State) : Out :=
  need (s.detect.find? (fun d => d.unit == some unit)) "the post-processor is idle" (fun d =>
    let s1 : State := { s with detect := s.detect.filter (fun e => e != d) }
    let s2 := tallyChip 0x248 unit 1 ((ctxOf s d.slot).map (·.ward)) s1
    .next (settleDetect (if (namedCtx s d.slot d.gen).isSome then stripeEnd none d.slot d.net d.layer 0 s2 else s2)))

end Sys2Proof.Machine
end

