-- ==== Sys2Proof/Machine/Remotes.lean ====
section
/-!
DEFINITION. Remote hasps and latches at the requesting device (10 R368; 12 R429–R432): imported ranges, pending records,
and how a thread's remote operation begins and ends.
-/
namespace Sys2Proof.Machine

/-! ## Imported ranges (12 R429) -/

/-- The import entry of a ward that covers r: of hasps, or of latches. -/
def importRange (s : State) (wd : Nat) (hasp : Bool) (r : Nat) : Option RemoteRange :=
  match s.hinge.cfg with
  | none => none
  | some b =>
    (hcRanges b).find? (fun e => e.kind == (if hasp then 0x11 else 0x12) && e.ward == wd && decide (e.first ≤ r) && decide (r < e.first + e.count))
/-- The remote operations 0 to 6 (12 Table 12-5): those of a hasp. -/
def opOnHasp (op : Nat) : Bool := decide (op ≤ 2)
/-- The thread waits for the reply. -/
def opParks (op : Nat) : Bool := !(op == 2 || op == 3 || op == 4)
/-- A ward may send to a destination: its route entry's WARD_MASK has the ward's bit. -/
def wardRoute (s : State) (wd dev : Nat) : Option Nat :=
  match routeOf s dev with
  | some r => if r.wards.testBit wd then routePort s dev else none
  | none => none

/-! ## Pending records (10 R368) -/

/-- The outstanding remote operation of a thread (12 R431). -/
def recordOf (s : State) (t : ThreadRef) : Option Nat := (s.remotes.find? (fun r => r.2.thread == t)).map (·.1)
/-- The ward has a pending record free. -/
def recordFree (s : State) (wd : Nat) : Bool :=
  decide ((s.remotes.filter (fun r => r.2.ward == wd)).length < (wardOf s wd).cfg.pendRecs)
/-- REMOTE_LOST tears the waiting context down: the reason, and the remote device (12 R432). -/
def remoteLost (slot layer dev reason : Nat) (s : State) : State :=
  faultCtx slot kRemoteLost reason (natLe 2 dev ++ [0, 0] ++ natLe 4 layer) s
/-- A KERNEL_FAULT of the instruction that a parked thread issued last. -/
def parkedFault (t : ThreadRef) (reason : Nat) (s : State) : State :=
  match threadOf s t with
  | none => s
  | some th => kernelFault { th with pc := th.pc - 8 } (tgetD s.tasks th.task {}) reason 0 s
/-- Park a thread from now. -/
def parkThread (t : ThreadRef) (p : Park) (h : Option Held) (s : State) : State :=
  modThread t (fun th => { th with park := p, parkedAt := s.now, held := h }) s
/-- Open a pending record and send its request; an unreachable peer loses the operation at once. -/
def openRecord (t : ThreadRef) (op dst : Nat) (e : RemoteRange) (r : Nat) (k : Task) (s : State) : State :=
  let wd := taskWard s k
  match wardRoute s wd e.peer with
  | none => remoteLost k.slot k.layer e.peer 0x02 s
  | some port =>
    let id := freeKeyFrom s.remotes 0
    let req := s.hinge.nextRequest % 65536
    let target := e.peerFirst + (r - e.first)
    let q : Remote := { thread := t, slot := k.slot, gen := k.gen, ward := wd, op := op, dst := dst, dev := e.peer, port := port,
                        sentAt := s.now, request := req, target := target, tward := e.peerWard, tslot := e.peerSlot }
    let s1 : State := { s with remotes := tput s.remotes id q, hinge := { s.hinge with nextRequest := (req + 1) % 65536 } }
    let s2 := modThread t (fun th => { th with
      irrevocable := true, held := none, parkedAt := s.now, park := if opParks op then .remote id else .running }) s1
    sendFor (some wd) tyReq (b2n (!taskLc k)) 0 e.peer (reqTag req k.slot wd) [] (reqOp op (taskLc k) e.peerWard e.peerSlot target k.gen) s2
/-- A thread executes a remote operation on imported object r: it waits for its own outstanding operation, then for a free
record, then its request goes out (12 R431; 10 R368). An index that no import entry covers faults. -/
def startRemote (t : ThreadRef) (op r dst : Nat) (s : State) : State :=
  match (threadOf s t).bind (fun th => tget s.tasks th.task) with
  | none => s
  | some k =>
    match importRange s (taskWard s k) (opOnHasp op) r with
    | none => parkedFault t (if opOnHasp op then kfHaspRange else kfLatchRange) s
    | some e =>
      match recordOf s t with
      | some id => parkThread t (.remote id) (some (.remote op r dst)) s
      | none =>
        if recordFree s (taskWard s k) then openRecord t op dst e r k s
        else parkThread t .recordWait (some (.remote op r dst)) s
/-- The threads of a ward that wait for a record, the longest first. -/
def recordWaiters (s : State) (wd : Nat) : List ThreadRef :=
  let all := s.cores.flatMap (fun c => (c.2.threads.filter (fun t => t.2.park == .recordWait
    && ((tget s.tasks t.2.task).map (fun k => taskWard s k == wd)).getD false)).map (fun t => (t.2.parkedAt, ({ core := c.1, slot := t.1 } : ThreadRef))))
  (all.foldl (fun l x => l.takeWhile (fun y => decide (y.1 ≤ x.1)) ++ x :: l.dropWhile (fun y => decide (y.1 ≤ x.1))) []).map (·.2)
/-- A held remote operation is tried again. -/
def retryRemote (t : ThreadRef) (s : State) : State :=
  match (threadOf s t).bind (·.held) with
  | some (.remote op r dst) => startRemote t op r dst (modThread t (fun th => { th with park := .running, held := none }) s)
  | _ => s
/-- Records that are free serve the threads that wait for one. -/
def serveRecords (wd : Nat) (s : State) : State :=
  (recordWaiters s wd).foldl (fun s t => if recordFree s wd then retryRemote t s else s) s
/-- A reply lands: the record is free, and the thread goes on with its result (12 Table 12-5). -/
def recordEnds (id : Nat) (q : Remote) (ok : Bool) (s : State) : State :=
  let s1 : State := { s with remotes := tdel s.remotes id }
  let key := (q.dev, q.tward, q.tslot, q.target)
  let s2 := modCtx q.slot (fun x => { x with
    heldAt := if ok && (q.op == 0 || q.op == 1) then x.heldAt ++ [key] else if q.op == 2 then x.heldAt.erase key else x.heldAt }) s1
  let s3 := match threadOf s2 q.thread with
    | some th =>
      if th.park = .remote id then
        let s4 := modThread q.thread (fun th => { th with park := .running }) s2
        if th.held.isSome then retryRemote q.thread s4
        else if q.op = 1 ∨ q.op = 6 then modThread q.thread (wrP q.dst (if ok then 2 ^ 64 - 1 else 0)) s4
        else s4
      else s2
    | none => s2
  serveRecords q.ward s3
/-- The records of a context are cancelled when its teardown drains (10 R377 step 3). -/
def cancelRecords (slot wd : Nat) (s : State) : State :=
  serveRecords wd { s with remotes := s.remotes.filter (fun r => r.2.slot != slot) }

end Sys2Proof.Machine
end

