-- ==== Sys2Proof/Machine/Finish.lean ====
section
/-!
DEFINITION. The end of a teardown: memory returned, records, report and accounting posted, generation advanced
(10 R377 steps 3–5, R352; 11 R404).
-/
namespace Sys2Proof.Machine

/-- The COMPLETION records of the context's fetched commands that have none, with the teardown's code and no effect. -/
def endCommands (slot : Nat) (r : FaultReport) (s : State) : State :=
  let cmds := ((ctxOf s slot).map (·.ring.cmds)).getD []
  cmds.foldl (fun s c =>
    if r.isFault then complete (.ctx slot) c.seq r.code r.reason (r.detail.take 16) s
    else complete (.ctx slot) c.seq kCancelled 0 [] s) s
/-- A FAULT record carrying the report, and the EVENT of the function's admin ring. -/
def postFault (slot fn : Nat) (r : FaultReport) (s : State) : State :=
  let gen := (slotOf s slot).gen
  postFnEvent fn r.code r.reason slot gen r.detail
    (postAlways (.ctx slot) { type := 4, code := r.code, reason := r.reason, body := r.detail, slot := slot, gen := gen } s)
/-- The final accounting record at REPORT_ADDR, then its ACCOUNTING record with FENCE. -/
def postAccounting (slot : Nat) (x : Ctx) (s : State) : State :=
  let gen := (slotOf s slot).gen
  postAlways (.ctx slot) { type := 5, body := natLe 8 (cbReport x.cfg), fence := true, slot := slot, gen := gen }
    (hostWrite (cbReport x.cfg) (acctRecord s slot gen x.acct) s)
/-- An allocation that goes back to free memory with a context. -/
def ofCtx (slot : Nat) (a : Alloc) : Bool :=
  match a.kind with
  | .general i => i == slot
  | .buffers i => i == slot
  | .store i => i == slot
  | .stats i => i == slot
  | .staging i => i == slot
  | .tensors i _ => i == slot
  | .graph i => i == slot
  | .copies i => i == slot
  | .hierarchy i _ => i == slot
  | _ => false
/-- Memory returns: the pool's chunks to the spare pool, everything else to free memory (10 R350). A ward that a PF FLR has
unconfigured has no memory to return to (11 R411). -/
def returnMemory (slot : Nat) (x : Ctx) (s : State) : State :=
  let s1 := release x.ward (ofCtx slot) s
  modWard x.ward (fun w =>
    if wardActive w.cfg then
      { w with
        spare := w.spare + x.pool + x.growing.getD 0
        allocs := w.allocs.map (fun a => if a.kind = .binPool slot then { a with kind := .spare } else a) }
    else w) s1
/-- Fixed-function work of the context ends: detection jobs and flow-engine slices. -/
def dropEngineWork (slot : Nat) (s : State) : State :=
  settleDetect { s with
    detect := s.detect.filter (fun d => d.slot != slot)
    engines := s.engines.map (fun e =>
      (e.1, if (e.2.job.map (·.slot)) = some slot then { e.2 with job := none } else e.2)) }
/-- The slot's generation advances, or the slot retires (10 R352; 00 R21). -/
def freeCtxSlot (slot : Nat) (s : State) : State :=
  modSlot slot (fun y =>
    if y.gen = 0xFFFF then { y with state := .retired, perfUser := false }
    else { state := .free, gen := y.gen + 1 }) { s with ctxs := tdel s.ctxs slot }
/-- The destroy commands of a slot and the resets of its ward that now end. -/
def endDestroys (slot wd : Nat) (s : State) : State :=
  (List.range 16).foldl (fun s fn =>
    (fnOf s fn).ring.cmds.foldl (fun s c =>
      if !c.started then s
      else if entOpcode c.entry = 0x05 ∧ c.aux = slot then completeOk (.admin fn) c.seq [] s
      else if entOpcode c.entry = 0x02 ∧ c.aux = wd ∧ !wardTearing s wd then completeOk (.admin fn) c.seq [] s
      else s) s) s
/-- A teardown ends. -/
def finishTeardown (slot : Nat) (x : Ctx) (s : State) : State :=
  let r := x.fault.getD {}
  let s1 := endCommands slot r (dropEngineWork slot (cancelRecords slot x.ward s))
  let s2 := if r.isFault then postFault slot x.ward r s1 else s1
  endDestroys slot x.ward (freeCtxSlot slot (returnMemory slot x (postAccounting slot x s2)))
/-- TEARDOWN_COMPLETE. -/
def execTeardownComplete (slot : Nat) (s : State) : Out :=
  guardThat ((slotOf s slot).state == .teardown && !s.fw.switching) "no teardown can complete in the slot"
    (need (ctxOf s slot) "no context" (fun x => .next (finishTeardown slot x s)))

end Sys2Proof.Machine
end

