-- ==== Sys2Proof/Machine/Counters.lean ====
section
/-!
DEFINITION. The counter region's registers and events: windows, freeze and clear, sampling, the sample buffer and
PERF_USER (14 R466–R476), and the counting of core cycles.
-/
namespace Sys2Proof.Machine

/-! ## Register images (14 Tables 14-1 to 14-6) -/

/-- PC_BW_CFG. -/
def bwCfgWord (p : CorePerf) : Nat := b2n p.bwEnable * 2 ^ 31 + p.bwWindow
/-- The 64 bits at an 8-byte aligned offset of a core counter block. -/
def coreBlockWord (p : CorePerf) (o : Nat) : Nat :=
  if o < 0x40 then p.cnt.getD (o / 8) 0
  else if o < 0x80 then p.sel.getD ((o - 0x40) / 8) 0
  else if o = 0x80 then p.ovf
  else if o = 0x88 then bwCfgWord p
  else if 0x90 ≤ o ∧ o < 0xC0 then p.bwLast.getD ((o - 0x90) / 8) 0
  else if 0xC0 ≤ o ∧ o < 0xF0 then p.bwPeak.getD ((o - 0xC0) / 8) 0
  else 0
/-- PC_SBUF_CFG. -/
def sbufCfgWord (p : Perf) : Nat := b2n p.sbufEnable * 2 ^ 63 + p.sbufVector * 2 ^ 48 + p.sbufLog2 * 2 ^ 32 + p.watermark
/-- PC_SAMPLE_CTRL. -/
def sampleCtrlWord (p : Perf) : Nat :=
  b2n p.timerOn * 2 ^ 63 + b2n p.externalOn * 2 ^ 62 + p.head * 2 ^ 48 + p.line * 2 ^ 32 + p.conflict * 2 ^ 24
/-- 64 bits of PC_PERF_USER from slot 64k. -/
def perfUserWord (s : State) (k : Nat) : Nat := maskOf ((List.range 64).filter (fun i => (slotOf s (64 * k + i)).perfUser))
/-- The 64 bits at an 8-byte aligned BAR0 offset of the PC_ region, 0x04_0000–0x13_FFFF. -/
def pcWord (s : State) (o : Nat) : Nat :=
  let p := s.perf
  if o < 0xC0000 then
    let c := (o - 0x40000) / 0x100
    if c < coreCount s then coreBlockWord (corePerf s c) (o % 0x100) else 0
  else if o < 0xC0400 then
    let x := tgetD p.chip ((o - 0xC0000) / 0x10) {}
    if o % 0x10 = 0 then x.cnt else x.sel
  else if o = 0xC0400 then p.chipOvf
  else if o = 0xD0000 then b2n p.freeze
  else if o = 0xD0008 then p.sbufBase
  else if o = 0xD0010 then sbufCfgWord p
  else if o = 0xD0018 then p.producer + p.consumer * 2 ^ 32
  else if o = 0xD0020 then p.lost
  else if o = 0xD0028 then sampleCtrlWord p
  else if 0xD0100 ≤ o ∧ o < 0xD0200 then (p.sampleCores >>> (8 * (o - 0xD0100))) % 2 ^ 64
  else if 0xD0200 ≤ o ∧ o < 0xD0280 then perfUserWord s ((o - 0xD0200) / 8)
  else 0

/-! ## Writes -/

/-- Writable bits of PC_SEL and PC_CHIP_SEL. -/
def selMask : Nat := 0xF000FFFF03FF03FF
def chipSelMask : Nat := 0x810FFF00000003FF
/-- Put PC_CNT: the value written stands in its fabric cycle (14 R471). -/
def writeCnt (c i v : Nat) (s : State) : State :=
  modCorePerf c (fun p => { p with cnt := p.cnt.set i (v % 2 ^ 48), wrote := p.wrote ||| 2 ^ i }) s
/-- Put PC_SEL: the fabric cycle's occurrences are counted under the selection before (14 R471). -/
def writeSel (c i v : Nat) (s : State) : State :=
  modCorePerf c (fun p => { p with sel := p.sel.set i (v &&& selMask), selWas := some (p.selWas.getD p.sel) }) s
/-- A window's length in TB cycles. -/
def bwLen (k : Nat) : Nat := 100 * 2 ^ k
/-- Write PC_BW_CFG: LAST and PEAK are cleared, and counting resumes at the next window start; a WINDOW above 16 leaves the
field as it was (log 19). -/
def writeBwCfg (c v : Nat) (s : State) : State :=
  modCorePerf c (fun p =>
    let k := if v % 32 ≤ 16 then v % 32 else p.bwWindow
    { p with bwEnable := v.testBit 31, bwWindow := k, bwRuns := false, bwIndex := tb s / bwLen k,
             bwCur := [0, 0, 0, 0, 0, 0], bwLast := [0, 0, 0, 0, 0, 0], bwPeak := [0, 0, 0, 0, 0, 0] }) s
/-- The PC_BW_CFG write. -/
def execBwCfgWrite (core value : Nat) (s : State) : Out :=
  if barsOpen s 0 ∧ core < coreCount s then .next (writeBwCfg core value s) else .next s
/-- A window ends at a multiple of its length: its counts become LAST, and PEAK where larger; the first boundary after a
write of PC_BW_CFG only starts counting. -/
def endWindow (core : Nat) (s : State) : State :=
  modCorePerf core (fun p =>
    let p1 := { p with bwRuns := true, bwIndex := tb s / bwLen p.bwWindow, bwCur := [0, 0, 0, 0, 0, 0] }
    if p.bwRuns then { p1 with bwLast := p.bwCur, bwPeak := List.zipWith max p.bwPeak p.bwCur } else p1) s
/-- The end of a core's bandwidth window. -/
def execBwWindowEnd (core : Nat) (s : State) : Out :=
  let p := corePerf s core
  guardThat (p.bwEnable && decide (p.bwIndex < tb s / bwLen p.bwWindow)) "no window ends" (.next (endWindow core s))

/-- PC_CTRL.FREEZE. -/
def execCounterFreeze (freeze : Bool) (s : State) : Out :=
  if barsOpen s 0 then .next (modPerf (fun p => { p with freeze := freeze }) s) else .next s
/-- Zero every VALUE, OVF, LAST and PEAK (14 R469). -/
def clearCounters (s : State) : State :=
  modPerf (fun p => { p with
    cores := p.cores.map (fun x => (x.1, { x.2 with cnt := List.replicate 8 0, ovf := 0, bwLast := List.replicate 6 0, bwPeak := List.replicate 6 0 }))
    chip := p.chip.map (fun x => (x.1, { x.2 with cnt := 0 }))
    chipOvf := 0, cleared := true }) s
/-- PC_CTRL.CLEAR. -/
def execCounterClear (s : State) : Out := if barsOpen s 0 then .next (clearCounters s) else .next s

/-! ## Sampling -/

/-- The Detent holds a head's comparator: the head is bound to a context not in replay mode, or a frame that such a
context started for it is not ready yet (09 R321). -/
def detentHolds (s : State) (h : Nat) : Bool :=
  s.ctxs.any (fun x => (slotOf s x.1).state == .live && !cbReplay x.2.cfg &&
    (x.2.head == some h || (x.2.fr.cur.map (fun f => f.head == h)).getD false))
/-- A head is configured with genlock on, or waits for such a configuration. -/
def genlockOn (s : State) : Bool := s.heads.any (fun x => (x.2.cfg.map hbGenlock).getD false || (x.2.pendingCfg.map hbGenlock).getD false)
/-- Lines of a head's frame slot. -/
def headLines (s : State) (h : Nat) : Nat := (((headOf s h).cfg).map hbVt).getD 0
/-- Write PC_SAMPLE_CTRL (14 R472): refused with CONFLICT where a resource is in use; a HEAD above 1,025 leaves the register
as it was (log 19). -/
def writeSampleCtrl (v : Nat) (s : State) : State :=
  let h := field v 58 48
  let refuse := fun (c : Nat) => modPerf (fun p => { p with conflict := c }) s
  if v.testBit 63 && detentHolds s h then refuse 0x03
  else if v.testBit 62 && genlockOn s then refuse 0x02
  else if 1025 < h then s
  else modPerf (fun p => { p with timerOn := v.testBit 63, externalOn := v.testBit 62, head := h, line := field v 47 32, conflict := 0 }) s
/-- The write that sets TIMER_ENABLE. -/
def execSampleTimerEnable (value : Nat) (s : State) : Out :=
  if barsOpen s 0 then .next (writeSampleCtrl (value % 2 ^ 63 + 2 ^ 63) s) else .next s
/-- The write that sets EXTERNAL_ENABLE. -/
def execSampleExternalEnable (value : Nat) (s : State) : Out :=
  if barsOpen s 0 then .next (writeSampleCtrl (value % 2 ^ 64 ||| 2 ^ 62) s) else .next s
/-- The start of line LINE of the head's present slot, in head units. -/
def timerInstant (s : State) : Option Nat :=
  let h := headOf s s.perf.head
  match h.cfg, h.prevStart with
  | some c, some start => if s.perf.line < hbVt c then some (start + s.perf.line * hbPeriod c / hbVt c) else none
  | _, _ => none
/-- The timer's instant has come and it has not fired for this slot. -/
def timerDue (s : State) : Bool :=
  s.perf.timerOn && (headOf s s.perf.head).prevStart != s.perf.lastTimer && ((timerInstant s).map (headReached s)).getD false
/-- The sampling timer's instant: every core of PC_SAMPLE_CORES triggers a record. -/
def execSampleTimer (s : State) : Out :=
  guardThat (timerDue s) "the timer's instant has not come"
    (.next (triggerAll 2 (modPerf (fun p => { p with lastTimer := (headOf s s.perf.head).prevStart }) s)))

/-- The 128 bytes of a sample record (14 Table 14-7); J is the next instruction of a named thread, or none (log 20). -/
def sampleBytes (s : State) (core : Nat) (q : PSample) (thread : Option Nat) : Bytes :=
  let p := corePerf s core
  let th := thread.bind (fun i => threadOf s { core := core, slot := i })
  let k := th.bind (fun x => tget s.tasks x.task)
  let slot := (k.map (·.slot)).getD 0
  let gen := (k.map (·.gen)).getD 0
  let kernel := match k.map (·.code) with
    | some (.kernel _ i) => i
    | some .builtIn => 0xFFFF
    | none => 0
  let lc := (k.map taskLc).getD false
  natLe 2 0x5350 ++ [1] ++ List.replicate 49 0
    ++ natLe 1 (b2n k.isNone + 2 * b2n lc) ++ natLe 1 q.ovfMask ++ natLe 2 (q.trigger + (thread.getD 0) * 16)
    ++ natLe 2 core ++ natLe 2 slot ++ natLe 2 gen ++ natLe 4 ((th.map (·.pc)).getD 0) ++ natLe 2 kernel
    ++ natLe 4 ((k.map (·.layer)).getD 0) ++ natLe 8 (tb s) ++ (List.range 8).flatMap (fun i => natLe 6 (p.cnt.getD i 0))
/-- Write a core's record and advance PRODUCER; the watermark sends one message of the PF (14 R474). -/
def writeSample (core : Nat) (q : PSample) (thread : Option Nat) (ok : Bool) (s : State) : State :=
  let p := s.perf
  let addr := p.sbufBase + 128 * (p.producer % 2 ^ p.sbufLog2)
  let s1 := if ok then hostWrite addr (sampleBytes s core q thread) s else spoilHost addr 128 (hostDmaFailed 0 addr s)
  let s2 := modCorePerf core (fun c => { c with sample := none }) s1
  let s3 := modPerf (fun p => { p with producer := (p.producer + 1) % 2 ^ 32 }) s2
  if sbufUnread s3.perf = p.watermark then sendMsix 0 p.sbufVector s3 else s3
/-- A sample record is written. -/
def execSampleRecordWrite (core : Nat) (thread : Option Nat) (ok : Bool) (s : State) : Out :=
  need (corePerf s core).sample "no record waits" (fun q =>
    guardThat (s.perf.sbufEnable && (match thread with | some i => (threadOf s { core := core, slot := i }).isSome | none => true))
      "the record cannot be written" (.next (writeSample core q thread ok s)))

/-- Write PC_SBUF_CFG: the fields other than ENABLE change only while ENABLE is 0, and setting ENABLE sets both indices to
0; a WATERMARK outside its range leaves the field as it was (log 19). -/
def writeSbufCfg (v : Nat) (s : State) : State :=
  let p := s.perf
  let on := v.testBit 63
  if p.sbufEnable then
    if on then s
    else modPerf (fun p => { p with sbufEnable := false, cores := p.cores.map (fun x => (x.1, { x.2 with sample := none })) }) s
  else
    let l := field v 36 32
    let log2 := if 6 ≤ l ∧ l ≤ 16 then l else 6
    let wm := field v 16 0
    modPerf (fun p => { p with
      sbufEnable := on, sbufVector := field v 58 48, sbufLog2 := log2
      watermark := if 1 ≤ wm ∧ wm ≤ 2 ^ log2 then wm else p.watermark
      producer := if on then 0 else p.producer, consumer := if on then 0 else p.consumer }) s
/-- The write of PC_SBUF_CFG. -/
def execSbufEnable (value : Nat) (s : State) : Out := if barsOpen s 0 then .next (writeSbufCfg value s) else .next s
/-- Write PC_SBUF_CONSUMER: a value beyond PRODUCER is ignored. -/
def writeConsumer (v : Nat) (s : State) : State :=
  let p := s.perf
  if (p.producer + 2 ^ 32 - v % 2 ^ 32) % 2 ^ 32 ≤ sbufUnread p then modPerf (fun p => { p with consumer := v % 2 ^ 32 }) s else s
/-- The write of PC_SBUF_CONSUMER. -/
def execSbufConsumerWrite (value : Nat) (s : State) : Out := if barsOpen s 0 then .next (writeConsumer value s) else .next s
/-- The read of PC_SBUF_LOST clears it. -/
def execSbufLostRead (s : State) : Out :=
  if barsOpen s 0 then
    .next (modPerf (fun p => { p with lost := 0 }) { s with lastRead := natLe 4 s.perf.lost, lastPoisoned := false })
  else .next { s with lastRead := natLe 4 0, lastPoisoned := false }
/-- Write one bit of PC_PERF_USER: setting it needs a LIVE slot (14 R476). -/
def writePerfUser (slot : Nat) (set : Bool) (s : State) : State :=
  if set && (slotOf s slot).state != .live then s
  else modPerf (fun p => if (tget p.userWas slot).isSome then p else { p with userWas := tput p.userWas slot (slotOf s slot).perfUser })
    (modSlot slot (fun x => { x with perfUser := set }) s)
/-- The write of a PC_PERF_USER bit. -/
def execPerfUserWrite (slot : Nat) (set : Bool) (s : State) : Out :=
  if barsOpen s 0 ∧ slot < 1024 then .next (writePerfUser slot set s) else .next s

/-- Write a value, already merged to 64 bits, at an 8-byte aligned offset of the PC_ region; `lo` and `hi` say which halves
the access covers. -/
def pcWrite (o v : Nat) (lo hi : Bool) (s : State) : State :=
  if o < 0xC0000 then
    let c := (o - 0x40000) / 0x100
    let r := o % 0x100
    if coreCount s ≤ c then s
    else if r < 0x40 then writeCnt c (r / 8) v s
    else if r < 0x80 then writeSel c ((r - 0x40) / 8) v s
    else if r = 0x80 ∧ lo then modCorePerf c (fun p => { p with ovf := maskDiff p.ovf (v % 256) }) s
    else if r = 0x88 ∧ lo then writeBwCfg c v s
    else s
  else if o < 0xC0400 then
    let n := (o - 0xC0000) / 0x10
    modPerf (fun p => { p with chip := tupd p.chip n {} (fun x =>
      if o % 0x10 = 0 then { x with cnt := v % 2 ^ 48, wrote := true }
      else { x with sel := v &&& chipSelMask, selWas := some (x.selWas.getD x.sel) }) }) s
  else if o = 0xC0400 then
    let w := (if lo then v % 2 ^ 32 else 0) + (if hi then v / 2 ^ 32 * 2 ^ 32 else 0)
    modPerf (fun p => { p with chipOvf := maskDiff p.chipOvf w }) s
  else if o = 0xD0000 ∧ lo then
    let s1 := modPerf (fun p => { p with freeze := v.testBit 0 }) s
    if v.testBit 1 then clearCounters s1 else s1
  else if o = 0xD0008 then if s.perf.sbufEnable then s else modPerf (fun p => { p with sbufBase := v / 4096 * 4096 }) s
  else if o = 0xD0010 then writeSbufCfg v s
  else if o = 0xD0018 ∧ hi then writeConsumer (v / 2 ^ 32) s
  else if o = 0xD0028 then writeSampleCtrl v s
  else if 0xD0100 ≤ o ∧ o < 0xD0200 then
    let k := 8 * (o - 0xD0100)
    modPerf (fun p => { p with sampleCores := maskDiff p.sampleCores ((2 ^ 64 - 1) * 2 ^ k) ||| (v % 2 ^ 64) * 2 ^ k }) s
  else if 0xD0200 ≤ o ∧ o < 0xD0280 then
    let k := 8 * (o - 0xD0200)
    (List.range 64).foldl (fun s i =>
      if (i < 32 ∧ lo) ∨ (32 ≤ i ∧ hi) then writePerfUser (k + i) (v.testBit i) s else s) s
  else s

/-! ## Counting of core cycles (14 R463, R464): what a tick of one fabric cycle adds -/

/-- Core cycles of a core that begin in an interval of root cycles. -/
def coreCyclesIn (point t0 t1 : Nat) : Nat := cdiv t1 (coreDiv point) - cdiv t0 (coreDiv point)
/-- The park event of a thread. -/
def parkEvent (p : Park) : Option Nat :=
  match p with
  | .latch _ _ => some 0x038
  | .hasp _ => some 0x039
  | .pixels _ _ => some 0x03A
  | .remote _ | .recordWait => some 0x03B
  | .copies _ | .fence _ => some 0x03C
  | _ => none
/-- The engine that an opcode occupies: 0 TE, 1 VE, 2 ME, 3 SE (05 Table 5-4). -/
def engineOfOp (op : Nat) : Option Nat :=
  if 0x40 ≤ op ∧ op < 0x80 then some 1 else if 0x80 ≤ op ∧ op ≤ 0x86 then some 2
  else if 0xC0 ≤ op ∧ op ≤ 0xC3 then some 0 else if op = 0xD0 then some 3 else none
/-- A thread's next instruction is for an engine and cannot start: a source register awaits ward memory, or for the ME 64 requests are
outstanding (14 R464). What a thread of built-in code issues next is the device's own affair. -/
def heldBack (s : State) (c : Core) (i : Nat) (th : Thread) : Bool :=
  match if th.park = .running then (tget s.tasks th.task).bind (fun k => nextWord s k th) else none with
  | none => false
  | some w =>
    let op := w / 2 ^ 56
    let f := kfields w
    engineOfOp op == some i &&
      ((match opUse op f.mod.toNat with | some u => waitsFor { u with d := .no } op f th | none => false) || (i == 2 && outstanding c == 64))
/-- The class of an engine's slots in cycles in which it is not occupied, and whom they are charged to: back-starved where an
instruction for it is held back, of the thread that issued least recently (log 87), and front-starved otherwise. -/
def starvedClass (s : State) (c : Core) (i : Nat) : Nat × Option Who :=
  let held := (c.threads.filter (fun x => heldBack s c i x.2)).foldl (fun b x =>
    match b with
    | none => some x.2
    | some y => if x.2.lastIssue < y.lastIssue then some x.2 else some y) none
  match held with
  | some th => (2, (tget s.tasks th.task).map whoOf)
  | none => (3, c.owner.map (fun o => { slot := o, gen := (slotOf s o).gen, lc := true }))
/-- A core has a counter selected in this fabric cycle. -/
def counts (p : CorePerf) : Bool := (p.selWas.getD p.sel).any (fun v => v.testBit 63)
/-- The occurrences that n cycles of a core are, its core cycles apart. -/
def noteCycles (c n : Nat) (s : State) : State :=
  let k := coreOf s c
  let s2 := match k.owner with
    | some o => tally c 0x001 n (some { slot := o, gen := (slotOf s o).gen, lc := true }) s
    | none => s
  let s3 := tally c 0x02B (n * outstanding k) none s2
  let s4 := if outstanding k = 64 then tally c 0x02C n none s3 else s3
  let s5 := k.threads.foldl (fun s x => match parkEvent x.2.park with
    | some ev => tally c ev n ((tget s.tasks x.2.task).map whoOf) s
    | none => s) s4
  (List.range 4).foldl (fun s1 i =>
    let cls := starvedClass s k i
    if k.busy.getD i 0 ≤ s.now then tally c (0x010 + 4 * i + cls.1) n cls.2 s1 else s1) s5
/-- CORE_CYCLES: whether a selection counts the present cycles of a core, each once whatever its filter passes. -/
def cycleHit (s : State) (c sel : Nat) : Bool :=
  let mine := (s.tasks.filter (fun x => x.2.core == c && x.2.started)).map (fun x => whoOf x.2)
  sel.testBit 63 && sel % 1024 == 0 && (match field sel 61 60 with
    | 0 => true
    | 1 => mine.any (fun w => field sel 25 16 == w.slot && field sel 47 32 == w.gen)
    | 2 => coreHasLc s c
    | _ => mine.any (fun w => !w.lc))
/-- The occurrences that a fabric cycle from `t0` to the present instant is. -/
def noteCycle (t0 : Nat) (s : State) : State :=
  tallyChip 0x200 0 ((s.now - t0) / 8) none (s.perf.cores.foldl (fun s x =>
    if counts x.2 then noteCycles x.1 (coreCyclesIn (corePoint s x.1) t0 s.now) s else s) s)
/-- The fabric cycle from `t0` ends: its occurrences are counted, unless counting is frozen or CLEAR was written in it (14 R469, R471). -/
def countCycle (t0 : Nat) (s : State) : State :=
  let p := s.perf
  let s1 := if p.freeze || p.cleared then s
    else countChip p.noted (p.cores.foldl (fun s x =>
      if counts x.2 then countCore x.1 (coreCyclesIn (corePoint s x.1) t0 s.now) (cycleHit s x.1) p.noted s else s) s)
  modPerf (fun p => { p with
    noted := [], cleared := false, userWas := []
    cores := p.cores.map (fun x => (x.1, { x.2 with wrote := 0, selWas := none }))
    chip := p.chip.map (fun x => (x.1, { x.2 with wrote := false, selWas := none })) }) s1

end Sys2Proof.Machine
end

