-- ==== Sys2Proof/Machine/Vision.lean ====
section
/-!
DEFINITION. Flow and disparity (chapter 7): frame-graph runs, nodes, engines and their slices, band latches, optical flow and
stereo disparity, and the end of a run.
-/
namespace Sys2Proof.Machine

/-! ## Luma (07 R271) -/

/-- The 10-bit luma of a pixel's FP16 colour. -/
def lumaOf (r g b : Nat) : Nat :=
  let y := add32 (add32 (mul32 (ratio32 2627 10000) (h2f r)) (mul32 (ratio32 6780 10000) (h2f g))) (mul32 (ratio32 593 10000) (h2f b))
  let yc := min32 (max32 y 0) (int32f 4)
  if isNaN32 y then 0 else (rneInt (unpack fFP32 (mul32 (fsqrt fFP32 yc) (ratio32 1023 2)))).toNat
/-- A grid of naturals, read with clamping. -/
structure Grid where
  w : Nat := 1
  h : Nat := 1
  data : List Nat := []
  deriving DecidableEq, Repr
def Grid.at_ (g : Grid) (x y : Int) : Nat :=
  g.data.getD ((clampI 0 ((g.h : Int) - 1) y).toNat * g.w + (clampI 0 ((g.w : Int) - 1) x).toNat) 0
/-- The luma of a colour image. -/
def lumaGrid (m : Img) : Grid :=
  { w := m.w, h := m.h, data := (List.range (m.w * m.h)).map (fun p =>
      lumaOf (m.data.getD (p * m.ch) 0) (m.data.getD (p * m.ch + 1) 0) (m.data.getD (p * m.ch + 2) 0)) }
def natDiff (a b : Nat) : Nat := max a b - min a b

/-! ## Optical flow (07 R272–R277) -/

/-- The next pyramid level. -/
def halfGrid (g : Grid) : Grid :=
  let w := cdiv g.w 2; let h := cdiv g.h 2
  { w := w, h := h, data := (List.range (w * h)).map (fun p =>
      let x : Int := (2 * (p % w) : Nat); let y : Int := (2 * (p / w) : Nat)
      (g.at_ x y + g.at_ (x + 1) y + g.at_ x (y + 1) + g.at_ (x + 1) (y + 1) + 2) / 4) }
/-- Levels 0 to n. -/
def pyramidOf : Nat → Grid → List Grid
  | 0, g => [g]
  | n + 1, g => g :: pyramidOf n (halfGrid g)
/-- The cost of a motion for a block. -/
def flowCost (cur prev : Grid) (bx by_ : Nat) (m : Int × Int) : Nat :=
  sumL ((List.range 64).map (fun k =>
    let x : Int := (8 * bx + k % 8 : Nat); let y : Int := (8 * by_ + k / 8 : Nat)
    natDiff (cur.at_ x y) (prev.at_ (x - m.1) (y - m.2))))
/-- The least by cost, then |m_x| + |m_y|, then m_y, then m_x. -/
def bestMotion (cost : Int × Int → Nat) (cands : List (Int × Int)) : Int × Int :=
  let better := fun (a b : Int × Int) =>
    let ca := cost a; let cb := cost b
    let na := a.1.natAbs + a.2.natAbs; let nb := b.1.natAbs + b.2.natAbs
    decide (ca < cb) || (ca == cb && (decide (na < nb) || (na == nb && (decide (a.2 < b.2) || (a.2 == b.2 && decide (a.1 < b.1))))))
  match cands with
  | [] => (0, 0)
  | c :: r => r.foldl (fun b m => if better m b then m else b) c
/-- Every pair of components in [−n, n]. -/
def square (n : Nat) : List (Int × Int) :=
  (List.range (2 * n + 1)).flatMap (fun y => (List.range (2 * n + 1)).map (fun x => ((x : Int) - n, (y : Int) - n)))
/-- The integer vectors of a level from those of the level above it, none at level 5. -/
def flowLevel (cur prev : Grid) (k : Nat) (parent : Option (Nat × List (Int × Int))) : Nat × List (Int × Int) :=
  let bw := cdiv cur.w 8; let bh := cdiv cur.h 8
  let lim : Int := (256 / 2 ^ k : Nat)
  (bw, (List.range (bw * bh)).map (fun b =>
    let bx := b % bw; let by_ := b / bw
    let cands := match parent with
      | none => square 8
      | some (pw, vs) =>
        let p := vs.getD (by_ / 2 * pw + bx / 2) (0, 0)
        ((square 2).map (fun d => (2 * p.1 + d.1, 2 * p.2 + d.2))).filter (fun m =>
          decide (-lim ≤ m.1) && decide (m.1 ≤ lim) && decide (-lim ≤ m.2) && decide (m.2 ≤ lim))
    bestMotion (flowCost cur prev bx by_) cands))
/-- Vectors of levels k − 1 down to 0, from those of level k. -/
def flowDown (cs ps : List Grid) : Nat → Nat × List (Int × Int) → Nat × List (Int × Int)
  | 0, v => v
  | k + 1, v => flowDown cs ps k (flowLevel (cs.getD k {}) (ps.getD k {}) k (some v))
/-- Vectors of level `stop` of two images' pyramids. -/
def flowTo (cs ps : List Grid) (stop : Nat) : Nat × List (Int × Int) :=
  let top := flowLevel (cs.getD 5 {}) (ps.getD 5 {}) 5 none
  let rec go : Nat → Nat → Nat × List (Int × Int) → Nat × List (Int × Int)
    | 0, _, v => v
    | n + 1, k, v => go n (k - 1) (flowLevel (cs.getD (k - 1) {}) (ps.getD (k - 1) {}) (k - 1) (some v))
  go (5 - stop) 5 top
/-- The sub-pixel step of 07 R274 on one axis, in eighths. -/
def flowFrac (inRange : Bool) (cm s cp : Int) : Int :=
  let den := cm - 2 * s + cp
  if !inRange || den ≤ 0 then 0 else clampI (-4) 4 ((8 * (cm - cp) + den) / (2 * den))
/-- A vector component in eighths as 16 bits. -/
def mv16 (v : Int) : Nat := trunc 16 v
/-- Assemble a FLOW record. -/
def flowRecord (flags conf : Nat) (vx vy : Int) : Nat := flags * 2 ^ 40 + conf * 2 ^ 32 + mv16 vy * 2 ^ 16 + mv16 vx
/-- Outcome 1 of 07 R275 at a block: the renderer's motion at its centre. -/
def flowNoTexture (w h : Nat) (motion : Option Img) (bx by_ : Nat) : Nat :=
  let x := min (8 * bx + 4) (w - 1); let y := min (8 * by_ + 4) (h - 1)
  let v := fun ch => match motion with
    | some m => clampI (-2048) 2048 (s32 (f2s32 (mul32 (h2f (m.data.getD ((y * m.w + x) * m.ch + ch) 0)) (int32f 8))))
    | none => 0
  flowRecord 1 0 (v 0) (v 1)
/-- One level-0 block: its outcome (1 to 4) and its record. -/
def flowBlock (cur prev : Grid) (motion : Option Img) (texThr occThr : Nat) (m0 p : Int × Int) (bx by_ : Nat) : Nat × Nat :=
  let cost := flowCost cur prev bx by_
  let s := cost m0
  let ok := fun (v : Int) => decide (-256 ≤ v) && decide (v ≤ 256)
  let fx := flowFrac (ok (m0.1 - 1) && ok (m0.1 + 1)) (cost (m0.1 - 1, m0.2)) s (cost (m0.1 + 1, m0.2))
  let fy := flowFrac (ok (m0.2 - 1) && ok (m0.2 + 1)) (cost (m0.1, m0.2 - 1)) s (cost (m0.1, m0.2 + 1))
  let vx := clampI (-2048) 2048 (8 * m0.1 + fx); let vy := clampI (-2048) 2048 (8 * m0.2 + fy)
  let t := sumL ((List.range 64).map (fun k =>
    let x : Int := (8 * bx + k % 8 : Nat); let y : Int := (8 * by_ + k / 8 : Nat)
    natDiff (cur.at_ (x + 1) y) (cur.at_ x y) + natDiff (cur.at_ x (y + 1)) (cur.at_ x y)))
  let cx : Int := (8 * bx + 4 : Nat) - m0.1; let cy : Int := (8 * by_ + 4 : Nat) - m0.2
  if t < texThr then (1, flowNoTexture cur.w cur.h motion bx by_)
  else if cx < 0 ∨ (cur.w : Int) ≤ cx ∨ cy < 0 ∨ (cur.h : Int) ≤ cy then (2, flowRecord 4 0 vx vy)
  else if 64 * occThr < s then (3, flowRecord 2 0 (8 * p.1) (8 * p.2))
  else (4, flowRecord 0 (255 * t / (t + 4 * s)) vx vy)
/-- The outcomes and records of block rows r0 to r1 − 1 of a FLOW node; without a second image every block takes outcome 1. -/
def flowRows (w h : Nat) (cur : Img) (prev : Option Img) (motion : Option Img) (texThr occThr r0 r1 : Nat) : List (Nat × Nat) :=
  let bw := cdiv w 8
  let blocks := (List.range ((r1 - r0) * bw)).map (fun k => (k % bw, r0 + k / bw))
  match prev with
  | none => blocks.map (fun b => (1, flowNoTexture w h motion b.1 b.2))
  | some q =>
    let cs := pyramidOf 5 (lumaGrid cur); let ps := pyramidOf 5 (lumaGrid q)
    let l1 := flowTo cs ps 1
    let l0 := flowLevel (cs.getD 0 {}) (ps.getD 0 {}) 0 (some l1)
    blocks.map (fun b =>
      let up := l1.2.getD (b.2 / 2 * l1.1 + b.1 / 2) (0, 0)
      flowBlock (cs.getD 0 {}) (ps.getD 0 {}) motion texThr occThr (l0.2.getD (b.2 * bw + b.1) (0, 0)) (2 * up.1, 2 * up.2) b.1 b.2)

/-! ## Stereo disparity (07 R279–R283) -/

/-- Candidates of column x. -/
def dispCands (dMax x : Nat) : Nat := min dMax (x + 1)
/-- The matching costs of a pixel. -/
def dispCosts (l r : Grid) (dMax x y : Nat) : List Nat :=
  (List.range (dispCands dMax x)).map (fun d => min (natDiff (l.at_ x y) (r.at_ ((x : Int) - d) y)) 255)
/-- Aggregation along one path that steps (dx, dy), from at most `fuel` pixels back. -/
def dispPath (l r : Grid) (dMax p1 p2 : Nat) (dx dy : Int) : Nat → Nat → Nat → List Nat
  | 0, x, y => dispCosts l r dMax x y
  | fuel + 1, x, y =>
    let qx := (x : Int) - dx; let qy := (y : Int) - dy
    let c := dispCosts l r dMax x y
    if qx < 0 ∨ (l.w : Int) ≤ qx ∨ qy < 0 ∨ (l.h : Int) ≤ qy then c
    else
      let q := dispPath l r dMax p1 p2 dx dy fuel qx.toNat qy.toNat
      let mq := q.foldl min (q.getD 0 0)
      (List.range c.length).map (fun d =>
        let terms := (if d < q.length then [q.getD d 0] else []) ++ (if 1 ≤ d ∧ d - 1 < q.length then [q.getD (d - 1) 0 + p1] else [])
          ++ (if d + 1 < q.length then [q.getD (d + 1) 0 + p1] else [])
        c.getD d 0 + terms.foldl min (mq + p2) - mq)
/-- S of a pixel over its candidates. -/
def dispSum (l r : Grid) (dMax p1 p2 x y : Nat) : List Nat :=
  let paths := [((1 : Int), (0 : Int)), (-1, 0), (0, 1), (0, -1), (1, 1), (-1, -1), (1, -1), (-1, 1)].map
    (fun d => dispPath l r dMax p1 p2 d.1 d.2 (l.w + l.h) x y)
  (List.range (dispCands dMax x)).map (fun d => sumL (paths.map (fun q => q.getD d 0)))
/-- The index of the least element, the first among equals. -/
def argMin (l : List Nat) : Nat :=
  ((List.range l.length).foldl (fun (b : Option (Nat × Nat)) i =>
    match b with
    | none => some (i, l.getD i 0)
    | some (_, v) => if l.getD i 0 < v then some (i, l.getD i 0) else b) none).elim 0 (·.1)
/-- One pixel: its outcome (1 to 4) and its record. -/
def dispPixel (l r : Grid) (dMax p1 p2 texThr x y : Nat) : Nat × Nat :=
  let s := dispSum l r dMax p1 p2 x y
  let d1 := argMin s
  let sv := fun d => ((s.getD d 0 : Nat) : Int)
  let den := sv (d1 - 1) - 2 * sv d1 + sv (d1 + 1)
  let frac := if d1 = 0 ∨ s.length ≤ d1 + 1 ∨ den ≤ 0 then 0
    else clampI (-8) 8 ((16 * (sv (d1 - 1) - sv (d1 + 1)) + den) / (2 * den))
  let disp := (clampI 0 4080 (16 * d1 + frac)).toNat
  let xr := x - d1
  let rights := ((List.range dMax).filter (fun d => decide (xr + d < l.w))).map (fun d => (dispSum l r dMax p1 p2 (xr + d) y).getD d 0)
  let dr := argMin rights
  let t := sumL ((List.range 25).map (fun k =>
    let xx : Int := (x : Int) + (k % 5 : Nat) - 2; let yy : Int := (y : Int) + (k / 5 : Nat) - 2
    natDiff (l.at_ (xx + 1) yy) (l.at_ xx yy)))
  let others := ((List.range s.length).filter (fun d => decide (2 ≤ natDiff d d1))).map (fun d => s.getD d 0)
  let s2 := others.foldl min (others.getD 0 0)
  let record := fun (flags conf disp : Nat) => flags * 2 ^ 24 + conf * 2 ^ 16 + disp
  if t < texThr then (1, record 1 0 0)
  else if x < dMax - 1 ∧ d1 = x then (2, record 4 0 disp)
  else if 1 < natDiff d1 dr then (3, record 2 0 0xFFFF)
  else (4, record 0 (if others.isEmpty ∨ s2 = 0 then 0 else 255 * (s2 - s.getD d1 0) / s2) disp)

/-! ## Runs and sources (07 R262–R267, R276, R284) -/

/-- The graph under which a packet runs whose stage 3 completes now: a change of this fabric cycle comes after it (07 R263). -/
def graphNow (s : State) (x : Ctx) : Option Bytes :=
  match x.graphOld with
  | some (t, g) => if earlierCycle t s.now then graphOf x x.cfg else g
  | none => graphOf x x.cfg
/-- Begin the graph run of a U packet whose stage 3 has completed (07 R262). -/
def startGraph (slot : Nat) (b : BufferSet) (s : State) : State :=
  match ctxOf s slot with
  | none => s
  | some x =>
    match if b.kind = .u then graphNow s x else none with
    | none => s
    | some g =>
      let before := (setOf x ((b.frame + 2 ^ 32 - 1) % 2 ^ 32)).bind (fun q => if q.kind = .u && q.decoded.isSome then some q.colour else none)
      modCtx slot (fun x =>
        { x with
          nextGraph := x.nextGraph + 1
          graphRuns := x.graphRuns ++ [{ id := x.nextGraph, engines := (wardOf s x.ward).cfg.flowMask, render := b.frame, graph := g,
                                         cur := b.colour, prev := before, motion := b.motion }]
          ing := { x.ing with sets := x.ing.sets.map (fun q =>
            if q.use != .free && q.frame == b.frame then { q with flowNeeded := hasMotionOut g } else q) } }) s
/-- What stands in a source buffer: not yet complete, missing, or an image. -/
inductive SrcState where
  | waits
  | missing
  | image (m : Img)
  deriving DecidableEq, Repr
/-- The colour of a context's packet n as a source. -/
def colourSource (x : Ctx) (n : Nat) : SrcState :=
  match setOf x n with
  | some b => if b.kind ≠ .u then .missing else if b.decoded.isSome then .image b.colour else .waits
  | none => .missing
/-- The codes of FP16 elements that lie as bytes. -/
def halves (l : List Nat) : List Nat := (List.range (l.length / 2)).map (fun k => l.getD (2 * k) 0 + 256 * l.getD (2 * k + 1) 0)
/-- The colour of a partner's packet n as a source of a context: what completed stage 3 by the cut-off of the context's rendered-frame
slot, in its fabric cycle at the latest (07 R284). -/
def partnerSource (s : State) (slot : Nat) (x y : Ctx) (n : Nat) : SrcState :=
  let after := fun (t : Nat) => match x.head with
    | some h => decide (cutoffOf s slot x (headOf s h) (ownSlot x.cfg n) .rendered / 8 < (t / 8 : Nat))
    | none => false
  let late := if after s.now then SrcState.missing else .waits
  match setOf y n with
  | some b =>
    if b.kind ≠ .u then .missing
    else (match b.decoded with | some t => if after t then .missing else .image b.colour | none => late)
  | none =>
    if y.ing.missing.any (fun m => m.1 == n) || y.ing.rejected.any (fun m => m.1 == n) || y.ing.past.any (fun m => m.frame == n) then .missing
    else late
/-- A buffer of a run as an input: a source as decided or as it stands now, or what a node has written. -/
def bufferState (s : State) (slot : Nat) (x : Ctx) (g : GraphRun) (k : Nat) : SrcState :=
  let b := fgBuffer g.graph k
  match tget g.inputs k with
  | some (some m) => .image m
  | some none => .missing
  | none =>
    match fld b 0 1 with
    | 0x01 => .image g.cur
    | 0x02 =>
      (match g.prev with
       | some m => .image m
       | none => colourSource x ((g.render + 2 ^ 32 - 1) % 2 ^ 32))
    | 0x03 =>
      (match liveCtx s (fld b 12 2 % 1024) with
       | none => .missing
       | some y => if y.ward = x.ward then partnerSource s slot x y g.render else .missing)
    | 0x04 => (match g.motion with | some m => .image m | none => .missing)
    | _ =>
      if tgetD g.latches k 0 = 0 then .waits
      else if fld b 1 1 = 1 then .image { w := fld b 4 2, h := fld b 6 2, ch := 4, data := halves (tgetD g.recs k []) }
      else .image { data := tgetD g.recs k [] }
/-- Sources that have come are kept for the runs of a ward that read them. -/
def keepSources (wd : Nat) (s : State) : State :=
  (wardCtxs s wd isLive).foldl (fun s y =>
    let keep := fun (g : GraphRun) => (List.range (fgBuffers g.graph)).foldl (fun g k =>
      let src := fld (fgBuffer g.graph k) 0 1
      match if src = 2 ∨ src = 3 then bufferState s y.1 y.2 g k else .waits with
      | .image m => { g with inputs := tput g.inputs k (some m) }
      | _ => g) g
    modCtx y.1 (fun x => { x with graphRuns := x.graphRuns.map keep }) s) s
/-- A buffer of a graph is a source (07 R264). -/
def gbSourceAt (g : Bytes) (k : Nat) : Bool := let b := fld (fgBuffer g k) 0 1; decide (1 ≤ b) && decide (b ≤ 4)
/-- Band latches of a written buffer: one per 64 input rows of FLOW records, one otherwise (07 R268). -/
def bandsOf (g : Bytes) (k : Nat) : Nat := if fld (fgBuffer g k) 1 1 = 2 then cdiv (fld (fgBuffer g k) 6 2) 64 else 1
/-- A buffer that a node reads is complete: a source that is there or missing, or every band latch set (07 R267). -/
def bufferReady (s : State) (slot : Nat) (x : Ctx) (g : GraphRun) (k : Nat) : Bool :=
  if gbSourceAt g.graph k then bufferState s slot x g k != .waits else tgetD g.latches k 0 == 2 ^ bandsOf g.graph k - 1
/-- The inputs of a node. -/
def nodeInputs (g : Bytes) (k : Nat) : List Nat :=
  let n := fgNode g k
  if fld n 0 1 = 3 then [fld n 1 1] else [fld n 1 1, fld n 2 1]
/-- Bind 0x40 of an AUXILIARY network to an input's bytes or FP16 pixels. -/
def bindAux (e : NEnv) (n : Net) (bytes : Option Bytes) (img : Option Img) (x : Ctx) (frame : Option Nat) : NEnv :=
  let set := (frame.bind (setOf x)).getD {}
  (sourceTensors e n).foldl (fun e i =>
    let t := e.t i
    if t.src = 0x40 then
      match bytes, img with
      | some b, _ => { e with vals := tput e.vals i (valOfStreams t b) }
      | none, some m => { e with vals := tput e.vals i (valOfStreams t (m.data.flatMap (natLe 2))) }
      | none, none => e
    else if t.src = 0x01 then bindWhole e i (ofImg set.colour)
    else if t.src = 0x02 then bindWhole e i (setDepth x.cfgInForce set)
    else if t.src = 0x03 then bindWhole e i (setMotion x.cfgInForce set)
    else if t.src = 0x04 then bindWhole e i (setNormal x.cfgInForce set)
    else if t.src = 0x05 then bindWhole e i (setObject x.cfgInForce set)
    else e) e
/-- The network of a NETWORK node in the context's bound image. -/
def nodeNet (n : Bytes) : Nat := fld n 16 4
/-- The context's bound image as a network's run needs it. -/
def auxImage (s : State) (x : Ctx) : Option (Nat × Bytes) :=
  x.image.bind (fun h => (tget (wardOf s x.ward).images h).map (fun im => (h, im.bytes)))
/-- Begin a node: its sources are decided, and engines may serve it, or its network's run begins. -/
def startNode (slot : Nat) (x : Ctx) (g : GraphRun) (k : Nat) (s : State) : State :=
  let n := fgNode g.graph k
  let decide_ := fun (q : GraphRun) => ((nodeInputs g.graph k).filter (gbSourceAt g.graph)).foldl (fun q b =>
    match tget q.inputs b with
    | some _ => q
    | none => { q with inputs := tput q.inputs b (match bufferState s slot x g b with | .image m => some m | _ => none) }) q
  let s1 := modGraph slot g.id (fun q => decide_ { q with begun := q.begun ++ [k] }) s
  match if fld n 0 1 = 3 then auxImage s x else none with
  | none => s1
  | some (h, b) =>
    let net := nodeNet n
    let rec_ := (netsOf b).getD net {}
    let inb := fld n 1 1
    let img := match bufferState s slot x g inb with | .image m => some m | _ => none
    let bytes := if gbSourceAt g.graph inb || fld (fgBuffer g.graph inb) 1 1 != 4 then none
      else some ((tgetD g.recs inb []).map (fun v => BitVec.ofNat 8 v))
    let set := ((setOf x g.render)).getD {}
    startRun slot net { image := h, why := .node g.id k, exchange := !cbRefetch x.cfg, lc := !cbClassBE x.cfgInForce, deadline := keyOfNow s
                        awaits := awaited b rec_ set }
      (fun e => bindAux e rec_ bytes img x (some g.render)) s1
/-- A node of a run can start: every buffer that it reads is complete, and its network is not running (07 R267; log 80). -/
def nodeCanStart (s : State) (slot : Nat) (x : Ctx) (node : Nat) (g : GraphRun) : Bool :=
  let n := fgNode g.graph node
  decide (node < fgNodes g.graph) && !g.begun.contains node && (nodeInputs g.graph node).all (bufferReady s slot x g)
    && !(fld n 0 1 == 3 && x.runs.any (fun r => r.2.running && r.1 == nodeNet n))
/-- VISION_NODE_START: a node of a run starts once every buffer that it reads is complete; of several runs, in the oldest. -/
def execVisionNodeStart (slot node : Nat) (s : State) : Out :=
  need (liveCtx s slot) "no live context" (fun x =>
    need (x.graphRuns.find? (nodeCanStart s slot x node)) "its inputs are not complete" (fun g => .next (startNode slot x g node s)))

/-! ## Engines (07 R258–R260) -/

def engineOf (s : State) (e : Nat) : FlowEngine := tgetD s.engines e {}
/-- A context's node is served as LC: by its class, or while it inherits. -/
def servedLc (s : State) (slot : Nat) : Bool := ctxLc s slot || (inheritOf s 8 slot).isSome
/-- The begun FLOW and DISPARITY nodes of a context with work left for an engine, by run, the oldest first: the engines of the ward
serve them, and those it had as the run started (07 R258, R259; 10 R349). -/
def nodesLeft (s : State) (e : Nat) (x : Ctx) : List (Nat × Nat) :=
  (x.graphRuns.filter (fun g => (g.engines ||| (wardOf s x.ward).cfg.flowMask).testBit e)).flatMap (fun g =>
    (g.begun.filter (fun k => fld (fgNode g.graph k) 0 1 != 3 && decide (tgetD g.work k 0 < fgWork g.graph k))).map (fun k => (g.id, k)))
/-- The next slice of an engine: LC nodes first, round-robin by slot within a level. -/
def nextSlice (s : State) (e : Nat) : Option (Slice × Bool) :=
  let eng := engineOf s e
  let cs := s.ctxs.filter (fun x => isLive (slotOf s x.1).state && !(nodesLeft s e x.2).isEmpty)
  let pick := fun (lc : Bool) (last : Nat) =>
    let l := (cs.filter (fun x => servedLc s x.1 == lc)).map (·.1)
    ((l.filter (fun k => decide (last < k))).head?).orElse (fun _ => l.head?)
  let go := fun (lc : Bool) (k : Nat) => (tget s.ctxs k).map (fun x =>
    let n := (nodesLeft s e x).headD (0, 0)
    ({ slot := k, gen := x.gen, run := n.1, node := n.2 }, lc))
  match pick true eng.lastLc with
  | some k => go true k
  | none => (pick false eng.lastBe).bind (go false)
/-- The slice that an engine ran is done: its work counts towards the node, and its cycles are charged. -/
def endSlice (e : Nat) (s : State) : State :=
  let eng := engineOf s e
  match eng.job with
  | none => s
  | some j =>
    let n := min 4096 ((s.now - eng.since) / 8)
    match namedCtx s j.slot j.gen with
    | none => s
    | some x =>
      unlessSpoiled j.slot 0xFFFF s (fun s =>
        let s1 := tallyChip 0x220 e n (some x.ward) (chargeFixed j.slot n s)
        modGraph j.slot j.run (fun g => { g with work := tput g.work j.node (min (fgWork g.graph j.node) (tgetD g.work j.node 0 + n)) }) s1)
/-- VISION_SLICE_BOUNDARY: an engine ends a slice of at most 4,096 fabric cycles and picks the next. -/
def execVisionSliceBoundary (engine : Nat) (s : State) : Out :=
  let eng := engineOf s engine
  guardThat (decide (engine < 8) && (eng.job.isNone || decide (s.now < eng.since + 8 * 4096 + 8))) "the slice is over"
    (let s1 := endSlice engine s
     match nextSlice s1 engine with
     | some (j, lc) =>
       let next : FlowEngine := { job := some j, since := s.now, lastLc := if lc then j.slot else eng.lastLc, lastBe := if lc then eng.lastBe else j.slot }
       .next { s1 with engines := tput s1.engines engine next }
     | none =>
       if eng.job.isNone then notNow "no node has work" else .next { s1 with engines := tput s1.engines engine { eng with job := none } })

/-! ## Bands and ends (07 R268, R278, R282) -/

/-- The image of an input of a node, none where it is missing. -/
def inputImg (s : State) (slot : Nat) (x : Ctx) (g : GraphRun) (k : Nat) : Option Img :=
  match bufferState s slot x g k with | .image m => some m | _ => none
/-- The outcomes and records of a band of a FLOW or DISPARITY node. -/
def bandRecords (s : State) (slot : Nat) (x : Ctx) (g : GraphRun) (node band : Nat) : List (Nat × Nat) :=
  let n := fgNode g.graph node
  let b := fgBuffer g.graph (fld n 1 1)
  let w := fld b 4 2; let h := fld b 6 2
  let a := inputImg s slot x g (fld n 1 1); let c := inputImg s slot x g (fld n 2 1)
  if fld n 0 1 = 1 then
    let two := match a with | some _ => c | none => none
    flowRows w h (a.getD {}) two g.motion (fld n 8 2) (fld n 10 2) (8 * band) (min (8 * band + 8) (cdiv h 8))
  else
    let px := (List.range (w * h)).map (fun p => (p % w, p / w))
    match a, c with
    | some l, some r =>
      px.map (fun p => dispPixel (lumaGrid l) (lumaGrid r) (fld n 12 1 + 1) (fld n 13 1) (fld n 14 2) (fld n 8 2) p.1 p.2)
    | _, _ => px.map (fun _ => (1, 1 * 2 ^ 24))
/-- The FP16 code of a vector component in eighths. -/
def motion16 (v : Nat) : Nat := f2h (mul32 (int32f (sext 16 v)) (ratio32 1 8))
/-- Expand FLOW records over input rows [y0, y1) into a motion image (07 R278). -/
def expandMotion (w h : Nat) (recs : List Nat) (y0 y1 : Nat) (old : Option Img) : Img :=
  let o := old.getD { w := w, h := h, ch := 2, data := List.replicate (2 * w * h) 0 }
  { o with data := (List.range (2 * w * h)).map (fun i =>
      let p := i / 2; let x := p % w; let y := p / w
      if y0 ≤ y ∧ y < y1 then
        let r := recs.getD (y / 8 * cdiv w 8 + x / 8) 0
        motion16 (r / 2 ^ (16 * (i % 2)) % 65536)
      else o.data.getD i 0) }
/-- A band of a FLOW node's records, or a whole disparity buffer, is written and its latch is set. -/
def bandComplete (slot : Nat) (x : Ctx) (g : GraphRun) (node band : Nat) (s : State) : State :=
  let n := fgNode g.graph node
  let flow := fld n 0 1 == 1
  let out := fld n 3 1
  let buf := fgBuffer g.graph out
  let rs := bandRecords s slot x g node band
  let bw := cdiv (fld buf 4 2) 8
  let at_ := if flow then 8 * band * bw else 0
  let recs := let o := tgetD g.recs out []
    o.take at_ ++ List.replicate (at_ - o.length) 0 ++ rs.map (·.2) ++ o.drop (at_ + rs.length)
  let e := if flow then 8 else 4
  let s1 := (List.range 4).foldl (fun s k =>
    addStat slot ((if flow then stFlow else stDisp) + 8 * k) ((rs.filter (fun r => r.1 == k + 1)).length) s) s
  let latches := tgetD g.latches out 0 ||| 2 ^ band
  let full := latches == 2 ^ bandsOf g.graph out - 1
  let s2 := modGraph slot g.id (fun g => { g with
    recs := tput g.recs out recs, latches := tput g.latches out latches, ended := if full then g.ended ++ [node] else g.ended }) s1
  let s3 := hostBuffer slot x.ward buf (e * at_) (rs.flatMap (fun r => natLe e r.2)) s2
  if fld buf 0 1 = 0x10 then
    modCtx slot (fun x => { x with ing := { x.ing with sets := x.ing.sets.map (fun q =>
      if q.use != .free && q.frame == g.render then
        { q with
          flowMotion := some (expandMotion (fld buf 4 2) (fld buf 6 2) recs (64 * band) (64 * band + 64) q.flowMotion), flowBands := latches
          flowDone := full }
      else q) } }) (if full then bindMotion slot g.render (ofImg (expandMotion (fld buf 4 2) (fld buf 6 2) recs 0 (fld buf 6 2) none)) s3 else s3)
  else s3
/-- The engine work that a band needs done: its share from the top of the image, all of it for disparity. -/
def bandWork (g : Bytes) (node band : Nat) : Nat :=
  let k := bandsOf g (fld (fgNode g node) 3 1)
  cdiv (fgWork g node * (band + 1)) k
/-- A band of a run's node can complete: the node has begun, and the work that the band needs is done. -/
def bandCan (node band : Nat) (g : GraphRun) : Bool :=
  let out := fld (fgNode g.graph node) 3 1
  let kind := fld (fgNode g.graph node) 0 1
  g.begun.contains node && (kind == 1 || kind == 2) && decide (band < bandsOf g.graph out) && !(tgetD g.latches out 0).testBit band
    && decide (bandWork g.graph node band ≤ tgetD g.work node 0)
/-- FLOW_BAND_COMPLETE. -/
def execFlowBandComplete (slot node band : Nat) (s : State) : Out :=
  need (liveCtx s slot) "no live context" (fun x =>
    need (x.graphRuns.find? (bandCan node band)) "the band is not complete" (fun g => .next (bandComplete slot x g node band s)))
/-- Has a graph a buffer bound to the host? -/
def hasHost (g : Bytes) : Bool := (List.range (fgBuffers g)).any (fun k => fld (fgBuffer g k) 0 1 == 0x11)
/-- Every node of a run has ended. -/
def graphEnded (g : GraphRun) : Bool := (List.range (fgNodes g.graph)).all g.ended.contains
/-- GRAPH_RUN_END: every node has ended; GRAPH_DONE is posted for HOST buffers (07 R264). -/
def execGraphRunEnd (slot : Nat) (s : State) : Out :=
  need (liveCtx s slot) "no live context" (fun x =>
    need (x.graphRuns.find? graphEnded) "a node has not ended" (fun g =>
      let s1 := modCtx slot (fun x => { x with graphRuns := x.graphRuns.filter (·.id != g.id) }) s
      .next (if hasHost g.graph then
        postOther (.ctx slot) { type := 7, body := natLe 4 g.render, fence := true, slot := slot, gen := x.gen } s1 else s1)))

end Sys2Proof.Machine
end

