-- ==== Sys2Proof/Machine/Graphs.lean ====
section
/-!
DEFINITION. The commands GRAPH_LOAD, GRAPH_UNLOAD and AUX_RUN (07 R258, R261, R263, R265; 11 Table 11-8).
-/
namespace Sys2Proof.Machine

/-! ## Validation (07 Tables 7-1 to 7-4) -/

/-- The first index below `n` at which a check fails. -/
def firstIdx (n : Nat) (bad : Nat → Bool) : Option Nat := (List.range n).find? bad
def gnOp (n : Bytes) : Nat := fld n 0 1
def gnIn0 (n : Bytes) : Nat := fld n 1 1
def gnIn1 (n : Bytes) : Nat := fld n 2 1
def gnOut (n : Bytes) : Nat := fld n 3 1
def gbBinding (b : Bytes) : Nat := fld b 0 1
def gbContent (b : Bytes) : Nat := fld b 1 1
/-- Is the buffer a source (07 R264)? -/
def gbSource (b : Bytes) : Bool := decide (1 ≤ gbBinding b) && decide (gbBinding b ≤ 4)
/-- Width and height of a buffer. -/
def gbSize (b : Bytes) : Nat × Nat := (fld b 4 2, fld b 6 2)
/-- 0x01 HEADER. -/
def graphHeaderOk (g : Bytes) (len : Nat) : Bool :=
  fld g 0 4 == 0x48524647 && fld g 4 1 == 1 && fld g 5 4 == 64 + 32 * (fgNodes g + fgBuffers g) && fld g 5 4 == len
    && decide (1 ≤ fgNodes g) && decide (fgNodes g ≤ 64) && decide (1 ≤ fgBuffers g) && decide (fgBuffers g ≤ 64)
/-- A node record's reserved fields and codes. -/
def gnReserved (n : Bytes) : Bool := allZero (slice n 4 4) && allZero (slice n 20 12) && decide (1 ≤ gnOp n) && decide (gnOp n ≤ 3)
/-- A buffer record's reserved fields and codes, and the fields that its binding or content leaves zero. -/
def gbReserved (b : Bytes) : Bool :=
  [0, 1, 2, 3, 4, 0x10, 0x11].contains (gbBinding b) && decide (1 ≤ gbContent b) && decide (gbContent b ≤ 4)
    && allZero (slice b 2 2) && fld b 9 1 == 0 && decide (fld b 12 2 < 1024) && allZero (slice b 14 2) && allZero (slice b 24 8)
    && (gbBinding b == 0x11 || fld b 16 8 == 0) && fld b 16 8 % 64 == 0 && (gbBinding b == 3 || fld b 12 2 == 0)
    && (if gbContent b = 4 then decide (1 ≤ fld b 8 1) && decide (fld b 8 1 ≤ 0x0E) else fld b 8 1 == 0 && fld b 10 2 == 0)
/-- Format and channels of a buffer as a network's tensor: colour is FP16 of four channels. -/
def gbFormat (b : Bytes) : Nat × Nat := if gbContent b = 1 then (8, 4) else (fld b 8 1, fld b 10 2)
/-- A node's parameters lie in the ranges of Table 7-2. -/
def gnParamOk (n : Bytes) : Bool :=
  let tex := fld n 8 2; let occ := fld n 10 2; let d := fld n 12 1 + 1; let p1 := fld n 13 1; let p2 := fld n 14 2
  if gnOp n = 1 then decide (1 ≤ tex) && decide (1 ≤ occ) && decide (occ ≤ 1023) && d == 1 && p1 == 0 && p2 == 0 && fld n 16 4 == 0
  else if gnOp n = 2 then decide (1 ≤ tex) && occ == 0 && decide (16 ≤ d) && d % 16 == 0 && decide (1 ≤ p1) && decide (p1 ≤ p2)
    && decide (p2 ≤ 1023) && fld n 16 4 == 0
  else gnIn1 n == 0xFF && tex == 0 && occ == 0 && d == 1 && p1 == 0 && p2 == 0
/-- The first failing check of Table 7-4: reason and record index. -/
def graphReject (s : State) (x : Ctx) (g : Bytes) (len : Nat) : Option (Nat × Nat) :=
  let nn := fgNodes g; let nb := fgBuffers g
  let node := fgNode g; let buf := fgBuffer g
  let ins := fun k => if gnOp (node k) = 3 then [gnIn0 (node k)] else [gnIn0 (node k), gnIn1 (node k)]
  let written := fun (k b : Nat) => (List.range k).any (fun j => gnOut (node j) == b)
  let colour := fun b => gbContent (buf b) == 1
  let c := x.cfg
  let aux := fun (k : Nat) =>
    match boundImage s x with
    | none => false
    | some b =>
      let n := (netsOf b).getD (fld (node k) 16 4) {}
      let ts := tensorsOf b
      let ls := ((layersOf b).drop n.first).take n.count
      let matches_ := fun (t : Tensor) (q : Bytes) => t.fmt == (gbFormat q).1 && t.c == (gbFormat q).2 && (t.w, t.h) == gbSize q
      decide (fld (node k) 16 4 < (netsOf b).length) && n.role == 4
        && ((ls.flatMap layerReads).map (tn ts)).any (fun t => t.src == 0x40 && matches_ t (buf (gnIn0 (node k))))
        && (ls.map (fun l => tn ts l.out)).any (fun t => t.src == 0x41 && matches_ t (buf (gnOut (node k))))
  let checks : List (Nat × Option Nat) :=
    [(2, if allZero (slice g 11 53) then none else some 0),
     (2, firstIdx nn (fun k => !gnReserved (node k))),
     (2, firstIdx nb (fun b => !gbReserved (buf b))),
     (3, firstIdx nn (fun k => (gnOut (node k) :: ins k).any (fun b => decide (nb ≤ b)))),
     (4, firstIdx nn (fun k => (ins k).any (fun b => !gbSource (buf b) && !written k b) || written k (gnOut (node k))
        || gbSource (buf (gnOut (node k))))),
     (5, firstIdx nn (fun k =>
        let o := buf (gnOut (node k))
        (gnOp (node k) != 3 && !(ins k).all colour) || (gnOp (node k) == 1 && gbContent o != 2) || (gnOp (node k) == 2 && gbContent o != 3)
          || (gnOp (node k) != 1 && gbBinding o == 0x10))),
     (5, firstIdx nb (fun b => gbBinding (buf b) == 0x10 &&
        (gbContent (buf b) != 2 || !written nn b || (List.range b).any (fun j => gbBinding (buf j) == 0x10)))),
     (6, firstIdx nb (fun b => gbSource (buf b) && colour b && gbSize (buf b) != (inWidth c, inHeight c))),
     (6, firstIdx nn (fun k =>
        let i := gbSize (buf (gnIn0 (node k)))
        let out := fun (v lo hi : Nat) => decide (v < lo) || decide (hi < v)
        (ins k).any (fun b => gbSize (buf b) != i) || gbSize (buf (gnOut (node k))) != i
          || (gnOp (node k) == 1 && (out i.1 16 8192 || out i.2 16 8192))
          || (gnOp (node k) == 2 && (out i.1 64 4096 || out i.2 16 4096)))),
     (7, firstIdx nn (fun k => !gnParamOk (node k))),
     (8, firstIdx nb (fun b => gbBinding (buf b) == 3 &&
        !(((liveCtx s (fld (buf b) 12 2)).map (fun y => y.ward == x.ward && inWidth y.cfg == inWidth c && inHeight y.cfg == inHeight c)).getD false))),
     (9, firstIdx nn (fun k => gnOp (node k) == 3 && !aux k))]
  if !graphHeaderOk g len then some (1, 0) else checks.findSome? (fun q => q.2.map (fun i => (q.1, i)))

/-! ## Commands -/

/-- Band latches of a graph: those of every written buffer (07 R268). -/
def graphLatches (g : Bytes) : Nat := sumL ((List.range (fgNodes g)).map (fun k => bandsOf g (gnOut (fgNode g k))))
/-- GRAPH_LOAD: a conflict (07 R258, R261), the first failing check, a ward without the latches (log 33), or the graph is
taken up from the next packet (07 R263). -/
def graphLoadGo (slot seq : Nat) (c : Cmd) (x : Ctx) (s : State) : State :=
  let r : RingRef := .ctx slot
  let len := entArg c.entry 0
  let g := hostRead s (entAddr0 c.entry) len
  let s0 := chargeHost slot len 0 s
  if cbFlow x.cfg then fail r seq kConflict 0x04 s0
  else if (wardOf s x.ward).cfg.flowMask = 0 then fail r seq kConflict 0x05 s0
  else
    match graphReject s x g len with
    | some (reason, i) => complete r seq kGraphRejected reason (natLe 4 i) s0
    | none =>
      if 64 * (wardOf s x.ward).cfg.latches < latchesUsed s x.ward - x.bandLatches + graphLatches g then fail r seq kBadConfig ccLatches s0
      else completeOk r seq [] (modCtx slot (fun x =>
        { noteGraph s.now x with graph := some g, graphDigest := if cbDigest x.cfg then some (sha256 g) else none, bandLatches := graphLatches g }) s0)
/-- GRAPH_LOAD. -/
def execGraphLoad (slot seq : Nat) (s : State) : Out := ctxCommand slot seq 0x28 s (graphLoadGo slot seq)
/-- GRAPH_UNLOAD: the loaded graph goes; without one there is nothing to unload. -/
def graphUnloadGo (slot seq : Nat) (_ : Cmd) (x : Ctx) (s : State) : State :=
  if x.graph.isNone then fail (.ctx slot) seq kBadState 0x03 s
  else completeOk (.ctx slot) seq [] (modCtx slot (fun x => { noteGraph s.now x with graph := none, graphDigest := none, bandLatches := 0 }) s)
/-- GRAPH_UNLOAD. -/
def execGraphUnload (slot seq : Nat) (s : State) : Out := ctxCommand slot seq 0x29 s (graphUnloadGo slot seq)

/-- AUX_RUN begins a run of an AUXILIARY network of the bound image on a ward address, for another; the run's end completes it.
An index or an address that names nothing is not found (log 34). -/
def auxRunGo (slot seq net : Nat) (c : Cmd) (x : Ctx) (s : State) : State :=
  let r : RingRef := .ctx slot
  match x.image.bind (fun h => (tget (wardOf s x.ward).images h).map (fun im => (h, im.bytes))) with
  | none => fail r seq kBadState 0x01 s
  | some (h, b) =>
    let n := (netsOf b).getD net {}
    let set := ((latestRendered x.ing).bind (setOf x)).getD {}
    let ts := tensorsOf b
    let ls := ((layersOf b).drop n.first).take n.count
    let bytesOf := fun (o : Option Tensor) => (o.map streamBytes).getD 0
    let inLen := bytesOf (((ls.flatMap layerReads).map (tn ts)).find? (fun t => t.src == 0x40))
    let outLen := bytesOf ((ls.map (fun l => tn ts l.out)).find? (fun t => t.src == 0x41))
    let w := wardOf s x.ward
    if (netsOf b).length ≤ net ∨ n.role ≠ 4 ∨ !ctxMapped w slot (entAddr0 c.entry) inLen false
        ∨ !ctxMapped w slot (entAddr1 c.entry) outLen true then fail r seq kBadState 0x03 s
    else
      startRun slot net { image := h, why := .command seq, exchange := !cbRefetch x.cfg, lc := !cbClassBE x.cfgInForce, deadline := keyOfNow s
                          awaits := awaited b n set }
        (fun e => bindAux e n (some (wardRead w (entAddr0 c.entry) inLen)) none x (latestRendered x.ing))
        (chargeVault slot inLen 0 (modCmd r seq (fun c => { c with started := true }) s))
/-- AUX_RUN: it begins when no other run of the network is in progress. -/
def execAuxRun (slot seq : Nat) (s : State) : Out :=
  need (readyCmd (.ctx slot) seq 0x2C s) "the command is not ready" (fun c =>
    need (ctxOf s slot) "no context" (fun x =>
      let net := entArg c.entry 0
      guardThat (!c.started && !x.runs.any (fun r => r.1 == net && r.2.running)) "the network is running" (.next (auxRunGo slot seq net c x s))))

end Sys2Proof.Machine
end

