-- ==== Sys2Proof/Machine/Objects.lean ====
section
/-!
DEFINITION. Loaded images, copies and the BAR2 aperture (11 R388, Table 11-8; 04 R139–R144).
-/
namespace Sys2Proof.Machine

/-! ## Images -/

/-- Frames and tasks that started with an image still use it (04 R144). -/
def imageInUse (s : State) (wd h : Nat) : Bool :=
  (wardCtxs s wd isHeld).any (fun x => x.2.image == some h || (x.2.fr.cur.map (fun f => f.image == some h)).getD false
    || x.2.runs.any (fun r => r.2.running && r.2.image == h)) ||
  s.tasks.any (fun x => match x.2.code with
    | .kernel i _ => i == h && ((ctxOf s x.2.slot).map (·.ward)) == some wd
    | .builtIn => false)
/-- IMAGE_LOAD: the image is validated by 04 R143 and mapped read-only; its handle is the lowest one from 1 that the ward
does not use (log 22). -/
def imageLoadGo (fn seq : Nat) (c : Cmd) (s : State) : State :=
  let r : RingRef := .admin fn
  let len := entArg c.entry 0
  let b := hostRead s (entAddr0 c.entry) len
  match imageReject b len with
  | some (reason, index) => complete r seq kImageRejected reason (natLe 4 index) s
  | none =>
    let h := freeKeyFrom (wardOf s fn).images 1
    match allocate fn (cdiv len (2 ^ 18)) (.image h) true b s with
    | none => fail r seq kNoMemory 0 s
    | some (addr, s1) =>
      completeOk r seq (natLe 4 h ++ natLe 4 0 ++ natLe 6 addr)
        (modWard fn (fun w => { w with images := tput w.images h { base := addr, bytes := b } }) s1)
/-- IMAGE_LOAD. -/
def execImageLoad (fn seq : Nat) (s : State) : Out := command (.admin fn) seq 0x06 s (fun c s => imageLoadGo fn seq c s)
/-- IMAGE_UNLOAD: in use while bound to any context, or while a frame that started with it is unfinished (log 22). -/
def imageUnloadGo (fn seq : Nat) (c : Cmd) (s : State) : State :=
  let r : RingRef := .admin fn
  let h := entArg c.entry 0
  if (tget (wardOf s fn).images h).isNone then fail r seq kBadState 0x03 s
  else if imageInUse s fn h then fail r seq kBadState 0x02 s
  else completeOk r seq [] (modWard fn (fun w => { w with images := tdel w.images h }) (release fn (·.kind == .image h) s))
/-- IMAGE_UNLOAD. -/
def execImageUnload (fn seq : Nat) (s : State) : Out := command (.admin fn) seq 0x07 s (fun c s => imageUnloadGo fn seq c s)

/-! ## COPY -/

/-- COPY between host and ward memory. A ward range that is not mapped for the context, or not writable, is not found
(log 21); a poisoned source line tears the context down (15 R482). -/
def copyGo (slot seq : Nat) (c : Cmd) (x : Ctx) (s : State) : State :=
  let r : RingRef := .ctx slot
  let n := entArg c.entry 0
  let src := entAddr0 c.entry
  let dst := entAddr1 c.entry
  let w := wardOf s x.ward
  let dir := entArg c.entry 1
  if dir = 0 then
    if ctxMapped w slot dst n true then
      completeOk r seq [] (chargeVault slot 0 n (chargeHost slot n 0 (wardWrite x.ward dst (hostRead s src n) s)))
    else fail r seq kBadState 0x03 s
  else if !ctxMapped w slot src n false then fail r seq kBadState 0x03 s
  else if dir = 2 ∧ ctxMapped w slot dst n true = false then fail r seq kBadState 0x03 s
  else
    match poisonIn w src n with
    | some l => uncorrectable slot 0x01 l 0xFFFF s
    | none =>
      let b := wardRead w src n
      if dir = 1 then completeOk r seq [] (chargeVault slot n 0 (chargeHost slot 0 n (hostWrite dst b s)))
      else completeOk r seq [] (chargeVault slot n n (wardWrite x.ward dst b s))
/-- COPY. -/
def execCopy (slot seq : Nat) (s : State) : Out := ctxCommand slot seq 0x2F s (fun c x s => copyGo slot seq c x s)

/-! ## The aperture (11 R388) -/

/-- The ward address of a BAR2 offset. -/
def apertureAddr (f : Fn) (offset : Nat) : Nat := f.aperture.toNat / 2 ^ 18 * 2 ^ 18 % 2 ^ 48 + offset
/-- Is the aperture of a function open? -/
def apertureOpen (s : State) (fn : Nat) : Bool := barsOpen s fn && (fnOf s fn).aperture.toNat.testBit 0
/-- BAR2_READ: unmapped addresses and a closed aperture read as zero; an uncorrectable line gives a poisoned completion. -/
def execBar2Read (fn offset length : Nat) (s : State) : Out :=
  if apertureOpen s fn then
    let w := wardOf s fn
    let a := apertureAddr (fnOf s fn) offset
    .next { s with lastRead := wardRead w a length, lastPoisoned := (poisonIn w a length).isSome }
  else .next { s with lastRead := List.replicate length 0, lastPoisoned := false }
/-- BAR2_WRITE: a write to an unmapped or read-only address is ignored and sets HOST_DMA. -/
def execBar2Write (fn offset : Nat) (data : Bytes) (s : State) : Out :=
  if apertureOpen s fn then
    let a := apertureAddr (fnOf s fn) offset
    if wardMapped (wardOf s fn) a data.length true then .next (wardWrite fn a data s)
    else .next (raiseHostDma fn a s)
  else .next s

/-! ## Host transfers that fail (11 R398, R548) -/

/-- The command of an entry reads or writes host memory. -/
def usesHost (e : Bytes) : Bool :=
  let op := entOpcode e
  [0x01, 0x04, 0x06, 0x08, 0x09, 0x0B, 0x0C, 0x22, 0x23, 0x24, 0x26, 0x28, 0x31, 0x32, 0x35, 0x36].contains op
    || (op == 0x0A && (entArg e 0).testBit 31) || (op == 0x2F && entArg e 1 != 2)
/-- The packet of an INGEST command is in transit. -/
def inTransit (s : State) (r : RingRef) (seq : Nat) : Bool :=
  match r with
  | .admin _ => false
  | .ctx slot => ((ctxOf s slot).map (fun x => (wardOf s x.ward).transit.any (fun p => p.cmd == some (slot, seq)))).getD false
/-- The transfer of a command is still to end: it has not started, or its packet is in transit. -/
def transfers (s : State) (r : RingRef) (seq : Nat) (c : Cmd) : Bool := usesHost c.entry && (!c.started || inTransit s r seq)
/-- A packet whose transfer failed is not ingested. -/
def dropTransit (r : RingRef) (seq : Nat) (s : State) : State :=
  match r with
  | .admin _ => s
  | .ctx slot => modWard ((ctxOf s slot).map (·.ward) |>.getD 16) (fun w => { w with transit := w.transit.filter (fun p => p.cmd != some (slot, seq)) }) s
/-- The host buffer that a command of a ring writes: address and length. -/
def cmdBuffer (s : State) (r : RingRef) (e : Bytes) : Option (Nat × Nat) :=
  if entOpcode e = 0x09 then some (entAddr0 e, 1024)
  else if entOpcode e = 0x35 then some (entAddr0 e, 128)
  else if entOpcode e = 0x2F ∧ entArg e 1 = 1 then some (entAddr1 e, entArg e 0)
  else if entOpcode e = 0x32 then
    match r with
    | .ctx slot => ((ctxOf s slot).bind (boundImage s)).map (fun b => (entAddr0 e, 2 * totalElements b))
    | .admin _ => none
  else none
/-- HOST_DMA_COMPLETE: a transfer of a command ends, or fails and completes it with KW_HOST_ERROR and no other effect; a device write
that fails sets HOST_DMA and the device carries on. The rows that make such writes flag their own failures with their addresses; the
address of one that this row reports is free. -/
def execHostDmaComplete (target : DmaTarget) (ok : Bool) (s : State) : Out :=
  match target with
  | .command r seq =>
    need (cmdOf s r seq) "no such command in flight" (fun c =>
      guardThat (transfers s r seq c) "the command has no transfer in progress"
        (if ok then .next s
         else
           let buf := cmdBuffer s r c.entry
           let s1 := hostDmaFailed (ringWard s r) ((buf.map (·.1)).getD (entAddr0 c.entry)) s
           let s2 := match buf with | some (a, n) => spoilHost a n s1 | none => s1
           .next (complete r seq kHostError 0 [] (dropTransit r seq s2))))
  | .deviceWrite =>
    if ok then .next s
    else
      let w := drawFree s
      .next (hostDmaFailed 0 w.1.toNat w.2)

end Sys2Proof.Machine
end

