-- ==== Sys2Proof/Machine/Captures.lean ====
section
/-!
DEFINITION. Capture of anchor patches (08 R294–R297, R300): positions, planes, and the CAPTURE_TASK row.
-/
namespace Sys2Proof.Machine

/-! ## The permutation of 08 R300 -/

/-- mix64: the mixing steps of 03 R133. -/
def mixBits (x : Nat) : Nat :=
  let a := (x ^^^ (x >>> 30)) * 0xBF58476D1CE4E5B9 % 2 ^ 64
  let b := (a ^^^ (a >>> 27)) * 0x94D049BB133111EB % 2 ^ 64
  b ^^^ (b >>> 31)
/-- The least even width from w whose power holds n values. -/
def evenWidth (n : Nat) : Nat → Nat → Nat
  | 0, w => w
  | fuel + 1, w => if 2 ^ w < n then evenWidth n fuel (w + 2) else w
/-- One pass: four rounds over two halves of h bits. -/
def permPass (h key e x : Nat) : Nat :=
  let r := (List.range 4).foldl (fun (p : Nat × Nat) r =>
    let f := mixBits ((key ^^^ ((e * 2 ^ 32) % 2 ^ 64 ||| r * 2 ^ 16 ||| p.2)) % 2 ^ 64) % 2 ^ h
    (p.2, p.1 ^^^ f)) (x >>> h, x % 2 ^ h)
  r.1 * 2 ^ h + r.2
/-- Walk the cycle until the value is below n; a cycle has at most 2^w members. -/
def permWalk (n h key e : Nat) : Nat → Nat → Nat
  | 0, x => x
  | fuel + 1, x => let y := permPass h key e x; if y < n then y else permWalk n h key e fuel y
/-- perm(p, N, key, e). -/
def perm (p n key e : Nat) : Nat :=
  let w := evenWidth n 8 2
  permWalk n (w / 2) key e (2 ^ w) p

/-! ## Patches (08 R294, R295) -/

/-- The origin of the p-th patch captured from render frame n. -/
def patchOrigin (c : Bytes) (n p : Nat) : Nat × Nat :=
  let cols := cbWidth c / 64 - 1
  let q := perm p (cols * (cbHeight c / 64 - 1)) (cbSeed c ^^^ (2 ^ 64 - 1)) n
  (64 * (q % max 1 cols), 64 * (q / max 1 cols))
/-- A source of a patch over the whole frame, as for a U frame rendered from the A packet. -/
def patchSource (s : State) (slot : Nat) (x : Ctx) (f : Frame) (src : Nat) : SrcPlane :=
  let b := (f.base.bind (setOf x)).getD {}
  let c := f.config
  let small := resampled c (ofImg b.colour)
  let colour := imgOf small.w small.h 4 small.get
  let depth := let d := setDepth c b; imgOf d.w d.h 1 d.get
  if src = 0x01 then small
  else if 0x11 ≤ src ∧ src ≤ 0x17 then ofImg ((levelsFrom nextColour 7 colour).getD (src - 0x11) {})
  else if 0x19 ≤ src ∧ src ≤ 0x1F then ofImg ((levelsFrom (nextDepth b.depthReversed) 7 depth).getD (src - 0x19) {})
  else if src = 0x20 then (match f.histIn with | some m => ofImg m | none => zeroHistory (cbWidth c) (cbHeight c))
  else if src = 0x25 then
    { w := cbWidth c, h := cbHeight c, get := fun px py _ => if inGuard (f.guard.getD []) px py then 0x3C00 else 0 }
  else if src = 0x27 then flatSrc 1 1 (fun _ => 0)
  else frameSource s slot x f src
/-- A plane of a patch at an origin. -/
def patchPlane (s : State) (slot : Nat) (x : Ctx) (f : Frame) (img : Bytes) (x0 y0 src : Nat) : Img :=
  let p := patchSource s slot x f src
  let fp := footprint f.config src x0 y0 128 (imMargin img)
  imgOf fp.2.2.1 fp.2.2.2 (((sourceSpec src).map (·.2)).getD 1) (fun px py ch => p.clamped (fp.1 + px) (fp.2.1 + py) ch)
/-- The bytes of a plane in memory. -/
def planeOut (src : Nat) (m : Img) : Bytes := m.data.flatMap (natLe (((sourceSpec src).map (fun q => fmtBits q.1 / 8)).getD 2))
/-- The p-th patch of an A frame, with the CRC of its planes; its capture number is given when it is committed. -/
def capturePatch (s : State) (slot : Nat) (x : Ctx) (f : Frame) (img : Bytes) (p : Nat) : Patch :=
  let b := (f.base.bind (setOf x)).getD {}
  let o := patchOrigin f.adapt b.frame p
  let target := imgOf 128 128 4 (fun px py ch => if ch = 3 then 0x3C00 else (ofImg b.colour).clamped (o.1 + px : Nat) (o.2 + py : Nat) ch)
  let planes := (patchSources img f.adapt).map (fun src => (src, patchPlane s slot x f img o.1 o.2 src))
  { valid := true, seq := p, render := b.frame, x0 := o.1, y0 := o.2, planes := planes, target := target,
    crc := crc32 (planeOut 0x30 target ++ planes.flatMap (fun q => planeOut q.1 q.2)) }
/-- Put a patch into an anchor, in the order of 08 R294. -/
def insertPatch (p : Patch) : List Patch → List Patch
  | [] => [p]
  | q :: r => if p.seq < q.seq then p :: q :: r else q :: insertPatch p r

/-- The frame that an anchor is captured from: in progress, or ready and kept. -/
def anchorFrame (x : Ctx) (number : Nat) : Option Frame :=
  match x.fr.cur with
  | some f => if f.number = number then some f else (x.fr.ready.find? (fun r => r.frame.number == number)).map (·.frame)
  | none => (x.fr.ready.find? (fun r => r.frame.number == number)).map (·.frame)
/-- CAPTURE_TASK: a started capture task copies its patch into staging, and ends. -/
def execCaptureTask (slot p : Nat) (s : State) : Out :=
  need (liveCtx s slot) "no live context" (fun x =>
    need (s.tasks.find? (fun t => t.2.slot == slot && t.2.kind == .capture p && t.2.started)) "the task has not started" (fun t =>
      need (anchorFrame x (t.2.frame.getD 0)) "the frame is gone" (fun f =>
        need (frameImage s x f) "no image" (fun img =>
          let patch := capturePatch s slot x f img p
          .next (settleSets slot (modCtx slot (fun x => { x with ad := { x.ad with
              staging := x.ad.staging.map (fun a =>
                if a.frame = f.number then { a with left := a.left - 1, lastAt := s.now, patches := insertPatch patch a.patches } else a) } })
            (chargeWork slot (dropTasks (fun k _ => k == t.1) s))))))))

end Sys2Proof.Machine
end

