-- ==== Sys2Proof/Machine/Training.lean ====
section
/-!
DEFINITION. The arithmetic of a training step (08 R306–R312; 03 R126, R133–R135): the forward pass over a sample's tiles, the
loss gradient, the backward pass, the reduction of the parameter gradients, and Adam.
-/
namespace Sys2Proof.Machine

/-! ## The forward pass over one tile of a patch (08 R306) -/

/-- A stored plane of a patch as a source over the frame. -/
def patchPlaneSrc (c img : Bytes) (p : Patch) (src : Nat) : SrcPlane :=
  let m := tgetD p.planes src {}
  let fp := footprint c src p.x0 p.y0 128 (imMargin img)
  let z := sourceSize c src
  { w := z.1, h := z.2, get := fun x y ch =>
      m.data.getD ((((y : Int) - fp.2.1).toNat * m.w + ((x : Int) - fp.1).toNat) * m.ch + ch) 0 }
/-- The environment of tile (i, j) of a patch. -/
def patchEnv (c img : Bytes) (net : Net) (master : List Nat) (hist : Table (List Nat)) (p : Patch) (i j : Nat) : NEnv :=
  let e := envOf img master (histMax hist) (cbSat c)
  (sourceTensors e net).foldl (fun e k =>
    let src := (e.t k).src
    let fp := footprint c src (p.x0 + 64 * i) (p.y0 + 64 * j) 64 (imMargin img)
    bindSource e k (patchPlaneSrc c img p src) fp.1 fp.2.1) e
/-- A tile of the batch after its forward pass: its place, its environment, and what each conversion gave. -/
structure Fwd where
  patch : Patch
  i : Nat
  j : Nat
  env : NEnv
  encs : List (Nat × EncRes)
/-- The four tiles of a sample, in the order of 08 R310. -/
def tilesOf : List (Nat × Nat) := [(0, 0), (1, 0), (0, 1), (1, 1)]
/-- The forward pass of the valid samples of a batch, in order of place and tile, with what the kernels of each tile's CUSTOM layers
wrote. -/
def forward (c img : Bytes) (net : Net) (master : List Nat) (hist : Table (List Nat)) (customs : Nat → Table Bytes) (ps : List Patch) : List Fwd :=
  (List.range (4 * ps.length)).map (fun k =>
    let p := ps.getD (k / 4) {}; let t := tilesOf.getD (k % 4) (0, 0)
    let r := runLayers (customs k) net.count net.first (patchEnv c img net master hist p t.1 t.2)
    { patch := p, i := t.1, j := t.2, env := r.1, encs := r.2 })

/-! ## The loss (08 R307) -/

/-- The layer that writes the output source 0x30. -/
def outLayer (e : NEnv) (net : Net) : Option Layer := ((e.ls.drop net.first).take net.count).find? (fun l => (e.t l.out).src == 0x30)
/-- A target pixel lies in the patch's guard mask; a patch whose network does not read the mask stores none. -/
def guardedAt (c img : Bytes) (p : Patch) (x y : Nat) : Bool := (patchPlaneSrc c img p 0x25).get x y 0 != 0
/-- Whether the loss counts a pixel of a tile. -/
def lossCounts (c img : Bytes) (f : Fwd) (x y : Nat) : Bool := !guardedAt c img f.patch (f.patch.x0 + 64 * f.i + x) (f.patch.y0 + 64 * f.j + y)
/-- n: channel values that the loss counts. -/
def lossCount (c img : Bytes) (fs : List Fwd) : Nat :=
  (fs.map (fun f => 3 * ((List.range 4096).filter (fun k => lossCounts c img f (k % 64) (k / 64))).length)).foldl (· + ·) 0
/-- The gradient at each element of the output tensor. -/
def lossGrad (c img : Bytes) (net : Net) (n : Nat) (f : Fwd) : List Nat :=
  match outLayer f.env net with
  | none => []
  | some l =>
    let t := f.env.t l.out
    let inv := div32 one32 (int32f n)
    (List.range (t.h * t.w * t.c)).map (fun k =>
      let ch := k % t.c; let x := k / t.c % t.w; let y := k / t.c / t.w
      if 3 ≤ ch ∨ !lossCounts c img f x y then 0
      else
        let tv := f.patch.target.data.getD (((64 * f.j + y) * 128 + 64 * f.i + x) * 4 + ch) 0
        let d := sub32 (f.env.deq l.out y x ch) (h2f tv)
        if isNaN32 d then fFP32.nan else if d % 2 ^ 31 = 0 then 0 else mul32 (if lt32 d 0 then neg32 one32 else one32) inv)

/-! ## Block-scaled gradients (03 R126) -/

/-- A block-scaled value: element codes and scale codes of rows of `c` elements. -/
structure Blocks where
  codes : List Nat := []
  scales : List Nat := []
  deriving DecidableEq, Repr
/-- Convert rows of `c` FP32 values into an element type. -/
def toBlocks (ty c : Nat) (xs : List Nat) : Blocks :=
  let bs := (chunksN (max 1 c) xs.length xs).flatMap (fun r => chunksN 32 r.length r)
  let cs := bs.map (blockCode ty)
  { codes := (List.zipWith (fun b k => b.map (fun x => if k = 0xFF then 0 else blockElem ty k x)) bs cs).flatten, scales := cs }
/-- Some block of a conversion would receive code 0xFF (03 R135). -/
def Blocks.bad (b : Blocks) : Bool := b.scales.contains 0xFF
/-- The exact values of rows of `c` elements, as FP32. -/
def ofBlocks (ty c : Nat) (b : Blocks) : List Nat :=
  let per := cdiv (max 1 c) 32
  (List.range b.codes.length).map (fun i =>
    let k := b.scales.getD (i / max 1 c * per + i % max 1 c / 32) 0
    rne32 ((blockVal ty (b.codes.getD i 0)).scale ((k : Int) - 127)))

/-! ## The backward pass (08 R308–R310) -/

/-- Gradients sent to tensors, each with its consumer layer, and parameter gradients by element index. -/
structure Back where
  sent : Table (List (Nat × List Nat)) := []
  par : Table Nat := []
  /-- A gradient conversion met a NaN or an infinity (03 R135). -/
  bad : Bool := false
  deriving DecidableEq, Repr
/-- Send a gradient to a tensor. -/
def Back.send (b : Back) (t idx : Nat) (g : List Nat) : Back := { b with sent := tput b.sent t (tgetD b.sent t [] ++ [(idx, g)]) }
/-- The sum of a tensor's gradients in increasing consumer index, rounding each addition. -/
def sumSent (l : List (Nat × List Nat)) : List Nat :=
  let sorted := l.foldl (fun acc x => acc.takeWhile (fun y => decide (y.1 ≤ x.1)) ++ x :: acc.dropWhile (fun y => decide (y.1 ≤ x.1))) []
  match sorted with
  | [] => []
  | x :: r => r.foldl (fun a y => List.zipWith add32 a y.2) x.2
/-- The value before the activation of element k of a layer's output: an integer code value, or FP32. -/
def preAct (e : NEnv) (idx : Nat) (l : Layer) (y x n : Nat) : Pre := preOf e idx { l with act := 0 } y x n
/-- A gradient through an activation (08 R308). -/
def throughAct (e : NEnv) (idx : Nat) (l : Layer) (y x n g : Nat) : Nat :=
  match preAct e idx l y x n with
  | .int v =>
    let q := e.q (e.t l.out) n
    let real := FV.mul (.ofInt (v - q.zero) 0) (unpack fFP32 q.scale)
    if l.act = 1 then (if q.zero < v then g else 0)
    else if l.act = 2 then (if q.zero < v ∧ FV.lt real (unpack fFP32 l.actParam) then g else 0)
    else g
  | .fp v =>
    if l.act = 1 then (if lt32 0 v then g else 0)
    else if l.act = 2 then (if lt32 0 v && lt32 v l.actParam then g else 0)
    else if l.act = 3 then (if lt32 v 0 then mul32 g l.actParam else g)
    else g
  | .code _ _ => g
  | .skip => 0
/-- A tensor's gradient through the conversion and the activation of the layer that writes it. -/
def throughOut (e : NEnv) (idx : Nat) (l : Layer) (enc : EncRes) (g : List Nat) : List Nat :=
  let t := e.t l.out
  (List.range g.length).map (fun k =>
    if enc.satAt.getD k false then 0
    else throughAct e idx l (k / t.c / t.w) (k / t.c % t.w) (k % t.c) (g.getD k 0))
/-- A real weight of output channel n: dequantised by 03 Table 3-4. -/
def realWeight (e : NEnv) (l : Layer) (n k : Nat) : Nat :=
  let t := e.t l.in1
  let v := e.val l.in1
  deqCode e t n (elem t v 0 n k) (elemScale t v 0 n k)
/-- A weight copy as a tensor: K rows of blocks along n, of BS8-E4M3. -/
def copyTensor (kk n : Nat) : Tensor := { fmt := 0x0C, w := kk, h := 1, c := n }
/-- The layers whose weights are copied at binding: the products at and above the lowest attached layer of a SYNTH_U network
(08 R309). -/
def copiedLayers (img : Bytes) : List Nat :=
  let ls := layersOf img
  ((netsOf img).filter (fun n => n.role == 0)).flatMap (fun n =>
    let at_ := ((attaches img).filter (fun a => decide (n.first ≤ a.layer) && decide (a.layer < n.first + n.count))).map (·.layer)
    let lo := at_.foldl min (n.first + n.count)
    (List.range n.count).filterMap (fun k =>
      let i := n.first + k
      if lo ≤ i ∧ ((ls.getD i {}).op = 1 ∨ (ls.getD i {}).op = 2) then some i else none))
/-- Bytes of a layer's copy. -/
def copyBytes (ts : List Tensor) (l : Layer) : Nat :=
  let t := copyTensor (redLen ts l) (tn ts l.out).c
  up64 (tensorBytes t) + up64 (scaleBytes t)
/-- The copies of an image's weights, dequantised, transposed and block-scaled, layer after layer. -/
def weightCopies (img : Bytes) : Bytes :=
  let e := envOf img [] (fun _ => none) 0
  (copiedLayers img).flatMap (fun i =>
    let l := e.ls.getD i {}
    let n := (e.t l.out).c; let kk := redLen e.ts l
    let b := toBlocks 1 n ((List.range kk).flatMap (fun k => (List.range n).map (fun m => realWeight e l m k)))
    let t := copyTensor kk n
    let st := streamsOf [] t { data := b.codes, scales := b.scales }
    fit (up64 (tensorBytes t)) st.1 ++ fit (up64 (scaleBytes t)) st.2)
/-- A layer's weight copy, as it lies in ward memory. -/
def weightCopy (img copies : Bytes) (idx : Nat) : Blocks :=
  let ts := tensorsOf img; let ls := layersOf img
  let off := sumL (((copiedLayers img).takeWhile (· != idx)).map (fun i => copyBytes ts (ls.getD i {})))
  let l := ls.getD idx {}
  let t := copyTensor (redLen ts l) (tn ts l.out).c
  let v := valOf t (slice copies off (tensorBytes t)) (slice copies (off + up64 (tensorBytes t)) (scaleBytes t))
  { codes := v.data, scales := v.scales }
/-- The TMMB product over n of a gradient row and row k of the weight copy, of the channels of one group (03 R119). -/
def blockDot (n : Nat) (inGroup : Nat → Bool) (g w : Blocks) (m k : Nat) : Nat :=
  let per := cdiv n 32
  (List.range per).foldl (fun acc b =>
    blockPair acc (g.scales.getD (m * per + b) 0) (w.scales.getD (k * per + b) 0) ((List.range 32).map (fun i =>
      let j := 32 * b + i
      if j < n ∧ inGroup j then blockMul 2 1 (g.codes.getD (m * n + j) 0) (w.codes.getD (k * n + j) 0) else .fin false 0 0))) 0
/-- The parameter gradients of an attached layer (08 R310), and gu by output position and group. Each group of a layer with GROUPS
above 1 has its own patch rows, and so its own u and gu; the sums over m then run over the groups of each position in turn
(DESIGN CHOICE, log 75). -/
def attachGrads (e : NEnv) (l : Layer) (a : Attach) (g : List Nat) : Table Nat × List (List Nat) :=
  let t := e.t l.out
  let og := (geoOf e.ts l).og
  let groups := max 1 (a.n / og)
  let ms := List.range (t.h * t.w)
  let rows := ms.flatMap (fun m => (List.range groups).map (fun q => (m, q)))
  let xs := rows.map (fun r => patchReal e l (r.1 / t.w) (r.1 % t.w) (r.2 * og))
  let us := xs.map (fun x => (List.range a.rank).map (adapterU e a x))
  let ga := fun m n => g.getD (m * a.n + n) 0
  let mine := fun (q : Nat) => (List.range a.n).filter (fun n => n / og == q)
  let gu := rows.map (fun r => (List.range a.rank).map (fun j =>
    mul32 a.alpha (csum ((mine r.2).map (fun n => mul32 (ga r.1 n) (e.ad (a.base + a.k * a.rank + j * a.n + n)))))))
  let wd := (List.range a.k).flatMap (fun k => (List.range a.rank).map (fun j =>
    (a.base + k * a.rank + j, csum ((List.range rows.length).map (fun r => mul32 ((xs.getD r []).getD k 0) ((gu.getD r []).getD j 0))))))
  let wu := (List.range a.rank).flatMap (fun j => (List.range a.n).map (fun n =>
    (a.base + a.k * a.rank + j * a.n + n,
     mul32 a.alpha (csum (ms.map (fun m => mul32 ((us.getD (m * groups + n / og) []).getD j 0) (ga m n)))))))
  ((wd ++ wu).foldl (fun p x => tput p x.1 x.2) [], gu)
/-- The input gradient of a CONV2D or MATMUL layer: the chunked sum over the taps of each input element (08 Table 8-6). -/
def productGrad (e : NEnv) (copies : Bytes) (idx : Nat) (l : Layer) (g : List Nat) (gu : List (List Nat)) : List Nat :=
  let t := e.t l.out
  let tx := e.t l.in0
  let geo := geoOf e.ts l
  let n := t.c
  let gb := toBlocks 2 n g
  let wb := weightCopy e.img copies idx
  let groups := max 1 (n / max 1 geo.og)
  let gx := fun (m grp k : Nat) =>
    let tt := blockDot n (fun j => j / max 1 geo.og == grp) gb wb m k
    match attachOf e idx with
    | some a => add32 tt (csum ((List.range a.rank).map (fun j => mul32 ((gu.getD (m * groups + grp) []).getD j 0) (e.ad (a.base + k * a.rank + j)))))
    | none => tt
  let taps := (List.range (t.h * t.w)).flatMap (fun m => (List.range groups).flatMap (fun grp =>
    let row := patch_ e l (m / t.w) (m % t.w) (grp * geo.og)
    (List.range row.length).filterMap (fun k =>
      match row.getD k (none, 0) with
      | (some (iy, ix), ch) => some ((iy * tx.w + ix) * tx.c + ch, gx m grp k)
      | (none, _) => none)))
  (List.range (tx.h * tx.w * tx.c)).map (fun i => csum ((taps.filter (fun p => p.1 == i)).map (·.2)))
/-- A gradient of a whole tensor for an operand that may be 1 × 1 × C: its sum over pixels in storage order. -/
def toOperand (e : NEnv) (l : Layer) (i : Nat) (g : List Nat) : List Nat :=
  let t := e.t i; let tz := e.t l.out
  if t.h = 1 ∧ t.w = 1 ∧ tz.h * tz.w ≠ 1 then
    (List.range tz.c).map (fun ch => csum ((List.range (tz.h * tz.w)).map (fun m => g.getD (m * tz.c + ch) 0)))
  else g
/-- The gradients that a layer sends to its inputs (08 Table 8-6), from its output gradient before conversion. -/
def sendBack (e : NEnv) (copies : Bytes) (idx : Nat) (l : Layer) (g : List Nat) (gu : List (List Nat)) (takes : Nat → Bool) (b : Back) : Back :=
  let t := e.t l.out
  let at_ := fun (y x n : Nat) => g.getD ((y * t.w + x) * t.c + n) 0
  let byIn := fun (i : Nat) (f : Nat → Nat → Nat → Nat) =>
    let ti := e.t i
    (List.range (ti.h * ti.w * ti.c)).map (fun k => f (k / ti.c / ti.w) (k / ti.c % ti.w) (k % ti.c))
  let to_ := fun (i : Nat) (v : List Nat) (b : Back) => if i != noIndex && takes i then b.send i idx v else b
  if l.op = 1 ∨ l.op = 2 then (if takes l.in0 then to_ l.in0 (productGrad e copies idx l g gu) b else b)
  else if l.op = 10 then
    let one := fun (i : Nat) => (e.t i).h == 1 && (e.t i).w == 1
    let other := fun (i k : Nat) => let p := k / t.c; e.deq i (if one i then 0 else p / t.w) (if one i then 0 else p % t.w) (k % t.c)
    if pOp l = 2 then
      to_ l.in1 (toOperand e l l.in1 ((List.range g.length).map (fun k => mul32 (g.getD k 0) (other l.in0 k))))
        (to_ l.in0 ((List.range g.length).map (fun k => mul32 (g.getD k 0) (other l.in1 k))) b)
    else to_ l.in1 (toOperand e l l.in1 (if pOp l = 1 then g.map neg32 else g)) (to_ l.in0 g b)
  else if l.op = 11 then
    let c0 := (e.t l.in0).c
    to_ l.in1 (byIn l.in1 (fun y x n => at_ y x (c0 + n))) (to_ l.in0 (byIn l.in0 at_) b)
  else if l.op = 7 then
    let k := max 1 (pBlock l)
    to_ l.in0 (byIn l.in0 (fun y x n => at_ (y * k + n / t.c / k) (x * k + n / t.c % k) (n % t.c))) b
  else if l.op = 8 then
    let k := max 1 (pBlock l)
    to_ l.in0 (byIn l.in0 (fun y x n => at_ (y / k) (x / k) ((y % k * k + x % k) * (e.t l.in0).c + n))) b
  else to_ l.in0 g b
/-- One layer of the backward pass: its tensor's gradient is converted, passed back, and gives the layer's parameter gradients. -/
def backLayer (e : NEnv) (copies : Bytes) (encs : List (Nat × EncRes)) (takes : Nat → Bool) (idx : Nat) (b : Back) : Back :=
  let l := e.ls.getD idx {}
  let t := e.t l.out
  let sum := sumSent (tgetD b.sent l.out [])
  if sum.isEmpty then b
  else
    let blocks := toBlocks 2 t.c sum
    let enc := ((encs.find? (fun x => x.1 == idx)).map (·.2)).getD {}
    let g := throughOut e idx l enc (ofBlocks 2 t.c blocks)
    let b1 := { b with bad := b.bad || blocks.bad || (toBlocks 2 t.c g).bad }
    match if l.op = 1 ∨ l.op = 2 then attachOf e idx else none with
    | some a =>
      let p := attachGrads e l a g
      sendBack e copies idx l g p.2 takes { b1 with par := p.1.foldl (fun q x => tput q x.1 x.2) b1.par }
    | none => sendBack e copies idx l g [] takes b1
/-- The lowest attached layer of a network. -/
def lowestAttached (e : NEnv) (net : Net) : Nat :=
  ((attaches e.img).filter (fun a => decide (net.first ≤ a.layer) && decide (a.layer < net.first + net.count))).foldl
    (fun m a => min m a.layer) (net.first + net.count)
/-- The backward pass of a tile: parameter gradients by element. -/
def backward (c img copies : Bytes) (net : Net) (n : Nat) (f : Fwd) : Back :=
  let e := f.env
  let lo := lowestAttached e net
  let idxs := (List.range net.count).map (fun k => net.first + (net.count - 1 - k)) |>.filter (fun i => decide (lo ≤ i))
  let takes := fun (t : Nat) => idxs.any (fun i => decide (lo ≤ i) && (e.ls.getD i {}).out == t)
  match outLayer e net with
  | none => {}
  | some l => idxs.foldl (fun b i => backLayer e copies f.encs takes i b) (Back.send {} l.out (net.first + net.count) (lossGrad c img net n f))

/-! ## Adam (08 R311) -/

/-- What a step computes with: parameters, the learned values, and the moments. -/
structure Learned where
  master : List Nat := []
  m : Blocks := {}
  v : Blocks := {}
  p1 : Nat := one32
  p2 : Nat := one32
  deriving DecidableEq, Repr
/-- The update of one element: new weight before its rounding, m and v; and whether every value was finite. -/
def adamElem (c : Bytes) (p1 p2 w m v g : Nat) : Nat × Nat × Nat × Bool :=
  let b1 := cbBeta1 c; let b2 := cbBeta2 c
  let m' := add32 (mul32 b1 m) (mul32 (sub32 one32 b1) g)
  let gg := mul32 g g
  let v' := add32 (mul32 b2 v) (mul32 (sub32 one32 b2) gg)
  let r1 := div32 one32 (sub32 one32 p1); let r2 := div32 one32 (sub32 one32 p2)
  let mh := mul32 m' r1
  let vh := mul32 v' r2
  let root := sqrt32 vh
  let den := add32 root (cbEps c)
  let quo := div32 mh den
  let dec := mul32 (cbDecay c) w
  let q := add32 quo dec
  let st := mul32 (cbLr c) q
  let w' := sub32 w st
  (w', m', v', [g, m', gg, v', r1, r2, mh, vh, root, den, quo, dec, q, st, w'].all isFin32)
/-- Adam over the elements that train; none when the step overflows (03 R135). -/
def adam (c : Bytes) (step : Nat) (trains : Nat → Bool) (grad : List Nat) (l : Learned) : Option Learned :=
  let n := l.master.length
  let p1 := mul32 l.p1 (cbBeta1 c); let p2 := mul32 l.p2 (cbBeta2 c)
  let ms := ofBlocks 1 n l.m; let vs := ofBlocks 2 n l.v
  let r := (List.range n).map (fun i =>
    if trains i then adamElem c p1 p2 (rne32 (unpack fBF16 (l.master.getD i 0))) (ms.getD i 0) (vs.getD i 0) (grad.getD i 0)
    else (0, ms.getD i 0, vs.getD i 0, true))
  if r.any (fun x => !x.2.2.2) then none
  else some {
    master := (List.range n).map (fun i =>
      if trains i then srBf16 (r.getD i (0, 0, 0, true)).1 (cbSeed c) step i else l.master.getD i 0)
    m := toBlocks 1 n (r.map (fun x => x.2.1)), v := toBlocks 2 n (r.map (fun x => x.2.2.1)), p1 := p1, p2 := p2 }
/-- How a step ends. -/
inductive StepEnd where
  | empty
  | skipped
  | applied (l : Learned)
  deriving DecidableEq, Repr
/-- A step over the valid samples of its batch (08 R306): how it ends, and its forward pass. -/
def runStep (c img copies : Bytes) (net : Net) (hist : Table (List Nat)) (customs : Nat → Table Bytes) (step : Nat) (ps : List Patch)
    (l : Learned) : StepEnd × List Fwd :=
  let fs := forward c img net l.master hist customs ps
  let n := lossCount c img fs
  if ps.isEmpty || n == 0 then (.empty, fs)
  else
    let bs := fs.map (backward c img copies net n)
    let total := l.master.length
    let sums := (List.range total).map (fun i => csum (bs.filterMap (fun b => tget b.par i)))
    let blocks := toBlocks 2 total sums
    let trains := fun i => (attaches img).any (fun a => decide (net.first ≤ a.layer) && decide (a.layer < net.first + net.count)
      && decide (a.base ≤ i) && decide (i < a.base + attachLen a))
    if bs.any (·.bad) || blocks.bad then (.skipped, fs)
    else match adam c step trains (ofBlocks 2 total blocks) l with
      | none => (.skipped, fs)
      | some l' => (.applied l', fs)

end Sys2Proof.Machine
end

