-- ==== Sys2Proof/Machine/Adapt.lean ====
section
/-!
DEFINITION. Online adaptation between its steps (08 R287–R305, R312–R318): binding an image, the sample store, step
boundaries, publishing, and the adaptation commands of 11 Table 11-8.
-/
namespace Sys2Proof.Machine

def modAd (slot : Nat) (g : Adapt → Adapt) (s : State) : State := modCtx slot (fun x => { x with ad := g x.ad }) s
/-- Abandon a context's step in progress, with no effect. -/
def abandonStep (slot : Nat) (s : State) : State :=
  dropTasks (fun _ t => t.slot == slot && (match t.kind with | .train _ => true | _ => false)) (modAd slot (fun a => { a with running := none }) s)

/-! ## The learned values (08 R311, R316) -/

/-- Zero moments of n elements. -/
def zeroBlocks (n : Nat) : Blocks := { codes := List.replicate n 0, scales := List.replicate (cdiv n 32) 0 }
/-- BF16 codes as bytes, in element order. -/
def bfBytes (l : List Nat) : Bytes := l.flatMap (natLe 2)
/-- The adapter digest: the first 8 bytes of SHA-256 over the elements (08 R316). -/
def adapterDigestOf (l : List Nat) : Bytes := (sha256 (bfBytes l)).take 8
/-- The initial adapter set of an image (08 R289). -/
def initialSet (img : Bytes) : List Nat :=
  let ws := imgBytes img 0x07
  (attaches img).flatMap (fun a => (List.range (attachLen a)).map (fun i => fld ws (a.init + 2 * i) 2))
/-- Master weights with both moments, t, p1 and p2 at their starting values (08 R318). -/
def startFrom (set : List Nat) (a : Adapt) : Adapt :=
  let z := zeroBlocks set.length
  { a with master := set, mCodes := z.codes, mScales := z.scales, vCodes := z.codes, vScales := z.scales, p1 := one32, p2 := one32,
           t := 0, applied := 0 }
/-- Invalidate every slot, set the capture sequence to zero and discard staging; the cursor moves to (e, 0). -/
def clearStore (epoch : Nat) (a : Adapt) : Adapt :=
  { a with store := [], captured := 0, committed := 0, staging := [], epoch := epoch % 2 ^ 32, pos := 0, begun := false,
           sinceCommit := 0, anyCommit := false }

/-! ## IMAGE_BIND (04 R144, R168; 08 R296; 14 R477; 01 R551) -/

/-- Granules of the copies of an image's weights (08 R309). -/
def copyGranules (img : Bytes) : Nat := cdiv (sumL ((copiedLayers img).map (fun i => copyBytes (tensorsOf img) ((layersOf img).getD i {})))) (2 ^ 18)
/-- The copies are made, read-only, in place of those of an earlier binding. -/
def bindCopies (slot wd : Nat) (img : Bytes) (s : State) : State :=
  let s1 := release wd (·.kind == .copies slot) s
  if copyGranules img = 0 then s1
  else ((allocate wd (copyGranules img) (.copies slot) true (weightCopies img) s1).map (·.2)).getD s1
/-- The first refusal of a binding: its code, reason and offset. A source tensor of other extents than the device supplies is refused
at offset 0x008, here and at no later configuration (04 R146; DESIGN CHOICE, log 58). -/
def bindBad (s : State) (slot : Nat) (x : Ctx) (img : Bytes) : Option (Nat × Nat × Nat) :=
  let e := { ctxEnv s slot x with img := some img, stripe := stripeLatchCount img }
  let checks := ctxChecksLow s e x.cfg ++ ctxChecksMid s e x.cfg
  match (checks.find? (fun q => q.1 && !q.2.conflict && q.2.reason == ccImage)).map (·.2) with
  | some q => some (kBadConfig, ccImage, q.off)
  | none =>
    if !extentsFit x.cfg img then some (kBadConfig, ccImage, 0x008)
    else if checks.any (fun q => q.1 && !q.2.conflict && q.2.reason == ccLatches) then some (kBadConfig, ccLatches, 0x054)
    else
      let w := wardOf s x.ward
      let stats := statsGranules (imCount img 0x03)
      let need := storeGranules (some img) x.cfg + copyGranules img + max stats (granulesOf w (· == .stats slot))
      let have_ := freeGranules w + granulesOf w (fun k => k == .store slot || k == .stats slot || k == .copies slot)
      if have_ < need then some (kNoMemory, 0, 0) else none
/-- The statistics area grows for an image's layers, with its layer entries zero. -/
def bindStats (slot wd layers : Nat) (s : State) : State :=
  modWard wd (fun w => { w with allocs := w.allocs.map (fun a =>
    if a.kind = .stats slot then
      let n := max a.count (statsGranules layers)
      { a with count := n, room := statsRoom - n, content := patch (fit 4096 a.content) 8 (natLe 4 layers) }
    else a) }) s
/-- The degenerate layers of an image: layer index and network record (04 R168). -/
def degenerates (img : Bytes) : List (Nat × Nat) :=
  let ts := tensorsOf img
  let ls := layersOf img
  (List.range ls.length).filterMap (fun i =>
    if degenerate ts (ls.getD i {}) then (netOfLayer img i).map (fun n => (i, n.1)) else none)
/-- The area of an image's frame-scope tensors is taken; areas that no run in progress uses go back (04 R144, R148). -/
def bindTensors (slot wd h : Nat) (x : Ctx) (img : Bytes) (s : State) : State :=
  let keeps := fun (i : Nat) => i == h || x.runs.any (fun r => r.2.running && r.2.image == i)
  let s1 := release wd (fun a => match a.kind with | .tensors k i => k == slot && !keeps i | _ => false) s
  resizeObject wd (tensorGranules img) (.tensors slot h) s1
/-- Bind an image to a context. What it learned under another image goes: the store is cleared, the next epoch is 0, and the weights
and moments start anew (DESIGN CHOICE, log 76). -/
def bindImage (slot h : Nat) (x : Ctx) (img : Bytes) (s : State) : State :=
  let wd := x.ward
  let set := initialSet img
  let s1 := bindStats slot wd (imCount img 0x03) (abandonStep slot s)
  let s2 := resizeObject wd (storeGranules (some img) x.cfg) (.store slot) s1
  let s3 := bindCopies slot wd img (bindTensors slot wd h x img s2)
  let s4 := modCtx slot (fun x =>
    let a := clearStore 0 (startFrom set x.ad)
    { x with
      image := some h, stripeLatches := stripeLatchCount img, hist := []
      runs := (x.runs.filter (fun r => r.2.running)).map (fun r => (r.1, { r.2 with hist := r.2.hist.orElse (fun _ => some x.hist) }))
      fr := { x.fr with fresh := true, zeroNext := true, cur := x.fr.cur.map (fun f => { f with hist := f.hist.orElse (fun _ => some x.hist) }) }
      ad := { a with live := set, digest := adapterDigestOf set, ready := none, due := false, hist := [] } }) s3
  (degenerates img).foldl (fun s d => postEvent slot kDegenerate 0 (natLe 4 d.1 ++ natLe 4 d.2) s) s4
def imageBindGo (slot seq : Nat) (c : Cmd) (x : Ctx) (s : State) : State :=
  let r : RingRef := .ctx slot
  match tget (wardOf s x.ward).images (entArg c.entry 0) with
  | none => fail r seq kBadState 0x03 s
  | some im =>
    match bindBad s slot x im.bytes with
    | some (code, reason, off) => if code = kBadConfig then complete r seq code reason (natLe 4 off) s else fail r seq code reason s
    | none => completeOk r seq [] (bindImage slot (entArg c.entry 0) x im.bytes s)
/-- IMAGE_BIND. -/
def execImageBind (slot seq : Nat) (s : State) : Out := ctxCommand slot seq 0x25 s (fun c x s => imageBindGo slot seq c x s)

/-! ## Commits and the cursor (08 R298–R305) -/

/-- Commit one anchor's patches in order: each takes the next capture number and its slot. -/
def commitAnchor (capacity : Nat) (an : Anchor) (a : Adapt) : Adapt :=
  let a1 := an.patches.foldl (fun a p =>
    let k := a.captured % max 1 capacity
    let grown := if a.store.length ≤ k then a.store ++ List.replicate (k + 1 - a.store.length) {} else a.store
    { a with store := grown.set k { p with valid := true, seq := a.captured }, captured := a.captured + 1, committed := a.committed + 1 }) a
  { a1 with staging := a1.staging.drop 1, sinceCommit := 0, anyCommit := true }
/-- Commits by the gate: every whole staged anchor, or the next one once its steps have run (08 R313); not one of which a capture
reached staging in this fabric cycle (08 R315). -/
def commits (c : Bytes) (now : Nat) : Nat → Adapt → Adapt
  | 0, a => a
  | n + 1, a =>
    match a.staging with
    | [] => a
    | an :: _ =>
      if an.left ≠ 0 || !earlierCycle an.lastAt now then a
      else if !cbLockstep c then commits c now n (commitAnchor (cbStore c) an a)
      else if !a.anyCommit || decide (cbSteps c ≤ a.sinceCommit) then commitAnchor (cbStore c) an a
      else a
/-- The number of committed slots. -/
def storeHeld (c : Bytes) (a : Adapt) : Nat := min a.committed (cbStore c)
/-- Begin an epoch: N_e and the oldest slot are taken; not with an empty store (08 R299, R302). -/
def beginEpoch (c : Bytes) (e : Nat) (a : Adapt) : Option Adapt :=
  let n := storeHeld c a
  if n = 0 then none
  else some { a with begun := true, epoch := e % 2 ^ 32, pos := 0, size := n,
                     oldest := if a.committed < cbStore c then 0 else a.committed % max 1 (cbStore c) }
/-- The next position of the cursor: epoch, position and slot. -/
def nextPosition (c : Bytes) (a : Adapt) : Option ((Nat × Nat × Nat) × Adapt) :=
  match if !a.begun then beginEpoch c a.epoch a else if a.size ≤ a.pos then beginEpoch c (a.epoch + 1) a else some a with
  | none => none
  | some b =>
    let slot := if cbStrict c then (b.oldest + b.pos) % max 1 (cbStore c) else perm b.pos b.size (cbSeed c) b.epoch
    some ((b.epoch, b.pos, slot), { b with pos := b.pos + 1 })
/-- The range of slot k of a context's store in ward memory. -/
def slotRange (s : State) (slot wd : Nat) (img c : Bytes) (k : Nat) : Nat × Nat :=
  let base := (((wardOf s wd).allocs.find? (fun q => q.kind == .store slot)).map (·.base)).getD 0 * 2 ^ 18
  (base + k * patchBytes img c, patchBytes img c)
/-- Why a sample is dropped: 0x03 invalid, 0x02 an uncorrectable error in its bytes, 0x01 its CRC (08 R303). -/
def sampleBad (s : State) (slot wd : Nat) (img c : Bytes) (a : Adapt) (k : Nat) : Option Nat :=
  let p := a.store.getD k {}
  let r := slotRange s slot wd img c k
  if !p.valid then some 0x03
  else if (poisonIn (wardOf s wd) r.1 r.2).isSome then some 0x02
  else if crc32 (planeOut 0x30 p.target ++ p.planes.flatMap (fun q => planeOut q.1 q.2)) ≠ p.crc then some 0x01
  else none
/-- One position taken: its sample, or none with the event that reports it. -/
def takeSample (s : State) (slot wd : Nat) (img c : Bytes) (a : Adapt) : Option (Option Patch × List Bytes × List Nat × Adapt) :=
  match nextPosition c a with
  | none => none
  | some (q, b) =>
    match sampleBad s slot wd img c b q.2.2 with
    | none => some (some (b.store.getD q.2.2 {}), [], [], b)
    | some r =>
      let ev := natLe 4 q.1 ++ natLe 2 q.2.1 ++ natLe 2 q.2.2
      some (none, [ev], [r], { b with store := lmod b.store q.2.2 (fun p => { p with valid := false }) })
/-- A batch being assembled: samples by place, events and their reasons, and the store after it. -/
structure Assembly where
  got : List (Option Patch) := []
  events : List Bytes := []
  reasons : List Nat := []
  ad : Adapt := {}
  short : Bool := false
  deriving DecidableEq, Repr
/-- The first B positions. -/
def takeFirst (s : State) (slot wd : Nat) (img c : Bytes) : Nat → Assembly → Assembly
  | 0, q => q
  | n + 1, q =>
    match takeSample s slot wd img c q.ad with
    | none => { q with short := true }
    | some (p, ev, r, a) => takeFirst s slot wd img c n { q with got := q.got ++ [p], events := q.events ++ ev, reasons := q.reasons ++ r, ad := a }
/-- Search for a valid sample over at most `n` positions (08 R304). -/
def searchSample (s : State) (slot wd : Nat) (img c : Bytes) (place : Nat) : Nat → Assembly → Assembly
  | 0, q => { q with short := true }
  | n + 1, q =>
    match takeSample s slot wd img c q.ad with
    | none => { q with short := true }
    | some (some p, _, _, a) => { q with got := q.got.set place (some p), ad := a }
    | some (none, ev, r, a) => searchSample s slot wd img c place n { q with events := q.events ++ ev, reasons := q.reasons ++ r, ad := a }
/-- A step's batch: in shuffle mode each dropped place is filled in place order; in strict mode it is cleared (08 R304, R305). -/
def assemble (s : State) (slot wd : Nat) (img c : Bytes) (a : Adapt) : Assembly :=
  let q := takeFirst s slot wd img c (cbBatch c) { ad := a }
  if cbStrict c || q.short then q
  else (List.range q.got.length).foldl (fun q i =>
    if q.short || (q.got.getD i none).isSome then q else searchSample s slot wd img c i (max 1 q.ad.size) q) q

/-! ## Step boundaries (08 R288, R313, R316) -/

/-- The parameters of 08 Table 8-1 change at a boundary (R288). -/
def takeParams (old new : Bytes) (a : Adapt) : Adapt :=
  let capacity := !old.isEmpty && cbStore old != cbStore new
  let order := !old.isEmpty && (cbSeed old != cbSeed new || cbStrict old != cbStrict new)
  let a1 := if capacity then { clearStore 0 a with staging := a.staging }
    else if order then { a with epoch := (a.epoch + 1) % 2 ^ 32, pos := 0, begun := false } else a
  { a1 with block := new, staging := if cbAdapt new then a1.staging else [] }
/-- Commands of a context that wait for a boundary. -/
def waitingCmds (x : Ctx) (op : Nat) : List Cmd := x.ring.cmds.filter (fun c => c.started && entOpcode c.entry == op)
/-- TRAIN_CONTROL commands take effect. -/
def takeControl (slot : Nat) (x : Ctx) (s : State) : State :=
  (waitingCmds x 0x34).foldl (fun s c =>
    completeOk (.ctx slot) c.seq [] (modAd slot (fun a => { a with paused := entArg c.entry 0 % 2 == 1 }) s)) s
/-- A publish that is due copies the master weights into the buffer not in force and marks it pending (08 R316). -/
def publish (slot : Nat) (x : Ctx) (s : State) : State :=
  if x.ad.due then
    let d := adapterDigestOf x.ad.master
    let s1 := modAd slot (fun a => { a with ready := some (a.master, d, a.step), readyAt := s.now, due := false, applied := 0 }) s
    (waitingCmds x 0x30 ++ waitingCmds x 0x31).foldl (fun s c => completeOk (.ctx slot) c.seq d s) s1
  else s
/-- Valid slots of the store. -/
def validSlots (a : Adapt) : Nat := (a.store.filter (·.valid)).length
/-- The tasks of a training step: one BE-level task for each tile of each valid sample (08 R306, R313). -/
def dealTraining (slot : Nat) (x : Ctx) (net : Net) (step n : Nat) (s : State) : State :=
  (List.range (4 * n)).foldl (fun s i =>
    dealTask { slot := slot, gen := x.gen, core := coreAtPos x.group i, kind := .train step, lc := false,
               deadline := keyOfNow s, index := i, threads := 8, vregs := 32, size := net.store } s) s
/-- The next step starts when adaptation is on, training is not paused, and the store holds B valid slots (08 R313). -/
def startStep (slot : Nat) (x : Ctx) (s : State) : State :=
  let c := x.ad.block
  match boundImage s x with
  | none => s
  | some img =>
    match trainNet img c with
    | none => s
    | some (_, net) =>
      if cbAdapt c && !x.ad.paused && decide (cbBatch c ≤ validSlots x.ad)
          && (!cbLockstep c || decide (x.ad.sinceCommit < cbSteps c)) then
        let q := assemble s slot x.ward img c x.ad
        let s1 := (List.range q.events.length).foldl (fun s i =>
          postEvent slot kSampleDrop (q.reasons.getD i 0) (q.events.getD i []) s) s
        let valid := (q.got.filterMap id).length
        dealTraining slot x net x.ad.step (if q.short then 0 else valid)
          (modAd slot (fun _ => { q.ad with running := some { block := c, batch := q.got, short := q.short } }) s1)
      else s
/-- The slots that commits since `x` filled hold new bytes, and no line of theirs is poisoned (08 R303; 15 R482). -/
def renewSlots (slot : Nat) (x : Ctx) (s : State) : State :=
  match boundImage s x, ctxOf s slot with
  | some img, some y =>
    let filled := (List.range (y.ad.captured - x.ad.captured)).map (fun i => (x.ad.captured + i) % max 1 (cbStore y.ad.block))
    modWard x.ward (fun w => { w with poisoned := w.poisoned.filter (fun l =>
      filled.all (fun k => let r := slotRange s slot x.ward img y.ad.block k; !lineMeets r.1 r.2 l)) }) s
  | _, _ => s
/-- What happens at a boundary, in order: parameters, pauses, commits, a due publish, and the next step. -/
def atBoundary (slot : Nat) (s : State) : State :=
  let on := fun (g : Ctx → State → State) (s : State) => match ctxOf s slot with | some x => g x s | none => s
  let s1 := on (fun x s => modAd slot (takeParams x.ad.block x.cfg) s) (abandonStep slot s)
  let s2 := on (takeControl slot) s1
  let s3 := on (fun x s => if cbAdapt x.ad.block then
    settleSets slot (renewSlots slot x (modAd slot (fun a => commits a.block s.now (a.staging.length + 1) a) s)) else s) s2
  on (startStep slot) (on (publish slot) s3)
/-- STEP_BOUNDARY: no step is in progress, or adaptation has been turned off, which abandons it (08 R288). -/
def execStepBoundary (slot : Nat) (s : State) : Out :=
  need (liveCtx s slot) "no live context" (fun x =>
    guardThat (x.ad.running.isNone || !cbAdapt x.cfg) "a step is in progress" (.next (atBoundary slot s)))

/-! ## The end of a step (08 R311, R312) -/

/-- The learned values of a context. -/
def learnedOf (a : Adapt) : Learned :=
  { master := a.master, m := { codes := a.mCodes, scales := a.mScales }, v := { codes := a.vCodes, scales := a.vScales }, p1 := a.p1, p2 := a.p2 }
/-- Count what the conversions of the forward pass gave. -/
def countForward (slot : Nat) (img : Bytes) (fs : List Fwd) (s : State) : State :=
  let ts := tensorsOf img
  let ls := layersOf img
  fs.foldl (fun s f => f.encs.foldl (fun s e => countLayer slot e.1 (degenerate ts (ls.getD e.1 {})) e.2 s) s) s
/-- The adaptation histories after an applied step: per delayed tensor, the largest amax of its tiles (03 R127). -/
def pushForward (img : Bytes) (fs : List Fwd) (h : Table (List Nat)) : Table (List Nat) :=
  let ts := tensorsOf img
  let ls := layersOf img
  let am := fs.foldl (fun t f => f.encs.foldl (fun t e =>
    let o := (ls.getD e.1 {}).out
    if (tn ts o).delayed then tput t o (max (tgetD t o 0) e.2.amax) else t) t) ([] : Table Nat)
  am.foldl (fun h a => pushAmax a.1 a.2 h) h
/-- A step ends: the step number advances; an applied one changes weights, moments and histories. -/
def endStep (slot : Nat) (st : Step) (img : Bytes) (net : Net) (x : Ctx) (s : State) : State :=
  let a := x.ad
  let ps := if st.short then [] else st.batch.filterMap id
  let mine := s.tasks.filter (fun t => t.2.slot == slot && (match t.2.kind with | .train _ => true | _ => false))
  let customs := fun k => ((mine.find? (fun t => t.2.index == k)).map (·.2.customs)).getD []
  let copies := (((wardOf s x.ward).allocs.find? (fun q => q.kind == .copies slot)).map (·.content)).getD []
  let r := runStep st.block img copies net a.hist customs a.step ps (learnedOf a)
  let s1 := countForward slot img r.2 (chargeWork slot (abandonStep slot s))
  let after := { a with running := none, step := (a.step + 1) % 2 ^ 32, sinceCommit := a.sinceCommit + 1 }
  match r.1 with
  | .empty => addStat slot stEmpty 1 (modAd slot (fun _ => after) s1)
  | .skipped => addStat slot stSkipped 1 (modAd slot (fun _ => after) s1)
  | .applied l =>
    addStat slot stApplied 1 (modAd slot (fun _ =>
      { after with
        master := l.master, mCodes := l.m.codes, mScales := l.m.scales, vCodes := l.v.codes, vScales := l.v.scales
        p1 := l.p1, p2 := l.p2, t := a.t + 1, applied := a.applied + 1, hist := pushForward img r.2 a.hist
        due := a.due || (decide (cbPublish st.block ≤ a.applied + 1) && !cbReplay x.cfgInForce) }) s1)
/-- TRAINING_STEP_COMPLETE: the tasks of the step in progress have ended. -/
def execTrainingStepComplete (slot : Nat) (s : State) : Out :=
  need (liveCtx s slot) "no live context" (fun x =>
    need x.ad.running "no step is in progress" (fun st =>
      guardThat (cbAdapt x.cfg) "the step is abandoned"
        (need (boundImage s x) "no image" (fun img =>
          need (trainNet img st.block) "no network" (fun n =>
            guardThat (s.tasks.all (fun t => t.2.slot != slot || (match t.2.kind with | .train _ => t.2.started && allEnded s t.1 t.2 | _ => true)))
              "a training task has not ended" (.next (unlessSpoiled slot 0xFFFF s (endStep slot st img n.2 x))))))))

/-! ## Commands (08 R316, R318) -/

/-- A command that goes on at the next boundary. -/
def awaitBoundary (r : RingRef) (seq : Nat) (s : State) : State := modCmd r seq (fun c => { c with started := true }) s
/-- ADAPT_PUBLISH: marked pending at the next boundary; in replay mode the live set stays, and the command answers with its
digest (13 R454). -/
def adaptPublishGo (slot seq : Nat) (x : Ctx) (s : State) : State :=
  if x.image.isNone then fail (.ctx slot) seq kBadState 0x01 s
  else if cbReplay x.cfgInForce then completeOk (.ctx slot) seq x.ad.digest s
  else awaitBoundary (.ctx slot) seq (modAd slot (fun a => { a with due := true }) s)
/-- The shape of a command that may wait for a boundary. -/
def boundaryCommand (slot seq op : Nat) (s : State) (go : Cmd → Ctx → State → State) : Out :=
  need (readyCmd (.ctx slot) seq op s) "the command is not ready" (fun c =>
    need (ctxOf s slot) "no context" (fun x => guardThat (!c.started) "the command waits" (.next (go c x s))))
/-- ADAPT_PUBLISH. -/
def execAdaptPublish (slot seq : Nat) (s : State) : Out := boundaryCommand slot seq 0x30 s (fun _ x s => adaptPublishGo slot seq x s)
/-- ADAPTER_LOAD with its elements read: the step in progress is abandoned, the set is replaced and published. -/
def adapterLoadGo (slot seq : Nat) (c : Cmd) (x : Ctx) (s : State) : State :=
  let r : RingRef := .ctx slot
  match boundImage s x with
  | none => fail r seq kBadState 0x01 s
  | some img =>
    let n := totalElements img
    if n = 0 ∨ entArg c.entry 0 ≠ 2 * n then fail r seq kBadEntry 0x06 s
    else
      let b := hostRead s (entAddr0 c.entry) (2 * n)
      let set := (List.range n).map (fun i => fld b (2 * i) 2)
      awaitBoundary r seq (modAd slot (fun a => { startFrom set a with due := true }) (abandonStep slot (chargeHost slot (2 * n) 0 s)))
/-- ADAPTER_LOAD. -/
def execAdapterLoad (slot seq : Nat) (s : State) : Out := boundaryCommand slot seq 0x31 s (fun c x s => adapterLoadGo slot seq c x s)
/-- ADAPTER_EXPORT: the live set, its digest and the step number. -/
def execAdapterExport (slot seq : Nat) (s : State) : Out :=
  ctxCommand slot seq 0x32 s (fun c x s =>
    if x.image.isNone then fail (.ctx slot) seq kBadState 0x01 s
    else
      let b := bfBytes x.ad.live
      completeOk (.ctx slot) seq (x.ad.digest ++ natLe 4 x.ad.liveStep) (chargeHost slot 0 b.length (hostWrite (entAddr0 c.entry) b s)))
/-- STORE_CLEAR: every slot is invalid, staging is empty, and the cursor is at (e + 1, 0). -/
def execStoreClear (slot seq : Nat) (s : State) : Out :=
  ctxCommand slot seq 0x33 s (fun _ _ s =>
    completeOk (.ctx slot) seq [] (settleSets slot (modAd slot (fun a => clearStore (a.epoch + 1) a) s)))
/-- TRAIN_CONTROL: pause or resume from the next boundary. -/
def execTrainControl (slot seq : Nat) (s : State) : Out := boundaryCommand slot seq 0x34 s (fun _ _ s => awaitBoundary (.ctx slot) seq s)

end Sys2Proof.Machine
end

