-- ==== Sys2Proof/Machine/Frames.lean ====
section
/-!
DEFINITION. Output frames: what triggers one, its start, its cut-off, an abandoned frame, readiness, and its records
(01 R26–R60; 02 R550; 08 R316; 10 R357, R371; 11 R403; 13 R447–R458).
-/
namespace Sys2Proof.Machine

/-! ## Records of 13 Table 13-2 -/

def drKind (e : Bytes) : Nat := fld e 92 1 % 4
def drPoseUsed (e : Bytes) : Bool := (fld e 92 1).testBit 4
def drPoseSeq (e : Bytes) : Nat := fld e 88 4
def drLatest (e : Bytes) : Nat := fld e 84 4
def drFrame (e : Bytes) : Nat := fld e 80 4

/-! ## Trigger, base and phase (01 R26–R37, R549; 13 R455, R456) -/

/-- What sets a frame's start: its own packet, a pose packet, its cut-off as an extrapolated frame, or substitution. -/
inductive Trigger where
  | packet
  | pose (p : Pose)
  | late
  | substituted
  deriving DecidableEq, Repr
/-- A slot of render frame n that a packet fills: its packet, or the instant at which it becomes substituted. -/
def packetTrigger (x : Ctx) (n : Nat) (cut : Int) : Option (Nat × Trigger) :=
  let missing := (x.ing.missing.find? (fun m => m.1 == n)).map (·.2)
  match missing with
  | some t => if byCycle t cut || !x.fr.cut then some (t, .substituted) else some (cut.toNat, .substituted)
  | none =>
    match setOf x n with
    | some b => if byCycle b.arrival cut && byCycle b.acceptedAt cut then some (b.arrival, .packet)
                else if x.fr.cut then some (cut.toNat, .substituted) else none
    | none => if x.fr.cut then some (cut.toNat, .substituted) else none
/-- An extrapolated G frame: the first pose packet of its window, or its cut-off. -/
def poseTrigger (x : Ctx) (deadline : Nat) (cut : Int) : Option (Nat × Trigger) :=
  let opens : Int := (keyOfHead deadline : Int) - 60 * cbPoseLead x.cfg
  match x.ing.poses.find? (fun p => decide (opens ≤ p.arrival)) with
  | some p => if (p.arrival : Int) ≤ cut then some (p.arrival, .pose p) else if x.fr.cut then some (cut.toNat, .late) else none
  | none => if x.fr.cut then some (cut.toNat, .late) else none
/-- A rendered frame is ingested by an instant: its stages 2 and 3 are complete with its colour, and its set is kept. -/
def ingestedAs (x : Ctx) (n t0 : Nat) : Bool := ((pastOf x n).map (fun p => byCycle p.done t0)).getD false && (setOf x n).isSome
/-- φ of a slot after its base, clamped to X. -/
def phaseOf (c : Bytes) (slots : Int) : Q :=
  let p := Q.ratio slots (1 + cbG c)
  if Q.le (Q.ofInt (cbX c)) p then Q.ofInt (cbX c) else p
/-- The base and phase of a substituted frame that starts at t0 (01 R33): ingest of the base completed before the start. -/
def substitutedBase (x : Ctx) (number t0 : Nat) : Option (Nat × Q) :=
  (latestOf (((x.ing.past.filter (fun p => p.colour && earlierCycle p.done t0 && (setOf x p.frame).isSome)).map (·.frame)).filter
    (fun n => later 32 number (ownSlot x.cfg n)))).map (fun b => (b, phaseOf x.cfg (diff32 number (ownSlot x.cfg b))))
/-- The latest pose packet at an instant: the last whose ingest completed in an earlier fabric cycle (01 R35; 02 R79). -/
def latestPose (x : Ctx) (t0 : Nat) : Option Pose :=
  (x.ing.poses.filter (fun p => (p.ingested.map (fun t => earlierCycle t t0)).getD false)).getLast?
/-- REPLAY_FRAME's record and rung map for a frame, and when it completed. -/
def heldFor (x : Ctx) (number : Nat) : Option (Bytes × Bytes × Nat) := (x.fr.held.find? (fun h => h.1 == number)).map (·.2)
/-- The pose packet that a replayed frame's record names, where its ingest has completed by the frame's cut-off (13 R456). -/
def replayed (x : Ctx) (e : Bytes) (cut : Int) : Option Pose :=
  x.ing.poses.find? (fun p => p.seq == drPoseSeq e && (p.ingested.map (fun t => byCycle t cut)).getD false)
/-- In replay mode a frame waits for its REPLAY_FRAME, its latest packet and its pose; the instant from which it may start. -/
def replayGate (s : State) (x : Ctx) (number : Nat) (cut : Int) : Option Nat :=
  if !cbReplay x.cfg then some 0
  else
    match heldFor x number with
    | none => none
    | some (e, _, t) =>
      let passed := if cut / 8 < (s.now / 8 : Nat) then some cut.toNat else none
      let done := (x.ing.past.find? (fun p => p.frame == drLatest e)).map (·.done)
      let rej := (x.ing.rejected.find? (fun p => p.1 == drLatest e)).map (·.2)
      let pose := if drPoseUsed e then (replayed x e cut).bind (·.ingested) else some 0
      match done.orElse (fun _ => rej.orElse (fun _ => passed)), pose.orElse (fun _ => passed) with
      | some d, some p => some (max t (max d p))
      | _, _ => none
/-- The pose of an extrapolated or substituted frame in replay mode, and otherwise the one given. -/
def replayPose (x : Ctx) (number t0 : Nat) (cut : Int) (p : Option Pose) : Option Pose :=
  match if cbReplay x.cfg then heldFor x number else none with
  | none => p
  | some (e, _, _) =>
    if drPoseUsed e then (replayed x e cut).orElse (fun _ => latestPose x t0) else none

/-- What a frame is when it starts. -/
structure Plan where
  t0 : Nat := 0
  slotKind : SlotKind := .rendered
  kind : Kind := .g
  substituted : Bool := false
  interpolated : Bool := false
  own : Option Nat := none
  base : Option Nat := none
  phi : Q := {}
  pose : Option Pose := none
  poseWait : Option Nat := none
  deadline : Nat := 0
  cutoff : Int := 0
  deriving DecidableEq, Repr
/-- The next output frame of a context, once everything that sets its start instant is known; none while it waits. -/
def planFrame (s : State) (slot : Nat) (x : Ctx) (h : Nat) : Option Plan :=
  let c := x.cfg
  let hd := headOf s h
  let num := x.fr.nextNumber; let n := x.fr.nextRender; let place := x.fr.nextPlace
  let k := slotKindAt c place
  let deadline := deadlineOf hd num
  let cut := cutoffOf s slot x hd num k
  let before := (n + 2 ^ 32 - 1) % 2 ^ 32
  match (match k with | .genExtra => poseTrigger x deadline cut | _ => packetTrigger x n cut), replayGate s x num cut with
  | some (t, tr), some gate =>
    let t0 := max (max t gate) (max x.fr.readyAt x.fr.notBefore)
    let p0 : Plan := { t0 := t0, slotKind := k, deadline := deadline, cutoff := cut }
    let sub : Plan :=
      let b := substitutedBase x num t0
      { p0 with substituted := true, base := b.map (·.1), phi := (b.map (·.2)).getD {}, pose := replayPose x num t0 cut (latestPose x t0) }
    some (match k, tr with
      | .rendered, .packet => { p0 with kind := ((setOf x n).map (·.kind)).getD .u, own := some n, base := some n }
      | .genInter, .packet =>
        if ingestedAs x before t0 then { p0 with interpolated := true, own := some n, base := some before, phi := phaseOf c (place + 1) }
        else sub
      | .genExtra, .pose p =>
        let pose := replayPose x num t0 cut (some p)
        let wait := if pose = some p && p.ingested.isNone then some p.arrival else none
        if ingestedAs x n t0 then { p0 with base := some n, phi := phaseOf c place, pose := pose, poseWait := wait }
        else { sub with pose := pose, poseWait := wait }
      | .genExtra, .late =>
        let pose := replayPose x num t0 cut (latestPose x t0)
        if ingestedAs x n t0 then { p0 with base := some n, phi := phaseOf c place, pose := pose } else { sub with pose := pose }
      | _, _ => sub)
  | _, _ => none

/-! ## Content in force (01 R49; 02 R72, R76, R78; 13 R455) -/

/-- A packet's content is in force for a frame: always, or in replay when it is not later than the recorded one. -/
def inForce (x : Ctx) (number src : Nat) : Bool :=
  match if cbReplay x.cfg then heldFor x number else none with
  | some (e, _, _) => !later 32 src (drLatest e)
  | none => true
/-- UI layers in force at a frame's start instant: content that came into force no later than its fabric cycle (02 R78, R79). -/
def uiInForce (x : Ctx) (c : Bytes) (number t0 : Nat) : Table UiLayer :=
  x.ing.ui.filterMap (fun l =>
    if l.1 < cbUi c then (l.2.find? (fun u => inForce x number u.src && byCycle u.since t0)).map (fun u => (l.1, u)) else none)
/-- The exposure of a frame: that of its base packet, and otherwise the value in force at its start instant (02 R76; 13 R455). A frame
whose base is its own packet takes it again when that packet's stages 2 and 3 complete (DEDUCED, log 51). -/
def exposureInForce (x : Ctx) (number : Nat) (base : Option Nat) (t0 : Nat) : Option (Nat × Nat) :=
  ((base.bind (fun b => x.ing.exposures.find? (fun e => e.1 == b))).orElse (fun _ =>
    x.ing.exposures.find? (fun e => inForce x number e.1 && byCycle e.2.2 t0))).map (fun e => (e.1, e.2.1))
/-- The hierarchy reference of a frame, in the same way; where its base packet's reference is marked missing it has none (02 R72). -/
def hierInForce (x : Ctx) (number : Nat) (base : Option Nat) (t0 : Nat) : Option (Nat × Nat × Nat) :=
  if ((base.bind (setOf x)).map (·.hierBad)).getD false then none
  else
    ((base.bind (fun b => x.ing.hierRefs.find? (fun e => e.1 == b))).orElse (fun _ =>
      x.ing.hierRefs.find? (fun e => inForce x number e.1 && byCycle e.2.2.2 t0))).map (fun e => (e.1, e.2.1, e.2.2.1))

/-! ## The start (01 R36, R46, R55; 08 R316; 10 R357) -/

/-- A context's size or an upscale factor changes with the configuration that comes into force. -/
def sizeChanges (old new : Bytes) : Bool :=
  (cbWidth old, cbHeight old, cbSxCode old, cbSyCode old) != (cbWidth new, cbHeight new, cbSxCode new, cbSyCode new)
/-- SHA-256 of the hierarchy in force and of the loaded frame graph, for 13 R449: zeros where there is none. -/
def startShas (x : Ctx) (number : Nat) (base : Option Nat) (t0 : Nat) : List (Option Bytes) :=
  let zero : Option Bytes := some (List.replicate 32 0)
  [match hierInForce x number base t0 with
   | none => zero
   | some q => (tget x.hiers q.2.1).bind (fun h => if h.gen = q.2.2 then h.digest else none),
   if x.graph.isNone then zero else x.graphDigest]
/-- The next frame has zero history: it is the first since creation, since an IMAGE_BIND, or since a change of the output size or
of a factor (01 R46). -/
def startsZero (x : Ctx) : Bool := !x.fr.placed || x.fr.zeroNext || sizeChanges x.cfgInForce x.cfg
/-- The frame that a plan makes. -/
def makeFrame (s : State) (h : Nat) (x : Ctx) (p : Plan) : Frame :=
  let num := x.fr.nextNumber
  let c := x.cfg
  let zero := startsZero x
  let rung3 := p.kind == .a || p.kind == .p || (p.kind == .g && p.base.isNone) || decide (p.cutoff < (p.t0 : Int)) || x.image.isNone
  let r := if rung3 then 3 else cbStartRung c
  { number := num, slotKind := p.slotKind, render := x.fr.nextRender, place := x.fr.nextPlace, kind := p.kind, substituted := p.substituted,
    interpolated := p.interpolated, t0 := p.t0, own := p.own, base := p.base, phi := p.phi, pose := p.pose, poseWait := p.poseWait,
    prevCam := x.fr.prevCam, prevObjs := x.fr.prevObjs, fdiv := frameDiv s p.t0 (groupMask s x.ward c), group := groupMask s x.ward c, rtus := (wardOf s x.ward).cfg.rtuMask, startRung := r, rung := r, deadline := p.deadline,
    cutoff := p.cutoff, tiles := List.replicate (tileCount c) {}, checkDue := true, hops := hopsOf s x ((headOf s h).cfg.getD []),
    histIn := if zero then none else x.fr.history, ui := uiInForce x c num p.t0, exposure := exposureInForce x num p.base p.t0, hier := hierInForce x num p.base p.t0,
    adapters := x.ad.live, adapterDigest := x.ad.digest, config := c, adapt := adaptOver c x.ad.block, image := x.image, head := h,
    held := if cbReplay c then (heldFor x num).map (fun q => (q.1, q.2.1)) else none,
    latestRender := (latestOf ((x.ing.past.filter (fun q => byCycle q.done p.t0)).map (·.frame))).getD 0,
    fresh := zero || x.fr.fresh, shas := startShas x num p.base p.t0, repeatable := s.op.repeatable && s.op.chosenRep,
    undoBase := x.fr.latestBase, undoRendered := x.fr.lastRendered, undoStarted := x.fr.lastStarted }
/-- The pending adapter set comes into force, with its event, for a frame whose start instant follows its mark or falls in the same
fabric cycle (08 R316). -/
def swapAdapters (slot number t0 : Nat) (s : State) : State :=
  match (ctxOf s slot).bind (fun x => if byCycle x.ad.readyAt t0 then x.ad.ready else none) with
  | none => s
  | some (set, digest, step) =>
    postEvent slot kAdapterSwap 0 (digest ++ natLe 4 step ++ natLe 4 number)
      (modCtx slot (fun x => { x with ad := { x.ad with live := set, digest := digest, liveStep := step, ready := none } }) s)
/-- Bins of a frame: their number, those of a tile, and the tile of a bin (06 R217). -/
def binsX (c : Bytes) : Nat := cdiv (cbWidth c) 32
def binsY (c : Bytes) : Nat := cdiv (cbHeight c) 32
def binsOf (c : Bytes) (i : Nat) : List Nat :=
  let tx := i % tilesX c; let ty := i / tilesX c
  ([(0, 0), (1, 0), (0, 1), (1, 1)].filter (fun q => decide (2 * tx + q.1 < binsX c) && decide (2 * ty + q.2 < binsY c))).map
    (fun q => (2 * ty + q.2) * binsX c + 2 * tx + q.1)
/-- The pass has a proxy mesh: a G frame with a base (01 R47; 06 R227). -/
def hasMeshPass (f : Frame) : Bool := f.kind == .g && f.base.isSome
/-- Deal the tasks of a frame: its tiles, the bin and ray tasks of a G frame with a base, and its captures. -/
def dealFrame (slot : Nat) (x : Ctx) (f : Frame) (captures : Nat) (s : State) : State :=
  let c := f.config
  let tiles := (List.range (tileCount c)).foldl (fun s i => dealTask (frameTask slot x f (.tile i) i i) s) s
  let geo := if hasMeshPass f then (List.range (tileCount c)).foldl (fun s i =>
      dealTask (frameTask slot x f (.ray i) i i) ((binsOf c i).foldl (fun s b => dealTask (frameTask slot x f (.bin b) i i) s) s)) tiles
    else tiles
  settleInherit ((List.range captures).foldl (fun s p => dealTask (frameTask slot x f (.capture p) p p) s) geo)
/-- Captures of an A frame: how many tasks, and whether staging is full (08 R294, R297). -/
def capturesOf (s : State) (x : Ctx) (f : Frame) : Nat × Bool :=
  if f.kind == .a && adapts (frameImage s x f) f.adapt then
    if cbStagingDepth f.adapt ≤ x.ad.staging.length then (0, true) else (captureCount f.adapt, false)
  else (0, false)
/-- An output frame starts. -/
def startFrame (slot h : Nat) (x0 : Ctx) (p : Plan) (s0 : State) : State :=
  let num := x0.fr.nextNumber
  let s1 := swapAdapters slot num p.t0 s0
  match ctxOf s1 slot with
  | none => s0
  | some x =>
    let f := makeFrame s1 h x p
    let zero := startsZero x
    let c := x.cfg
    let cap := capturesOf s1 x f
    let last := x.fr.nextPlace = cbG c
    let isOwn := f.slotKind == .rendered
    let keepLatest := fun (b : Option Nat) => match f.base, b with
      | some n, some m => if later 32 n m then some n else some m
      | some n, none => some n
      | none, b => b
    let s2 := modCtx slot (fun x =>
      { x with
        cfgInForce := c
        group := f.group
        n := contenders s1 slot x.ward c f.group
        ad := if cap.1 = 0 then x.ad else { x.ad with staging := x.ad.staging ++ [{ render := f.render, frame := num, left := cap.1 }] }
        fr := { x.fr with
          placed := true, nextNumber := (num + 1) % 2 ^ 32, nextRender := if last then (x.fr.nextRender + 1) % 2 ^ 32 else x.fr.nextRender
          nextPlace := if last then 0 else x.fr.nextPlace + 1
          cut := false, notBefore := 0, cur := some f, history := if zero then none else x.fr.history, fresh := false, zeroNext := false
          latestBase := keepLatest x.fr.latestBase, lastRendered := if isOwn then some x.fr.nextRender else x.fr.lastRendered
          lastStarted := some num, held := x.fr.held.filter (fun q => q.1 != num) } }) s1
    let s3 := if beforeDecision s2 p.t0 then s2 else settleOp { s2 with op := { s2.op with waits := s2.op.waits.filter (· != slot) } }
    let s4 := dealFrame slot x f cap.1 s3
    let s5 := if cap.2 then postEvent slot kCaptureShort 0x02 (natLe 4 num ++ [0]) s4 else s4
    let s6 := settleSets slot s5
    if ((f.own.bind (setOf x)).map (fun b => b.decoded.isSome)).getD false then startGuard slot f s6 else s6
/-- FRAME_START: the head is bound, the previous frame is ready, and the start instant has come. -/
def execFrameStart (slot : Nat) (s : State) : Out :=
  need (liveCtx s slot) "no live context" (fun x =>
    need x.head "no head is bound" (fun h =>
      need (planFrame s slot x h) "nothing has triggered the frame" (fun p =>
        guardThat (x.fr.cur.isNone && decide (p.t0 ≤ s.now)) "the start instant has not come" (.next (startFrame slot h x p s)))))
/-- CUT_OFF: the cut-off of a context's next frame passes. -/
def execCutOff (slot : Nat) (s : State) : Out :=
  need (liveCtx s slot) "no live context" (fun x =>
    need x.head "no head is bound" (fun h =>
      guardThat (!x.fr.cut && decide (cutoffOf s slot x (headOf s h) x.fr.nextNumber (slotKindAt x.cfg x.fr.nextPlace) ≤ (s.now : Int)))
        "the cut-off has not come" (.next (modCtx slot (fun x => { x with fr := { x.fr with cut := true } }) s))))

/-- Hierarchies whose unload waits are unmapped once no frame in progress uses them (11 Table 11-8). -/
def settleHiers (slot : Nat) (s : State) : State :=
  match ctxOf s slot with
  | none => s
  | some x =>
    let used := fun (h : Nat) (q : Hier) => (x.fr.cur.bind (·.hier)).map (fun r => (r.2.1, r.2.2)) == some (h, q.gen)
    (x.hiers.filter (fun q => q.2.unloading && !used q.1 q.2)).foldl (fun s q =>
      let s1 := modCtx slot (fun x => { x with hiers := tdel x.hiers q.1 }) (release x.ward (·.kind == .hierarchy slot q.1) s)
      match x.ring.cmds.find? (fun c => entOpcode c.entry == 0x27 && c.started && c.aux == q.1) with
      | some c => completeOk (.ctx slot) c.seq [] s1
      | none => s1) s

/-! ## A frame abandoned before any tile started (02 R550) -/

/-- The frame in progress goes as if it had not started; its slot starts again, no earlier than now. -/
def abandonFrame (slot : Nat) (s : State) : State :=
  match (ctxOf s slot).bind (fun x => x.fr.cur) with
  | none => s
  | some f =>
    let wd := ((ctxOf s slot).map (·.ward)).getD 0
    let s1 := modWard wd (fun w => { w with growthWait := w.growthWait.filter (·.slot != slot) })
      (dropTasks (fun _ t => t.slot == slot && t.frame == some f.number) s)
    settleHiers slot (modCtx slot (fun x =>
      { x with
        runs := x.runs.map (fun r => (r.1, if r.2.why = .guard f.number then { r.2 with running := false } else r.2))
        ad := { x.ad with staging := x.ad.staging.filter (fun a => a.frame != f.number) }
        fr := { x.fr with
          nextNumber := f.number, nextRender := f.render, nextPlace := f.place, notBefore := s.now, cur := none, latestBase := f.undoBase, fresh := x.fr.fresh || f.fresh
          lastRendered := f.undoRendered, lastStarted := f.undoStarted
          held := match f.held with | some (e, m) => x.fr.held ++ [(f.number, e, m, s.now)] | none => x.fr.held } }) s1)

/-! ## Readiness (01 R40, R55, R60; 03 R131) -/

/-- DEADLINE_RUNG for a frame that the Detent lowered. -/
def postRung (slot : Nat) (f : Frame) (s : State) : State :=
  let above := (f.tiles.filter (fun t => decide (f.startRung < t.rung))).length
  if f.held.isNone && 0 < above then
    postEvent slot kDeadlineRung 0 (natLe 4 f.number ++ [BitVec.ofNat 8 f.startRung, BitVec.ofNat 8 ((f.tiles.map (·.rung)).foldl max 0)] ++ natLe 2 above) s
  else s
/-- A frame ready now is later than its deadline − D, taken to TB (01 R57, R60). -/
def isLate (s : State) (f : Frame) : Bool :=
  match (headOf s f.head).cfg with
  | some h => decide (leadStart h f.deadline < (s.now : Int))
  | none => false
/-- Count a DEADLINE_MISS of the context bound to a head (09 Table 9-6). -/
def countMiss (head slot : Nat) (s : State) : State :=
  if (headOf s head).ctx = some slot then
    modHead head (fun h => { h with misses := h.misses + 1, miss := true, wrapped := h.wrapped || h.misses == 0xFFFFFFFF
                                    fresh := headFresh h 128 (h.misses == 0xFFFFFFFF) }) s
  else s
/-- The packets of a frame's input set with their digests, in increasing number (13 R449). -/
def inputPackets (x : Ctx) (f : Frame) : List Nat :=
  let pre := fun n => (n + 2 ^ 32 - 1) % 2 ^ 32
  let b := f.base.toList
  let mesh := f.kind == .g && ((f.base.bind (pastOf x)).map (fun p => p.objects.isSome)).getD false
  let set : List BufferSet := (f.base.bind (setOf x)).toList
  let l := b ++ (if f.interpolated then b.map (fun n => (n + 1) % 2 ^ 32) else []) ++ (if mesh then b.map pre else [])
    ++ (if set.any (·.flowNeeded) then b.map pre else []) ++ f.ui.map (fun u => u.2.src) ++ (f.exposure.map (·.1)).toList ++ (f.hier.map (·.1)).toList
  l.eraseDups.foldl (fun acc n => acc.takeWhile (fun m => later 32 n m) ++ n :: acc.dropWhile (fun m => later 32 n m)) []
/-- The partner's packets that the base's motion read through PARTNER_COLOUR sources, with their digests (07 R264; 13 R449). -/
def partnerPackets (s : State) (x : Ctx) (f : Frame) : List (Nat × Option Bytes) :=
  match f.base.bind (setOf x), x.graph with
  | some b, some g =>
    if b.flowNeeded then
      ((List.range (fgBuffers g)).filter (fun k => fld (fgBuffer g k) 0 1 == 3)).filterMap (fun k =>
        (ctxOf s (fld (fgBuffer g k) 12 2 % 1024)).bind (fun y =>
          (y.ing.past.find? (fun p => p.frame == b.frame && p.colour)).map (fun p => (p.frame, p.digest))))
    else []
  | _, _ => []
/-- Every tile of the frame in progress has completed the composite: the frame is ready. -/
def frameReady (slot : Nat) (s : State) : State :=
  match ctxOf s slot with
  | none => s
  | some x =>
    match x.fr.cur with
    | none => s
    | some f =>
      let pre := preUi f
      let late := isLate s f
      let digests := (inputPackets x f).map (fun n => (n, (x.ing.past.find? (fun p => p.frame == n)).bind (·.digest)))
      let r : Ready := { frame := { f with tiles := [] }, readyAt := s.now, late := late, rungs := f.tiles.map (·.rung), img := finished f.ui pre,
                         inputs := digests ++ partnerPackets s x f }
      let s1 := postRung slot f s
      let s2 := if late then countMiss f.head slot (postEvent slot kDeadlineMiss 0 (natLe 4 f.number ++ natLe 8 (tb s)) s1) else s1
      let shownA := f.kind == .u || f.kind == .a
      let s3 := modCtx slot (fun x =>
        { x with
          hist := if f.hist.isNone then f.amax.foldl (fun h a => pushAmax a.1 a.2 h) x.hist else x.hist
          fr := { x.fr with
            cur := none, readyAt := s.now, ready := x.fr.ready ++ [r], history := some pre
            guardPre := if shownA then some pre else x.fr.guardPre
            guardBoxes := if shownA && !(cbGuard f.config && f.image.isSome) then [] else x.fr.guardBoxes, prevCam := f.camera, prevObjs := f.objs } }) s2
      modHead f.head (fun h => { h with detentAt := none }) (settleHiers slot (settleSets slot s3))

end Sys2Proof.Machine
end

