-- ==== Sys2Proof/Machine/Digests.lean ====
section
/-!
DEFINITION. Frame-information entries and digest records (11 R403; 13 R447–R452, R458), and REPLAY_FRAME (13 R459).
-/
namespace Sys2Proof.Machine

/-- Bytes of a rung map, and of a frame-information entry (01 R54; 11 R403). -/
def mapBytes (c : Bytes) : Nat := cdiv (tileCount c) 4
/-- The context-block bytes kept for CONFIG_D (13 Table 13-3). -/
def configKept (c : Bytes) : Bytes :=
  (List.range 256).map (fun i =>
    let b := c.getD i 0
    if i = 0 then b
    else if i = 3 then b &&& 7
    else if i = 7 then 0
    else if (6 ≤ i ∧ i ≤ 0x0F) ∨ (0x18 ≤ i ∧ i ≤ 0x1C) ∨ (0x20 ≤ i ∧ i ≤ 0x37) ∨ (0x3E ≤ i ∧ i ≤ 0x53) ∨ (0x68 ≤ i ∧ i ≤ 0x6B) then b
    else 0)
/-- The first 8 bytes of SHA-256 (13 R448). -/
def sha8 (b : Bytes) : Bytes := (sha256 b).take 8
/-- INPUT_D (13 R449): all ones where a digest that it needs was not taken. -/
def inputD (prev : Bytes) (r : Ready) : Bytes :=
  let f := r.frame
  if r.inputs.any (fun p => p.2.isNone) || f.shas.any (·.isNone) then List.replicate 8 0xFF
  else
    sha8 (prev ++ r.inputs.flatMap (fun p => natLe 4 p.1 ++ p.2.getD []) ++ (match f.pose with | some p => fit 128 p.bytes | none => List.replicate 128 0)
      ++ f.shas.flatMap (fun h => h.getD []))
/-- Byte 92 of a digest record: what the frame is, in the low five bits (13 Table 13-2). -/
def kindByte (f : Frame) : Nat :=
  (match f.kind with | .u => 0 | .g => 1 | .a => 2 | .p => 3) + 4 * b2n f.substituted + 8 * b2n f.interpolated + 16 * b2n f.pose.isSome
/-- Bytes 32–91 of a digest record, and byte 92 as the canonical record has it. -/
def recordCore (imageD weightsD prev : Bytes) (hasAdapters : Bool) (r : Ready) : Bytes :=
  let f := r.frame
  imageD ++ weightsD ++ (if hasAdapters then fit 8 f.adapterDigest else List.replicate 8 0) ++ inputD prev r ++ sha8 (configKept f.config)
    ++ sha8 (rungMap r.rungs) ++ natLe 4 f.number ++ natLe 4 f.latestRender ++ natLe 4 ((f.pose.map (·.seq)).getD 0) ++ natLe 1 (kindByte f)
/-- FRAME_HASH (13 R451). -/
def frameHash (core : Bytes) (r : Ready) : Bytes :=
  sha256 (core ++ [0, 0, 0] ++ rungMap r.rungs ++ r.img.data.flatMap (natLe 2))
/-- MATCH against the record that REPLAY_FRAME named (13 R458). -/
def matchBits (hash core e : Bytes) : Nat :=
  let same := fun (a n : Nat) => slice core (a - 32) n == slice e a n
  b2n (same 32 8) + 2 * b2n (same 40 8) + 4 * b2n (same 48 8) + 8 * b2n (same 56 8) + 16 * b2n (same 64 8) + 32 * b2n (same 72 8)
    + 64 * b2n (same 84 8) + 128 * b2n (hash == slice e 0 32)
/-- The digest record of a ready frame (13 Table 13-2). -/
def digestRecord (core hash : Bytes) (r : Ready) : Bytes :=
  let f := r.frame
  let flags := kindByte f + 32 * b2n f.repeatable + 64 * b2n (f.repeatable && decide (5 < f.fdiv)) + 128 * b2n f.held.isSome
  let m := match f.held with | some (e, _) => matchBits hash core e | none => 0
  hash ++ core.take 60 ++ natLe 1 flags ++ natLe 1 m ++ [0, 0]
/-- What a digest needs of the frame's image: IMAGE_D, WEIGHTS_D, and whether it has adapters. IMAGE_D of a frame without an
image is a value that the spec does not give: free bytes (log 2). -/
def imageFields (s : State) (x : Ctx) (f : Frame) : Bytes × Bytes × Bool :=
  match frameImage s x f with
  | some b => (slice b 16 8, sha8 (imgBytes b 0x07), imHas b 0x0A)
  | none => ((freeBytes s 8), sha8 [], false)
/-- FRAME_DONE bytes 12–31 (11 Table 11-12); the base of a frame that has none is a free value. -/
def frameDone (s : State) (r : Ready) (digest failed : Bool) : Bytes :=
  let f := r.frame
  let base := f.base.getD ((Config.freeWord s.free).toNat % 2 ^ 32)
  let flags := kindByte f % 16 + 16 * f.startRung + 64 * r.rungs.foldl max 0 + 256 * b2n digest + 512 * b2n r.late + 1024 * b2n failed
  natLe 4 f.number ++ natLe 8 (r.readyAt / 60) ++ natLe 4 base ++ natLe 4 flags
/-- A ready frame is kept until its records are written and its head has shown it or passed it, and its captures have ended. -/
def pruneReady (slot : Nat) (s : State) : State :=
  modCtx slot (fun x => { x with fr := { x.fr with ready := x.fr.ready.filter (fun r =>
    !r.digested || (!r.shown && x.head.isSome) || x.ad.staging.any (fun a => a.frame == r.frame.number && a.left != 0)) } }) s
/-- The oldest ready frame's records: its frame-information entry and its FRAME_DONE record (11 R403, R548). -/
def writeInfo (slot : Nat) (x : Ctx) (r : Ready) (ok : Bool) (s : State) : State :=
  let f := r.frame
  let on := cbDigest f.config
  let im := imageFields s x f
  let prev := if f.fresh then List.replicate 32 (0 : Byte) else if x.fr.prevHash.isEmpty then freeBytes { s with free := s.free + 1 } 32 else x.fr.prevHash
  let core := recordCore im.1 im.2.1 prev im.2.2 r
  let hash := frameHash core r
  let record := if on then digestRecord core hash r else List.replicate 96 0
  let done := frameDone { s with free := s.free + 2 } r on (!ok)
  let entry := fit (infoBytes f.config) (record ++ done ++ List.replicate 12 0 ++ rungMap r.rungs)
  let addr := cbInfoBase x.cfg + infoBytes f.config * (f.number % max 1 (cbInfoCount x.cfg))
  let s1 : State := { s with free := s.free + 3 }
  let s2 := if ok then chargeHost slot 0 entry.length (hostWrite addr entry s1)
    else spoilHost addr entry.length (hostDmaFailed x.ward addr s1)
  let s3 := postOther (.ctx slot) { type := 2, body := done, fence := true, slot := slot, gen := x.gen } s2
  let s4 := if on then tallyChip 0x240 0 (64 + mapBytes f.config + r.img.data.length * 2) (some x.ward) s3 else s3
  pruneReady slot (modCtx slot (fun x => { x with fr := { x.fr with
    prevHash := if on then hash else []
    ready := x.fr.ready.map (fun q => if q.frame.number = f.number then { q with digested := true } else q) } }) s4)
/-- DIGEST_COMPLETE: the records of the oldest ready frame without them are written. -/
def execDigestComplete (slot : Nat) (infoOk : Bool) (s : State) : Out :=
  need (liveCtx s slot) "no live context" (fun x =>
    need (x.fr.ready.find? (fun r => !r.digested)) "no frame waits for its records" (fun r => .next (writeInfo slot x r infoOk s)))

/-- Bits of the last rung-map byte beyond the last tile are zero. -/
def mapTailOk (c m : Bytes) : Bool :=
  let used := tileCount c - 4 * (mapBytes c - 1)
  decide ((m.getD (mapBytes c - 1) 0).toNat < 2 ^ (2 * used))
/-- REPLAY_FRAME with its entry read (13 R459). -/
def replayFrameGo (slot seq : Nat) (c : Cmd) (x : Ctx) (s : State) : State :=
  let r : RingRef := .ctx slot
  let f := entArg c.entry 0
  let e := hostRead s (entAddr0 c.entry) (infoBytes x.cfg)
  let m := slice e 128 (mapBytes x.cfg)
  if !cbReplay x.cfg then fail r seq kBadState 0x03 s
  else if (x.fr.lastStarted.map (fun l => !later 32 f l)).getD false || x.fr.held.any (fun h => h.1 == f) then fail r seq kBadState 0x02 s
  else if !mapTailOk x.cfg m then fail r seq kBadEntry 0x02 s
  else if 64 ≤ x.fr.held.length then fail r seq kNoMemory 0 s
  else
    completeOk r seq [] (modCtx slot (fun x => { x with fr := { x.fr with held := x.fr.held ++ [(f, slice e 0 96, m, s.now)] } })
      (chargeHost slot (infoBytes x.cfg) 0 s))
/-- REPLAY_FRAME. -/
def execReplayFrame (slot seq : Nat) (s : State) : Out := ctxCommand slot seq 0x36 s (fun c x s => replayFrameGo slot seq c x s)

end Sys2Proof.Machine
end

