-- ==== Sys2Proof/Machine/Encode.lean ====
section
/-!
DEFINITION. Output encoding of a head (09 R328–R330), the bytes of slice lines (R332, R339) and the signature (R340).
-/
namespace Sys2Proof.Machine

/-- Node i of T709 or TPQ: f((i / 1,024)²) in binary64, rounded to binary32. -/
def outNode (pq : Bool) (i : Nat) : Nat :=
  let x : FV := .fin false (i * i) (-20)
  if pq then
    let y := powFV x 2610 16384
    let r := FV.div (FV.add (ratioFV 3424 4096) (FV.mul (ratioFV 2413 128) y)) (FV.add (.fin false 1 0) (FV.mul (ratioFV 2392 128) y))
    via64 (powFV r 2523 32)
  else via64 (powFV x 5 12)
/-- T709 or TPQ at u, by the pseudocode of 02 R92. -/
def outTable (pq : Bool) (u : Nat) : Nat :=
  let u1024 := mul32 u (int32f 1024)
  let j := min (floor32 u1024).toNat 1023
  add32 (outNode pq j) (mul32 (sub32 u1024 (int32f j)) (sub32 (outNode pq (j + 1)) (outNode pq j)))
/-- A NaN is taken as 0.0. -/
def noNaN (x : Nat) : Nat := if isNaN32 x then 0 else x
/-- M2: BT.2020 to BT.709 primaries, a NaN output taken as 0.0 (09 R328). -/
def to709 (p : List Nat) : List Nat :=
  [noNaN (dot3 16605 (-5876) (-728) p), noNaN (dot3 (-1246) 11329 (-83) p), noNaN (dot3 (-182) (-1006) 11187 p)]
/-- R', G', B' of a finished pixel of FP16 patterns (09 R328). -/
def primed (pq : Bool) (px : List Nat) : List Nat :=
  let p := (px.take 3).map (fun v => noNaN (h2f v))
  if pq then p.map (fun v => outTable true (sqrt32 (clamp32 0 one32 (mul32 v (ratio32 1 100)))))
  else (to709 p).map (fun v => outTable false (sqrt32 (clamp32 0 one32 v)))
/-- Kr, Kg, Kb, cb and cr in ten-thousandths' terms, each rounded once to FP32 (09 R329). -/
def kCoeffs (pq : Bool) : List Nat :=
  let kr := if pq then 2627 else 2126
  let kb := if pq then 593 else 722
  [ratio32 kr 10000, ratio32 (10000 - kr - kb) 10000, ratio32 kb 10000, ratio32 10000 (2 * (10000 - kb)).toNat, ratio32 10000 (2 * (10000 - kr)).toNat]
/-- Y', Cb' and Cr' of R', G', B'. -/
def yccOf (pq : Bool) (p : List Nat) : List Nat :=
  let k := kCoeffs pq
  let c := fun (i : Nat) => p.getD i 0
  let y := add32 (add32 (mul32 (k.getD 0 0) (c 0)) (mul32 (k.getD 1 0) (c 1))) (mul32 (k.getD 2 0) (c 2))
  [y, mul32 (sub32 (c 2) y) (k.getD 3 0), mul32 (sub32 (c 0) y) (k.getD 4 0)]
/-- RNE_int clamped to an n-bit code. -/
def outCode (n x : Nat) : Nat := (clampI 0 (2 ^ n - 1 : Nat) (rneInt (unpack fFP32 x))).toNat
/-- The code of a luma value or a chroma value at n bits (09 R329). -/
def lumaCode (n y : Nat) : Nat := outCode n (add32 (mul32 y (int32f (219 * 2 ^ (n - 8) : Nat))) (int32f (16 * 2 ^ (n - 8) : Nat)))
def chromaCode (n c : Nat) : Nat := outCode n (add32 (mul32 c (int32f (224 * 2 ^ (n - 8) : Nat))) (int32f (128 * 2 ^ (n - 8) : Nat)))
/-- Bits per code of a format (09 R330). -/
def codeWidth (f : Nat) : Nat := if f = 0x01 ∨ f = 0x11 then 8 else 10
/-- The pixel of an image at a column and line; black where there is no image. -/
def pixelAt (m : Option Img) (x y : Nat) : List Nat :=
  match m with
  | some m => (m.data.drop ((y * m.w + x) * m.ch)).take m.ch
  | none => []
/-- Y', Cb', Cr' of a pixel of a shown image. -/
def yccAt (h : Bytes) (m : Option Img) (x y : Nat) : List Nat :=
  let pq := hbColour h == 1
  let p := pixelAt m x y
  yccOf pq (primed pq (if p.isEmpty then [0, 0, 0] else p))
/-- The luma code of a pixel. -/
def lumaAt (h : Bytes) (m : Option Img) (x y : Nat) : Nat := lumaCode (codeWidth (hbFormat h)) ((yccAt h m x y).getD 0 0)
/-- The Cb and Cr codes of the 2×2 group at column gx, row gy of the chroma plane. -/
def chromaAt (h : Bytes) (m : Option Img) (gx gy : Nat) : List Nat :=
  let v := fun (c dx dy : Nat) => (yccAt h m (2 * gx + dx) (2 * gy + dy)).getD c 0
  [1, 2].map (fun c =>
    chromaCode (codeWidth (hbFormat h)) (mul32 (add32 (add32 (v c 0 0) (v c 1 0)) (add32 (v c 0 1) (v c 1 1))) 0x3E800000))
/-- The codes of a pixel of a physical head's formats, in the order of 09 R340. -/
def pixelCodes (h : Bytes) (m : Option Img) (x y : Nat) : List Nat :=
  let n := codeWidth (hbFormat h)
  let pq := hbColour h == 1
  if hbFormat h = 0x13 then
    let p := yccAt h m x y
    [lumaCode n (p.getD 0 0), chromaCode n (p.getD 1 0), chromaCode n (p.getD 2 0)]
  else
    let p := pixelAt m x y
    (primed pq (if p.isEmpty then [0, 0, 0] else p)).map (fun c => outCode n (mul32 c (int32f (2 ^ n - 1 : Nat))))
/-- The bytes of a code in a slice line: one for NV12, a 16-bit sample with the code in bits [15:6] for P010. -/
def codeBytes (h : Bytes) (c : Nat) : Bytes := if hbFormat h = 0x02 then natLe 2 (c * 64) else natLe 1 c
/-- Y_PITCH (09 R332). -/
def yPitch (h : Bytes) : Nat := cdiv (hbWidth h * (if hbFormat h = 0x02 then 2 else 1)) 64 * 64

/-! ## Lines with what was delivered in time (09 R339) -/

/-- What of a line was read in time: pixels, and the last pixel delivered before the rest of it, column and line. -/
structure LineRead where
  got : Nat := 0
  last : Option (Nat × Nat) := none
  deriving DecidableEq, Repr
/-- Follow the lines of a slice from line a: pixels read in time of each, all where the list ends. -/
def readLines (w a : Nat) (got : List Nat) : Nat → Option (Nat × Nat) → List LineRead
  | 0, _ => []
  | n + 1, last =>
    let g := min w (got.headD w)
    let last' := if g = 0 then last else some (g - 1, a)
    { got := g, last := last' } :: readLines w (a + 1) (got.drop 1) n last'
/-- The codes that a physical head sends on an active line: its pixels as far as they were read in time, then the last pixel
delivered, or black where none of the frame has been (09 R339). -/
def sentLine (h : Bytes) (m : Option Img) (y : Nat) (r : LineRead) : List Nat :=
  (List.range (hbWidth h)).flatMap (fun x =>
    if x < r.got then pixelCodes h m x y else match r.last with
      | some (px, py) => pixelCodes h m px py
      | none => pixelCodes h none 0 0)
/-- The luma bytes of a line, padded to the pitch. -/
def lumaLine (h : Bytes) (m : Option Img) (y : Nat) (r : LineRead) : Bytes :=
  let at_ := fun (x : Nat) => if x < r.got then lumaAt h m x y else match r.last with
    | some (px, py) => lumaAt h m px py
    | none => lumaAt h none 0 0
  fit (yPitch h) ((List.range (hbWidth h)).flatMap (fun x => codeBytes h (at_ x)))
/-- The chroma bytes of a row of groups over two lines: a group with a pixel not delivered takes the codes of the group of
the last delivered pixel of the first of its lines that lacks one. -/
def chromaLine (h : Bytes) (m : Option Img) (gy : Nat) (r0 r1 : LineRead) : Bytes :=
  let pad := fun (r : LineRead) => match r.last with
    | some (px, py) => chromaAt h m (px / 2) (py / 2)
    | none => chromaAt h none 0 0
  let at_ := fun (gx : Nat) =>
    if r0.got < 2 * gx + 2 then pad r0 else if r1.got < 2 * gx + 2 then pad r1 else chromaAt h m gx gy
  fit (yPitch h) ((List.range (hbWidth h / 2)).flatMap (fun gx => (at_ gx).flatMap (codeBytes h)))
/-- The luma lines and then the chroma lines of a slice from line a. -/
def sliceLines (h : Bytes) (m : Option Img) (a : Nat) (rs : List LineRead) : Bytes :=
  (List.range rs.length).flatMap (fun i => lumaLine h m (a + i) (rs.getD i {})) ++
  (List.range (rs.length / 2)).flatMap (fun k => chromaLine h m (a / 2 + k) (rs.getD (2 * k) {}) (rs.getD (2 * k + 1) {}))

/-! ## Slices and signature -/

/-- Slices of a whole frame, and the lines of slice k. -/
def fullSlices (h : Bytes) : Nat := cdiv (hbHeight h) (hbSlice h)
def sliceHeight (h : Bytes) (k : Nat) : Nat := min (hbSlice h) (hbHeight h - k * hbSlice h)
/-- The signature of a shown image (09 R340). -/
def signatureOf (h : Bytes) (m : Img) : Nat :=
  if 1024 ≤ hbHead h then
    crc32 ((List.range (hbWidth h * hbHeight h)).flatMap (fun i =>
      (pixelCodes h (some m) (i % hbWidth h) (i / hbWidth h)).flatMap (natLe 2)))
  else
    crc32 ((List.range (fullSlices h)).flatMap (fun k =>
      let a := k * hbSlice h
      let n := sliceHeight h k
      (List.range n).flatMap (fun i => (List.range (hbWidth h)).flatMap (fun x => codeBytes h (lumaAt h (some m) x (a + i)))) ++
      (List.range (n / 2)).flatMap (fun r =>
        (List.range (hbWidth h / 2)).flatMap (fun gx => (chromaAt h (some m) gx (a / 2 + r)).flatMap (codeBytes h)))))

end Sys2Proof.Machine
end

