-- ==== Sys2Proof/Machine/Heads.lean ====
section
/-!
DEFINITION. Heads: the head block and its checks, HEAD_CONFIG, HEAD_QUERY, TAP_CONFIG, DisplayPort links, HEAD_BIND and
HEAD_UNBIND (09 R319–R324, R336–R338, R344; 11 R401).
-/
namespace Sys2Proof.Machine

/-! ## The head block (09 R319, Table 9-1; 11 Table 11-9) -/

/-- A PERIOD in range. -/
def periodOk (p : Nat) : Bool := decide (6553600000 ≤ p) && decide (p ≤ 6553600000000)
/-- A DisplayPort link rate code. -/
def rateOk (r : Nat) : Bool := (decide (1 ≤ r) && decide (r ≤ 4)) || (decide (0x11 ≤ r) && decide (r ≤ 0x13))
/-- Reserved bytes of a head block, each failing at its own offset. -/
def hbReserved (b : Bytes) (off n : Nat) : List (Bool × Nat) := (List.range n).map (fun i => (fld b (off + i) 1 != 0, off + i))
/-- The checks of the fields below 0x14, in order; `mine` says whether the head is one of the function's ward. -/
def hbLow (mine : Bool) (b : Bytes) : List (Bool × Nat) :=
  let phys := decide (1024 ≤ hbHead b)
  [(fld b 0 1 != 1, 0x00), (!([0x01, 0x02, 0x11, 0x12, 0x13].contains (hbFormat b)), 0x01),
   (decide (1 < hbColour b) || (hbColour b == 1 && !([0x02, 0x12, 0x13].contains (hbFormat b))), 0x02),
   (decide (31 < hbFlags b), 0x03),
   (decide (1025 < hbHead b) || !mine || phys != decide (0x11 ≤ hbFormat b)
      || (if phys then hbHeaderOnly b || hbHinge b else hbDsc b), 0x04)]
  ++ hbReserved b 0x06 2 ++
  [(decide (hbWidth b < 64) || decide (8192 < hbWidth b) || hbWidth b % 2 != 0, 0x08),
   (decide (hbHeight b < 64) || decide (8192 < hbHeight b) || hbHeight b % 2 != 0, 0x0A),
   (if phys then hbVtField b != 0 else decide (hbVtField b ≤ hbHeight b), 0x0C),
   (decide (hbLead b < 4) || decide (1023 < hbLead b), 0x0E),
   (if phys then hbSlice b != 0 else decide (hbSlice b < 2) || decide (hbHeight b < hbSlice b) || hbSlice b % 2 != 0, 0x10)]
  ++ hbReserved b 0x13 1
/-- The checks of the blanking and the head times. -/
def hbMid (b : Bytes) : List (Bool × Nat) :=
  let phys := decide (1024 ≤ hbHead b)
  (List.range 6).map (fun i =>
    let v := hbBlank b i
    (if phys then v == 0 || decide (4095 < v) || (i == 2 && decide (16384 < hbHt b)) else v != 0, 0x14 + 2 * i))
  ++ [(if phys then hbPeriodField b != 0 else !periodOk (hbPeriodField b), 0x20),
      (if hbVrr b then !periodOk (hbMinPeriod b) else hbMinPeriod b != 0, 0x28),
      (if hbVrr b then !periodOk (hbMaxPeriod b) || decide (hbMaxPeriod b < hbMinPeriod b) else hbMaxPeriod b != 0, 0x30),
      (if hbGenlock b then !phys && decide (hbPeriod b ≤ hbOffset b) else hbOffset b != 0, 0x38)]
/-- The checks of the link, the compression and the destination. -/
def hbHigh (b : Bytes) : List (Bool × Nat) :=
  let phys := decide (1024 ≤ hbHead b)
  let ring := !phys && !hbHinge b
  [(if phys then decide (hbPixClock b < 4194304) || decide (402653184 < hbPixClock b) || (hbGenlock b && decide (hbPeriod b ≤ hbOffset b))
    else hbPixClock b != 0, 0x40),
   (if phys then !rateOk (hbRate b) else hbRate b != 0, 0x44),
   (if phys then !([1, 2, 4].contains (hbLanes b)) else hbLanes b != 0, 0x45),
   (if hbDsc b then decide (hbDscBpp b < 128) || decide (192 < hbDscBpp b) else hbDscBpp b != 0, 0x46),
   (if hbDsc b then !([1, 2, 4, 8, 16].contains (hbDscSlices b)) else hbDscSlices b != 0, 0x47),
   (if hbDsc b then decide (hbDscHeight b < 8) || decide (108 < hbDscHeight b) || hbHeight b % hbDscHeight b != 0 else hbDscHeight b != 0, 0x48)]
  ++ hbReserved b 0x4A 6 ++
  [(if ring then hbRingBase b % 4096 != 0 else hbRingBase b != 0, 0x50),
   (if ring then hbProducer b % 4 != 0 else hbProducer b != 0, 0x58),
   (if phys then hbEntryBytes b != 0
    else hbEntryBytes b % 4096 != 0 || decide (hbEntryBytes b < 64 + 3 * yPitch b * hbSlice b / 2), 0x60),
   (if phys then hbEntryCount b != 0 else decide (hbEntryCount b < 2) || decide (4096 < hbEntryCount b), 0x64)]
  ++ hbReserved b 0x66 2 ++
  [(if !phys && hbHinge b then !subMask (hbHingeDest b) 0x03FF0FFF else hbHingeDest b != 0, 0x68)]
  ++ hbReserved b 0x6C 20
/-- The offset of the first field of a head block that fails, each with reason VALUE. -/
def headBlockBad (mine : Bool) (b : Bytes) : Option Nat := ((hbLow mine b ++ hbMid b ++ hbHigh b).find? (fun x => x.1)).map (·.2)
/-- A head belongs to a ward (10 R345). -/
def headInWard (s : State) (wd h : Nat) : Bool := decide (h ≤ 1025) && (wardOf s wd).cfg.headMask.testBit h
/-- The active size, format or colour of a bound head differ from its present ones (09 R320). -/
def fixedChanged (h : Head) (b : Bytes) : Bool :=
  h.ctx.isSome && ((headCfg h).map (fun o =>
    hbWidth o != hbWidth b || hbHeight o != hbHeight b || hbFormat o != hbFormat b || hbColour o != hbColour b)).getD false
/-- The shared resource of 10 Table 10-7 that a head block would use a second time. -/
def headConflict (s : State) (b : Bytes) : Option Nat :=
  if hbHead b = 1025 ∧ s.tap.isSome then some 0x01
  else if hbGenlock b ∧ s.perf.externalOn then some 0x02
  else none

/-! ## Function events of a head -/

/-- The function of a head's ward; the PF for a head of no ward. -/
def headFn (s : State) (h : Nat) : Nat :=
  ((List.range 16).find? (fun w => (wardOf s w).cfg.headMask.testBit h)).getD 0
/-- LINK_CHANGE on the admin ring of the head's function, naming the bound context; a head without one posts no events
(09 R337, R344). -/
def postLink (head reason lanes rate : Nat) (s : State) : State :=
  match (headOf s head).ctx with
  | some slot =>
    postFnEvent (headFn s head) kLinkChange reason slot (slotOf s slot).gen (natLe 2 head ++ natLe 1 lanes ++ natLe 1 rate) s
  | none => s
/-- A trained link comes up. -/
def linkRise (head : Nat) (r : LinkResult) (s : State) : State :=
  let up := (headOf s head).linkUp
  let s1 := modHead head (fun h => { h with linkUp := true, lanes := r.lanes, rate := r.rate }) s
  if up then s1 else postLink head 0x01 r.lanes r.rate s1
/-- A link is lost. -/
def linkFall (head : Nat) (s : State) : State :=
  let h := headOf s head
  if h.linkUp then postLink head 0x02 h.lanes h.rate (modHead head (fun h => { h with linkUp := false }) s) else s

/-! ## HEAD_CONFIG (09 R320, R324, R337) -/

/-- Take up an accepted block: at once on a head that is not yet configured, whose timing starts here; otherwise at the next
period start. -/
def acceptHead (head : Nat) (b : Bytes) (s : State) : State :=
  modHead head (fun h =>
    if h.cfg.isSome then { h with pendingCfg := some b }
    else { h with cfg := some b, nextStart := nowHead s, sliceCredits := hbEntryCount b }) s
/-- Does a block turn on the VRR window of a physical head, whose sink must report Adaptive-Sync (09 Table 9-1)? -/
def asksSink (b : Bytes) : Bool := decide (1024 ≤ hbHead b) && hbVrr b
/-- The sink of a physical head with a VRR window reports no Adaptive-Sync: a free value, since no command carries the report; it is
asked for once the block's own fields have passed (09 Table 9-1; log 81). -/
def noAdaptive (s : State) (b : Bytes) : Bool := asksSink b && !(Config.freeWord s.free).toNat.testBit 0
/-- The free value of the sink's report is drawn. -/
def noteSink (b : Bytes) (s : State) : State := if asksSink b then { s with free := s.free + 1 } else s
/-- HEAD_CONFIG with its block read: a physical head first trains its link. -/
def headConfigGo (fn seq : Nat) (b : Bytes) (s0 : State) : State :=
  let r : RingRef := .admin fn
  let head := hbHead b
  let s := noteSink b s0
  match (headBlockBad (headInWard s0 fn head) b).orElse (fun _ => if noAdaptive s0 b then some 0x03 else none) with
  | some off => complete r seq kBadConfig ccValue (natLe 4 off) s
  | none =>
    if fixedChanged (headOf s head) b then fail r seq kBadState 0x02 s
    else
      match headConflict s b with
      | some k => fail r seq kConflict k s
      | none =>
        if 1024 ≤ head then modCmd r seq (fun c => { c with started := true, block := b, aux := head }) s
        else completeOk r seq (natLe 4 0) (acceptHead head b s)
/-- HEAD_CONFIG. -/
def execHeadConfig (fn seq : Nat) (s : State) : Out :=
  need (readyCmd (.admin fn) seq 0x08 s) "the command is not ready" (fun c =>
    guardThat (!c.started) "the link is being trained" (.next (headConfigGo fn seq (hostRead s (entAddr0 c.entry) 128) s)))
/-- The HEAD_CONFIG that waits for a head's link: its function and command. -/
def trainingCmd (s : State) (head : Nat) : Option (Nat × Cmd) :=
  (List.range 16).findSome? (fun fn =>
    ((fnOf s fn).ring.cmds.find? (fun c => c.started && entOpcode c.entry == 0x08 && c.aux == head)).map (fun c => (fn, c)))
/-- The training that a HEAD_CONFIG began ends; what another command has bound or taken since is tested again. -/
def trainingEnd (head fn : Nat) (c : Cmd) (q : LinkResult) (s : State) : State :=
  let r : RingRef := .admin fn
  match headConflict s c.block with
  | some k => fail r c.seq kConflict k s
  | none =>
    if fixedChanged (headOf s head) c.block then fail r c.seq kBadState 0x02 s
    else if q.ok then completeOk r c.seq (natLe 4 1) (linkRise head q (acceptHead head c.block s))
    else complete r c.seq kBadConfig ccLink (natLe 4 0x44) (linkFall head s)
/-- DP_LINK_TRAINING_END. -/
def execDpLinkTrainingEnd (head : Nat) (result : LinkResult) (s : State) : Out :=
  guardThat (keeperServes s) "the Keeper serves no command"
    (need (trainingCmd s head) "no link is being trained" (fun x => .next (trainingEnd head x.1 x.2 result s)))
/-- DP_HOT_PLUG: a sink appears on a configured physical head without a link, and the link is trained again. -/
def execDpHotPlug (head : Nat) (result : LinkResult) (s : State) : Out :=
  guardThat (decide (1024 ≤ head) && decide (head ≤ 1025) && (headOf s head).cfg.isSome && !(headOf s head).linkUp)
    "the head has no link to train"
    (if result.ok then .next (linkRise head result s) else .next s)
/-- DP_LINK_LOSS. -/
def execDpLinkLoss (head : Nat) (s : State) : Out := guardThat (headOf s head).linkUp "the link is down" (.next (linkFall head s))
/-- HEAD_QUERY: EDID and DPCD as the sink gives them; a query that finds no sink on a link that is up has seen its loss. -/
def headQueryGo (fn seq : Nat) (c : Cmd) (sink : Bool) (edid dpcd : Bytes) (s : State) : State :=
  let head := entArg c.entry 0
  if !headInWard s fn head then fail (.admin fn) seq kBadState 0x03 s
  else
    let s1 := hostWrite (entAddr0 c.entry) (fit 512 edid ++ fit 512 dpcd) s
    let there := sink && decide (1024 ≤ head)
    completeOk (.admin fn) seq (natLe 4 (b2n there)) (if there then s1 else linkFall head s1)
/-- HEAD_QUERY. -/
def execHeadQuery (fn seq : Nat) (sink : Bool) (edid dpcd : Bytes) (s : State) : Out :=
  command (.admin fn) seq 0x09 s (fun c s => headQueryGo fn seq c sink edid dpcd s)

/-! ## The monitoring tap (09 R338) -/

/-- TAP_CONFIG: the tap takes the PHY of DP head 1, which must not be configured. -/
def tapConfigGo (fn seq : Nat) (c : Cmd) (s : State) : State :=
  let r : RingRef := .admin fn
  let arg := entArg c.entry 0
  let b := hostRead s (entAddr0 c.entry) 128
  if arg < 2 ^ 31 then completeOk r seq [] { s with tap := none }
  else if 1024 ≤ arg % 2048 then fail r seq kBadState 0x03 s
  else
    match (if hbHead b ≠ 1025 then some 0x04 else headBlockBad true b) with
    | some off => complete r seq kBadConfig ccValue (natLe 4 off) s
    | none =>
      if (headOf s 1025).cfg.isSome then fail r seq kConflict 0x01 s
      else completeOk r seq [] { s with tap := some { head := arg % 2048, cfg := b, nextStart := nowHead s } }
/-- TAP_CONFIG. -/
def execTapConfig (fn seq : Nat) (s : State) : Out := command (.admin fn) seq 0x0A s (fun c s => tapConfigGo fn seq c s)

/-! ## Binding (09 R319, R324, R344; 10 R354, R384, R547) -/

/-- The reference instant of a binding, in head units. -/
def referenceInstant (s : State) (h : Head) (b : Bytes) (first : Nat) : Nat :=
  let p := headInterval b
  let base := if first = 0 then h.nextStart else first * 65536
  let least := cdiv (s.now * 65536) 60 + p
  base + (if base < least then cdiv (least - base) p * p else 0)
/-- The refusal of a binding that breaks 10 R547 or the size of 01 Table 1-1: the offset that its RESULT carries. -/
def headBindBad (s : State) (x : Ctx) (b : Bytes) : Option Nat :=
  if allotted (groupMask s x.ward x.cfg) = 0 then some 0x002
  else if cbFeMask x.cfg = 0 then some 0x004
  else if (wardOf s x.ward).cfg.ingest = 0 then some 0xFFFFFFFF
  else if hbWidth b ≠ cbWidth x.cfg ∨ hbHeight b ≠ cbHeight x.cfg then some 0x00A
  else none
/-- The head as a binding leaves it: counters, signature, run and bits [11:7] cleared (09 R344). -/
def boundHead (slot gen ref inst : Nat) (b : Bytes) (h : Head) : Head :=
  { h with
    ctx := some slot, ctxSlot := slot, gen := gen, refFrame := ref, refInstant := inst, boundFrame := ref, begun := false, store := none
    shown := .nothing, isRepeat := false, everBlack := false, nextDeadline := BitVec.ofNat 64 (tbOfHead inst)
    signature := 0, sigFrame := 0, ringDrops := 0, skips := 0, repeats := 0, misses := 0, underruns := 0
    freezeRun := 0, freezePosted := false, prevShown := none, wrapped := false, ringFull := false, freeze := false
    underrun := false, miss := false, fresh := 0, unbindSeq := none, sliceCredits := hbEntryCount b }
/-- HEAD_BIND. -/
def headBindGo (slot seq : Nat) (c : Cmd) (x : Ctx) (s : State) : State :=
  let r : RingRef := .ctx slot
  let head := entArg c.entry 0
  let h := headOf s head
  match (if headInWard s x.ward head then headCfg h else none) with
  | none => fail r seq kBadState 0x03 s
  | some b =>
    if h.ctx.isSome ∨ x.head.isSome then fail r seq kConflict 0x07 s
    else if cbClassBE x.cfg ∧ groupConflict s { ctxEnv s slot x with head := some head } x.cfg then fail r seq kConflict 0x06 s
    else if !cbReplay x.cfg ∧ s.perf.timerOn ∧ s.perf.head = head then fail r seq kConflict 0x03 s
    else
      match headBindBad s x b with
      | some off => complete r seq kBadConfig ccValue (natLe 4 off) s
      | none =>
        let ref := x.fr.nextNumber
        let inst := referenceInstant s h b (entAddr1 c.entry)
        completeOk r seq (natLe 4 ref)
          (modCtx slot (fun y => { y with head := some head, fr := { y.fr with cut := false, fresh := true } })
            (modHead head (boundHead slot x.gen ref inst b) s))
/-- HEAD_BIND. -/
def execHeadBind (slot seq : Nat) (s : State) : Out := ctxCommand slot seq 0x2A s (fun c x s => headBindGo slot seq c x s)
/-- HEAD_UNBIND: it waits for the head's next scan-out start (09 R321). -/
def execHeadUnbind (slot seq : Nat) (s : State) : Out :=
  need (readyCmd (.ctx slot) seq 0x2B s) "the command is not ready" (fun c =>
    guardThat (!c.started) "the unbinding waits for the next scan-out start"
      (match (ctxOf s slot).bind (·.head) with
       | none => .next (fail (.ctx slot) seq kBadState 0x01 s)
       | some head =>
         .next (modHead head (fun h => { h with unbindSeq := some seq }) (modCmd (.ctx slot) seq (fun c => { c with started := true }) s))))

end Sys2Proof.Machine
end

