-- ==== Sys2Proof/Machine/Functions.lean ====
section
/-!
DEFINITION. Functions: function-level resets and the link reset, VF Enable, power states, the heartbeat, and improper BAR0
accesses (11 R387, R389, R411, R412; 16 R504, R506, R520; 10 R345).
-/
namespace Sys2Proof.Machine

/-- Configuration requests are answered: the configuration-ready instant has come and the device is not in reset (16 R508). -/
def configOpen (s : State) : Bool := s.boot.decoded && s.boot.power && !s.boot.perst
/-- The device is out of reset (16 R505). -/
def outOfReset (s : State) : Bool := s.boot.power && !s.boot.perst

/-- Records and doorbells that a firmware switch holds for an admin ring go with the ring. -/
def dropHeldAdmin (fn : Nat) (s : State) : State :=
  { s with fw := { s.fw with
      heldRecs := s.fw.heldRecs.filter (fun r => r.1 != .admin fn)
      heldDoorbells := s.fw.heldDoorbells.filter (fun d => d.1 != .admin fn) } }
/-- An FLR of a VF: a ward reset, with the admin registers, the aperture and the interrupt table at their reset values; the
error registers stay (11 R411; log 37). -/
def flrVf (fn : Nat) (s : State) : State :=
  dropHeldAdmin fn (modFn fn (fun f =>
    { errStatus := f.errStatus, errFresh := f.errFresh, errMask := f.errMask, errInfo := f.errInfo, d3hot := f.d3hot }) (resetWard fn s))
/-- The MG_ and HG_ fields of the PF's registers go to their reset values; the repair block stays (16 Table 16-1; log 37). -/
def resetPfRegs (s : State) : State :=
  { s with
    perf := {}
    op := { s.op with repeatable := false, powerLimit := if s.part = .bkz2048 then 400 else 260, tHigh := 105,
                      causes := 0, causesFresh := 0, changes := 0, tempPeak := none, powerPeak := 0 }
    hinge := { s.hinge with
      reroutes := 0
      ports := s.hinge.ports.map (fun p =>
        { p with txFlits := 0, rxFlits := 0, replays := 0, crcErrors := 0, discards := 0, retrains := 0,
                 wrapped := false, degraded := false, dupId := false, downEvent := false, fresh := 0 }) } }
/-- An FLR of the PF (11 R411): every context torn down, every ward unconfigured and its key destroyed, VF Enable cleared,
the PF's registers at their reset values. Phipel keeps running, and one that had stopped runs again (11 R412). -/
def flrPf (s : State) : State :=
  let s1 := (List.range 16).foldl (fun s w => teardownWard w s) s
  let s2 := resetPfRegs { s1 with
    wards := List.replicate 16 {}, heads := [], tap := none, vfs := 0, fns := List.replicate 16 {}
    fw := { s1.fw with
      heldRecs := s1.fw.heldRecs.filter (fun r => match r.1 with | .ctx _ => true | .admin _ => false)
      heldDoorbells := [], byCommand := none, heartbeat := 0 } }
  if s2.fw.ready && !s2.fw.running then { s2 with fw := { s2.fw with running := true, beatAt := s2.now } } else s2
/-- FLR_VF. -/
def execFlrVf (fn : Nat) (s : State) : Out :=
  if configOpen s && fn != 0 && fnExists s fn then .next (flrVf fn s) else .next s
/-- FLR_PF. -/
def execFlrPf (s : State) : Out := if configOpen s then .next (flrPf s) else .next s

/-- A link reset has the effect of an FLR of the PF (16 R504). -/
def linkResetNow (s : State) : State :=
  let s1 := flrPf s
  { s1 with boot := { s1.boot with lastCause := 4, linkResetWaits := false } }
/-- LINK_RESET: it waits for a firmware switch to end (16 R506). -/
def execLinkReset (s : State) : Out :=
  if !outOfReset s then .next s
  else if s.fw.switching then .next { s with boot := { s.boot with linkResetWaits := true } }
  else .next (linkResetNow s)

/-- VF_ENABLE: the number of VFs; those that go are reset first (10 R345; log 38). -/
def execVfEnable (count : Nat) (s : State) : Out :=
  if configOpen s then
    let gone := (List.range 16).filter (fun v => decide (count < v) && decide (v ≤ s.vfs))
    let s1 := gone.foldl (fun s v => modFn v (fun _ => {}) (flrVf v s)) s
    .next { s1 with vfs := min count 15 }
  else .next s

/-- D3HOT_ENTRY: an FLR of the function, which then takes nothing until D0 (16 R520). -/
def execD3hotEntry (fn : Nat) (s : State) : Out :=
  if configOpen s && fnExists s fn then
    .next (modFn fn (fun f => { f with d3hot := true }) (if fn = 0 then flrPf s else flrVf fn s))
  else .next s
/-- D0_RETURN. -/
def execD0Return (fn : Nat) (s : State) : Out :=
  if configOpen s && fnExists s fn then .next (modFn fn (fun f => { f with d3hot := false }) s) else .next s

/-- KEEPER_HEARTBEAT: one count per 100,000 TB cycles while Phipel runs; it pauses during a switch (11 Table 11-5; 15 R495). -/
def execKeeperHeartbeat (s : State) : Out :=
  guardThat (s.fw.running && !s.fw.switching && decide (s.fw.beatAt + rootOfTb 100000 ≤ s.now)) "no heartbeat is due"
    (.next { s with fw := { s.fw with heartbeat := s.fw.heartbeat + 1, beatAt := s.fw.beatAt + rootOfTb 100000 } })

/-- BAR0_IMPROPER_ACCESS: it reads as zero or is ignored, and sets HOST_DMA (11 R387). -/
def execBar0ImproperAccess (fn : Nat) (write : Bool) (s : State) : Out :=
  if barsOpen s fn then
    .next (raiseHostDma fn 0 (if write then s else readBack (List.replicate 8 0) s))
  else .next s

end Sys2Proof.Machine
end

