-- ==== Sys2Proof/Machine/Raster.lean ====
section
/-!
DEFINITION. The arithmetic of the geometry pass: transforms, projection and depth (06 R217, R218), primitives and clipping
(06 R219–R222), coverage and interpolation (06 R223, R224), and the forward splat (06 R244).
-/
namespace Sys2Proof.Machine

/-! ## Transforms and projection (06 R218) -/

/-- A point of three FP32 patterns. -/
structure P3 where
  x : Nat := 0
  y : Nat := 0
  z : Nat := 0
  deriving DecidableEq, Repr
/-- A point through a 3 × 4 matrix. -/
def xform (m : List Nat) (p : P3) : P3 :=
  let row := fun (r : Nat) =>
    let e := fun (k : Nat) => m.getD (4 * r + k) 0
    add32 (add32 (add32 (mul32 (e 0) p.x) (mul32 (e 1) p.y)) (mul32 (e 2) p.z)) (e 3)
  { x := row 0, y := row 1, z := row 2 }
def camFx (c : Camera) : Nat := c.proj.getD 0 0
def camFy (c : Camera) : Nat := c.proj.getD 1 0
def camCx (c : Camera) : Nat := c.proj.getD 2 0
def camCy (c : Camera) : Nat := c.proj.getD 3 0
def camNear (c : Camera) : Nat := c.proj.getD 4 0
def camFar (c : Camera) : Nat := c.proj.getD 5 0
/-- The projected position of a view-space point. -/
def projectPx (c : Camera) (p : P3) : Nat × Nat :=
  (add32 (mul32 (camFx c) (div32 p.x p.z)) (camCx c), add32 (mul32 (camFy c) (div32 p.y p.z)) (camCy c))
/-- The depth of a view-space Z. -/
def depthAt (c : Camera) (reversed : Bool) (z : Nat) : Nat :=
  let fn := sub32 (camFar c) (camNear c)
  if reversed then div32 (mul32 (camNear c) (sub32 (camFar c) z)) (mul32 z fn)
  else div32 (mul32 (camFar c) (sub32 z (camNear c))) (mul32 z fn)

/-! ## Primitives (06 R219–R222) -/

/-- A clipped vertex: view-space position and motion. -/
structure GV where
  p : P3 := {}
  mx : Nat := 0
  my : Nat := 0
  deriving DecidableEq, Repr
/-- What setup reads: the mesh, the transforms and cameras of this and the previous output frame, and the frame's size. -/
structure RasterIn where
  mesh : Mesh := {}
  objs : Table (List Nat) := []
  prevObjs : Table (List Nat) := []
  cam : Camera := {}
  prevCam : Camera := {}
  reversed : Bool := false
  w : Nat := 1
  h : Nat := 1
/-- Source triangles of a mesh. -/
def meshTris (m : Mesh) : Nat := sumL (m.objects.map (·.tris))
/-- The object of a source triangle, and the triangle's number within it. -/
def objectOfTri : List MeshObject → Nat → Option (MeshObject × Nat)
  | [], _ => none
  | o :: r, seq => if seq < o.tris then some (o, seq) else objectOfTri r (seq - o.tris)
/-- The local position of a vertex. -/
def vertexAt (m : Mesh) (i : Nat) : P3 := let v := m.verts.getD i (0, 0, 0); { x := v.1, y := v.2.1, z := v.2.2 }
/-- The three vertices of a source triangle in view space with their motion (06 R220). -/
def sourceTri (r : RasterIn) (o : MeshObject) (t : Nat) : List GV :=
  let cur := tgetD r.objs o.id o.transform
  let old := (tget r.prevObjs o.id).getD cur
  let ps := (List.range 3).map (fun k => vertexAt r.mesh (r.mesh.indices.getD (o.first + 3 * t + k) 0))
  let now := ps.map (fun p => xform r.cam.view (xform cur p))
  let was := ps.map (fun p => xform r.prevCam.view (xform old p))
  let wasPx := was.map (projectPx r.prevCam)
  let still := was.any (fun p => lt32 p.z (camNear r.prevCam)) || wasPx.any (fun q => !isFin32 q.1 || !isFin32 q.2)
  List.zipWith (fun p q => let a := projectPx r.cam p
                           if still then { p := p } else { p := p, mx := sub32 a.1 q.1, my := sub32 a.2 q.2 }) now wasPx
/-- 32,768 in FP32, the guard band. -/
def guardBand : Nat := 0x47000000
/-- Distances to the five clip planes in their order. -/
def planeDist (r : RasterIn) (k : Nat) (p : P3) : Nat :=
  let c := r.cam
  match k with
  | 0 => sub32 p.z (camNear c)
  | 1 => add32 (mul32 (camFx c) p.x) (mul32 (add32 (camCx c) guardBand) p.z)
  | 2 => sub32 (mul32 (sub32 (add32 (int32f r.w) guardBand) (camCx c)) p.z) (mul32 (camFx c) p.x)
  | 3 => add32 (mul32 (camFy c) p.y) (mul32 (add32 (camCy c) guardBand) p.z)
  | _ => sub32 (mul32 (sub32 (add32 (int32f r.h) guardBand) (camCy c)) p.z) (mul32 (camFy c) p.y)
/-- A point of an edge at parameter t, component by component. -/
def gvMix (t : Nat) (a b : GV) : GV :=
  let m := fun (x y : Nat) => add32 x (mul32 t (sub32 y x))
  { p := { x := m a.p.x b.p.x, y := m a.p.y b.p.y, z := m a.p.z b.p.z }, mx := m a.mx b.mx, my := m a.my b.my }
/-- One polygon against one plane: its edges in order. -/
def clipPlane (dist : P3 → Nat) (poly : List GV) : List GV :=
  (poly.zip (poly.drop 1 ++ poly.take 1)).flatMap (fun e =>
    let da := dist e.1.p; let db := dist e.2.p
    let ia := le32 0 da; let ib := le32 0 db
    (if ia then [e.1] else []) ++ (if ia != ib then [gvMix (div32 da (sub32 da db)) e.1 e.2] else []))
/-- A source triangle clipped against the five planes. -/
def clipTri (r : RasterIn) (poly : List GV) : List GV := (List.range 5).foldl (fun poly k => clipPlane (planeDist r k) poly) poly
/-- A position snapped to 1/256 of a pixel; the integer of one that is not finite is open (log 2). -/
def snap (px : Nat) : Int :=
  let v := mul32 px 0x43800000
  if isFin32 v then rneInt (unpack fFP32 v) else Config.snapOpen (BitVec.ofNat 32 v)
def listMin (l : List Int) : Int := (l.drop 1).foldl min (l.headD 0)
def listMax (l : List Int) : Int := (l.drop 1).foldl max (l.headD 0)
/-- Twice the signed area of three points. -/
def edgeFn (ax ay bx by_ px py : Int) : Int := (bx - ax) * (py - ay) - (by_ - ay) * (px - ax)
def SubTri.x (t : SubTri) (k : Nat) : Int := t.sx.getD k 0
def SubTri.y (t : SubTri) (k : Nat) : Int := t.sy.getD k 0
def SubTri.area (t : SubTri) : Int := edgeFn (t.x 0) (t.y 0) (t.x 1) (t.y 1) (t.x 2) (t.y 2)
/-- The pixels of an axis of n pixels whose centres lie in [lo, hi] of the snapped grid: first and one past the last. -/
def centreSpan (n : Nat) (lo hi : Int) : Nat × Nat :=
  ((max 0 ((lo + 127) / 256)).toNat, min n (max 0 ((hi - 128) / 256 + 1)).toNat)
def SubTri.cols (t : SubTri) (w : Nat) : Nat × Nat := centreSpan w (listMin t.sx) (listMax t.sx)
def SubTri.rows (t : SubTri) (h : Nat) : Nat × Nat := centreSpan h (listMin t.sy) (listMax t.sy)
/-- A sub-triangle as setup gives it (06 R222). -/
def subTri (r : RasterIn) (o : MeshObject) (key : Nat) (vs : List GV) : SubTri :=
  let px := vs.map (fun v => projectPx r.cam v.p)
  { key := key, obj := o.id, occluder := o.occluder, sx := px.map (fun q => snap q.1), sy := px.map (fun q => snap q.2),
    d := vs.map (fun v => depthAt r.cam r.reversed v.p.z), z := vs.map (·.p.z), mx := vs.map (·.mx), my := vs.map (·.my) }
/-- Is a sub-triangle kept (06 R222)? -/
def SubTri.kept (t : SubTri) (w h : Nat) : Bool :=
  t.area != 0 && decide ((t.cols w).1 < (t.cols w).2) && decide ((t.rows h).1 < (t.rows h).2)
/-- The sub-triangles of the source triangle of a sequence number. -/
def subTris (r : RasterIn) (seq : Nat) : List SubTri :=
  match objectOfTri r.mesh.objects seq with
  | none => []
  | some (o, t) =>
    let poly := clipTri r (sourceTri r o t)
    ((List.range (poly.length - 2)).map (fun i =>
      subTri r o (seq * 8 + i) [poly.getD 0 {}, poly.getD (i + 1) {}, poly.getD (i + 2) {}])).filter (fun t => t.kept r.w r.h)
/-- The bins that a sub-triangle's bounding box overlaps, clipped to the frame. -/
def binsOfSub (bx by_ : Nat) (t : SubTri) : List Nat :=
  let span := fun (n : Nat) (l : List Int) =>
    ((clampI 0 ((n : Int) - 1) (listMin l / 8192)).toNat, (clampI 0 ((n : Int) - 1) (listMax l / 8192)).toNat)
  let c := span bx t.sx; let r := span by_ t.sy
  (List.range (r.2 + 1 - r.1)).flatMap (fun j => (List.range (c.2 + 1 - c.1)).map (fun i => (r.1 + j) * bx + c.1 + i))

/-! ## Coverage and interpolation (06 R223, R224) -/

/-- A centre on the edge a→b, third vertex c, is covered: a top edge, or a left edge. -/
def edgeOwns (ax ay bx by_ cx cy : Int) : Bool :=
  if ay = by_ then decide (ay < cy)
  else
    let v := (cx - ax) * (by_ - ay) - (bx - ax) * (cy - ay)
    if ay < by_ then decide (0 < v) else decide (v < 0)
/-- The three edge functions at a pixel centre. -/
def SubTri.edges (t : SubTri) (px py : Nat) : List Int :=
  let cx : Int := 256 * px + 128; let cy : Int := 256 * py + 128
  [edgeFn (t.x 1) (t.y 1) (t.x 2) (t.y 2) cx cy, edgeFn (t.x 2) (t.y 2) (t.x 0) (t.y 0) cx cy, edgeFn (t.x 0) (t.y 0) (t.x 1) (t.y 1) cx cy]
/-- A sub-triangle covers a pixel. -/
def SubTri.covers (t : SubTri) (px py : Nat) : Bool :=
  let e := t.edges px py
  let a := t.area
  (List.range 3).all (fun k =>
    let v := e.getD k 0
    if v = 0 then
      let i := (k + 1) % 3; let j := (k + 2) % 3
      edgeOwns (t.x i) (t.y i) (t.x j) (t.y j) (t.x k) (t.y k)
    else decide (0 < v) == decide (0 < a))
/-- A fragment: its pixel, depth, l1 and l2, and motion. -/
structure Frag where
  px : Nat := 0
  py : Nat := 0
  d : Nat := 0
  l1 : Nat := 0
  l2 : Nat := 0
  mx : Nat := 0
  my : Nat := 0
  deriving DecidableEq, Repr
/-- The fragment of a sub-triangle at a pixel, if it covers it with a depth in [0, 1]. -/
def SubTri.frag (t : SubTri) (px py : Nat) : Option Frag :=
  if !t.covers px py then none
  else
    let e := t.edges px py
    let a := int32f t.area
    let l1 := div32 (int32f (e.getD 1 0)) a
    let l2 := div32 (int32f (e.getD 2 0)) a
    let l0 := sub32 (sub32 one32 l1) l2
    let g := fun (l : List Nat) (k : Nat) => l.getD k 0
    let d := add32 (add32 (mul32 l0 (g t.d 0)) (mul32 l1 (g t.d 1))) (mul32 l2 (g t.d 2))
    let w0 := div32 l0 (g t.z 0); let w1 := div32 l1 (g t.z 1); let w2 := div32 l2 (g t.z 2)
    let ws := add32 (add32 w0 w1) w2
    let m := fun (l : List Nat) => div32 (add32 (add32 (mul32 w0 (g l 0)) (mul32 w1 (g l 1))) (mul32 w2 (g l 2))) ws
    if le32 0 d && le32 d one32 then some { px := px, py := py, d := d, l1 := l1, l2 := l2, mx := m t.mx, my := m t.my } else none
/-- The fragments of a sub-triangle in a bin, in row-major order. -/
def fragsIn (w h bx : Nat) (t : SubTri) (bin : Nat) : List Frag :=
  let c := t.cols w; let r := t.rows h
  let x0 := max c.1 (32 * (bin % bx)); let x1 := min c.2 (32 * (bin % bx) + 32)
  let y0 := max r.1 (32 * (bin / bx)); let y1 := min r.2 (32 * (bin / bx) + 32)
  (List.range (y1 - y0)).flatMap (fun j => (List.range (x1 - x0)).filterMap (fun i => t.frag (x0 + i) (y0 + j)))
/-- A motion component as the plane holds it: FP16 with saturation on (03 Table 3-4). -/
def motionCode (m : Nat) : Nat := (convert fFP16 true (unpack fFP32 m)).code
/-- A depth is nearer than another in the frame's convention. -/
def nearer (reversed : Bool) (a b : Nat) : Bool := if reversed then lt32 b a else lt32 a b

/-! ## The forward splat (06 R244) -/

/-- The pixels that one static pixel of a rendered frame marks: columns [x0, x1) and rows [y0, y1). -/
def splatBox (cam dst : Camera) (reversed : Bool) (sx sy : Nat) (w h qx qy d : Nat) : Option (Nat × Nat × Nat × Nat) :=
  let near := camNear cam; let far := camFar cam
  let u := mul32 (add32 (int32f qx) half32) sx
  let v := mul32 (add32 (int32f qy) half32) sy
  let k := mul32 d (sub32 far near)
  let z := div32 (mul32 near far) (if reversed then add32 near k else sub32 far k)
  let x := div32 (mul32 (sub32 u (camCx cam)) z) (camFx cam)
  let y := div32 (mul32 (sub32 v (camCy cam)) z) (camFy cam)
  let m := fun (k : Nat) => cam.view.getD k 0
  let wc := fun (k : Nat) =>
    add32 (add32 (mul32 (m k) (sub32 x (m 3))) (mul32 (m (4 + k)) (sub32 y (m 7)))) (mul32 (m (8 + k)) (sub32 z (m 11)))
  let p := xform dst.view { x := wc 0, y := wc 1, z := wc 2 }
  let q := projectPx dst p
  if lt32 p.z (camNear dst) || !isFin32 q.1 || !isFin32 q.2 then none
  else
    let half := fun (s : Nat) => min32 (max32 (mul32 (mul32 half32 s) (div32 z p.z)) half32) 0x41000000
    let span := fun (n c hw : Nat) =>
      let first := fun (e : Nat) => clampI 0 n (-(floorFV (FV.neg (FV.add (unpack fFP32 e) (FV.neg (unpack fFP32 half32))))))
      ((first (sub32 c hw)).toNat, (first (add32 c hw)).toNat)
    let c := span w q.1 (half sx); let r := span h q.2 (half sy)
    some (c.1, c.2, r.1, r.2)
/-- Mark a box in a bit plane of width w. -/
def markBox (w : Nat) (b : Nat × Nat × Nat × Nat) (marks : Nat) : Nat :=
  (List.range (b.2.2.2 - b.2.2.1)).foldl (fun m j =>
    if b.1 < b.2.1 then m ||| ((2 ^ (b.2.1 - b.1) - 1) * 2 ^ ((b.2.2.1 + j) * w + b.1)) else m) marks

end Sys2Proof.Machine
end

