-- ==== Sys2Proof/Machine/Rays.lean ====
section
/-!
DEFINITION. Static-scene hierarchies and rays (06 R247–R250, Tables 6-4 to 6-7): the records, the checks at load, and the
traversal.
-/
namespace Sys2Proof.Machine

/-! ## The records -/

def hiRoot (b : Bytes) : Nat := fld b 36 4
def hiTriOff (b : Bytes) : Nat := fld b 28 4
def hiNodeOff (b : Bytes) : Nat := fld b 24 4
def hiTris (b : Bytes) : Nat := fld b 20 4
def hiNodes (b : Bytes) : Nat := fld b 16 4
def hiLength (b : Bytes) : Nat := fld b 12 4
/-- A child reference (06 Table 6-6). -/
def refType (r : Nat) : Nat := field r 31 30
def refNode (r : Nat) : Nat := field r 29 0
def refFirst (r : Nat) : Nat := field r 29 4
def refCount (r : Nat) : Nat := field r 3 0 + 1
/-- Word j of child c in group g of node n: groups 0–2 minima, 3–5 maxima, 6 child references. -/
def nodeWord (b : Bytes) (n g c : Nat) : Nat := fld b (hiNodeOff b + 128 * n + 16 * g + 4 * c) 4
def nodeChild (b : Bytes) (n c : Nat) : Nat := nodeWord b n 6 c
/-- Vertex k of triangle i, and its PRIM_ID. -/
def hiVertex (b : Bytes) (i k : Nat) : P3 :=
  let o := hiTriOff b + 48 * i + 12 * k
  { x := fld b o 4, y := fld b (o + 4) 4, z := fld b (o + 8) 4 }
def hiPrim (b : Bytes) (i : Nat) : Nat := fld b (hiTriOff b + 48 * i + 36) 4

/-! ## The checks at load (06 R249) -/

/-- 0x01 HEADER. -/
def hierHeaderOk (b : Bytes) (len : Nat) : Bool :=
  let no := hiNodeOff b; let ne := no + 128 * hiNodes b
  let to_ := hiTriOff b; let te := to_ + 48 * hiTris b
  fld b 0 4 == 0x56484B42 && fld b 4 1 == 1 && hiLength b == len && decide (hiNodes b ≤ 4194304) && decide (1 ≤ hiTris b)
    && decide (hiTris b ≤ 16777216) && no % 64 == 0 && to_ % 64 == 0 && decide (64 ≤ no) && decide (64 ≤ to_)
    && decide (ne ≤ len) && decide (te ≤ len) && (decide (ne ≤ to_) || decide (te ≤ no))
/-- The child references of every node, and the root. -/
def hierRefs (b : Bytes) : List Nat := hiRoot b :: (List.range (hiNodes b)).flatMap (fun n => (List.range 4).map (nodeChild b n))
/-- 0x02 RANGE of one reference. -/
def refInRange (b : Bytes) (r : Nat) : Bool :=
  match refType r with
  | 1 => decide (refNode r < hiNodes b)
  | 2 => decide (refFirst r + refCount r ≤ hiTris b)
  | _ => true
/-- The node references among a list. -/
def nodeRefs (l : List Nat) : List Nat := (l.filter (fun r => refType r == 1)).map refNode
/-- Nodes by level from the root: one level gives the next. -/
def nextLevel (b : Bytes) (l : List Nat) : List Nat := l.flatMap (fun n => nodeRefs ((List.range 4).map (nodeChild b n)))
/-- The nodes reached within k levels. -/
def reached (b : Bytes) : Nat → List Nat → List Nat
  | 0, l => l
  | k + 1, l => l ++ reached b k (nextLevel b l)
/-- 0x03 TREE: each node is referenced once, and reached from the root. A tree of n nodes has at most n levels. -/
def hierTreeOk (b : Bytes) : Bool :=
  let all := nodeRefs (hierRefs b)
  let n := hiNodes b
  decide (all.length = n) && (List.range n).all (fun k => all.count k == 1) && decide ((reached b n (nodeRefs [hiRoot b])).length = n)
/-- Levels below a list of nodes, at most k. -/
def levelsBelow (b : Bytes) : Nat → List Nat → Nat
  | 0, _ => 0
  | k + 1, l => if l.isEmpty then 0 else 1 + levelsBelow b k (nextLevel b l)
/-- 0x05 VALUE. -/
def hierValuesOk (b : Bytes) : Bool :=
  (List.range (hiNodes b)).all (fun n => (List.range 4).all (fun c =>
    refType (nodeChild b n c) == 0 || (List.range 3).all (fun a =>
      let lo := nodeWord b n a c; let hi := nodeWord b n (3 + a) c
      isFin32 lo && isFin32 hi && le32 lo hi))) &&
  (List.range (hiTris b)).all (fun i => (List.range 9).all (fun k => isFin32 (fld b (hiTriOff b + 48 * i + 4 * k) 4)))
/-- A box coordinate of an empty child is finite too. -/
def hierBoxesFinite (b : Bytes) : Bool :=
  (List.range (hiNodes b)).all (fun n => (List.range 24).all (fun k => isFin32 (nodeWord b n (k / 4) (k % 4))))
/-- 0x06 RESERVED. -/
def hierReservedOk (b : Bytes) : Bool :=
  allZero (slice b 5 7) && allZero (slice b 32 4) && allZero (slice b 40 24)
    && (hierRefs b).all (fun r => refType r != 3 && (refType r != 0 || refNode r == 0))
    && (List.range (hiNodes b)).all (fun n => allZero (slice b (hiNodeOff b + 128 * n + 112) 16))
    && (List.range (hiTris b)).all (fun i => allZero (slice b (hiTriOff b + 48 * i + 40) 8))
/-- The first reason of 06 R249 that rejects a hierarchy. -/
def hierReject (b : Bytes) (len : Nat) : Option Nat :=
  if !hierHeaderOk b len then some 0x01
  else if !(hierRefs b).all (refInRange b) then some 0x02
  else if !hierTreeOk b then some 0x03
  else if decide (24 < levelsBelow b 25 (nodeRefs [hiRoot b])) then some 0x04
  else if !hierValuesOk b || !hierBoxesFinite b then some 0x05
  else if !hierReservedOk b then some 0x06
  else none

/-! ## Rays (06 R247, R250) -/

/-- A ray: origin and direction. -/
structure Ray where
  o : P3 := {}
  dir : P3 := {}
  deriving DecidableEq, Repr
def P3.at_ (p : P3) (k : Nat) : Nat := if k = 0 then p.x else if k = 1 then p.y else p.z
/-- The ray of a pixel. -/
def rayOf (c : Camera) (px py : Nat) : Ray :=
  let dx := div32 (sub32 (add32 (int32f px) half32) (camCx c)) (camFx c)
  let dy := div32 (sub32 (add32 (int32f py) half32) (camCy c)) (camFy c)
  let m := fun (k : Nat) => c.view.getD k 0
  let dir := fun (k : Nat) => add32 (add32 (mul32 (m k) dx) (mul32 (m (4 + k)) dy)) (m (8 + k))
  let org := fun (k : Nat) => neg32 (add32 (add32 (mul32 (m k) (m 3)) (mul32 (m (4 + k)) (m 7))) (mul32 (m (8 + k)) (m 11)))
  { o := { x := org 0, y := org 1, z := org 2 }, dir := { x := dir 0, y := dir 1, z := dir 2 } }
def sub3 (a b : P3) : P3 := { x := sub32 a.x b.x, y := sub32 a.y b.y, z := sub32 a.z b.z }
def cross3 (a b : P3) : P3 :=
  { x := sub32 (mul32 a.y b.z) (mul32 a.z b.y), y := sub32 (mul32 a.z b.x) (mul32 a.x b.z), z := sub32 (mul32 a.x b.y) (mul32 a.y b.x) }
def dot3v (a b : P3) : Nat := add32 (add32 (mul32 a.x b.x) (mul32 a.y b.y)) (mul32 a.z b.z)
/-- A hit: t, PRIM_ID, triangle index, u and v. -/
structure RayHit where
  t : Nat := 0
  prim : Nat := 0
  tri : Nat := 0
  u : Nat := 0
  v : Nat := 0
  deriving DecidableEq, Repr
/-- A hit is better than another (06 R250). -/
def RayHit.better (a b : RayHit) : Bool :=
  lt32 a.t b.t || (feq fFP32 a.t b.t && (decide (a.prim < b.prim) || (a.prim == b.prim && decide (a.tri < b.tri))))
/-- What a traversal carries: the best hit, the limit on t, and what it has counted. -/
structure Walk where
  best : Option RayHit := none
  bestT : Nat := 0
  visits : Nat := 0
  nodeTests : Nat := 0
  triTests : Nat := 0
  limited : Bool := false
  deriving DecidableEq, Repr
/-- box_test: the entry distance of a hit box. -/
def boxTest (b : Bytes) (near far : Nat) (r : Ray) (n c : Nat) : Option Nat :=
  let step := fun (acc : Option (Nat × Nat)) (a : Nat) =>
    acc.bind (fun q =>
      let lo := nodeWord b n a c; let hi := nodeWord b n (3 + a) c
      let o := r.o.at_ a; let d := r.dir.at_ a
      if (unpack fFP32 d).isZero then (if lt32 o lo || lt32 hi o then none else some q)
      else
        let inv := rcp32 d
        let t0 := mul32 (sub32 lo o) inv; let t1 := mul32 (sub32 hi o) inv
        some (max32 q.1 (min32 t0 t1), min32 q.2 (max32 t0 t1)))
  ((List.range 3).foldl step (some (near, far))).bind (fun q => if le32 q.1 q.2 then some q.1 else none)
/-- tri_test: the hit of a triangle, if any. -/
def triTest (b : Bytes) (near far : Nat) (r : Ray) (i : Nat) : Option RayHit :=
  let v0 := hiVertex b i 0
  let e1 := sub3 (hiVertex b i 1) v0; let e2 := sub3 (hiVertex b i 2) v0
  let pv := cross3 r.dir e2
  let det := dot3v e1 pv
  if (unpack fFP32 det).isZero || !isFin32 det then none
  else
    let rc := rcp32 det
    let tv := sub3 r.o v0
    let u := mul32 (dot3v tv pv) rc
    if !(le32 0 u && le32 u one32) then none
    else
      let qv := cross3 tv e1
      let v := mul32 (dot3v r.dir qv) rc
      if !(le32 0 v && le32 (add32 u v) one32) then none
      else
        let t := mul32 (dot3v e2 qv) rc
        if !(le32 near t && le32 t far) then none else some { t := t, prim := hiPrim b i, tri := i, u := u, v := v }
/-- Test the triangles of a leaf in order. -/
def leafTest (b : Bytes) (near far : Nat) (r : Ray) (ref : Nat) (w : Walk) : Walk :=
  (List.range (refCount ref)).foldl (fun w k =>
    let w1 := { w with triTests := w.triTests + 1 }
    match triTest b near far r (refFirst ref + k) with
    | none => w1
    | some h => if (w.best.map (fun q => h.better q)).getD true then { w1 with best := some h, bestT := h.t } else w1) w
/-- Insert a child before those farther, and before those equally far with a greater number. -/
def childInsert (x : Nat × Nat) : List (Nat × Nat) → List (Nat × Nat)
  | [] => [x]
  | y :: r => if lt32 x.2 y.2 then x :: y :: r else y :: childInsert x r
/-- The hit children of a node, nearest first. -/
def hitChildren (b : Bytes) (near far : Nat) (r : Ray) (n : Nat) (bestT : Nat) : List (Nat × Nat) :=
  (List.range 4).foldl (fun l c =>
    let ref := nodeChild b n c
    if refType ref = 0 then l
    else match boxTest b near far r n c with
      | some tn => if le32 tn bestT then childInsert (ref, tn) l else l
      | none => l) []
/-- The traversal, nearest entry first, at most `fuel` entries. -/
def walkStack (b : Bytes) (near far : Nat) (r : Ray) (limit : Nat) : Nat → List (Nat × Nat) → Walk → Walk
  | 0, _, w => w
  | _ + 1, [], w => w
  | fuel + 1, (ref, tn) :: rest, w =>
    if lt32 w.bestT tn then walkStack b near far r limit fuel rest w
    else if refType ref = 2 then walkStack b near far r limit fuel rest (leafTest b near far r ref w)
    else if refType ref = 0 then walkStack b near far r limit fuel rest w
    else
      let w1 := { w with visits := w.visits + 1 }
      if limit < w1.visits then { w1 with limited := true }
      else
        let w2 := { w1 with nodeTests := w1.nodeTests + 1 }
        walkStack b near far r limit fuel (hitChildren b near far r (refNode ref) w.bestT ++ rest) w2
/-- The best hit of a ray, with its counts. Each visit puts at most four entries on the stack. -/
def trace (b : Bytes) (c : Camera) (limit : Nat) (r : Ray) : Walk :=
  walkStack b (camNear c) (camFar c) r limit (4 * limit + 8) [(hiRoot b, camNear c)] { bestT := camFar c }

end Sys2Proof.Machine
end

