-- ==== Sys2Proof/Machine/Geometry.lean ====
section
/-!
DEFINITION. The geometry pass of a frame (06 R219–R243, R254; 01 R38): its start, setup and binning, the bin pool, bin tasks,
immediate mode and BLEND batches.
-/
namespace Sys2Proof.Machine

/-! ## What a pass works on -/

def modGeo (slot : Nat) (g : GeoState → GeoState) (s : State) : State := modFrame slot (fun f => { f with geo := g f.geo }) s
/-- The set of a frame's base, and the depth convention of its packet (06 R218). -/
def baseSet (x : Ctx) (f : Frame) : BufferSet := (f.base.bind (setOf x)).getD {}
def frameReversed (x : Ctx) (f : Frame) : Bool := (baseSet x f).depthReversed
/-- The proxy mesh of a frame: that of its base packet, for a G frame (06 R219). -/
def frameMesh (x : Ctx) (f : Frame) : Mesh := if hasMeshPass f then (baseSet x f).mesh.getD {} else {}
/-- Triangles of a frame that are drawn. -/
def drawnTris (x : Ctx) (f : Frame) : Nat := min (meshTris (frameMesh x f)) (cbGMax f.config)
def rasterIn (x : Ctx) (f : Frame) : RasterIn :=
  { mesh := frameMesh x f, objs := f.objs, prevObjs := f.prevObjs, cam := f.camera, prevCam := f.prevCam, reversed := frameReversed x f,
    w := cbWidth f.config, h := cbHeight f.config }
/-- The front ends allotted to a context, in increasing number (06 R231). -/
def feList (c : Bytes) : List Nat := bitList 16 (cbFeMask c)
/-- The pass as it begins: the UI layers at position 0, and groups of 256 triangles dealt to the positions in turn. -/
def geoInit (x : Ctx) (f : Frame) (bin : Bool) : GeoState :=
  let l := feList f.config
  let groups := List.range (cdiv (drawnTris x f) 256)
  { phase := .running, binMode := bin,
    fes := (List.range l.length).foldl (fun t p =>
      let ui : List (Option Nat) := if p = 0 && !f.ui.isEmpty then [none] else []
      tput t (l.getD p 0) { groups := ui ++ (groups.filter (fun k => k % l.length == p)).map some }) [] }
/-- Every pixel of a context's planes at the uncovered values of 06 R225. The clear flags of 06 R233 give the same reads. -/
def clearPlanes (slot : Nat) (x : Ctx) (f : Frame) (s : State) : State :=
  let n := cbWidth f.config * cbHeight f.config
  let far := farthest (frameReversed x f)
  let depth := (List.replicate n (natLe 4 far)).flatMap id
  wardWrite x.ward (planeAddr s slot x.ward f.config 0 0) (depth ++ List.replicate (8 * n) 0) s
/-- The disocclusion values of a frame that casts no rays (06 R227). -/
def clearDisocc (slot : Nat) (x : Ctx) (f : Frame) (s : State) : State :=
  let one := List.replicate 4 0 ++ natLe 2 (f2h (farthest (frameReversed x f)))
  wardWrite x.ward (disoccAddr s slot x.ward f.config 0 0) ((List.replicate (4096 * tileCount f.config) one).flatMap id) s
/-- The transforms and camera of a frame are fixed (01 R34, R35, R38). -/
def fixCamera (x : Ctx) (f : Frame) : Frame :=
  let pose := match f.poseWait with
    | some t => (x.ing.poses.find? (fun p => p.arrival == t && p.ingested.isSome)).orElse (fun _ => f.pose)
    | none => f.pose
  let f1 := { f with pose := pose }
  { f1 with camera := cameraOf x f1, objs := if f.kind = .g then objectsAt x f1 else objectsOf (f.base.bind (supplied x)) }
/-- The pose packet that triggered the frame has been ingested, or none did (01 R38). -/
def poseArrived (x : Ctx) (f : Frame) : Bool :=
  match f.poseWait with
  | none => true
  | some t => x.ing.poses.any (fun p => p.arrival == t && p.ingested.isSome)
/-- Bin tasks of a frame are not run in immediate mode (06 R232). -/
def dropBins (slot number : Nat) (s : State) : State :=
  dropTasks (fun _ t => t.slot == slot && t.frame == some number && (match t.kind with | .bin _ => true | _ => false)) s
/-- The geometry pass of a frame begins. -/
def startGeometry (slot : Nat) (x : Ctx) (f0 : Frame) (s : State) : State :=
  let f := fixCamera x f0
  let bin := !cbImmediate f.config
  let s1 := modFrame slot (fun _ => { f with geo := geoInit x f bin }) s
  let skipped := meshTris (frameMesh x f) - drawnTris x f
  let s2 := addStat slot stGeoSkip skipped s1
  if bin then s2 else dropBins slot f.number (clearPlanes slot x f s2)
/-- GEOMETRY_PASS_START. -/
def execGeometryPassStart (slot : Nat) (s : State) : Out :=
  need (liveCtx s slot) "no live context" (fun x =>
    need x.fr.cur "no frame is in progress" (fun f =>
      guardThat (f.geo.phase == .waiting && poseArrived x f) "the pass has begun or waits for its pose" (.next (startGeometry slot x f s))))

/-! ## The bin pool (06 R235–R239) -/

/-- Make one write of a front end if the pool of `cap` units has the unit that it may need. -/
def putWrite (fe cap : Nat) (w : BinWrite) (g : GeoState) : Option GeoState :=
  match w.bin with
  | none => if g.units < cap then some { g with units := g.units + 1 } else none
  | some b =>
    let key := b * 16 + fe
    let n := tgetD g.lists key 0
    if n % 15 = 0 ∧ cap ≤ g.units then none
    else
      let ins := fun (l : List SubTri) => l.takeWhile (fun t => decide (t.key < w.sub.key)) ++ w.sub :: l.dropWhile (fun t => decide (t.key < w.sub.key))
      some { g with units := g.units + b2n (n % 15 == 0), lists := tput g.lists key (n + 1), entries := tupd g.entries b [] ins }
/-- Make writes in order until one needs a unit that is not free: how many entries were made, what is left, and the pass. -/
def drainWrites (fe cap : Nat) : List BinWrite → GeoState → Nat → Nat × List BinWrite × GeoState
  | [], g, n => (n, [], g)
  | w :: r, g, n =>
    match putWrite fe cap w g with
    | none => (n, w :: r, g)
    | some g1 => drainWrites fe cap r g1 (if w.bin.isSome then n + 1 else n)
/-- A context's geometry pass starts again in immediate mode, its lists abandoned (06 R238, R239). A wait for chunks stays: those
granted later join the pool for later frames. -/
def goImmediate (slot reason : Nat) (s : State) : State :=
  match ctxOf s slot with
  | none => s
  | some x =>
    match x.fr.cur with
    | none => s
    | some f =>
      let g := geoInit x f false
      let s2 := modGeo slot (fun old => { g with splat := old.splat, marks := old.marks })
        (dropBins slot f.number (clearPlanes slot x f s))
      postEvent slot kBinExhausted reason (natLe 4 f.number) s2
/-- Chunks that the next growth of a context's pool takes. -/
def growthChunks (x : Ctx) (f : Frame) : Nat := min (cbGrowth f.config) (cbPoolMax f.config - x.pool)
/-- Chunks move from the spare pool to a growth in progress. -/
def beginGrowth (slot wd chunks : Nat) (s : State) : State :=
  modWard wd (fun w => { w with spare := w.spare - chunks })
    (modCtx slot (fun x => { x with growing := some chunks })
      (modGeo slot (fun g => { g with waitsGrant := false, grantedAt := if g.waitsGrant then some s.now else g.grantedAt }) s))
/-- Insert a wait by the instant of its stop, and by lower context slot among those of one fabric cycle (06 R237). -/
def waitInsert (w : GrowthWait) (l : List GrowthWait) : List GrowthWait :=
  let first := fun (v : GrowthWait) => decide (v.since < w.since) || (v.since == w.since && decide (v.slot < w.slot))
  l.takeWhile first ++ w :: l.dropWhile first
/-- A stopped front end needs units: a growth begins, or BIN_GROW asks for chunks, or the pass goes to immediate mode. A wait that an
abandoned frame left standing keeps its place (log 79). -/
def requestGrowth (slot : Nat) (s : State) : State :=
  match ctxOf s slot with
  | none => s
  | some x =>
    match x.fr.cur with
    | none => s
    | some f =>
      let n := growthChunks x f
      if x.growing.isSome || f.geo.waitsGrant then s
      else if n = 0 then goImmediate slot 0x01 s
      else if n ≤ (wardOf s x.ward).spare then beginGrowth slot x.ward n s
      else
        let join := fun (w : Ward) => if w.growthWait.any (·.slot == slot) then w
          else { w with growthWait := waitInsert { slot := slot, since := s.now, chunks := n } w.growthWait }
        let s1 := modGeo slot (fun g => { g with waitsGrant := true }) (modWard x.ward join s)
        checkpoint slot (postEvent slot kBinGrow 0 (natLe 4 f.number ++ natLe 4 n) s1)
/-- A front end makes the writes it owes; one that finds no unit stops (06 R236). -/
def settleFe (slot fe : Nat) (s : State) : State :=
  match ctxOf s slot with
  | none => s
  | some x =>
    match x.fr.cur with
    | none => s
    | some f =>
      let e := tgetD f.geo.fes fe {}
      let r := drainWrites fe (1024 * x.pool) e.writes f.geo 0
      let stop := !r.2.1.isEmpty
      let e1 := { e with writes := r.2.1, stopped := if stop then some (e.stopped.getD s.now) else none }
      let s1 := tallyChip 0x212 fe r.1 (some x.ward) (modGeo slot (fun _ => { r.2.2 with fes := tput r.2.2.fes fe e1 }) s)
      if stop then requestGrowth slot s1 else s1
/-- The stopped front ends of a context, in the order in which they stopped. -/
def stoppedFes (g : GeoState) : List Nat :=
  let l := g.fes.filterMap (fun e => e.2.stopped.map (fun t => (t, e.1)))
  (l.foldl (fun acc e => acc.takeWhile (fun q => decide (q.1 ≤ e.1)) ++ e :: acc.dropWhile (fun q => decide (q.1 ≤ e.1))) []).map (·.2)
/-- A growth is done: its chunks join the pool, and the stopped front ends resume. -/
def growthDone (slot n : Nat) (s : State) : State :=
  let s1 := modCtx slot (fun x => { x with pool := x.pool + n, growing := none }) s
  match (ctxOf s1 slot).bind (fun x => x.fr.cur) with
  | none => s1
  | some f => (stoppedFes f.geo).foldl (fun s fe => settleFe slot fe s) s1
/-- POOL_GROWTH_COMPLETE: the Keeper serves growth, but for the time of a firmware switch (15 R496). -/
def execPoolGrowthComplete (slot : Nat) (s : State) : Out :=
  need (liveCtx s slot) "no live context" (fun x => need (if s.fw.switching then none else x.growing) "no growth is served" (fun n => .next (growthDone slot n s)))
/-- Waiting pools are served in order while the spare pool suffices (06 R237). -/
def serveGrowth (wd : Nat) : Nat → State → State
  | 0, s => s
  | k + 1, s =>
    match (wardOf s wd).growthWait with
    | [] => s
    | v :: rest =>
      if (wardOf s wd).spare < v.chunks then s
      else serveGrowth wd k (beginGrowth v.slot wd v.chunks (modWard wd (fun w => { w with growthWait := rest }) s))
/-- Give up `n` granules of the spare pool. -/
def dropSpare : Nat → List Alloc → List Alloc
  | _, [] => []
  | n, a :: r =>
    if a.kind = .spare then (if a.count ≤ n then dropSpare (n - a.count) r else { a with count := a.count - n } :: r)
    else a :: dropSpare n r
/-- MEMORY_GRANT: granules move from free memory to the spare pool as four chunks each, or whole unused ones move back. -/
def memoryGrantGo (fn seq : Nat) (c : Cmd) (s : State) : State :=
  let r : RingRef := .admin fn
  let n := entArg c.entry 0
  if (entArg c.entry 1).testBit 0 then
    if (wardOf s fn).spare < 4 * n then fail r seq kNoMemory 0 s
    else
      let s1 := modWard fn (fun w => { w with spare := w.spare - 4 * n, allocs := dropSpare n w.allocs }) s
      completeOk r seq (natLe 4 (wardOf s1 fn).spare) s1
  else
    match allocate fn n .spare false [] s with
    | none => fail r seq kNoMemory 0 s
    | some (_, s1) =>
      let s2 := modWard fn (fun w => { w with spare := w.spare + 4 * n }) s1
      completeOk r seq (natLe 4 (wardOf s2 fn).spare) (serveGrowth fn 1024 s2)
/-- MEMORY_GRANT. -/
def execMemoryGrant (fn seq : Nat) (s : State) : Out := command (.admin fn) seq 0x03 s (fun c s => memoryGrantGo fn seq c s)

/-! ## Setup (06 R219–R222, R226, R230–R232; 10 R364) -/

/-- A front end has a group of a context to take: its frame's pass runs and the front end is not stopped there. -/
def feWants (fe : Nat) (x : Ctx) : Bool :=
  (x.fr.cur.map (fun f =>
    let e := tgetD f.geo.fes fe {}
    f.geo.phase == .running && !e.groups.isEmpty && e.writes.isEmpty)).getD false
/-- The context that a front end serves next: round-robin by slot; every frame's work is LC-level (10 R356). -/
def feNext (s : State) (fe : Nat) : Option (Nat × Ctx) :=
  let l := s.ctxs.filter (fun x => (slotOf s x.1).state == .live && feWants fe x.2)
  (l.find? (fun x => decide (tgetD s.feLast fe 1023 < x.1))).orElse (fun _ => l.head?)
/-- The masks of the UI layers in each bin (06 R226). -/
def uiMasksOf (f : Frame) : Table Nat :=
  let c := f.config
  (List.range (binsX c * binsY c)).foldl (fun t b =>
    let x0 := 32 * (b % binsX c); let y0 := 32 * (b / binsX c)
    let x1 := min (x0 + 32) (cbWidth c); let y1 := min (y0 + 32) (cbHeight c)
    let m := f.ui.foldl (fun m u =>
      if max x0 u.2.x < min x1 (u.2.x + u.2.img.w) && max y0 u.2.y < min y1 (u.2.y + u.2.img.h) then m + 2 ^ u.1 else m) 0
    if m = 0 then t else tput t b m) []
/-- The writes of a kept sub-triangle: its setup record, then its entry in each bin. -/
def subWrites (c : Bytes) (t : SubTri) : List BinWrite :=
  ({ sub := t } : BinWrite) :: (binsOfSub (binsX c) (binsY c) t).map (fun b => { sub := t, bin := some b })
/-- Consecutive runs of at most 32. -/
def runs32 {α : Type} (l : List α) : List (List α) := (chunksN 32 l.length l).filter (fun c => !c.isEmpty)
/-- The fragments of a sub-triangle in a bin as batches. -/
def subBatches (c : Bytes) (t : SubTri) : List Batch :=
  (binsOfSub (binsX c) (binsY c) t).flatMap (fun b =>
    (runs32 ((fragsIn (cbWidth c) (cbHeight c) (binsX c) t b).map (fun q => q.py * cbWidth c + q.px))).map (fun px => { sub := t, bin := b, px := px }))
/-- A front end sets up one group of a context. -/
def setupGroup (fe slot : Nat) (x : Ctx) (f : Frame) (s : State) : State :=
  let e := tgetD f.geo.fes fe {}
  let s1 : State := { s with feLast := tput s.feLast fe slot }
  let done := fun (prims cycles : Nat) (s : State) =>
    tallyChip 0x210 fe prims (some x.ward) (tallyChip 0x211 fe cycles (some x.ward) (chargeFixed slot cycles s))
  match e.groups with
  | [] => s
  | none :: rest =>
    done (2 * f.ui.length) (4 * f.ui.length)
      (modGeo slot (fun g => { g with uiMasks := uiMasksOf f, fes := tput g.fes fe { e with groups := rest } }) s1)
  | some k :: rest =>
    let n := min 256 (drawnTris x f - 256 * k)
    let subs := (List.range n).flatMap (fun i => subTris (rasterIn x f) (256 * k + i))
    let e1 := if f.geo.binMode then { e with groups := rest, writes := subs.flatMap (subWrites f.config) }
              else { e with groups := rest, batches := e.batches ++ subs.flatMap (subBatches f.config) }
    settleFe slot fe (done subs.length (2 * n) (modGeo slot (fun g => { g with fes := tput g.fes fe e1 }) s1))
/-! ## Fragments (06 R225, R241–R243) -/

/-- The FP32, S32 and FP16 × 2 codes of a fragment as the planes hold them. -/
def fragCodes (t : SubTri) (q : Frag) : List Nat := [q.d, t.obj, motionCode q.mx + 65536 * motionCode q.my]
/-- Write a pixel of the three planes in ward memory. -/
def putPixel (slot : Nat) (x : Ctx) (c : Bytes) (px : Nat) (codes : List Nat) (s : State) : State :=
  (List.range 3).foldl (fun s k => wardWrite x.ward (planeAddr s slot x.ward c k px) (natLe 4 (codes.getD k 0)) s) s
/-- A fragment replaces what a pixel holds: it is the first, or strictly nearer, or equally near with a lower key. -/
def fragWins (reversed : Bool) (held : Option (Nat × Nat)) (d key : Nat) : Bool :=
  match held with
  | none => true
  | some (d0, k0) => nearer reversed d d0 || (feq fFP32 d d0 && decide (key < k0))
/-- The resolved pixels of a bin, from its entries in key order: pixel, depth, key and codes. -/
def resolveBin (w h bx : Nat) (reversed : Bool) (bin : Nat) (l : List SubTri) : Table (Nat × Nat × List Nat) :=
  l.foldl (fun t sub => (fragsIn w h bx sub bin).foldl (fun t q =>
    let px := q.py * w + q.px
    if fragWins reversed ((tget t px).map (fun e => (e.1, e.2.1))) q.d sub.key then tput t px (q.d, sub.key, fragCodes sub q) else t) t) []
/-- The BLEND kernel of a frame, with the image that holds it. -/
def blendKernel (s : State) (x : Ctx) (f : Frame) : Option (Nat × Nat × KernelRec) :=
  if cbBlend f.config = 0xFFFF then none
  else match f.image, frameImage s x f with
    | some h, some b => some (h, cbBlend f.config, kernelRec (imgBytes b 0x09) (cbBlend f.config))
    | _, _ => none
/-- The batches of a bin in key order (06 R241). -/
def binBatches (f : Frame) (bin : Nat) : List Batch :=
  (tgetD f.geo.entries bin []).flatMap (fun t => (subBatches f.config t).filter (fun b => b.bin == bin))
/-- The bin-local index of a frame pixel. -/
def binLocal (c : Bytes) (px : Nat) : Nat := px / cbWidth c % 32 * 32 + px % cbWidth c % 32
/-- The registers of a BLEND thread (06 Table 6-3): bin mode gives core-store addresses. -/
def blendBoot (s : State) (slot : Nat) (x : Ctx) (f : Frame) (b : Batch) (bin : Bool) : Thread :=
  let c := f.config
  let w := cbWidth c
  let frs := b.px.filterMap (fun px => b.sub.frag (px % w) (px / w))
  let vec := fun (g : Frag → Nat) => ofLanes 32 (frs.map g)
  let first := 32 * (b.bin % binsX c) + 32 * (b.bin / binsX c) * w
  let own := ((blendKernel s x f).map (fun k => k.2.2.store)).getD 0
  let addr := fun (k : Nat) => if bin then own + 4096 * k else planeAddr s slot x.ward c k first
  let vs := [vec (fun q => binLocal c (q.py * w + q.px)), vec (·.d), vec (·.l1), vec (·.l2), vec (·.mx), vec (·.my)]
  let th := (List.range 6).foldl (fun th k => wrV k (vs.getD k 0) th) ({} : Thread)
  let regs := [(1, b.sub.key), (2, b.sub.obj), (3, b.bin), (4, addr 0), (5, addr 1), (6, addr 2), (7, if bin then 0 else 1),
               (8, if bin then 128 else 4 * w)] ++ (List.range 4).map (fun k => (10 + k, cbGeomArg c k))
  let th1 := regs.foldl (fun th r => wrS r.1 r.2 th) (wrP 1 (2 ^ frs.length - 1) th)
  { th1 with fragments := b.px.map (fun px => (binLocal c px, b.sub.key)) }
/-- A batch's task of one thread starts on a core (06 R242). -/
def startBlend (slot core : Nat) (x : Ctx) (f : Frame) (k : Nat × Nat × KernelRec) (b : Batch) (parent : Option Nat) (s : State) : State :=
  let t : Task := { frameTask slot x f (.blend b.bin parent) 0 b.bin with
    core := core, started := true, startedAt := s.now, threads := 1, vregs := k.2.2.vregs, size := k.2.2.store
    pages := freePages s core (cdiv k.2.2.store 4096), code := .kernel k.1 k.2.1, boot := some (blendBoot s slot x f b parent.isSome) }
  bootTask s.nextTask t k.2.2.entry { s with tasks := tput s.tasks s.nextTask t, nextTask := s.nextTask + 1 }
/-- Fragments handed to threads of a frame's BLEND tasks of a bin and not released. -/
def handedOut (s : State) (slot : Nat) (f : Frame) (bin : Nat) : List (Nat × Nat) :=
  (s.tasks.filter (fun t => t.2.slot == slot && t.2.frame == some f.number
      && (match t.2.kind with | .blend b _ => b == bin | _ => false))).flatMap
    (fun t => (threadsOf s t.1 t.2).flatMap (fun th => th.2.fragments))
/-- Fragments of a bin that front ends hold in immediate mode and have not sent, and whether a group with lower keys is not
set up yet. -/
def unsent (f : Frame) (bin : Nat) : List (Nat × Nat) :=
  f.geo.fes.flatMap (fun e => (e.2.batches.filter (fun b => b.bin == bin)).flatMap (fun b => b.px.map (fun px => (binLocal f.config px, b.sub.key))))
def groupBelow (f : Frame) (key : Nat) : Bool :=
  f.geo.fes.any (fun e => e.2.groups.any (fun g => match g with | some k => decide (256 * k * 8 < key) | none => false))
/-- Every fragment at the given bin-local pixels with a lower key has been released (05 R205). -/
def lowerReleased (s : State) (slot : Nat) (f : Frame) (bin key : Nat) (px : List Nat) : Bool :=
  (handedOut s slot f bin ++ (if f.geo.binMode then [] else unsent f bin)).all (fun q => !px.contains q.1 || decide (key ≤ q.2))
    && (f.geo.binMode || !groupBelow f key)
/-- Threads parked on PXLOCK whose lower fragments are released go on (05 R205). -/
def wakePixels (slot : Nat) (s : State) : State :=
  let ready := fun (t : Thread) =>
    match t.park, tget s.tasks t.task, ctxOf s slot with
    | .pixels key px, some k, some x =>
      (match k.kind, frameOfTask x k with
      | .blend b _, some f => k.slot == slot && lowerReleased s slot f b key px
      | _, _ => false)
    | _, _, _ => false
  { s with cores := s.cores.map (fun c =>
      (c.1, { c.2 with threads := c.2.threads.map (fun t => (t.1, if ready t.2 then { t.2 with park := .running } else t.2)) })) }
/-- FE_SETUP_GROUP. -/
def execFeSetupGroup (fe : Nat) (s : State) : Out :=
  need (feNext s fe) "no setup group waits" (fun x => need x.2.fr.cur "no frame" (fun f => .next (wakePixels x.1 (setupGroup fe x.1 x.2 f s))))
/-- Blend one batch by the built-in code on planes read and written through functions: id, depth, and a write. -/
def blendPixels (reversed : Bool) (t : SubTri) (frs : List Frag) (read : Nat → Frag → State → Nat)
    (write : Frag → List Nat → State → State) (s : State) : State :=
  frs.foldl (fun s q => if read 1 q s = 0 || nearer reversed q.d (read 0 q s) then write q (fragCodes t q) s else s) s
/-- A plane word of a bin task's core store. -/
def storePlane (id k lp : Nat) (s : State) : Nat := leNat (Mem.readN (tgetD s.tasks id {}).store (4096 * k + 4 * lp) 4)
/-- The working planes of a bin task at the uncovered values (06 R230). -/
def initStore (far : Nat) : Mem := Mem.writeN [] 0 ((List.replicate 1024 (natLe 4 far)).flatMap id)
/-- The batches of a bin task that come next, with its BLEND kernel: one more batch begins, by the kernel or the built-in code. -/
def binStep (id : Nat) (t : Task) (s : State) : Option State :=
  match t.kind, ctxOf s t.slot with
  | .bin b, some x =>
    match frameOfTask x t with
    | none => none
    | some f =>
      match blendKernel s x f, (binBatches f b)[t.progress]? with
      | some k, some q =>
        let s1 := modTask id (fun t => { t with progress := t.progress + 1, store := if t.progress = 0 then initStore (farthest (frameReversed x f)) else t.store }) s
        let w := cbWidth f.config
        if q.sub.occluder then
          if lowerReleased s t.slot f b q.sub.key (q.px.map (binLocal f.config)) then
            let frs := q.px.filterMap (fun px => q.sub.frag (px % w) (px / w))
            some (blendPixels (frameReversed x f) q.sub frs
              (fun k fr s => storePlane id k (binLocal f.config (fr.py * w + fr.px)) s)
              (fun fr codes s => (List.range 3).foldl (fun s k => storeWrite id (4096 * k + 4 * binLocal f.config (fr.py * w + fr.px)) (natLe 4 (codes.getD k 0)) s) s) s1)
          else none
        else if roomFor s t.core 1 k.2.2.vregs (cdiv k.2.2.store 4096) then some (startBlend t.slot t.core x f k q (some id) s1) else none
      | _, _ => none
  | _, _ => none
/-- A bin task has nothing left to begin: without a BLEND kernel its batches are resolved at its end. -/
def binDrained (s : State) (id : Nat) (t : Task) : Bool :=
  match t.kind, ctxOf s t.slot with
  | .bin b, some x =>
    (match frameOfTask x t with
    | none => true
    | some f => (blendKernel s x f).isNone
        || (decide ((binBatches f b).length ≤ t.progress) && !s.tasks.any (fun q => q.2.kind == .blend b (some id))))
  | _, _ => true
/-- A bin task ends: its resolved planes go to ward memory, every pixel of the bin once, and the units return with the last bin (06 R230, R235). -/
def endBin (id : Nat) (t : Task) (bin : Nat) (s : State) : State :=
  match ctxOf s t.slot with
  | none => s
  | some x =>
    match frameOfTask x t with
    | none => s
    | some f => unlessSpoiled t.slot t.core s (fun s =>
      let c := f.config
      let w := cbWidth c; let h := cbHeight c
      let won := resolveBin w h (binsX c) (frameReversed x f) bin (tgetD f.geo.entries bin [])
      let codes := fun (lp px : Nat) =>
        if (blendKernel s x f).isSome && 0 < t.progress then (List.range 3).map (fun k => storePlane id k lp s)
        else ((tget won px).map (fun e => e.2.2)).getD [farthest (frameReversed x f), 0, 0]
      let planes := (List.range 1024).filterMap (fun lp =>
        let px := 32 * (bin % binsX c) + lp % 32; let py := 32 * (bin / binsX c) + lp / 32
        if px < w && py < h then some (py * w + px, codes lp (py * w + px)) else none)
      let s1 := planes.foldl (fun s p => putPixel t.slot x c p.1 p.2 s) s
      let done := if f.geo.binsDone.contains bin then f.geo.binsDone else f.geo.binsDone ++ [bin]
      chargeWork t.slot (dropTasks (fun k _ => k == id)
        (modGeo t.slot (fun g => { g with binsDone := done, units := if done.length = binsX c * binsY c then 0 else g.units }) s1)))

/-! ## Immediate mode (06 R232–R234) -/

/-- The built-in code on a batch in ward memory: the result does not depend on the order of the batches. -/
def immediateBatch (slot : Nat) (x : Ctx) (f : Frame) (b : Batch) (s : State) : State :=
  let c := f.config
  let w := cbWidth c
  (b.px.filterMap (fun px => b.sub.frag (px % w) (px / w))).foldl (fun s q =>
    let px := q.py * w + q.px
    let keys := ((ctxOf s slot).bind (fun x => x.fr.cur.map (fun f => f.geo.keys))).getD []
    let held := (tget keys px).map (fun k => (planeRead s slot x.ward c 0 px, k))
    if fragWins (frameReversed x f) held q.d b.sub.key then
      putPixel slot x c px (fragCodes b.sub q) (modGeo slot (fun g => { g with keys := tput g.keys px b.sub.key }) s)
    else s) s
/-- An object without a BLEND kernel's shading beside one with it: the built-in code in key order. -/
def immediateOccluder (slot : Nat) (x : Ctx) (f : Frame) (b : Batch) (s : State) : State :=
  let w := cbWidth f.config
  blendPixels (frameReversed x f) b.sub (b.px.filterMap (fun px => b.sub.frag (px % w) (px / w)))
    (fun k q s => planeRead s slot x.ward f.config k (q.py * w + q.px)) (fun q codes s => putPixel slot x f.config (q.py * w + q.px) codes s) s
/-- A batch reaches its bin's owner core: the first one of a bin makes the core its owner. -/
def takeBatch (slot fe core : Nat) (x : Ctx) (f : Frame) (b : Batch) (s : State) : Out :=
  let sent := modGeo slot (fun g =>
    { g with owners := tput g.owners b.bin core, fes := tmod g.fes fe (fun e => { e with batches := e.batches.drop 1 }) }) s
  match blendKernel s x f with
  | none => .next (chargeWork slot (immediateBatch slot x f b sent))
  | some k =>
    if b.sub.occluder then
      match ctxOf sent slot with
      | none => notNow "no context"
      | some y =>
        need y.fr.cur "no frame" (fun g =>
          guardThat (lowerReleased sent slot g b.bin b.sub.key (b.px.map (binLocal f.config))) "lower fragments are not released"
            (.next (wakePixels slot (immediateOccluder slot x f b sent))))
    else
      guardThat (roomFor s core 1 k.2.2.vregs (cdiv k.2.2.store 4096)) "the owner core has no room"
        (.next (startBlend slot core x f k b none sent))
/-- FRAGMENT_BATCH. -/
def execFragmentBatch (slot fe core : Nat) (s : State) : Out :=
  need (liveCtx s slot) "no live context" (fun x =>
    need x.fr.cur "no frame is in progress" (fun f =>
      need ((tget f.geo.fes fe).bind (fun e => e.batches.head?)) "no batch waits" (fun b =>
        guardThat (f.geo.phase == .running && !f.geo.binMode && (coreOf s core).mode == .running
            && ((tget f.geo.owners b.bin).map (· == core)).getD (f.group.testBit core))
          "the core is not the bin's owner" (takeBatch slot fe core x f b s))))

/-! ## The end of binning, and of the pass (06 R230, R254) -/

/-- Every front end has finished, and in immediate mode every batch is processed. -/
def feDone (s : State) (slot : Nat) (f : Frame) : Bool :=
  f.geo.fes.all (fun e => e.2.groups.isEmpty && e.2.writes.isEmpty && e.2.batches.isEmpty)
    && !s.tasks.any (fun t => t.2.slot == slot && t.2.frame == some f.number && (match t.2.kind with | .blend _ none => true | _ => false))
/-- Set a tile's geometry latch; the pass is complete with the last one. -/
def setGeoLatches (slot : Nat) (tiles : List Nat) (s : State) : State :=
  let s1 := modFrame slot (fun f =>
    let l := f.geo.latches ++ tiles.filter (fun i => !f.geo.latches.contains i)
    { f with geo := { f.geo with latches := l, phase := if l.length = tileCount f.config then .complete else f.geo.phase } }) s
  if (((ctxOf s1 slot).bind (fun x => x.fr.cur)).map (fun f => f.geo.phase == .complete)).getD false then checkpoint slot s1 else s1
/-- Binning completes: bin tasks become admissible; a frame without primitives has its whole pass, the uncovered values of 06 R227. -/
def binningDone (slot : Nat) (f : Frame) (s : State) : State :=
  let bins := List.range (binsX f.config * binsY f.config)
  let s1 := modGeo slot (fun g => { g with binned := true, binsDone := if g.binMode then g.binsDone else bins, owners := [] }) s
  match ctxOf s slot with
  | none => s1
  | some x =>
    if hasMeshPass f then s1
    else setGeoLatches slot (List.range (tileCount f.config)) (clearDisocc slot x f (if f.geo.binMode then clearPlanes slot x f s1 else s1))
/-- BINNING_COMPLETE. -/
def execBinningComplete (slot : Nat) (s : State) : Out :=
  need (liveCtx s slot) "no live context" (fun x =>
    need x.fr.cur "no frame is in progress" (fun f =>
      guardThat (f.geo.phase == .running && !f.geo.binned && feDone s slot f) "a front end has not finished" (.next (binningDone slot f s))))

/-! ## Disocclusion (06 R244) -/

/-- The marks of one splatted frame's static pixels. -/
def splatFrame (x : Ctx) (f : Frame) (b : BufferSet) (marks : Nat) : Nat :=
  let c := f.config
  let depth := setDepth c b; let ids := setObject c b
  let sx := ratio32 (scale2 (cbSxCode c)) 2; let sy := ratio32 (scale2 (cbSyCode c)) 2
  let cam := ((supplied x b.frame).map (·.camera)).getD b.camera
  (List.range (inWidth c * inHeight c)).foldl (fun m i =>
    let qx := i % inWidth c; let qy := i / inWidth c
    if ids.get qx qy 0 ≠ 0 then m
    else match splatBox cam f.camera b.depthReversed sx sy (cbWidth c) (cbHeight c) qx qy (depth.get qx qy 0) with
      | some q => markBox (cbWidth c) q m
      | none => m) marks
/-- The rendered frames that a frame splats: b, and b + 1 of an interpolated frame. -/
def splatted (x : Ctx) (f : Frame) : List (Option BufferSet) :=
  match f.base with
  | none => []
  | some b => setOf x b :: (if f.interpolated then [setOf x ((b + 1) % 2 ^ 32)] else [])
/-- SPLAT_COMPLETE. -/
def execSplatComplete (slot : Nat) (s : State) : Out :=
  need (liveCtx s slot) "no live context" (fun x =>
    need x.fr.cur "no frame is in progress" (fun f =>
      guardThat (hasMeshPass f && f.geo.phase == .running && !f.geo.splat
          && (splatted x f).all (fun b => (b.map (fun b => b.decoded.isSome)).getD false)) "there is nothing to splat now"
        (.next (chargeWork slot (modGeo slot (fun g =>
          { g with splat := true, marks := (splatted x f).foldl (fun m b => match b with | some b => splatFrame x f b m | none => m) 0 }) s)))))

end Sys2Proof.Machine
end

