-- ==== Sys2Proof/Machine/CoreSync.lean ====
section
/-!
DEFINITION. Synchronisation of threads (05 R187, R196–R206; 10 R366): fences, latches, hasps, the pixel interlock, the end of
a thread and of its task, and the waits' limits.
-/
namespace Sys2Proof.Machine

/-! ## What a thread waits for -/

/-- Copies of a thread that are not complete. -/
def copiesOf (s : State) (t : ThreadRef) : Nat := ((coreOf s t.core).copies.filter (fun c => c.2.thread == t.slot)).length
/-- Vault requests of a thread that have not returned. -/
def requestsLeft (s : State) (t : ThreadRef) : Nat := ((coreOf s t.core).vreqs.filter (fun r => r.2.thread == t.slot)).length
/-- The selected scopes of a FENCE are met (05 Table 5-6): the tensor engine and core store complete at issue. -/
def fenceMet (s : State) (t : ThreadRef) (scopes : Nat) : Bool :=
  (!scopes.testBit 1 || requestsLeft s t == 0) && (!scopes.testBit 3 || copiesOf s t == 0)
/-- What a FENCE does once it is met: TX drops the core's texture-cache lines. -/
def fenceDone (t : ThreadRef) (scopes : Nat) (s : State) : State :=
  if scopes.testBit 4 then modCore t.core (fun c => { c with tex := [] }) s else s
/-- Every scope. -/
def allScopes : Nat := 0x1F

/-! ## Latches (05 R200) -/

/-- Threads parked on a latch that satisfy a test run again. -/
def wakeLatch (staging : Bool) (index : Nat) (mine : Nat → Bool) (s : State) : State :=
  { s with cores := s.cores.map (fun c => (c.1, { c.2 with threads := c.2.threads.map (fun t =>
      (t.1, if t.2.park == .latch staging index && mine t.2.task then { t.2 with park := .running } else t.2)) })) }
/-- Note that a latch was set in the fabric cycle of an instant, and whether it was: an LCLR of that cycle leaves it set (05 R199). -/
def markSet (now index : Nat) (m : Nat × Nat) : Nat × Nat := (now / 8, (if m.1 = now / 8 then m.2 else 0) ||| 2 ^ index)
def setInCycle (now index : Nat) (m : Nat × Nat) : Bool := m.1 == now / 8 && m.2.testBit index
/-- Set a local latch of a task, and free its waiters. -/
def setLocal (task index : Nat) (s : State) : State :=
  wakeLatch false index (· == task) (modTask task (fun k => { k with
    latches := k.latches ||| BitVec.ofNat 8 (2 ^ index), latchMark := markSet s.now index k.latchMark }) s)
/-- Set a staging latch of a context, and free its waiters here and at its peers (12 R430). -/
def setStaging (slot index : Nat) (s : State) : State :=
  let peers := (((ctxOf s slot).map (·.latchWaiters)).getD []).filter (fun w => w.1 == index)
  let s1 := modCtx slot (fun x => { x with
    stagingBits := x.stagingBits ||| 2 ^ index, stagingMark := markSet s.now index x.stagingMark,
    latchWaiters := x.latchWaiters.filter (fun w => w.1 != index) }) s
  let s2 := wakeLatch true index (fun task => ((tget s1.tasks task).map (fun k => k.slot == slot)).getD false) s1
  peers.foldl (fun s w =>
    match w.2 with
    | .peer dev _ _ tag op _ => replyTo dev tag op 0 s
    | .thread _ => s) s2
/-- Clear a latch, unless an LSET reached it in the same fabric cycle (05 R199). -/
def clearLocal (task index : Nat) (s : State) : State :=
  modTask task (fun k =>
    if setInCycle s.now index k.latchMark then k else { k with latches := BitVec.ofNat 8 (maskDiff k.latches.toNat (2 ^ index)) }) s
def clearStaging (slot index : Nat) (s : State) : State :=
  modCtx slot (fun x => if setInCycle s.now index x.stagingMark then x else { x with stagingBits := maskDiff x.stagingBits (2 ^ index) }) s
/-- Staging latches of a context: 64 for each unit of its allotment. -/
def stagingLatches (s : State) (slot : Nat) : Nat := 64 * ((ctxOf s slot).map (fun x => cbLatches x.cfg)).getD 0
/-- A latch as an instruction names it: local, staging, or imported. -/
inductive LatchAt where
  | local_ (index : Nat)
  | staging (index : Nat)
  | imported (r : Nat)
  deriving DecidableEq, Repr
/-- The latch of an index; none outside its space (05 R200; 12 R429). -/
def latchAt (s : State) (k : Task) (staging : Bool) (index : Nat) : Option LatchAt :=
  if !staging then (if index < 8 then some (.local_ index) else none)
  else if index < stagingLatches s k.slot then some (.staging index)
  else if 0x10000 ≤ index ∧ (importRange s (taskWard s k) false (index - 0x10000)).isSome then some (.imported (index - 0x10000))
  else none
/-- Is a latch of this device set? -/
def latchIsSet (s : State) (k : Task) : LatchAt → Bool
  | .local_ i => k.latches.toNat.testBit i
  | .staging i => ((ctxOf s k.slot).map (fun x => x.stagingBits.testBit i)).getD false
  | .imported _ => false
/-- LSET takes effect. -/
def setLatchNow (t : ThreadRef) (staging : Bool) (index : Nat) (s : State) : State :=
  match threadOf s t with
  | none => s
  | some th =>
    match tget s.tasks th.task with
    | none => s
    | some k =>
      match latchAt s k staging index with
      | none => parkedFault t kfLatchRange s
      | some (.local_ i) => setLocal th.task i s
      | some (.staging i) => setStaging k.slot i s
      | some (.imported r) => startRemote t 3 r 0 s

/-! ## Hasps (05 R202, R203) -/

/-- A hasp as an instruction names it: of this device, or imported. -/
inductive HaspAt where
  | here (id : Nat)
  | imported (r : Nat)
  deriving DecidableEq, Repr
/-- The hasp of a context-relative index; none outside its ranges (05 R202; 12 R429). -/
def haspNamed (s : State) (k : Task) (index : Nat) : Option HaspAt :=
  if index < 8192 then ((ctxOf s k.slot).bind (fun x => haspAt x index)).map .here
  else if (importRange s (taskWard s k) true (index - 8192)).isSome then some (.imported (index - 8192)) else none
/-- HREL takes effect: a count of 0xFFFF, found before the acquisitions of the same fabric cycle (05 R199), faults and stays. -/
def releaseHaspNow (t : ThreadRef) (index : Nat) (s : State) : State :=
  match (threadOf s t).bind (fun th => tget s.tasks th.task) with
  | none => s
  | some k =>
    match haspNamed s k index with
    | none => parkedFault t kfHaspRange s
    | some (.here id) =>
      let h := tgetD s.hasps id {}
      if 0xFFFF ≤ h.count.toNat + (recentOf s h).length then parkedFault t kfHaspOverflow s
      else settleInherit (haspSettle id (modHasp id (haspGive k.slot) s))
    | some (.imported r) => startRemote t 2 r 0 s

/-! ## The end of a task -/

/-- The network that a tile task, or a tile task of a training step, runs: its image, its environment before any layer, and the tile. -/
structure TileNet where
  img : Bytes
  net : Net
  handle : Nat
  config : Bytes
  env : NEnv
  tile : Nat
/-- The network of a task: none at rung 3, and none for other tasks. -/
def tileNet (s : State) (x : Ctx) (k : Task) : Option TileNet :=
  match k.kind with
  | .tile i =>
    if 3 ≤ k.rung then none
    else (frameOfTask x k).bind (fun f => (frameImage s x f).bind (fun b => (netOfRole b (synthRole f) k.rung).map (fun n =>
      { img := b, net := n.2, handle := f.image.getD 0, config := f.config, env := tileEnv s k.slot x f b n.2 i, tile := i })))
  | .train _ =>
    x.ad.running.bind (fun st => (boundImage s x).bind (fun b => (trainNet b st.block).map (fun n =>
      let p := (st.batch.filterMap id).getD (k.index / 4) {}
      let t := tilesOf.getD (k.index % 4) (0, 0)
      { img := b, net := n.2, handle := x.image.getD 0, config := st.block, env := patchEnv st.block b n.2 x.ad.master x.ad.hist p t.1 t.2,
        tile := (p.y0 / 64 + t.2) * tilesX st.block + p.x0 / 64 + t.1 })))
  | _ => none
/-- The environment of a task's network after the layers it has run. -/
def tileEnvNow (k : Task) (n : TileNet) : NEnv := (runLayers k.customs k.progress n.net.first n.env).1
/-- Where a CUSTOM layer's tensors lie in the task's core store: after the kernel's STORE_BYTES, each from a multiple of 64. -/
def tilePlaces (ts : List Tensor) (l : Layer) (base : Nat) : Table (Nat × Nat) :=
  ([l.in0, l.in1, l.in2, l.out].foldl (fun (acc : Nat × Table (Nat × Nat)) i =>
    if i = noIndex ∨ (tget acc.2 i).isSome ∨ (tn ts i).const then acc
    else (acc.1 + streamBytes (tn ts i), tput acc.2 i (acc.1, streamBytes (tn ts i)))) (up64 base, [])).2
/-- A kernel of a tile's CUSTOM layer is running. -/
def customRuns (s : State) (id : Nat) : Bool := s.tasks.any (fun x => x.2.kind == .custom id)
/-- The kernel of a CUSTOM layer starts beside the tile task: with threads and registers of its own, in the tile task's pages, with
its inputs after its STORE_BYTES (05 R185, R215; log 74). -/
def startCustom (id : Nat) (x : Ctx) (k : Task) (n : TileNet) (l : Layer) (s : State) : Option State :=
  match tget (wardOf s x.ward).images n.handle with
  | none => none
  | some im =>
    let kern := pKernel l
    let rec_ := kernelRec (imgBytes im.bytes 0x09) kern
    let ts := tensorsOf im.bytes
    let places := tilePlaces ts l rec_.store
    let e := tileEnvNow k n
    let store := ((layerReads l).filter (fun t => (tget places t).isSome)).foldl (fun m t =>
      let st := streamsOf (imgBytes im.bytes 0x05) (tn ts t) (tgetD e.vals t {})
      let a := (tgetD places t (0, 0)).1
      Mem.writeN (Mem.writeN m a st.1) (a + up64 (tensorBytes (tn ts t))) st.2) []
    let tx := tilesX n.config
    let boot := customBoot im l (fun t => ((tgetD places t (0, 0)).1, true)) n.tile (64 * (n.tile % tx) + 65536 * (64 * (n.tile / tx))) 64
    if roomFor s k.core rec_.threads (rec_.threads * rec_.vregs) 0 then
      let k1 : Task := { k with kind := .custom id, code := .kernel n.handle kern, threads := rec_.threads, vregs := rec_.vregs
                                layer := n.net.first + k.progress, boot := some boot, store := store, latches := 0, pages := [], customs := []
                                startedAt := s.now
                                size := max k.size (places.foldl (fun a p => max a (p.2.1 + p.2.2)) rec_.store) }
      some (bootTask s.nextTask k1 rec_.entry { s with tasks := tput s.tasks s.nextTask k1, nextTask := s.nextTask + 1 })
    else none
/-- The kernel of a tile's CUSTOM layer ends: its output is kept, and the built-in code goes on with the next layer. -/
def endCustom (id parent : Nat) (k : Task) (n : TileNet) (s : State) : State :=
  let l := (layersOf n.img).getD k.layer {}
  let ts := tensorsOf n.img
  let kern := match k.code with | .kernel _ j => j | .builtIn => 0
  let places := tilePlaces ts l (kernelRec (imgBytes n.img 0x09) kern).store
  let t := tn ts l.out
  let a := (tgetD places l.out (0, 0)).1
  let out := Mem.readN k.store a (tensorBytes t) ++ Mem.readN k.store (a + up64 (tensorBytes t)) (scaleBytes t)
  modTask parent (fun p => { p with progress := p.progress + 1, layer := k.layer, customs := tput p.customs k.layer out })
    (dropTasks (fun j _ => j == id) (chargeWork k.slot s))
/-- A tile task ends: its pixels are kept, its conversions counted, and with the last tile the frame is ready (01 R40, R50). -/
def endTile (id i : Nat) (x : Ctx) (k : Task) (s : State) : State :=
  match frameOfTask x k with
  | none => dropTasks (fun j _ => j == id) s
  | some f => unlessSpoiled k.slot k.core s (fun s =>
    let r := tileResult s k.slot x f i k.rung k.customs
    let ts := tensorsOf ((frameImage s x f).getD [])
    let ls := layersOf ((frameImage s x f).getD [])
    let s1 := r.2.foldl (fun s e => countLayer k.slot e.1 (degenerate ts (ls.getD e.1 {})) e.2 s) s
    let amax := r.2.foldl (fun t e =>
      let o := (ls.getD e.1 {}).out
      if (tn ts o).delayed then tput t o (max (tgetD t o 0) e.2.amax) else t) f.amax
    let s2 := if k.rung = 3 then tallyChip 0x23A 0 1 (some x.ward) s1 else s1
    let s3 := modFrame k.slot (fun f => { f with amax := amax, tiles := lmod f.tiles i (fun q => { q with done := true, rung := k.rung, px := some r.1 }) })
      (dropTasks (fun j _ => j == id) (chargeWork k.slot s2))
    if (((ctxOf s3 k.slot).bind (fun x => x.fr.cur)).map (fun f => f.tiles.all (·.done))).getD false then frameReady k.slot s3 else s3)
/-- Every thread of a task has ended: what its kind does then. Stripe, ray, capture and training tasks end on their own rows. -/
def taskEnds (id : Nat) (s : State) : State :=
  match tget s.tasks id with
  | none => s
  | some k =>
    if !allEnded s id k then s
    else match k.kind, ctxOf s k.slot with
      | .bin b, _ => endBin id k b s
      | .blend _ _, _ => wakePixels k.slot (chargeWork k.slot (dropTasks (fun j _ => j == id) s))
      | .hit _, _ => chargeWork k.slot (dropTasks (fun j _ => j == id) s)
      | .custom p, some x =>
        (match (tget s.tasks p).bind (tileNet s x) with
        | some n => endCustom id p k n s
        | none => dropTasks (fun j _ => j == id) s)
      | .tile i, some x => endTile id i x k s
      | _, _ => s
/-- END takes effect: the thread's fragments are released (05 R206), and the task ends with its last thread. -/
def endNow (t : ThreadRef) (s : State) : State :=
  match threadOf s t with
  | none => s
  | some th =>
    let s1 := fenceDone t allScopes (modThread t (fun th => { th with park := .ended, held := none, fragments := [] }) s)
    taskEnds th.task (wakePixels ((threadSlot s t).getD 0) s1)

/-! ## Parked threads go on -/

/-- A held release takes effect (05 R198). -/
def heldNow (t : ThreadRef) (h : Option Held) (s : State) : State :=
  match h with
  | some (.setLatch staging index) => setLatchNow t staging index s
  | some (.haspRelease index) => releaseHaspNow t index s
  | _ => s
/-- A thread whose copies, requests or remote operation moved on: it goes on if its condition is met. -/
def settleThread (t : ThreadRef) (s : State) : State :=
  match threadOf s t with
  | none => s
  | some th =>
    let run := modThread t (fun th => { th with park := .running, held := none }) s
    match th.park with
    | .copies n => if copiesOf s t ≤ n then run else s
    | .fence scopes => if fenceMet s t scopes then fenceDone t scopes run else s
    | .release => if copiesOf s t = 0 then heldNow t th.held run else s
    | .ending => if fenceMet s t allScopes && (recordOf s t).isNone then endNow t s else s
    | _ => s
/-- A reply to a pending record lands (12 R430–R432). -/
def replyLands (id : Nat) (q : Remote) (ok : Bool) (s : State) : State := settleThread q.thread (recordEnds id q ok s)

/-! ## Instructions -/

/-- The built-in code of a task has no more to do, so that its threads may end. -/
def builtInDone (s : State) (id : Nat) (k : Task) : Bool :=
  match k.code, k.kind with
  | .builtIn, .bin _ => binDrained s id k
  | .builtIn, .tile _ => (((ctxOf s k.slot).bind (fun x => tileNet s x k)).map (fun n => decide (n.net.count ≤ k.progress))).getD true
  | .builtIn, .train _ => (((ctxOf s k.slot).bind (fun x => tileNet s x k)).map (fun n => decide (n.net.count ≤ k.progress))).getD true
  | _, _ => true
/-- END: ends the thread after an implicit FENCE with every scope, and its outstanding remote operation (12 R431). -/
def execEndThread (t : ThreadRef) (f : KFields) (s : State) : Out :=
  guardThat (((threadOf s t).bind (fun th => (tget s.tasks th.task).map (builtInDone s th.task))).getD true) "the built-in code goes on"
    (issue 0x01 t f .none 0 s (fun th _ s =>
      if !guard0 th f then s
      else if fenceMet s t allScopes && (recordOf s t).isNone then endNow t s
      else parkThread t .ending none s))
/-- PCRD: counter IMM24[2:0] of the core, for a context with PERF_USER as this fabric cycle began, else zero (14 R475, R476). The
counts of the present cycle come when it ends. -/
def execPcrd (t : ThreadRef) (f : KFields) (s : State) : Out :=
  issue 0x24 t f .none 0 s (fun th k s1 =>
    if !guard0 th f then s1
    else
      let v := if (tget s.perf.userWas k.slot).getD (slotOf s k.slot).perfUser then (corePerf s t.core).cnt.getD (f.imm.toNat % 8) 0 else 0
      modThread t (wrS f.dst.toNat v) s1)
/-- VAULT_REPLY: a load's or atomic's value reaches its register, or an uncorrectable error tears the context down. -/
def execVaultReply (core req : Nat) (bad : Bool) (s : State) : Out :=
  need (tget (coreOf s core).vreqs req) "no such request" (fun r =>
    let s1 := modCore core (fun c => { c with vreqs := tdel c.vreqs req }) s
    match namedCtx s r.slot r.gen with
    | none => .next s1
    | some x =>
      if bad || (poisonIn (wardOf s x.ward) r.addr 1).isSome then .next (uncorrectable r.slot (if bad then 0x05 else 0x01) (r.addr / 64 * 64) core s1)
      else
        let t : ThreadRef := { core := core, slot := r.thread }
        .next (settleThread t (modThread t (fun th =>
          let th1 := { th with pendingDest := th.pendingDest.erase r.dest }
          match r.dest with
          | .none => th1
          | .s i => wrS i r.value th1
          | .v i => wrV i r.value th1) s1)))
/-- MCOPY_COMPLETE: the copy's bytes are written, unless it read an uncorrectable line. -/
def execMcopyComplete (core copy : Nat) (s : State) : Out :=
  need (tget (coreOf s core).copies copy) "no such copy" (fun c =>
    let t : ThreadRef := { core := core, slot := c.thread }
    let s1 := modCore core (fun x => { x with copies := tdel x.copies copy }) s
    match namedCtx s c.slot c.gen, threadOf s t with
    | some _, some th =>
      match c.spoiled with
      | some l => .next (uncorrectable c.slot 0x01 l core s1)
      | none =>
      let s2 := c.wardWrites.foldl (fun s w => wardWrite c.ward w.1 w.2 s) s1
      .next (settleThread t (c.storeWrites.foldl (fun s w => storeWrite th.task w.1 w.2 s) s2))
    | _, _ => .next s1)
/-- WAITC: park until at most IMM24 copies of the thread are outstanding. -/
def execWaitc (t : ThreadRef) (f : KFields) (s : State) : Out :=
  issue 0x87 t f .none 0 s (fun th _ s =>
    if guard0 th f && decide (f.imm.toNat < copiesOf s t) then parkThread t (.copies f.imm.toNat) none s else s)
/-- FENCE. -/
def execFenceScope (t : ThreadRef) (f : KFields) (s : State) : Out :=
  issue 0x88 t f .none 0 s (fun th _ s =>
    if !guard0 th f then s
    else if fenceMet s t f.imm.toNat then fenceDone t f.imm.toNat s
    else parkThread t (.fence f.imm.toNat) none s)
/-- The latch that an instruction names: IMM24[16], and s[a] + IMM24[15:0]. -/
def latchNamed (th : Thread) (f : KFields) : Bool × Nat := (f.imm.toNat.testBit 16, (rdS th f.a.toNat + f.imm.toNat % 65536) % 2 ^ 64)
/-- The shape of the latch instructions: nothing under a guard that is off, LATCH_RANGE outside the space, else `go`. -/
def latchOp (op : Nat) (t : ThreadRef) (f : KFields) (s : State) (go : Thread → Task → LatchAt → State → State) : Out :=
  issue op t f .none 0 s (fun th k s1 =>
    if !guard0 th f then s1
    else match latchAt s k (latchNamed th f).1 (latchNamed th f).2 with
      | none => kernelFault th k kfLatchRange 0 s
      | some l => go th k l s1)
/-- LSET: a release. -/
def execLset (t : ThreadRef) (f : KFields) (s : State) : Out :=
  latchOp 0xA0 t f s (fun th _ _ s =>
    let n := latchNamed th f
    if copiesOf s t = 0 then setLatchNow t n.1 n.2 s else parkThread t .release (some (.setLatch n.1 n.2)) s)
/-- LCLR. -/
def execLclr (t : ThreadRef) (f : KFields) (s : State) : Out :=
  latchOp 0xA1 t f s (fun th k l s =>
    match l with
    | .local_ i => clearLocal th.task i s
    | .staging i => clearStaging k.slot i s
    | .imported r => startRemote t 4 r 0 s)
/-- LWAIT: an acquire. -/
def execLwait (t : ThreadRef) (f : KFields) (s : State) : Out :=
  latchOp 0xA2 t f s (fun _ k l s =>
    match l with
    | .imported r => startRemote t 5 r 0 s
    | .local_ i => if latchIsSet s k l then s else parkThread t (.latch false i) none s
    | .staging i => if latchIsSet s k l then s else parkThread t (.latch true i) none s)
/-- LTEST. -/
def execLtest (t : ThreadRef) (f : KFields) (s : State) : Out :=
  latchOp 0xA3 t f s (fun _ k l s =>
    match l with
    | .imported r => startRemote t 6 r f.dst.toNat s
    | _ => modThread t (wrP f.dst.toNat (if latchIsSet s k l then 2 ^ 64 - 1 else 0)) s)
/-- The hasp index that an instruction names: s[a] + IMM24[11:0]. -/
def haspIndex (th : Thread) (f : KFields) : Nat := (rdS th f.a.toNat + f.imm.toNat % 4096) % 2 ^ 64
/-- The shape of the hasp instructions. -/
def haspOp (op : Nat) (t : ThreadRef) (f : KFields) (s : State) (go : Thread → Task → HaspAt → State → State) : Out :=
  issue op t f .none 0 s (fun th k s1 =>
    if !guard0 th f then s1
    else match haspNamed s k (haspIndex th f) with
      | none => kernelFault th k kfHaspRange 0 s
      | some h => go th k h s1)
/-- HACQ: decrement, or park in order of arrival; inheritance follows (05 R202; 10 R366). -/
def execHacq (t : ThreadRef) (f : KFields) (s : State) : Out :=
  haspOp 0xA4 t f s (fun _ k h s =>
    match h with
    | .imported r => startRemote t 0 r 0 s
    | .here id =>
      match acquire id t k.slot none s with
      | some s1 => settleInherit s1
      | none => settleInherit (parkThread t (.hasp id) none (modHasp id (joinParked s t) s)))
/-- HREL: a release. -/
def execHrel (t : ThreadRef) (f : KFields) (s : State) : Out :=
  haspOp 0xA5 t f s (fun th _ _ s =>
    if copiesOf s t = 0 then releaseHaspNow t (haspIndex th f) s else parkThread t .release (some (.haspRelease (haspIndex th f))) s)
/-- HTRY. -/
def execHtry (t : ThreadRef) (f : KFields) (s : State) : Out :=
  haspOp 0xA6 t f s (fun _ k h s =>
    match h with
    | .imported r => startRemote t 1 r f.dst.toNat s
    | .here id =>
      match acquire id t k.slot (some f.dst.toNat) s with
      | some s1 => settleInherit (modThread t (wrP f.dst.toNat (2 ^ 64 - 1)) s1)
      | none => modThread t (wrP f.dst.toNat 0) s)
/-- The pixels that the enabled lanes of v[a] name, each once. -/
def pixelsNamed (th : Thread) (f : KFields) : List Nat :=
  (((List.range 32).filter (fun i => (guardOf th f).testBit i)).map (fun i => lane 32 (rdV th f.a.toNat) i)).eraseDups
/-- PXLOCK: go on once every lower fragment at the named pixels is released (05 R205). -/
def execPxlock (t : ThreadRef) (f : KFields) (s : State) : Out :=
  issue 0xA7 t f .none 0 s (fun th k s =>
    let px := pixelsNamed th f
    let key := rdS th f.b.toNat
    if !guard0 th f then s
    else match k.kind, (ctxOf s k.slot).bind (fun x => frameOfTask x k) with
    | .blend b _, some fr => if px.isEmpty || lowerReleased s k.slot fr b key px then s else parkThread t (.pixels key px) none s
    | _, _ => s)
/-- PXUNLOCK: the thread's fragments at the named pixels are released (05 R206). -/
def execPxunlock (t : ThreadRef) (f : KFields) (s : State) : Out :=
  issue 0xA8 t f .none 0 s (fun th k s =>
    let px := pixelsNamed th f
    if !guard0 th f then s
    else wakePixels k.slot (modThread t (fun th => { th with fragments := th.fragments.filter (fun q => !px.contains q.1) }) s))

/-! ## The built-in code (05 R193, R215) -/

/-- The next layer of the network that a task runs: a tag that disagrees tears the context down, and a CUSTOM layer's kernel starts. -/
def networkStep (id : Nat) (k : Task) (s : State) : Out :=
  need (ctxOf s k.slot) "no context" (fun x =>
    need (tileNet s x k) "the task runs no network" (fun n =>
      guardThat (decide (k.progress < n.net.count) && !customRuns s id) "every layer has run, or one is running"
        (let idx := n.net.first + k.progress
         let l := (layersOf n.img).getD idx {}
         match layerSkew (tileEnvNow k n) l with
         | some (t, blk, want, d, sc) =>
           .next (faultOn k.core k.slot kScaleSkew 0 (natLe 4 t ++ natLe 4 blk ++ natLe 2 want ++ natLe 2 d ++ natLe 2 sc ++ natLe 4 idx) s)
         | none =>
           if l.op = 15 then need (startCustom id x k n l s) "the core has no room for the kernel's threads" (fun s => .next s)
           else .next (modTask id (fun k => { k with progress := k.progress + 1, layer := idx }) s))))
/-- The next layer of a task that runs a network, or the next batch of a bin task. -/
def layerStep (id : Nat) (k : Task) (s : State) : Out :=
  match k.kind with
  | .bin _ => need (binStep id k s) "the bin task has no batch to begin" (fun s => .next s)
  | .tile _ => networkStep id k s
  | .train _ => networkStep id k s
  | _ => notNow "the task has no layers of its own"
/-- BUILT_IN_INSTRUCTION: a thread of a task of the device's own code issues a system-only opcode. -/
def execBuiltInInstruction (t : ThreadRef) (op : BuiltIn) (s : State) : Out :=
  need (threadOf s t) "no thread" (fun th =>
    need (tget s.tasks th.task) "no task" (fun k =>
      guardThat (th.park == .running && k.started && k.code == .builtIn && (liveCtx s k.slot).isSome && coreIssues (coreOf s t.core))
        "the thread does not run built-in code"
        (let s1 := tally t.core 0x00A 1 (some (whoOf k)) (stepThread t s)
         match op with
         | .layerStep => layerStep th.task k s1
         | .expand | .epilogue | .warpBlend | .composite => .next (chargeWork k.slot s1))))

/-! ## Limits (05 R201, R204; 12 R432) -/

/-- A limit of the context in TB cycles has passed since an instant. -/
def limitPast (s : State) (since limit : Nat) : Bool := decide (since + rootOfTb limit < s.now)
/-- WAIT_LIMIT: a thread has been parked on LWAIT or PXLOCK for longer than the wait limit. -/
def execWaitLimit (t : ThreadRef) (s : State) : Out :=
  need (threadOf s t) "no thread" (fun th =>
    need ((tget s.tasks th.task).bind (fun k => liveCtx s k.slot)) "no live context" (fun x =>
      guardThat ((match th.park with | .latch _ _ => true | .pixels _ _ => true | _ => false) && limitPast s th.parkedAt (cbWaitLimit x.cfgInForce))
        "the limit has not passed" (.next (parkedFault t kfWaitLimit s))))
/-- The index by which a context names a hasp. -/
def indexOfHasp (x : Ctx) (id : Nat) : Nat :=
  ((x.hasps.findIdx? (· == some id)).orElse (fun _ => (x.granted.find? (fun g => g.2 == id)).map (·.1))).getD 0
/-- HASP_TIMEOUT: an HACQ has been parked for longer than the hasp timeout. -/
def execHaspTimeout (t : ThreadRef) (s : State) : Out :=
  need (threadOf s t) "no thread" (fun th =>
    need (tget s.tasks th.task) "no task" (fun k =>
      need (liveCtx s k.slot) "no live context" (fun x =>
        match th.park with
        | .hasp id =>
          guardThat (limitPast s th.parkedAt (cbHaspTimeout x.cfgInForce)) "the timeout has not passed"
            (.next (faultOn k.core k.slot kHaspTimeout 0 (natLe 2 (indexOfHasp x id) ++ [0, 0] ++ natLe 4 k.layer) s))
        | _ => notNow "the thread is not parked on a hasp")))
/-- REMOTE_WAIT_LIMIT: a pending record is older than the remote-wait limit; a reply of the same fabric cycle falls first. -/
def execRemoteWaitLimit (rec : Nat) (s : State) : Out :=
  need (tget s.remotes rec) "no such record" (fun q =>
    need (namedCtx s q.slot q.gen) "no live context" (fun x =>
      guardThat (limitPast s q.sentAt (cbRemoteLimit x.cfgInForce)) "the limit has not passed"
        (.next { s with remotes := tput s.remotes rec { q with expired := true } })))

end Sys2Proof.Machine
end

