-- ==== Sys2Proof/Machine/HingePort.lean ====
section
/-!
DEFINITION. Hinge ports: reception of flits, replay, training and retraining, the loss of a neighbour, and HINGE_CONFIG
(12 R415–R422, R435–R438).
-/
namespace Sys2Proof.Machine

/-! ## Reception (12 R415, R416, R419) -/

/-- Sent flits beyond an acknowledged SEQ stay in the replay buffer. -/
def ackTo (ack : Nat) (x : Port) : Port := { x with replay := x.replay.filter (fun f => later 12 f.1 ack) }
/-- Credits come back: class 1 fills the LC reserve first (log 42). -/
def takeCredits (cls n : Nat) (x : Port) : Port :=
  if cls = 0 then { x with cCtl := min 32 (x.cCtl + n) }
  else if cls = 1 then
    let r := min n (x.reserve - x.cLc)
    { x with cLc := x.cLc + r, cShared := min (992 - x.reserve) (x.cShared + (n - r)) }
  else if cls = 2 then { x with cShared := min (992 - x.reserve) (x.cShared + n) }
  else x
/-- Send again every unacknowledged flit, in order (12 R416). -/
def resend (x : Port) : Port :=
  let n := x.replay.length
  let ack := (x.expected + 4095) % 4096
  let a := bump32 x.replays n
  let b := bump64 x.txFlits n
  { x with wire := x.wire ++ x.replay.map (fun f => flitBytes f.2 f.1 ack x.nakOwed), replays := a.1, txFlits := b.1, again := x.again + n, wrapped := x.wrapped || a.2 || b.2, fresh := portFresh x (a.2 || b.2) }
/-- A port begins a retrain (12 R417). -/
def startRetrain (x : Port) : Port :=
  { x with state := 1, retraining := true, nakRun := 0, retrains := (bump32 x.retrains 1).1, wrapped := x.wrapped || (bump32 x.retrains 1).2, fresh := portFresh x ((bump32 x.retrains 1).2) }
/-- A NAK: resend from ACK_SEQ + 1; the eighth for one SEQ, with no NAK for another one between, starts a retrain (log 86). -/
def takeNak (seq : Nat) (x : Port) : Port :=
  let run := if x.nakRun ≠ 0 ∧ x.nakSeq = seq then x.nakRun + 1 else 1
  let x1 := { x with nakRun := run, nakSeq := seq }
  if run = 8 then startRetrain x1 else resend x1
/-- A whole message has been assembled: a malformed one is discarded and counted (12 R426). -/
def takeMessage (b : Bytes) (x : Port) : Port :=
  let m : HMsg := { hdr := b.take 32, payload := b.drop 32 }
  if decide (32 ≤ b.length) && hdrOk m.hdr && mLength m.hdr == m.payload.length then { x with rx := x.rx ++ [m] }
  else { x with discards := (bump32 x.discards 1).1, wrapped := x.wrapped || (bump32 x.discards 1).2, fresh := portFresh x ((bump32 x.discards 1).2) }
/-- The payload of an accepted flit joins its class's message; its buffer is freed at once (log 42). -/
def takePayload (b : Bytes) (ctl : Nat) (x : Port) : Port :=
  let cls := field ctl 59 58
  if cls = 3 then x
  else
    let n := if ctl.testBit 55 then min 240 (field ctl 54 47) else 240
    let old := if ctl.testBit 56 then [] else if cls = 0 then x.p0 else if cls = 1 then x.p1 else x.p2
    let msg := old ++ b.take n
    let x1 := { x with
      o0 := if cls = 0 then x.o0 + 1 else x.o0, o1 := if cls = 1 then x.o1 + 1 else x.o1, o2 := if cls = 2 then x.o2 + 1 else x.o2 }
    let left := if ctl.testBit 55 then [] else msg
    let x2 := if cls = 0 then { x1 with p0 := left } else if cls = 1 then { x1 with p1 := left } else { x1 with p2 := left }
    if ctl.testBit 55 then takeMessage msg x2 else x2
/-- A port receives a flit. -/
def receive (b : Bytes) (x : Port) : Port :=
  let ctl := fld b 240 12
  if crc32 (b.take 252) ≠ fld b 252 4 then
    { x with crcErrors := (bump32 x.crcErrors 1).1, wrapped := x.wrapped || (bump32 x.crcErrors 1).2, fresh := portFresh x ((bump32 x.crcErrors 1).2), nakOwed := true }
  else if field ctl 95 84 ≠ x.expected then x
  else
    let ack := field ctl 83 72
    let x1 := { x with rxFlits := (bump64 x.rxFlits 1).1, wrapped := x.wrapped || (bump64 x.rxFlits 1).2, fresh := portFresh x ((bump64 x.rxFlits 1).2), expected := (x.expected + 1) % 4096 }
    let x2 := takePayload b ctl (takeCredits (field ctl 71 70) (field ctl 69 60) (ackTo ack x1))
    if ctl.testBit 57 then takeNak ((ack + 1) % 4096) x2 else if later 12 x2.nakSeq ack then x2 else { x2 with nakRun := 0 }
/-- FLIT: a flit that reaches a port which is not UP is not received. -/
def execFlit (port : Nat) (bits : BitVec 2048) (s : State) : Out :=
  if (portOf s port).state = 2 then .next (sendPort port (fun x => pumpAll (receive (natLe 256 bits.toNat) x)) s) else .next s

/-! ## What a lost link ends (12 R432, R436) -/

/-- End the pending records that satisfy a test, with REMOTE_LOST. -/
def loseRecords (test : Remote → Bool) (reason : Nat) (s : State) : State :=
  (s.remotes.filter (fun r => test r.2)).foldl (fun s r =>
    let layer := (((threadOf s r.2.thread).bind (fun th => tget s.tasks th.task)).map (·.layer)).getD 0
    remoteLost r.2.slot layer r.2.dev reason s) s
/-- The remote contexts that hold or wait on a hasp. -/
def haspPeers (h : Hasp) : List Peer :=
  h.peers.map (·.1) ++ h.parked.filterMap (fun w => match w with
    | .peer dev ward slot _ _ _ => some { dev := dev, ward := ward, slot := slot }
    | .thread _ => none)
/-- Every holder and parked request of the peers that satisfy a test is gone. -/
def dropPeers (test : Peer → Bool) (s : State) : State :=
  let s1 := s.hasps.foldl (fun s x => (haspPeers x.2).foldl (fun s p => if test p then haspDropPeer p x.1 s else s) s) s
  settleInherit { s1 with ctxs := s1.ctxs.map (fun x => (x.1, { x.2 with latchWaiters := x.2.latchWaiters.filter (fun w => match w.2 with
    | .peer dev ward slot _ _ _ => !test { dev := dev, ward := ward, slot := slot }
    | .thread _ => true) })) }
/-- Peers that no route reaches any more. -/
def settleUnreachable (s : State) : State :=
  let s1 := loseRecords (fun q => (routePort s q.dev).isNone) 0x02 s
  dropPeers (fun p => (routePort s p.dev).isNone) s1
/-- The positions at the two ends of the link of a ring port. -/
def linkOf (b : Bytes) (port : Nat) : Nat × Nat :=
  let n := hcRingSize b
  let own := hcPosition b
  if hcTopology b = 0 ∨ 2 ≤ port then (0x10000 + port, 0x10000 + port)
  else if port = 0 then (own, (own + 1) % n) else ((own + n - 1) % n, own)
/-- The same link, whichever end is named first. -/
def sameLink (a b : Nat × Nat) : Bool := a == b || a == (b.2, b.1)
/-- A record's route crosses a link: its request left by a ring port toward the peer's position. -/
def recordCrosses (s : State) (b : Bytes) (l : Nat × Nat) (q : Remote) : Bool :=
  match routeOf s q.dev with
  | none => false
  | some r =>
    let n := hcRingSize b
    let own := hcPosition b
    decide (q.port < 2) && hcTopology b != 0 && crosses n (if q.port = 0 then upLinks n own r.position else upLinks n r.position own) l
/-- A broken link becomes known: the records whose route it cuts are lost. -/
def learnBreak (b : Bytes) (l : Nat × Nat) (s : State) : State :=
  loseRecords (recordCrosses s b l) 0x02 { s with hinge := { s.hinge with known := s.hinge.known ++ [l] } }

/-- A port of its own device goes DOWN: its queued and unacknowledged messages are lost and counted, and the records whose
route leaves by it end. -/
def portDown (p : Nat) (s : State) : State :=
  let x := portOf s p
  let stops := (x.replay.map (·.2) ++ x.q0 ++ x.q1 ++ x.q2).filter (·.stop)
  let s1 := modPort p (fun x => { x with
    state := 0, retraining := false, downEvent := true, fresh := x.fresh ||| 16, lanes := 0, q0 := [], q1 := [], q2 := [], replay := [], p0 := [], p1 := [], p2 := [] }) s
  loseRecords (fun q => q.port == p) 0x02 (discardAt p stops.length s1)
/-- A message of the link itself, sent on one port. -/
def sendLink (p ty op : Nat) (s : State) : State :=
  match s.hinge.cfg with
  | some b => queueAt p { hdr := mkHdr ty 0 0 0xFFF (hcId b) (hcHopLimit b) 0 0 op, payload := [] } s
  | none => s
/-- LINK_DOWN or LINK_UP for a link. -/
def sendNotice (p ty : Nat) (l : Nat × Nat) (s : State) : State := sendLink p ty (l.1 % 4096 + l.2 % 4096 * 2 ^ 12) s

/-! ## Training (12 R417, R421) -/

/-- WIDTH code of a mask of active lanes. -/
def widthCode (mask : Nat) : Nat :=
  let n := popcount 8 mask
  if n = 8 then 3 else if n = 4 then 2 else if n = 2 then 1 else 0
/-- The lanes that stay in use when some have failed: all, or the first group of four or pair that holds no failed lane. -/
def healthyLanes (active failed : Nat) : Nat :=
  if active &&& failed = 0 then active
  else
    let fours := if popcount 8 active = 8 then [0x0F, 0xF0] else []
    ((fours ++ [0x03, 0x0C, 0x30, 0xC0]).find? (fun m => m &&& failed == 0)).getD 0
/-- A port's link starts afresh: sequence numbers, buffers and credits as at training. -/
def freshLink (reserve : Nat) (x : Port) : Port :=
  { x with
    retraining := false, q0 := [], q1 := [], q2 := [], replay := [], nextSeq := 0, cCtl := 32, cLc := reserve, cShared := 992 - reserve
    reserve := reserve, expected := 0, nakOwed := false, nakRun := 0, nakSeq := 0, o0 := 0, o1 := 0, o2 := 0, p0 := [], p1 := [], p2 := []
    rx := [], wire := [] }
/-- The LC reserve of a port (12 R419). -/
def reserveOf (b : Bytes) (p : Nat) : Nat := 992 * hcReserve b p / 16
/-- A link that was known to be broken is restored: LINK_UP goes round the ring, and routes stay (12 R437). -/
def restoreLink (p : Nat) (b : Bytes) (s : State) : State :=
  let l := linkOf b p
  if s.hinge.known.any (sameLink l) then
    let s1 : State := { s with hinge := { s.hinge with known := s.hinge.known.filter (fun k => !sameLink l k) } }
    if hcTopology b = 2 ∧ p < 2 then sendNotice (1 - p) tyUp l s1 else s1
  else s
/-- PORT_TRAINED: training ends UP with a mask of lanes, and HELLO goes out, or the port reports DOWN. -/
def execPortTrained (port : Nat) (up : Bool) (lanes : Nat) (s : State) : Out :=
  let x := portOf s port
  need s.hinge.cfg "no configuration is in force" (fun b =>
    guardThat (hcEnable b port && (x.state == 0 || x.state == 1) && !x.retraining) "the port is not training"
      (if up then
        let s1 := modPort port (fun x => { freshLink (reserveOf b port) x with state := 2, lanes := lanes }) s
        .next (restoreLink port b (sendLink port tyHello 0 s1))
       else if x.state = 1 then .next (portDown port s) else .next s))
/-- LANE_FAIL: lanes of an UP port fail, and it retrains. -/
def execLaneFail (port lanes : Nat) (s : State) : Out :=
  guardThat ((portOf s port).state == 2) "the port is not up"
    (.next (modPort port (fun x => startRetrain { x with laneFail := x.laneFail ||| (lanes % 256) }) s))
/-- A degrade: DEGRADED, and LANE_DEGRADE with a DETAIL whose layout no rule gives, a free value. -/
def degrade (port : Nat) (s : State) : State :=
  let d := drawFree s
  raiseErr eLaneDegrade 0 (d.1.toNat % 2 ^ 48) none (modPort port (fun x => { x with degraded := true, fresh := x.fresh ||| 64 }) d.2)
/-- RETRAIN_COMPLETE: the port is UP again, sends HELLO, goes on with its healthy lanes and sends again what is not acknowledged, or goes DOWN. -/
def execRetrainComplete (port : Nat) (ok : Bool) (s : State) : Out :=
  let x := portOf s port
  let lanes := healthyLanes x.lanes x.laneFail
  guardThat (x.state == 1 && x.retraining) "the port is not retraining"
    (if ok && lanes != 0 then
      let s1 := sendLink port tyHello 0 (sendPort port (fun x => pumpAll (resend { x with state := 2, retraining := false, lanes := lanes })) s)
      .next (if lanes ≠ x.lanes then degrade port s1 else s1)
     else .next (portDown port s))

/-! ## The loss of a neighbour (12 R435) -/

/-- NEIGHBOUR_LOSS: a port loses its neighbour, or has just gone DOWN. In a ring LINK_DOWN goes out on the other ring port;
elsewhere no alternate route exists, and what lies beyond is unreachable. -/
def execNeighbourLoss (port : Nat) (s : State) : Out :=
  need s.hinge.cfg "no configuration is in force" (fun b =>
    let l := linkOf b port
    let s1 := if (portOf s port).state = 0 then s else portDown port s
    guardThat (hcEnable b port && (portOf s port).state != 3 && !s.hinge.known.any (sameLink l)) "the loss is known"
      (let s2 := learnBreak b l s1
       if hcTopology b = 2 ∧ port < 2 then .next (sendNotice (1 - port) tyDown l s2)
       else .next (settleUnreachable { s2 with hinge := { s2.hinge with avoided := s2.hinge.avoided ++ [l] } })))
/-- REROUTE: routes avoid every link that is known to be broken. -/
def execReroute (s : State) : Out :=
  guardThat (s.hinge.known.any (fun l => !s.hinge.avoided.any (sameLink l))) "no broken link is new"
    (let fresh := s.hinge.known.filter (fun l => !s.hinge.avoided.any (sameLink l))
     .next (settleUnreachable { s with hinge := { s.hinge with avoided := s.hinge.avoided ++ fresh, reroutes := s.hinge.reroutes + 1 } }))

/-! ## HINGE_CONFIG (12 R438, Table 12-6) -/

/-- The checks of the header part. -/
def hcHeader (b : Bytes) : List (Bool × Nat) :=
  let ring := hcTopology b != 0
  [(fld b 0 1 != 1, 0x00), (decide (2 < hcTopology b), 0x01), (decide (0xFFE < hcId b), 0x02),
   (if ring then decide (hcRingSize b < 2) || decide (4095 < hcRingSize b) else hcRingSize b != 0, 0x04),
   (if ring then decide (hcRingSize b ≤ hcPosition b) else hcPosition b != 0, 0x06),
   (decide (15 < fld b 8 1), 0x08), (decide (15 < fld b 9 1), 0x09)]
  ++ (List.range 4).map (fun p => (decide (16 < hcReserve b p), 0x0A + p)) ++
  [(hcHopLimit b == 0 || decide (4095 < hcHopLimit b), 0x0E), (decide (4095 < hcRoutes b), 0x10), (decide (4096 < hcRemotes b), 0x12)]
  ++ hbReserved' b 0x14 44
where
  /-- Reserved bytes, each failing at its own offset. -/
  hbReserved' (b : Bytes) (off n : Nat) : List (Bool × Nat) := (List.range n).map (fun i => (fld b (off + i) 1 != 0, off + i))
/-- The checks of route entry k. -/
def hcRouteBad (b : Bytes) (k : Nat) : List (Bool × Nat) :=
  let o := 64 + 8 * k
  let r := hcRoute b k
  [(decide (0xFFE < r.dest) || r.dest == hcId b || (List.range k).any (fun j => (hcRoute b j).dest == r.dest), o),
   (if hcTopology b = 0 then r.position != 0 else decide (hcRingSize b ≤ r.position), o + 4),
   (if hcTopology b = 0 then decide (3 < r.port) else !(r.port == 2 || r.port == 3 || r.port == 0xFF), o + 6),
   (fld b (o + 7) 1 != 0, o + 7)]
/-- Two import ranges of one ward and kind overlap. -/
def importsMeet (e f : RemoteRange) : Bool :=
  e.kind == f.kind && e.ward == f.ward && decide (e.first < f.first + f.count) && decide (f.first < e.first + e.count)
/-- The checks of remote entry k. -/
def hcRemoteBad (b : Bytes) (k : Nat) : List (Bool × Nat) :=
  let o := 64 + 8 * hcRoutes b + 16 * k
  let e := hcRemote b k
  let out := e.kind == 0x01 || e.kind == 0x02
  [(!([0x01, 0x02, 0x11, 0x12].contains e.kind), o), (decide (15 < e.ward), o + 1),
   (if out then decide (1023 < e.slot) else e.slot != 0, o + 2),
   (e.count == 0 || decide (4096 < e.count) || decide (4096 < e.first + e.count)
      || (!out && (List.range k).any (fun j => importsMeet e (hcRemote b j))), o + 6),
   (!((List.range (hcRoutes b)).any (fun j => (hcRoute b j).dest == e.peer)), o + 8), (decide (15 < e.peerWard), o + 10),
   (fld b (o + 11) 1 != 0, o + 11), (if out then e.peerSlot != 0 else decide (1023 < e.peerSlot), o + 12),
   (out && e.peerFirst != 0, o + 14)]
/-- The offset of the first field that fails. -/
def hingeBlockBad (b : Bytes) : Option Nat :=
  match (hcHeader b).find? (fun x => x.1) with
  | some x => some x.2
  | none =>
    (((List.range (hcRoutes b)).flatMap (hcRouteBad b) ++ (List.range (hcRemotes b)).flatMap (hcRemoteBad b)).find? (fun x => x.1)).map (·.2)
/-- A record, a remote holder or a parked request exists on a range in force. -/
def rangeUsed (s : State) (e : RemoteRange) : Bool :=
  let peer := fun (p : Peer) => p.dev == e.peer && p.ward == e.peerWard
  let within := fun (i : Nat) => decide (e.first ≤ i) && decide (i < e.first + e.count)
  if e.kind = 0x01 then
    ((ctxOf s e.slot).map (fun x => (List.range x.hasps.length).any (fun i =>
      within i && ((haspAt x i).bind (fun id => tget s.hasps id)).any (fun h => (haspPeers h).any peer)))).getD false
  else if e.kind = 0x02 then
    ((ctxOf s e.slot).map (fun x => x.latchWaiters.any (fun w => within w.1 && (match w.2 with
      | .peer dev ward slot _ _ _ => peer { dev := dev, ward := ward, slot := slot }
      | .thread _ => false)))).getD false
  else
    s.remotes.any (fun r => r.2.ward == e.ward && opOnHasp r.2.op == (e.kind == 0x11) && r.2.dev == e.peer && r.2.tward == e.peerWard
      && r.2.tslot == e.peerSlot && decide (e.peerFirst ≤ r.2.target) && decide (r.2.target < e.peerFirst + e.count))
/-- A port under a new block: one that is enabled, UP, undegraded and with its rate and reserve unchanged stays as it is; every
other enabled port trains; one that is not enabled is DOWN (log 41). -/
def portUnder (old : Option Bytes) (b : Bytes) (p : Nat) (x : Port) : Port :=
  if !hcEnable b p then { freshLink (reserveOf b p) x with state := 0, lanes := 0 }
  else if x.state = 2 ∧ !x.degraded ∧ x.laneFail = 0 ∧
      (old.map (fun o => hcEnable o p && (fld o 9 1).testBit p == (fld b 9 1).testBit p && hcReserve o p == hcReserve b p && hcId o == hcId b)).getD false then x
  else { freshLink (reserveOf b p) x with state := 1, laneFail := 0, lanes := 0, degraded := false }
/-- The links that stay broken under a new block: those between other members of the same ring or chain that no LINK_UP has restored.
The ports' own links train anew (log 41). -/
def brokenUnder (old : Option Bytes) (b : Bytes) (known : List (Nat × Nat)) : List (Nat × Nat) :=
  if (old.map (fun o => hcTopology o == hcTopology b && hcRingSize o == hcRingSize b && hcPosition o == hcPosition b)).getD false then
    known.filter (fun l => !((List.range 4).any (fun p => sameLink (linkOf b p) l)) && decide (l.1 < 0x10000))
  else []
/-- HINGE_CONFIG with its block read. -/
def hingeConfigGo (fn seq : Nat) (c : Cmd) (s : State) : State :=
  let r : RingRef := .admin fn
  let n := entArg c.entry 0
  let b := hostRead s (entAddr0 c.entry) n
  if n < 64 ∨ n ≠ 64 + 8 * hcRoutes b + 16 * hcRemotes b then fail r seq kBadEntry 0x06 s
  else
    match hingeBlockBad b with
    | some off => complete r seq kBadConfig ccValue (natLe 4 off) s
    | none =>
      let old := (s.hinge.cfg.map hcRanges).getD []
      if old.any (fun e => !(hcRanges b).contains e && rangeUsed s e) then fail r seq kBadState 0x02 s
      else
        let ports := (List.range 4).map (fun p => portUnder s.hinge.cfg b p (portOf s p))
        let broken := brokenUnder s.hinge.cfg b s.hinge.known
        completeOk r seq [] (settleUnreachable { s with hinge := { s.hinge with cfg := some b, ports := ports, known := broken, avoided := broken } })
/-- HINGE_CONFIG. -/
def execHingeConfig (fn seq : Nat) (s : State) : Out := command (.admin fn) seq 0x0B s (fun c s => hingeConfigGo fn seq c s)

end Sys2Proof.Machine
end

