-- ==== Sys2Proof/Machine/HingeMsgs.lean ====
section
/-!
DEFINITION. Hinge messages: forwarding and acceptance, packets, slice credits, remote operations at the exporter, their replies,
inheritance, and the notices of links (12 R421, R424–R437).
-/
namespace Sys2Proof.Machine

/-! ## Taking a message (12 R424, R425) -/

/-- A port's oldest whole message. -/
def firstMsg (s : State) (port : Nat) (ty : Nat) : Option HMsg := (portOf s port).rx.head?.bind (fun m => if mType m.hdr = ty then some m else none)
/-- The message leaves its port. -/
def popMsg (port : Nat) (s : State) : State := modPort port (fun x => { x with rx := x.rx.drop 1 }) s
/-- Forward a message that is for another device, or discard it. -/
def forwardMsg (port : Nat) (m : HMsg) (s : State) : State :=
  match (if mHops m.hdr = 0 then none else routePort s (mDest m.hdr)) with
  | some p => queueAt p { m with hdr := patch m.hdr 14 (natLe 2 (mHops m.hdr - 1)) } s
  | none => discardAt port 1 s
/-- A message from a source is accepted for a ward (12 R425). -/
def acceptsFrom (s : State) (src wd : Nat) : Bool := ((routeOf s src).map (fun r => r.wards.testBit wd)).getD false
/-- The shape of a message row: forwarded, or taken for the ward that it names where that ward accepts it, else discarded. -/
def message (port ty : Nat) (s : State) (ward : HMsg → Option Nat) (go : HMsg → Nat → State → State) : Out :=
  need (firstMsg s port ty) "no such message has arrived" (fun m =>
    let s1 := popMsg port s
    if mDest m.hdr ≠ ownId s then .next (forwardMsg port m s1)
    else
      match ward m with
      | some w => if acceptsFrom s (mSrc m.hdr) w then .next (go m w s1) else .next (discardAt port 1 s1)
      | none => .next (discardAt port 1 s1))

/-! ## Packets, slices and credits (12 R427, R428) -/

/-- Links that a message has crossed, taking the sender's HOP_LIMIT to be this device's (log 43). -/
def hopsCrossed (s : State) (m : HMsg) : Nat := ((s.hinge.cfg.map hcHopLimit).getD 0 - mHops m.hdr) + 1
/-- The packet goes to its ward's ingest, from the receiving port; its bytes are charged to the context of its generation (10 R352). -/
def ingestFrom (pose : Bool) (port : Nat) (m : HMsg) (wd : Nat) (s : State) : State :=
  let slot := if pose then posSlot m.payload else rpSlot m.payload
  let gen := if pose then posGen m.payload else rpGen m.payload
  let k : Packet := { pose := pose, port := 1 + port, hops := hopsCrossed s m, bytes := m.payload }
  modWard wd (fun w => { w with transit := w.transit ++ [k] }) (if (namedCtx s slot gen).isSome then chargeHinge slot m.payload.length 0 s else s)
/-- RENDER. -/
def execRender (port : Nat) (s : State) : Out :=
  message port tyRender s (fun m => (ctxOf s (rpSlot m.payload)).map (·.ward)) (fun m w s => ingestFrom false port m w s)
/-- POSE. -/
def execPose (port : Nat) (s : State) : Out :=
  message port tyPose s (fun m => (ctxOf s (posSlot m.payload)).map (·.ward)) (fun m w s => ingestFrom true port m w s)
/-- SLICE: forwarded; a part discards one addressed to itself. -/
def execSlice (port : Nat) (s : State) : Out :=
  need (firstMsg s port tySlice) "no such message has arrived" (fun m =>
    if mDest m.hdr ≠ ownId s then .next (forwardMsg port m (popMsg port s)) else .next (popMsg port s))
/-- The heads whose slices go to a destination's stream. -/
def headsTo (s : State) (dest stream : Nat) : List Nat :=
  (s.heads.filter (fun x => (x.2.cfg.map (fun b =>
    hbHinge b && hbHingeDest b % 4096 == dest && hbHingeDest b / 65536 % 1024 == stream)).getD false)).map (·.1)
/-- SLICE_CREDIT: entries returned to the head of the stream, up to ENTRY_COUNT. -/
def execSliceCredit (port : Nat) (s : State) : Out :=
  message port tyCredit s
    (fun m => (headsTo s (mSrc m.hdr) (mOp m.hdr % 1024)).head?.bind (fun h => (List.range 16).find? (fun w => (wardOf s w).cfg.headMask.testBit h)))
    (fun m _ s => (headsTo s (mSrc m.hdr) (mOp m.hdr % 1024)).foldl (fun s h => modHead h (fun x =>
      { x with sliceCredits := min ((x.cfg.map hbEntryCount).getD 0) (x.sliceCredits + mOp m.hdr / 65536 % 65536) }) s) s)

/-! ## Remote operations at the exporter (12 R429, R430) -/

/-- The fields of a request. -/
structure Req where
  dev : Nat := 0
  slot : Nat := 0
  ward : Nat := 0
  tag : Nat := 0
  data : Nat := 0
  op : Nat := 0
  inherit : Bool := false
  tward : Nat := 0
  tslot : Nat := 0
  target : Nat := 0
  deriving DecidableEq, Repr
/-- Read a request's header. -/
def reqOf (h : Bytes) : Req :=
  let t := mTag h
  let d := mOp h
  { dev := mSrc h, slot := field t 25 16, ward := field t 29 26, tag := t, data := d, op := field d 3 0, inherit := d.testBit 4,
    tward := field d 11 8, tslot := field d 21 12, target := field d 47 32 }
/-- The exporting context of a request that an export entry covers. -/
def exported (s : State) (q : Req) : Option Ctx :=
  match s.hinge.cfg with
  | none => none
  | some b =>
    if q.op ≤ 6 ∧ (hcRanges b).any (fun e => e.kind == (if opOnHasp q.op then 0x01 else 0x02) && e.ward == q.tward && e.slot == q.tslot
        && decide (e.first ≤ q.target) && decide (q.target < e.first + e.count) && e.peer == q.dev && e.peerWard == q.ward) then
      match liveCtx s q.tslot with
      | some x => if x.ward = q.tward then some x else none
      | none => none
    else none
/-- A remote hasp operation, as the same instruction would act from a local context. -/
def haspRequest (q : Req) (id : Nat) (s : State) : State :=
  let p : Peer := { dev := q.dev, ward := q.ward, slot := q.slot }
  let h := (tget s.hasps id).getD {}
  let reply := fun (st : Nat) (s : State) => replyTo q.dev q.tag q.data st s
  let may := haspMayPeer h p
  if q.op = 0 then
    if may then settleInherit (reply 0 (modHasp id (haspTakePeer p) s))
    else settleInherit (modHasp id (fun h => { h with parked := h.parked ++ [.peer q.dev q.ward q.slot q.tag q.data q.inherit] }) s)
  else if q.op = 1 then
    if may then settleInherit (reply 0 (modHasp id (haspTakePeer p) s)) else reply 1 s
  else if h.count = 0xFFFF then reply 0 s
  else settleInherit (haspSettle id (reply 0 (modHasp id (haspGivePeer p) s)))
/-- A remote latch operation. -/
def latchRequest (q : Req) (x : Ctx) (s : State) : State :=
  let set := x.stagingBits.testBit q.target
  let reply := fun (st : Nat) (s : State) => replyTo q.dev q.tag q.data st s
  if q.op = 3 then reply 0 (setStaging q.tslot q.target s)
  else if q.op = 4 then reply 0 (clearStaging q.tslot q.target s)
  else if q.op = 5 then
    if set then reply 0 s
    else modCtx q.tslot (fun x => { x with latchWaiters := x.latchWaiters ++ [(q.target, .peer q.dev q.ward q.slot q.tag q.data q.inherit)] }) s
  else reply (if set then 0 else 1) s
/-- A request takes effect, or gets GONE. -/
def serveRequest (q : Req) (s : State) : State :=
  let gone := replyTo q.dev q.tag q.data 2 s
  match exported s q with
  | none => gone
  | some x =>
    if opOnHasp q.op then
      match haspAt x q.target with
      | some id => haspRequest q id s
      | none => gone
    else if q.target < stagingLatches s q.tslot then latchRequest q x s
    else gone
/-- REMOTE_REQ: the request acts at the end of the fabric cycle. -/
def execRemoteReq (port : Nat) (s : State) : Out :=
  message port tyReq s (fun m => some (reqOf m.hdr).tward)
    (fun m _ s => { s with hinge := { s.hinge with requests := s.hinge.requests ++ [(port, m.hdr)] } })
/-- The remote requests of a fabric cycle act, in increasing receiving port, then in arrival order (12 R434). -/
def serveRequests (s : State) : State :=
  let l := (List.range 4).flatMap (fun p => s.hinge.requests.filter (·.1 == p))
  l.foldl (fun s q => serveRequest (reqOf q.2) s) { s with hinge := { s.hinge with requests := [] } }
/-- The pending records whose limit has passed, and whose replies have not landed in the same fabric cycle, are lost (12 R434). -/
def expireRecords (s : State) : State := loseRecords (fun q => q.expired) 0x01 s
/-- A reply lands on the record that it answers. -/
def landReply (m : HMsg) (s : State) : State :=
  let q := reqOf m.hdr
  match s.remotes.find? (fun r => r.2.request == mTag m.hdr % 65536 && r.2.slot == q.slot && r.2.dev == q.dev) with
  | none => s
  | some (id, r) =>
    if mStatus m.hdr = 2 then loseRecords (fun x => x.request == r.request && x.slot == r.slot && x.dev == r.dev) 0x03 s
    else replyLands id r (mStatus m.hdr == 0) s
/-- REMOTE_REP. -/
def execRemoteRep (port : Nat) (s : State) : Out :=
  message port tyRep s (fun m => some (reqOf m.hdr).ward) (fun m _ s => landReply m s)

/-! ## Inheritance and holders that are gone (12 R432, R433) -/

/-- INHERIT (on) adds a deadline key from its device, and INHERIT (off) ends the oldest of that device: the message names no hasp
(log 85). -/
def inheritNote (on : Bool) (dev key : Nat) (l : List (Nat × Nat)) : List (Nat × Nat) :=
  if on then l ++ [(dev, key)] else match l.find? (·.1 == dev) with | some e => l.erase e | none => l
/-- INHERIT: the holder runs with the deadline key that the message gives, while it is on. -/
def execInherit (port : Nat) (s : State) : Out :=
  message port tyInherit s (fun m => some (field (mOp m.hdr) 11 8)) (fun m w s =>
    let slot := field (mOp m.hdr) 21 12
    if ((liveCtx s slot).map (·.ward)) = some w then
      settleInherit (modCtx slot (fun x => { x with
        inheritKeys := inheritNote ((mOp m.hdr).testBit 0) (mSrc m.hdr) (s.now + rootOfTb (mOp m.hdr / 2 ^ 32)) x.inheritKeys }) s)
    else s)
/-- HOLDER_GONE: the named context's counts return and its parked requests go. -/
def execHolderGone (port : Nat) (s : State) : Out :=
  message port tyGone s (fun m => some (reqOf m.hdr).tward) (fun m _ s =>
    let q := reqOf m.hdr
    dropPeers (fun p => p == { dev := q.dev, ward := q.ward, slot := q.slot }) s)

/-! ## Notices of links (12 R421, R435, R437) -/

/-- HELLO: the neighbour's ID; a neighbour that reports this device's own ID holds the port DISABLED. -/
def execHello (port : Nat) (s : State) : Out :=
  need (firstMsg s port tyHello) "no such message has arrived" (fun m =>
    let s1 := modPort port (fun x => { x with neighbour := mSrc m.hdr }) (popMsg port s)
    if mSrc m.hdr = ownId s then .next (modPort port (fun x => { x with state := 3, dupId := true, downEvent := (portOf s port).downEvent, fresh := (portOf s port).fresh ||| 32 }) (portDown port s1)) else .next s1)
/-- The link that a notice names. -/
def noticeLink (m : HMsg) : Nat × Nat := (mOp m.hdr % 4096, mOp m.hdr / 4096 % 4096)
/-- LINK_DOWN: a ring member that has not seen the notice forwards it onward; its routes follow within 50 µs (REROUTE). -/
def execLinkDown (port : Nat) (s : State) : Out :=
  need (firstMsg s port tyDown) "no such message has arrived" (fun m =>
    let s1 := popMsg port s
    let l := noticeLink m
    match s.hinge.cfg with
    | some b =>
      if hcTopology b = 2 ∧ port < 2 ∧ !s.hinge.known.any (sameLink l) then
        .next (queueAt (1 - port) m (learnBreak b l s1))
      else .next s1
    | none => .next s1)
/-- LINK_UP: the link is no longer known as broken; routes stay around it until a HINGE_CONFIG. -/
def execLinkUp (port : Nat) (s : State) : Out :=
  need (firstMsg s port tyUp) "no such message has arrived" (fun m =>
    let s1 := popMsg port s
    let l := noticeLink m
    if port < 2 ∧ s.hinge.known.any (sameLink l) then
      .next (queueAt (1 - port) m { s1 with hinge := { s1.hinge with known := s1.hinge.known.filter (fun k => !sameLink l k) } })
    else .next s1)

end Sys2Proof.Machine
end

