-- ==== Sys2Proof/Machine/RayTasks.lean ====
section
/-!
DEFINITION. Ray tasks, HIT kernels and loaded hierarchies (06 R245–R254; 01 R41; 02 R72; 11 Table 11-8).
-/
namespace Sys2Proof.Machine

/-! ## Ray tasks -/

/-- Does a splat mark a frame pixel? -/
def marked (f : Frame) (px py : Nat) : Bool := f.geo.marks.testBit (py * cbWidth f.config + px)
/-- The disoccluded pixels of a tile in row-major order, as tile-local indices (06 R245). -/
def disoccluded (s : State) (slot : Nat) (x : Ctx) (f : Frame) (tile : Nat) : List Nat :=
  let c := f.config
  let x0 := 64 * (tile % tilesX c); let y0 := 64 * (tile / tilesX c)
  (List.range 4096).filter (fun k =>
    let px := x0 + k % 64; let py := y0 + k / 64
    decide (px < cbWidth c) && decide (py < cbHeight c) && planeRead s slot x.ward c 1 (py * cbWidth c + px) == 0 && !marked f px py)
/-- The hierarchy in force of a frame, while it is loaded (02 R72). -/
def frameHier (x : Ctx) (f : Frame) : Option Hier :=
  f.hier.bind (fun r => (tget x.hiers r.2.1).bind (fun h => if h.gen = r.2.2 then some h else none))
/-- The rays of a tile: each with its pixel and what its traversal gives. -/
def castRays (s : State) (slot : Nat) (x : Ctx) (f : Frame) (h : Hier) (tile : Nat) : List (Nat × Walk) :=
  let budget := ((frameImage s x f).map imRayBudget).getD 0
  let c := f.config
  ((disoccluded s slot x f tile).take budget).map (fun k =>
    (k, trace h.bytes f.camera (cbNodeLimit c) (rayOf f.camera (64 * (tile % tilesX c) + k % 64) (64 * (tile / tilesX c) + k / 64))))
/-- The hit of a pixel. -/
def hitAt (rays : List (Nat × Walk)) (k : Nat) : Option RayHit := (rays.find? (fun r => r.1 == k)).bind (fun r => r.2.best)
/-- The disocclusion values of a tile (06 R246). -/
def disoccBytes (x : Ctx) (f : Frame) (open_ : List Nat) (rays : List (Nat × Walk)) : Bytes :=
  let rev := frameReversed x f
  let far := f2h (farthest rev)
  (List.range 4096).flatMap (fun k =>
    if !open_.contains k then natLe 2 0 ++ natLe 2 0 ++ natLe 2 far
    else match hitAt rays k with
      | some h => natLe 2 0x3C00 ++ natLe 2 0x3C00 ++ natLe 2 (motionCode (depthAt f.camera rev h.t))
      | none => natLe 2 0x3C00 ++ natLe 2 0 ++ natLe 2 far)
/-- The unit geometric normal of a hit (06 Table 6-8). -/
def hitNormal (b : Bytes) (r : Ray) (h : RayHit) : P3 :=
  let v0 := hiVertex b h.tri 0
  let n := cross3 (sub3 (hiVertex b h.tri 1) v0) (sub3 (hiVertex b h.tri 2) v0)
  let k := rsqrt32 (dot3v n n)
  let u : P3 := { x := mul32 n.x k, y := mul32 n.y k, z := mul32 n.z k }
  if lt32 0 (dot3v u r.dir) then { x := neg32 u.x, y := neg32 u.y, z := neg32 u.z } else u
/-- The registers of a HIT thread for a batch of hits. -/
def hitBoot (s : State) (slot : Nat) (x : Ctx) (f : Frame) (hier : Hier) (handle tile : Nat) (hits : List (Nat × RayHit)) : Thread :=
  let c := f.config
  let ray := fun (k : Nat) => rayOf f.camera (64 * (tile % tilesX c) + k % 64) (64 * (tile / tilesX c) + k / 64)
  let ns := hits.map (fun h => hitNormal hier.bytes (ray h.1) h.2)
  let vec := fun (l : List Nat) => ofLanes 32 l
  let vs := [vec (hits.map (·.1)), vec (hits.map (·.2.t)), vec (hits.map (·.2.u)), vec (hits.map (·.2.v)), vec (hits.map (·.2.prim)),
             vec (ns.map (·.x)), vec (ns.map (·.y)), vec (ns.map (·.z))]
  let th := (List.range 8).foldl (fun th k => wrV k (vs.getD k 0) th) ({} : Thread)
  let regs : List (Nat × Nat) :=
    [(1, tile), (2, disoccAddr s slot x.ward c tile 0), (3, handle)] ++ (List.range 4).map (fun k => (10 + k, cbGeomArg c k))
  regs.foldl (fun th r => wrS r.1 r.2 th) (wrP 1 (2 ^ hits.length - 1) th)
/-- Deal the HIT tasks of a tile, in batches of up to 32 hits in ray order (06 R252). -/
def dealHits (slot : Nat) (x : Ctx) (f : Frame) (hier : Hier) (handle core tile : Nat) (rays : List (Nat × Walk)) (s : State) : State :=
  if cbHit f.config = 0xFFFF then s
  else match f.image, frameImage s x f with
    | some im, some b =>
      let k := kernelRec (imgBytes b 0x09) (cbHit f.config)
      (runs32 (rays.filterMap (fun r => r.2.best.map (fun h => (r.1, h))))).foldl (fun s hits =>
        dealTask { frameTask slot x f (.hit tile) 0 tile with
          core := core, threads := 1, vregs := k.vregs, size := k.store, code := .kernel im (cbHit f.config)
          boot := some (hitBoot s slot x f hier handle tile hits) } s) s
    | _, _ => s
/-- The RTUs that a frame's rays may use: those of its ward as it started, and those added since (10 R349). -/
def rtuList (s : State) (wd : Nat) (f : Frame) : List Nat := bitList 32 (f.rtus ||| (wardOf s wd).cfg.rtuMask)
/-- Count the box and triangle tests of a tile's rays on the RTUs that take them in turn, and charge a cycle for each. -/
def countRays (slot : Nat) (x : Ctx) (f : Frame) (rays : List (Nat × Walk)) (s : State) : State :=
  let l := rtuList s x.ward f
  let s1 := addStat slot stRays rays.length (addStat slot stRayLimit ((rays.filter (fun r => r.2.limited)).length) s)
  ((List.range rays.length).zip rays).foldl (fun s r =>
    let u := l.getD (r.1 % max 1 l.length) 0
    chargeFixed slot (r.2.2.nodeTests + r.2.2.triTests)
      (tallyChip 0x218 u r.2.2.nodeTests (some x.ward) (tallyChip 0x219 u r.2.2.triTests (some x.ward) s))) s1
/-- A tile's ray task casts its rays and writes the tile's disocclusion values. -/
def startRays (slot tile : Nat) (x : Ctx) (f : Frame) (core : Nat) (s : State) : State :=
  let open_ := disoccluded s slot x f tile
  let h := frameHier x f
  let rays := match h with | some h => castRays s slot x f h tile | none => []
  match h.bind (fun h => if rays.isEmpty then none else poisonIn (wardOf s x.ward) h.base h.bytes.length) with
  | some l => uncorrectable slot 0x01 l core s
  | none =>
    let s1 := modGeo slot (fun g => { g with rays := g.rays ++ [tile] })
      (wardWrite x.ward (disoccAddr s slot x.ward f.config tile 0) (disoccBytes x f open_ rays) s)
    match h, f.hier with
    | some h, some r => countRays slot x f rays (dealHits slot x f h r.2.1 core tile rays s1)
    | _, _ => s1
/-- The task that a test finds among a frame's. -/
def taskOf (s : State) (slot : Nat) (f : Frame) (k : TaskKind) : Option (Nat × Task) :=
  s.tasks.find? (fun t => t.2.slot == slot && t.2.frame == some f.number && t.2.kind == k)
/-- A tile's bins are complete, and the splat. -/
def rayReady (f : Frame) (tile : Nat) : Bool := f.geo.splat && f.geo.binned && (binsOf f.config tile).all (fun b => f.geo.binsDone.contains b)
/-- RAY_TASK_START. -/
def execRayTaskStart (slot tile : Nat) (s : State) : Out :=
  need (liveCtx s slot) "no live context" (fun x =>
    need x.fr.cur "no frame is in progress" (fun f =>
      need (taskOf s slot f (.ray tile)) "no ray task" (fun t =>
        guardThat (t.2.started && !f.geo.rays.contains tile && rayReady f tile
            && (((frameHier x f).isNone || (((frameImage s x f).map imRayBudget).getD 0) == 0) || !(rtuList s x.ward f).isEmpty))
          "the ray task cannot start" (.next (startRays slot tile x f t.2.core s)))))
/-- RAY_TASK_COMPLETE: the task and its HIT tasks are done, and the tile's geometry latch is set (06 R254). -/
def execRayTaskComplete (slot tile : Nat) (s : State) : Out :=
  need (liveCtx s slot) "no live context" (fun x =>
    need x.fr.cur "no frame is in progress" (fun f =>
      need (taskOf s slot f (.ray tile)) "no ray task" (fun t =>
        guardThat (f.geo.rays.contains tile && (taskOf s slot f (.hit tile)).isNone) "a HIT task has not ended"
          (.next (chargeWork slot (setGeoLatches slot [tile] (dropTasks (fun k _ => k == t.1) s)))))))

/-! ## Hierarchies -/

/-- HIER_LOAD: validated by 06 R249 and mapped read-only; at most four per context. -/
def hierLoadGo (slot seq : Nat) (c : Cmd) (x : Ctx) (s : State) : State :=
  let r : RingRef := .ctx slot
  let len := entArg c.entry 0
  let b := hostRead s (entAddr0 c.entry) len
  let s0 := chargeHost slot len 0 s
  match hierReject b len with
  | some reason => fail r seq kHierRejected reason s0
  | none =>
    if 4 ≤ x.hiers.length then fail r seq kBadState 0x02 s0
    else
      let h := freeKeyFrom x.hiers 1
      let gen := x.nextHier % 65536
      match allocate x.ward (cdiv len (2 ^ 18)) (.hierarchy slot h) true b s0 with
      | none => fail r seq kNoMemory 0 s0
      | some (addr, s1) =>
        completeOk r seq (natLe 4 h ++ natLe 2 gen)
          (modCtx slot (fun x => { x with
            nextHier := x.nextHier + 1
            hiers := tput x.hiers h { gen := gen, base := addr, bytes := b, digest := if cbDigest x.cfg then some (sha256 b) else none } }) s1)
/-- HIER_LOAD. -/
def execHierLoad (slot seq : Nat) (s : State) : Out := ctxCommand slot seq 0x26 s (fun c x s => hierLoadGo slot seq c x s)
/-- HIER_UNLOAD: unmapped after the last frame using it is ready. -/
def hierUnloadGo (slot seq : Nat) (c : Cmd) (x : Ctx) (s : State) : State :=
  let r : RingRef := .ctx slot
  let h := entArg c.entry 0
  match tget x.hiers h with
  | none => fail r seq kBadState 0x03 s
  | some q =>
    if q.gen ≠ entArg c.entry 1 || q.unloading then fail r seq kBadState 0x03 s
    else settleHiers slot (modCtx slot (fun x => { x with hiers := tput x.hiers h { q with unloading := true } })
      (modCmd r seq (fun c => { c with started := true, aux := h }) s))
/-- HIER_UNLOAD. -/
def execHierUnload (slot seq : Nat) (s : State) : Out :=
  need (readyCmd (.ctx slot) seq 0x27 s) "the command is not ready" (fun c =>
    need (ctxOf s slot) "no context" (fun x => guardThat (!c.started) "the command waits" (.next (hierUnloadGo slot seq c x s))))

end Sys2Proof.Machine
end

