-- ==== Sys2Proof/Machine/Tumbler.lean ====
section
/-!
DEFINITION. The Tumbler: admission, stealing and quanta (10 R356–R363).
-/
namespace Sys2Proof.Machine

/-! ## Admissible tasks -/

/-- The output tiles that a tile's geometry footprint touches: its own at rung 3 (06 R254; 04 R155). -/
def geoTiles (c : Bytes) (margin rung i : Nat) : List Nat :=
  if rung = 3 then [i]
  else
    let fp := footprint c 0x21 (64 * (i % tilesX c)) (64 * (i / tilesX c)) 64 margin
    let span := fun (n : Nat) (lo : Int) (len : Nat) =>
      ((clampI 0 ((n : Int) - 1) (lo / 64)).toNat, (clampI 0 ((n : Int) - 1) ((lo + len - 1) / 64)).toNat)
    let cx := span (tilesX c) fp.1 fp.2.2.1; let cy := span (tilesY c) fp.2.1 fp.2.2.2
    (List.range (cy.2 + 1 - cy.1)).flatMap (fun j => (List.range (cx.2 + 1 - cx.1)).map (fun k => (cy.1 + j) * tilesX c + cx.1 + k))
/-- Every band latch of the base's motion that covers a tile's footprint is set (07 R270). -/
def bandsReady (c : Bytes) (b : BufferSet) (margin i : Nat) : Bool :=
  !b.flowNeeded ||
    (let fp := footprint c 0x03 (64 * (i % tilesX c)) (64 * (i / tilesX c)) 64 margin
     let top := (inHeight c : Int) - 1
     let lo := (clampI 0 top fp.2.1 / 64).toNat; let hi := (clampI 0 top (fp.2.1 + fp.2.2.2 - 1) / 64).toNat
     (List.range (hi + 1 - lo)).all (fun k => b.flowBands.testBit (lo + k)))
/-- The packets that a frame reads have completed stages 2 and 3 (01 R39). -/
def packetsReady (x : Ctx) (f : Frame) : Bool :=
  (f.base.toList ++ f.own.toList).all (fun n => ((setOf x n).map (fun b => b.decoded.isSome)).getD (f.own != some n))
/-- A tile reads the guard mask: a U tile at rungs 0 to 2, and a G tile at every rung (01 R44, R45). -/
def readsGuard (f : Frame) (rung : Nat) : Bool := f.kind == .g || (f.kind == .u && rung != 3)
/-- The set of frame b + 1, whose motion the rung-3 tiles of an interpolated frame read (01 R52). -/
def nextSet (x : Ctx) (f : Frame) : BufferSet := ((f.base.map (fun b => (b + 1) % 2 ^ 32)).bind (setOf x)).getD {}
/-- A tile task may start: its geometry, its packets, the motion that it reads and its guard mask are complete
(01 R39, R43; 06 R254; 07 R270). -/
def tileReady (s : State) (x : Ctx) (f : Frame) (i : Nat) : Bool :=
  let rung := tileRung f s.now i
  let margin := if rung = 3 then 0 else ((frameImage s x f).map imMargin).getD 0
  (geoTiles f.config margin rung i).all (fun t => f.geo.latches.contains t) && packetsReady x f && bandsReady f.config (baseSet x f) margin i
    && (!(f.interpolated && rung == 3) || bandsReady f.config (nextSet x f) margin i) && (!readsGuard f rung || !guardRuns x)
/-- A task is admissible: its inputs are complete (10 R357). -/
def admissible (s : State) (t : Task) : Bool :=
  match liveCtx s t.slot with
  | none => false
  | some x =>
    let onFrame := fun (k : Frame → Bool) => ((frameOfTask x t).map k).getD false
    match t.kind with
    | .tile i => onFrame (fun f => tileReady s x f i)
    | .bin _ => onFrame (fun f => f.geo.binMode && f.geo.binned)
    | .ray i => onFrame (fun f => rayReady f i)
    | .capture _ => ((anchorFrame x (t.frame.getD 0)).map (fun f => packetsReady x f)).getD false && !guardRuns x
    | .stripe i j => ((runOfStripe s x i).map (fun r => stripeReady (runImage s x.ward r.2) r.2 i j)).getD false
    | _ => true

/-! ## Admission (10 R358) -/

/-- Where a task's threads start: the entry of its kernel. -/
def entryOf_ (s : State) (t : Task) : Nat :=
  match t.code with
  | .builtIn => 0
  | .kernel h k =>
    (((ctxOf s t.slot).bind (fun x => tget (wardOf s x.ward).images h)).map (fun im => (kernelRec (imgBytes im.bytes 0x09) k).entry)).getD 0
/-- A stripe of a CUSTOM layer starts with its inputs in ward memory and the registers of 05 Table 5-10. -/
def prepareStripe (t : Task) (s : State) : Task × State :=
  match t.kind, t.code, ctxOf s t.slot with
  | .stripe i j, .kernel h _, some x =>
    (match runOfStripe s x i, tget (wardOf s x.ward).images h with
    | some r, some im =>
      let ts := tensorsOf im.bytes
      let l := (layersOf im.bytes).getD i {}
      let rows := stripeRows ts l j
      let place := fun (k : Nat) => if (tn ts k).const then (im.base, false) else (tensorsBase s t.slot x.ward h + tensorOffset ts k, false)
      ({ t with boot := some (customBoot im l place j rows.1 rows.2) }, placeInputs t.slot x.ward (imgBytes im.bytes 0x05) ts r.2 l s)
    | _, _ => (t, s))
  | _, _, _ => (t, s)
/-- A tile task's start is noted in its frame: the tile's rung is fixed, and a checkpoint may be due (10 R371). -/
def noteTile (t : Task) (s : State) : State :=
  match t.kind with
  | .tile i =>
    modFrame t.slot (fun f =>
      let tiles := lmod f.tiles i (fun q => { q with started := true, rung := tileRung f s.now i })
      let n := (tiles.filter (fun q => q.started)).length
      let a := allotted f.group
      { f with tiles := tiles, startedMark := n, checkDue := f.checkDue || (f.startedMark < n && 0 < a && n % a == 0) }) s
  | _ => s
/-- The threads of a task that another core has stolen leave that core. -/
def takeBack (id : Nat) (s : State) : State :=
  { s with cores := s.cores.map (fun c => (c.1, { c.2 with threads := c.2.threads.filter (fun t => t.2.task != id) })) }
/-- Take in a task on a core: it takes its threads, registers and store, and its threads start (05 R185, R190). -/
def admitTask (core id : Nat) (t0 : Task) (stolen : Bool) (s0 : State) : State :=
  let s := if ((tget s0.tasks id).map (·.started)).getD false then takeBack id s0 else s0
  let n := taskSize s t0
  let rung := match t0.kind with
    | .tile i => ((ctxOf s t0.slot).bind (fun x => (frameOfTask x t0).map (fun f => tileRung f s.now i))).getD 0
    | _ => 0
  let p := prepareStripe
    { t0 with
      core := core, started := true, startedAt := s.now, stolenFrom := if stolen then some t0.core else none
      threads := n.1, vregs := n.2.1, size := n.2.2, pages := freePages s core (cdiv n.2.2 4096), rung := rung } s
  let t := p.1
  let s1 : State := { p.2 with tasks := tput p.2.tasks id t }
  let s2 := noteTile t (bootTask id t (entryOf_ s t) (modCore core (fun c => { c with stealWait := none }) s1))
  let s3 := tally core 0x040 1 (some (whoOf t)) s2
  settleInherit (if stolen then tally core 0x041 1 (some (whoOf t)) s3 else s3)
/-- Tasks that another core has stolen from core v in this fabric cycle, and that core c wins: v itself before any thief, and of two
thieves the one with the lower logical number. None of their threads has issued (10 R363). -/
def contested (s : State) (v c : Nat) : List (Nat × Task) :=
  (s.tasks.filter (fun x => x.2.started && x.2.stolenFrom == some v && x.2.core != c && !earlierCycle x.2.startedAt s.now
      && (v == c || decide (c < x.2.core)) && (threadsOf s x.1 x.2).all (fun th => th.2.lastIssue == 0))).map
    (fun x => (x.1, { x.2 with core := v, started := false, pages := [], stolenFrom := none }))
/-- The first task of core v's deque, in key order, that may be admitted on core `c`. -/
def firstFit (s : State) (v c : Nat) (ok : Task → Bool) : Option (Nat × Task) :=
  ((contested s v c).foldl (fun l x => dequeInsert x l) (deque s v)).find? (fun x => ok x.2 && admissible s x.2 && fits s c x.2)
/-- TASK_ADMIT. -/
def execTaskAdmit (core : Nat) (s : State) : Out :=
  guardThat (decide (core < coreCount s) && (coreOf s core).mode == .running) "the core admits nothing"
    (need (firstFit s core core (fun _ => true)) "no admissible task fits" (fun x => .next (admitTask core x.1 x.2 false s)))

/-! ## Stealing (10 R362) -/

/-- The ward that holds a core. -/
def wardOfCore (s : State) (c : Nat) : Option Nat := (List.range 16).find? (fun w => (wardOf s w).cfg.coreMask.testBit c)
/-- The eight nearest other cores of a core's ward, nearest first, ties by lower number. -/
def nearCores (s : State) (wd c : Nat) : List Nat :=
  let l := (bitList 2048 (wardOf s wd).cfg.coreMask).filter (· != c)
  (l.foldl (fun acc v =>
    let d := meshDist s c v
    acc.takeWhile (fun q => decide (q.1 ≤ d)) ++ (d, v) :: acc.dropWhile (fun q => decide (q.1 ≤ d))) []).map (·.2) |>.take 8
/-- A core may take a task: it was dealt before this fabric cycle (10 R363), it is of the core's ward, and an LC-level task's context
has the core in its group. -/
def mayTake (s : State) (wd c : Nat) (t : Task) : Bool :=
  match ctxOf s t.slot with
  | none => false
  | some x => x.ward == wd && earlierCycle t.dealtAt s.now && (!taskLc t || x.group.testBit c)
/-- STEAL: an idle core probes and claims, or begins to wait. -/
def execSteal (core : Nat) (s : State) : Out :=
  need (if core < coreCount s then wardOfCore s core else none) "the core is in no ward" (fun wd =>
    guardThat ((coreOf s core).mode == .running && (coreOf s core).stealWait.isNone && (firstFit s core core (fun _ => true)).isNone)
      "the core is not idle"
      (let near := nearCores s wd core
       match near.findIdx? (fun v => (firstFit s v core (mayTake s wd core)).isSome) with
       | some i =>
         (match firstFit s (near.getD i 0) core (mayTake s wd core) with
         | some x => .next (admitTask core x.1 x.2 true (tally core 0x042 (i + 1) none (tally core 0x043 i none s)))
         | none => .next s)
       | none =>
         .next (modCore core (fun c => { c with stealWait := some s.now })
           (tally core 0x042 near.length none (tally core 0x043 near.length none s)))))
/-- STEAL_WAIT_EXPIRY: 2,048 core cycles have passed. -/
def execStealWaitExpiry (core : Nat) (s : State) : Out :=
  need (coreOf s core).stealWait "the core does not wait" (fun t =>
    guardThat (decide (t + 2048 * coreDiv (corePoint s core) ≤ s.now)) "the wait has not passed"
      (.next (modCore core (fun c => { c with stealWait := none }) s)))

/-! ## Quanta (10 R359) -/

/-- A context is LC-level on a core: one of its tasks admitted there is. -/
def lcOn (s : State) (c slot : Nat) : Bool := (startedOn s c).any (fun t => t.2.slot == slot && taskLc t.2)
/-- The next owner after a slot: the first LC-level context with a task admitted, in slot order with wrap-around. -/
def nextOwner (s : State) (c prev : Nat) : Option Nat :=
  let l := (s.ctxs.map (·.1)).filter (fun k => lcOn s c k)
  (l.find? (fun k => decide (prev < k))).orElse (fun _ => l.head?)
/-- The quantum of a core in root cycles, by the Q of its last boundary (10 R349). -/
def quantumOf (s : State) (c : Nat) : Nat := (coreOf s c).quantum * coreDiv (corePoint s c)
/-- QUANTUM_BOUNDARY: the quantum is over, or its owner has no task left on the core. -/
def execQuantumBoundary (core : Nat) (s : State) : Out :=
  let c := coreOf s core
  let passed := match c.owner with
    | some k => !(startedOn s core).any (fun t => t.2.slot == k) || decide (c.quantumStart + quantumOf s core ≤ s.now)
    | none => decide (c.quantumStart + quantumOf s core ≤ s.now) && (nextOwner s core c.lastOwner).isSome
  guardThat (decide (core < coreCount s) && (wardOfCore s core).isSome && passed) "no boundary has come"
    (let o := nextOwner s core c.lastOwner
     let length := ((wardOfCore s core).map (fun w => (wardOf s w).cfg.quantum)).getD 0
     .next (modCore core (fun q => { q with owner := o, lastOwner := o.getD q.lastOwner, quantumStart := s.now, quantum := length }) s))

end Sys2Proof.Machine
end

