-- ==== Sys2Proof/Machine/Clock.lean ====
section
/-!
DEFINITION. The passing of time: what the block does when no command waits (log 7).
-/
namespace Sys2Proof.Machine

/-- Root cycles of one fabric cycle (00 Table 0-3). -/
def fabricCycle : Nat := 8
/-- A fabric cycle is over: bits set in it can be cleared by a write again (00 R18). -/
def clearFresh (s : State) : State :=
  { s with
    fns := s.fns.map (fun f => { f with errFresh := 0 })
    heads := s.heads.map (fun h => (h.1, { h.2 with fresh := 0 }))
    hinge := { s.hinge with ports := s.hinge.ports.map (fun p => { p with fresh := 0 }) }
    op := { s.op with causesFresh := 0 }
    sec := { s.sec with tamperFresh := 0 } }
/-- What a fabric cycle ends with: the remote requests taken in it, after its local operations, and the records that have expired. -/
def endCycle (s : State) : State := clearFresh (expireRecords (serveRequests s))
/-- The BE-level task at the head of a core's deque that only the LC reserve holds back (10 R358; 14 Table 14-3). -/
def reserveBlocked (s : State) (c : Nat) : Option Who :=
  match (deque s c).head? with
  | none => none
  | some x =>
    let n := taskSize s x.2
    let pages := cdiv n.2.2 4096
    if !taskLc x.2 && admissible s x.2 && roomFor s c n.1 (n.1 * n.2.1) pages && !reserveKept s c n.1 (n.1 * n.2.1) pages then
      some (whoOf x.2) else none
/-- The core cycles since `t0` in which the reserve holds such tasks. -/
def noteReserve (t0 : Nat) (s : State) : State :=
  s.perf.cores.foldl (fun s x =>
    match if counts x.2 then reserveBlocked s x.1 else none with
    | some w => tally x.1 0x045 (coreCyclesIn (corePoint s x.1) t0 s.now) (some w) s
    | none => s) s
/-- One fabric cycle passes: TB runs from the root PLL's lock on (16 R513), and the counters count (14 R463, R471). -/
def tick (s : State) : State :=
  if outOfReset s && s.boot.pll then
    countCycle s.now (noteReserve s.now (noteCycle s.now { endCycle s with now := s.now + fabricCycle }))
  else s

end Sys2Proof.Machine
end

