-- ==== Sys2Proof/Machine/Smbus.lean ====
section
/-!
DEFINITION. The SMBus endpoint: address assignment, MCTP endpoint ID, PLDM discovery, PDRs and sensors (16 R524–R526).
A reply is a completion code followed by values; 0 is success, 0x80 an unknown sensor, 0x82 an unknown record and 5 an
unsupported command (log 47).
-/
namespace Sys2Proof.Machine

def modSmb (g : Smb → Smb) (s : State) : State := { s with smb := g s.smb }
/-- Kinds of request: 0 ARP assignment, 1 Set Endpoint ID, 2 PLDM discovery, 3 GetPDR, 4 GetSensorReading, 5
GetStateSensorReadings. The endpoint answers from the boot-ROM stage on (16 R526). -/
def smbServed (s : State) : Bool := outOfReset s && s.boot.stage != 0
/-- The kind of a sensor's value in a PDR: 0 °C, 1 W, 2 V, 3 MHz, 4 a state (16 Table 16-11). -/
def sensorKind (id : Nat) : Nat :=
  if id = 1 then 0 else if id = 2 then 1 else if id ≤ 7 then 2 else if id = 8 then 3 else 4
/-- The PLDM types and the type 2 commands that are supported (16 Table 16-10). -/
def pldmTypes : List Nat := [0, 2]
def pldmCommands : List Nat := [0x11, 0x21, 0x51]
/-- A discovery reply: GetPLDMTypes and GetPLDMCommands by their standard codes; the terminus ID and versions are open. -/
def discoveryReply (request : Nat) (s : State) : List Nat × State :=
  if request = 0x04 then (0 :: pldmTypes, s)
  else if request = 0x05 then (0 :: pldmCommands, s)
  else if request = 0x02 ∨ request = 0x03 then ([0, (drawFree s).1.toNat], (drawFree s).2)
  else ([5], s)
/-- The record of a sensor: number and kind. Record 0 is the first. -/
def pdrReply (record : Nat) : List Nat :=
  let id := if record = 0 then 1 else record
  if id ≤ 11 then [0, id, sensorKind id] else [0x82]
/-- A sensor's value as of the last refresh, numeric sensors 1–8 and state sensors 9–11. -/
def sensorReply (s : State) (lo hi id : Nat) : List Nat :=
  if lo ≤ id ∧ id ≤ hi then [0, s.op.sensors.getD (id - 1) 0] else [0x80]
/-- Answer one request. -/
def smbAnswer (kind arg : Nat) (s : State) : State :=
  let reply := fun (l : List Nat) (s : State) => modSmb (fun m => { m with reply := l }) s
  match kind with
  | 0 => reply [0] (modSmb (fun m => { m with address := arg % 128 }) s)
  | 1 => reply [0] (modSmb (fun m => { m with eid := arg % 256 }) s)
  | 2 => reply (discoveryReply arg s).1 (discoveryReply arg s).2
  | 3 => reply (pdrReply arg) s
  | 4 => reply (sensorReply s 1 8 arg) s
  | _ => reply (sensorReply s 9 11 arg) s
/-- Requests that waited for a quiesce are answered in order once it has ended (16 R526). -/
def smbDrain (s : State) : State :=
  s.smb.waiting.foldl (fun s q => smbAnswer q.1 q.2 s) (modSmb (fun m => { m with waiting := [] }) s)
/-- A request: answered, or kept during a quiesce; before the boot-ROM stage nothing answers. -/
def smbRequest (kind arg : Nat) (s : State) : Out :=
  if !smbServed s then .next s
  else if s.fw.switching then .next (modSmb (fun m => { m with waiting := m.waiting ++ [(kind, arg)] }) s)
  else .next (smbAnswer kind arg s)
/-- SMBUS_ARP. -/
def execSmbusArp (addr : Nat) (s : State) : Out := smbRequest 0 addr s
/-- SET_ENDPOINT_ID. -/
def execSetEndpointId (eid : Nat) (s : State) : Out := smbRequest 1 eid s
/-- PLDM_DISCOVERY. -/
def execPldmDiscovery (request : Nat) (s : State) : Out := smbRequest 2 request s
/-- GET_PDR. -/
def execGetPdr (record : Nat) (s : State) : Out := smbRequest 3 record s
/-- GET_SENSOR_READING. -/
def execGetSensorReading (id : Nat) (s : State) : Out := smbRequest 4 id s
/-- GET_STATE_SENSOR_READINGS. -/
def execGetStateSensorReadings (id : Nat) (s : State) : Out := smbRequest 5 id s

end Sys2Proof.Machine
end

