-- ==== Sys2Proof/Machine/Firmware.lean ====
section
/-!
DEFINITION. Firmware images and their checks, FW_STAGE, the live firmware switch and the recovery switch
(15 R492–R498; 11 R396, R412; 16 R509).
-/
namespace Sys2Proof.Machine

/-! ## Images (15 Tables 15-5, 15-6) -/

/-- Header fields. -/
def fwLength (b : Bytes) : Nat := fld b 8 4
def fwKeySlot (b : Bytes) : Nat := fld b 5 1 % 4
def fwSvn (b : Bytes) : Nat := fld b 12 1 % 64
def fwBuild (b : Bytes) : Nat := fld b 16 2
def fwMinor (b : Bytes) : Nat := fld b 18 1
def fwMajor (b : Bytes) : Nat := fld b 19 1
def fwStateFormat (b : Bytes) : Nat := fld b 20 2
def fwAcceptMin (b : Bytes) : Nat := fld b 22 2
/-- SVN_FUSED: the fused value at power-on, raised by RAISE_SVN (15 R495). -/
def svnFused (s : State) : Nat := max Config.svnFused.toNat s.sec.svnRaised
/-- The length is within range: 4 KiB to 2 MiB, a multiple of 4 KiB. -/
def fwLengthOk (n : Nat) : Bool := decide (4096 ≤ n) && decide (n ≤ 2 ^ 21) && n % 4096 == 0
/-- The reserved header fields are zero. -/
def fwReservedOk (b : Bytes) : Bool :=
  fld b 5 1 / 4 == 0 && fld b 6 2 == 0 && fld b 12 1 / 64 == 0 && fld b 13 3 == 0 && allZero (slice b 216 296)
/-- The signed message: the image with its signature taken as zero. -/
def fwMessage (b : Bytes) : Bytes := patch b 120 (List.replicate 96 0)
/-- The first failing check of Table 15-6 of an image of which `n` bytes were supplied; none when it is accepted. -/
def fwCheck (s : State) (b : Bytes) (n : Nat) : Option Nat :=
  let x := beNat (slice b 24 48)
  let y := beNat (slice b 72 48)
  if fld b 0 4 ≠ 0x4C504850 || fld b 4 1 ≠ 1 || !fwReservedOk b then some 0x01
  else if !fwLengthOk (fwLength b) || fwLength b ≠ n then some 0x02
  else if Config.keyRevoked (fwKeySlot b) then some 0x03
  else if beNat (sha256 (slice b 24 96)) ≠ (Config.rootKeyHash (fwKeySlot b)).toNat || !onCurve x y then some 0x04
  else if fwSvn b < svnFused s then some 0x05
  else if !ecdsaVerify x y (beNat (slice b 120 48)) (beNat (slice b 168 48)) (sha256 (fwMessage b)) then some 0x06
  else none

/-- The resident image of a slot verified since reset. -/
def residentImage (s : State) (slot : Nat) : Option Bytes :=
  if slot = 0 then s.flash.image0 else if slot = 1 then s.flash.image1 else none
/-- The running image, and what of it KW_ID [63:32] shows. -/
def runningImage (s : State) : Bytes := (residentImage s s.fw.slot).getD []
def fwId (b : Bytes) : Nat := fwMajor b * 2 ^ 24 + fwMinor b * 2 ^ 16 + fwBuild b
/-- Can an image take over the state area that another writes (15 R495)? -/
def takesOver (old new : Bytes) : Bool :=
  decide (fwAcceptMin new ≤ fwStateFormat old) && decide (fwStateFormat old ≤ fwStateFormat new)

/-! ## FW_STAGE (15 R493) -/

/-- Keep an image in Keeper memory for a slot. -/
def setResident (slot : Nat) (b : Option Bytes) (s : State) : State :=
  { s with flash := if slot = 0 then { s.flash with image0 := b } else { s.flash with image1 := b } }
/-- FW_STAGE: check the image; an accepted one goes to the idle slot of Keeper memory, and its flash write begins. -/
def execFwStage (fn seq : Nat) (s : State) : Out :=
  need (readyCmd (.admin fn) seq 0x0C s) "the command is not ready" (fun c =>
    guardThat (!c.started && s.flash.program.isNone) "the flash write is in progress"
      (let n := entArg c.entry 0
       let hdr := fit 512 (hostRead s (entAddr0 c.entry) (min n 512))
       let b := if fwLengthOk n && fwLength hdr == n then hostRead s (entAddr0 c.entry) n else hdr
       match fwCheck s b n with
       | some code => .next (complete (.admin fn) seq kBadConfig ccValue (natLe 1 code) s)
       | none =>
         let slot := 1 - s.fw.slot
         let s1 := setResident slot (some b) s
         .next (modCmd (.admin fn) seq (fun c => { c with started := true, aux := slot })
           { s1 with flash := { s1.flash with program := some (slot, b) } })))

/-! ## The live switch (15 R495, R496, R498) -/

/-- Why FW_ACTIVATE is refused. -/
def activateBad (s : State) (slot : Nat) : Option Nat :=
  match residentImage s slot with
  | none => some 0x03
  | some b => if s.fw.switching then some 0x02 else if takesOver (runningImage s) b then none else some 0x01
/-- A recovery switch began in this fabric cycle and overtakes no command yet (15 R498). -/
def recoversNow (s : State) : Bool :=
  s.fw.switching && s.fw.recovery && s.fw.byCommand.isNone && !earlierCycle s.fw.switchAt s.now
/-- An FW_ACTIVATE of the fabric cycle in which a recovery switch began: it completes after that. -/
def overtakenGo (fn seq : Nat) (s : State) : Out :=
  need (readyCmd (.admin fn) seq 0x0D { s with fw := { s.fw with switching := false } }) "the command is not ready" (fun c =>
    guardThat (!c.started) "the switch has begun"
      (let s1 := modCmd (.admin fn) seq (fun c => { c with started := true }) s
       .next { s1 with fw := { s1.fw with byCommand := some (fn, seq), overtaken := true } }))
/-- FW_ACTIVATE: the quiesce begins. -/
def execFwActivate (fn seq : Nat) (s : State) : Out :=
  if recoversNow s then overtakenGo fn seq s else
  need (readyCmd (.admin fn) seq 0x0D s) "the command is not ready" (fun c =>
    guardThat (!c.started) "the switch has begun"
      (let slot := entArg c.entry 0
       match activateBad s slot with
       | some reason => .next (complete (.admin fn) seq kBadState reason [] s)
       | none =>
         let s1 := modCmd (.admin fn) seq (fun c => { c with started := true }) s
         .next { s1 with fw := { s1.fw with
           switching := true, l3Held := holdL3 s, target := slot, recovery := false, switchAt := s.now, byCommand := some (fn, seq), overtaken := false
           persist := (entArg c.entry 1).testBit 0, raiseSvn := (entArg c.entry 1).testBit 1 } }))

/-- Phipel stops (11 R412): no record is posted any more. -/
def stopKeeper (s : State) : State :=
  raiseErr eKeeperHalt 0 0 none
    { s with fw := { s.fw with running := false, switching := false, l3Held := [], heldRecs := [], heldDoorbells := [], byCommand := none, overtaken := false }
             sent := s.sent ++ [.aerUncorrectable] }
/-- A recovery switch begins: to the other slot where it can take over, and otherwise to the running image (15 R497). -/
def startRecovery (s : State) : State :=
  let other := 1 - s.fw.slot
  let slot := match residentImage s other with
    | some b => if takesOver (runningImage s) b then other else s.fw.slot
    | none => s.fw.slot
  { s with
    ras := { s.ras with recoveries := min (2 ^ 16 - 1) (s.ras.recoveries + 1) }
    fw := { s.fw with
      switching := true, l3Held := if s.fw.switching then s.fw.l3Held else holdL3 s, target := slot, recovery := true, switchAt := if s.fw.switching then s.fw.switchAt else s.now
      overtaken := s.fw.byCommand.isSome, persist := false, raiseSvn := false, lastRecovery := some s.now } }
/-- KEEPER_WATCHDOG: no heartbeat for 1 ms, or an uncorrectable error in the running code. A second recovery within 1 s, or
a lost state area, stops Phipel. -/
def execKeeperWatchdog (codeError stateLost : Bool) (s : State) : Out :=
  guardThat (s.fw.running && (codeError || (!s.fw.switching && decide (s.fw.beatAt + rootOfTb 100000 < s.now))))
    "Phipel runs and its heartbeat is not overdue"
    (let soon := (s.fw.lastRecovery.map (fun t => decide (s.now < t + 6 * 10 ^ 9))).getD false
     if stateLost || soon then .next (smbDrain (stopKeeper s)) else .next (startRecovery s))

/-! ## The end of the quiesce -/

/-- Doorbell writes held during the switch take effect in order (11 R396). -/
def releaseDoorbells (s : State) : State :=
  s.fw.heldDoorbells.foldl (fun s d => doorbellAct d.1 d.2.1 d.2.2 s) { s with fw := { s.fw with heldDoorbells := [] } }
/-- Records that arose during the switch are posted in their order (15 R496). -/
def releaseRecords (s : State) : State :=
  s.fw.heldRecs.foldl (fun s r => postAlways r.1 r.2 s) { s with fw := { s.fw with heldRecs := [] } }
/-- Each function's admin ring receives the FW_SWITCH event with the quiesce time in TB cycles. -/
def postSwitchEvents (quiesce reason : Nat) (s : State) : State :=
  ((List.range 16).filter (fun f => fnExists s f)).foldl (fun s f =>
    postFnEvent f kFwSwitch reason 0 0 (natLe 4 quiesce ++ natLe 4 (fwId (runningImage s))) s) s
/-- The boot record that names a slot (16 R509). -/
def bootRecord (slot : Nat) : Bytes :=
  let b := natLe 4 0x54424B59 ++ natLe 1 slot ++ List.replicate 55 0
  b ++ natLe 4 (crc32 b)
/-- FW_ACTIVATE completes, or goes on with the rewrite of the boot record (15 R495, R498). -/
def endActivate (s : State) : State :=
  match s.fw.byCommand with
  | none => s
  | some (fn, seq) =>
    let s1 : State := { s with fw := { s.fw with byCommand := none, overtaken := false } }
    if s.fw.overtaken then complete (.admin fn) seq kBadState 0x02 [] s1
    else if s.fw.persist then { s1 with flash := { s1.flash with program := some (2, bootRecord s.fw.slot) } }
    else completeOk (.admin fn) seq [] s1
/-- The switch ends: the new image runs. -/
def endSwitch (s : State) : State :=
  let quiesce := (s.now - s.fw.switchAt) / 60
  let reason := if s.fw.recovery then 2 else 1
  let s1 : State := { s with
    sec := if s.fw.raiseSvn then { s.sec with
        svnRaised := max s.sec.svnRaised (fwSvn ((residentImage s s.fw.target).getD [])), svnWas := some (s.now, s.sec.svnRaised) } else s.sec
    fw := { s.fw with switching := false, l3Held := [], slot := s.fw.target, raiseSvn := false, beatAt := s.now } }
  let s2 := raiseErr eFwSwitched 0 0 none s1
  endActivate (postSwitchEvents quiesce reason (releaseRecords (releaseDoorbells s2)))

/-- FW_SWITCH_COMPLETE: SMBus requests that waited are answered, and a link reset that waited follows (16 R506, R526). -/
def execFwSwitchComplete (s : State) : Out :=
  guardThat s.fw.switching "no switch is in progress"
    (let s1 := smbDrain (endSwitch s)
     .next (if s.boot.linkResetWaits then linkResetNow s1 else s1))

/-! ## Flash writes -/

/-- The write of the boot record or of a staged slot to flash ends. -/
def endProgram (slot : Nat) (b : Bytes) (s : State) : State :=
  let f := { s.flash with program := none }
  let s1 : State := { s with flash :=
    if slot = 0 then { f with slot0 := b } else if slot = 1 then { f with slot1 := b } else { f with record := b } }
  (fnOf s 0).ring.cmds.foldl (fun s c =>
    if !c.started then s
    else if entOpcode c.entry = 0x0C ∧ slot < 2 then completeOk (.admin 0) c.seq (natLe 1 slot) s
    else if entOpcode c.entry = 0x0D ∧ slot = 2 then completeOk (.admin 0) c.seq [] s
    else s) s1
/-- FLASH_PROGRAM_COMPLETE. -/
def execFlashProgramComplete (s : State) : Out :=
  guardThat (outOfReset s) "the device is in reset"
    (need s.flash.program "no flash write is in progress" (fun p => .next (endProgram p.1 p.2 s)))

end Sys2Proof.Machine
end

