-- ==== Sys2Proof/Machine/Repair.lean ====
section
/-!
DEFINITION. Reliability: patrol scrub, row, channel and core sparing, in-service self-tests, parity and device errors
(15 R480–R491).
-/
namespace Sys2Proof.Machine

/-- Add to a counter that saturates at 2^w − 1 (15 R491). -/
def satAdd (w a b : Nat) : Nat := min (2 ^ w - 1) (a + b)
/-- A number of a unit among the UNCORRECTABLE reasons (11 Table 11-12). -/
def faultUnitCode : FaultUnit → Nat
  | .vault => 1
  | .coreStore => 2
  | .register => 3
  | .staging => 4
  | .vaultCache => 5
def modRas (g : Ras → Ras) (s : State) : State := { s with ras := g s.ras }

/-! ## Patrol scrub (15 R481–R483) -/

/-- Count corrected errors; any sets CORRECTED with the first unit of Table 11-12 that had one. -/
def countCorrected (c : Corrected) (s : State) : State :=
  let s1 := modRas (fun r => { r with
    ceCoreStore := satAdd 32 r.ceCoreStore c.coreStore, ceRegister := satAdd 32 r.ceRegister c.register
    ceStaging := satAdd 32 r.ceStaging c.staging, ceVcache := satAdd 32 r.ceVcache c.vcache
    ceVault := satAdd 32 r.ceVault c.vault, ceKeeper := satAdd 32 r.ceKeeper c.keeper }) s
  let unit := if c.vault ≠ 0 then 1 else if c.coreStore ≠ 0 then 2 else if c.register ≠ 0 then 3
    else if c.staging ≠ 0 then 4 else if c.vcache ≠ 0 then 5 else 0
  if unit ≠ 0 ∨ c.keeper ≠ 0 then raiseErr eCorrected unit 0 none s1 else s1
/-- An uncorrectable line that the scrub finds: counted, and poisoned until it is written; a line in free memory is only counted. -/
def latentLine (l : Nat × Nat) (s : State) : State :=
  let s1 := modRas (fun r => { r with ueLatent := satAdd 16 r.ueLatent 1 }) s
  if (mappedAlloc (wardOf s l.1) l.2).isSome then
    modWard l.1 (fun w => { w with poisoned := if w.poisoned.contains l.2 then w.poisoned else w.poisoned ++ [l.2] }) s1
  else s1
/-- What a vault pass can correct, and what an SRAM pass can. -/
def passCorrects (vault : Bool) (c : Corrected) : Corrected := if vault then { vault := c.vault } else { c with vault := 0 }
/-- SCRUB_PASS. -/
def execScrubPass (vault : Bool) (corrected : Corrected) (latent : List (Nat × Nat)) (s : State) : Out :=
  guardThat (outOfReset s) "the device is in reset"
    (.next (modRas (fun r => if vault then { r with vaultPasses := satAdd 32 r.vaultPasses 1 } else { r with sramPasses := satAdd 32 r.sramPasses 1 })
      (latent.foldl (fun s l => latentLine l s) (countCorrected (passCorrects vault corrected) s))))

/-! ## Vault sparing (15 R484–R486) -/

/-- The stack of a channel: 16 channels each. -/
def stackOf (channel : Nat) : Nat := channel / 16
def stackSpares (s : State) (channel : Nat) : Nat := s.ras.chanSpares.getD (stackOf channel) 0
/-- ROW_SPARE: a spare row of the channel takes the row's place. -/
def execRowSpare (channel : Nat) (s : State) : Out :=
  let used := tgetD s.ras.rowsUsed channel 0
  guardThat (outOfReset s && decide (channel < channelCount s) && decide (used < 512)) "the channel has no spare row"
    (.next (raiseErr eSpareRemap 1 0 none (modRas (fun r => { r with rowsUsed := tput r.rowsUsed channel (used + 1) }) s)))
/-- A stack's spare channel takes a logical number, with its own spare rows. -/
def takeSpareChannel (channel : Nat) (s : State) : State :=
  raiseErr eSpareRemap 1 0 none (modRas (fun r => { r with
    chanSpares := lmod r.chanSpares (stackOf channel) (· - 1), rowsUsed := tdel r.rowsUsed channel
    copying := r.copying.filter (· != channel) }) s)
/-- Copies to spares of a channel's stack that are in progress. -/
def copiesOfStack (s : State) (channel : Nat) : Nat := (s.ras.copying.filter (fun c => stackOf c == stackOf channel)).length
/-- CHANNEL_SPARE_START. -/
def execChannelSpareStart (channel : Nat) (s : State) : Out :=
  guardThat (outOfReset s && decide (channel < channelCount s) && decide (copiesOfStack s channel < stackSpares s channel)
      && !s.ras.copying.contains channel && !s.ras.failedChans.contains channel) "no spare channel is free in the stack"
    (.next (modRas (fun r => { r with copying := r.copying ++ [channel] }) s))
/-- CHANNEL_SPARE_COMPLETE. -/
def execChannelSpareComplete (channel : Nat) (s : State) : Out :=
  guardThat (s.ras.copying.contains channel) "the channel is not being copied" (.next (takeSpareChannel channel s))

/-- The granules of an allocation that lie in a channel. -/
def granulesIn (channel : Nat) (a : Alloc) : List Nat :=
  if inStaging a.kind then [] else (List.range a.count).filter (fun i => granuleChannel a i == channel)
/-- Zeros in place of the granules of an object's bytes. -/
def zeroGranules (gs : List Nat) (b : Bytes) : Bytes :=
  gs.foldl (fun b i => if i * 2 ^ 18 < b.length then (b.take (i * 2 ^ 18) ++ List.replicate (2 ^ 18) 0 ++ b.drop ((i + 1) * 2 ^ 18)).take b.length else b) b
/-- A ward's granules of a lost channel read as scrubbed. -/
def scrubChannel (channel : Nat) (w : Ward) : Ward :=
  let lost := fun (base : Nat) => (w.allocs.find? (fun a => a.base == base)).map (granulesIn channel) |>.getD []
  { w with
    mem := w.allocs.foldl (fun m a => (granulesIn channel a).foldl (fun m i => Mem.scrub m ((a.base + i) * 2 ^ 18) (2 ^ 18)) m) w.mem
    allocs := w.allocs.map (fun a => { a with content := zeroGranules (granulesIn channel a) a.content })
    images := w.images.map (fun x => (x.1, { x.2 with bytes := zeroGranules (lost (x.2.base / 2 ^ 18)) x.2.bytes })) }
/-- Contexts of a ward that hold a granule of a channel, their own or of an image that they use (15 R480, R486). -/
def holdersOf (s : State) (channel wd : Nat) : List Nat :=
  let lost := (wardOf s wd).allocs.filter (fun a => !(granulesIn channel a).isEmpty)
  let owners := lost.filterMap ownerOf
  let users := lost.flatMap (fun a => match a.kind with
    | .image h => ((wardCtxs s wd isLive).filter (fun x => usesImage h x.2)).map (·.1)
    | _ => [])
  (owners ++ users).eraseDups
/-- Every context holding a granule of a lost channel is torn down, and its granules read as scrubbed. -/
def loseChannelData (channel wd : Nat) (s : State) : State :=
  let holders := holdersOf s channel wd
  holders.foldl (fun s slot => uncorrectable slot 0x01 0 0xFFFF s) (modWard wd (scrubChannel channel) s)
/-- A channel with no spare left is marked failed and leaves its ward. -/
def failChannel (channel : Nat) (s : State) : State :=
  { modRas (fun r => { r with failedChans := r.failedChans ++ [channel], copying := r.copying.filter (· != channel) }) s with
    wards := s.wards.map (fun w => { w with cfg := { w.cfg with chanMask := maskDiff w.cfg.chanMask (2 ^ channel) } }) }
/-- CHANNEL_LOST. -/
def execChannelLost (channel : Nat) (s : State) : Out :=
  guardThat (outOfReset s && decide (channel < channelCount s) && !s.ras.failedChans.contains channel) "the channel is not in use"
    (let s1 := (List.range 16).foldl (fun s w => loseChannelData channel w s) s
     .next (if 0 < stackSpares s channel then takeSpareChannel channel s1 else failChannel channel s1))

/-! ## Core retirement (15 R487–R490) -/

/-- A started task's thread has executed an ATOM or a remote operation. -/
def irrevocable (s : State) (id : Nat) (t : Task) : Bool := (threadsOf s id t).any (fun th => th.2.irrevocable)
/-- A task as it was before it started. -/
def unstarted_ (t : Task) : Task :=
  { t with started := false, stolenFrom := none, store := [], pages := [], latches := 0, layer := 0, progress := 0, customs := [] }
/-- A task that goes with another one of its core when that restarts: the batches of a bin task, the HIT tasks of a ray task. -/
def childOf (id : Nat) (t : Task) (q : Task) : Bool :=
  q.slot == t.slot && q.frame == t.frame &&
    (match q.kind, t.kind with
    | .blend _ (some p), .bin _ => p == id
    | .hit i, .ray j => i == j
    | _, _ => false)
/-- Restart one started task from its beginning: what it started goes with it. -/
def restartTask (id : Nat) (t : Task) (s : State) : State :=
  let s1 := dropTasks (fun k q => k != id && childOf id t q) s
  let s2 := match t.kind with
    | .ray tile => modFrame t.slot (fun f => if t.frame = some f.number then { f with geo := { f.geo with rays := f.geo.rays.filter (· != tile) } } else f) s1
    | _ => s1
  let s3 := tally t.core 0x044 1 (some (whoOf t)) (dropTasks (fun k _ => k == id) s2)
  { s3 with tasks := tput s3.tasks id (unstarted_ t) }
/-- The started tasks of a core restart there, save those that cannot be repeated, whose contexts are torn down (15 R489). -/
def restartCore (core : Nat) (s : State) : State :=
  let bad := ((startedOn s core).filter (fun t => irrevocable s t.1 t.2)).map (fun t => t.2.slot)
  let s1 := bad.eraseDups.foldl (fun s slot => uncorrectable slot 0x03 0 core s) s
  let here := startedOn s1 core
  let s2 := here.foldl (fun s t =>
    match tget s.tasks t.1 with
    | some q => if q.started then restartTask t.1 q s else s
    | none => s) s1
  { s2 with hasps := s2.hasps.map (fun h => (h.1, { h.2 with parked := h.2.parked.filter (fun w => match w with
      | .thread t => t.core != core
      | .peer .. => true) })) }
/-- A core without a physical core: its logical number is marked failed, and its ward's groups lose it (15 R490). -/
def failCore (core : Nat) (s : State) : State :=
  let cut := fun (m : Nat) => maskDiff m (2 ^ core)
  let s1 : State := { modCore core (fun _ => { mode := .failed }) s with
    wards := s.wards.map (fun w => { w with cfg := { w.cfg with coreMask := cut w.cfg.coreMask, groups := w.cfg.groups.map cut } }) }
  let moved := fun (slot i : Nat) => ((ctxOf s1 slot).map (fun x => coreAtPos (cut x.group) i)).getD core
  { s1 with
    tasks := s1.tasks.map (fun t => (t.1, if t.2.core = core then { t.2 with core := moved t.2.slot t.2.index } else t.2))
    ctxs := s1.ctxs.map (fun x => (x.1, { x.2 with group := cut x.2.group, fr := { x.2.fr with cur := x.2.fr.cur.map (fun f =>
      { f with group := cut f.group, geo := { f.geo with owners := f.geo.owners.map (fun o => (o.1, if o.2 = core then moved x.1 o.1 else o.2)) } }) } })) }
/-- MG_RAS_LAST and REMAPS of a retirement. -/
def noteRetirement (logical phys cause : Nat) (s : State) : State :=
  modRas (fun r => { r with remaps := satAdd 16 r.remaps 1, lastLogical := logical, lastPhys := phys, lastCause := cause }) s
/-- The CAUSE code of a retirement (15 Table 15-4). -/
def coreCauseCode : CoreCause → Nat
  | .uncorrectable => 0x01
  | .parity => 0x02
  | .corrected => 0x03
  | .test => 0x05
/-- The logical number moves to the first spare with its deque and counter block; nothing else of the old core goes along. -/
def moveCore (core : Nat) (cause : CoreCause) (s : State) : State :=
  let old := physOf s core
  let s1 := noteRetirement core old (coreCauseCode cause)
    (modRas (fun r => { r with testing := if cause = .test then r.testing ++ [(old, core)] else r.testing }) s)
  match s1.ras.spares with
  | [] => settleInherit (failCore core s1)
  | p :: rest =>
    settleInherit (raiseErr eSpareRemap 0 0 none
      (modRas (fun r => { r with spares := rest, sparesLeft := rest.length, phys := tput r.phys core p })
        (modCore core (fun _ => {}) s1)))
/-- Begin a drain. -/
def startDrain (core : Nat) (cause : CoreCause) (s : State) : Out :=
  guardThat (outOfReset s && decide (core < coreCount s) && (coreOf s core).mode == .running) "the core does not run"
    (.next (modCore core (fun c => { c with mode := .draining cause s.now }) s))
/-- CORE_SELF_TEST: the daily test is due, and the core is retired for it. -/
def execCoreSelfTest (core : Nat) (s : State) : Out := startDrain core .test s
/-- CORE_DRAIN_START: a retirement for corrected errors or for testing. -/
def execCoreDrainStart (core : Nat) (cause : CoreCause) (s : State) : Out :=
  guardThat (cause == .corrected || cause == .test) "an immediate retirement drains nothing" (startDrain core cause s)
/-- CORE_DRAIN_END: the started tasks have ended, or 10 ms have passed and the rest restart. -/
def execCoreDrainEnd (core : Nat) (timedOut : Bool) (s : State) : Out :=
  match (coreOf s core).mode with
  | .draining cause since =>
    let busy := !(startedOn s core).isEmpty
    if timedOut then
      guardThat (busy && decide (since + 6 * 10 ^ 7 ≤ s.now)) "10 ms have not passed" (.next (moveCore core cause (restartCore core s)))
    else guardThat (!busy) "tasks are still started on the core" (.next (moveCore core cause s))
  | _ => notNow "the core is not draining"
/-- CORE_RETIRE_IMMEDIATE. -/
def execCoreRetireImmediate (core : Nat) (cause : CoreCause) (s : State) : Out :=
  guardThat ((cause == .uncorrectable || cause == .parity) && outOfReset s && decide (core < coreCount s) && (coreOf s core).mode != .failed)
    "the core is not in use" (.next (moveCore core cause (restartCore core s)))
/-- SELF_TEST_COMPLETE: a passing core becomes a spare, a failing one is retired (15 R487). -/
def execSelfTestComplete (phys : Nat) (pass : Bool) (s : State) : Out :=
  match tget s.ras.testing phys with
  | some logical =>
    let s1 := modRas (fun r => { r with testing := r.testing.filter (fun t => t.1 != phys) }) s
    if pass then .next (modRas (fun r => { r with spares := r.spares ++ [phys], sparesLeft := r.spares.length + 1 }) s1)
    else .next (noteRetirement logical phys 0x04 s1)
  | none =>
    guardThat (s.ras.spares.contains phys) "the core is not under test"
      (if pass then .next s
       else
         let s1 := modRas (fun r => { r with spares := r.spares.filter (· != phys), sparesLeft := r.sparesLeft - 1 }) s
         .next (noteRetirement ((drawFree s1).1.toNat % 2048) phys 0x04 (drawFree s1).2))

/-! ## Other errors (15 R480, R499) -/

/-- Does a ward hold a fixed-function unit? The detection post-processors and the ingest unit serve every ward. -/
def wardHasUnit (c : WardCfg) : FixedUnit → Bool
  | .frontEnd i => c.feMask.testBit i
  | .rtu i => c.rtuMask.testBit i
  | .flowEngine i => c.flowMask.testBit i
  | .detect _ => true
  | .ingest => true
/-- UNIT_PARITY_ERROR: the context being served is torn down; an idle unit's error touches no context. -/
def execUnitParityError (unit : FixedUnit) (served : Option Nat) (s : State) : Out :=
  guardThat (outOfReset s) "the device is in reset"
    (match served with
     | none => .next (raiseErr eUncorrDevice 0 0 none s)
     | some slot =>
       need (liveCtx s slot) "the unit serves no live context there" (fun x =>
         guardThat (wardHasUnit (wardOf s x.ward).cfg unit) "the unit is not the ward's" (.next (uncorrectable slot 0x03 0 0xFFFF s))))
/-- DEVICE_UNCORRECTABLE: UNCORR_DEVICE; UNIT is a free value for a unit outside 11 Table 11-12. -/
def execDeviceUncorrectable (unit : Option FaultUnit) (s : State) : Out :=
  guardThat (outOfReset s) "the device is in reset" (.next (raiseErr eUncorrDevice ((unit.map faultUnitCode).getD 0) 0 none s))

end Sys2Proof.Machine
end

