-- ==== Sys2Proof/Machine/Boot.lean ====
section
/-!
DEFINITION. Resets of the whole device and the boot sequence (16 R504–R511, R513; 17 R533).
-/
namespace Sys2Proof.Machine

/-! ## Resets (16 Table 16-1) -/

/-- The repair block at its reset values for a part. -/
def freshRas (p : Part) : Ras :=
  match p with
  | .bkz2048 => {}
  | .bkz1280 => { chanSpares := [1, 1, 1, 1] }
/-- The slot or record whose flash write a reset interrupts fails the checks at the next boot (17 R533; log 39). -/
def breakFlash (f : Flash) : Flash :=
  let g := { f with image0 := none, image1 := none, program := none }
  match f.program with
  | none => g
  | some (k, _) => if k = 0 then { g with slot0 := [] } else if k = 1 then { g with slot1 := [] } else { g with record := [] }
/-- Security state after a device reset. Cause 1 power-on, 2 cold, 3 sensor. -/
def resetSec (cause : Nat) (x : Sec) : Sec :=
  if cause = 1 then { svnRaised := x.svnRaised }
  else { x with unlocked := if cause = 3 then x.unlocked else false, rngFail := false, challenge := none, holdoffAt := 0
                shiftedOut := 0, unlockWas := none, svnWas := none }
/-- A device reset: every key destroyed, every SRAM cleared, every slot FREE with generation 0, TB zero. What is outside the
device stays: flash, fuses, host memory, what it has sent, the commands that wait. -/
def deviceReset (cause : Nat) (s : State) : State :=
  { State.reset with
    pending := s.pending, free := s.free, nextSerial := s.nextSerial, part := s.part
    flash := breakFlash s.flash
    ras := if cause = 3 then s.ras else freshRas s.part
    sec := resetSec cause s.sec
    op := { powerLimit := if s.part = .bkz2048 then 400 else 260 }
    boot := { power := s.boot.power, perst := s.boot.perst, lastCause := cause, coldHeld := s.boot.coldHeld, thermN := s.boot.thermN }
    hostMem := s.hostMem, sent := s.sent, lastRead := s.lastRead, lastPoisoned := s.lastPoisoned }
def modBoot (g : Boot → Boot) (s : State) : State := { s with boot := g s.boot }
/-- POWER_ON_RESET: PWR_GOOD rises. -/
def execPowerOnReset (s : State) : Out := .next (modBoot (fun b => { b with power := true, coldHeld := false }) (deviceReset 1 s))
/-- POWER_FAIL: PWR_GOOD falls; the device is in reset until it rises (17 R533). -/
def execPowerFail (s : State) : Out :=
  if s.boot.power then .next (modBoot (fun b => { b with power := false, lastCause := s.boot.lastCause }) (deviceReset 1 s)) else .next s
/-- COLD_RESET: PERST_N is asserted; without PWR_GOOD only its level changes. -/
def execColdReset (s : State) : Out :=
  if s.boot.perst then .next s
  else if s.boot.power then .next (modBoot (fun b => { b with perst := true, coldHeld := true }) (deviceReset 2 s))
  else .next (modBoot (fun b => { b with perst := true }) s)
/-- PERST_N_RELEASE: the sequence starts from its first step; a cold reset that a sensor reset overtook takes effect first (16 R506). -/
def execPerstNRelease (s : State) : Out :=
  if s.boot.perst then
    let s1 := if s.boot.coldHeld && s.boot.lastCause == 3 then deviceReset 2 s else s
    .next (modBoot (fun b => { b with perst := false, coldHeld := false }) s1)
  else .next s

/-! ## The boot sequence (16 Table 16-2) -/

/-- PLL_LOCK: TB starts at zero (16 R513). -/
def execPllLock (s : State) : Out :=
  guardThat (outOfReset s && !s.boot.pll) "the PLL has locked, or the device is in reset"
    (.next { modBoot (fun b => { b with pll := true, stage := 1 }) s with now := 0 })
/-- BOOT_SLOT of the boot record; a record that fails counts as slot 0 (16 R509). -/
def recordSlot (b : Bytes) : Nat :=
  if fld b 0 4 = 0x54424B59 ∧ fld b 60 4 = crc32 (slice b 0 60) ∧ fld b 4 1 = 1 then 1 else 0
/-- A slot's image as the boot ROM reads it: IMAGE_LENGTH bytes of the slot's region, erased beyond what was written. -/
def bootImage (slot : Bytes) : Bytes :=
  let n := fwLength slot
  if fwLengthOk n then slot.take n ++ List.replicate (n - slot.length) 0xFF else slot
/-- The check of a slot at boot. -/
def bootCheck (s : State) (slot : Bytes) : Option Nat := fwCheck s (bootImage slot) (fwLength slot)
/-- Phipel starts from a slot, or no image passes. -/
def startPhipel (s : State) (first : Nat) (c0 c1 : Option Nat) : State :=
  let ok := fun (k : Nat) => if k = 0 then c0.isNone else c1.isNone
  let second := 1 - first
  let b := fun (b : Boot) => { b with bootSlot := first, slotsValid := b2n (ok 0) + 2 * b2n (ok 1) }
  let s1 : State := { s with flash := { s.flash with
    image0 := if ok 0 then some (bootImage s.flash.slot0) else none, image1 := if ok 1 then some (bootImage s.flash.slot1) else none } }
  if ok first || ok second then
    modBoot (fun x => { b x with stage := 2 })
      { s1 with fw := { s1.fw with running := true, slot := if ok first then first else second, beatAt := s.now } }
  else modBoot (fun x => { b x with stage := 15, failCode := ((if second = 0 then c0 else c1).getD 0) }) s1
/-- BOOT_IMAGE_CHECK: `flashOk` says whether the SFDP header was read at enough delay settings (17 R538). -/
def execBootImageCheck (flashOk : Bool) (s : State) : Out :=
  guardThat (outOfReset s && s.boot.pll && s.boot.stage == 1) "the boot ROM does not run"
    (if flashOk then .next (startPhipel s (recordSlot s.flash.record) (bootCheck s s.flash.slot0) (bootCheck s s.flash.slot1))
     else .next (modBoot (fun b => { b with stage := 15, failCode := 0x10 }) s))
/-- VAULT_TRAIN: a channel that fails training is replaced by its stack's spare, or marked failed (16 R511). -/
def execVaultTrain (failed : List Nat) (s : State) : Out :=
  guardThat (outOfReset s && s.boot.stage == 2) "Phipel does not run, or the vault is trained"
    (let bad := failed.eraseDups.filter (fun c => decide (c < channelCount s))
     let fresh := modRas (fun r => { r with failedChans := [], copying := [], chanSpares := (freshRas s.part).chanSpares, rowsUsed := [] }) s
     .next (modBoot (fun b => { b with stage := 3 }) (bad.foldl (fun s c =>
       if 0 < stackSpares s c then takeSpareChannel c s else failChannel c s) fresh)))
/-- Physical cores that are not fused off. -/
def physCount (s : State) : Nat := if s.part = .bkz2048 then 2112 else 1344
/-- Logical numbers for the passing cores in row-major physical order; the rest are spares, and the highest numbers fail where
too few pass (16 R511). -/
def numberCores (failed : List Nat) (s : State) : State :=
  let pass := (List.range (physCount s)).filter (fun p => !failed.contains p)
  let n := coreCount s
  let spares := (pass.drop n).take 64
  { modRas (fun r => { r with
      phys := ((List.range n).zip pass).filter (fun x => x.1 != x.2), spares := spares, sparesLeft := spares.length, testing := [] }) s with
    cores := ((List.range n).filter (fun c => decide (pass.length ≤ c))).map (fun c => (c, ({ mode := .failed } : Core))) }
/-- CORE_BRINGUP. -/
def execCoreBringup (failed : List Nat) (s : State) : Out :=
  guardThat (outOfReset s && s.boot.stage == 3) "the vault is not trained, or the cores are mapped"
    (.next (modBoot (fun b => { b with stage := 4 }) (numberCores failed s)))
/-- Microseconds from the release of PERST_N: the time before TB starts is a free value up to 500 µs (16 Table 16-2; log 40). -/
def elapsedUs (s : State) : Nat := (s.now / 6000 + (Config.freeWord s.free).toNat % 501) % 2 ^ 32
/-- CONFIG_READY: configuration requests are answered; with Phipel running, READY becomes 1 (16 R508, R510). -/
def execConfigReady (s : State) : Out :=
  guardThat (outOfReset s && !s.boot.decoded && (s.boot.stage == 4 || s.boot.stage == 15)) "the sequence has not come to this step"
    (.next { modBoot (fun b => { b with decoded := true, readyUs := elapsedUs s, stage := if b.stage = 4 then 5 else b.stage }) s with
      free := s.free + 1, fw := { s.fw with ready := s.boot.stage == 4 } })

end Sys2Proof.Machine
end

