-- ==== Sys2Proof/Machine/CoreScalar.lean ====
section
/-!
DEFINITION. The scalar, branch and predicate instructions of 05 Table 5-4. With MOD 1, shifts, divisions and comparisons
act on the low 32 bits (log 8).
-/
namespace Sys2Proof.Machine

/-- The low 32 bits sign-extended to 64. -/
def sx32 (n : Nat) : Nat := trunc 64 (sext 32 n)
/-- An operand as MOD 1 takes it: its low 32 bits. -/
def low32 (f : KFields) (n : Nat) : Nat := if f.mod = 1 then n % 2 ^ 32 else n
/-- A result as MOD 1 gives it: 32 bits sign-extended. -/
def out32 (f : KFields) (n : Nat) : Nat := if f.mod = 1 then sx32 n else n % 2 ^ 64
def ra (th : Thread) (f : KFields) : Nat := rdS th f.a.toNat
def rb (th : Thread) (f : KFields) : Nat := rdS th f.b.toNat

/-- NOP: none. -/
def execNop (t : ThreadRef) (f : KFields) (s : State) : Out := issue 0x00 t f .none 0 s (fun _ _ s => s)
/-- BR: to PC + 8 × IMM24 on the guard bits MOD selects. -/
def execBr (t : ThreadRef) (f : KFields) (s : State) : Out :=
  issue 0x02 t f .none 0 s (fun th _ s =>
    let g := guardOf th f % 2 ^ 32
    let taken := if f.mod = 0 then g.testBit 0 else if f.mod = 1 then g != 0 else g == 2 ^ 32 - 1
    if taken then modThread t (fun x => { x with pc := ((th.pc : Int) + 8 * immS f).toNat }) s else s)
/-- ADD; MOD 1 operates on 32 bits and sign-extends. -/
def execAdd (t : ThreadRef) (f : KFields) (s : State) : Out := issueS 0x10 t f s (fun th => out32 f (ra th f + rb th f))
/-- SUB; MOD as ADD. -/
def execSub (t : ThreadRef) (f : KFields) (s : State) : Out :=
  issueS 0x11 t f s (fun th => out32 f (ra th f + 2 ^ 64 - rb th f))
/-- MUL: the low 64 bits. -/
def execMul (t : ThreadRef) (f : KFields) (s : State) : Out := issueS 0x12 t f s (fun th => ra th f * rb th f % 2 ^ 64)
/-- The quotient or remainder of DIV on w bits (05 Table 5-4). -/
def divOp (w : Nat) (signed remainder : Bool) (x y : Nat) : Nat :=
  if y % 2 ^ w = 0 then (if remainder then x % 2 ^ w else 2 ^ w - 1)
  else if signed then
    let a := sext w x
    let b := sext w y
    trunc w (if remainder then a.tmod b else a.tdiv b)
  else if remainder then x % 2 ^ w % (y % 2 ^ w) else x % 2 ^ w / (y % 2 ^ w)
/-- DIV: MOD[0] signed, MOD[1] remainder; MOD 1 on the low 32 bits. -/
def execDiv (t : ThreadRef) (f : KFields) (s : State) : Out :=
  issueS 0x13 t f s (fun th =>
    let w := if f.mod = 1 then 32 else 64
    out32 f (divOp w (f.mod.toNat.testBit 0) (f.mod.toNat.testBit 1) (ra th f) (rb th f)))
def execAndS (t : ThreadRef) (f : KFields) (s : State) : Out := issueS 0x14 t f s (fun th => ra th f &&& rb th f)
def execOrS (t : ThreadRef) (f : KFields) (s : State) : Out := issueS 0x15 t f s (fun th => ra th f ||| rb th f)
def execXorS (t : ThreadRef) (f : KFields) (s : State) : Out := issueS 0x16 t f s (fun th => ra th f ^^^ rb th f)
/-- SHL: shift by s[b] mod 64. -/
def execShl (t : ThreadRef) (f : KFields) (s : State) : Out :=
  issueS 0x17 t f s (fun th => out32 f (low32 f (ra th f) * 2 ^ (rb th f % 64)))
/-- SHR: logical. -/
def execShr (t : ThreadRef) (f : KFields) (s : State) : Out :=
  issueS 0x18 t f s (fun th => out32 f (low32 f (ra th f) / 2 ^ (rb th f % 64)))
/-- SRA: arithmetic. -/
def execSra (t : ThreadRef) (f : KFields) (s : State) : Out :=
  issueS 0x19 t f s (fun th =>
    let w := if f.mod = 1 then 32 else 64
    trunc 64 (sext w (ra th f) / (2 ^ (rb th f % 64) : Nat)))
/-- MIN: MOD 1 signed, MOD 0 unsigned. -/
def execMinS (t : ThreadRef) (f : KFields) (s : State) : Out :=
  issueS 0x1A t f s (fun th =>
    let x := ra th f; let y := rb th f
    if f.mod = 1 then (if sext 64 x ≤ sext 64 y then x else y) else (if x ≤ y then x else y))
/-- MAX: MOD 1 signed, MOD 0 unsigned. -/
def execMaxS (t : ThreadRef) (f : KFields) (s : State) : Out :=
  issueS 0x1B t f s (fun th =>
    let x := ra th f; let y := rb th f
    if f.mod = 1 then (if sext 64 x ≤ sext 64 y then y else x) else (if x ≤ y then y else x))
def execAddi (t : ThreadRef) (f : KFields) (s : State) : Out :=
  issueS 0x1C t f s (fun th => trunc 64 ((ra th f : Int) + immS f))
/-- MOVI: the sign-extended IMM36. -/
def execMovi (t : ThreadRef) (f : KFields) (s : State) : Out := issueS 0x1D t f s (fun _ => trunc 64 (sext 36 (imm36 f)))
/-- MOVH: bits [63:32] from the immediate, bits [31:0] unchanged. -/
def execMovh (t : ThreadRef) (f : KFields) (s : State) : Out :=
  issueS 0x1E t f s (fun th => imm32 f * 2 ^ 32 + rdS th f.dst.toNat % 2 ^ 32)
/-- The conditions of CMP: 0 EQ, 1 NE, 2 LT, 3 LE, 4 LTU, 5 LEU; with MOD 1 on the low 32 bits. -/
def cmpCond (m x y : Nat) : Bool :=
  if m = 0 then x == y
  else if m = 1 then x % 2 ^ 32 != y % 2 ^ 32
  else if m = 2 then decide (sext 64 x < sext 64 y)
  else if m = 3 then decide (sext 64 x ≤ sext 64 y)
  else if m = 4 then decide (x < y)
  else decide (x ≤ y)
/-- All ones or zero. -/
def ones64 (b : Bool) : Nat := if b then 2 ^ 64 - 1 else 0
def execCmp (t : ThreadRef) (f : KFields) (s : State) : Out :=
  issueP 0x1F t f s (fun th => ones64 (cmpCond f.mod.toNat (ra th f) (rb th f)))
def execCmpi (t : ThreadRef) (f : KFields) (s : State) : Out :=
  issueP 0x20 t f s (fun th => ones64 (cmpCond f.mod.toNat (ra th f) (trunc 64 (immS f))))
/-- SEL: bit 0 of p[c] chooses. -/
def execSel (t : ThreadRef) (f : KFields) (s : State) : Out :=
  issueS 0x21 t f s (fun th => if (rdP th f.c.toNat).testBit 0 then ra th f else rb th f)
/-- PLOG: 0 and, 1 or, 2 xor, 3 and-not. -/
def execPlog (t : ThreadRef) (f : KFields) (s : State) : Out :=
  issueP 0x22 t f s (fun th =>
    let x := rdP th f.a.toNat; let y := rdP th f.b.toNat
    if f.mod = 0 then x &&& y else if f.mod = 1 then x ||| y else if f.mod = 2 then x ^^^ y
    else x &&& ((2 ^ 64 - 1) ^^^ y))
/-- RDTB: the timebase. -/
def execRdtb (t : ThreadRef) (f : KFields) (s : State) : Out := issueS 0x23 t f s (fun _ => tb s % 2 ^ 64)

end Sys2Proof.Machine
end

