-- ==== Sys2Proof/Machine/CoreVector.lean ====
section
/-!
DEFINITION. The vector instructions of 05 Table 5-4: lanes of FP32, FP16 and INT32 on the vector engine.
-/
namespace Sys2Proof.Machine

/-- The lane width that MOD selects: 64 lanes of 16 bits for FP16, else 32 lanes of 32 (05 R192). -/
def laneW (f : KFields) : Nat := if f.mod = 1 then 16 else 32
/-- The floating-point format that MOD 0 or 1 selects. -/
def laneFmt (f : KFields) : Fmt := if f.mod = 1 then fFP16 else fFP32
def va (th : Thread) (f : KFields) (w i : Nat) : Nat := lane w (rdV th f.a.toNat) i
def vb (th : Thread) (f : KFields) (w i : Nat) : Nat := lane w (rdV th f.b.toNat) i
def vc (th : Thread) (f : KFields) (w i : Nat) : Nat := lane w (rdV th f.c.toNat) i
/-- An INT32 result: wrapping, or clamped under MOD 3. -/
def intOut (f : KFields) (x : Int) : Nat := if f.mod = 3 then sat32 x else trunc 32 x
/-- A binary lane operation by lane type. -/
def bin (f : KFields) (fp : Fmt → Nat → Nat → Nat) (int : Int → Int → Int) (x y : Nat) : Nat :=
  if f.mod = 0 ∨ f.mod = 1 then fp (laneFmt f) x y else intOut f (int (s32 x) (s32 y))
/-- The shape of the binary lane instructions. -/
def issueBin (op : Nat) (t : ThreadRef) (f : KFields) (cycles : Nat) (s : State)
    (fp : Fmt → Nat → Nat → Nat) (int : Int → Int → Int) : Out :=
  issueV op t f cycles (laneW f) s (fun th i => bin f fp int (va th f (laneW f) i) (vb th f (laneW f) i))

def execVadd (t : ThreadRef) (f : KFields) (s : State) : Out := issueBin 0x40 t f 1 s fadd (· + ·)
def execVsub (t : ThreadRef) (f : KFields) (s : State) : Out := issueBin 0x41 t f 1 s fsub (· - ·)
/-- VMUL: INT32 keeps the low 32 bits, or saturates under MOD 3. -/
def execVmul (t : ThreadRef) (f : KFields) (s : State) : Out := issueBin 0x42 t f 1 s fmul (· * ·)
/-- VFMA: fused, rounded once. -/
def execVfma (t : ThreadRef) (f : KFields) (s : State) : Out :=
  issueV 0x43 t f 1 (laneW f) s (fun th i => ffma (laneFmt f) (va th f (laneW f) i) (vb th f (laneW f) i) (vc th f (laneW f) i))
def execVmin (t : ThreadRef) (f : KFields) (s : State) : Out := issueBin 0x44 t f 1 s fmin (fun x y => if x ≤ y then x else y)
def execVmax (t : ThreadRef) (f : KFields) (s : State) : Out := issueBin 0x45 t f 1 s fmax (fun x y => if x ≤ y then y else x)
def execVdiv (t : ThreadRef) (f : KFields) (s : State) : Out := issueBin 0x46 t f 8 s fdiv (fun x _ => x)
def execVsqrt (t : ThreadRef) (f : KFields) (s : State) : Out :=
  issueV 0x47 t f 8 (laneW f) s (fun th i => fsqrt (laneFmt f) (va th f (laneW f) i))
/-- VFN: the function that IMM24[1:0] selects (03 R137). -/
def execVfn (t : ThreadRef) (f : KFields) (s : State) : Out :=
  issueV 0x48 t f (if f.mod = 1 then 2 else 4) (laneW f) s
    (fun th i => vfnOf (f.imm.toNat % 4) (laneFmt f) (va th f (laneW f) i))
/-- One lane of VCVT: source and destination by the codes of 04 Table 4-7 (03 Table 3-4). -/
def cvtLane (src dst : Nat) (satOff : Bool) (x : Nat) : Nat :=
  if src = 0x0A then rne32 (.ofInt (s32 x) 0)
  else if dst = 0x0A then f2s32 x
  else
    match fmtOf src, fmtOf dst with
    | some a, some b => (convert b (!satOff) (unpack a (x % 2 ^ a.width))).code
    | _, _ => 0
def execVcvt (t : ThreadRef) (f : KFields) (s : State) : Out :=
  let imm := f.imm.toNat
  issueV 0x49 t f 1 32 s (fun th i => cvtLane (imm % 256) (imm / 256 % 256) (imm.testBit 16) (va th f 32 i))
/-- The conditions of VCMP; comparisons with NaN are false except NE. -/
def vcmpCond (ty m x y : Nat) : Bool :=
  if ty = 2 then
    (if m = 0 then x == y else if m = 1 then x != y else if m = 2 then decide (s32 x < s32 y) else decide (s32 x ≤ s32 y))
  else
    let fm := if ty = 1 then fFP16 else fFP32
    if m = 0 then feq fm x y else if m = 1 then !feq fm x y else if m = 2 then flt fm x y else fle fm x y
/-- VCMP: predicate bits of the enabled lanes; bits beyond the lane count are cleared. -/
def execVcmp (t : ThreadRef) (f : KFields) (s : State) : Out :=
  issue 0x4A t f .ve 1 s (fun th _ s =>
    let ty := f.mod.toNat / 4
    let m := f.mod.toNat % 4
    let w := if ty = 1 then 16 else 32
    let g := guardOf th f
    let old := rdP th f.dst.toNat
    let bits := (List.range (1024 / w)).foldl (fun acc i =>
      let b := if g.testBit i then vcmpCond ty m (va th f w i) (vb th f w i) else old.testBit i
      acc + b2n b * 2 ^ i) 0
    modThread t (wrP f.dst.toNat bits) s)
def execVsel (t : ThreadRef) (f : KFields) (s : State) : Out :=
  issueV 0x4B t f 1 (laneW f) s (fun th i =>
    if (rdP th f.c.toNat).testBit i then va th f (laneW f) i else vb th f (laneW f) i)
/-- VLOG: 0 and, 1 or, 2 xor. -/
def execVlog (t : ThreadRef) (f : KFields) (s : State) : Out :=
  issueV 0x4C t f 1 (laneW f) s (fun th i =>
    let x := va th f (laneW f) i; let y := vb th f (laneW f) i
    if f.imm.toNat % 4 = 0 then x &&& y else if f.imm.toNat % 4 = 1 then x ||| y else x ^^^ y)
/-- VSH: by the low 5 bits of v[b]; 0 left, 1 logical right, 2 arithmetic right. -/
def execVsh (t : ThreadRef) (f : KFields) (s : State) : Out :=
  issueV 0x4D t f 1 (laneW f) s (fun th i =>
    let w := laneW f
    let x := va th f w i; let n := vb th f w i % 32
    if f.imm.toNat % 4 = 0 then x * 2 ^ n % 2 ^ w else if f.imm.toNat % 4 = 1 then x / 2 ^ n
    else trunc w (sext w x / (2 ^ n : Nat)))
def execVbcast (t : ThreadRef) (f : KFields) (s : State) : Out :=
  issueV 0x4E t f 1 (laneW f) s (fun th _ => rdS th f.a.toNat % 2 ^ laneW f)
def execViota (t : ThreadRef) (f : KFields) (s : State) : Out := issueV 0x4F t f 1 (laneW f) s (fun _ i => i)
/-- A list cut into runs of n. -/
def chunks {α : Type} (n : Nat) : Nat → List α → List (List α)
  | 0, _ => []
  | fuel + 1, l => if l.isEmpty then [] else l.take n :: chunks n fuel (l.drop n)
/-- The chunked sum of FP32 terms (04 R169). -/
def orderedSum (xs : List Nat) : Nat := (chunks 16 (xs.length + 1) xs).foldl (fun acc c => accStep acc (c.map (unpack fFP32))) 0
/-- The enabled lanes of v[a], in lane order. -/
def enabledA (th : Thread) (f : KFields) : List Nat :=
  ((List.range 32).filter (fun i => (guardOf th f).testBit i)).map (va th f 32)
/-- VSUM: FP32 chunked and zero-extended, INT32 modulo 2^32 and sign-extended. -/
def execVsum (t : ThreadRef) (f : KFields) (s : State) : Out :=
  issue 0x50 t f .ve 2 s (fun th _ s =>
    let xs := enabledA th f
    let r := if f.mod = 0 then orderedSum xs else trunc 64 (sext 32 (xs.foldl (· + ·) 0))
    modThread t (wrS f.dst.toNat r) s)
/-- VRQ: q of 03 R115 before the zero point, as its low 32 bits. -/
def execVrq (t : ThreadRef) (f : KFields) (s : State) : Out :=
  issueV 0x51 t f 2 32 s (fun th i => trunc 32 (requantQ (s32 (va th f 32 i)) (s32 (vb th f 32 i)) (vc th f 32 i % 64)))
/-- VBSC: the block scale code of the enabled lanes; disabled lanes are padding. -/
def execVbsc (t : ThreadRef) (f : KFields) (s : State) : Out :=
  issue 0x52 t f .ve 2 s (fun th _ s => modThread t (wrS f.dst.toNat (blockCode (f.imm.toNat % 4) (enabledA th f))) s)
/-- The element width of VPACK and VUNPK: 8, 16 or 4 bits. -/
def packW (m : Nat) : Nat := if m % 4 = 0 then 8 else if m % 4 = 1 then 16 else 4
/-- VPACK: element i from lane i mod 32 of v[a + ⌊i/32⌋]. -/
def execVpack (t : ThreadRef) (f : KFields) (s : State) : Out :=
  issue 0x53 t f .ve 1 s (fun th _ s =>
    let w := packW f.mod.toNat
    let packed := ofLanes w ((List.range (1024 / w)).map (fun i => lane 32 (rdV th (f.a.toNat + i / 32)) (i % 32)))
    modThread t (wrLanes 32 (guardOf th f) f.dst.toNat (lane 32 packed)) s)
/-- VUNPK: the inverse, zero-extending, or sign-extending under MOD 4–6. -/
def execVunpk (t : ThreadRef) (f : KFields) (s : State) : Out :=
  let w := packW f.mod.toNat
  let n := 32 / w
  issue 0x54 t f .ve n s (fun th _ s =>
    modThread t (fun th' => (List.range n).foldl (fun acc j =>
      wrLanes 32 (guardOf th f) (f.dst.toNat + j) (fun i =>
        let x := lane w (rdV th f.a.toNat) (32 * j + i)
        if 4 ≤ f.mod.toNat then trunc 32 (sext w x) else x) acc) th') s)

end Sys2Proof.Machine
end

