-- ==== Sys2Proof/Machine/Detent.lean ====
section
/-!
DEFINITION. The Detent (10 R370–R375; 06 R238; 08 R297): its projections in exact rational root cycles, and what a checkpoint does.
-/
namespace Sys2Proof.Machine

/-- The rung-table row of a frame (01 R50). -/
def rowOf (f : Frame) : Nat := if f.kind = .u then 0 else if f.interpolated then 1 else 2
/-- C_k of a frame. -/
def tileCost (s : State) (x : Ctx) (f : Frame) (k : Nat) : Nat :=
  if f.kind = .a || f.kind = .p then copyCost else rungCost (frameImage s x f) (rowOf f) k
/-- Core work of `cost` cycles with its wait of Q (N − 1), in root cycles at the frame's f (16 R517). -/
def workTime (s : State) (slot : Nat) (x : Ctx) (f : Frame) (cost : Nat) : Nat :=
  (cost + (wardOf s x.ward).cfg.quantum * (contenders s slot x.ward f.config f.group - 1)) * f.fdiv
/-- Rounds of the allotment that n tasks take. -/
def roundsOf (f : Frame) (n : Nat) : Nat := cdiv n (allotted f.group)
/-- Capture tasks of a frame, started or not. -/
def captureTasks (s : State) (slot : Nat) (f : Frame) (started : Bool) : List (Nat × Task) :=
  s.tasks.filter (fun t => t.2.slot == slot && t.2.frame == some f.number && t.2.started == started
    && (match t.2.kind with | .capture _ => true | _ => false))
/-- I: the work of started, unfinished tiles, and of an A frame's started captures (10 R372, R374). -/
def startedWork (s : State) (slot : Nat) (x : Ctx) (f : Frame) : Nat :=
  let tiles := (f.tiles.filter (fun t => t.started && !t.done)).map (fun t => tileCost s x f t.rung)
  let caps := if f.kind = .a then (captureTasks s slot f true).map (fun _ => captureCost ((frameImage s x f).getD []) f.adapt) else []
  match tiles ++ caps with
  | [] => 0
  | l => workTime s slot x f (l.foldl max 0)
/-- X: the ingest still to come of a render-triggered frame, its geometry, and an A frame's unstarted tiles. -/
def restWork (s : State) (slot : Nat) (x : Ctx) (f : Frame) : Q :=
  let ingest : Q := match f.own.bind (setOf x) with
    | some b => if b.decoded.isSome then {} else Q.max {} (Q.sub (Q.add (Q.ofInt b.arrival) (ingestTime s x.ward b.packet.size)) (Q.ofInt s.now))
    | none => {}
  let geo : Q := if f.geo.phase = .complete then {} else rasterTime f.config (drawnTris x f + 2 * f.ui.length)
  let own : Q := if f.kind = .a then
      Q.ofInt (roundsOf f ((f.tiles.filter (fun t => !t.started)).length) * workTime s slot x f copyCost : Nat) else {}
  Q.add ingest (Q.add geo own)
/-- U of a frame: its unstarted tiles, or an A frame's unstarted capture tasks. -/
def unstarted (s : State) (slot : Nat) (f : Frame) : Nat :=
  if f.kind = .a then (captureTasks s slot f false).length
  else if f.kind = .p then 0
  else (f.tiles.filter (fun t => !t.started)).length
/-- proj(k). -/
def projection (s : State) (slot : Nat) (x : Ctx) (f : Frame) (k : Nat) : Q :=
  let cost := if f.kind = .a then captureCost ((frameImage s x f).getD []) f.adapt else tileCost s x f k
  Q.add (Q.ofInt s.now) (Q.add (restWork s slot x f)
    (Q.ofInt (startedWork s slot x f + roundsOf f (unstarted s slot f) * workTime s slot x f cost + 600 : Nat)))
/-- Z: deadline − D − H × 450 ns. -/
def lastStart (s : State) (f : Frame) : Int :=
  match (headOf s f.head).cfg with
  | some h => leadStart h f.deadline - 2700 * f.hops
  | none => 0
/-- The rung from k on whose projection fits. -/
def fitRung (z : Int) (proj : Nat → Q) (k : Nat) : Nat :=
  match ((List.range 3).filter (fun j => decide (k ≤ j))).find? (fun j => Q.le (proj j) (Q.ofInt z)) with
  | some j => j
  | none => 3
/-- Unstarted captures of an A frame at risk are abandoned (08 R297). -/
def abandonCaptures (slot : Nat) (f : Frame) (s : State) : State :=
  let gone := (captureTasks s slot f false).map (·.1)
  let s1 := modCtx slot (fun x => { x with ad := { x.ad with
    staging := x.ad.staging.map (fun a => if a.frame = f.number then { a with left := a.left - gone.length } else a) } })
    (dropTasks (fun k _ => gone.contains k) s)
  postEvent slot kCaptureShort 0x01 (natLe 4 f.number ++ [BitVec.ofNat 8 (captureCount f.adapt - gone.length)]) s1
/-- Put an instant into the comparator of a frame's head, or clear it. -/
def setComparator (f : Frame) (c : Option Nat) (s : State) : State := modHead f.head (fun h => { h with detentAt := c }) s
/-- The rung of every tile not started falls to k; what it was in this fabric cycle stays known (10 R375). -/
def lowerTo (now k : Nat) (f : Frame) : Frame :=
  let was := match f.rungWas with
    | some (t, r) => if earlierCycle t now then (now, f.rung) else (t, r)
    | none => (now, f.rung)
  { f with rung := k, lowered := true, rungWas := some was }
/-- The decision of 10 R372 for a frame of any kind but P. -/
def detentDecide (slot : Nat) (x : Ctx) (f : Frame) (s : State) : State :=
  let z := lastStart s f
  let proj := projection s slot x f
  let p3 := proj 3
  if f.kind = .a then
    if Q.lt (Q.ofInt z) p3 then abandonCaptures slot f (setComparator f none s) else setComparator f none s
  else
    let k := fitRung z proj f.rung
    let lowered := decide (f.rung < k)
    let s1 := if lowered then tallyChip 0x239 0 1 (some x.ward) (modFrame slot (lowerTo s.now k) s) else s
    let stopped := f.geo.waitsGrant || f.geo.grantedAt == some s.now
    let abandon := stopped && (lowered || Q.le (Q.ofInt z) p3)
    let s2 := if abandon then goImmediate slot 0x02 s1 else s1
    let c := Q.sub (Q.ofInt z) (Q.sub p3 (Q.ofInt s.now))
    let keep := (decide (k < 3) || (stopped && !abandon)) && Q.lt (Q.ofInt s.now) c
    setComparator f (if keep then some (Q.ceil c).toNat else none) s2
/-- A, N, Q and the divisor of f of a frame's context, whose changes are checkpoints. -/
def detentTerms (s : State) (slot : Nat) (x : Ctx) (f : Frame) : List Nat :=
  [allotted f.group, contenders s slot x.ward f.config f.group, (wardOf s x.ward).cfg.quantum, clockDiv s f.group]
/-- A checkpoint of the frame in progress. -/
def detentCheck (slot : Nat) (x : Ctx) (f : Frame) (s : State) : State :=
  let s1 := tallyChip 0x238 0 1 (some x.ward) (modFrame slot (fun g => { g with checkDue := false, seen := detentTerms s slot x f }) s)
  if f.held.isSome || cbReplay f.config || decide (f.cutoff < (f.t0 : Int)) || unstarted s slot f == 0 then setComparator f none s1
  else detentDecide slot x f s1
/-- DETENT_CHECK. -/
def execDetentCheck (slot : Nat) (s : State) : Out :=
  need (liveCtx s slot) "no live context" (fun x =>
    need x.fr.cur "no frame is in progress" (fun f =>
      guardThat (f.checkDue || f.seen != detentTerms s slot x f) "no checkpoint is due" (.next (detentCheck slot x f s))))
/-- The live contexts whose frame in progress is watched against a head; one may have unbound since (09 R321). -/
def watched (s : State) (head : Nat) : List Nat :=
  (s.ctxs.filter (fun x => (slotOf s x.1).state == .live && (x.2.fr.cur.map (fun f => f.head == head)).getD false)).map (·.1)
/-- DETENT_COMPARATOR: the instant in a head's comparator is reached. -/
def execDetentComparator (head : Nat) (s : State) : Out :=
  need (headOf s head).detentAt "the comparator is clear" (fun c =>
    guardThat (decide (c ≤ s.now)) "the instant has not come"
      (.next ((watched s head).foldl (fun s slot => checkpoint slot s) (modHead head (fun h => { h with detentAt := none }) s))))

end Sys2Proof.Machine
end

