-- ==== Sys2Proof/Machine/IngestDecode.lean ====
section
/-!
DEFINITION. Stages 2 and 3 of a render packet: decoding, conversion, pyramids, what comes into force, and a colour found
missing (02 R75–R78, R82, R84–R95, R550).
-/
namespace Sys2Proof.Machine

/-- One accepted surface decoded, or the reason it is missing (02 R84, R89). -/
def decodeEntry (p : Bytes) (d : DirEnt) : Except Nat Img :=
  if d.enc = 1 then decodePacked d.fmt d.w d.h (payloadOf p d) else .ok (decodeRaw d.fmt d.w d.h d.pitch (payloadOf p d))
/-- The value of an EXPOSURE surface is one that 02 R94 accepts. -/
def exposureOk (m : Img) : Bool := isFin32 (m.data.getD 0 0) && lt32 0 (m.data.getD 0 0)
/-- What decoding gives: the surfaces decoded, by entry, and the entries found missing with their reasons. -/
structure Decoded where
  good : List (Nat × DirEnt × Img) := []
  bad : List (Nat × Nat) := []
/-- Decode the accepted entries of types 1 to 7 in directory order. -/
def decodeAll (p : Bytes) (accepted : List Nat) : Decoded :=
  (accepted.filter (fun i => decide ((dirEnt p i).ty ≤ 7))).foldl (fun a i =>
    let d := dirEnt p i
    match decodeEntry p d with
    | .error r => { a with bad := a.bad ++ [(i, r)] }
    | .ok m =>
      if d.ty = 6 && !exposureOk m then { a with bad := a.bad ++ [(i, irExposureValue)] }
      else { a with good := a.good ++ [(i, d, m)] }) {}
/-- A decoded surface by type. -/
def Decoded.surface (a : Decoded) (ty : Nat) : Option (DirEnt × Img) := (a.good.find? (fun g => g.2.1.ty == ty)).map (·.2)
/-- Decoded bytes of 02 R82: every accepted surface at its decoded size. -/
def decodedBytes (p : Bytes) (accepted : List Nat) : Nat :=
  sumL (accepted.map (fun i => let d := dirEnt p i; d.w * d.h * (elemSize d.fmt).getD 0))

/-- A plane of one FP32 value. -/
def flatImg (w h v : Nat) : Img := { w := w, h := h, ch := 1, data := List.replicate (w * h) v }
/-- A buffer set with its packet's surfaces converted and its pyramids built, k levels of them (02 R90–R95). -/
def convertSet (x : Ctx) (b : BufferSet) (a : Decoded) (cam : Camera) (k now : Nat) : BufferSet :=
  let colour := ((a.surface 1).map (fun g => convertColour g.1.fmt b.primaries b.transfer g.2)).getD {}
  let depth := (a.surface 2).map (fun g => convertDepth b.depthReversed g.2)
  let n := if b.kind = .u then k else 0
  { b with
    use := .full, accepted := b.accepted.filter (fun i => !(a.bad.map (·.1)).contains i)
    colour := colour, depth := depth, motion := (a.surface 3).map (fun g => convertMotion g.2)
    normal := (a.surface 4).map (fun g => g.2.mapPx 3 normalPx), objectId := (a.surface 5).map (·.2)
    hasExposure := (a.surface 6).isSome, camera := cam, decoded := some now
    pyrColour := levelsFrom nextColour n colour
    pyrDepth := levelsFrom (nextDepth b.depthReversed) n (depth.getD (flatImg (inWidth x.cfg) (inHeight x.cfg) (farthest b.depthReversed))) }

/-- UI content, an exposure and a hierarchy reference come into force (02 R72, R75, R78, R94). -/
def comeIntoForce (n now primaries : Nat) (p : Bytes) (accepted : List Nat) (a : Decoded) (g : CtxIngest) : CtxIngest :=
  let ui := (a.good.filter (fun e => e.2.1.ty == 7)).foldl (fun t e =>
    tupd t e.2.1.layer [] (fun l => { src := n, since := now, x := e.2.1.dx, y := e.2.1.dy, img := convertUi e.2.1.fmt primaries e.2.2 } :: l)) g.ui
  let ex := ((a.surface 6).map (fun e => (n, e.2.data.getD 0 0, now))).toList
  let hr := ((entryOf p accepted 11).bind (fun i => hrefOf p (dirEnt p i))).map (fun r => (n, r.1, r.2, now))
  { g with ui := ui, exposures := ex ++ g.exposures, hierRefs := hr.toList ++ g.hierRefs }
/-- What the device keeps of the packet. -/
def pastEntry (x : Ctx) (b : BufferSet) (colour : Bool) (cam : Camera) (now : Nat) : Past :=
  { frame := b.frame, colour := colour, kind := b.kind, arrival := b.arrival, done := now, hops := b.hops, camera := cam,
    objects := if colour then b.mesh.map (·.objects) else none,
    digest := if cbDigest x.cfg then some (sha256 b.packet.bytes) else none }
/-- The frame in progress was triggered by this packet. -/
def curTriggeredBy (x : Ctx) (n : Nat) : Bool := ((x.fr.cur.bind (·.own)).map (· == n)).getD false

/-- The buffer set, or packet without colour, that a decode completes: sets 0 to 3, then the others in order. -/
def decodeTarget (x : Ctx) (set : Nat) : Option BufferSet :=
  ((if set < 4 then x.ing.sets[set]? else x.ing.lite[set - 4]?)).bind (fun b => if b.use = .filling then some b else none)
/-- Decoding takes a ward's packets in order (02 R81). -/
def decodeTurn (s : State) (wd : Nat) (b : BufferSet) : Bool :=
  (wardCtxs s wd isLive).all (fun y => ((y.2.ing.sets ++ y.2.ing.lite).filter (fun q => q.use == .filling)).all (fun q =>
    !packetBefore q.packet b.packet || packetBefore b.packet q.packet))
/-- What a frame in progress takes up when stages 2 and 3 of a packet complete: UI content in force at its start instant's fabric
cycle (02 R79), and, of its own packet, the exposure and the hierarchy reference (log 51). -/
def refreshFrame (slot : Nat) (own : Bool) (s : State) : State :=
  modCtx slot (fun x => { x with fr := { x.fr with cur := x.fr.cur.map (fun f =>
    { f with
      ui := uiInForce x f.config f.number f.t0
      exposure := if own then exposureInForce x f.number f.base f.t0 else f.exposure
      hier := if own then hierInForce x f.number f.base f.t0 else f.hier
      shas := if own then startShas x f.number f.base f.t0 else f.shas }) } }) s
/-- Stages 2 and 3 of a packet complete. -/
def decodeComplete (slot set : Nat) (x : Ctx) (b : BufferSet) (s : State) : State :=
  let p := b.packet.bytes
  let n := b.frame
  let a := decodeAll p b.accepted
  let ok := b.hasColour && (a.surface 1).isSome
  let cam := packetCamera x p
  let keep := if ok then b.accepted else liteOnly p b.accepted
  let eff : Decoded := { a with good := a.good.filter (fun g => keep.contains g.1) }
  let k := ((boundImage s x).map imPyramid).getD 0
  let full := convertSet x b a cam k s.now
  let replaced := sumL (eff.good.map (fun g => replacedIn g.2.1.ty g.2.1.fmt g.2.2))
  let s1 := addStat slot stReplace replaced (tallyChip 0x20A 0 a.bad.length (some x.ward)
    (tallyChip 0x209 0 (decodedBytes p b.accepted) (some x.ward) (postMissing slot n a.bad s)))
  let s2 := modCtx slot (fun c =>
    let g := comeIntoForce n s.now b.primaries p keep eff c.ing
    let g1 := { g with past := g.past ++ [pastEntry x b ok cam s.now] }
    if 4 ≤ set then { c with ing := { g1 with lite := g1.lite.eraseIdx (set - 4) } }
    else if ok then { c with ing := { g1 with sets := g1.sets.set set full } }
    else
      { c with ing := { g1 with
          sets := g1.sets.set set { freedAt := g1.releases }, releases := g1.releases + 1, missing := g1.missing ++ [(n, s.now)] } }) s1
  let mine := curTriggeredBy x n
  let s3 := if ok then keepSources x.ward (startGraph slot full (refreshFrame slot mine s2)) else if mine then abandonFrame slot s2 else refreshFrame slot false s2
  let s4 := if ok && mine then
      (match x.fr.cur with | some f => checkpoint slot (if f.kind = .g then s3 else startGuard slot f s3) | none => s3)
    else s3
  let s5 := match b.packet.cmd with
    | some (c, seq) => completeOk (.ctx c) seq [] s4
    | none => s4
  settleSets slot s5
/-- INGEST_DECODE_COMPLETE. -/
def execIngestDecodeComplete (slot set : Nat) (s : State) : Out :=
  need (liveCtx s slot) "no live context" (fun x =>
    need (decodeTarget x set) "nothing is being decoded there" (fun b =>
      guardThat (decodeTurn s x.ward b) "an earlier packet of the ward comes first" (.next (decodeComplete slot set x b s))))

end Sys2Proof.Machine
end

