-- ==== Sys2Proof/Machine/Security.lean ====
section
/-!
DEFINITION. The random source, the sensors, and the JTAG port with its debug lock (15 R499, R501–R503; 17 R539).
-/
namespace Sys2Proof.Machine

def modSec (g : Sec → Sec) (s : State) : State := { s with sec := g s.sec }
/-- Set a TAMPER bit: 0 VOLTAGE, 1 CLOCK, 2 TEMPERATURE, 3 TEST_MODE, 4 DEBUG_UNLOCK. -/
def setTamper (bit : Nat) (s : State) : State :=
  modSec (fun x => { x with tamper := x.tamper ||| 2 ^ bit, tamperFresh := x.tamperFresh ||| 2 ^ bit, tamperEver := true }) s
/-- RNG_FAIL: the health tests fail (15 R499). -/
def execRngFail (s : State) : Out :=
  guardThat (outOfReset s) "the device is in reset"
    (.next (raiseErr eUncorrDevice 0 0 none (modSec (fun x => { x with rngFail := true }) s)))
/-- The TAMPER bit of a cause. -/
def sensorBit : SensorCause → Nat
  | .voltage => 0
  | .clock => 1
  | .temperature => 2
  | .testMode => 3
/-- A sensor reset goes before a debug unlock and the end of a firmware switch of its fabric cycle: as if they had not been (15 R503). -/
def undoCycle (now : Nat) (x : Sec) : Sec :=
  let y := match x.unlockWas with
    | some (t, tamper, ever) => if earlierCycle t now then x else { x with unlocked := false, tamper := tamper, tamperEver := ever }
    | none => x
  match y.svnWas with
  | some (t, svn) => if earlierCycle t now then y else { y with svnRaised := svn }
  | none => y
/-- A sensor reset (15 R503). -/
def sensorReset (cause : SensorCause) (s : State) : State :=
  setTamper (sensorBit cause) (deviceReset 3 { s with sec := undoCycle s.now s.sec })
/-- SENSOR_RESET: without PWR_GOOD the fall of power governs, and no bit is set (17 R533). -/
def execSensorReset (cause : SensorCause) (s : State) : Out := if s.boot.power then .next (sensorReset cause s) else .next s

/-! ## JTAG (15 Table 15-7) -/

/-- Load an instruction: the pins stay functional unless the instruction takes them, and a scan shifts out `out`. -/
def loadIr (op : Nat) (pins : PinMode) (out : Nat) (s : State) : State :=
  modSec (fun x => { x with ir := op, pins := pins, shiftedOut := out }) s
/-- A scan that shifts out something the spec does not give. -/
def loadOpen (op : Nat) (pins : PinMode) (s : State) : State := loadIr op pins (drawFree s).1.toNat (drawFree s).2
/-- An instruction reaches the TAP: held in reset, the device drives no output and takes none (16 R505). -/
def jtag (s : State) (go : State → State) : Out := if outOfReset s then .next (go s) else .next s
/-- BYPASS: one register bit, captured as 0. -/
def execBypass (s : State) : Out := jtag s (loadIr 0xFF .functional 0)
/-- The identification code. -/
def idcode (s : State) : Nat :=
  Config.stepping.toNat * 2 ^ 28 + (if s.part = .bkz2048 then 0x2048 else 0x1280) * 2 ^ 12 + 0x1D3 * 2 + 1
/-- IDCODE. -/
def execIdcode (s : State) : Out := jtag s (loadIr 0x01 .functional (idcode s))
/-- SAMPLE/PRELOAD: the pins' levels shift out. -/
def execSamplePreload (s : State) : Out := jtag s (loadOpen 0x02 .functional)
/-- An instruction that takes the pins comes after a sensor reset with cause TEST_MODE. -/
def takePins (op : Nat) (pins : PinMode) (s : State) : Out := jtag s (fun s => loadOpen op pins (sensorReset .testMode s))
/-- EXTEST. -/
def execExtest (s : State) : Out := takePins 0x03 .extest s
/-- CLAMP. -/
def execClamp (s : State) : Out := takePins 0x04 .clamp s
/-- HIGHZ. -/
def execHighz (s : State) : Out := takePins 0x05 .highz s
/-- TAP_RESET: TRST_N low holds the TAP in Test-Logic-Reset, whose instruction is IDCODE (17 R539; log 44). -/
def execTapReset (s : State) : Out := .next (modSec (fun x => { x with ir := 0x01, pins := .functional }) s)

/-! ## The debug lock (15 R502) -/

/-- UNLOCK_CHALLENGE: a fresh random value below the device ID, unless the hold-off lasts; without one what shifts out is open. -/
def challenge (s : State) : State :=
  if s.sec.holdoff then modSec (fun x => { x with challenge := none }) (loadOpen 0x40 .functional s)
  else
    let c := (drawFree s).1.toNat + Config.deviceId.toNat * 2 ^ 64
    modSec (fun x => { x with challenge := some c }) (loadIr 0x40 .functional c (drawFree s).2)
/-- UNLOCK_CHALLENGE. -/
def execUnlockChallenge (s : State) : Out := jtag s challenge
/-- A square root in the field, where there is one: the prime is 3 mod 4. -/
def sqrt384 (a : Nat) : Nat := powModLoop p384 (a % p384) ((p384 + 1) / 4) 384 1
/-- The affine coordinates of a point that is not at infinity. -/
def affine (q : JPoint) : Nat × Nat :=
  let zi := invMod p384 q.z
  let z2 := zi * zi % p384
  (q.x * z2 % p384, q.y * (z2 * zi % p384) % p384)
/-- The public keys under which (r, s) can sign a digest. -/
def signingKeys (r s : Nat) (digest : Bytes) : List (Nat × Nat) :=
  let w := invMod n384 r
  let e := beNat digest
  ([r, r + n384].filter (fun x => decide (x < p384))).flatMap (fun x =>
    let y := sqrt384 (fsub384 (x * x % p384 * x % p384) (3 * x) + b384)
    ([y, (p384 - y) % p384].filter (fun y => onCurve x y)).filterMap (fun y =>
      let q := jadd (jmulLoop (s * w % n384) { x := x, y := y, z := 1 } 384 {})
                    (jmulLoop ((n384 - e % n384) * w % n384) { x := gx384, y := gy384, z := 1 } 384 {})
      if q.z = 0 then none else some (affine q)))
/-- A response is valid: it is a signature, by the key whose hash is fused, over the SHA-256 of the most recent challenge. -/
def responseValid (s : State) (r v : Nat) : Bool :=
  match s.sec.challenge with
  | none => false
  | some c =>
    let digest := sha256 (natLe 16 c)
    (signingKeys r v digest).any (fun k =>
      ecdsaVerify k.1 k.2 r v digest && beNat (sha256 (natBe 48 k.1 ++ natBe 48 k.2)) == Config.debugKeyHash.toNat)
/-- A ward's key is destroyed: nothing written under it can be read (15 R501). -/
def destroyKey (w : Ward) : Ward :=
  { w with
    key := none, mem := [], images := [], poisoned := []
    allocs := w.allocs.filter (fun a => match a.kind with | .image _ => false | _ => true) }
/-- A valid response: keys destroyed, every context torn down, DEBUG_UNLOCKED and TAMPER set. -/
def unlock (s : State) : State :=
  let s1 := (List.range 16).foldl (fun s w => teardownWard w s) { s with wards := s.wards.map destroyKey }
  modSec (fun x => { x with unlocked := true, challenge := none, unlockWas := some (s.now, s.sec.tamper, s.sec.tamperEver) }) (setTamper 4 s1)
/-- UNLOCK_RESPONSE: an invalid one discards the challenge, and no new one is issued for 1 s. -/
def execUnlockResponse (r s : Nat) (st : State) : Out :=
  jtag st (fun st =>
    let s1 := loadIr 0x41 .functional 0 st
    if responseValid st r s then unlock s1
    else modSec (fun x => { x with challenge := none, holdoff := true, holdoffAt := st.now }) s1)
/-- UNLOCK_HOLDOFF_EXPIRY. -/
def execUnlockHoldoffExpiry (s : State) : Out :=
  guardThat (s.sec.holdoff && decide (s.sec.holdoffAt + 6 * 10 ^ 9 ≤ s.now)) "no hold-off ends now"
    (.next (modSec (fun x => { x with holdoff := false }) s))
/-- YAKABRY_DEBUG_ACCESS: locked, it acts as BYPASS; unlocked, what it shifts out is open (log 45). -/
def execYakabryDebugAccess (op : Nat) (s : State) : Out :=
  jtag s (fun s => if s.sec.unlocked then loadOpen op .functional s else loadIr op .functional 0 s)

end Sys2Proof.Machine
end

