-- ==== Sys2Proof/Machine/Power.lean ====
section
/-!
DEFINITION. Operating points, THERM_N, the MG_ registers and the repair block (16 R514–R523; 15 R491; 17 R541).
-/
namespace Sys2Proof.Machine

def modOp (g : OpPoint → OpPoint) (s : State) : State := { s with op := g s.op }

/-! ## Readings (16 Table 16-8, R522) -/

/-- A temperature in 1/16 °C as signed. -/
def tempI (n : Nat) : Int := sext 16 n
/-- AVG_10MS: the mean of the last ten 1 ms powers, truncated; of those there are while there are fewer (log 46). -/
def avg10 (o : OpPoint) : Nat := o.powers.foldl (· + ·) 0 / max 1 o.powers.length
/-- THERMAL PEAK after a reading. -/
def peakWith (o : OpPoint) (t : Nat) : Nat :=
  match o.tempPeak with
  | none => t
  | some p => if tempI p < tempI t then t else p
/-- POINT: the lowest point in force on any core. -/
def lowestPoint (s : State) : Nat :=
  let m := unmovedCores s
  if m = 0 then s.op.target else if subMask (2 ^ coreCount s - 1) m then s.op.prev else max s.op.prev s.op.target
/-- Core clock of a point in MHz (16 Table 16-4). -/
def pointMHz (p : Nat) : Nat := [1500, 1200, 1000, 750, 500].getD p 1500
/-- The value of each PLDM sensor 1–11 (16 Table 16-11). -/
def sensorValues (s : State) : List Nat :=
  let r := s.op.readings
  [r.tempMax, avg10 s.op, r.core, r.sram, r.vault, r.io, r.aux, pointMHz (lowestPoint s), lowestPoint s,
   if s.boot.stage = 5 then 1 else if s.boot.stage = 15 then 2 else 0, b2n s.sec.tamperEver]
/-- MG_REFRESH: once per millisecond. -/
def execMgRefresh (r : Readings) (s : State) : Out :=
  guardThat (outOfReset s && s.boot.pll && decide (6000000 * s.op.freshMs ≤ s.now)) "no refresh is due"
    (let s1 := modOp (fun o => { o with
       freshMs := s.now / 6000000 + 1, readings := r, tempPeak := some (peakWith o r.tempMax)
       powerPeak := max o.powerPeak r.power, powers := (r.power :: o.powers).take 10 }) s
     .next (modOp (fun o => { o with sensors := sensorValues s1 }) s1))
/-- THERM_N_CHANGE: a level is recognised (17 R541). -/
def execThermNChange (level : Bool) (s : State) : Out :=
  guardThat s.boot.power "the device has no power" (.next (modBoot (fun b => { b with thermN := level }) s))

/-! ## Operating points (16 R515–R519) -/

/-- The requested point. -/
def requestedPoint (s : State) : Nat := if s.op.repeatable then 1 else 0
/-- The step-down conditions that hold, as CAUSE bits: junction, power, THERM_N. -/
def stepDownCauses (s : State) : Nat :=
  let o := s.op
  let hot := b2n (decide ((16 * o.tHigh : Int) < tempI o.readings.tempMax))
  let power := b2n (decide (16 * o.powerLimit * max 1 o.powers.length < o.powers.foldl (· + ·) 0))
  let therm := b2n (!s.boot.thermN)
  if o.repeatable then 4 * therm else hot + 2 * power + 4 * therm
/-- Every step-up condition holds. -/
def stepUpHolds (s : State) : Bool :=
  let o := s.op
  s.boot.thermN && (o.repeatable ||
    (decide (tempI o.readings.tempMax < 16 * ((o.tHigh : Int) - 10))
      && decide (10 * o.powers.foldl (· + ·) 0 < 9 * 16 * o.powerLimit * max 1 o.powers.length)))
/-- The target that an evaluation in millisecond `ms` gives: a change of the requested point and a step act together (16 R519). -/
def nextTarget (s : State) (ms : Nat) : Nat :=
  let req := requestedPoint s
  let changed := req != s.op.requested
  let base := if changed then req else s.op.target
  if stepDownCauses s ≠ 0 then min 4 (base + 1)
  else if changed then req
  else if stepUpHolds s && decide (s.op.upFailMs + 100 ≤ ms) && decide (req < base) then base - 1
  else base
/-- Make a decision: cores of bound groups wait for a frame start of every context that binds them (16 R516). -/
def decideOp (new : Nat) (s : State) : State :=
  let binding := (s.ctxs.map (·.1)).filter (bindsCores s)
  settleOp (modOp (fun o => { o with prev := o.target, prevRep := o.chosenRep, target := new, waits := binding, pending := true, decidedAt := some s.now }) s)
/-- An evaluation in millisecond `ms` with no decision being applied. -/
def evaluateOp (ms : Nat) (s : State) : State :=
  let new := nextTarget s ms
  let down := stepDownCauses s
  let s1 := if new ≠ s.op.target then decideOp new s else s
  let stepped := down ≠ 0 ∧ new ≠ s.op.target
  let s2 := modOp (fun o => { o with
    requested := requestedPoint s, chosenRep := o.repeatable
    upFailMs := if stepUpHolds s then o.upFailMs else ms
    causes := if stepped then o.causes ||| down else o.causes
    causesFresh := if stepped then o.causesFresh ||| down else o.causesFresh }) s1
  if stepped then raiseErr eThermal 0 0 none s2 else s2
/-- OP_EVALUATION: once per millisecond, and only when no earlier decision is still being applied. -/
def execOpEvaluation (s : State) : Out :=
  guardThat (outOfReset s && s.boot.pll && decide (6000000 * s.op.evalMs ≤ s.now)) "no evaluation is due"
    (let ms := s.now / 6000000
     let s1 := settleOp (modOp (fun o => { o with evalMs := ms + 1 }) s)
     .next (if s1.op.pending then s1 else evaluateOp ms s1))
/-- KW_STATUS.THROTTLED and KW_STATUS.REPEATABLE (16 R518). -/
def throttled (s : State) : Bool := decide (requestedPoint s < s.op.target)
def repeatableNow (s : State) : Bool :=
  let mine := fun (rep : Bool) (p : Nat) => p == 1 || (rep && decide (1 < p))
  s.op.repeatable && mine s.op.chosenRep s.op.target && (unmovedCores s == 0 || mine s.op.prevRep s.op.prev)

/-! ## MG_OP_CTRL (16 Table 16-8) -/

/-- The least and largest POWER_LIMIT. -/
def powerMax (s : State) : Nat := if s.part = .bkz2048 then 400 else 260
/-- A write: a field outside its range stays as it is. -/
def writeOpCtrl (v : Nat) (s : State) : State :=
  let p := field v 25 16
  let t := field v 15 8
  modOp (fun o => { o with
    repeatable := v.testBit 31
    powerLimit := if 100 ≤ p ∧ p ≤ powerMax s then p else o.powerLimit
    tHigh := if 85 ≤ t ∧ t ≤ 115 then t else o.tHigh }) s
/-- OP_CTRL_WRITE. -/
def execOpCtrlWrite (value : Nat) (s : State) : Out := if barsOpen s 0 then .next (writeOpCtrl value s) else .next s

/-! ## MG_ words (16 Tables 16-7, 16-8; 15 Table 15-4) -/

/-- CHANGES and PENDING as a read sees them. -/
def opStatusWord (s : State) : Nat :=
  let t := settleOp s
  t.op.changes.toNat * 2 ^ 32 + b2n t.op.pending * 2 ^ 12 + t.op.causes % 8 * 2 ^ 9 + t.op.target * 16 + lowestPoint t
def thermalWord (s : State) : Nat :=
  let o := s.op
  o.readings.hot % 256 * 2 ^ 48 + o.tempPeak.getD 0 % 65536 * 2 ^ 32 + o.readings.tempMax % 65536 * 2 ^ 16 + o.readings.tempAvg % 65536
def powerWord (s : State) : Nat :=
  let o := s.op
  o.powerPeak % 65536 * 2 ^ 32 + avg10 o % 65536 * 2 ^ 16 + o.readings.power % 65536
def rails0Word (s : State) : Nat :=
  let r := s.op.readings
  r.io % 65536 * 2 ^ 48 + r.vault % 65536 * 2 ^ 32 + r.sram % 65536 * 2 ^ 16 + r.core % 65536
def bootWord (s : State) : Nat :=
  let b := s.boot
  b.readyUs % 2 ^ 32 * 2 ^ 32 + b.failCode % 256 * 2 ^ 24 + b.slotsValid % 256 * 2 ^ 16 + b.stage % 16 * 2 ^ 12 + b.bootSlot % 2 * 2 ^ 8
/-- A physical core's column and row. -/
def physMesh (s : State) (p : Nat) : Nat × Nat := if s.part = .bkz2048 then (p % 48, p / 48) else Config.meshPos p
/-- Fewest spare rows left in any channel. -/
def rowSparesMin (s : State) : Nat := s.ras.rowsUsed.foldl (fun m r => min m (512 - r.2)) 512
/-- The repair block's 64 bits at an offset. -/
def rasWord (s : State) (o : Nat) : Nat :=
  let r := s.ras
  match o with
  | 0x00 => min 255 (popcount 2048 (failedCores s)) * 2 ^ 40 + r.sparesLeft % 256 * 2 ^ 32 + r.failedChans.length % 256 * 2 ^ 24
              + r.chanSpares.foldl (· + ·) 0 % 256 * 2 ^ 16 + rowSparesMin s
  | 0x08 => r.ceCoreStore * 2 ^ 32 + r.ceRegister
  | 0x10 => r.ceStaging * 2 ^ 32 + r.ceVcache
  | 0x18 => r.ceVault * 2 ^ 32 + r.ceKeeper
  | 0x20 => r.ueContext * 2 ^ 48 + r.ueLatent * 2 ^ 32 + r.recoveries * 2 ^ 16 + r.remaps
  | 0x28 => r.lastLogical % 2048 * 2 ^ 32 + (physMesh s r.lastPhys).1 % 64 * 2 ^ 24 + (physMesh s r.lastPhys).2 % 64 * 2 ^ 16 + r.lastCause % 256 * 2 ^ 8
  | 0x30 => r.vaultPasses * 2 ^ 32 + r.sramPasses
  | 0x38 => s.sec.tamper % 32 * 2 ^ 8 + b2n s.sec.unlocked * 2 ^ 7 + b2n s.sec.rngFail * 2 ^ 6 + svnFused s
  | _ => 0
/-- An entry of MG_ENERGY_COEF: p of 5 points, q of 16 quantities of which 13–15 read as zero (16 R523). -/
def coefWord (o : Nat) : Nat :=
  let one := fun (k : Nat) => if k / 16 < 5 ∧ k % 16 < 13 then Config.energy (k % 16) (k / 16) % 2 ^ 32 else 0
  one (o / 4) + one (o / 4 + 1) * 2 ^ 32
/-- The 64 bits at an 8-byte aligned offset of the MG_ region. -/
def mgWord (s : State) (o : Nat) : Nat :=
  if 0x8000 ≤ o then rasWord s (o - 0x8000)
  else if 0x100 ≤ o ∧ o < 0x240 then coefWord (o - 0x100)
  else match o with
  | 0x00 => b2n s.op.repeatable * 2 ^ 31 + s.op.powerLimit % 1024 * 2 ^ 16 + s.op.tHigh % 256 * 2 ^ 8
  | 0x08 => opStatusWord s
  | 0x10 => thermalWord s
  | 0x18 => powerWord s
  | 0x20 => rails0Word s
  | 0x28 => s.op.readings.aux % 65536
  | 0x30 => bootWord s
  | 0x38 => s.boot.lastCause % 16
  | 0x40 => s.smb.address % 128 * 2 ^ 8 + s.smb.eid % 256
  | _ => 0
/-- THERMAL_PEAK_READ: the read returns MG_THERMAL and clears PEAK. -/
def execThermalPeakRead (s : State) : Out :=
  if barsOpen s 0 then .next (modOp (fun o => { o with tempPeak := none }) (readBack (natLe 8 (thermalWord s)) s)) else .next s
/-- POWER_PEAK_READ: the read returns MG_POWER and clears PEAK. -/
def execPowerPeakRead (s : State) : Out :=
  if barsOpen s 0 then .next (modOp (fun o => { o with powerPeak := 0 }) (readBack (natLe 8 (powerWord s)) s)) else .next s

end Sys2Proof.Machine
end

