-- ==== Sys2Proof/Machine/ScanOut.lean ====
section
/-!
DEFINITION. Scan-out: period starts and the frame shown, the freeze detector, genlock, slices and their rings, active lines,
and underruns (09 R320–R327, R331–R335, R337–R342).
-/
namespace Sys2Proof.Machine

/-! ## When the next period starts (09 R323–R325) -/

/-- The slot that a bound head begins next. -/
def nextSlot (h : Head) : Nat := if h.begun then (h.refFrame + 1) % 2 ^ 32 else h.refFrame
/-- The deadline of the next slot, in head units. -/
def slotDeadline (h : Head) : Nat := if h.begun then h.nextStart else h.refInstant
/-- A ready instant + D, formed in head units and taken to TB (01 R57; 09 R322). -/
def readyPlusD (b : Bytes) (readyAt : Nat) : Nat := tbOfHead (readyAt * 65536 / 60 + hbD b) * 65536
/-- The start of the next slot of a bound head: its deadline, or on a VRR head the instant at which its ready frame may begin. -/
def slotStart (h : Head) (b : Bytes) (x : Ctx) : Nat :=
  let d := slotDeadline h
  if hbVrr b then
    match x.fr.ready.find? (fun r => r.frame.number == nextSlot h && !r.shown) with
    | some r => min d (max (readyPlusD b r.readyAt) (if h.begun then h.prevStart.getD 0 + hbMinPeriod b else 0))
    | none => d
  else d
/-- The context bound to a head. -/
def boundCtx (s : State) (h : Head) : Option Ctx := h.ctx.bind (liveCtx s)
/-- The head's next period start, and whether it is a scan-out start. -/
def headDue (s : State) (h : Head) : Option (Nat × Bool) :=
  h.cfg.map (fun b => match boundCtx s h with
    | some x => if h.begun || decide (slotStart h b x ≤ h.nextStart) then (slotStart h b x, true) else (h.nextStart, false)
    | none => (h.nextStart, false))

/-! ## Configuration that takes effect, and unbinding -/

/-- The two blocks name different rings (09 R333). -/
def ringChanged (o n : Bytes) : Bool :=
  hbRingBase o != hbRingBase n || hbProducer o != hbProducer n || hbEntryBytes o != hbEntryBytes n || hbEntryCount o != hbEntryCount n
/-- A waiting configuration takes effect at a period start; a changed ring begins at index 0, which the device writes. -/
def takeConfig (head : Nat) (s : State) : State :=
  let h := headOf s head
  match h.pendingCfg, h.cfg with
  | some n, some o =>
    let s1 := modHead head (fun h => { h with cfg := some n, pendingCfg := none }) s
    if ringChanged o n then
      let s2 := modHead head (fun h => { h with prod := 0, beg := 0, consumer := 0 }) s1
      if decide (head < 1024) && !hbHinge n then hostWrite (hbProducer n) (natLe 4 0) s2 else s2
    else s1
  | _, _ => s
/-- A period start of a head that begins no slot (09 R324). -/
def plainStart (head at_ : Nat) (s : State) : State :=
  modHead head (fun h => { h with prevStart := some at_, nextStart := at_ + (h.cfg.map headInterval).getD 1 }) s
/-- HEAD_UNBIND takes effect at s_u: nothing of the context is shown from here on (09 R321). -/
def unbindHead (head slot seq : Nat) (s : State) : State :=
  let s1 := modHead head (fun h => { h with
    ctx := none, nextDeadline := 0, unbindSeq := none, begun := false, shown := .nothing, store := none }) s
  let s2 := modCtx slot (fun x => { x with head := none, fr := { x.fr with ready := x.fr.ready.map (fun r => { r with shown := true }) } }) s1
  completeOk (.ctx slot) seq [] (pruneReady slot s2)

/-! ## What a slot shows (09 R326) -/

/-- A ready frame may be shown in slot F starting at `at_`: it was ready by the TB instant of `at_` − D or, on a VRR head, the TB
instant of its ready instant + D is no later (09 R325, R326; 01 R57; DEDUCED, log 52). -/
def qualifiesAt (h : Head) (b : Bytes) (slotF at_ : Nat) (r : Ready) : Bool :=
  let n := r.frame.number
  !r.shown && !later 32 h.boundFrame n && !later 32 n slotF
    && (decide ((r.readyAt : Int) ≤ leadStart b at_) || (hbVrr b && !r.late && decide (readyPlusD b r.readyAt ≤ at_)))
/-- The highest-numbered frame of a list. -/
def latestReady (l : List Ready) : Option Ready :=
  l.foldl (fun a r => match a with
    | some q => if later 32 r.frame.number q.frame.number then some r else a
    | none => some r) none
/-- Frames of the binding below one, never shown. -/
def skippedBelow (h : Head) (x : Ctx) (n : Nat) : Nat :=
  (x.fr.ready.filter (fun r => !r.shown && later 32 n r.frame.number && !later 32 h.boundFrame r.frame.number)).length
/-- Count on a head counter, setting WRAPPED when it wraps (09 R344). -/
def bumpSkips (n : Nat) (h : Head) : Head :=
  { h with skips := (bump32 h.skips n).1, wrapped := h.wrapped || (bump32 h.skips n).2, fresh := headFresh h 0 (bump32 h.skips n).2 }
def bumpRepeats (h : Head) : Head :=
  { h with repeats := (bump32 h.repeats 1).1, wrapped := h.wrapped || (bump32 h.repeats 1).2, fresh := headFresh h 0 (bump32 h.repeats 1).2 }
def bumpUnderruns (n : Nat) (h : Head) : Head :=
  if n = 0 then h
  else { h with underruns := (bump32 h.underruns n).1, wrapped := h.wrapped || (bump32 h.underruns n).2, underrun := true
                fresh := headFresh h 256 (bump32 h.underruns n).2
                underrunFrame := h.underrunFrame + n }
def bumpDrops (h : Head) : Head :=
  { h with ringDrops := (bump32 h.ringDrops 1).1, wrapped := h.wrapped || (bump32 h.ringDrops 1).2, ringFull := true
           fresh := headFresh h 1024 (bump32 h.ringDrops 1).2, droppedFrame := h.droppedFrame + 1, afterDrop := true }
/-- The run after a shown frame, and whether it has just reached the threshold (09 R341, R342). -/
def freezeNext (h : Head) (threshold sig base : Nat) (view : List Nat) : Nat × Bool :=
  match h.prevShown with
  | none => (h.freezeRun, false)
  | some (_, sig', base', view') =>
    if sig ≠ sig' then (0, false)
    else if base ≠ base' ∨ view ≠ view' then
      let run := min 255 (h.freezeRun + 1)
      (run, decide (h.freezeRun < run) && run == threshold && threshold != 0)
    else (h.freezeRun, false)
/-- Update the freeze detector for a frame that the head begins to show. -/
def freezeStep (head slot : Nat) (b : Bytes) (r : Ready) (s : State) : State :=
  let f := r.frame
  let h := headOf s head
  let sig := signatureOf b r.img
  let base := f.base.getD 0
  let n := freezeNext h (hbFreeze b) sig base f.camera.view
  let post := n.2 && !h.freezePosted
  let s1 := modHead head (fun h => { h with
    freezeRun := n.1, prevShown := some (f.number, sig, base, f.camera.view)
    freezePosted := (h.freezePosted || post) && n.1 != 0, freeze := h.freeze || post
    fresh := if post then headFresh h 512 false else h.fresh }) s
  if post then
    postEvent slot kFreeze 0 (natLe 4 f.number ++ natLe 4 sig ++ natLe 1 n.1 ++ natLe 1 0 ++ natLe 2 head) s1
  else s1
/-- Show a ready frame: those below it that were never shown are skipped. -/
def showFrame (head slot : Nat) (b : Bytes) (x : Ctx) (r : Ready) (s : State) : State :=
  let n := r.frame.number
  let s1 := modHead head (fun h => bumpSkips (skippedBelow h x n) { h with shown := .frame n, isRepeat := false, store := some r }) s
  let s2 := modCtx slot (fun x => { x with fr := { x.fr with ready := x.fr.ready.map (fun q =>
    if later 32 q.frame.number n then q else { q with shown := true }) } }) s1
  pruneReady slot (freezeStep head slot b r s2)
/-- Show the last frame again, or black where nothing has been shown since binding. -/
def showAgain (h : Head) : Head :=
  match h.store with
  | some r => bumpRepeats { h with shown := .frame r.frame.number, isRepeat := true }
  | none => bumpRepeats { h with shown := .black, isRepeat := h.everBlack, everBlack := true }
/-- The context's frame in progress keeps the deadline that its head's reference gives it (01 R56). -/
def refreshDeadline (head slot : Nat) (s : State) : State :=
  let h := headOf s head
  modCtx slot (fun x => { x with fr := { x.fr with cur := x.fr.cur.map (fun f =>
    if f.head = head then { f with deadline := deadlineOf h f.number } else f) } }) s
/-- The slot of frame F begins at an instant. -/
def beginSlot (head slot slotF at_ : Nat) (b : Bytes) (x : Ctx) (s : State) : State :=
  let s1 := modHead head (fun h => { h with
    refFrame := slotF, refInstant := at_, begun := true, prevStart := some at_, nextStart := at_ + headInterval b
    slotFrame := slotF, scanStart := at_, lastStart := BitVec.ofNat 64 (tbOfHead at_), lastFrame := BitVec.ofNat 32 slotF
    nextDeadline := BitVec.ofNat 64 (tbOfHead (at_ + headInterval b)), slicesBegun := 0, inFlight := [], lastPx := none
    droppedFrame := 0, underrunFrame := 0, scanDone := false }) s
  let s2 := match latestReady (x.fr.ready.filter (qualifiesAt (headOf s head) b slotF at_)) with
    | some r => showFrame head slot b x r s1
    | none => modHead head showAgain s1
  refreshDeadline head slot s2
/-- A scan-out start of a bound head. -/
def scanStartAt (head slot at_ : Nat) (x : Ctx) (s : State) : State :=
  let slotF := nextSlot (headOf s head)
  let s1 := takeConfig head s
  match (headOf s head).unbindSeq with
  | some seq => unbindHead head slot seq (plainStart head at_ s1)
  | none => beginSlot head slot slotF at_ ((headOf s1 head).cfg.getD []) x s1
/-- The tap shows the frame that its virtual head shows last, at its own period starts (09 R338). -/
def tapStart (t : Tap) (s : State) : State :=
  let st := (headOf s t.head).store
  { s with tap := some { t with nextStart := t.nextStart + headInterval t.cfg, shown := if st.isSome then st else t.shown } }
/-- HEAD_PERIOD_START. -/
def execHeadPeriodStart (head : Nat) (s : State) : Out :=
  let h := headOf s head
  match headDue s h with
  | none =>
    match s.tap with
    | some t => guardThat (head == 1025 && headReached s t.nextStart) "the period has not come" (.next (tapStart t s))
    | none => notNow "the head is not configured"
  | some (at_, isSlot) =>
    guardThat (headReached s at_ && h.scanDone) "the period has not come"
      (if isSlot then
        need (boundCtx s h) "no context is bound" (fun x => .next (scanStartAt head (h.ctx.getD 0) at_ x s))
       else .next (plainStart head at_ (if h.ctx.isSome then s else takeConfig head s)))

/-! ## Slices (09 R331–R335; 12 R428) -/

/-- The slot is delivered as one header alone. -/
def headerOnly (h : Head) (b : Bytes) : Bool := h.isRepeat && hbHeaderOnly b
/-- Slices of the present slot. -/
def slotSlices (h : Head) (b : Bytes) : Nat := if headerOnly h b then 1 else fullSlices b
/-- The start of an active line of the slot, in head units. -/
def lineStart (h : Head) (b : Bytes) (l : Nat) : Nat := h.scanStart + l * hbPeriod b / hbVt b
/-- Nothing of the ring or the credits is free. -/
def noRoom (h : Head) (b : Bytes) : Bool :=
  if hbHinge b then h.sliceCredits == 0 else (h.beg - h.consumer).toNat == hbEntryCount b
/-- UNDERRUN with reason RING_FULL, with the count of dropped slices, once the last slice has been begun or dropped. -/
def postDrops (head slot : Nat) (s : State) : State :=
  let h := headOf s head
  let n := match h.shown with | .frame f => f | _ => h.slotFrame
  if h.droppedFrame = 0 then s else postEvent slot kUnderrun 0x02 (natLe 4 n ++ natLe 2 head ++ natLe 4 h.droppedFrame) s
/-- Begin or drop the next slice. -/
def beginSlice (head slot : Nat) (h : Head) (b : Bytes) (s : State) : State :=
  let k := h.slicesBegun
  let drop := decide (0 < h.droppedFrame) || noRoom h b
  let s1 := modHead head (fun h =>
    if drop then bumpDrops { h with slicesBegun := k + 1 }
    else
      { h with slicesBegun := k + 1, inFlight := h.inFlight ++ [(k, tbOfHead (lineStart h b (k * hbSlice b)))]
               beg := if hbHinge b then h.beg else h.beg + 1
               sliceCredits := if hbHinge b then h.sliceCredits - 1 else h.sliceCredits }) s
  if k + 1 = slotSlices h b then postDrops head slot s1 else s1
/-- SLICE_BEGIN. -/
def execSliceBegin (head : Nat) (s : State) : Out :=
  let h := headOf s head
  need h.cfg "the head is not configured" (fun b =>
    need h.ctx "no context is bound" (fun slot =>
      guardThat (decide (head < 1024) && !h.scanDone && decide (h.slicesBegun < slotSlices h b)
          && headReached s (lineStart h b (h.slicesBegun * hbSlice b)))
        "no slice begins" (.next (beginSlice head slot h b s))))
/-- The frame that a slot shows, unless it is black. -/
def shownReady (h : Head) : Option Ready := match h.shown with | .frame _ => h.store | _ => none
/-- The slice header (09 Table 9-3). -/
def sliceHeader (head slot : Nat) (h : Head) (b : Bytes) (k start padded : Nat) : Bytes :=
  let only := headerOnly h b
  let r := shownReady h
  let n := if only then 0 else sliceHeight b k
  let last := k + 1 == slotSlices h b
  let sig := match r with | some q => if last && !h.isRepeat then signatureOf b q.img else 0 | none => 0
  let flags := b2n last + 2 * b2n ((r.map (fun q => q.frame.substituted)).getD false) + 4 * b2n h.isRepeat + 8 * b2n (padded != 0)
    + 16 * b2n only + 32 * b2n h.afterDrop
  let frame := match r with | some q => q.frame.number | none => h.slotFrame
  natLe 2 0x4C53 ++ [0x01] ++ natLe 1 (hbFormat b) ++ natLe 1 (hbColour b) ++ natLe 1 flags ++ natLe 2 head ++ List.replicate 20 0
    ++ natLe 2 k ++ natLe 2 (slotSlices h b) ++ natLe 2 (hbWidth b) ++ natLe 2 (hbHeight b) ++ natLe 2 (k * hbSlice b) ++ natLe 2 n
    ++ natLe 2 (yPitch b) ++ natLe 2 padded ++ natLe 2 slot ++ natLe 2 h.gen ++ natLe 4 frame ++ natLe 4 sig ++ natLe 8 start
/-- The lines of a slice as read in time: black reads nothing from the frame store. -/
def sliceReads (h : Head) (b : Bytes) (k : Nat) (got : List Nat) : List LineRead :=
  if headerOnly h b then []
  else readLines (hbWidth b) (k * hbSlice b) (if (shownReady h).isSome then got else []) (sliceHeight b k) h.lastPx
/-- Deliver an entry: into the ring, with the producer index after it, or as a SLICE message. -/
def deliver (head slot : Nat) (b entry : Bytes) (ok : Bool) (s : State) : State :=
  if hbHinge b then
    let dest := hbHingeDest b % 4096
    if dest = ownId s then s
    else sendFor (some (headFn s head)) tySlice 0 0 dest 0 entry (hbHingeDest b / 65536 % 1024) (chargeHinge slot 0 entry.length s)
  else
    let h := headOf s head
    let addr := hbRingBase b + hbEntryBytes b * (h.prod.toNat % hbEntryCount b)
    let s1 := if ok then hostWrite addr entry s else spoilHost addr entry.length (hostDmaFailed ((headFn s head)) addr s)
    let s2 := hostWrite (hbProducer b) (natLe 4 (h.prod + 1).toNat) s1
    modHead head (fun h => { h with prod := h.prod + 1 }) (chargeHost slot 0 (entry.length + 4) s2)
/-- Write the oldest slice begun. -/
def writeSlice (head slot : Nat) (h : Head) (b : Bytes) (k start : Nat) (got : List Nat) (ok : Bool) (s : State) : State :=
  let rs := sliceReads h b k got
  let padded := (rs.filter (fun r => decide (r.got < hbWidth b))).length
  let entry := sliceHeader head slot h b k start padded ++ sliceLines b ((shownReady h).map (·.img)) (k * hbSlice b) rs
  let s1 := modHead head (fun h => bumpUnderruns padded { h with
    inFlight := h.inFlight.drop 1, afterDrop := false, lastPx := (rs.getLast?.bind (·.last)).orElse (fun _ => h.lastPx) }) s
  deliver head slot b entry ok s1
/-- SLICE_WRITTEN: `underrun` gives the pixels read in time of each line of the slice, all of them where the list ends. -/
def execSliceWritten (head : Nat) (underrun : List Nat) (entryOk : Bool) (s : State) : Out :=
  let h := headOf s head
  need h.cfg "the head is not configured" (fun b =>
    need h.ctx "no context is bound" (fun slot =>
      need h.inFlight.head? "no slice is in flight" (fun x => .next (writeSlice head slot h b x.1 x.2 underrun entryOk s))))

/-! ## Active lines and the end of a scan (09 R339, R340) -/

/-- What a physical head reads in time of its next active line: black reads nothing from the frame store. -/
def physicalRead (h : Head) (b : Bytes) (delivered : Nat) : LineRead :=
  if (shownReady h).isNone then {} else ((readLines (hbWidth b) h.slicesBegun [delivered] 1 h.lastPx).head?).getD {}
/-- ACTIVE_LINE_SCAN: `delivered` pixels of the next active line of a physical head are read in time. -/
def execActiveLineScan (head delivered : Nat) (s : State) : Out :=
  let h := headOf s head
  need h.cfg "the head is not configured" (fun b =>
    guardThat (decide (1024 ≤ head) && !h.scanDone && decide (h.slicesBegun < hbHeight b) && headReached s (lineStart h b h.slicesBegun))
      "no active line begins"
      (let r := physicalRead h b delivered
       let miss := (shownReady h).isSome && decide (delivered < hbWidth b)
       .next (modHead head (fun h => bumpUnderruns (b2n miss) { h with
         slicesBegun := h.slicesBegun + 1, lastPx := r.last, lineSent := sentLine b ((shownReady h).map (·.img)) h.slicesBegun r }) s)))
/-- Everything of the slot has been scanned: its lines, or its slices begun and those not dropped written. -/
def allScanned (head : Nat) (h : Head) (b : Bytes) : Bool :=
  if 1024 ≤ head then h.slicesBegun == hbHeight b else h.slicesBegun == slotSlices h b && h.inFlight.isEmpty
/-- The scan of a frame ends: its signature stands in the registers, and UNDERRUN with reason PIXEL carries the final count. -/
def endScan (head slot : Nat) (h : Head) (b : Bytes) (s : State) : State :=
  let signed := match shownReady h with | some r => if h.isRepeat then none else some r | none => none
  let s1 := modHead head (fun h => match signed with
    | some r => { h with scanDone := true, signature := BitVec.ofNat 32 (signatureOf b r.img), sigFrame := BitVec.ofNat 32 r.frame.number }
    | none => { h with scanDone := true }) s
  let n := match h.shown with | .frame f => f | _ => h.slotFrame
  if h.underrunFrame = 0 then s1 else postEvent slot kUnderrun 0x01 (natLe 4 n ++ natLe 2 head ++ natLe 4 h.underrunFrame) s1
/-- FRAME_SCAN_END. -/
def execFrameScanEnd (head : Nat) (s : State) : Out :=
  let h := headOf s head
  need h.cfg "the head is not configured" (fun b =>
    need h.ctx "no context is bound" (fun slot =>
      guardThat (!h.scanDone && allScanned head h b && headReached s (lineStart h b (if headerOnly h b then 0 else hbHeight b)))
        "the scan goes on" (.next (endScan head slot h b s))))

/-! ## The ring's consumer and GPIO_SYNC -/

/-- A write of RING_CONSUMER: a value that returns entries not yet written is ignored (09 R333). -/
def writeConsumerIndex (head value : Nat) (s : State) : State :=
  let h := headOf s head
  let c := BitVec.ofNat 32 value
  if 1024 ≤ head ∨ ((h.cfg.map hbEntryCount).getD 0) < (h.prod - c).toNat then s else modHead head (fun h => { h with consumer := c }) s
/-- A function reaches a head's register block: its ward's heads, and all for the PF (09 R343). -/
def headOpen (s : State) (fn head : Nat) : Bool := decide (head ≤ 1025) && (fn == 0 || headInWard s fn head)
/-- RING_CONSUMER_WRITE. -/
def execRingConsumerWrite (fn head value : Nat) (s : State) : Out :=
  if barsOpen s fn && headOpen s fn head then .next (writeConsumerIndex head value s) else .next s

/-- Move a head's next scan-out start, and the deadlines that follow from it (09 R327). -/
def moveStart (head from_ dst : Nat) (s : State) : State :=
  let h := headOf s head
  match boundCtx s h with
  | some _ =>
    let ref := ((h.refInstant : Int) + (dst : Int) - (from_ : Int)).toNat
    let s1 := modHead head (fun h => { h with
      refInstant := ref, nextStart := if h.begun then dst else h.nextStart, nextDeadline := BitVec.ofNat 64 (tbOfHead dst) }) s
    refreshDeadline head (h.ctx.getD 0) s1
  | none => modHead head (fun h => { h with nextStart := dst }) s
/-- The start that a genlocked head predicts: its next scan-out start, or its next period start while unbound. -/
def predicted (s : State) (h : Head) : Nat := if (boundCtx s h).isSome then slotDeadline h else h.nextStart
/-- An edge reaches a genlocked head. -/
def genlockEdge (head e : Nat) (b : Bytes) (s : State) : State :=
  let h := headOf s head
  let p := predicted s h
  let dst := e + hbOffset b
  let near := decide ((max dst p - min dst p) * hbVt b ≤ hbPeriod b)
  if near then modHead head (fun h => { h with locked := true, outside := 0 }) (moveStart head p dst s)
  else
    let s1 := modHead head (fun h => { h with locked := false, outside := h.outside + 1 }) s
    if h.outside = 0 then s1 else moveStart head p dst s1
/-- GPIO_SYNC_EDGE: an accepted rising edge reaches every genlocked head, and triggers the cores' samples where counter
sampling takes it. -/
def execGpioSyncEdge (s : State) : Out :=
  let s1 := (s.heads.filterMap (fun x => x.2.cfg.bind (fun b => if hbGenlock b then some (x.1, b) else none))).foldl
    (fun s x => genlockEdge x.1 (nowHead s) x.2 s) s
  .next (if s.perf.externalOn then triggerAll 3 s1 else s1)

end Sys2Proof.Machine
end

