-- ==== Sys2Proof/Machine/Registers.lean ====
section
/-!
DEFINITION. The register map of BAR0 and the MSI-X table of BAR4: what an aligned read of 64 bits sees, and the write of any
register (11 Tables 11-1 to 11-6; 09 Table 9-6; 12 Tables 12-7, 12-8; 14; 16 Tables 16-7, 16-8; 00 R16–R18).
-/
namespace Sys2Proof.Machine

/-! ## Words -/

/-- KW_ID. -/
def kwIdWord (s : State) : Nat :=
  fwId (runningImage s) * 2 ^ 32 + Config.stepping.toNat * 2 ^ 24
    + (if s.part = .bkz2048 then 6 * 2 ^ 16 + 0x2048 else 4 * 2 ^ 16 + 0x1280)
/-- KW_STATUS. -/
def kwStatusWord (s : State) : Nat :=
  s.vfs * 2 ^ 8 + b2n (throttled s) * 32 + b2n (repeatableNow s) * 16 + b2n s.fw.switching * 8 + s.fw.slot % 2 * 4
    + b2n s.fw.running * 2 + b2n s.fw.ready
/-- The global page's 64 bits at an offset. -/
def globalWord (s : State) (fn o : Nat) : Nat :=
  let f := fnOf s fn
  match o with
  | 0x00 => kwIdWord s
  | 0x08 => kwStatusWord s
  | 0x10 => f.errStatus.toNat + f.errMask.toNat * 2 ^ 32
  | 0x18 => f.errInfo.toNat
  | 0x20 => s.fw.heartbeat.toNat
  | 0x28 => f.aperture.toNat
  | 0x30 => f.sqBase.toNat
  | 0x38 => f.cqBase.toNat
  | 0x40 => f.admCfg.toNat % 2 ^ 30 + b2n (f.enabled || f.disabling) * 2 ^ 31
  | 0x100 => tb s
  | _ => 0
/-- A doorbell page's 64 bits at an offset: the ring's indices, and on a context page its generation and state. -/
def doorbellWord (s : State) (g : Ring) (slot : Option Nat) (o : Nat) : Nat :=
  let gen := (slot.map (fun i => (slotOf s i).gen)).getD 0 * 2 ^ 16
  match o with
  | 0x00 => g.tail + g.tailGen * 2 ^ 16 + (g.head + g.headGen * 2 ^ 16) * 2 ^ 32
  | 0x08 => b2n g.arm + g.armGen * 2 ^ 16 + g.fetchHead * 2 ^ 32
  | 0x10 => if slot.isNone then 0 else
      gen + (match (slot.map (fun i => (slotOf s i).state)).getD .free with
        | .free => 0
        | .live => 1
        | .teardown => 2
        | .retired => 3) + g.lost * 2 ^ 32
  | _ => 0
/-- A head block's 64 bits at an offset below 64. -/
def headWord (s : State) (head o : Nat) : Nat :=
  let h := headOf s head
  match o with
  | 0x00 => b2n h.cfg.isSome + b2n (decide (1024 ≤ head)) * 2 + b2n ((h.cfg.map hbVrr).getD false) * 4 + b2n h.linkUp * 8
              + b2n h.locked * 16 + b2n h.ctx.isSome * 64 + b2n h.miss * 128 + b2n h.underrun * 256 + b2n h.freeze * 512
              + b2n h.ringFull * 1024 + b2n h.wrapped * 2048 + h.freezeRun % 256 * 2 ^ 56
  | 0x08 => h.ctxSlot % 1024 + h.gen % 65536 * 2 ^ 16 + (if 1024 ≤ head then 0 else h.consumer.toNat) * 2 ^ 32
  | 0x10 => h.lastFrame.toNat + h.underruns.toNat * 2 ^ 32
  | 0x18 => h.misses.toNat + h.repeats.toNat * 2 ^ 32
  | 0x20 => h.skips.toNat + h.ringDrops.toNat * 2 ^ 32
  | 0x28 => h.sigFrame.toNat + h.signature.toNat * 2 ^ 32
  | 0x30 => h.lastStart.toNat
  | 0x38 => h.nextDeadline.toNat
  | _ => 0
/-- A hinge port block's 64 bits at an offset below 64. -/
def portWord (p : Port) (o : Nat) : Nat :=
  match o with
  | 0x00 => p.state % 4 + widthCode p.lanes * 4 + b2n p.downEvent * 16 + b2n p.dupId * 32 + b2n p.degraded * 64 + b2n p.wrapped * 128
  | 0x08 => p.lanes % 256 * 2 ^ 48 + p.laneFail % 256 * 2 ^ 56
  | 0x10 => p.neighbour % 4096
  | 0x20 => p.retrains.toNat + p.discards.toNat * 2 ^ 32
  | 0x28 => p.crcErrors.toNat + p.replays.toNat * 2 ^ 32
  | 0x30 => p.rxFlits.toNat
  | 0x38 => p.txFlits.toNat
  | _ => 0
/-- The hinge device block's 64 bits at an offset. -/
def hingeWord (s : State) (o : Nat) : Nat :=
  let c := s.hinge.cfg
  match o with
  | 0x00 => (c.map hcId).getD 0xFFF % 4096 + (c.map hcRingSize).getD 0 % 4096 * 2 ^ 24 + (c.map hcPosition).getD 0 % 4096 * 2 ^ 36
              + s.hinge.reroutes.toNat * 2 ^ 48
  | 0x08 => b2n c.isSome + b2n ((c.map hcTopology).getD 0 == 2 && s.hinge.avoided.any (fun l => decide (l.1 < 0x10000))) * 2
  | _ => 0
/-- The HG_ region's 64 bits at an offset. -/
def hgWord (s : State) (o : Nat) : Nat :=
  if o < 0x100 then portWord (s.hinge.ports.getD (o / 0x40) {}) (o % 0x40)
  else if o < 0x140 then hingeWord s (o - 0x100)
  else 0
/-- What an aligned 8-byte read of BAR0 sees, the fields that a read clears included: management, counters and hinge are the
PF's, a head block its ward's, a context page its ward's (11 R387; 09 R343; 12 R439). -/
def bar0Word (s : State) (fn o : Nat) : Nat :=
  if o < 0x1000 then globalWord s fn o
  else if o < 0x2000 then doorbellWord s (fnOf s fn).ring none (o - 0x1000)
  else if o < 0x10000 then 0
  else if o < 0x20000 then (if fn = 0 then mgWord s (o - 0x10000) else 0)
  else if o < 0x30080 then (if headOpen s fn ((o - 0x20000) / 64) then headWord s ((o - 0x20000) / 64) (o % 64) else 0)
  else if o < 0x40000 then 0
  else if o < 0x140000 then (if fn = 0 then pcWord s o else 0)
  else if o < 0x150000 then (if fn = 0 then hgWord s (o - 0x140000) else 0)
  else if o < 0x400000 then 0
  else
    let slot := (o - 0x400000) / 0x1000
    if pageOpen s fn slot then doorbellWord s (((ctxOf s slot).map (·.ring)).getD {}) (some slot) (o % 0x1000) else 0

/-! ## Writes -/

/-- The present 64 bits with the written halves put in. -/
def mergeHalves (old v : Nat) (lo hi : Bool) : Nat :=
  (if lo then v % 2 ^ 32 else old % 2 ^ 32) + (if hi then v / 2 ^ 32 else old / 2 ^ 32) * 2 ^ 32
/-- A write of the global page, `v` already merged. -/
def globalWrite (fn o v : Nat) (lo hi : Bool) (s : State) : State :=
  let f := fnOf s fn
  let frozen := f.enabled || f.disabling
  match o with
  | 0x10 =>
    let s1 := if lo then modFn fn (fun f => { f with errStatus := f.errStatus &&& (~~~BitVec.ofNat 32 v ||| f.errFresh) }) s else s
    if hi then
      let mask : BitVec 32 := BitVec.ofNat 32 (v / 2 ^ 32 % 256)
      let g := fnOf s1 fn
      let s2 := modFn fn (fun f => { f with errMask := mask }) s1
      if g.errStatus &&& g.errMask = 0 ∧ g.errStatus &&& mask ≠ 0 then sendMsix fn (errVector s fn) s2 else s2
    else s1
  | 0x28 => modFn fn (fun f => { f with aperture := BitVec.ofNat 64 (v / 2 ^ 18 % 2 ^ 30 * 2 ^ 18 + v % 2) }) s
  | 0x30 => if frozen then s else modFn fn (fun f => { f with sqBase := BitVec.ofNat 64 (v / 4096 * 4096) }) s
  | 0x38 => if frozen then s else modFn fn (fun f => { f with cqBase := BitVec.ofNat 64 (v / 4096 * 4096) }) s
  | 0x40 => if lo then writeAdmCfg fn (v % 2 ^ 32) s else s
  | _ => s
/-- A write of a doorbell page: KW_SQ_DB and KW_CQ_DB, or KW_CQ_ARM. -/
def doorbellPageWrite (fn : Nat) (r : RingRef) (o v : Nat) (lo hi : Bool) (s : State) : State :=
  match o with
  | 0x00 =>
    let s1 := if lo then doorbell fn r 0 (v % 2 ^ 32) s else s
    if hi then doorbell fn r 1 (v / 2 ^ 32) s1 else s1
  | 0x08 => if lo then doorbell fn r 2 (v % 2 ^ 32) s else s
  | _ => s
/-- A write of a head block: status bits that are cleared by writing 1, and RING_CONSUMER. -/
def headWrite (head o v : Nat) (lo hi : Bool) (s : State) : State :=
  match o with
  | 0x00 =>
    if lo then modHead head (fun h =>
      let keep := fun (k : Nat) => !v.testBit k || h.fresh.testBit k
      { h with
        miss := h.miss && keep 7, underrun := h.underrun && keep 8, freeze := h.freeze && keep 9, ringFull := h.ringFull && keep 10
        wrapped := h.wrapped && keep 11 }) s
    else s
  | 0x08 => if hi then writeConsumerIndex head (v / 2 ^ 32) s else s
  | _ => s
/-- A write of the MG_ region. -/
def mgWrite (o v : Nat) (lo : Bool) (s : State) : State :=
  if !lo then s
  else match o with
  | 0x00 => writeOpCtrl (v % 2 ^ 32) s
  | 0x08 => modOp (fun o => { o with causes := maskDiff o.causes (maskDiff (v / 2 ^ 9 % 8) o.causesFresh) }) s
  | 0x8038 => modSec (fun x => { x with tamper := maskDiff x.tamper (maskDiff (v / 2 ^ 8 % 32) x.tamperFresh) }) s
  | _ => s
/-- A write of the HG_ region: port bits that are cleared by writing 1. -/
def hgWrite (o v : Nat) (lo : Bool) (s : State) : State :=
  if lo ∧ o < 0x100 ∧ o % 0x40 = 0 then
    modPort (o / 0x40) (fun p =>
      let keep := fun (k : Nat) => !v.testBit k || p.fresh.testBit k
      { p with
        downEvent := p.downEvent && keep 4, dupId := p.dupId && keep 5, degraded := p.degraded && keep 6, wrapped := p.wrapped && keep 7 }) s
  else s
/-- An aligned BAR0 write of the halves of the 64 bits at an 8-byte aligned offset. -/
def bar0Write (fn o v0 : Nat) (lo hi : Bool) (s : State) : State :=
  let v := mergeHalves (bar0Word s fn o) v0 lo hi
  if o < 0x1000 then globalWrite fn o v lo hi s
  else if o < 0x2000 then doorbellPageWrite fn (.admin fn) (o - 0x1000) v lo hi s
  else if o < 0x10000 then s
  else if o < 0x20000 then (if fn = 0 then mgWrite (o - 0x10000) v lo s else s)
  else if o < 0x30080 then (if headOpen s fn ((o - 0x20000) / 64) then headWrite ((o - 0x20000) / 64) (o % 64) v lo hi s else s)
  else if o < 0x40000 then s
  else if o < 0x140000 then (if fn = 0 then pcWrite o v lo hi s else s)
  else if o < 0x150000 then (if fn = 0 then hgWrite (o - 0x140000) v lo s else s)
  else if o < 0x400000 then s
  else doorbellPageWrite fn (.ctx ((o - 0x400000) / 0x1000)) (o % 0x1000) v lo hi s
/-- An MSI-X entry's 64 bits: address, or data and vector control with its mask bit. -/
def msixWord (s : State) (fn o : Nat) : Nat :=
  let e := tgetD (fnOf s fn).msix (o / 16) {}
  if o % 16 = 0 then e.addr else e.data + b2n e.masked * 2 ^ 32
/-- A write of the MSI-X table; unmasking a vector whose pending bit is set sends its message (11 Table 11-1, R409). -/
def bar4Write (fn o v0 : Nat) (lo hi : Bool) (s : State) : State :=
  if 0x8000 ≤ o then s
  else
    let k := o / 16
    let v := mergeHalves (msixWord s fn o) v0 lo hi
    let put := fun (g : MsixEntry → MsixEntry) (s : State) => modFn fn (fun f => { f with msix := tupd f.msix k {} g }) s
    if o % 16 = 0 then put (fun e => { e with addr := v / 4 * 4 }) s
    else
      let masked := (v / 2 ^ 32).testBit 0
      let s1 := put (fun e => { e with data := v % 2 ^ 32, masked := masked }) s
      if !masked && (fnOf s fn).pba.contains k then
        sendMsix fn k (modFn fn (fun f => { f with pba := f.pba.filter (· != k) }) s1)
      else s1
/-- REGISTER_WRITE: an aligned write of 4 or 8 bytes to BAR0 or BAR4 of a function. -/
def execRegisterWrite (fn bar offset width value : Nat) (s : State) : Out :=
  let lo := width == 8 || offset % 8 == 0
  let hi := width == 8 || offset % 8 == 4
  let v := if width == 8 then value else if offset % 8 = 4 then value % 2 ^ 32 * 2 ^ 32 else value % 2 ^ 32
  let o := offset / 8 * 8
  if !barsOpen s fn then .next s
  else if bar = 0 then .next (if offset < 2 ^ 23 then bar0Write fn o v lo hi s else s)
  else .next (if offset < 2 ^ 16 then bar4Write fn o v lo hi s else s)

end Sys2Proof.Machine
end

