-- ==== Sys2Proof/Machine/Dispatch.lean ====
section
/-!
DEFINITION. exec: one arm per command of spec/opcode_table.json, each one call of its meaning.
-/
namespace Sys2Proof.Machine

/-- The effect of one command on everything but the queue. -/
def exec (i : Instr) (s : State) : Host.Outcome State Fault Refusal :=
  match i with
  | .ingestRender slot seq => Sys2Proof.Machine.execIngestRender slot seq s
  | .ingestPose slot seq => Sys2Proof.Machine.execIngestPose slot seq s
  | .packetArrival ward index => Sys2Proof.Machine.execPacketArrival ward index s
  | .ingestCheck ward => Sys2Proof.Machine.execIngestCheck ward s
  | .ingestDecodeComplete slot set_ => Sys2Proof.Machine.execIngestDecodeComplete slot set_ s
  | .poseIngestComplete ward => Sys2Proof.Machine.execPoseIngestComplete ward s
  | .frameStart slot => Sys2Proof.Machine.execFrameStart slot s
  | .cutOff slot => Sys2Proof.Machine.execCutOff slot s
  | .geometryPassStart slot => Sys2Proof.Machine.execGeometryPassStart slot s
  | .feSetupGroup fe => Sys2Proof.Machine.execFeSetupGroup fe s
  | .poolGrowthComplete slot => Sys2Proof.Machine.execPoolGrowthComplete slot s
  | .binningComplete slot => Sys2Proof.Machine.execBinningComplete slot s
  | .fragmentBatch slot fe core => Sys2Proof.Machine.execFragmentBatch slot fe core s
  | .splatComplete slot => Sys2Proof.Machine.execSplatComplete slot s
  | .rayTaskStart slot tile => Sys2Proof.Machine.execRayTaskStart slot tile s
  | .rayTaskComplete slot tile => Sys2Proof.Machine.execRayTaskComplete slot tile s
  | .taskAdmit core => Sys2Proof.Machine.execTaskAdmit core s
  | .steal core => Sys2Proof.Machine.execSteal core s
  | .stealWaitExpiry core => Sys2Proof.Machine.execStealWaitExpiry core s
  | .quantumBoundary core => Sys2Proof.Machine.execQuantumBoundary core s
  | .stripeTaskComplete core task => Sys2Proof.Machine.execStripeTaskComplete core task s
  | .digestComplete slot infoOk => Sys2Proof.Machine.execDigestComplete slot infoOk s
  | .detentCheck slot => Sys2Proof.Machine.execDetentCheck slot s
  | .detentComparator head => Sys2Proof.Machine.execDetentComparator head s
  | .captureTask slot p => Sys2Proof.Machine.execCaptureTask slot p s
  | .stepBoundary slot => Sys2Proof.Machine.execStepBoundary slot s
  | .trainingStepComplete slot => Sys2Proof.Machine.execTrainingStepComplete slot s
  | .visionNodeStart slot node => Sys2Proof.Machine.execVisionNodeStart slot node s
  | .visionSliceBoundary engine => Sys2Proof.Machine.execVisionSliceBoundary engine s
  | .flowBandComplete slot node band => Sys2Proof.Machine.execFlowBandComplete slot node band s
  | .graphRunEnd slot => Sys2Proof.Machine.execGraphRunEnd slot s
  | .headPeriodStart head => Sys2Proof.Machine.execHeadPeriodStart head s
  | .sliceBegin head => Sys2Proof.Machine.execSliceBegin head s
  | .sliceWritten head underrun entryOk => Sys2Proof.Machine.execSliceWritten head underrun entryOk s
  | .frameScanEnd head => Sys2Proof.Machine.execFrameScanEnd head s
  | .gpioSyncEdge => Sys2Proof.Machine.execGpioSyncEdge s
  | .dpLinkLoss head => Sys2Proof.Machine.execDpLinkLoss head s
  | .ringConsumerWrite fn head value => Sys2Proof.Machine.execRingConsumerWrite fn head value s
  | .waitLimit t => Sys2Proof.Machine.execWaitLimit t s
  | .haspTimeout t => Sys2Proof.Machine.execHaspTimeout t s
  | .remoteWaitLimit recNo => Sys2Proof.Machine.execRemoteWaitLimit recNo s
  | .teardownComplete slot => Sys2Proof.Machine.execTeardownComplete slot s
  | .nop t f => Sys2Proof.Machine.execNop t f s
  | .endThread t f => Sys2Proof.Machine.execEndThread t f s
  | .br t f => Sys2Proof.Machine.execBr t f s
  | .add t f => Sys2Proof.Machine.execAdd t f s
  | .sub t f => Sys2Proof.Machine.execSub t f s
  | .mul t f => Sys2Proof.Machine.execMul t f s
  | .div t f => Sys2Proof.Machine.execDiv t f s
  | .andS t f => Sys2Proof.Machine.execAndS t f s
  | .orS t f => Sys2Proof.Machine.execOrS t f s
  | .xorS t f => Sys2Proof.Machine.execXorS t f s
  | .shl t f => Sys2Proof.Machine.execShl t f s
  | .shr t f => Sys2Proof.Machine.execShr t f s
  | .sra t f => Sys2Proof.Machine.execSra t f s
  | .minS t f => Sys2Proof.Machine.execMinS t f s
  | .maxS t f => Sys2Proof.Machine.execMaxS t f s
  | .addi t f => Sys2Proof.Machine.execAddi t f s
  | .movi t f => Sys2Proof.Machine.execMovi t f s
  | .movh t f => Sys2Proof.Machine.execMovh t f s
  | .cmp t f => Sys2Proof.Machine.execCmp t f s
  | .cmpi t f => Sys2Proof.Machine.execCmpi t f s
  | .sel t f => Sys2Proof.Machine.execSel t f s
  | .plog t f => Sys2Proof.Machine.execPlog t f s
  | .rdtb t f => Sys2Proof.Machine.execRdtb t f s
  | .pcrd t f => Sys2Proof.Machine.execPcrd t f s
  | .vadd t f => Sys2Proof.Machine.execVadd t f s
  | .vsub t f => Sys2Proof.Machine.execVsub t f s
  | .vmul t f => Sys2Proof.Machine.execVmul t f s
  | .vfma t f => Sys2Proof.Machine.execVfma t f s
  | .vmin t f => Sys2Proof.Machine.execVmin t f s
  | .vmax t f => Sys2Proof.Machine.execVmax t f s
  | .vdiv t f => Sys2Proof.Machine.execVdiv t f s
  | .vsqrt t f => Sys2Proof.Machine.execVsqrt t f s
  | .vfn t f => Sys2Proof.Machine.execVfn t f s
  | .vcvt t f => Sys2Proof.Machine.execVcvt t f s
  | .vcmp t f => Sys2Proof.Machine.execVcmp t f s
  | .vsel t f => Sys2Proof.Machine.execVsel t f s
  | .vlog t f => Sys2Proof.Machine.execVlog t f s
  | .vsh t f => Sys2Proof.Machine.execVsh t f s
  | .vbcast t f => Sys2Proof.Machine.execVbcast t f s
  | .viota t f => Sys2Proof.Machine.execViota t f s
  | .vsum t f => Sys2Proof.Machine.execVsum t f s
  | .vrq t f => Sys2Proof.Machine.execVrq t f s
  | .vbsc t f => Sys2Proof.Machine.execVbsc t f s
  | .vpack t f => Sys2Proof.Machine.execVpack t f s
  | .vunpk t f => Sys2Proof.Machine.execVunpk t f s
  | .ldc t f => Sys2Proof.Machine.execLdc t f s
  | .stc t f => Sys2Proof.Machine.execStc t f s
  | .ldcx t f => Sys2Proof.Machine.execLdcx t f s
  | .ldw t f => Sys2Proof.Machine.execLdw t f s
  | .stw t f => Sys2Proof.Machine.execStw t f s
  | .atom t f => Sys2Proof.Machine.execAtom t f s
  | .vaultReply core req uncorrectable => Sys2Proof.Machine.execVaultReply core req uncorrectable s
  | .mcopy t f => Sys2Proof.Machine.execMcopy t f s
  | .mcopyComplete core copy => Sys2Proof.Machine.execMcopyComplete core copy s
  | .waitc t f => Sys2Proof.Machine.execWaitc t f s
  | .fenceScope t f => Sys2Proof.Machine.execFenceScope t f s
  | .lset t f => Sys2Proof.Machine.execLset t f s
  | .lclr t f => Sys2Proof.Machine.execLclr t f s
  | .lwait t f => Sys2Proof.Machine.execLwait t f s
  | .ltest t f => Sys2Proof.Machine.execLtest t f s
  | .hacq t f => Sys2Proof.Machine.execHacq t f s
  | .hrel t f => Sys2Proof.Machine.execHrel t f s
  | .htry t f => Sys2Proof.Machine.execHtry t f s
  | .pxlock t f => Sys2Proof.Machine.execPxlock t f s
  | .pxunlock t f => Sys2Proof.Machine.execPxunlock t f s
  | .tzero t f => Sys2Proof.Machine.execTzero t f s
  | .tmm t f => Sys2Proof.Machine.execTmm t f s
  | .tmmb t f => Sys2Proof.Machine.execTmmb t f s
  | .trd t f => Sys2Proof.Machine.execTrd t f s
  | .smp t f => Sys2Proof.Machine.execSmp t f s
  | .kwSqDb fn slot value => Sys2Proof.Machine.execKwSqDb fn slot value s
  | .kwCqDb fn slot value => Sys2Proof.Machine.execKwCqDb fn slot value s
  | .kwCqArm fn slot value => Sys2Proof.Machine.execKwCqArm fn slot value s
  | .kwCqLost fn slot => Sys2Proof.Machine.execKwCqLost fn slot s
  | .kwAdmSqDb fn value => Sys2Proof.Machine.execKwAdmSqDb fn value s
  | .kwAdmCqDb fn value => Sys2Proof.Machine.execKwAdmCqDb fn value s
  | .kwAdmArm fn value => Sys2Proof.Machine.execKwAdmArm fn value s
  | .adminEnable fn value => Sys2Proof.Machine.execAdminEnable fn value s
  | .adminDisable fn value => Sys2Proof.Machine.execAdminDisable fn value s
  | .registerWrite fn bar offset width value => Sys2Proof.Machine.execRegisterWrite fn bar offset width value s
  | .bar2Read fn offset length => Sys2Proof.Machine.execBar2Read fn offset length s
  | .bar2Write fn offset data => Sys2Proof.Machine.execBar2Write fn offset data s
  | .commandFetch ring ok => Sys2Proof.Machine.execCommandFetch ring ok s
  | .wardConfig fn seq => Sys2Proof.Machine.execWardConfig fn seq s
  | .wardReset fn seq => Sys2Proof.Machine.execWardReset fn seq s
  | .memoryGrant fn seq => Sys2Proof.Machine.execMemoryGrant fn seq s
  | .ctxCreate fn seq => Sys2Proof.Machine.execCtxCreate fn seq s
  | .ctxDestroy fn seq => Sys2Proof.Machine.execCtxDestroy fn seq s
  | .imageLoad fn seq => Sys2Proof.Machine.execImageLoad fn seq s
  | .imageUnload fn seq => Sys2Proof.Machine.execImageUnload fn seq s
  | .headConfig fn seq => Sys2Proof.Machine.execHeadConfig fn seq s
  | .headQuery fn seq sink edid dpcd => Sys2Proof.Machine.execHeadQuery fn seq sink edid dpcd s
  | .tapConfig fn seq => Sys2Proof.Machine.execTapConfig fn seq s
  | .hingeConfig fn seq => Sys2Proof.Machine.execHingeConfig fn seq s
  | .fwStage fn seq => Sys2Proof.Machine.execFwStage fn seq s
  | .fwActivate fn seq => Sys2Proof.Machine.execFwActivate fn seq s
  | .fwSwitchComplete => Sys2Proof.Machine.execFwSwitchComplete s
  | .kwNop slot seq => Sys2Proof.Machine.execKwNop slot seq s
  | .kwFence slot seq => Sys2Proof.Machine.execKwFence slot seq s
  | .ctxConfigure slot seq => Sys2Proof.Machine.execCtxConfigure slot seq s
  | .imageBind slot seq => Sys2Proof.Machine.execImageBind slot seq s
  | .hierLoad slot seq => Sys2Proof.Machine.execHierLoad slot seq s
  | .hierUnload slot seq => Sys2Proof.Machine.execHierUnload slot seq s
  | .graphLoad slot seq => Sys2Proof.Machine.execGraphLoad slot seq s
  | .graphUnload slot seq => Sys2Proof.Machine.execGraphUnload slot seq s
  | .headBind slot seq => Sys2Proof.Machine.execHeadBind slot seq s
  | .headUnbind slot seq => Sys2Proof.Machine.execHeadUnbind slot seq s
  | .auxRun slot seq => Sys2Proof.Machine.execAuxRun slot seq s
  | .haspGrant slot seq => Sys2Proof.Machine.execHaspGrant slot seq s
  | .haspRelease slot seq => Sys2Proof.Machine.execHaspRelease slot seq s
  | .copy slot seq => Sys2Proof.Machine.execCopy slot seq s
  | .adaptPublish slot seq => Sys2Proof.Machine.execAdaptPublish slot seq s
  | .adapterLoad slot seq => Sys2Proof.Machine.execAdapterLoad slot seq s
  | .adapterExport slot seq => Sys2Proof.Machine.execAdapterExport slot seq s
  | .storeClear slot seq => Sys2Proof.Machine.execStoreClear slot seq s
  | .trainControl slot seq => Sys2Proof.Machine.execTrainControl slot seq s
  | .acctQuery slot seq => Sys2Proof.Machine.execAcctQuery slot seq s
  | .replayFrame slot seq => Sys2Proof.Machine.execReplayFrame slot seq s
  | .flrVf fn => Sys2Proof.Machine.execFlrVf fn s
  | .flrPf => Sys2Proof.Machine.execFlrPf s
  | .keeperHeartbeat => Sys2Proof.Machine.execKeeperHeartbeat s
  | .render port => Sys2Proof.Machine.execRender port s
  | .pose port => Sys2Proof.Machine.execPose port s
  | .slice port => Sys2Proof.Machine.execSlice port s
  | .sliceCredit port => Sys2Proof.Machine.execSliceCredit port s
  | .remoteReq port => Sys2Proof.Machine.execRemoteReq port s
  | .remoteRep port => Sys2Proof.Machine.execRemoteRep port s
  | .inherit port => Sys2Proof.Machine.execInherit port s
  | .holderGone port => Sys2Proof.Machine.execHolderGone port s
  | .hello port => Sys2Proof.Machine.execHello port s
  | .linkDown port => Sys2Proof.Machine.execLinkDown port s
  | .linkUp port => Sys2Proof.Machine.execLinkUp port s
  | .portTrained port up lanes => Sys2Proof.Machine.execPortTrained port up lanes s
  | .laneFail port lanes => Sys2Proof.Machine.execLaneFail port lanes s
  | .retrainComplete port ok => Sys2Proof.Machine.execRetrainComplete port ok s
  | .neighbourLoss port => Sys2Proof.Machine.execNeighbourLoss port s
  | .reroute => Sys2Proof.Machine.execReroute s
  | .bwCfgWrite core value => Sys2Proof.Machine.execBwCfgWrite core value s
  | .bwWindowEnd core => Sys2Proof.Machine.execBwWindowEnd core s
  | .counterFreeze freeze => Sys2Proof.Machine.execCounterFreeze freeze s
  | .counterClear => Sys2Proof.Machine.execCounterClear s
  | .sampleTimerEnable value => Sys2Proof.Machine.execSampleTimerEnable value s
  | .sampleExternalEnable value => Sys2Proof.Machine.execSampleExternalEnable value s
  | .sampleTimer => Sys2Proof.Machine.execSampleTimer s
  | .sampleRecordWrite core thread ok => Sys2Proof.Machine.execSampleRecordWrite core thread ok s
  | .sbufEnable value => Sys2Proof.Machine.execSbufEnable value s
  | .sbufConsumerWrite value => Sys2Proof.Machine.execSbufConsumerWrite value s
  | .sbufLostRead => Sys2Proof.Machine.execSbufLostRead s
  | .perfUserWrite slot set_ => Sys2Proof.Machine.execPerfUserWrite slot set_ s
  | .scrubPass vault corrected latent => Sys2Proof.Machine.execScrubPass vault corrected latent s
  | .rowSpare channel => Sys2Proof.Machine.execRowSpare channel s
  | .channelSpareStart channel => Sys2Proof.Machine.execChannelSpareStart channel s
  | .channelSpareComplete channel => Sys2Proof.Machine.execChannelSpareComplete channel s
  | .channelLost channel => Sys2Proof.Machine.execChannelLost channel s
  | .coreSelfTest core => Sys2Proof.Machine.execCoreSelfTest core s
  | .coreDrainStart core cause => Sys2Proof.Machine.execCoreDrainStart core cause s
  | .coreDrainEnd core timedOut => Sys2Proof.Machine.execCoreDrainEnd core timedOut s
  | .coreRetireImmediate core cause => Sys2Proof.Machine.execCoreRetireImmediate core cause s
  | .keeperWatchdog codeError stateLost => Sys2Proof.Machine.execKeeperWatchdog codeError stateLost s
  | .rngFail => Sys2Proof.Machine.execRngFail s
  | .sensorReset cause => Sys2Proof.Machine.execSensorReset cause s
  | .bypass => Sys2Proof.Machine.execBypass s
  | .idcode => Sys2Proof.Machine.execIdcode s
  | .samplePreload => Sys2Proof.Machine.execSamplePreload s
  | .extest => Sys2Proof.Machine.execExtest s
  | .clamp => Sys2Proof.Machine.execClamp s
  | .highz => Sys2Proof.Machine.execHighz s
  | .unlockChallenge => Sys2Proof.Machine.execUnlockChallenge s
  | .unlockResponse r sig => Sys2Proof.Machine.execUnlockResponse r sig s
  | .unlockHoldoffExpiry => Sys2Proof.Machine.execUnlockHoldoffExpiry s
  | .yakabryDebugAccess op => Sys2Proof.Machine.execYakabryDebugAccess op s
  | .bootImageCheck flashOk => Sys2Proof.Machine.execBootImageCheck flashOk s
  | .vaultTrain failed => Sys2Proof.Machine.execVaultTrain failed s
  | .coreBringup failed => Sys2Proof.Machine.execCoreBringup failed s
  | .opCtrlWrite value => Sys2Proof.Machine.execOpCtrlWrite value s
  | .mgRefresh r => Sys2Proof.Machine.execMgRefresh r s
  | .thermNChange level => Sys2Proof.Machine.execThermNChange level s
  | .d3hotEntry fn => Sys2Proof.Machine.execD3hotEntry fn s
  | .d0Return fn => Sys2Proof.Machine.execD0Return fn s
  | .smbusArp addr => Sys2Proof.Machine.execSmbusArp addr s
  | .setEndpointId eid => Sys2Proof.Machine.execSetEndpointId eid s
  | .pldmDiscovery request => Sys2Proof.Machine.execPldmDiscovery request s
  | .getPdr record => Sys2Proof.Machine.execGetPdr record s
  | .getSensorReading id => Sys2Proof.Machine.execGetSensorReading id s
  | .getStateSensorReadings id => Sys2Proof.Machine.execGetStateSensorReadings id s
  | .flit port bits => Sys2Proof.Machine.execFlit port bits s
  | .dpHotPlug head result => Sys2Proof.Machine.execDpHotPlug head result s
  | .dpLinkTrainingEnd head result => Sys2Proof.Machine.execDpLinkTrainingEnd head result s
  | .activeLineScan head delivered => Sys2Proof.Machine.execActiveLineScan head delivered s
  | .selfTestComplete phys pass => Sys2Proof.Machine.execSelfTestComplete phys pass s
  | .unitParityError unit served => Sys2Proof.Machine.execUnitParityError unit served s
  | .deviceUncorrectable unit => Sys2Proof.Machine.execDeviceUncorrectable unit s
  | .vfEnable count => Sys2Proof.Machine.execVfEnable count s
  | .hostDmaComplete target ok => Sys2Proof.Machine.execHostDmaComplete target ok s
  | .bar0ImproperAccess fn write => Sys2Proof.Machine.execBar0ImproperAccess fn write s
  | .builtInInstruction t op => Sys2Proof.Machine.execBuiltInInstruction t op s
  | .detectJobComplete unit => Sys2Proof.Machine.execDetectJobComplete unit s
  | .powerOnReset => Sys2Proof.Machine.execPowerOnReset s
  | .powerFail => Sys2Proof.Machine.execPowerFail s
  | .coldReset => Sys2Proof.Machine.execColdReset s
  | .perstNRelease => Sys2Proof.Machine.execPerstNRelease s
  | .linkReset => Sys2Proof.Machine.execLinkReset s
  | .pllLock => Sys2Proof.Machine.execPllLock s
  | .configReady => Sys2Proof.Machine.execConfigReady s
  | .opEvaluation => Sys2Proof.Machine.execOpEvaluation s
  | .thermalPeakRead => Sys2Proof.Machine.execThermalPeakRead s
  | .powerPeakRead => Sys2Proof.Machine.execPowerPeakRead s
  | .tapReset => Sys2Proof.Machine.execTapReset s
  | .flashProgramComplete => Sys2Proof.Machine.execFlashProgramComplete s

end Sys2Proof.Machine
end

