-- ==== Sys2Proof/Safety.lean ====
section
/-!
DEFINITION. What counts as a safe run, in the terms the statements use: a step that answers a next state, and the invariant that
every step keeps.
-/
namespace Sys2Proof

/-- A step that answers a next state. -/
def Runs (o : Host.Outcome Machine.State Machine.Fault Machine.Refusal) : Prop := ∃ t, o = .next t

namespace Machine

/-- The invariant of the block: host memory, every ward's memory and every task's core store are in their canonical form, and the
device has its sixteen wards, its sixteen functions and its four hinge ports. -/
structure Sound (s : State) : Prop where
  host : Mem.wf s.hostMem = true
  wards : ∀ w ∈ s.wards, Mem.wf w.mem = true
  stores : ∀ t ∈ s.tasks, Mem.wf t.2.store = true
  sixteenWards : s.wards.length = 16
  sixteenFns : s.fns.length = 16
  fourPorts : s.hinge.ports.length = 4

end Machine
end Sys2Proof
end

