-- ==== Sys2Proof/Certificates/Slice0/Obligations.lean ====
section
/-!
DEFINITION. The statements for the provers. Each says what the block does in the spec's own terms; the helpers under
`Sys2Proof.Say` are the words they share. `Gives` is the completion form: the command answers a next state, and what holds of it.
-/
namespace Sys2Proof.Say
open Sys2Proof.Machine

/-- The command answers a next state, of which P holds. -/
def Gives (c : Instr) (s : State) (P : State → Prop) : Prop := ∃ n, exec c s = .next n ∧ P n

/-! ## Registers of a thread (05 R190) -/

/-- A scalar register of a register list: s0 reads as zero. -/
def scalarIn (l : List U64) (i : Nat) : U64 := if i = 0 then 0 else l.getD i 0
/-- A predicate register of a register list: p0 reads as all ones. -/
def predIn (l : List U64) (i : Nat) : U64 := if i = 0 then BitVec.allOnes 64 else l.getD i 0
def sA (th : Thread) (f : KFields) : U64 := scalarIn th.s f.a.toNat
def sB (th : Thread) (f : KFields) : U64 := scalarIn th.s f.b.toNat
def sC (th : Thread) (f : KFields) : U64 := scalarIn th.s f.c.toNat
def sD (th : Thread) (f : KFields) : U64 := scalarIn th.s f.dst.toNat
def pA (th : Thread) (f : KFields) : U64 := predIn th.p f.a.toNat
def pB (th : Thread) (f : KFields) : U64 := predIn th.p f.b.toNat
def pC (th : Thread) (f : KFields) : U64 := predIn th.p f.c.toNat
/-- Guard bit i: p[PRED] bit i, complemented under PNEG (05 R192). -/
def guardBit (th : Thread) (f : KFields) (i : Nat) : Bool := (predIn th.p f.pred.toNat).getLsbD i != f.pneg
/-- Lane i of `w` bits of a vector register. -/
def laneAt (w : Nat) (x : V1024) (i : Nat) : Nat := (x.extractLsb' (w * i) w).toNat
def lA (th : Thread) (f : KFields) (j : Nat) : Nat := laneAt (laneW f) (th.v.getD f.a.toNat 0) j
def lB (th : Thread) (f : KFields) (j : Nat) : Nat := laneAt (laneW f) (th.v.getD f.b.toNat 0) j
def lC (th : Thread) (f : KFields) (j : Nat) : Nat := laneAt (laneW f) (th.v.getD f.c.toNat 0) j

/-! ## Issue -/

/-- The thread may issue this instruction (05 R184–R187): the thread, its task, and the conditions of issue. -/
structure MayIssue (op : Nat) (t : ThreadRef) (f : KFields) (s : State) (th : Thread) (k : Task) : Prop where
  thread : threadOf s t = some th
  task : tget s.tasks th.task = some k
  ok : okIssue op t f s = true

/-- The frame of an issue: every other core, every other thread of the core, and what else the core holds but its count of issues, how
long its engines are busy and what stands in their queues, and its requests, copies and texture-cache lines as given; every other context, and all of this one but its account. -/
structure CoreFrame (t : ThreadRef) (k : Task) (s n : State) (reqs : Table VReq) (copies : Table Copy) (tex : List (Nat × Bytes)) : Prop where
  otherCores : ∀ c, c ≠ t.core → coreOf n c = coreOf s c
  otherThreads : ∀ j, j ≠ t.slot → threadOf n { core := t.core, slot := j } = threadOf s { core := t.core, slot := j }
  core : coreOf n t.core = { coreOf s t.core with
    threads := (coreOf n t.core).threads, issues := (coreOf s t.core).issues + 1
    busy := (coreOf n t.core).busy, teQ := (coreOf n t.core).teQ, seQ := (coreOf n t.core).seQ
    vreqs := reqs, copies := copies, tex := tex }
  otherCtxs : ∀ i, i ≠ k.slot → ctxOf n i = ctxOf s i
  ctx : (ctxOf n k.slot).map (fun x => { x with acct := {} }) = (ctxOf s k.slot).map (fun x => { x with acct := {} })

/-- What an instruction that writes only its thread leaves unchanged: everything but the cores, the context's account and the
counters, and of these what `CoreFrame` says. -/
def IssueFrame (t : ThreadRef) (k : Task) (s n : State) : Prop :=
  n = { s with cores := n.cores, ctxs := n.ctxs, perf := n.perf } ∧
  CoreFrame t k s n (coreOf s t.core).vreqs (coreOf s t.core).copies (coreOf s t.core).tex

/-- A thread after an issue that changes nothing else of it: its pc is past the word, and it is its core's latest to have issued. -/
def stepped (s : State) (t : ThreadRef) (th : Thread) : Thread :=
  { th with pc := th.pc + 8, lastIssue := (coreOf s t.core).issues + 1 }

/-- An instruction that writes one scalar register, when guard bit 0 is 1. -/
def ScalarTo (op : Nat) (c : ThreadRef → KFields → Instr) (val : State → KFields → Thread → U64) : Prop :=
  ∀ t f s th k, MayIssue op t f s th k → guardBit th f 0 = true →
    Gives (c t f) s (fun n => IssueFrame t k s n ∧ ∃ r, threadOf n t = some { stepped s t th with s := r } ∧
      ∀ i, scalarIn r i = if i ≠ 0 ∧ i = f.dst.toNat then val s f th else scalarIn th.s i)
/-- An instruction that writes one predicate register, when guard bit 0 is 1. -/
def PredTo (op : Nat) (c : ThreadRef → KFields → Instr) (val : KFields → Thread → U64) : Prop :=
  ∀ t f s th k, MayIssue op t f s th k → guardBit th f 0 = true →
    Gives (c t f) s (fun n => IssueFrame t k s n ∧ ∃ r, threadOf n t = some { stepped s t th with p := r } ∧
      ∀ i, predIn r i = if i ≠ 0 ∧ i = f.dst.toNat then val f th else predIn th.p i)
/-- A vector instruction that writes the lanes of v[d] whose guard bit is 1. -/
def LanesTo (op : Nat) (c : ThreadRef → KFields → Instr) (val : KFields → Thread → Nat → Nat) : Prop :=
  ∀ t f s th k, MayIssue op t f s th k →
    Gives (c t f) s (fun n => IssueFrame t k s n ∧ ∃ r, threadOf n t = some { stepped s t th with v := r } ∧
      (∀ i, i ≠ f.dst.toNat → r.getD i 0 = th.v.getD i 0) ∧
      ∀ j, j < 1024 / laneW f → laneAt (laneW f) (r.getD f.dst.toNat 0) j =
        if guardBit th f j then val f th j % 2 ^ laneW f else laneAt (laneW f) (th.v.getD f.dst.toNat 0) j)

/-! ## Values -/

/-- The low 32 bits. -/
def lo (x : U64) : U32 := x.setWidth 32
/-- 32 bits sign-extended to 64. -/
def sx (x : U32) : U64 := x.signExtend 64
/-- The MOD 1 form of a 32-bit operation, or the 64-bit one (05 Table 5-4). -/
def byMod (f : KFields) (narrow : U32) (wide : U64) : U64 := if f.mod = 1 then sx narrow else wide
/-- A condition as all ones or zero. -/
def allOnesIf (b : Bool) : U64 := if b then BitVec.allOnes 64 else 0
/-- The conditions of CMP: 0 EQ, 1 NE (on the low 32 bits, as MOD 1 is), 2 LT, 3 LE, 4 LTU, 5 LEU. -/
def cond (f : KFields) (x y : U64) : Bool :=
  if f.mod = 0 then x == y else if f.mod = 1 then lo x != lo y else if f.mod = 2 then x.slt y
  else if f.mod = 3 then x.sle y else if f.mod = 4 then x.ult y else x.ule y
/-- The shift count of a scalar shift. -/
def count64 (y : U64) : Nat := y.toNat % 64
/-- The sign-extended IMM24. -/
def immX (f : KFields) : U64 := f.imm.signExtend 64
/-- IMM36 of MOVI. -/
def wideImm (f : KFields) : BitVec 36 := f.b ++ f.c ++ f.imm
/-- A signed 32-bit lane clamped to its range. -/
def satS (x : Int) : Nat := (BitVec.ofInt 32 (max (-2147483648) (min 2147483647 x))).toNat
/-- The integer of a 32-bit lane. -/
def intOf (x : Nat) : Int := (BitVec.ofNat 32 x).toInt
/-- A lane operation by MOD: 0 FP32, 1 FP16, 2 INT32 wrapping, 3 INT32 saturating. -/
def byLane (f : KFields) (fp : Fmt → Nat → Nat → Nat) (int : Int → Int → Int) (x y : Nat) : Nat :=
  if f.mod = 0 then fp fFP32 x y else if f.mod = 1 then fp fFP16 x y
  else if f.mod = 3 then satS (int (intOf x) (intOf y)) else (BitVec.ofInt 32 (int (intOf x) (intOf y))).toNat

/-- An instruction that writes one scalar register whatever guard bit 0 is: a reduction over the enabled lanes. -/
def ReductionTo (op : Nat) (c : ThreadRef → KFields → Instr) (val : KFields → List Nat → U64) : Prop :=
  ∀ t f s th k, MayIssue op t f s th k →
    Gives (c t f) s (fun n => IssueFrame t k s n ∧ ∃ r, threadOf n t = some { stepped s t th with s := r } ∧
      ∀ i, scalarIn r i = if i ≠ 0 ∧ i = f.dst.toNat
        then val f (((List.range 32).filter (guardBit th f)).map (laneAt 32 (th.v.getD f.a.toNat 0))) else scalarIn th.s i)

/-! ## Memory accesses -/

/-- s[a] + IMM24. -/
def address (th : Thread) (f : KFields) : Nat := (sA th f + immX f).toNat
/-- The register value of a scalar load: MOD 1–4 zero-extended, 5–7 sign-extended. -/
def loaded (m : Nat) (b : Bytes) : U64 :=
  if m ≤ 4 then BitVec.ofNat 64 (leNat b) else (BitVec.ofNat (8 * ldSize m) (leNat b)).signExtend 64
/-- The access of a load or store of core store lies in the task's range and is aligned (05 R188, Table 5-4). -/
def storeOk (k : Task) (a m : Nat) : Prop := a + ldSize m ≤ k.size ∧ a % ldAlign m = 0
/-- The byte that a store of v[b] (MOD 0) or s[b] writes at address x, if any: the enabled lanes of a vector, or the low bytes of
the register. -/
def storedByte (th : Thread) (f : KFields) (a x : Nat) : Option Byte :=
  if x < a ∨ a + ldSize f.mod.toNat ≤ x then none
  else if f.mod = 0 then
    (if guardBit th f ((x - a) / 4) then some ((th.v.getD f.b.toNat 0).extractLsb' (8 * (x - a)) 8) else none)
  else some ((sB th f).extractLsb' (8 * (x - a)) 8)
/-- A load or store of ward memory is mapped for the context, and aligned. -/
def wardOk (s : State) (k : Task) (a m : Nat) (write : Bool) : Prop :=
  ctxMapped (wardOf s (taskWard s k)) k.slot a (ldSize m) write = true ∧ a % ldAlign m = 0
/-- The request that a load or atomic adds to its core. -/
def newRequest (t : ThreadRef) (k : Task) (d : Dest) (value addr : Nat) : VReq :=
  { thread := t.slot, dest := d, value := value, addr := addr, slot := k.slot, gen := k.gen }
/-- The requests of a core with one more. -/
def withRequest (s : State) (t : ThreadRef) (q : VReq) : Table VReq :=
  tput (coreOf s t.core).vreqs (freeKeyFrom (coreOf s t.core).vreqs 0) q
/-- The destinations that a thread waits for, with one more. -/
def alsoPending (th : Thread) (d : Dest) : List Dest := if d = .none then th.pendingDest else th.pendingDest ++ [d]
/-- The value that an ATOM stores, of old x, operand y and comparand z. -/
def atomValue (m : Nat) (x y z : U32) : U32 :=
  if m = 0 then x + y else if m = 1 then (if x.sle y then x else y) else if m = 2 then (if x.sle y then y else x)
  else if m = 3 then x ||| y else if m = 4 then x &&& y else if m = 5 then BitVec.ofNat 32 (add32 x.toNat y.toNat)
  else if m = 6 then y else if x = z then y else x
/-- The copies of a core with one more. -/
def withCopy (s : State) (t : ThreadRef) (c : Copy) : Table Copy :=
  tput (coreOf s t.core).copies (freeKeyFrom (coreOf s t.core).copies 0) c
/-- A thread that parks at its issue. -/
def parked (s : State) (t : ThreadRef) (th : Thread) (p : Park) (h : Option Held) : Thread :=
  { stepped s t th with park := p, parkedAt := s.now, held := h }
/-- The index that a latch instruction names: s[a] + IMM24[15:0]; IMM24[16] selects the staging space. -/
def latchIndex (th : Thread) (f : KFields) : Nat := (sA th f + BitVec.ofNat 64 (f.imm.toNat % 65536)).toNat
/-- The index that a hasp instruction names: s[a] + IMM24[11:0]. -/
def haspNum (th : Thread) (f : KFields) : Nat := (sA th f + BitVec.ofNat 64 (f.imm.toNat % 4096)).toNat
/-- A context may acquire: the count is above zero, and it holds the hasp or fewer than eight contexts do (05 R203). -/
def mayAcquire (h : Hasp) (slot : Nat) : Prop :=
  h.count ≠ 0 ∧ (0 < tgetD h.held slot 0 ∨ h.held.length + h.peers.length < 8)
/-- The teardown of a context has begun with this code and reason, as a fault (10 R376, Table 10-5). -/
def TornDown (n : State) (slot code reason : Nat) : Prop :=
  (slotOf n slot).state = .teardown ∧
    ((ctxOf n slot).bind (·.fault)).map (fun r => (r.code, r.reason, r.isFault)) = some (code, reason, true)

/-! ## Rings, commands and their records (11 R391–R395, R402) -/

/-- The other rings stand, and so does all but the ring of every function and context. -/
structure RingsOnly (s n : State) (r : RingRef) : Prop where
  rest : n = { s with fns := n.fns, ctxs := n.ctxs }
  others : ∀ q, q ≠ r → ringOf n q = ringOf s q
  fns : ∀ f, ({ fnOf n f with ring := {} } : Fn) = { fnOf s f with ring := {} }
  ctxs : ∀ i, (ctxOf n i).map (fun x => { x with ring := {} }) = (ctxOf s i).map (fun x => { x with ring := {} })
/-- A doorbell register of a ring: 0 the submission tail, 1 the completion head, 2 the arm. -/
def doorbellOf (fn : Nat) (r : RingRef) (reg v : Nat) : Instr :=
  match r with
  | .admin _ => if reg = 0 then .kwAdmSqDb fn v else if reg = 1 then .kwAdmCqDb fn v else .kwAdmArm fn v
  | .ctx slot => if reg = 0 then .kwSqDb fn slot v else if reg = 1 then .kwCqDb fn slot v else .kwCqArm fn slot v
/-- A doorbell write of a function takes effect at a ring: BARs open, the device ready and no firmware switch; its own enabled admin
ring, or a LIVE slot of its ward whose generation the value carries (11 R390, R392, R396). -/
structure RingsBell (s : State) (fn : Nat) (r : RingRef) (v : Nat) : Prop where
  bars : barsOpen s fn = true
  ready : s.fw.ready = true
  steady : s.fw.switching = false
  fns : fn < s.fns.length
  named : match r with
    | .admin f => f = fn ∧ (fnOf s fn).enabled = true
    | .ctx slot => (slotOf s slot).state = .live ∧ (slotOf s slot).gen = v / 65536 % 65536 ∧ (ctxOf s slot).map (·.ward) = some fn
/-- The command with its SEQ is in flight no more, and its record stands at the ring's next place: COMPLETION with the code, the
reason, the opcode, the SEQ and the TAG (11 Table 11-10), unless the entry is QUIET and the code KW_OK. -/
structure Answered (s n : State) (r : RingRef) (c : Cmd) (code reason : Nat) : Prop where
  gone : cmdOf n r c.seq = none
  record : ∀ g, ringOf s r = some g → g.lostOwed = 0 → Mem.wf s.hostMem = true → ¬ (entQuiet c.entry = true ∧ code = 0) →
    let b := hostRead n (g.cqBase + 32 * (g.posted % 2 ^ g.cqLog2)) 32
    fld b 0 4 = c.seq % 2 ^ 32 ∧ fld b 8 1 = 1 ∧ fld b 9 1 = code % 256 ∧ fld b 10 1 = reason % 256 ∧ fld b 11 1 = entOpcode c.entry ∧
      fld b 12 4 = entTag c.entry
/-- The same with RESULT in bytes 16–31. -/
def Result (s n : State) (r : RingRef) (c : Cmd) (result : Bytes) : Prop :=
  Answered s n r c 0 0 ∧ ∀ g, ringOf s r = some g → g.lostOwed = 0 → Mem.wf s.hostMem = true → entQuiet c.entry = false →
    slice (hostRead n (g.cqBase + 32 * (g.posted % 2 ^ g.cqLog2)) 32) 16 16 = fit 16 result
/-- A bit of a function's KW_ERR_STATUS is set. -/
def errSet (n : State) (fn bit : Nat) : Prop := (fnOf n fn).errStatus.getLsbD bit = true
/-- A task is gone, with the kernels of its CUSTOM layers, and every other task stands but for the level that it inherits. -/
def TaskGone (s n : State) (id : Nat) : Prop :=
  (∀ q ∈ n.tasks, q.1 ≠ id) ∧
  ∀ i q, i ≠ id → tget s.tasks i = some q → (∀ p ∈ s.tasks, p.1 = i → p.2.kind ≠ .custom id) →
    ∃ p, tget n.tasks i = some p ∧ p = { q with inheritKey := p.inheritKey }
/-- Hasps stand, but for the peers that have been told of a waiter. -/
def HaspsStand (s n : State) : Prop :=
  ∀ id, (tget n.hasps id).map (fun h => { h with inheritSent := [] }) = (tget s.hasps id).map (fun h => { h with inheritSent := [] })
/-- The device has its 16 functions and 16 wards, as every state that steps from reset does (`Obligations.InvariantKept`). -/
def Sized (s : State) : Prop := s.fns.length = 16 ∧ s.wards.length = 16

end Sys2Proof.Say

open Sys2Proof Sys2Proof.Machine Sys2Proof.Say

/-! ## The machine -/

/-- A step takes the command at the front of the queue and runs it on the state with the queue's rest. -/
def Obligations.StepRunsTheFrontCommand : Prop :=
  ∀ (c : Instr) (rest : List Instr) (s : State),
    step { s with pending := c :: rest } = exec c { s with pending := rest }

/-! ## Kernel instructions: scalars (05 R190, R192, Table 5-4) -/

/-- The scalar instructions write s[d] alone, with the value of 05 Table 5-4, when guard bit 0 is 1; a write to s0 is
discarded, and the pc moves past the word. -/
def Sys2Proof.Say.scalarResults : Prop :=
  ScalarTo 0x10 .add (fun _ f th => byMod f (lo (sA th f) + lo (sB th f)) (sA th f + sB th f)) ∧
  ScalarTo 0x11 .sub (fun _ f th => byMod f (lo (sA th f) - lo (sB th f)) (sA th f - sB th f)) ∧
  ScalarTo 0x12 .mul (fun _ f th => sA th f * sB th f) ∧
  ScalarTo 0x14 .andS (fun _ f th => sA th f &&& sB th f) ∧
  ScalarTo 0x15 .orS (fun _ f th => sA th f ||| sB th f) ∧
  ScalarTo 0x16 .xorS (fun _ f th => sA th f ^^^ sB th f) ∧
  ScalarTo 0x17 .shl (fun _ f th => byMod f (lo (sA th f) <<< count64 (sB th f)) (sA th f <<< count64 (sB th f))) ∧
  ScalarTo 0x18 .shr (fun _ f th => byMod f (lo (sA th f) >>> count64 (sB th f)) (sA th f >>> count64 (sB th f))) ∧
  ScalarTo 0x19 .sra (fun _ f th => byMod f ((lo (sA th f)).sshiftRight (count64 (sB th f))) ((sA th f).sshiftRight (count64 (sB th f)))) ∧
  ScalarTo 0x1A .minS (fun _ f th => if (if f.mod = 1 then (sA th f).sle (sB th f) else (sA th f).ule (sB th f)) then sA th f else sB th f) ∧
  ScalarTo 0x1B .maxS (fun _ f th => if (if f.mod = 1 then (sA th f).sle (sB th f) else (sA th f).ule (sB th f)) then sB th f else sA th f) ∧
  ScalarTo 0x1C .addi (fun _ f th => sA th f + immX f) ∧
  ScalarTo 0x1D .movi (fun _ f _ => (wideImm f).signExtend 64) ∧
  ScalarTo 0x1E .movh (fun _ f th => (wideImm f).setWidth 32 ++ lo (sD th f)) ∧
  ScalarTo 0x21 .sel (fun _ f th => if (pC th f).getLsbD 0 then sA th f else sB th f) ∧
  ScalarTo 0x23 .rdtb (fun s _ _ => BitVec.ofNat 64 (s.now / 60))

/-- DIV: MOD[0] signed, MOD[1] remainder, MOD 1 on the low 32 bits; division by zero gives a quotient of all ones and a remainder
of s[a], and the signed minimum by −1 a quotient of s[a] and a remainder of 0. -/
def Sys2Proof.Say.division : Prop :=
  ScalarTo 0x13 .div (fun _ f th =>
    let a := sA th f; let b := sB th f
    if f.mod = 0 then (if b = 0 then BitVec.allOnes 64 else a / b)
    else if f.mod = 1 then sx (if lo b = 0 then BitVec.allOnes 32 else (lo a).sdiv (lo b))
    else if f.mod = 2 then (if b = 0 then a else a % b)
    else (if b = 0 then a else a.srem b))

/-- CMP, CMPI and PLOG write p[d] alone; a write to p0 is discarded. -/
def Obligations.PredicateResults : Prop :=
  PredTo 0x1F .cmp (fun f th => allOnesIf (cond f (sA th f) (sB th f))) ∧
  PredTo 0x20 .cmpi (fun f th => allOnesIf (cond f (sA th f) (immX f))) ∧
  PredTo 0x22 .plog (fun f th =>
    if f.mod = 0 then pA th f &&& pB th f else if f.mod = 1 then pA th f ||| pB th f
    else if f.mod = 2 then pA th f ^^^ pB th f else pA th f &&& ~~~ pB th f)

/-- NOP moves the pc past its word and changes nothing else of the thread. BR branches to PC + 8 × IMM24 when guard bit 0 is 1
(MOD 0), when any of guard bits [31:0] is (MOD 1), or when all of them are (MOD 2); otherwise it goes on. -/
def Obligations.NopAndBranch : Prop :=
  (∀ t f s th k, MayIssue 0x00 t f s th k →
    Gives (.nop t f) s (fun n => IssueFrame t k s n ∧ threadOf n t = some (stepped s t th))) ∧
  (∀ t f s th k, MayIssue 0x02 t f s th k →
    Gives (.br t f) s (fun n => IssueFrame t k s n ∧ threadOf n t =
      some (if (if f.mod = 0 then guardBit th f 0 else if f.mod = 1 then (List.range 32).any (guardBit th f)
                else (List.range 32).all (guardBit th f))
            then { stepped s t th with pc := (th.pc + 8 * f.imm.toInt).toNat } else stepped s t th)))

/-! ## Vectors (05 R190, R192, Table 5-4; 03 R125, R136, R137) -/

/-- The lane-wise instructions write the lanes of v[d] whose guard bit is 1, with the value of 05 Table 5-4, and leave the
others, and every other register, unchanged. -/
def Obligations.VectorLanes : Prop :=
  LanesTo 0x40 .vadd (fun f th j => byLane f fadd (· + ·) (lA th f j) (lB th f j)) ∧
  LanesTo 0x41 .vsub (fun f th j => byLane f fsub (· - ·) (lA th f j) (lB th f j)) ∧
  LanesTo 0x42 .vmul (fun f th j => byLane f fmul (· * ·) (lA th f j) (lB th f j)) ∧
  LanesTo 0x43 .vfma (fun f th j => ffma (if f.mod = 1 then fFP16 else fFP32) (lA th f j) (lB th f j) (lC th f j)) ∧
  LanesTo 0x44 .vmin (fun f th j => byLane f fmin min (lA th f j) (lB th f j)) ∧
  LanesTo 0x45 .vmax (fun f th j => byLane f fmax max (lA th f j) (lB th f j)) ∧
  LanesTo 0x46 .vdiv (fun f th j => fdiv (if f.mod = 1 then fFP16 else fFP32) (lA th f j) (lB th f j)) ∧
  LanesTo 0x47 .vsqrt (fun f th j => fsqrt (if f.mod = 1 then fFP16 else fFP32) (lA th f j)) ∧
  LanesTo 0x48 .vfn (fun f th j => vfnOf (f.imm.toNat % 4) (if f.mod = 1 then fFP16 else fFP32) (lA th f j)) ∧
  LanesTo 0x49 .vcvt (fun f th j => cvtLane (f.imm.toNat % 256) (f.imm.toNat / 256 % 256) (f.imm.getLsbD 16) (lA th f j)) ∧
  LanesTo 0x4B .vsel (fun f th j => if (pC th f).getLsbD j then lA th f j else lB th f j) ∧
  LanesTo 0x4C .vlog (fun f th j =>
    if f.imm.toNat % 4 = 0 then lA th f j &&& lB th f j else if f.imm.toNat % 4 = 1 then lA th f j ||| lB th f j
    else lA th f j ^^^ lB th f j) ∧
  LanesTo 0x4D .vsh (fun f th j =>
    let x := BitVec.ofNat (laneW f) (lA th f j); let n := lB th f j % 32
    if f.imm.toNat % 4 = 0 then (x <<< n).toNat else if f.imm.toNat % 4 = 1 then (x >>> n).toNat else (x.sshiftRight n).toNat) ∧
  LanesTo 0x4E .vbcast (fun f th _ => (sA th f).toNat) ∧
  LanesTo 0x4F .viota (fun _ _ j => j) ∧
  LanesTo 0x51 .vrq (fun f th j =>
    (BitVec.ofInt 32 (requantQ (intOf (lA th f j)) (intOf (lB th f j)) (lC th f j % 64))).toNat)

/-- VCMP writes the bits of p[d] whose guard bit is 1 by its condition, keeps the other lanes' bits and clears those beyond the
lane count. -/
def Sys2Proof.Say.vectorCompare : Prop :=
  ∀ t f s th k, MayIssue 0x4A t f s th k →
    Gives (.vcmp t f) s (fun n => IssueFrame t k s n ∧ ∃ r, threadOf n t = some { stepped s t th with p := r } ∧
      (∀ i, i = 0 ∨ i ≠ f.dst.toNat → predIn r i = predIn th.p i) ∧
      ∀ j, f.dst ≠ 0 → j < 64 →
        let w := if f.mod.toNat / 4 = 1 then 16 else 32
        (predIn r f.dst.toNat).getLsbD j =
          if 1024 / w ≤ j then false
          else if guardBit th f j then
            vcmpCond (f.mod.toNat / 4) (f.mod.toNat % 4) (laneAt w (th.v.getD f.a.toNat 0) j) (laneAt w (th.v.getD f.b.toNat 0) j)
          else (predIn th.p f.dst.toNat).getLsbD j)

/-- VSUM and VBSC write s[d] from the enabled lanes of v[a] in lane order: the chunked FP32 sum zero-extended, the INT32 sum
sign-extended, or the block scale code; disabled lanes take no part. -/
def Sys2Proof.Say.vectorReductions : Prop :=
  ReductionTo 0x50 .vsum (fun f xs => if f.mod = 0 then BitVec.ofNat 64 (orderedSum xs) else sx (BitVec.ofNat 32 xs.sum)) ∧
  ReductionTo 0x52 .vbsc (fun f xs => BitVec.ofNat 64 (blockCode (f.imm.toNat % 4) xs))

/-- Vector comparisons and reductions: what they write, from the enabled lanes alone, and that they write nothing else. -/
def Obligations.VectorComparesAndReductions : Prop := vectorCompare ∧ vectorReductions

/-- VPACK packs elements of 8, 16 or 4 bits into v[d], VUNPK unpacks them into v[d] on; lanes that the guard disables keep their
values, and no other register changes. -/
def Obligations.PackAndUnpack : Prop :=
  (∀ t f s th k, MayIssue 0x53 t f s th k →
    Gives (.vpack t f) s (fun n => IssueFrame t k s n ∧ ∃ r, threadOf n t = some { stepped s t th with v := r } ∧
      (∀ i, i ≠ f.dst.toNat → r.getD i 0 = th.v.getD i 0) ∧
      (∀ j, j < 32 → guardBit th f j = false → laneAt 32 (r.getD f.dst.toNat 0) j = laneAt 32 (th.v.getD f.dst.toNat 0) j) ∧
      ∀ e, let w := if f.mod = 0 then 8 else if f.mod = 1 then 16 else 4
        e < 1024 / w → guardBit th f (e * w / 32) = true →
          laneAt w (r.getD f.dst.toNat 0) e = laneAt 32 (th.v.getD (f.a.toNat + e / 32) 0) (e % 32) % 2 ^ w)) ∧
  (∀ t f s th k, MayIssue 0x54 t f s th k →
    Gives (.vunpk t f) s (fun n => IssueFrame t k s n ∧ ∃ r, threadOf n t = some { stepped s t th with v := r } ∧
      let w := if f.mod.toNat % 4 = 0 then 8 else if f.mod.toNat % 4 = 1 then 16 else 4
      (∀ i, i < f.dst.toNat ∨ f.dst.toNat + 32 / w ≤ i → r.getD i 0 = th.v.getD i 0) ∧
      ∀ j i, j < 32 / w → i < 32 →
        laneAt 32 (r.getD (f.dst.toNat + j) 0) i =
          if guardBit th f i then
            (let x := BitVec.ofNat w (laneAt w (th.v.getD f.a.toNat 0) (32 * j + i))
             if 4 ≤ f.mod.toNat then (x.signExtend 32).toNat else x.toNat)
          else laneAt 32 (th.v.getD (f.dst.toNat + j) 0) i))

/-! ## The guard (05 R192) -/

/-- The instructions that take effect only when guard bit 0 is 1. -/
def Sys2Proof.Say.scalarGuarded : List (Nat × (ThreadRef → KFields → Instr)) :=
  [(0x10, .add), (0x11, .sub), (0x12, .mul), (0x13, .div), (0x14, .andS), (0x15, .orS), (0x16, .xorS), (0x17, .shl), (0x18, .shr),
   (0x19, .sra), (0x1A, .minS), (0x1B, .maxS), (0x1C, .addi), (0x1D, .movi), (0x1E, .movh), (0x1F, .cmp), (0x20, .cmpi), (0x21, .sel),
   (0x22, .plog), (0x23, .rdtb), (0x24, .pcrd), (0x80, .ldc), (0x81, .stc), (0x82, .ldcx), (0x83, .ldw), (0x84, .stw), (0x85, .atom), (0x86, .mcopy),
   (0x87, .waitc), (0x88, .fenceScope), (0xA0, .lset), (0xA1, .lclr), (0xA2, .lwait), (0xA3, .ltest), (0xA4, .hacq), (0xA5, .hrel),
   (0xA6, .htry), (0xA7, .pxlock), (0xA8, .pxunlock), (0xC0, .tzero), (0xC1, .tmm), (0xC2, .tmmb), (0xC3, .trd)]

/-- A scalar, memory, synchronisation or tensor instruction whose guard bit 0 is 0 still issues, and has no effect. -/
def Obligations.GuardOffHasNoEffect : Prop :=
  ∀ q ∈ scalarGuarded, ∀ t f s th k, MayIssue q.1 t f s th k → guardBit th f 0 = false →
    Gives (q.2 t f) s (fun n => IssueFrame t k s n ∧ threadOf n t = some (stepped s t th))

/-! ## Core store (05 R188, Table 5-4) -/

/-- LDC loads a register from core store; LDCX gathers 4 bytes for each enabled lane. -/
def Sys2Proof.Say.coreStoreLoads : Prop :=
  (∀ t f s th k, MayIssue 0x80 t f s th k → guardBit th f 0 = true → storeOk (withStore s k) (address th f) f.mod.toNat →
    let b := storeRead (withStore s k) (address th f) (ldSize f.mod.toNat)
    Gives (.ldc t f) s (fun n => IssueFrame t k s n ∧
      if f.mod = 0 then ∃ r, threadOf n t = some { stepped s t th with v := r } ∧
        (∀ i, r.getD i 0 = if i = f.dst.toNat then BitVec.ofNat 1024 (leNat b) else th.v.getD i 0)
      else ∃ r, threadOf n t = some { stepped s t th with s := r } ∧
        (∀ i, scalarIn r i = if i ≠ 0 ∧ i = f.dst.toNat then loaded f.mod.toNat b else scalarIn th.s i))) ∧
  (∀ t f s th k, MayIssue 0x82 t f s th k → guardBit th f 0 = true →
    let addr := fun i => (sA th f + BitVec.ofNat 64 (laneAt 32 (th.v.getD f.b.toNat 0) i)).toNat
    (∀ i, i < 32 → guardBit th f i = true → addr i + 4 ≤ (withStore s k).size ∧ addr i % 4 = 0) →
    Gives (.ldcx t f) s (fun n => IssueFrame t k s n ∧ ∃ r, threadOf n t = some { stepped s t th with v := r } ∧
      (∀ i, i ≠ f.dst.toNat → r.getD i 0 = th.v.getD i 0) ∧
      ∀ i, i < 32 → laneAt 32 (r.getD f.dst.toNat 0) i =
        if guardBit th f i then leNat (storeRead (withStore s k) (addr i) 4) else laneAt 32 (th.v.getD f.dst.toNat 0) i))

/-- STC writes its bytes to the core store that the task uses and to nothing else: no other byte of it, no other task, no register. A
BLEND task in bin mode has the working planes of its bin task after its own bytes. -/
def Sys2Proof.Say.coreStoreStores : Prop :=
  ∀ t f s th k, MayIssue 0x81 t f s th k → guardBit th f 0 = true → storeOk (withStore s k) (address th f) f.mod.toNat →
    let stores := fun (id base : Nat) (o : Task) =>
      Mem.wf o.store = true → Gives (.stc t f) s (fun n =>
        n = { s with cores := n.cores, ctxs := n.ctxs, perf := n.perf, tasks := n.tasks } ∧
        CoreFrame t k s n (coreOf s t.core).vreqs (coreOf s t.core).copies (coreOf s t.core).tex ∧
        threadOf n t = some (stepped s t th) ∧
        (∀ i, i ≠ id → tget n.tasks i = tget s.tasks i) ∧
        ∃ m, tget n.tasks id = some { o with store := m } ∧
          ∀ x, Mem.read m x = (storedByte th f (address th f) (base + x)).getD (Mem.read o.store x))
    ((∀ b p, k.kind = .blend b (some p) → address th f + ldSize f.mod.toNat ≤ k.size) → stores th.task 0 k) ∧
    (∀ b p o, k.kind = .blend b (some p) → k.size ≤ address th f → p ≠ th.task → tget s.tasks p = some o → stores p k.size o)

/-- Loads and stores of core store: the register or the bytes written, and everything else unchanged. -/
def Obligations.CoreStore : Prop := coreStoreLoads ∧ coreStoreStores

/-! ## Ward memory (05 R196; 11 R388) -/

/-- LDW opens a vault request with the bytes it reads at issue; its destination waits, and no memory changes. -/
def Sys2Proof.Say.wardLoads : Prop :=
  ∀ t f s th k, MayIssue 0x83 t f s th k → guardBit th f 0 = true → wardOk s k (address th f) f.mod.toNat false →
    let d : Dest := if f.mod = 0 then .v f.dst.toNat else if f.dst = 0 then .none else .s f.dst.toNat
    let b := wardRead (wardOf s (taskWard s k)) (address th f) (ldSize f.mod.toNat)
    Gives (.ldw t f) s (fun n =>
      n = { s with cores := n.cores, ctxs := n.ctxs, perf := n.perf, free := n.free } ∧
      CoreFrame t k s n
        (withRequest s t (newRequest t k d (if f.mod = 0 then leNat b else (loaded f.mod.toNat b).toNat) (address th f)))
        (coreOf s t.core).copies (coreOf s t.core).tex ∧
      threadOf n t = some { stepped s t th with pendingDest := alsoPending th d })

/-- No store or atomic that this fabric cycle has seen on the ward comes after the thread's in the cycle's order: a higher logical core,
or its higher thread slot (05 R199). -/
def Sys2Proof.Say.LastInCycle (s : State) (t : ThreadRef) (wd : Nat) : Prop :=
  ∀ p ∈ s.cycleOps, p.at_ / 8 = s.now / 8 → p.ward = wd → p.core < t.core ∨ p.core = t.core ∧ p.slot ≤ t.slot

/-- STW writes its bytes to the ward's memory and to nothing else: every other byte reads as before, and no other ward, register or
host memory changes. Of two stores of one fabric cycle to one byte, the higher core's, or its higher slot's, stands (05 R199). -/
def Sys2Proof.Say.wardStores : Prop :=
  ∀ t f s th k, MayIssue 0x84 t f s th k → LastInCycle s t (taskWard s k) → guardBit th f 0 = true → wardOk s k (address th f) f.mod.toNat true →
    Mem.wf (wardOf s (taskWard s k)).mem = true →
    Gives (.stw t f) s (fun n =>
      n = { s with cores := n.cores, ctxs := n.ctxs, perf := n.perf, free := n.free, wards := n.wards, cycleOps := n.cycleOps } ∧
      CoreFrame t k s n (coreOf s t.core).vreqs (coreOf s t.core).copies (coreOf s t.core).tex ∧
      threadOf n t = some (stepped s t th) ∧
      (∀ w, w ≠ taskWard s k → wardOf n w = wardOf s w) ∧
      (let w := wardOf s (taskWard s k); let w' := wardOf n (taskWard s k)
       w' = { w with mem := w'.mem, poisoned := w'.poisoned } ∧
       ∀ x, wardByte w' x = (storedByte th f (address th f) x).getD (wardByte w x)))
/-- The order of one fabric cycle: a store to the bytes of a store of a higher core, or of its higher slot, that the cycle has seen
already changes no byte of them. -/
def Sys2Proof.Say.laterStoresStand : Prop :=
  ∀ t f s th k p, MayIssue 0x84 t f s th k → guardBit th f 0 = true → wardOk s k (address th f) f.mod.toNat true →
    Mem.wf (wardOf s (taskWard s k)).mem = true → f.mod ≠ 0 → s.cycleOps = [p] → p.at_ / 8 = s.now / 8 → p.ward = taskWard s k →
    p.atom = none → p.writes = [(address th f, wardRead (wardOf s (taskWard s k)) (address th f) (ldSize f.mod.toNat))] →
    p.before.map (fun b => (b.1, b.2.length)) = [(address th f, ldSize f.mod.toNat)] → t.core < p.core ∨ t.core = p.core ∧ t.slot < p.slot →
    Gives (.stw t f) s (fun n => threadOf n t = some (stepped s t th) ∧
      ∀ x, wardByte (wardOf n (taskWard s k)) x = wardByte (wardOf s (taskWard s k)) x)

/-- A store writes its bytes and nothing else, and of two of one fabric cycle the later in the order of 05 R199 stands. -/
def Obligations.WardStores : Prop := wardStores ∧ laterStoresStand

/-- ATOM replaces 4 bytes of ward memory by the value of its MOD, and its old value returns by a vault request to s[d], or to
nothing where d is 0. Stated where the fabric cycle has seen no store or atomic on the ward that comes after it (05 R199). -/
def Obligations.Atomics : Prop :=
  ∀ t f s th k, MayIssue 0x85 t f s th k → guardBit th f 0 = true → LastInCycle s t (taskWard s k) →
    let a := (sA th f).toNat
    let w := wardOf s (taskWard s k)
    ctxMapped w k.slot a 4 true = true → a % 4 = 0 → Mem.wf w.mem = true →
    let old := BitVec.ofNat 32 (leNat (wardRead w a 4))
    let d : Dest := if f.dst = 0 then .none else .s f.dst.toNat
    Gives (.atom t f) s (fun n =>
      n = { s with cores := n.cores, ctxs := n.ctxs, perf := n.perf, free := n.free, wards := n.wards, cycleOps := n.cycleOps } ∧
      CoreFrame t k s n (withRequest s t (newRequest t k d old.toNat a)) (coreOf s t.core).copies (coreOf s t.core).tex ∧
      threadOf n t = some { stepped s t th with pendingDest := alsoPending th d, irrevocable := true } ∧
      (∀ v, v ≠ taskWard s k → wardOf n v = wardOf s v) ∧
      (let w' := wardOf n (taskWard s k)
       w' = { w with mem := w'.mem, poisoned := w'.poisoned } ∧
       ∀ x, wardByte w' x = if a ≤ x ∧ x < a + 4
         then (atomValue f.mod.toNat old (lo (sB th f)) (lo (sC th f))).extractLsb' (8 * (x - a)) 8 else wardByte w x))

/-- VAULT_REPLY takes the request away and writes its value to the register it names, which no longer waits; the other registers
and threads, and all memory, are unchanged. Stated for a thread that runs on. -/
def Sys2Proof.Say.vaultReplies : Prop :=
  ∀ core req s r x th, tget (coreOf s core).vreqs req = some r → namedCtx s r.slot r.gen = some x →
    poisonIn (wardOf s x.ward) r.addr 1 = none → threadOf s { core := core, slot := r.thread } = some th → th.park = .running →
    Gives (.vaultReply core req false) s (fun n =>
      n = { s with cores := n.cores } ∧ (∀ c, c ≠ core → coreOf n c = coreOf s c) ∧
      coreOf n core = { coreOf s core with threads := (coreOf n core).threads, vreqs := tdel (coreOf s core).vreqs req } ∧
      (∀ j, j ≠ r.thread → threadOf n { core := core, slot := j } = threadOf s { core := core, slot := j }) ∧
      ∃ sr vr, threadOf n { core := core, slot := r.thread } =
          some { th with s := sr, v := vr, pendingDest := th.pendingDest.erase r.dest } ∧
        (∀ i, scalarIn sr i = if r.dest = .s i ∧ i ≠ 0 then BitVec.ofNat 64 r.value else scalarIn th.s i) ∧
        (∀ i, vr.getD i 0 = if r.dest = .v i then BitVec.ofNat 1024 r.value else th.v.getD i 0))

/-- A ward-memory load opens a request and its reply delivers the value; no memory changes. -/
def Obligations.WardLoads : Prop := wardLoads ∧ vaultReplies

/-! ## Copies (05 R211) -/

/-- MCOPY begins a copy that holds what it will write: MOD 0 from ward memory to core store, MOD 1 the reverse, MOD 2 and 3 an unpack
of blocks, MOD 4 and 5 a pack; no memory changes until the copy completes. Stated for reads that meet no uncorrectable line. -/
def Sys2Proof.Say.copiesBegin : Prop :=
  ∀ t f s th k, MayIssue 0x86 t f s th k → guardBit th f 0 = true →
    let kk := withStore s k
    let wd := taskWard s k
    let begins := fun (wardW storeW : List (Nat × Bytes)) =>
      Gives (.mcopy t f) s (fun n =>
        n = { s with cores := n.cores, ctxs := n.ctxs, perf := n.perf, free := n.free } ∧
        CoreFrame t k s n (coreOf s t.core).vreqs
          (withCopy s t { thread := t.slot, slot := k.slot, gen := k.gen, ward := wd, wardWrites := wardW, storeWrites := storeW })
          (coreOf s t.core).tex ∧
        threadOf n t = some (stepped s t th))
    let a := (sA th f).toNat; let b := (sB th f).toNat; let c := (sC th f).toNat
    (f.mod = 0 → c % 16 = 0 → a % 16 = 0 → b % 16 = 0 → b + c ≤ kk.size → ctxMapped (wardOf s wd) k.slot a c false = true →
      poisonIn (wardOf s wd) a c = none → begins [] [(b, wardRead (wardOf s wd) a c)]) ∧
    (f.mod = 1 → c % 16 = 0 → a % 16 = 0 → b % 16 = 0 → a + c ≤ kk.size → ctxMapped (wardOf s wd) k.slot b c true = true →
      begins [(b, storeRead kk a c)] []) ∧
    (let d := copyDesc (storeRead kk a 32); let bs4 := decide (f.mod = 3 ∨ f.mod = 5)
     (f.mod = 2 ∨ f.mod = 3 → a + 32 ≤ kk.size → d.ok = true → blockCopyBad s kk bs4 false d = none →
       skewOf (wardOf s wd) bs4 d = none → (∀ r ∈ unpackReads bs4 d, poisonIn (wardOf s wd) r.1 r.2 = none) → begins [] (unpackWrites (wardOf s wd) bs4 d)) ∧
     (f.mod = 4 ∨ f.mod = 5 → a + 32 ≤ kk.size → d.ok = true → blockCopyBad s kk bs4 true d = none →
       begins (packWrites kk bs4 d) []))

/-- MCOPY_COMPLETE takes the copy away and writes its bytes, in order, to the ward's memory and to the core store that the thread's
task uses, a BLEND task's in bin mode or its bin task's planes; a copy that read an uncorrectable line tears its context down with
UNCORRECTABLE instead. Stated for a thread that runs on. -/
def Sys2Proof.Say.copiesComplete : Prop :=
  ∀ core copy s c x th o, tget (coreOf s core).copies copy = some c → namedCtx s c.slot c.gen = some x →
    threadOf s { core := core, slot := c.thread } = some th → tget s.tasks th.task = some o →
    let completes := fun (id base : Nat) (o : Task) =>
      c.spoiled = none → th.park = .running → c.ward < s.wards.length → Gives (.mcopyComplete core copy) s (fun n =>
        n = { s with cores := n.cores, wards := n.wards, tasks := n.tasks } ∧
        (∀ d, d ≠ core → coreOf n d = coreOf s d) ∧
        coreOf n core = { coreOf s core with copies := tdel (coreOf s core).copies copy } ∧
        (∀ w, w ≠ c.ward → wardOf n w = wardOf s w) ∧
        wardOf n c.ward = { wardOf s c.ward with
          mem := c.wardWrites.foldl (fun m w => Mem.writeN m w.1 w.2) (wardOf s c.ward).mem, poisoned := (wardOf n c.ward).poisoned } ∧
        (∀ i, i ≠ id → tget n.tasks i = tget s.tasks i) ∧
        tget n.tasks id = some { o with store := c.storeWrites.foldl (fun m w => Mem.writeN m (w.1 - base) w.2) o.store })
    ((∀ b p, o.kind = .blend b (some p) → ∀ w ∈ c.storeWrites, w.1 + w.2.length ≤ o.size) → completes th.task 0 o) ∧
    (∀ b p q, o.kind = .blend b (some p) → (∀ w ∈ c.storeWrites, o.size ≤ w.1) → p ≠ th.task → tget s.tasks p = some q →
      completes p o.size q) ∧
    (∀ l, c.spoiled = some l → (slotOf s c.slot).state = .live → (ctxOf s c.slot).isSome = true →
      Gives (.mcopyComplete core copy) s (fun n => TornDown n c.slot 0x09 0x01))

/-- A copy begins without an effect on memory and writes its bytes when it completes. -/
def Obligations.Copies : Prop := copiesBegin ∧ copiesComplete

/-! ## Waits, fences and the end of a thread (05 R187, R196, R197) -/

/-- WAITC parks the thread while more than IMM24 of its copies are outstanding; FENCE parks it until the scopes of IMM24 are met, and
with TX drops the core's texture-cache lines. -/
def Sys2Proof.Say.waitsAndFences : Prop :=
  (∀ t f s th k, MayIssue 0x87 t f s th k → guardBit th f 0 = true →
    Gives (.waitc t f) s (fun n => IssueFrame t k s n ∧ threadOf n t =
      some (if copiesOf s t ≤ f.imm.toNat then stepped s t th else parked s t th (.copies f.imm.toNat) none))) ∧
  (∀ t f s th k, MayIssue 0x88 t f s th k → guardBit th f 0 = true →
    let met := (f.imm.getLsbD 1 = true → requestsLeft s t = 0) ∧ (f.imm.getLsbD 3 = true → copiesOf s t = 0)
    Gives (.fenceScope t f) s (fun n =>
      n = { s with cores := n.cores, ctxs := n.ctxs, perf := n.perf } ∧
      CoreFrame t k s n (coreOf s t.core).vreqs (coreOf s t.core).copies (coreOf n t.core).tex ∧
      (met → threadOf n t = some (stepped s t th) ∧
        (coreOf n t.core).tex = if f.imm.getLsbD 4 then [] else (coreOf s t.core).tex) ∧
      (¬ met → threadOf n t = some (parked s t th (.fence f.imm.toNat) none) ∧ (coreOf n t.core).tex = (coreOf s t.core).tex)))

/-- END ends the thread once its requests, copies and remote operation are complete, releases its fragments and drops the core's
texture-cache lines; until then it parks. Stated while another thread of the task has not ended. -/
def Sys2Proof.Say.threadsEnd : Prop :=
  ∀ t f s th k, MayIssue 0x01 t f s th k → guardBit th f 0 = true → builtInDone s th.task k = true → k.core = t.core →
    (∃ j u, tget (coreOf s t.core).threads j = some u ∧ j ≠ t.slot ∧ u.task = th.task ∧ u.park ≠ .ended) →
    (requestsLeft s t = 0 → copiesOf s t = 0 → recordOf s t = none →
      Gives (.endThread t f) s (fun n =>
        n = { s with cores := n.cores, ctxs := n.ctxs, perf := n.perf } ∧ (coreOf n t.core).tex = [] ∧
        threadOf n t = some { stepped s t th with park := .ended, held := none, fragments := [] })) ∧
    (requestsLeft s t ≠ 0 ∨ copiesOf s t ≠ 0 ∨ recordOf s t ≠ none →
      Gives (.endThread t f) s (fun n => IssueFrame t k s n ∧ threadOf n t = some (parked s t th .ending none)))

/-- Waits, fences and the end of a thread. -/
def Obligations.WaitsFencesAndEnds : Prop := waitsAndFences ∧ threadsEnd

/-- PCRD reads counter IMM24[2:0] of its core for a context with PERF_USER as the fabric cycle began, and zero for any other (14 R475,
R476). -/
def Sys2Proof.Say.counterReads : Prop :=
  ∀ t f s th k, MayIssue 0x24 t f s th k → guardBit th f 0 = true →
    Gives (.pcrd t f) s (fun n => IssueFrame t k s n ∧ ∃ r, threadOf n t = some { stepped s t th with s := r } ∧
      ∀ i, scalarIn r i = if i ≠ 0 ∧ i = f.dst.toNat
        then (if (tget s.perf.userWas k.slot).getD (slotOf s k.slot).perfUser then BitVec.ofNat 64 ((corePerf s t.core).cnt.getD (f.imm.toNat % 8) 0) else 0)
        else scalarIn th.s i)

/-- The scalar instructions, division and the counter read write s[d] alone, with the value of 05 Table 5-4; a write to s0 is
discarded, the pc moves past the word, and nothing else changes. -/
def Obligations.ScalarResults : Prop := scalarResults ∧ division ∧ counterReads

/-! ## Latches (05 R200) -/

/-- LSET sets its latch and frees the threads that wait for it, once the thread's copies are complete; LCLR clears it, unless an LSET
of the same fabric cycle set it (05 R199); LWAIT parks until it is set; LTEST reads it into p[d]. For the eight local latches of the
task. -/
def Sys2Proof.Say.localLatches : Prop :=
  (∀ t f s th k, MayIssue 0xA0 t f s th k → guardBit th f 0 = true → f.imm.getLsbD 16 = false → latchIndex th f < 8 →
    (copiesOf s t = 0 →
      Gives (.lset t f) s (fun n =>
        n = { s with cores := n.cores, ctxs := n.ctxs, perf := n.perf, tasks := n.tasks } ∧
        (∀ i, i ≠ th.task → tget n.tasks i = tget s.tasks i) ∧
        tget n.tasks th.task = some { k with
          latches := k.latches ||| BitVec.ofNat 8 (2 ^ latchIndex th f), latchMark := markSet s.now (latchIndex th f) k.latchMark } ∧
        threadOf n t = some (stepped s t th) ∧
        ∀ u w, u ≠ t → threadOf s u = some w → threadOf n u =
          some (if w.park = .latch false (latchIndex th f) ∧ w.task = th.task then { w with park := .running } else w))) ∧
    (copiesOf s t ≠ 0 →
      Gives (.lset t f) s (fun n => IssueFrame t k s n ∧
        threadOf n t = some (parked s t th .release (some (.setLatch false (latchIndex th f))))))) ∧
  (∀ t f s th k, MayIssue 0xA1 t f s th k → guardBit th f 0 = true → f.imm.getLsbD 16 = false → latchIndex th f < 8 →
    Gives (.lclr t f) s (fun n =>
      n = { s with cores := n.cores, ctxs := n.ctxs, perf := n.perf, tasks := n.tasks } ∧
      threadOf n t = some (stepped s t th) ∧ (∀ i, i ≠ th.task → tget n.tasks i = tget s.tasks i) ∧
      ∃ l, tget n.tasks th.task = some { k with latches := l } ∧
        ∀ j, l.getLsbD j = (k.latches.getLsbD j && (j != latchIndex th f || setInCycle s.now (latchIndex th f) k.latchMark)))) ∧
  (∀ t f s th k, MayIssue 0xA2 t f s th k → guardBit th f 0 = true → f.imm.getLsbD 16 = false → latchIndex th f < 8 →
    Gives (.lwait t f) s (fun n => IssueFrame t k s n ∧ threadOf n t =
      some (if k.latches.getLsbD (latchIndex th f) then stepped s t th else parked s t th (.latch false (latchIndex th f)) none))) ∧
  (∀ t f s th k, MayIssue 0xA3 t f s th k → guardBit th f 0 = true → f.imm.getLsbD 16 = false → latchIndex th f < 8 →
    Gives (.ltest t f) s (fun n => IssueFrame t k s n ∧ ∃ r, threadOf n t = some { stepped s t th with p := r } ∧
      ∀ i, predIn r i = if i ≠ 0 ∧ i = f.dst.toNat then allOnesIf (k.latches.getLsbD (latchIndex th f)) else predIn th.p i))

/-- The same for the staging latches of the context, 64 for each unit of its allotment. -/
def Sys2Proof.Say.stagingLatchOps : Prop :=
  (∀ t f s th k x, MayIssue 0xA0 t f s th k → guardBit th f 0 = true → f.imm.getLsbD 16 = true → ctxOf s k.slot = some x →
    latchIndex th f < 64 * cbLatches x.cfg → copiesOf s t = 0 →
    Gives (.lset t f) s (fun n => n.wards = s.wards ∧ n.hostMem = s.hostMem ∧ n.tasks = s.tasks ∧ n.slots = s.slots ∧
      (ctxOf n k.slot).map (·.stagingBits) = some (x.stagingBits ||| 2 ^ latchIndex th f) ∧
      (∀ i, i ≠ k.slot → ctxOf n i = ctxOf s i) ∧ threadOf n t = some (stepped s t th))) ∧
  (∀ t f s th k x, MayIssue 0xA1 t f s th k → guardBit th f 0 = true → f.imm.getLsbD 16 = true → ctxOf s k.slot = some x →
    latchIndex th f < 64 * cbLatches x.cfg →
    Gives (.lclr t f) s (fun n => n = { s with cores := n.cores, ctxs := n.ctxs, perf := n.perf } ∧
      threadOf n t = some (stepped s t th) ∧ (∀ i, i ≠ k.slot → ctxOf n i = ctxOf s i) ∧
      ∃ b, (ctxOf n k.slot).map (·.stagingBits) = some b ∧
        ∀ j, b.testBit j = (x.stagingBits.testBit j && (j != latchIndex th f || setInCycle s.now (latchIndex th f) x.stagingMark)))) ∧
  (∀ t f s th k x, MayIssue 0xA2 t f s th k → guardBit th f 0 = true → f.imm.getLsbD 16 = true → ctxOf s k.slot = some x →
    latchIndex th f < 64 * cbLatches x.cfg →
    Gives (.lwait t f) s (fun n => IssueFrame t k s n ∧ threadOf n t =
      some (if x.stagingBits.testBit (latchIndex th f) then stepped s t th else parked s t th (.latch true (latchIndex th f)) none))) ∧
  (∀ t f s th k x, MayIssue 0xA3 t f s th k → guardBit th f 0 = true → f.imm.getLsbD 16 = true → ctxOf s k.slot = some x →
    latchIndex th f < 64 * cbLatches x.cfg →
    Gives (.ltest t f) s (fun n => IssueFrame t k s n ∧ ∃ r, threadOf n t = some { stepped s t th with p := r } ∧
      ∀ i, predIn r i = if i ≠ 0 ∧ i = f.dst.toNat then allOnesIf (x.stagingBits.testBit (latchIndex th f)) else predIn th.p i))

/-- The latch instructions, on local and on staging latches. -/
def Obligations.Latches : Prop := localLatches ∧ stagingLatchOps

/-! ## Hasps (05 R202, R203) -/

/-- HACQ takes a count or parks the thread behind the acquirers already parked; HTRY takes one or not, and says which in p[d]; HREL,
with no acquirer parked, returns one. For a hasp of this device that no thread has acquired in the fabric cycle. -/
def Sys2Proof.Say.haspOps : Prop :=
  ∀ t f s th k id h, guardBit th f 0 = true → haspNum th f < 8192 →
    (ctxOf s k.slot).bind (fun x => haspAt x (haspNum th f)) = some id → tget s.hasps id = some h → (h.cycle = s.now / 8 → h.recent = []) →
    (MayIssue 0xA4 t f s th k →
      (∀ u, Waiter.thread u ∈ h.parked → ∀ w, threadOf s u = some w → w.parkedAt / 8 ≠ s.now / 8) →
      Gives (.hacq t f) s (fun n => n.wards = s.wards ∧ n.hostMem = s.hostMem ∧ n.slots = s.slots ∧ ∃ h', tget n.hasps id = some h' ∧
        (mayAcquire h k.slot → h'.count = h.count - 1 ∧ h'.held = tput h.held k.slot (tgetD h.held k.slot 0 + 1) ∧
          h'.parked = h.parked ∧ threadOf n t = some (stepped s t th)) ∧
        (¬ mayAcquire h k.slot → h'.count = h.count ∧ h'.held = h.held ∧
          h'.parked = h.parked ++ [.thread t] ∧ threadOf n t = some (parked s t th (.hasp id) none)))) ∧
    (MayIssue 0xA6 t f s th k →
      Gives (.htry t f) s (fun n => n.wards = s.wards ∧ n.hostMem = s.hostMem ∧ n.slots = s.slots ∧
        (∃ h', tget n.hasps id = some h' ∧ h'.parked = h.parked ∧
          (mayAcquire h k.slot → h'.count = h.count - 1 ∧ h'.held = tput h.held k.slot (tgetD h.held k.slot 0 + 1)) ∧
          (¬ mayAcquire h k.slot → h'.count = h.count ∧ h'.held = h.held)) ∧
        ∃ r, threadOf n t = some { stepped s t th with p := r } ∧
          (mayAcquire h k.slot → ∀ i, predIn r i = if i ≠ 0 ∧ i = f.dst.toNat then BitVec.allOnes 64 else predIn th.p i) ∧
          (¬ mayAcquire h k.slot → ∀ i, predIn r i = if i ≠ 0 ∧ i = f.dst.toNat then 0 else predIn th.p i))) ∧
    (MayIssue 0xA5 t f s th k → h.count ≠ 0xFFFF → h.parked = [] → copiesOf s t = 0 →
      Gives (.hrel t f) s (fun n => n.wards = s.wards ∧ n.hostMem = s.hostMem ∧ n.slots = s.slots ∧ threadOf n t = some (stepped s t th) ∧
        ∃ h', tget n.hasps id = some h' ∧ h'.count = h.count + 1 ∧ h'.parked = [] ∧
          h'.held = if tgetD h.held k.slot 0 ≤ 1 then tdel h.held k.slot else tput h.held k.slot (tgetD h.held k.slot 0 - 1)))
/-- The order of one fabric cycle (05 R199): an HACQ goes before those of later threads that parked in the same cycle, and takes the count
that the HACQ of a later thread took in it, which parks instead. -/
def Sys2Proof.Say.haspsInCycle : Prop :=
  ∀ t f s th k id h u w, MayIssue 0xA4 t f s th k → guardBit th f 0 = true → haspNum th f < 8192 →
    (ctxOf s k.slot).bind (fun x => haspAt x (haspNum th f)) = some id → tget s.hasps id = some h → h.count = 0 →
    t.core < u.core ∨ t.core = u.core ∧ t.slot < u.slot → threadOf s u = some w →
    (h.parked = [.thread u] → w.parkedAt / 8 = s.now / 8 → h.recent = [] → Gives (.hacq t f) s (fun n =>
      (tget n.hasps id).map (·.parked) = some [.thread t, .thread u] ∧ threadOf n t = some (parked s t th (.hasp id) none))) ∧
    (∀ j, h.parked = [] → h.cycle = s.now / 8 → h.recent = [(u, w.lastIssue, none)] → w.park = .running → tget s.tasks w.task = some j →
      h.held.length + h.peers.length < 8 → Gives (.hacq t f) s (fun n =>
      (tget n.hasps id).map (fun h' => (h'.count, h'.parked)) = some (0, [.thread u]) ∧ threadOf n t = some (stepped s t th) ∧
      threadOf n u = some { w with park := .hasp id, parkedAt := s.now }))

/-- The hasp instructions on a hasp of this device, and the order of one fabric cycle. -/
def Obligations.Hasps : Prop := haspOps ∧ haspsInCycle

/-- An operation on an imported hasp or latch (12 R429–R431): with no operation of the thread outstanding, a pending record free and
a route to the exporter, it opens a record of the operation, and parks the thread where the operation has a result to wait for. -/
def Obligations.RemoteOperations : Prop :=
  ∀ t f s th k e port,
    let wd := taskWard s k
    let opens := fun (op : Nat) (c : Instr) (r : Nat) (waits : Bool) (dst : Nat) =>
      importRange s wd (decide (op ≤ 2)) r = some e → recordOf s t = none → recordFree s wd = true → wardRoute s wd e.peer = some port →
      Gives c s (fun n => n.wards = s.wards ∧ n.hostMem = s.hostMem ∧ n.tasks = s.tasks ∧ n.slots = s.slots ∧ n.hasps = s.hasps ∧
        n.hinge.nextRequest = (s.hinge.nextRequest % 65536 + 1) % 65536 ∧
        let id := freeKeyFrom s.remotes 0
        n.remotes = tput s.remotes id
          { thread := t, slot := k.slot, gen := k.gen, ward := wd, op := op, dst := dst, dev := e.peer, port := port, sentAt := s.now
            request := s.hinge.nextRequest % 65536, target := e.peerFirst + (r - e.first), tward := e.peerWard, tslot := e.peerSlot } ∧
        threadOf n t = some { stepped s t th with
          irrevocable := true, held := none, parkedAt := s.now, park := if waits then .remote id else .running })
    guardBit th f 0 = true →
    (∀ c ∈ ([(0, 0xA4, .hacq t f, true, 0), (1, 0xA6, .htry t f, true, f.dst.toNat), (2, 0xA5, .hrel t f, false, 0)] :
        List (Nat × Nat × Instr × Bool × Nat)),
      MayIssue c.2.1 t f s th k → 8192 ≤ haspNum th f → (c.1 = 2 → copiesOf s t = 0) →
      opens c.1 c.2.2.1 (haspNum th f - 8192) c.2.2.2.1 c.2.2.2.2) ∧
    (∀ c ∈ ([(3, 0xA0, .lset t f, false, 0), (4, 0xA1, .lclr t f, false, 0), (5, 0xA2, .lwait t f, true, 0),
        (6, 0xA3, .ltest t f, true, f.dst.toNat)] : List (Nat × Nat × Instr × Bool × Nat)),
      MayIssue c.2.1 t f s th k → f.imm.getLsbD 16 = true → 0x10000 ≤ latchIndex th f → stagingLatches s k.slot ≤ latchIndex th f →
      (c.1 = 3 → copiesOf s t = 0) →
      opens c.1 c.2.2.1 (latchIndex th f - 0x10000) c.2.2.2.1 c.2.2.2.2)

/-! ## The pixel interlock (05 R205, R206) -/

/-- PXLOCK lets the thread go on when every lower fragment at the pixels its enabled lanes name is released, or when it names none,
and parks it otherwise; in a task of another kind it only moves on (the model's choice, log 84). PXUNLOCK releases the thread's own fragments at the pixels named. -/
def Obligations.PixelInterlock : Prop :=
  (∀ t f s th k x fr b p, MayIssue 0xA7 t f s th k → guardBit th f 0 = true → k.kind = .blend b p → ctxOf s k.slot = some x → frameOfTask x k = some fr →
    Gives (.pxlock t f) s (fun n => IssueFrame t k s n ∧ threadOf n t =
      some (if pixelsNamed th f = [] ∨ lowerReleased s k.slot fr b (sB th f).toNat (pixelsNamed th f) = true then stepped s t th
            else parked s t th (.pixels (sB th f).toNat (pixelsNamed th f)) none))) ∧
  (∀ t f s th k, MayIssue 0xA7 t f s th k → (∀ b p, k.kind ≠ .blend b p) →
    Gives (.pxlock t f) s (fun n => IssueFrame t k s n ∧ threadOf n t = some (stepped s t th))) ∧
  (∀ t f s th k, MayIssue 0xA8 t f s th k → guardBit th f 0 = true →
    Gives (.pxunlock t f) s (fun n => n = { s with cores := n.cores, ctxs := n.ctxs, perf := n.perf } ∧
      threadOf n t = some { stepped s t th with fragments := th.fragments.filter (fun q => !(pixelsNamed th f).contains q.1) }))

/-! ## Tensor products and samples (05 R194, R195, R207–R210) -/

/-- TZERO sets a tile to zero and its accumulator type; TMM and TMMB add one chunk or block pair to a tile of the right type, element
by element; TRD writes a tile to eight vector registers. Operands lie in the task's core store. -/
def Obligations.TensorProducts : Prop :=
  (∀ t f s th k, MayIssue 0xC0 t f s th k → guardBit th f 0 = true →
    Gives (.tzero t f) s (fun n => IssueFrame t k s n ∧ threadOf n t =
      some { stepped s t th with tiles := tput th.tiles f.dst.toNat { fp := f.mod == 1, vals := List.replicate 256 0 } })) ∧
  (∀ t f s th k, MayIssue 0xC1 t f s th k → guardBit th f 0 = true →
    let kk := withStore s k
    let ca := f.imm.toNat / 2 ^ 20; let cb := f.imm.toNat / 2 ^ 16 % 16
    let kc := if (sC th f).toNat / 2 ^ 16 % 32 = 0 then 16 else (sC th f).toNat / 2 ^ 16 % 32
    let rowA := fun m => ((sA th f).toNat + m * (f.imm.toNat % 2 ^ 16)) % 2 ^ 64
    let rowB := fun n => ((sB th f).toNat + n * ((sC th f).toNat % 2 ^ 16)) % 2 ^ 64
    let na := kcBytes (codeBits ca) kc; let nb := kcBytes (codeBits cb) kc
    (∀ i, i < 16 → rowA i + na ≤ kk.size ∧ rowB i + nb ≤ kk.size) → (tileOf th f.dst.toNat).fp = decide (5 ≤ ca) →
    Gives (.tmm t f) s (fun n => IssueFrame t k s n ∧ ∃ r, threadOf n t = some { stepped s t th with tiles := r } ∧
      (∀ i, i ≠ f.dst.toNat → tget r i = tget th.tiles i) ∧
      ∃ q, tget r f.dst.toNat = some q ∧ q.fp = decide (5 ≤ ca) ∧
        ∀ i j, i < 16 → j < 16 →
          let acc := tileAt (tileOf th f.dst.toNat) i j
          let x := storeRead kk (rowA i) na; let y := storeRead kk (rowB j) nb
          tileAt q i j = match fmtOf ca, fmtOf cb with
            | some fa, some fb => fpStep fa fb kc acc x y % 2 ^ 32
            | _, _ => intStep ca cb kc acc x y)) ∧
  (∀ t f s th k, MayIssue 0xC2 t f s th k → guardBit th f 0 = true →
    let kk := withStore s k
    let ty := f.imm.toNat / 2 ^ 16 % 4
    let rowA := fun m => ((sA th f).toNat + m * (f.imm.toNat % 2 ^ 16)) % 2 ^ 64
    let rowB := fun n => ((sB th f).toNat + n * ((sC th f).toNat % 2 ^ 16)) % 2 ^ 64
    let nb := if ty = 3 then 16 else 32
    (∀ i, i < 16 → rowA i + nb ≤ kk.size ∧ rowB i + nb ≤ kk.size) → (sC th f).toNat + 32 ≤ kk.size →
    (tileOf th f.dst.toNat).fp = true →
    Gives (.tmmb t f) s (fun n => IssueFrame t k s n ∧ ∃ r, threadOf n t = some { stepped s t th with tiles := r } ∧
      (∀ i, i ≠ f.dst.toNat → tget r i = tget th.tiles i) ∧
      ∃ q, tget r f.dst.toNat = some q ∧ q.fp = true ∧
        ∀ i j, i < 16 → j < 16 →
          let code := fun c => (Mem.read kk.store ((sC th f).toNat + c)).toNat
          tileAt q i j = blockStep ty (tileAt (tileOf th f.dst.toNat) i j) (code i) (code (16 + j))
            (storeRead kk (rowA i) nb) (storeRead kk (rowB j) nb) % 2 ^ 32)) ∧
  (∀ t f s th k, MayIssue 0xC3 t f s th k → guardBit th f 0 = true →
    Gives (.trd t f) s (fun n => IssueFrame t k s n ∧ ∃ r, threadOf n t = some { stepped s t th with v := r } ∧
      (∀ i, i < f.dst.toNat ∨ f.dst.toNat + 8 ≤ i → r.getD i 0 = th.v.getD i 0) ∧
      ∀ i j, i < 16 → j < 16 →
        laneAt 32 (r.getD (f.dst.toNat + i / 2) 0) (16 * (i % 2) + j) = tileAt (tileOf th (f.imm.toNat % 8)) i j))

/-- SMP writes the enabled lanes of v[d] on, one register for each channel, with the samples of the texture that its descriptor names,
where the core's texture cache holds no line yet; every other lane and register, and all memory, are unchanged. -/
def Obligations.Samples : Prop :=
  ∀ t f s th k, MayIssue 0xD0 t f s th k → (∃ i, i < 32 ∧ guardBit th f i = true) →
    let kk := withStore s k
    let a := (sA th f).toNat
    let d := texDesc (storeRead kk a 32)
    a + 32 ≤ kk.size → d.ok = true → ctxMapped (wardOf s (taskWard s k)) k.slot d.base (texSpan d) false = true →
    (wardOf s (taskWard s k)).poisoned = [] → Gives (.smp t f) s (fun n =>
      n = { s with cores := n.cores, ctxs := n.ctxs, perf := n.perf, free := n.free } ∧
      CoreFrame t k s n (coreOf s t.core).vreqs (coreOf s t.core).copies (coreOf n t.core).tex ∧
      ∃ r, threadOf n t = some { stepped s t th with v := r } ∧
        let chans := min (texChans d.fmt) (k.vregs - f.dst.toNat)
        (∀ i, i < f.dst.toNat ∨ f.dst.toNat + chans ≤ i → r.getD i 0 = th.v.getD i 0) ∧
        (∀ j i, j < chans → i < 32 → guardBit th f i = false →
          laneAt 32 (r.getD (f.dst.toNat + j) 0) i = laneAt 32 (th.v.getD (f.dst.toNat + j) 0) i) ∧
        ((coreOf s t.core).tex = [] → ∀ j i, j < chans → i < 32 → guardBit th f i = true →
          let texel := fun x y => let b := texelAddr d x y
            texelChan d.fmt j (slice (wardRead (wardOf s (taskWard s k)) (b / 64 * 64) 64) (b % 64) (texBytes d.fmt))
          laneAt 32 (r.getD (f.dst.toNat + j) 0) i =
            sampleTex { w := d.w, h := d.h, border := d.border, at_ := texel } f.mod.toNat
              (laneAt 32 (th.v.getD f.b.toNat 0) i) (laneAt 32 (th.v.getD f.c.toNat 0) i) % 2 ^ 32))

/-! ## Faults of a kernel (05 R216, R201, R204; 12 R432) -/

/-- An instruction whose operands 05 R216 forbids tears its context down with KERNEL_FAULT and the reason of 05 Table 5-11. -/
def Obligations.KernelFaults : Prop :=
  ∀ t f s th k x, ctxOf s k.slot = some x → guardBit th f 0 = true →
    let kk := withStore s k
    let w := wardOf s (taskWard s k)
    let falls := fun (c : Instr) (reason : Nat) => Gives c s (fun n => TornDown n k.slot 0x10 reason)
    (∀ c ∈ ([(0x80, .ldc t f), (0x81, .stc t f)] : List (Nat × Instr)), MayIssue c.1 t f s th k →
      (kk.size < address th f + ldSize f.mod.toNat → falls c.2 0x01) ∧
      (address th f + ldSize f.mod.toNat ≤ kk.size → address th f % ldAlign f.mod.toNat ≠ 0 → falls c.2 0x03)) ∧
    (∀ c ∈ ([(0x83, .ldw t f, false), (0x84, .stw t f, true)] : List (Nat × Instr × Bool)), MayIssue c.1 t f s th k →
      let ok := ctxMapped w k.slot (address th f) (ldSize f.mod.toNat) c.2.2
      (ok = false → falls c.2.1 0x02) ∧ (ok = true → address th f % ldAlign f.mod.toNat ≠ 0 → falls c.2.1 0x03)) ∧
    (MayIssue 0x85 t f s th k →
      (ctxMapped w k.slot (sA th f).toNat 4 true = false → falls (.atom t f) 0x02) ∧
      (ctxMapped w k.slot (sA th f).toNat 4 true = true → (sA th f).toNat % 4 ≠ 0 → falls (.atom t f) 0x03)) ∧
    (∀ c ∈ ([(0xA0, .lset t f), (0xA1, .lclr t f), (0xA2, .lwait t f), (0xA3, .ltest t f)] : List (Nat × Instr)),
      MayIssue c.1 t f s th k → f.imm.getLsbD 16 = false → 8 ≤ latchIndex th f → falls c.2 0x04) ∧
    (∀ c ∈ ([(0xA4, .hacq t f), (0xA5, .hrel t f), (0xA6, .htry t f)] : List (Nat × Instr)),
      MayIssue c.1 t f s th k → haspNum th f < 8192 → haspAt x (haspNum th f) = none → falls c.2 0x05) ∧
    (∀ id h, MayIssue 0xA5 t f s th k → haspNum th f < 8192 → haspAt x (haspNum th f) = some id → tget s.hasps id = some h →
      h.count = 0xFFFF → copiesOf s t = 0 → falls (.hrel t f) 0x06) ∧
    (MayIssue 0xC1 t f s th k → (tileOf th f.dst.toNat).fp ≠ decide (5 ≤ f.imm.toNat / 2 ^ 20) → falls (.tmm t f) 0x07) ∧
    (MayIssue 0xC2 t f s th k → (tileOf th f.dst.toNat).fp = false → falls (.tmmb t f) 0x07) ∧
    (MayIssue 0xD0 t f s th k → (sA th f).toNat + 32 ≤ kk.size → (texDesc (storeRead kk (sA th f).toNat 32)).ok = false →
      falls (.smp t f) 0x08) ∧
    (MayIssue 0x86 t f s th k → 2 ≤ f.mod.toNat → (sA th f).toNat + 32 ≤ kk.size →
      (copyDesc (storeRead kk (sA th f).toNat 32)).ok = false → falls (.mcopy t f) 0x09)

/-- A wait that outlasts its limit tears its context down: LWAIT or PXLOCK beyond the wait limit with KERNEL_FAULT WAIT_LIMIT, HACQ
beyond the hasp timeout with HASP_TIMEOUT; a remote operation beyond the remote-wait limit is lost when the fabric cycle ends, unless its
reply has landed in it, and tears its context down with REMOTE_LOST (12 R434). -/
def Sys2Proof.Say.waitsHaveLimits : Prop :=
  (∀ t s th k x, threadOf s t = some th → tget s.tasks th.task = some k → liveCtx s k.slot = some x →
    (∃ b i, th.park = .latch b i) ∨ (∃ q px, th.park = .pixels q px) → th.parkedAt + 60 * cbWaitLimit x.cfgInForce < s.now →
    Gives (.waitLimit t) s (fun n => TornDown n k.slot 0x10 0x0A)) ∧
  (∀ t s th k x id, threadOf s t = some th → tget s.tasks th.task = some k → liveCtx s k.slot = some x →
    th.park = .hasp id → th.parkedAt + 60 * cbHaspTimeout x.cfgInForce < s.now →
    Gives (.haspTimeout t) s (fun n => TornDown n k.slot 0x07 0)) ∧
  (∀ s rec q x, tget s.remotes rec = some q → namedCtx s q.slot q.gen = some x →
    q.sentAt + 60 * cbRemoteLimit x.cfgInForce < s.now →
    Gives (.remoteWaitLimit rec) s (fun n => n = { s with remotes := tput s.remotes rec { q with expired := true } })) ∧
  (∀ s rec q x, s.remotes = [(rec, q)] → q.expired = true → namedCtx s q.slot q.gen = some x →
    TornDown (expireRecords s) q.slot 0x08 0x01)

/-- An uncorrectable error in a vault reply tears the context down with UNCORRECTABLE. -/
def Sys2Proof.Say.uncorrectableReplies : Prop :=
  ∀ core req s r x, tget (coreOf s core).vreqs req = some r → namedCtx s r.slot r.gen = some x →
    Gives (.vaultReply core req true) s (fun n => TornDown n r.slot 0x09 0x05)

/-- What ends a wait or a load by a fault tears the context down with the report of 11 Table 11-12. -/
def Obligations.WaitsHaveLimits : Prop := waitsHaveLimits ∧ uncorrectableReplies

/-- A thread of the device's own code issues a system-only instruction: the pc moves on and the work is charged to its context; the
layer instruction of a tile, or of a tile of a training step, runs the next layer of its network. -/
def Obligations.BuiltInCode : Prop :=
  (∀ t s th k x, threadOf s t = some th → tget s.tasks th.task = some k → th.park = .running → k.started = true → k.code = .builtIn →
    liveCtx s k.slot = some x → coreIssues (coreOf s t.core) = true →
    (∀ op ∈ [BuiltIn.expand, .epilogue, .warpBlend, .composite], Gives (.builtInInstruction t op) s (fun n =>
      n = { s with cores := n.cores, ctxs := n.ctxs, perf := n.perf, free := n.free } ∧ threadOf n t = some (stepped s t th) ∧
      (∀ i, i ≠ k.slot → ctxOf n i = ctxOf s i))) ∧
    (∀ i net, k.kind = .tile i ∨ k.kind = .train i → tileNet s x k = some net → k.progress < net.net.count → customRuns s th.task = false →
      let l := (layersOf net.img).getD (net.net.first + k.progress) {}
      layerSkew (tileEnvNow k net) l = none → l.op ≠ 15 →
      Gives (.builtInInstruction t .layerStep) s (fun n =>
        n = { s with cores := n.cores, perf := n.perf, tasks := n.tasks } ∧ threadOf n t = some (stepped s t th) ∧
        (∀ j, j ≠ th.task → tget n.tasks j = tget s.tasks j) ∧
        tget n.tasks th.task = some { k with progress := k.progress + 1, layer := net.net.first + k.progress })))

/-! ## Doorbells and the admin ring (11 R390–R396, R409) -/

/-- A doorbell write changes its ring alone, and its register then reads back the context generation that it carried. TAIL and HEAD take a
value in range; a TAIL at or above the ring size is ignored and sets HOST_DMA; a HEAD that would return a record not yet posted is
ignored; ARM sends the interrupt message at once where an unreturned record raises the condition, and else stands. The tail that the
ring had when the fabric cycle began, and the instant of an ARM taken back, stay with the ring for what else happens in that cycle. -/
def Obligations.Doorbells : Prop :=
  ∀ s fn r v g, RingsBell s fn r v → ringOf s r = some g →
    (v % 65536 < 2 ^ g.sqLog2 → Gives (doorbellOf fn r 0 v) s (fun n => RingsOnly s n r ∧
      ∃ w, ringOf n r = some { g with tail := v % 65536, tailGen := genField r v, tailWas := some w } ∧
        ((∀ u, g.tailWas = some u → earlierCycle u.1 s.now = true) → w = (s.now, g.tail, g.tailGen)) ∧
        (∀ u, g.tailWas = some u → earlierCycle u.1 s.now = false → w = u))) ∧
    (2 ^ g.sqLog2 ≤ v % 65536 → Gives (doorbellOf fn r 0 v) s (fun n => errSet n fn 3 ∧ ringOf n r = some g ∧ n.hostMem = s.hostMem)) ∧
    (let count := (v % 65536 + 2 ^ g.cqLog2 - g.head) % 2 ^ g.cqLog2
     (v % 65536 < 2 ^ g.cqLog2 → count ≤ g.unreturned.length → g.lostOwed = 0 → g.dropped = [] →
       Gives (doorbellOf fn r 1 v) s (fun n => RingsOnly s n r ∧
         ringOf n r = some { g with head := v % 65536, headGen := genField r v, unreturned := g.unreturned.drop count })) ∧
     (v % 65536 < 2 ^ g.cqLog2 → count ≤ g.unreturned.length → Gives (doorbellOf fn r 1 v) s (fun n =>
       ∃ g' l, ringOf n r = some g' ∧ g'.head = v % 65536 ∧ g'.unreturned = g.unreturned.drop count ++ l)) ∧
     (2 ^ g.cqLog2 ≤ v % 65536 ∨ g.unreturned.length < count → Gives (doorbellOf fn r 1 v) s (fun n => n = s))) ∧
    (v % 2 = 0 → Gives (doorbellOf fn r 2 v) s (fun n => RingsOnly s n r ∧
      ringOf n r = some { g with arm := false, armGen := genField r v, disarmedAt := if g.arm then some s.now else g.disarmedAt })) ∧
    (v % 2 = 1 → g.unreturned.all (fun b => !b) = true →
      Gives (doorbellOf fn r 2 v) s (fun n => RingsOnly s n r ∧ ringOf n r = some { g with arm := true, armGen := genField r v })) ∧
    (v % 2 = 1 → g.unreturned.any id = true → (tgetD (fnOf s (ringFn s r)).msix (ringVector s r) {}).masked = false →
      Gives (doorbellOf fn r 2 v) s (fun n => n.sent = s.sent ++ [.msix (ringFn s r) (ringVector s r)] ∧
        ringOf n r = some { g with arm := false, armGen := genField r v } ∧ n.hostMem = s.hostMem))

/-- A doorbell of a context with a generation that is not its slot's, or of a slot that is not LIVE, changes nothing; a read of
KW_CQ_LOST returns the count of dropped records and clears it. -/
def Obligations.ContextPages : Prop :=
  (∀ s fn slot v reg, s.fw.switching = false → (slotOf s slot).state ≠ .live ∨ (slotOf s slot).gen ≠ v / 65536 % 65536 →
    Gives (doorbellOf fn (.ctx slot) reg v) s (fun n => n = s)) ∧
  (∀ s fn slot x, barsOpen s fn = true → ctxOf s slot = some x → x.ward = fn →
    (slotOf s slot).state = .live ∨ (slotOf s slot).state = .teardown →
    Gives (.kwCqLost fn slot) s (fun n => n.lastRead = natLe 4 x.ring.lost ∧ n.lastPoisoned = false ∧
      n = { s with ctxs := n.ctxs, lastRead := n.lastRead, lastPoisoned := false } ∧
      (∀ i, i ≠ slot → ctxOf n i = ctxOf s i) ∧ ctxOf n slot = some { x with ring := { x.ring with lost := 0 } }))

/-- ADMIN_ENABLE puts the ring of the registers in force with both indices 0 and its phase restarted; ADMIN_DISABLE stops the fetch at
once, and ENABLE reads 1 until every fetched command has posted its record. -/
def Obligations.AdminRing : Prop :=
  ∀ s fn v, Sized s → fn < 16 → barsOpen s fn = true →
    let f := fnOf s fn
    (f.enabled = false → f.disabling = false → v % 16 ≤ 10 → v / 16 % 16 ≤ 10 →
      Gives (.adminEnable fn v) s (fun n => n = { s with fns := n.fns } ∧ (∀ h, h ≠ fn → fnOf n h = fnOf s h) ∧
        fnOf n fn = { f with
          admCfg := BitVec.ofNat 32 (v % 2 ^ 30), enabled := true
          ring := { live := true, sqBase := f.sqBase.toNat, cqBase := f.cqBase.toNat, sqLog2 := 6 + v % 16, cqLog2 := 6 + v / 16 % 16 } })) ∧
    (f.enabled = true → Gives (.adminDisable fn v) s (fun n => n = { s with fns := n.fns } ∧ (∀ h, h ≠ fn → fnOf n h = fnOf s h) ∧
      (fnOf n fn).enabled = false ∧ ((fnOf n fn).disabling = true ↔ f.ring.cmds ≠ []) ∧
      (fnOf n fn).ring = { f.ring with tail := f.ring.fetchHead }))

/-! ## Register accesses (11 Tables 11-1 to 11-6, R387, R388) -/

/-- Every register write completes, and touches no ward, task, core or hasp. One of a function whose BARs are closed, one of BAR0's
read-only identity and status words, and one past BAR4's table change nothing. KW_ERR_STATUS clears the bits written as 1 but
those that hardware set in the same fabric cycle, KW_APERTURE takes its fields, the ring bases take a value only while the ring
is disabled, and an MSI-X entry takes its address, or its data and its mask. -/
def Obligations.RegisterWrites : Prop :=
  (∀ s fn bar o w v, Gives (.registerWrite fn bar o w v) s (fun n =>
    n.wards = s.wards ∧ n.tasks = s.tasks ∧ n.cores = s.cores ∧ n.hasps = s.hasps)) ∧
  (∀ s fn bar o w v, barsOpen s fn = false → Gives (.registerWrite fn bar o w v) s (fun n => n = s)) ∧
  (∀ s fn w v, Gives (.registerWrite fn 0 0x00 w v) s (fun n => n = s) ∧ Gives (.registerWrite fn 0 0x08 w v) s (fun n => n = s)) ∧
  (∀ s fn o w v, 0x8000 ≤ o → Gives (.registerWrite fn 4 o w v) s (fun n => n = s)) ∧
  (∀ s fn v, Sized s → fn < 16 → barsOpen s fn = true → v < 2 ^ 32 →
    Gives (.registerWrite fn 0 0x10 4 v) s (fun n => n = { s with fns := n.fns } ∧ (∀ h, h ≠ fn → fnOf n h = fnOf s h) ∧
      fnOf n fn = { fnOf s fn with errStatus := (fnOf s fn).errStatus &&& (~~~ BitVec.ofNat 32 v ||| (fnOf s fn).errFresh) })) ∧
  (∀ s fn v, Sized s → fn < 16 → barsOpen s fn = true → v < 2 ^ 64 →
    (let f := fnOf s fn
     let open_ := f.enabled = false ∧ f.disabling = false
     (open_ → Gives (.registerWrite fn 0 0x30 8 v) s (fun n => n = { s with fns := n.fns } ∧ (∀ h, h ≠ fn → fnOf n h = fnOf s h) ∧
        fnOf n fn = { f with sqBase := BitVec.ofNat 64 (v / 4096 * 4096) })) ∧
     (open_ → Gives (.registerWrite fn 0 0x38 8 v) s (fun n => n = { s with fns := n.fns } ∧ (∀ h, h ≠ fn → fnOf n h = fnOf s h) ∧
        fnOf n fn = { f with cqBase := BitVec.ofNat 64 (v / 4096 * 4096) })) ∧
     (¬ open_ → Gives (.registerWrite fn 0 0x30 8 v) s (fun n => n = s) ∧ Gives (.registerWrite fn 0 0x38 8 v) s (fun n => n = s)))) ∧
  (∀ s fn v, Sized s → fn < 16 → barsOpen s fn = true → v < 2 ^ 64 →
    Gives (.registerWrite fn 0 0x28 8 v) s (fun n => n = { s with fns := n.fns } ∧ (∀ h, h ≠ fn → fnOf n h = fnOf s h) ∧
      fnOf n fn = { fnOf s fn with aperture := BitVec.ofNat 64 (v / 2 ^ 18 % 2 ^ 30 * 2 ^ 18 + v % 2) })) ∧
  (∀ s fn k v, Sized s → fn < 16 → barsOpen s fn = true → k < 2048 → v < 2 ^ 64 →
    let e := tgetD (fnOf s fn).msix k {}
    Gives (.registerWrite fn 4 (16 * k) 8 v) s (fun n => n = { s with fns := n.fns } ∧ (∀ h, h ≠ fn → fnOf n h = fnOf s h) ∧
      tget (fnOf n fn).msix k = some { e with addr := v / 4 * 4 } ∧ ∀ j, j ≠ k → tget (fnOf n fn).msix j = tget (fnOf s fn).msix j) ∧
    ((fnOf s fn).pba.contains k = false → Gives (.registerWrite fn 4 (16 * k + 8) 8 v) s (fun n =>
      n = { s with fns := n.fns } ∧ (∀ h, h ≠ fn → fnOf n h = fnOf s h) ∧
      tget (fnOf n fn).msix k = some { e with data := v % 2 ^ 32, masked := (v / 2 ^ 32).testBit 0 } ∧
      ∀ j, j ≠ k → tget (fnOf n fn).msix j = tget (fnOf s fn).msix j)))

/-- BAR2 reads give the ward's bytes at the aperture, and zero where it is closed; BAR2 writes change the bytes written and no other
where the range is mapped and writable, and set HOST_DMA where it is not; an improper BAR0 access sets HOST_DMA. -/
def Obligations.ApertureAndImproperAccesses : Prop :=
  (∀ s fn o len, Gives (.bar2Read fn o len) s (fun n =>
    n = { s with lastRead := n.lastRead, lastPoisoned := n.lastPoisoned } ∧
    n.lastRead = (if apertureOpen s fn then wardRead (wardOf s fn) (apertureAddr (fnOf s fn) o) len else List.replicate len 0))) ∧
  (∀ s fn o (data : Bytes), apertureOpen s fn = true → Mem.wf (wardOf s fn).mem = true → 0 < data.length →
    wardMapped (wardOf s fn) (apertureAddr (fnOf s fn) o) data.length true = true →
    Gives (.bar2Write fn o data) s (fun n => n = { s with wards := n.wards } ∧ (∀ w, w ≠ fn → wardOf n w = wardOf s w) ∧
      ∀ x, let a := apertureAddr (fnOf s fn) o
        wardByte (wardOf n fn) x = if a ≤ x ∧ x < a + data.length then data.getD (x - a) 0 else wardByte (wardOf s fn) x)) ∧
  (∀ s fn o (data : Bytes), Sized s → fn < 16 → apertureOpen s fn = true →
    wardMapped (wardOf s fn) (apertureAddr (fnOf s fn) o) data.length true = false →
    Gives (.bar2Write fn o data) s (fun n => n.wards = s.wards ∧ n.hostMem = s.hostMem ∧ errSet n fn 3)) ∧
  (∀ s fn w, Sized s → fn < 16 → barsOpen s fn = true →
    Gives (.bar0ImproperAccess fn w) s (fun n => n.wards = s.wards ∧ n.hostMem = s.hostMem ∧ errSet n fn 3 ∧
      (w = false → n.lastRead = List.replicate 8 0)))

/-! ## Fetch and completion of commands (11 R395, R397, R398, R405, R406) -/

/-- COMMAND_FETCH of a valid entry puts it in flight under the ring's next SEQ; a malformed entry completes with KW_BAD_ENTRY, and a failed
read with KW_HOST_ERROR, each having taken its index and SEQ. -/
def Obligations.CommandFetches : Prop :=
  ∀ s r g, canFetch s r = true → ringOf s r = some g → cmdOf s r g.nextSeq = none → Sized s →
    let e := hostRead s (g.sqBase + 64 * g.fetchHead) 64
    (entryBad s r e = none → Gives (.commandFetch r true) s (fun n =>
      n = { s with fns := n.fns, ctxs := n.ctxs } ∧ (∀ q, q ≠ r → ringOf n q = ringOf s q) ∧
      ringOf n r = some { g with fetchHead := (g.fetchHead + 1) % 2 ^ g.sqLog2, nextSeq := (g.nextSeq + 1) % 2 ^ 32
                                 cmds := g.cmds ++ [{ seq := g.nextSeq, entry := e }] })) ∧
    (∀ reason, entryBad s r e = some reason → Gives (.commandFetch r true) s (fun n =>
      Answered s n r { seq := g.nextSeq, entry := e } 0x20 reason ∧ n.wards = s.wards ∧ n.slots = s.slots)) ∧
    Gives (.commandFetch r false) s (fun n =>
      Answered s n r { seq := g.nextSeq, entry := List.replicate 64 0 } 0x2A 0 ∧ errSet n 0 3 ∧ HostMsg.aerHostAccess ∈ n.sent ∧
      n.wards = s.wards ∧ n.slots = s.slots)

/-- NOP and FENCE complete with KW_OK once they may (11 R406) and touch no ward, slot, task, hasp or head; a host transfer of a command
that fails completes it with KW_HOST_ERROR, sets HOST_DMA and reports it, a device write that fails sets HOST_DMA and reports it, and
a transfer that ends well changes nothing. Each message row takes the oldest message of its type from its port (12 R424–R433). -/
def Obligations.PlainCompletions : Prop :=
  (∀ s slot seq c, readyCmd (.ctx slot) seq 0x20 s = some c → Gives (.kwNop slot seq) s (fun n =>
    Answered s n (.ctx slot) c 0 0 ∧ n.wards = s.wards ∧ n.slots = s.slots ∧ n.tasks = s.tasks ∧ n.hasps = s.hasps ∧ n.heads = s.heads)) ∧
  (∀ s slot seq c, readyCmd (.ctx slot) seq 0x21 s = some c → Gives (.kwFence slot seq) s (fun n =>
    Answered s n (.ctx slot) c 0 0 ∧ n.wards = s.wards ∧ n.slots = s.slots ∧ n.tasks = s.tasks ∧ n.hasps = s.hasps ∧ n.heads = s.heads)) ∧
  (∀ s r seq c, Sized s → s.fw.running = true → s.fw.switching = false → cmdOf s r seq = some c → transfers s r seq c = true →
    Gives (.hostDmaComplete (.command r seq) true) s (fun n => n = s) ∧
    Gives (.hostDmaComplete (.command r seq) false) s (fun n => Answered s n r c 0x2A 0 ∧ errSet n 0 3 ∧ HostMsg.aerHostAccess ∈ n.sent ∧
      n.slots = s.slots ∧ n.tasks = s.tasks ∧ n.hasps = s.hasps)) ∧
  (∀ s, Sized s → Gives (.hostDmaComplete .deviceWrite true) s (fun n => n = s) ∧
    Gives (.hostDmaComplete .deviceWrite false) s (fun n => errSet n 0 3 ∧ HostMsg.aerHostAccess ∈ n.sent ∧
      n.wards = s.wards ∧ n.hostMem = s.hostMem ∧ n.tasks = s.tasks)) ∧
  (∀ s port m, ∀ c ∈ ([(0x01, .render port), (0x02, .pose port), (0x03, .slice port), (0x04, .sliceCredit port), (0x10, .remoteReq port),
      (0x11, .remoteRep port), (0x12, .inherit port), (0x13, .holderGone port)] : List (Nat × Instr)),
    (portOf s port).rx.head? = some m → mType m.hdr = c.1 →
    Gives c.2 s (fun n => (portOf n port).rx = (portOf s port).rx.drop 1 ∧ n.now = s.now))

/-! ## Wards and their memory (10 R345–R350, R377, R379) -/

/-- WARD_CONFIG puts an accepted block in force: an active ward holds a key, an inactive one neither key nor memory nor images, and no
other ward changes; a refused block changes no ward. WARD_RESET of a ward without contexts replaces its key, and nothing written
before can be read. MEMORY_GRANT moves granules from free memory to the spare pool, four chunks each. -/
def Obligations.WardCommands : Prop :=
  (∀ s fn seq c, Sized s → readyCmd (.admin fn) seq 0x01 s = some c →
    let b := hostRead s (entAddr0 c.entry) 16896
    let w := fld b 1 1
    (wardRefusal s b = none → Gives (.wardConfig fn seq) s (fun n => Answered s n (.admin fn) c 0 0 ∧
      (wardOf n w).cfg = wardCfgOf b ∧ (∀ v, v ≠ w → wardOf n v = wardOf s v) ∧
      (wardActive (wardCfgOf b) = true → (wardOf n w).key.isSome = true ∧ (wardOf n w).mem = (wardOf s w).mem) ∧
      (wardActive (wardCfgOf b) = false → (wardOf n w).key = none ∧ (wardOf n w).mem = [] ∧ (wardOf n w).images = []))) ∧
    (∀ off reason, wardRefusal s b = some (off, reason) → Gives (.wardConfig fn seq) s (fun n =>
      Answered s n (.admin fn) c 0x23 reason ∧ n.wards = s.wards))) ∧
  (∀ s fn seq c, Sized s → readyCmd (.admin fn) seq 0x02 s = some c → c.started = false →
    let w := entArg c.entry 0
    w < 16 → wardTearing s w = false → (wardOf s w).key.isSome = true →
    Gives (.wardReset fn seq) s (fun n => Answered s n (.admin fn) c 0 0 ∧ (wardOf n w).mem = [] ∧ (wardOf n w).images = [] ∧
      (wardOf n w).key = some s.nextSerial ∧ (wardOf n w).cfg = (wardOf s w).cfg ∧ (∀ v, v ≠ w → wardOf n v = wardOf s v))) ∧
  (∀ s fn seq c, Sized s → fn < 16 → readyCmd (.admin fn) seq 0x03 s = some c → (wardOf s fn).growthWait = [] →
    let k := entArg c.entry 0
    (entArg c.entry 1 % 2 = 0 → k ≤ freeGranules (wardOf s fn) → Gives (.memoryGrant fn seq) s (fun n =>
      Result s n (.admin fn) c (natLe 4 ((wardOf s fn).spare + 4 * k)) ∧ (wardOf n fn).spare = (wardOf s fn).spare + 4 * k ∧
      (wardOf n fn).mem = (wardOf s fn).mem ∧ ∀ v, v ≠ fn → wardOf n v = wardOf s v)) ∧
    (entArg c.entry 1 % 2 = 1 → 4 * k ≤ (wardOf s fn).spare → Gives (.memoryGrant fn seq) s (fun n =>
      Result s n (.admin fn) c (natLe 4 ((wardOf s fn).spare - 4 * k)) ∧ (wardOf n fn).spare = (wardOf s fn).spare - 4 * k ∧
      (wardOf n fn).mem = (wardOf s fn).mem ∧ ∀ v, v ≠ fn → wardOf n v = wardOf s v)))

/-! ## Contexts (10 R350–R354, R377; 11 R401, R404) -/

/-- CTX_CREATE takes the lowest FREE slot and makes it LIVE with the block, its ring and its rate of hasps; CTX_CONFIGURE replaces the
block but for its creation-only fields; CTX_DESTROY begins the teardown; TEARDOWN_COMPLETE frees the slot with the next generation,
or retires it at the last, and returns the context's memory. -/
def Obligations.ContextLifecycle : Prop :=
  (∀ s fn seq c slot, Sized s → fn < 16 → readyCmd (.admin fn) seq 0x04 s = some c →
    let b := hostRead s (entAddr0 c.entry) 256
    limitReached s fn = false → ctxBlockBad s { ward := fn } b = none → freeSlot s = some slot →
    Gives (.ctxCreate fn seq) s (fun n => Answered s n (.admin fn) c 0 0 ∧
      slotOf n slot = { slotOf s slot with state := .live, perfUser := false } ∧ (∀ i, i ≠ slot → slotOf n i = slotOf s i) ∧
      (∀ i, i ≠ slot → ctxOf n i = ctxOf s i) ∧ (∀ w, w ≠ fn → wardOf n w = wardOf s w) ∧
      ∃ x, ctxOf n slot = some x ∧ x.ward = fn ∧ x.gen = (slotOf s slot).gen ∧ x.cfg = b ∧ x.cfgInForce = b ∧
        x.ring = { live := true, sqBase := cbSqBase b, cqBase := cbCqBase b, sqLog2 := cbSqLog2 b, cqLog2 := cbCqLog2 b } ∧
        x.head = none ∧ x.image = none ∧ x.hasps.length = cbHasps b)) ∧
  (∀ s slot seq c x, readyCmd (.ctx slot) seq 0x22 s = some c → ctxOf s slot = some x →
    let b := keepCreation x.cfg (hostRead s (entAddr0 c.entry) 256)
    ctxBlockBad (chargeHost slot 256 0 s) (ctxEnv (chargeHost slot 256 0 s) slot x) b = none →
    Gives (.ctxConfigure slot seq) s (fun n => Answered s n (.ctx slot) c 0 0 ∧ n.slots = s.slots ∧
      (ctxOf n slot).map (·.cfg) = some b ∧ (ctxOf n slot).map (·.cfgInForce) = some x.cfgInForce ∧
      (ctxOf n slot).map (fun y => (y.ward, y.gen, y.head, y.image)) = some (x.ward, x.gen, x.head, x.image) ∧
      (∀ i, i ≠ slot → ctxOf n i = ctxOf s i))) ∧
  (∀ s fn seq c x, readyCmd (.admin fn) seq 0x05 s = some c → c.started = false →
    let slot := entArg c.entry 0
    slot < 1024 → (slotOf s slot).gen = entArg c.entry 1 → (slotOf s slot).state = .live → ctxOf s slot = some x → x.ward = fn →
    Gives (.ctxDestroy fn seq) s (fun n => (slotOf n slot).state = .teardown ∧
      ((ctxOf n slot).bind (·.fault)).map (·.isFault) = some false ∧ (∀ k ∈ n.tasks, k.2.slot ≠ slot) ∧
      (∀ i, i ≠ slot → slotOf n i = slotOf s i))) ∧
  (∀ s slot x, Sized s → (slotOf s slot).state = .teardown → s.fw.switching = false → ctxOf s slot = some x → x.ward < 16 →
    Gives (.teardownComplete slot) s (fun n =>
      (slotOf n slot).state = (if (slotOf s slot).gen = 0xFFFF then .retired else .free) ∧
      (slotOf n slot).gen = (if (slotOf s slot).gen = 0xFFFF then 0xFFFF else (slotOf s slot).gen + 1) ∧
      ∀ a ∈ (wardOf n x.ward).allocs, ofCtx slot a = false))

/-- HASP_GRANT gives another context of the ward an index for an own hasp; HASP_RELEASE gives up an own or granted hasp that the context
does not hold; ACCT_QUERY writes the context's account. -/
def Obligations.GrantsAndAccounts : Prop :=
  (∀ s slot seq c x id y h, readyCmd (.ctx slot) seq 0x2D s = some c → ctxOf s slot = some x →
    let g := entArg c.entry 1
    entArg c.entry 0 < 4096 → haspAt x (entArg c.entry 0) = some id → namedCtx s g (entArg c.entry 2) = some y → y.ward = x.ward →
    g ≠ slot → tget s.hasps id = some h → h.grants.length < 64 → y.granted.all (fun e => e.2 != id) = true →
    freeKeyFrom y.granted 4096 < 8192 →
    Gives (.haspGrant slot seq) s (fun n => Result s n (.ctx slot) c (natLe 4 (freeKeyFrom y.granted 4096)) ∧
      (ctxOf n g).map (·.granted) = some (tput y.granted (freeKeyFrom y.granted 4096) id) ∧
      tget n.hasps id = some { h with grants := h.grants ++ [(g, freeKeyFrom y.granted 4096)] } ∧ n.wards = s.wards ∧ n.slots = s.slots)) ∧
  (∀ s slot seq c x id h, readyCmd (.ctx slot) seq 0x2E s = some c → ctxOf s slot = some x →
    let i := entArg c.entry 0
    haspAt x i = some id → tget s.hasps id = some h → tgetD h.held slot 0 = 0 → h.parked = [] →
    Gives (.haspRelease slot seq) s (fun n => Answered s n (.ctx slot) c 0 0 ∧ n.wards = s.wards ∧ n.slots = s.slots ∧
      (i < 4096 → (ctxOf n slot).map (fun y => (y.hasps, y.granted)) = some (x.hasps.set i none, x.granted)) ∧
      (4096 ≤ i → (ctxOf n slot).map (fun y => (y.hasps, y.granted)) = some (x.hasps, tdel x.granted i)))) ∧
  (∀ s slot seq c x, readyCmd (.ctx slot) seq 0x35 s = some c → ctxOf s slot = some x →
    Gives (.acctQuery slot seq) s (fun n => Answered s n (.ctx slot) c 0 0 ∧ n.wards = s.wards ∧ n.slots = s.slots ∧
      ∀ g a, x.ring = g → Mem.wf s.hostMem = true → g.lostOwed = 0 → entAddr0 c.entry ≤ a → a < entAddr0 c.entry + 128 →
        (a < g.cqBase ∨ g.cqBase + 32 * 2 ^ g.cqLog2 ≤ a) →
        Mem.read n.hostMem a = (acctRecord s slot x.gen x.acct).getD (a - entAddr0 c.entry) 0))

/-! ## Images and copies (04 R144; 11 R388, Table 11-8) -/

/-- IMAGE_LOAD validates the image and maps it read-only under the lowest free handle; IMAGE_UNLOAD takes away one that nothing uses;
COPY moves bytes between host and ward memory, and leaves every other byte of the ward unchanged. -/
def Obligations.ImagesAndCopies : Prop :=
  (∀ s fn seq c, Sized s → fn < 16 → readyCmd (.admin fn) seq 0x06 s = some c →
    let len := entArg c.entry 0
    let b := hostRead s (entAddr0 c.entry) len
    let h := freeKeyFrom (wardOf s fn).images 1
    (imageReject b len = none → cdiv len (2 ^ 18) ≤ freeGranules (wardOf s fn) →
      Gives (.imageLoad fn seq) s (fun n => (∃ a, tget (wardOf n fn).images h = some { base := a, bytes := b } ∧
          Result s n (.admin fn) c (natLe 4 h ++ natLe 4 0 ++ natLe 6 a)) ∧
        (∀ j, j ≠ h → tget (wardOf n fn).images j = tget (wardOf s fn).images j) ∧
        (wardOf n fn).mem = (wardOf s fn).mem ∧ ∀ v, v ≠ fn → wardOf n v = wardOf s v)) ∧
    (∀ reason index, imageReject b len = some (reason, index) →
      Gives (.imageLoad fn seq) s (fun n => Answered s n (.admin fn) c 0x24 reason ∧ n.wards = s.wards))) ∧
  (∀ s fn seq c im, Sized s → fn < 16 → readyCmd (.admin fn) seq 0x07 s = some c →
    let h := entArg c.entry 0
    tget (wardOf s fn).images h = some im → imageInUse s fn h = false →
    Gives (.imageUnload fn seq) s (fun n => Answered s n (.admin fn) c 0 0 ∧ (wardOf n fn).images = tdel (wardOf s fn).images h ∧
      (∀ a ∈ (wardOf n fn).allocs, a.kind ≠ .image h) ∧ ∀ v, v ≠ fn → wardOf n v = wardOf s v)) ∧
  (∀ s slot seq c x, Sized s → readyCmd (.ctx slot) seq 0x2F s = some c → ctxOf s slot = some x → x.ward < 16 →
    let k := entArg c.entry 0; let src := entAddr0 c.entry; let dst := entAddr1 c.entry; let w := wardOf s x.ward
    (entArg c.entry 1 = 0 → 0 < k → ctxMapped w slot dst k true = true → Mem.wf w.mem = true →
      Gives (.copy slot seq) s (fun n => Answered s n (.ctx slot) c 0 0 ∧ (∀ v, v ≠ x.ward → wardOf n v = wardOf s v) ∧
        ∀ a, wardByte (wardOf n x.ward) a = if dst ≤ a ∧ a < dst + k then Mem.read s.hostMem (src + (a - dst)) else wardByte w a)) ∧
    (entArg c.entry 1 = 1 → ctxMapped w slot src k false = true → poisonIn w src k = none → Mem.wf s.hostMem = true →
      Gives (.copy slot seq) s (fun n => Answered s n (.ctx slot) c 0 0 ∧ n.wards = s.wards ∧
        ∀ a, x.ring.lostOwed = 0 → (a < x.ring.cqBase ∨ x.ring.cqBase + 32 * 2 ^ x.ring.cqLog2 ≤ a) →
          Mem.read n.hostMem a = if dst ≤ a ∧ a < dst + k then wardByte w (src + (a - dst)) else Mem.read s.hostMem a)) ∧
    (entArg c.entry 1 = 2 → 0 < k → ctxMapped w slot src k false = true → ctxMapped w slot dst k true = true → poisonIn w src k = none →
      Mem.wf w.mem = true →
      Gives (.copy slot seq) s (fun n => Answered s n (.ctx slot) c 0 0 ∧ (∀ v, v ≠ x.ward → wardOf n v = wardOf s v) ∧
        ∀ a, wardByte (wardOf n x.ward) a = if dst ≤ a ∧ a < dst + k then wardByte w (src + (a - dst)) else wardByte w a)))

/-! ## Ingest (02 R64–R78, R81–R83; 11 R399) -/

/-- A completed command: what `Answered` says, for a command that a packet carries. -/
def Sys2Proof.Say.CommandEnds (s n : State) (p : Packet) (code reason : Nat) : Prop :=
  ∀ i seq c, p.cmd = some (i, seq) → s.fw.running = true → s.fw.switching = false → cmdOf s (.ctx i) seq = some c →
    Answered s n (.ctx i) c code reason

/-- INGEST_RENDER and INGEST_POSE read their packet from host memory and put it in transit to their ward; a packet that names another
context completes with KW_BAD_ENTRY. PACKET_ARRIVAL puts a packet in transit into its ward's queue. -/
def Sys2Proof.Say.packetsArrive : Prop :=
  (∀ s slot seq c x, Sized s → ctxOf s slot = some x → x.ward < 16 → c.started = false → ingestTurn x.ring seq = true →
    ∀ q ∈ ([(Instr.ingestRender slot seq, 0x23, false), (.ingestPose slot seq, 0x24, true)] : List (Instr × Nat × Bool)),
    readyCmd (.ctx slot) seq q.2.1 s = some c →
    let b := hostRead s (entAddr0 c.entry) (if q.2.2 then 128 else entArg c.entry 0)
    let named := if q.2.2 then (posSlot b, posGen b) else (rpSlot b, rpGen b)
    (named = (slot, x.gen) → Gives q.1 s (fun n => n = { s with wards := n.wards, ctxs := n.ctxs } ∧
      (∀ w, w ≠ x.ward → wardOf n w = wardOf s w) ∧ (∀ i, i ≠ slot → ctxOf n i = ctxOf s i) ∧
      wardOf n x.ward = { wardOf s x.ward with
        transit := (wardOf s x.ward).transit ++ [{ pose := q.2.2, bytes := b, cmd := some (slot, seq) }] } ∧
      cmdOf n (.ctx slot) seq = some { c with started := true })) ∧
    (named ≠ (slot, x.gen) → Gives q.1 s (fun n => Answered s n (.ctx slot) c 0x20 0x02 ∧ n.wards = s.wards ∧ n.slots = s.slots))) ∧
  (∀ s ward index p, Sized s → ward < 16 → (wardOf s ward).transit[index]? = some p → inOrder (wardOf s ward) index p = true →
    let q := { p with arrival := s.now, size := p.bytes.length + ingestBytes s ward }
    (p.pose = false → Gives (.packetArrival ward index) s (fun n => n = { s with wards := n.wards, perf := n.perf } ∧
      (∀ w, w ≠ ward → wardOf n w = wardOf s w) ∧
      wardOf n ward = { wardOf s ward with
        transit := (wardOf s ward).transit.eraseIdx index, ingestQ := queueInsert q (wardOf s ward).ingestQ })) ∧
    (p.pose = true → Gives (.packetArrival ward index) s (fun n => n = { s with wards := n.wards, ctxs := n.ctxs, perf := n.perf } ∧
      (∀ w, w ≠ ward → wardOf n w = wardOf s w) ∧
      wardOf n ward = { wardOf s ward with
        transit := (wardOf s ward).transit.eraseIdx index, poseQ := queueInsert q (wardOf s ward).poseQ } ∧
      (∀ x, namedCtx s (posSlot p.bytes) (posGen p.bytes) = some x → x.ward = ward → poseOk p.bytes = true →
        ctxOf n (posSlot p.bytes) = some { x with ing := { x.ing with poses := x.ing.poses ++ [poseOf q] } }))))

/-- INGEST_CHECK takes the packet at the head of its ward's queue: one for a dead context is counted and dropped, one that fails a
packet-level check is answered with its reason and fills no set, and another takes the free set that was released earliest, which one
without a colour releases again. -/
def Sys2Proof.Say.packetsChecked : Prop :=
  ∀ s ward p r, Sized s → ward < 16 → (wardOf s ward).ingestQ = p :: r →
    let slot := rpSlot p.bytes
    ((∀ x, namedCtx s slot (rpGen p.bytes) = some x → x.ward ≠ ward) →
      Gives (.ingestCheck ward) s (fun n => n = { s with wards := n.wards } ∧
        ∃ a, wardOf n ward = { wardOf s ward with ingestQ := r, discards := (wardOf s ward).discards + 1, allocs := a })) ∧
    (∀ x, namedCtx s slot (rpGen p.bytes) = some x → x.ward = ward →
      (∀ reason, packetBad x p.bytes = some reason → Gives (.ingestCheck ward) s (fun n =>
        CommandEnds s n p 0x01 reason ∧ wardOf n ward = { wardOf s ward with ingestQ := r } ∧
        (ctxOf n slot).map (fun y => (y.ing.sets, y.ing.lite, y.ing.accepted)) = some (x.ing.sets, x.ing.lite, x.ing.accepted))) ∧
      (packetBad x p.bytes = none →
        let m := judgeMesh p.bytes (scanDir x.cfg p.bytes)
        let st := judgeHref x p.bytes m.2
        let b : BufferSet := fillSet s p st m.1
        Gives (.ingestCheck ward) s (fun n =>
          wardOf n ward = { wardOf s ward with ingestQ := r } ∧ (∀ w, w ≠ ward → wardOf n w = wardOf s w) ∧ n.slots = s.slots ∧
          ∃ y, ctxOf n slot = some y ∧ rpFrame p.bytes ∈ y.ing.accepted ∧ y.fr = x.fr ∧
            (b.hasColour = true → y.ing.sets = x.ing.sets.set ((freeSet x.ing).getD 0) b ∧ y.ing.lite = x.ing.lite) ∧
            (b.hasColour = false → y.ing.sets = x.ing.sets.set ((freeSet x.ing).getD 0) { freedAt := x.ing.releases } ∧
              y.ing.releases = x.ing.releases + 1 ∧ (rpFrame p.bytes, s.now) ∈ y.ing.missing ∧
              y.ing.lite = x.ing.lite ++ [{ b with accepted := liteOnly p.bytes b.accepted, mesh := none }]))))

/-- INGEST_DECODE_COMPLETE of a packet with its colour and no surface found missing, which no frame in progress was triggered by and
which is then the latest rendered frame: its set is full with the converted colour, what it brings comes into force, and its command completes. -/
def Sys2Proof.Say.packetsDecode : Prop :=
  ∀ s slot set x b, liveCtx s slot = some x → set < 4 → decodeTarget x set = some b → decodeTurn s x.ward b = true →
    curTriggeredBy x b.frame = false → b.hasColour = true →
    let p := b.packet.bytes
    let a := decodeAll p b.accepted
    let cam := packetCamera x p
    let keep := b.accepted
    let eff : Decoded := { a with good := a.good.filter (fun g => keep.contains g.1) }
    let g := comeIntoForce b.frame s.now b.primaries p keep eff x.ing
    (a.surface 1).isSome = true → a.bad = [] →
    latestRendered { g with past := g.past ++ [pastEntry x b true cam s.now] } = some b.frame →
    Gives (.ingestDecodeComplete slot set) s (fun n =>
      CommandEnds s n b.packet 0 0 ∧ n.tasks = s.tasks ∧ n.slots = s.slots ∧ n.heads = s.heads ∧ n.hasps = s.hasps ∧
      ∃ y, ctxOf n slot = some y ∧ (x.fr.cur = none → y.fr = x.fr) ∧ y.ing.past = x.ing.past ++ [pastEntry x b true cam s.now] ∧
        (y.ing.ui, y.ing.exposures, y.ing.hierRefs) = (g.ui, g.exposures, g.hierRefs) ∧
        ∃ q, y.ing.sets[set]? = some q ∧ q.use = .full ∧ q.frame = b.frame ∧ q.decoded = some s.now ∧
          q.colour = (((a.surface 1).map (fun e => convertColour e.1.fmt b.primaries b.transfer e.2)).getD {}) ∧
          q.depth = (a.surface 2).map (fun e => convertDepth b.depthReversed e.2))

/-- POSE_INGEST_COMPLETE takes the pose packet at the head of its ward's queue: one for a dead context is counted and dropped, one
that fails its checks is answered with POSE_CHECK, and otherwise the context's first pose that is not ingested now is. -/
def Sys2Proof.Say.posesIngested : Prop :=
  ∀ s ward p r, Sized s → ward < 16 → (wardOf s ward).poseQ = p :: r →
    let slot := posSlot p.bytes
    ((∀ x, namedCtx s slot (posGen p.bytes) = some x → x.ward ≠ ward) →
      Gives (.poseIngestComplete ward) s (fun n => n = { s with wards := n.wards } ∧
        ∃ a, wardOf n ward = { wardOf s ward with poseQ := r, discards := (wardOf s ward).discards + 1, allocs := a })) ∧
    (∀ x, namedCtx s slot (posGen p.bytes) = some x → x.ward = ward →
      (poseOk p.bytes = false → Gives (.poseIngestComplete ward) s (fun n => CommandEnds s n p 0x01 0x10 ∧
        wardOf n ward = { wardOf s ward with poseQ := r } ∧ (ctxOf n slot).map (·.ing) = some x.ing)) ∧
      (∀ i q, poseOk p.bytes = true → x.ing.poses.findIdx? (fun q => q.ingested.isNone) = some i → x.ing.poses[i]? = some q →
        Gives (.poseIngestComplete ward) s (fun n => CommandEnds s n p 0 0 ∧ wardOf n ward = { wardOf s ward with poseQ := r } ∧
          ∃ y, ctxOf n slot = some y ∧ y.ing.proj = q.proj.orElse (fun _ => x.ing.proj) ∧ y.fr = x.fr ∧
            (∀ j, j ≠ i → y.ing.poses[j]? = x.ing.poses[j]?) ∧
            (y.ing.poses[i]?).map (·.ingested) = some (some s.now) ∧
            (y.ing.poses[i]?).map (·.proj) = some (some ((q.proj.orElse (fun _ => x.ing.proj)).getD (cbProj x.cfg))))))

/-- Ingest: transfer, arrival, the checks, decoding, and poses. -/
def Obligations.Ingest : Prop := packetsArrive ∧ packetsChecked ∧ packetsDecode ∧ posesIngested

/-! ## Output frames (01 R24, R26, R36, R55; 08 R316) -/

/-- FRAME_START makes the frame that its trigger plans: the configuration comes into force, the frame number and slot advance, a pending
adapter set marked no later than its start becomes live, and a task is dealt for every tile. CUT_OFF marks the next frame's cut-off as passed, and nothing else. -/
def Obligations.FramesStart : Prop :=
  (∀ s slot h x p, liveCtx s slot = some x → x.head = some h → planFrame s slot x h = some p → x.fr.cur = none → p.t0 ≤ s.now →
    Gives (.frameStart slot) s (fun n => n.wards = s.wards ∧ n.slots = s.slots ∧ n.heads = s.heads ∧
      (∀ i, i ≠ slot → ctxOf n i = ctxOf s i) ∧
      (∃ y f, ctxOf n slot = some y ∧ y.fr.cur = some f ∧ y.cfgInForce = x.cfg ∧ y.fr.cut = false ∧
        y.fr.nextNumber = (x.fr.nextNumber + 1) % 2 ^ 32 ∧ y.fr.lastStarted = some x.fr.nextNumber ∧
        (y.fr.nextPlace, y.fr.nextRender) = (if x.fr.nextPlace = cbG x.cfg then (0, (x.fr.nextRender + 1) % 2 ^ 32)
          else (x.fr.nextPlace + 1, x.fr.nextRender)) ∧
        (y.ad.live, y.ad.ready) = (if byCycle x.ad.readyAt p.t0 then ((x.ad.ready.map (·.1)).getD x.ad.live, none)
          else (x.ad.live, x.ad.ready)) ∧
        (f.number, f.render, f.place) = (x.fr.nextNumber, x.fr.nextRender, x.fr.nextPlace) ∧
        (f.t0, f.kind, f.substituted, f.interpolated, f.own, f.base, f.phi) =
          (p.t0, p.kind, p.substituted, p.interpolated, p.own, p.base, p.phi) ∧
        (f.deadline, f.cutoff, f.config, f.image, f.head) = (p.deadline, p.cutoff, x.cfg, x.image, h) ∧
        f.tiles = List.replicate (tileCount x.cfg) {}) ∧
      ∀ i, i < tileCount x.cfg → ∃ id k, tget n.tasks id = some k ∧ k.slot = slot ∧ k.kind = .tile i ∧
        k.frame = some x.fr.nextNumber ∧ k.core = coreAtPos (groupMask s x.ward x.cfg) i ∧ k.lc = true ∧ k.deadline = keyOfHead p.deadline)) ∧
  (∀ s slot h x, liveCtx s slot = some x → x.head = some h → x.fr.cut = false →
    cutoffOf s slot x (headOf s h) x.fr.nextNumber (slotKindAt x.cfg x.fr.nextPlace) ≤ (s.now : Int) →
    Gives (.cutOff slot) s (fun n => n = { s with ctxs := n.ctxs } ∧ (∀ i, i ≠ slot → ctxOf n i = ctxOf s i) ∧
      ctxOf n slot = some { x with fr := { x.fr with cut := true } }))

/-! ## Geometry (06 R219–R244, R254) -/

/-- A context in a frame's geometry pass. -/
structure Sys2Proof.Say.InFrame (s : State) (slot : Nat) (x : Ctx) (f : Frame) : Prop where
  live : liveCtx s slot = some x
  cur : x.fr.cur = some f

/-- GEOMETRY_PASS_START fixes the frame's camera and deals its setup groups to the allotted front ends; in immediate mode it clears the
depth, object and motion planes, and the frame's bin tasks are not run. -/
def Sys2Proof.Say.geometryStarts : Prop :=
  ∀ s slot x f, InFrame s slot x f → f.geo.phase = .waiting → poseArrived x f = true → x.ward < 16 → Sized s →
    Mem.wf (wardOf s x.ward).mem = true →
    Gives (.geometryPassStart slot) s (fun n => n.slots = s.slots ∧ n.heads = s.heads ∧ n.hasps = s.hasps ∧
      (∀ w, w ≠ x.ward → wardOf n w = wardOf s w) ∧ (∀ i, i ≠ slot → ctxOf n i = ctxOf s i) ∧
      (∃ y g, ctxOf n slot = some y ∧ y.fr.cur = some g ∧ y.ing = x.ing ∧
        g = { fixCamera x f with geo := geoInit x (fixCamera x f) (!cbImmediate f.config) }) ∧
      (cbImmediate f.config = false → n.tasks = s.tasks ∧ n.cores = s.cores ∧ (wardOf n x.ward).mem = (wardOf s x.ward).mem) ∧
      (cbImmediate f.config = true → ∀ t ∈ n.tasks, ¬ (t.2.slot = slot ∧ t.2.frame = some f.number ∧ ∃ b, t.2.kind = .bin b)) ∧
      (cbImmediate f.config = true → ∀ a, a < 12 * (cbWidth f.config * cbHeight f.config) →
        Mem.read (wardOf n x.ward).mem (planeAddr s slot x.ward f.config 0 0 + a) =
          if a < 4 * (cbWidth f.config * cbHeight f.config) then (natLe 4 (farthest (frameReversed x f))).getD (a % 4) 0 else 0))

/-- FE_SETUP_GROUP takes the next group of the context that the front end serves: UI layers give the masks of the bins, and triangles
give setup records and bin entries while the pool has units, or batches in immediate mode. -/
def Sys2Proof.Say.groupsSetUp : Prop :=
  ∀ s fe slot x f rest, feNext s fe = some (slot, x) → InFrame s slot x f →
    let e := tgetD f.geo.fes fe {}
    (e.groups = none :: rest → Gives (.feSetupGroup fe) s (fun n =>
      n = { s with ctxs := n.ctxs, cores := n.cores, feLast := n.feLast, perf := n.perf } ∧ tget n.feLast fe = some slot ∧
      ∃ y g, ctxOf n slot = some y ∧ y.fr.cur = some g ∧ y.ing = x.ing ∧
        g = { f with geo := { f.geo with uiMasks := uiMasksOf f, fes := tput f.geo.fes fe { e with groups := rest } } })) ∧
    (∀ k, e.groups = some k :: rest →
      let subs := (List.range (min 256 (drawnTris x f - 256 * k))).flatMap (fun i => subTris (rasterIn x f) (256 * k + i))
      (f.geo.binMode = false → Gives (.feSetupGroup fe) s (fun n =>
        n = { s with ctxs := n.ctxs, cores := n.cores, feLast := n.feLast, perf := n.perf } ∧ tget n.feLast fe = some slot ∧
        ∃ y g, ctxOf n slot = some y ∧ y.fr.cur = some g ∧ y.ing = x.ing ∧
          tget g.geo.fes fe = some { groups := rest, writes := [], stopped := none, batches := e.batches ++ subs.flatMap (subBatches f.config) } ∧
          g.geo.units = f.geo.units ∧ g.tiles = f.tiles)) ∧
      (f.geo.binMode = true →
        let r := drainWrites fe (1024 * x.pool) (subs.flatMap (subWrites f.config)) f.geo 0
        r.2.1 = [] → Gives (.feSetupGroup fe) s (fun n =>
          n = { s with ctxs := n.ctxs, cores := n.cores, feLast := n.feLast, perf := n.perf } ∧ tget n.feLast fe = some slot ∧
          ∃ y g, ctxOf n slot = some y ∧ y.fr.cur = some g ∧ y.ing = x.ing ∧
            tget g.geo.fes fe = some { e with groups := rest, writes := [], stopped := none } ∧
            (g.geo.units, g.geo.lists, g.geo.entries) = (r.2.2.units, r.2.2.lists, r.2.2.entries))))

/-- POOL_GROWTH_COMPLETE adds the growth's chunks to the pool; BINNING_COMPLETE makes the bins available, and ends the pass of a
frame without primitives; SPLAT_COMPLETE holds the marks of the splatted frames' pixels. -/
def Sys2Proof.Say.passesGoOn : Prop :=
  (∀ s slot x k, liveCtx s slot = some x → s.fw.switching = false → x.growing = some k →
    Gives (.poolGrowthComplete slot) s (fun n => (ctxOf n slot).map (·.pool) = some (x.pool + k) ∧
      ((∀ f, x.fr.cur = some f → stoppedFes f.geo = []) → n = { s with ctxs := n.ctxs } ∧
        ctxOf n slot = some { x with pool := x.pool + k, growing := none } ∧ ∀ i, i ≠ slot → ctxOf n i = ctxOf s i))) ∧
  (∀ s slot x f, InFrame s slot x f → f.geo.phase = .running → f.geo.binned = false → feDone s slot f = true → f.geo.latches = [] →
    Gives (.binningComplete slot) s (fun n => n = { s with ctxs := n.ctxs, wards := n.wards } ∧ (∀ i, i ≠ slot → ctxOf n i = ctxOf s i) ∧
      (∀ w, w ≠ x.ward ∨ hasMeshPass f = true → wardOf n w = wardOf s w) ∧
      ∃ y g, ctxOf n slot = some y ∧ y.fr.cur = some g ∧ y.ing = x.ing ∧ g.geo.binned = true ∧ g.tiles = f.tiles ∧
        g.geo.binsDone = (if f.geo.binMode then f.geo.binsDone else List.range (binsX f.config * binsY f.config)) ∧
        (hasMeshPass f = true → g.geo.phase = .running ∧ g.geo.latches = []) ∧
        (hasMeshPass f = false → g.geo.phase = .complete ∧ g.geo.latches = List.range (tileCount f.config)))) ∧
  (∀ s slot x f, InFrame s slot x f → hasMeshPass f = true → f.geo.phase = .running → f.geo.splat = false →
    (splatted x f).all (fun b => (b.map (fun b => b.decoded.isSome)).getD false) = true →
    Gives (.splatComplete slot) s (fun n => n = { s with ctxs := n.ctxs, free := n.free } ∧ (∀ i, i ≠ slot → ctxOf n i = ctxOf s i) ∧
      ∃ y, ctxOf n slot = some y ∧ y.ing = x.ing ∧ y.fr.cur = some { f with geo := { f.geo with
        splat := true
        marks := (splatted x f).foldl (fun m b => match b with | some b => splatFrame x f b m | none => m) 0 } }))

/-- FRAGMENT_BATCH of immediate mode: the first batch of a bin makes its core the bin's owner; without a BLEND kernel a fragment alone
in its batch, at a pixel that holds none, writes the three planes, and with one the batch becomes a task of one thread. -/
def Sys2Proof.Say.batchesBlend : Prop :=
  ∀ s slot fe core x f e b rest, InFrame s slot x f → tget f.geo.fes fe = some e → e.batches = b :: rest →
    f.geo.phase = .running → f.geo.binMode = false → (coreOf s core).mode = .running →
    (tget f.geo.owners b.bin = some core ∨
      tget f.geo.owners b.bin = none ∧ f.group.testBit core = true) →
    let sent := fun (n : State) => ∃ y g, ctxOf n slot = some y ∧ y.fr.cur = some g ∧ y.ing = x.ing ∧
      tget g.geo.owners b.bin = some core ∧ tget g.geo.fes fe = some { e with batches := rest }
    (blendKernel s x f = none → Gives (.fragmentBatch slot fe core) s (fun n => sent n ∧ n.tasks = s.tasks ∧ n.slots = s.slots ∧
      (∀ w, w ≠ x.ward → wardOf n w = wardOf s w) ∧
      ∀ px q k, b.px = [px] → b.sub.frag (px % cbWidth f.config) (px / cbWidth f.config) = some q →
        q.py * cbWidth f.config + q.px = px → tget f.geo.keys px = none → k < 3 → 0 < cbWidth f.config * cbHeight f.config →
        Sized s → x.ward < 16 → Mem.wf (wardOf s x.ward).mem = true →
        Mem.readN (wardOf n x.ward).mem (planeAddr s slot x.ward f.config k px) 4 = natLe 4 ((fragCodes b.sub q).getD k 0))) ∧
    (∀ k, blendKernel s x f = some k → b.sub.occluder = false → roomFor s core 1 k.2.2.vregs (cdiv k.2.2.store 4096) = true →
      Gives (.fragmentBatch slot fe core) s (fun n => sent n ∧ n.wards = s.wards ∧ n.slots = s.slots ∧ n.nextTask = s.nextTask + 1 ∧
        ∃ t, tget n.tasks s.nextTask = some t ∧ t.kind = .blend b.bin none ∧ t.core = core ∧ t.started = true ∧ t.threads = 1 ∧
          t.code = .kernel k.1 k.2.1 ∧ t.slot = slot ∧ t.frame = some f.number))

/-- The geometry pass: its start, setup and binning, the pool, batches, the splat and the end of binning. -/
def Obligations.Geometry : Prop := geometryStarts ∧ groupsSetUp ∧ passesGoOn ∧ batchesBlend

/-! ## Rays and hierarchies (06 R245–R254; 11 Table 11-8) -/

/-- RAY_TASK_START casts the tile's rays and writes its disocclusion values, with HIT tasks only where the context names a HIT kernel;
RAY_TASK_COMPLETE ends the task and sets the tile's geometry latch, the pass being complete with the last one. -/
def Sys2Proof.Say.raysRun : Prop :=
  (∀ s slot tile x f t, InFrame s slot x f → taskOf s slot f (.ray tile) = some t → t.2.started = true → tile ∉ f.geo.rays →
    rayReady f tile = true → (frameHier x f = none ∨ rtuList s x.ward f ≠ []) →
    let rays := match frameHier x f with | some h => castRays s slot x f h tile | none => []
    (∀ h, frameHier x f = some h → rays = [] ∨ poisonIn (wardOf s x.ward) h.base h.bytes.length = none) →
    Gives (.rayTaskStart slot tile) s (fun n => n.slots = s.slots ∧ n.heads = s.heads ∧ n.hasps = s.hasps ∧
      (∀ i, i ≠ slot → ctxOf n i = ctxOf s i) ∧
      (∃ y, ctxOf n slot = some y ∧ y.ing = x.ing ∧ y.fr.cur = some { f with geo := { f.geo with rays := f.geo.rays ++ [tile] } }) ∧
      (frameHier x f = none ∨ cbHit f.config = 0xFFFF → n.tasks = s.tasks ∧ n.cores = s.cores) ∧
      (Sized s → x.ward < 16 → Mem.wf (wardOf s x.ward).mem = true →
        Mem.readN (wardOf n x.ward).mem (disoccAddr s slot x.ward f.config tile 0) 24576 =
          disoccBytes x f (disoccluded s slot x f tile) rays))) ∧
  (∀ s slot tile x f t, InFrame s slot x f → taskOf s slot f (.ray tile) = some t → tile ∈ f.geo.rays →
    taskOf s slot f (.hit tile) = none →
    Gives (.rayTaskComplete slot tile) s (fun n =>
      n = { s with free := n.free, ctxs := n.ctxs, cores := n.cores, tasks := n.tasks } ∧ TaskGone s n t.1 ∧
      (∀ i, i ≠ slot → ctxOf n i = ctxOf s i) ∧
      ∃ y g, ctxOf n slot = some y ∧ y.fr.cur = some g ∧ y.ing = x.ing ∧ tile ∈ g.geo.latches ∧ g.tiles = f.tiles ∧
        (tile ∉ f.geo.latches → f.geo.latches.length + 1 = tileCount f.config → g.geo.phase = .complete)))

/-- HIER_LOAD validates a hierarchy and maps it under the lowest free handle with the next generation, four at most; HIER_UNLOAD takes
away one that no frame in progress uses, and otherwise waits. -/
def Sys2Proof.Say.hierarchies : Prop :=
  (∀ s slot seq c x, Sized s → readyCmd (.ctx slot) seq 0x26 s = some c → ctxOf s slot = some x → x.ward < 16 →
    let len := entArg c.entry 0
    let b := hostRead s (entAddr0 c.entry) len
    (∀ reason, hierReject b len = some reason →
      Gives (.hierLoad slot seq) s (fun n => Answered s n (.ctx slot) c 0x26 reason ∧ n.wards = s.wards ∧
        (ctxOf n slot).map (·.hiers) = some x.hiers)) ∧
    (hierReject b len = none → 4 ≤ x.hiers.length →
      Gives (.hierLoad slot seq) s (fun n => Answered s n (.ctx slot) c 0x28 0x02 ∧ n.wards = s.wards ∧
        (ctxOf n slot).map (·.hiers) = some x.hiers)) ∧
    (hierReject b len = none → x.hiers.length < 4 → cdiv len (2 ^ 18) ≤ freeGranules (wardOf s x.ward) →
      let h := freeKeyFrom x.hiers 1
      Gives (.hierLoad slot seq) s (fun n => Result s n (.ctx slot) c (natLe 4 h ++ natLe 2 (x.nextHier % 65536)) ∧
        (∀ w, w ≠ x.ward → wardOf n w = wardOf s w) ∧ (wardOf n x.ward).mem = (wardOf s x.ward).mem ∧
        ∃ y q, ctxOf n slot = some y ∧ y.hiers = tput x.hiers h q ∧ y.nextHier = x.nextHier + 1 ∧
          q.gen = x.nextHier % 65536 ∧ q.bytes = b ∧ q.unloading = false))) ∧
  (∀ s slot seq c x q, readyCmd (.ctx slot) seq 0x27 s = some c → ctxOf s slot = some x → c.started = false →
    let h := entArg c.entry 0
    tget x.hiers h = some q → q.gen = entArg c.entry 1 → (∀ e ∈ x.hiers, e.2.unloading = false) →
    (∀ d ∈ x.ring.cmds, entOpcode d.entry = 0x27 → d.started = false) →
    let used := (x.fr.cur.bind (·.hier)).map (fun r => (r.2.1, r.2.2)) = some (h, q.gen)
    (¬ used → Gives (.hierUnload slot seq) s (fun n => Answered s n (.ctx slot) c 0 0 ∧ n.slots = s.slots ∧
      (ctxOf n slot).map (·.hiers) = some (tdel (tput x.hiers h { q with unloading := true }) h) ∧
      ∀ a ∈ (wardOf n x.ward).allocs, a.kind ≠ .hierarchy slot h)) ∧
    (used → Gives (.hierUnload slot seq) s (fun n => n = { s with ctxs := n.ctxs } ∧
      cmdOf n (.ctx slot) seq = some { c with started := true, aux := h } ∧
      (ctxOf n slot).map (·.hiers) = some (tput x.hiers h { q with unloading := true })))) ∧
  (∀ s slot seq c x, readyCmd (.ctx slot) seq 0x27 s = some c → ctxOf s slot = some x → c.started = false →
    tget x.hiers (entArg c.entry 0) = none →
    Gives (.hierUnload slot seq) s (fun n => Answered s n (.ctx slot) c 0x28 0x03 ∧ n.wards = s.wards))

/-- Ray tasks, and the hierarchies that they walk. -/
def Obligations.RaysAndHierarchies : Prop := raysRun ∧ hierarchies

/-! ## Tasks on cores (10 R356–R363; 04 R159; 10 R364) -/

/-- A task has been admitted on a core: it holds its resources, its threads stand in slots that were free, at its entry, and no other
thread of any core changes; the threads of a task taken back from a thief of the same fabric cycle are gone from there. -/
structure Sys2Proof.Say.Admitted (s n : State) (core id : Nat) (t : Task) : Prop where
  task : ∃ k, tget n.tasks id = some k ∧ k.slot = t.slot ∧ k.gen = t.gen ∧ k.kind = t.kind ∧ k.frame = t.frame ∧ k.core = core ∧
    k.started = true ∧ (k.threads, k.vregs, k.size) = taskSize s t
  threads : ∀ i, i < (taskSize s t).1 → ∃ j th, tget (coreOf s core).threads j = none ∧ j < 64 ∧
    tget (coreOf n core).threads j = some th ∧ th.task = id ∧ th.index = i ∧ th.pc = entryOf_ s t
  others : (∀ q, tget s.tasks id = some q → q.started = false) →
    ∀ j th, tget (coreOf s core).threads j = some th → tget (coreOf n core).threads j = some th
  cores : (∀ q, tget s.tasks id = some q → q.started = false) → ∀ c, c ≠ core → coreOf n c = coreOf s c
  back : ∀ q, tget s.tasks id = some q → q.started = true → ∀ c, c ≠ core → ∀ th ∈ (coreOf n c).threads, th.2.task ≠ id
  tasks : ∀ i k, i ≠ id → tget s.tasks i = some k → ∃ q, tget n.tasks i = some q ∧ q = { k with inheritKey := q.inheritKey }
  rest : n.slots = s.slots ∧ n.heads = s.heads ∧ n.hostMem = s.hostMem
  tile : ∀ i x f, t.kind = .tile i → ctxOf s t.slot = some x → x.fr.cur = some f → i < f.tiles.length →
    ∃ y g, ctxOf n t.slot = some y ∧ y.fr.cur = some g ∧ (g.tiles[i]?).map (fun q => (q.started, q.rung)) = some (true, tileRung f s.now i)

/-- TASK_ADMIT starts the first task of the core's deque that is admissible and fits; STEAL starts one of the nearest core that has one, or
the core begins to wait; STEAL_WAIT_EXPIRY ends the wait. -/
def Sys2Proof.Say.tasksStart : Prop :=
  (∀ s core id t, core < coreCount s → (coreOf s core).mode = .running → firstFit s core core (fun _ => true) = some (id, t) →
    Gives (.taskAdmit core) s (fun n => Admitted s n core id t)) ∧
  (∀ s core wd, core < coreCount s → wardOfCore s core = some wd → (coreOf s core).mode = .running → (coreOf s core).stealWait = none →
    firstFit s core core (fun _ => true) = none →
    let near := nearCores s wd core
    (∀ i id t, near.findIdx? (fun v => (firstFit s v core (mayTake s wd core)).isSome) = some i →
      firstFit s (near.getD i 0) core (mayTake s wd core) = some (id, t) → Gives (.steal core) s (fun n => Admitted s n core id t)) ∧
    ((∀ v ∈ near, firstFit s v core (mayTake s wd core) = none) → Gives (.steal core) s (fun n =>
      n = { s with cores := n.cores, perf := n.perf } ∧ (∀ c, c ≠ core → coreOf n c = coreOf s c) ∧
      coreOf n core = { coreOf s core with stealWait := some s.now }))) ∧
  (∀ s core t, (coreOf s core).stealWait = some t → t + 2048 * coreDiv (corePoint s core) ≤ s.now →
    Gives (.stealWaitExpiry core) s (fun n => n = { s with cores := n.cores } ∧ (∀ c, c ≠ core → coreOf n c = coreOf s c) ∧
      coreOf n core = { coreOf s core with stealWait := none }))

/-- QUANTUM_BOUNDARY passes a core to the next context with LC-level work there after the one that owned it last, once the quantum is over
or its owner has no task left; the quantum that begins has the ward's present length. -/
def Sys2Proof.Say.quanta : Prop :=
  ∀ s core w, core < coreCount s → wardOfCore s core = some w →
    let c := coreOf s core
    (match c.owner with
      | some k => (∀ t ∈ startedOn s core, t.2.slot ≠ k) ∨ c.quantumStart + quantumOf s core ≤ s.now
      | none => c.quantumStart + quantumOf s core ≤ s.now ∧ (nextOwner s core c.lastOwner).isSome = true) →
    Gives (.quantumBoundary core) s (fun n => n = { s with cores := n.cores } ∧ (∀ i, i ≠ core → coreOf n i = coreOf s i) ∧
      coreOf n core = { c with owner := nextOwner s core c.lastOwner, lastOwner := (nextOwner s core c.lastOwner).getD c.lastOwner
                               quantumStart := s.now, quantum := (wardOf s w).cfg.quantum })

/-- STRIPE_TASK_COMPLETE and DETECT_JOB_COMPLETE: where the ward has no uncorrectable line, the stripe, or the detection layer, is made,
and its latch is set unless its tensor's scale is delayed; the task or job is gone. -/
def Sys2Proof.Say.stripesEnd : Prop :=
  (∀ s core task t i j x k r, tget s.tasks task = some t → t.kind = .stripe i j → t.core = core → t.started = true →
    allEnded s task t = true → ctxOf s t.slot = some x → runOfStripe s x i = some (k, r) → tget x.runs k = some r →
    (wardOf s x.ward).poisoned = [] →
    let e := runEnv x (runImage s x.ward r) r
    layerSkew e (e.ls.getD i {}) = none →
    Gives (.stripeTaskComplete core task) s (fun n => n.slots = s.slots ∧ n.heads = s.heads ∧ HaspsStand s n ∧
      TaskGone s n task ∧ (∀ i, i ≠ t.slot → ctxOf n i = ctxOf s i) ∧
      ∃ y q, ctxOf n t.slot = some y ∧ tget y.runs k = some q ∧ tgetD q.made i 0 = tgetD r.made i 0 ||| 2 ^ j ∧
        ((e.t (e.ls.getD i {}).out).delayed = false → tgetD q.latches i 0 = tgetD r.made i 0 ||| 2 ^ j))) ∧
  (∀ s unit d, s.detect.find? (fun d => d.unit == some unit) = some d →
    (namedCtx s d.slot d.gen = none → Gives (.detectJobComplete unit) s (fun n => n = { s with detect := n.detect, perf := n.perf })) ∧
    (∀ x r, namedCtx s d.slot d.gen = some x → tget x.runs d.net = some r → (wardOf s x.ward).poisoned = [] →
      let e := runEnv x (runImage s x.ward r) r
      layerSkew e (e.ls.getD d.layer {}) = none →
      Gives (.detectJobComplete unit) s (fun n => n.slots = s.slots ∧ n.heads = s.heads ∧ HaspsStand s n ∧
        (∀ i q, tget s.tasks i = some q → ∃ p, tget n.tasks i = some p ∧ p = { q with inheritKey := p.inheritKey }) ∧
        ∃ y q, ctxOf n d.slot = some y ∧ tget y.runs d.net = some q ∧ tgetD q.made d.layer 0 = tgetD r.made d.layer 0 ||| 1)))

/-- Tasks start, are stolen, share their core by quanta, and end. -/
def Obligations.Tasks : Prop := tasksStart ∧ quanta ∧ stripesEnd

/-! ## The Detent (10 R370–R375; 08 R297) -/

/-- DETENT_CHECK lowers the frame's rung to the first whose projection fits, never raises it, and sets the comparator of its head to the
latest instant at which rung 3 still fits, or clears it; for an A frame at risk the captures not started are abandoned.
DETENT_COMPARATOR makes a checkpoint due for the frames watched against its head. -/
def Obligations.Detent : Prop :=
  (∀ s slot x f, InFrame s slot x f → f.checkDue = true ∨ f.seen ≠ detentTerms s slot x f →
    let watch := fun (n : State) (c : Option Nat) => n.slots = s.slots ∧ n.hasps = s.hasps ∧
      (∀ i, i ≠ slot → ctxOf n i = ctxOf s i) ∧ (∀ h, h ≠ f.head → headOf n h = headOf s h) ∧
      headOf n f.head = { headOf s f.head with detentAt := c }
    let checked := fun (n : State) (rung : Nat) => ∃ y g, ctxOf n slot = some y ∧ y.fr.cur = some g ∧ y.ing = x.ing ∧
      g.checkDue = false ∧ g.seen = detentTerms s slot x f ∧ g.rung = rung ∧ g.tiles = f.tiles ∧ g.geo = f.geo
    (f.held.isSome = true ∨ cbReplay f.config = true ∨ f.cutoff < (f.t0 : Int) ∨ unstarted s slot f = 0 →
      Gives (.detentCheck slot) s (fun n => watch n none ∧ checked n f.rung ∧ n.tasks = s.tasks ∧ n.wards = s.wards)) ∧
    (f.held = none → cbReplay f.config = false → (f.t0 : Int) ≤ f.cutoff → unstarted s slot f ≠ 0 →
      let z := Q.ofInt (lastStart s f)
      let p3 := projection s slot x f 3
      (f.kind = .a → Q.lt z p3 = false → Gives (.detentCheck slot) s (fun n => watch n none ∧ checked n f.rung ∧ n.tasks = s.tasks)) ∧
      (f.kind = .a → Q.lt z p3 = true → Gives (.detentCheck slot) s (fun n => watch n none ∧
        (captureTasks n slot f false).map (·.1) = [] ∧ checked n f.rung)) ∧
      (f.kind ≠ .a → f.geo.waitsGrant = false → f.geo.grantedAt ≠ some s.now →
        let k := fitRung (lastStart s f) (projection s slot x f) f.rung
        let c := Q.sub z (Q.sub p3 (Q.ofInt s.now))
        Gives (.detentCheck slot) s (fun n => n.tasks = s.tasks ∧ n.wards = s.wards ∧ checked n (max k f.rung) ∧
          watch n (if k < 3 ∧ Q.lt (Q.ofInt s.now) c = true then some (Q.ceil c).toNat else none))))) ∧
  (∀ s head c, (headOf s head).detentAt = some c → c ≤ s.now →
    Gives (.detentComparator head) s (fun n => n = { s with ctxs := n.ctxs, heads := n.heads } ∧
      headOf n head = { headOf s head with detentAt := none } ∧ (∀ h, h ≠ head → headOf n h = headOf s h) ∧
      ∀ slot x f, InFrame s slot x f → f.head = head → ∃ y, ctxOf n slot = some y ∧ y.fr.cur = some { f with checkDue := true }))

/-! ## Online adaptation (08 R287–R318; 11 Table 11-8) -/

/-- CAPTURE_TASK copies its patch into staging, in order, and ends. -/
def Sys2Proof.Say.captures : Prop :=
  ∀ s slot p x t f img, liveCtx s slot = some x →
    s.tasks.find? (fun t => t.2.slot == slot && t.2.kind == .capture p && t.2.started) = some t →
    anchorFrame x (t.2.frame.getD 0) = some f → frameImage s x f = some img →
    Gives (.captureTask slot p) s (fun n =>
      n = { s with free := n.free, ctxs := n.ctxs, cores := n.cores, tasks := n.tasks } ∧ TaskGone s n t.1 ∧
      (∀ i, i ≠ slot → ctxOf n i = ctxOf s i) ∧ ∃ y, ctxOf n slot = some y ∧ y.fr = x.fr ∧ y.ad = { x.ad with
        staging := x.ad.staging.map (fun a => if a.frame = f.number
          then { a with left := a.left - 1, lastAt := s.now, patches := insertPatch (capturePatch s slot x f img p) a.patches } else a) })

/-- IMAGE_BIND puts an image's initial adapters in force with an empty sample store, or refuses it and binds nothing. -/
def Sys2Proof.Say.imagesBind : Prop :=
  ∀ s slot seq c x im, readyCmd (.ctx slot) seq 0x25 s = some c → ctxOf s slot = some x →
    let h := entArg c.entry 0
    tget (wardOf s x.ward).images h = some im →
    (∀ code reason off, bindBad s slot x im.bytes = some (code, reason, off) →
      Gives (.imageBind slot seq) s (fun n => Answered s n (.ctx slot) c code reason ∧ n.wards = s.wards ∧ n.tasks = s.tasks ∧
        (ctxOf n slot).map (fun y => (y.image, y.ad)) = some (x.image, x.ad))) ∧
    (bindBad s slot x im.bytes = none →
      Gives (.imageBind slot seq) s (fun n => (degenerates im.bytes = [] → Answered s n (.ctx slot) c 0 0) ∧
        cmdOf n (.ctx slot) seq = none ∧ n.slots = s.slots ∧ n.heads = s.heads ∧
        (∀ t ∈ n.tasks, ¬ (t.2.slot = slot ∧ ∃ k, t.2.kind = .train k)) ∧
        ∃ y, ctxOf n slot = some y ∧ y.image = some h ∧ y.hist = [] ∧ y.ing = x.ing ∧
          (y.ad.live, y.ad.master, y.ad.digest) = (initialSet im.bytes, initialSet im.bytes, adapterDigestOf (initialSet im.bytes)) ∧
          (y.ad.store, y.ad.staging, y.ad.t, y.ad.ready, y.ad.running) = ([], [], 0, none, none)))

/-- STEP_BOUNDARY puts the parameters in force, takes waiting TRAIN_CONTROL commands, makes a due publish, and begins the next step when
adaptation is on and the store holds a batch; with adaptation off no step runs and staging is empty. -/
def Sys2Proof.Say.boundaries : Prop :=
  ∀ s slot x, liveCtx s slot = some x → x.ad.running = none ∨ cbAdapt x.cfg = false →
    Gives (.stepBoundary slot) s (fun n => n.slots = s.slots ∧ n.heads = s.heads ∧
      (∀ w, ({ wardOf n w with poisoned := [] } : Ward) = { wardOf s w with poisoned := [] }) ∧
      (∀ i, i ≠ slot → ctxOf n i = ctxOf s i) ∧
      ∃ y, ctxOf n slot = some y ∧ y.ad.block = x.cfg ∧ y.fr = x.fr ∧ (y.ad.live, y.ad.master, y.ad.step) = (x.ad.live, x.ad.master, x.ad.step) ∧
        (cbAdapt x.cfg = false → y.ad.running = none ∧ y.ad.staging = []) ∧
        (x.ad.due = true → y.ad.due = false ∧ y.ad.ready = some (x.ad.master, adapterDigestOf x.ad.master, x.ad.step)) ∧
        (x.ad.due = false → y.ad.due = false ∧ y.ad.ready = x.ad.ready) ∧
        (∀ c, waitingCmds x 0x34 = [c] → y.ad.paused = (entArg c.entry 0 % 2 == 1) ∧ cmdOf n (.ctx slot) c.seq = none) ∧
        (waitingCmds x 0x34 = [] → y.ad.paused = x.ad.paused) ∧
        (∀ img k net, boundImage s x = some img → trainNet img x.cfg = some (k, net) → cbAdapt x.cfg = true → cbLockstep x.cfg = false →
          x.ad.block = x.cfg → x.ad.running = none → x.ad.staging = [] → x.ad.paused = false → waitingCmds x 0x34 = [] →
          x.ad.due = false → cbBatch x.cfg ≤ validSlots x.ad →
          let q := assemble s slot x.ward img x.cfg x.ad
          y.ad.running = some { block := x.cfg, batch := q.got, short := q.short } ∧
            n.nextTask = s.nextTask + (if q.short then 0 else 4 * (q.got.filterMap id).length)))

/-- TRAINING_STEP_COMPLETE, where the ward has no uncorrectable line: an applied step changes weights and moments, and every step advances
the step number; its tasks are gone. -/
def Sys2Proof.Say.stepsEnd : Prop :=
  ∀ s slot x st img k net, liveCtx s slot = some x → x.ad.running = some st → cbAdapt x.cfg = true → boundImage s x = some img →
    trainNet img st.block = some (k, net) → (wardOf s x.ward).poisoned = [] →
    (∀ t ∈ s.tasks, t.2.slot = slot → (∃ j, t.2.kind = .train j) → t.2.started = true ∧ allEnded s t.1 t.2 = true) →
    let a := x.ad
    let mine := s.tasks.filter (fun t => t.2.slot == slot && (match t.2.kind with | .train _ => true | _ => false))
    let customs := fun k => ((mine.find? (fun t => t.2.index == k)).map (·.2.customs)).getD []
    let copies := (((wardOf s x.ward).allocs.find? (fun q => q.kind == .copies slot)).map (·.content)).getD []
    let r := runStep st.block img copies net a.hist customs a.step (if st.short then [] else st.batch.filterMap id) (learnedOf a)
    let after := { a with running := none, step := (a.step + 1) % 2 ^ 32, sinceCommit := a.sinceCommit + 1 }
    Gives (.trainingStepComplete slot) s (fun n =>
      n = { s with free := n.free, wards := n.wards, ctxs := n.ctxs, cores := n.cores, tasks := n.tasks } ∧
      (∀ t ∈ n.tasks, ¬ (t.2.slot = slot ∧ ∃ j, t.2.kind = .train j)) ∧ (∀ i, i ≠ slot → ctxOf n i = ctxOf s i) ∧
      ∃ y, ctxOf n slot = some y ∧ y.fr = x.fr ∧
        (match r.1 with
         | .applied l => (y.ad.master, y.ad.mCodes, y.ad.mScales, y.ad.vCodes, y.ad.vScales) =
             (l.master, l.m.codes, l.m.scales, l.v.codes, l.v.scales) ∧ (y.ad.p1, y.ad.p2) = (l.p1, l.p2) ∧ y.ad.t = a.t + 1 ∧
             (y.ad.running, y.ad.step, y.ad.live, y.ad.store) = (none, (a.step + 1) % 2 ^ 32, a.live, a.store)
         | _ => y.ad = after))

/-- The commands of adaptation: a publish and a pause wait for the next boundary, a loaded set replaces the weights, an export writes the
live set, and a cleared store holds nothing. -/
def Sys2Proof.Say.adaptationCommands : Prop :=
  ∀ s slot seq c x, ctxOf s slot = some x →
    let waits := fun (n : State) => n.slots = s.slots ∧ n.wards = s.wards ∧ n.hostMem = s.hostMem ∧
      (∀ i, i ≠ slot → ctxOf n i = ctxOf s i) ∧ cmdOf n (.ctx slot) seq = some { c with started := true }
    (readyCmd (.ctx slot) seq 0x30 s = some c → c.started = false →
      (x.image = none → Gives (.adaptPublish slot seq) s (fun n => Answered s n (.ctx slot) c 0x28 0x01 ∧ n.wards = s.wards)) ∧
      (x.image ≠ none → cbReplay x.cfgInForce = true → Gives (.adaptPublish slot seq) s (fun n =>
        Result s n (.ctx slot) c x.ad.digest ∧ (ctxOf n slot).map (·.ad) = some x.ad)) ∧
      (x.image ≠ none → cbReplay x.cfgInForce = false → Gives (.adaptPublish slot seq) s (fun n => waits n ∧
        (ctxOf n slot).map (·.ad) = some { x.ad with due := true }))) ∧
    (∀ img, readyCmd (.ctx slot) seq 0x31 s = some c → c.started = false → boundImage s x = some img →
      let k := totalElements img
      (k = 0 ∨ entArg c.entry 0 ≠ 2 * k → Gives (.adapterLoad slot seq) s (fun n => Answered s n (.ctx slot) c 0x20 0x06 ∧
        (ctxOf n slot).map (·.ad) = some x.ad)) ∧
      (k ≠ 0 → entArg c.entry 0 = 2 * k → Gives (.adapterLoad slot seq) s (fun n => waits n ∧
        let set := (List.range k).map (fun i => fld (hostRead s (entAddr0 c.entry) (2 * k)) (2 * i) 2)
        (ctxOf n slot).map (·.ad) = some { startFrom set { x.ad with running := none } with due := true }))) ∧
    (readyCmd (.ctx slot) seq 0x32 s = some c →
      (x.image = none → Gives (.adapterExport slot seq) s (fun n => Answered s n (.ctx slot) c 0x28 0x01 ∧ n.wards = s.wards)) ∧
      (x.image ≠ none → Gives (.adapterExport slot seq) s (fun n => Answered s n (.ctx slot) c 0 0 ∧
        (ctxOf n slot).map (·.ad) = some x.ad ∧ n.wards = s.wards ∧
        let b := bfBytes x.ad.live
        ∀ a, Mem.wf s.hostMem = true → x.ring.lostOwed = 0 → entAddr0 c.entry ≤ a → a < entAddr0 c.entry + b.length →
          (a < x.ring.cqBase ∨ x.ring.cqBase + 32 * 2 ^ x.ring.cqLog2 ≤ a) →
          Mem.read n.hostMem a = b.getD (a - entAddr0 c.entry) 0))) ∧
    (readyCmd (.ctx slot) seq 0x33 s = some c → Gives (.storeClear slot seq) s (fun n => Answered s n (.ctx slot) c 0 0 ∧
      (ctxOf n slot).map (·.ad) = some (clearStore (x.ad.epoch + 1) x.ad) ∧ n.wards = s.wards ∧ n.slots = s.slots)) ∧
    (readyCmd (.ctx slot) seq 0x34 s = some c → c.started = false → Gives (.trainControl slot seq) s (fun n => waits n ∧
      (ctxOf n slot).map (·.ad) = some x.ad))

/-- Online adaptation: capture, binding, boundaries, the end of a step, and the commands. -/
def Obligations.Adaptation : Prop := captures ∧ imagesBind ∧ boundaries ∧ stepsEnd ∧ adaptationCommands

/-! ## Frame graphs and the flow engines (07 R258–R285) -/

/-- An event record stands at the next place of a context's ring, where it has room: type, code, reason and bytes 12–31 (11 Table 11-10). -/
def Sys2Proof.Say.Posts (s n : State) (slot type code reason : Nat) (body : Bytes) : Prop :=
  ∀ x, ctxOf s slot = some x → ringRoomy x.ring = true → Mem.wf s.hostMem = true → s.fw.running = true → s.fw.switching = false →
    let b := hostRead n (x.ring.cqBase + 32 * (x.ring.posted % 2 ^ x.ring.cqLog2)) 32
    fld b 8 1 = type % 256 ∧ fld b 9 1 = code % 256 ∧ fld b 10 1 = reason % 256 ∧ slice b 12 20 = fit 20 body
/-- A completed command with its RESULT, whatever the code. -/
def Sys2Proof.Say.AnsweredWith (s n : State) (r : RingRef) (c : Cmd) (code reason : Nat) (result : Bytes) : Prop :=
  Answered s n r c code reason ∧ ∀ g, ringOf s r = some g → g.lostOwed = 0 → Mem.wf s.hostMem = true →
    code ≠ 0 ∨ entQuiet c.entry = false → slice (hostRead n (g.cqBase + 32 * (g.posted % 2 ^ g.cqLog2)) 32) 16 16 = fit 16 result

/-- The runs of a context around one of them, whose number no other has. -/
def Sys2Proof.Say.RunAmong (x : Ctx) (l : List GraphRun) (g : GraphRun) (r : List GraphRun) : Prop :=
  x.graphRuns = l ++ g :: r ∧ ∀ q ∈ l ++ r, q.id ≠ g.id

/-- VISION_NODE_START begins a node whose inputs are complete, in the oldest run where it can start, and decides the sources that it reads;
a NETWORK node starts with a run of its network. VISION_SLICE_BOUNDARY adds an engine's work to the node of the run that it worked for,
where the ward has no uncorrectable line, and deals the engine the next slice; FLOW_BAND_COMPLETE writes a band's records and sets its
latch; and GRAPH_RUN_END takes the oldest ended run away, with a GRAPH_DONE record where a buffer is bound to the host. -/
def Sys2Proof.Say.graphsRun : Prop :=
  (∀ s slot node x l g r, liveCtx s slot = some x → RunAmong x l g r → (∀ q ∈ l, nodeCanStart s slot x node q = false) →
    node < fgNodes g.graph → node ∉ g.begun → (nodeInputs g.graph node).all (bufferReady s slot x g) = true →
    let net := fld (fgNode g.graph node) 16 4
    let begun := fun (q : GraphRun) => q = { g with begun := g.begun ++ [node], inputs := q.inputs } ∧
      (∀ b v, tget g.inputs b = some v → tget q.inputs b = some v) ∧
      (∀ b ∈ nodeInputs g.graph node, gbSourceAt g.graph b = true → tget g.inputs b = none →
        tget q.inputs b = some (match bufferState s slot x g b with | .image m => some m | _ => none))
    (fld (fgNode g.graph node) 0 1 ≠ 3 → Gives (.visionNodeStart slot node) s (fun n => n = { s with ctxs := n.ctxs } ∧
      (∀ i, i ≠ slot → ctxOf n i = ctxOf s i) ∧ ∃ q, begun q ∧ ctxOf n slot = some { x with graphRuns := l ++ q :: r })) ∧
    (∀ h im, fld (fgNode g.graph node) 0 1 = 3 → x.image = some h → tget (wardOf s x.ward).images h = some im →
      (∀ q ∈ x.runs, q.1 = net → q.2.running = false) →
      Gives (.visionNodeStart slot node) s (fun n => n.wards = s.wards ∧ n.slots = s.slots ∧ n.heads = s.heads ∧
        ∃ y q k, ctxOf n slot = some y ∧ begun q ∧ y.graphRuns = l ++ q :: r ∧ y.fr = x.fr ∧
          tget y.runs net = some k ∧ k.image = h ∧ k.why = .node g.id node ∧ k.running = true ∧ k.made = []))) ∧
  (∀ s e, e < 8 → let eng := engineOf s e
    (∀ j lc, eng.job = none → nextSlice s e = some (j, lc) →
      Gives (.visionSliceBoundary e) s (fun n => n = { s with engines := n.engines } ∧
        (∀ i, i ≠ e → engineOf n i = engineOf s i) ∧ engineOf n e =
          { job := some j, since := s.now, lastLc := if lc then j.slot else eng.lastLc, lastBe := if lc then eng.lastBe else j.slot })) ∧
    (∀ j x l g r, eng.job = some j → s.now < eng.since + 8 * 4096 + 8 → namedCtx s j.slot j.gen = some x →
      RunAmong x l g r → g.id = j.run → (wardOf s x.ward).poisoned = [] →
      Gives (.visionSliceBoundary e) s (fun n => n = { s with ctxs := n.ctxs, engines := n.engines, perf := n.perf } ∧
        (∀ i, i ≠ j.slot → ctxOf n i = ctxOf s i) ∧ (∀ i, i ≠ e → engineOf n i = engineOf s i) ∧
        ∃ y, ctxOf n j.slot = some y ∧ y.fr = x.fr ∧ y.graphRuns = l ++ { g with
          work := tput g.work j.node (min (fgWork g.graph j.node) (tgetD g.work j.node 0 + min 4096 ((s.now - eng.since) / 8))) } :: r))) ∧
  (∀ s slot node band x l g r, liveCtx s slot = some x → RunAmong x l g r → (∀ q ∈ l, bandCan node band q = false) → node ∈ g.begun →
    let nd := fgNode g.graph node
    let out := fld nd 3 1
    fld nd 0 1 = 1 ∨ fld nd 0 1 = 2 → band < bandsOf g.graph out → (tgetD g.latches out 0).testBit band = false →
    bandWork g.graph node band ≤ tgetD g.work node 0 →
    let rs := bandRecords s slot x g node band
    let first := if fld nd 0 1 = 1 then 8 * band * cdiv (fld (fgBuffer g.graph out) 4 2) 8 else 0
    let latches := tgetD g.latches out 0 ||| 2 ^ band
    Gives (.flowBandComplete slot node band) s (fun n => n = { s with wards := n.wards, ctxs := n.ctxs, detect := n.detect } ∧
      (∀ i, i ≠ slot → ctxOf n i = ctxOf s i) ∧
      ∃ y q, ctxOf n slot = some y ∧ y.graphRuns = l ++ q :: r ∧ tgetD q.latches out 0 = latches ∧ q.begun = g.begun ∧
        q.ended = (if latches = 2 ^ bandsOf g.graph out - 1 then g.ended ++ [node] else g.ended) ∧
        (∀ i, i < rs.length → (tgetD q.recs out []).getD (first + i) 0 = (rs.getD i (0, 0)).2) ∧
        (fld (fgBuffer g.graph out) 0 1 = 0x10 → ∀ b ∈ y.ing.sets, b.use ≠ .free → b.frame = g.render → b.flowBands = latches))) ∧
  (∀ s slot x l g r, liveCtx s slot = some x → RunAmong x l g r → (∀ q ∈ l, graphEnded q = false) → (∀ k, k < fgNodes g.graph → k ∈ g.ended) →
    (hasHost g.graph = false → Gives (.graphRunEnd slot) s (fun n => n = { s with ctxs := n.ctxs } ∧
      (∀ i, i ≠ slot → ctxOf n i = ctxOf s i) ∧ ctxOf n slot = some { x with graphRuns := l ++ r })) ∧
    (hasHost g.graph = true → Gives (.graphRunEnd slot) s (fun n => n.wards = s.wards ∧ n.slots = s.slots ∧
      (ctxOf n slot).map (·.graphRuns) = some (l ++ r) ∧ Posts s n slot 7 0 0 (natLe 4 g.render))))

/-- GRAPH_LOAD takes up a graph that passes its checks, and refuses another by the first check that fails; GRAPH_UNLOAD takes the loaded
graph away; AUX_RUN begins a run of an AUXILIARY network of the bound image. -/
def Sys2Proof.Say.graphCommands : Prop :=
  ∀ s slot seq c x, ctxOf s slot = some x →
    (readyCmd (.ctx slot) seq 0x28 s = some c →
      let len := entArg c.entry 0
      let g := hostRead s (entAddr0 c.entry) len
      let keeps := fun (n : State) => n.wards = s.wards ∧ n.slots = s.slots ∧ (ctxOf n slot).map (·.graph) = some x.graph
      (cbFlow x.cfg = true → Gives (.graphLoad slot seq) s (fun n => Answered s n (.ctx slot) c 0x0A 0x04 ∧ keeps n)) ∧
      (cbFlow x.cfg = false → (wardOf s x.ward).cfg.flowMask = 0 →
        Gives (.graphLoad slot seq) s (fun n => Answered s n (.ctx slot) c 0x0A 0x05 ∧ keeps n)) ∧
      (cbFlow x.cfg = false → (wardOf s x.ward).cfg.flowMask ≠ 0 →
        (∀ reason i, graphReject s x g len = some (reason, i) →
          Gives (.graphLoad slot seq) s (fun n => AnsweredWith s n (.ctx slot) c 0x25 reason (natLe 4 i) ∧ keeps n)) ∧
        (graphReject s x g len = none → latchesUsed s x.ward - x.bandLatches + graphLatches g ≤ 64 * (wardOf s x.ward).cfg.latches →
          Gives (.graphLoad slot seq) s (fun n => Answered s n (.ctx slot) c 0 0 ∧ n.wards = s.wards ∧ n.slots = s.slots ∧
            (ctxOf n slot).map (fun y => (y.graph, y.bandLatches, y.graphRuns)) = some (some g, graphLatches g, x.graphRuns))))) ∧
    (readyCmd (.ctx slot) seq 0x29 s = some c →
      (x.graph = none → Gives (.graphUnload slot seq) s (fun n => Answered s n (.ctx slot) c 0x28 0x03 ∧ n.wards = s.wards)) ∧
      (x.graph ≠ none → Gives (.graphUnload slot seq) s (fun n => Answered s n (.ctx slot) c 0 0 ∧ n.wards = s.wards ∧ n.slots = s.slots ∧
        (ctxOf n slot).map (fun y => (y.graph, y.bandLatches, y.graphRuns)) = some (none, 0, x.graphRuns)))) ∧
    (readyCmd (.ctx slot) seq 0x2C s = some c → c.started = false →
      let net := entArg c.entry 0
      (∀ r ∈ x.runs, r.1 = net → r.2.running = false) →
      (x.image = none → Gives (.auxRun slot seq) s (fun n => Answered s n (.ctx slot) c 0x28 0x01 ∧ n.wards = s.wards)) ∧
      (∀ h im, x.image = some h → tget (wardOf s x.ward).images h = some im →
        let rec_ := (netsOf im.bytes).getD net {}
        let ts := tensorsOf im.bytes
        let ls := ((layersOf im.bytes).drop rec_.first).take rec_.count
        let ins := (((ls.flatMap layerReads).map (tn ts)).find? (fun t => t.src == 0x40)).map streamBytes
        let outs := ((ls.map (fun l => tn ts l.out)).find? (fun t => t.src == 0x41)).map streamBytes
        let ok := net < (netsOf im.bytes).length ∧ rec_.role = 4 ∧
          ctxMapped (wardOf s x.ward) slot (entAddr0 c.entry) (ins.getD 0) false = true ∧
          ctxMapped (wardOf s x.ward) slot (entAddr1 c.entry) (outs.getD 0) true = true
        (¬ ok → Gives (.auxRun slot seq) s (fun n => Answered s n (.ctx slot) c 0x28 0x03 ∧ n.wards = s.wards)) ∧
        (ok → Gives (.auxRun slot seq) s (fun n => n.wards = s.wards ∧ n.slots = s.slots ∧ n.heads = s.heads ∧
          cmdOf n (.ctx slot) seq = some { c with started := true } ∧
          ∃ y r, ctxOf n slot = some y ∧ y.fr = x.fr ∧ tget y.runs net = some r ∧ r.image = h ∧ r.why = .command seq ∧ r.running = true))))

/-- Frame graphs: their nodes, engines, bands and ends, and the commands that load and run networks. -/
def Obligations.Vision : Prop := graphsRun ∧ graphCommands

/-! ## Records and replay (11 R403; 13 R447–R459) -/

/-- DIGEST_COMPLETE writes the frame-information entry of the oldest ready frame without one: its digest record, zero where digests are
off, and its rung map; a write that fails sets HOST_DMA. REPLAY_FRAME keeps a record and rung map for a frame that has not started. -/
def Obligations.Records : Prop :=
  (∀ s slot x r, liveCtx s slot = some x → x.fr.ready.find? (fun r => !r.digested) = some r →
    let f := r.frame
    let im := imageFields s x f
    let prev := if f.fresh then List.replicate 32 (0 : Byte) else x.fr.prevHash
    let core := recordCore im.1 im.2.1 prev im.2.2 r
    let record := if cbDigest f.config then digestRecord core (frameHash core r) r else List.replicate 96 0
    let addr := cbInfoBase x.cfg + infoBytes f.config * (f.number % max 1 (cbInfoCount x.cfg))
    (Gives (.digestComplete slot true) s (fun n => n.wards = s.wards ∧ n.slots = s.slots ∧ n.heads = s.heads ∧
      (∀ i, i ≠ slot → ctxOf n i = ctxOf s i) ∧
      (∃ y, ctxOf n slot = some y ∧ y.fr.cur = x.fr.cur ∧ y.ing = x.ing ∧
        (∀ q ∈ y.fr.ready, q.frame.number = f.number → q.digested = true) ∧
        (cbDigest f.config = false → y.fr.prevHash = []) ∧
        (cbDigest f.config = true → f.fresh = true ∨ x.fr.prevHash ≠ [] → y.fr.prevHash = frameHash core r)) ∧
      (Mem.wf s.hostMem = true → record.length = 96 → f.fresh = true ∨ x.fr.prevHash ≠ [] ∨ cbDigest f.config = false →
        (∀ i, i < 96 → (addr + i < x.ring.cqBase ∨ x.ring.cqBase + 32 * 2 ^ x.ring.cqLog2 ≤ addr + i) →
          Mem.read n.hostMem (addr + i) = record.getD i 0) ∧
        (∀ i, i < (rungMap r.rungs).length → 128 + i < infoBytes f.config →
          (addr + 128 + i < x.ring.cqBase ∨ x.ring.cqBase + 32 * 2 ^ x.ring.cqLog2 ≤ addr + 128 + i) →
          Mem.read n.hostMem (addr + 128 + i) = (rungMap r.rungs).getD i 0)))) ∧
    (Sized s → Gives (.digestComplete slot false) s (fun n => errSet n 0 3 ∧ HostMsg.aerHostAccess ∈ n.sent ∧ n.wards = s.wards ∧ n.slots = s.slots))) ∧
  (∀ s slot seq c x, readyCmd (.ctx slot) seq 0x36 s = some c → ctxOf s slot = some x →
    let f := entArg c.entry 0
    let e := hostRead s (entAddr0 c.entry) (infoBytes x.cfg)
    let m := slice e 128 (mapBytes x.cfg)
    let late := (∃ l, x.fr.lastStarted = some l ∧ later 32 f l = false) ∨ ∃ h ∈ x.fr.held, h.1 = f
    let keeps := fun (n : State) => n.wards = s.wards ∧ (ctxOf n slot).map (·.fr.held) = some x.fr.held
    (cbReplay x.cfg = false → Gives (.replayFrame slot seq) s (fun n => Answered s n (.ctx slot) c 0x28 0x03 ∧ keeps n)) ∧
    (cbReplay x.cfg = true → late → Gives (.replayFrame slot seq) s (fun n => Answered s n (.ctx slot) c 0x28 0x02 ∧ keeps n)) ∧
    (cbReplay x.cfg = true → ¬ late → mapTailOk x.cfg m = false →
      Gives (.replayFrame slot seq) s (fun n => Answered s n (.ctx slot) c 0x20 0x02 ∧ keeps n)) ∧
    (cbReplay x.cfg = true → ¬ late → mapTailOk x.cfg m = true → 64 ≤ x.fr.held.length →
      Gives (.replayFrame slot seq) s (fun n => Answered s n (.ctx slot) c 0x27 0 ∧ keeps n)) ∧
    (cbReplay x.cfg = true → ¬ late → mapTailOk x.cfg m = true → x.fr.held.length < 64 →
      Gives (.replayFrame slot seq) s (fun n => Answered s n (.ctx slot) c 0 0 ∧ n.wards = s.wards ∧ n.slots = s.slots ∧
        (ctxOf n slot).map (·.fr.held) = some (x.fr.held ++ [(f, slice e 0 96, m, s.now)]))))

/-! ## Heads (09 R319–R324, R336–R338, R344; 11 R401) -/

/-- Only one head, and rings with what posting on them touches, change. -/
def Sys2Proof.Say.HeadOnly (s n : State) (head : Nat) : Prop :=
  n.wards = s.wards ∧ n.slots = s.slots ∧ n.tasks = s.tasks ∧ n.tap = s.tap ∧ ∀ h, h ≠ head → headOf n h = headOf s h

/-- HEAD_CONFIG: a bad block names the offset of its first failing field; an accepted one is in force at once on a head that had none, at
the next period start otherwise; a physical head trains its link first, and DP_LINK_TRAINING_END answers, once it has tested again what
another command may have taken or bound since. Whether the sink of a physical head with a VRR window reports Adaptive-Sync is a free
value, the model's choice (log 81). -/
def Sys2Proof.Say.headsConfigured : Prop :=
  (∀ s fn seq c, readyCmd (.admin fn) seq 0x08 s = some c → c.started = false →
    let b := hostRead s (entAddr0 c.entry) 128
    let head := hbHead b
    let h := headOf s head
    (∀ off, headBlockBad (headInWard s fn head) b = some off →
      Gives (.headConfig fn seq) s (fun n => AnsweredWith s n (.admin fn) c 0x21 0x01 (natLe 4 off) ∧ n.heads = s.heads)) ∧
    (headBlockBad (headInWard s fn head) b = none → noAdaptive s b = true →
      Gives (.headConfig fn seq) s (fun n => AnsweredWith s n (.admin fn) c 0x21 0x01 (natLe 4 0x03) ∧ n.heads = s.heads)) ∧
    (headBlockBad (headInWard s fn head) b = none → noAdaptive s b = false →
      (fixedChanged h b = true → Gives (.headConfig fn seq) s (fun n => Answered s n (.admin fn) c 0x28 0x02 ∧ n.heads = s.heads)) ∧
      (∀ k, fixedChanged h b = false → headConflict s b = some k →
        Gives (.headConfig fn seq) s (fun n => Answered s n (.admin fn) c 0x0A k ∧ n.heads = s.heads)) ∧
      (fixedChanged h b = false → headConflict s b = none →
        (head < 1024 → Gives (.headConfig fn seq) s (fun n => Result s n (.admin fn) c (natLe 4 0) ∧ HeadOnly s n head ∧
          headOf n head = if h.cfg.isSome then { h with pendingCfg := some b }
            else { h with cfg := some b, nextStart := nowHead s, sliceCredits := hbEntryCount b })) ∧
        (1024 ≤ head → fn < 16 → Sized s → Gives (.headConfig fn seq) s (fun n => n = { s with fns := n.fns, free := n.free } ∧
          cmdOf n (.admin fn) seq = some { c with started := true, block := b, aux := head }))))) ∧
  (∀ s head fn c, keeperServes s = true → trainingCmd s head = some (fn, c) → cmdOf s (.admin fn) c.seq = some c →
    let h := headOf s head
    let answered := fun (code reason : Nat) => ∀ q, Gives (.dpLinkTrainingEnd head q) s (fun n => Answered s n (.admin fn) c code reason ∧ n.heads = s.heads)
    (∀ k, headConflict s c.block = some k → answered 0x0A k) ∧
    (headConflict s c.block = none → fixedChanged h c.block = true → answered 0x28 0x02) ∧
    (headConflict s c.block = none → fixedChanged h c.block = false →
    let quiet := h.ctx = none ∨ h.linkUp = true
    let lost := h.ctx = none ∨ h.linkUp = false
    (∀ q : LinkResult, q.ok = true → Gives (.dpLinkTrainingEnd head q) s (fun n => cmdOf n (.admin fn) c.seq = none ∧ HeadOnly s n head ∧
      (quiet → Result s n (.admin fn) c (natLe 4 1)) ∧
      headOf n head = { (if h.cfg.isSome then { h with pendingCfg := some c.block }
          else { h with cfg := some c.block, nextStart := nowHead s, sliceCredits := hbEntryCount c.block }) with
        linkUp := true, lanes := q.lanes, rate := q.rate })) ∧
    (∀ q : LinkResult, q.ok = false → Gives (.dpLinkTrainingEnd head q) s (fun n => cmdOf n (.admin fn) c.seq = none ∧ HeadOnly s n head ∧
      (lost → AnsweredWith s n (.admin fn) c 0x21 0x0A (natLe 4 0x44)) ∧ headOf n head = { h with linkUp := false }))))

/-- A sink appears or goes: the link's state, width and rate; HEAD_QUERY answers with the sink's bytes; TAP_CONFIG sets and clears the tap. -/
def Sys2Proof.Say.linksAndTap : Prop :=
  (∀ s head, 1024 ≤ head → head ≤ 1025 → (headOf s head).cfg.isSome = true → (headOf s head).linkUp = false →
    ∀ q : LinkResult, (q.ok = true → Gives (.dpHotPlug head q) s (fun n => HeadOnly s n head ∧
      headOf n head = { headOf s head with linkUp := true, lanes := q.lanes, rate := q.rate })) ∧
    (q.ok = false → Gives (.dpHotPlug head q) s (fun n => n = s))) ∧
  (∀ s head, (headOf s head).linkUp = true → Gives (.dpLinkLoss head) s (fun n => HeadOnly s n head ∧
    headOf n head = { headOf s head with linkUp := false } ∧
    ((headOf s head).ctx = none → n = { s with heads := n.heads }))) ∧
  (∀ s fn seq c sink edid dpcd, readyCmd (.admin fn) seq 0x09 s = some c →
    let head := entArg c.entry 0
    (headInWard s fn head = false → Gives (.headQuery fn seq sink edid dpcd) s (fun n => Answered s n (.admin fn) c 0x28 0x03 ∧ n.heads = s.heads)) ∧
    (headInWard s fn head = true →
      (sink = true → 1024 ≤ head → Gives (.headQuery fn seq sink edid dpcd) s (fun n => Result s n (.admin fn) c (natLe 4 1) ∧
        n.heads = s.heads ∧ ∀ g i, ringOf s (.admin fn) = some g → g.lostOwed = 0 → Mem.wf s.hostMem = true → i < 1024 →
          (entAddr0 c.entry + i < g.cqBase ∨ g.cqBase + 32 * 2 ^ g.cqLog2 ≤ entAddr0 c.entry + i) →
          Mem.read n.hostMem (entAddr0 c.entry + i) = (fit 512 edid ++ fit 512 dpcd).getD i 0)) ∧
      (sink = false ∨ head < 1024 → Gives (.headQuery fn seq sink edid dpcd) s (fun n => cmdOf n (.admin fn) seq = none ∧ HeadOnly s n head ∧
        headOf n head = { headOf s head with linkUp := false })))) ∧
  (∀ s fn seq c, readyCmd (.admin fn) seq 0x0A s = some c →
    let arg := entArg c.entry 0
    let b := hostRead s (entAddr0 c.entry) 128
    (arg < 2 ^ 31 → Gives (.tapConfig fn seq) s (fun n => Answered s n (.admin fn) c 0 0 ∧ n.tap = none ∧ n.heads = s.heads)) ∧
    (2 ^ 31 ≤ arg → 1024 ≤ arg % 2048 → Gives (.tapConfig fn seq) s (fun n => Answered s n (.admin fn) c 0x28 0x03 ∧ n.tap = s.tap)) ∧
    (2 ^ 31 ≤ arg → arg % 2048 < 1024 →
      (∀ off, (if hbHead b ≠ 1025 then some 0x04 else headBlockBad true b) = some off →
        Gives (.tapConfig fn seq) s (fun n => AnsweredWith s n (.admin fn) c 0x21 0x01 (natLe 4 off) ∧ n.tap = s.tap)) ∧
      (hbHead b = 1025 → headBlockBad true b = none →
        ((headOf s 1025).cfg.isSome = true → Gives (.tapConfig fn seq) s (fun n => Answered s n (.admin fn) c 0x0A 0x01 ∧ n.tap = s.tap)) ∧
        ((headOf s 1025).cfg = none → Gives (.tapConfig fn seq) s (fun n => Answered s n (.admin fn) c 0 0 ∧ n.heads = s.heads ∧
          n.tap = some { head := arg % 2048, cfg := b, nextStart := nowHead s })))))

/-- HEAD_BIND binds a head of the ward to the context from its next frame, the head's counters cleared, or is refused by the first rule
broken; HEAD_UNBIND waits for the head's next scan-out start. -/
def Sys2Proof.Say.headsBound : Prop :=
  (∀ s slot seq c x, readyCmd (.ctx slot) seq 0x2A s = some c → ctxOf s slot = some x →
    let head := entArg c.entry 0
    let h := headOf s head
    let refused := fun (code reason : Nat) => Gives (.headBind slot seq) s (fun n => Answered s n (.ctx slot) c code reason ∧
      n.heads = s.heads ∧ (ctxOf n slot).map (·.head) = some x.head)
    (headInWard s x.ward head = false ∨ headCfg h = none → refused 0x28 0x03) ∧
    (∀ b, headInWard s x.ward head = true → headCfg h = some b →
      (h.ctx.isSome = true ∨ x.head.isSome = true → refused 0x0A 0x07) ∧
      (h.ctx = none → x.head = none →
        let cores := cbClassBE x.cfg = true ∧ groupConflict s { ctxEnv s slot x with head := some head } x.cfg = true
        let timer := cbReplay x.cfg = false ∧ s.perf.timerOn = true ∧ s.perf.head = head
        (cores → refused 0x0A 0x06) ∧ (¬ cores → timer → refused 0x0A 0x03) ∧
        (∀ off, ¬ cores → ¬ timer → headBindBad s x b = some off → Gives (.headBind slot seq) s (fun n =>
          AnsweredWith s n (.ctx slot) c 0x21 0x01 (natLe 4 off) ∧ n.heads = s.heads)) ∧
        (¬ cores → ¬ timer → headBindBad s x b = none → Gives (.headBind slot seq) s (fun n =>
          Result s n (.ctx slot) c (natLe 4 x.fr.nextNumber) ∧ HeadOnly s n head ∧
          (ctxOf n slot).map (·.head) = some (some head) ∧
          ∃ q, headOf n head = q ∧ q.cfg = h.cfg ∧ q.ctx = some slot ∧ q.ctxSlot = slot ∧ q.gen = x.gen ∧ q.refFrame = x.fr.nextNumber ∧
            q.refInstant = referenceInstant s h b (entAddr1 c.entry) ∧ q.begun = false ∧ q.shown = .nothing ∧ q.store = none ∧
            (q.ringDrops, q.skips, q.repeats, q.misses, q.underruns, q.signature) = (0, 0, 0, 0, 0, 0) ∧
            (q.wrapped, q.ringFull, q.freeze, q.underrun, q.miss) = (false, false, false, false, false)))))) ∧
  (∀ s slot seq c x, readyCmd (.ctx slot) seq 0x2B s = some c → c.started = false → ctxOf s slot = some x →
    (x.head = none → Gives (.headUnbind slot seq) s (fun n => Answered s n (.ctx slot) c 0x28 0x01 ∧ n.heads = s.heads)) ∧
    (∀ head, x.head = some head → Gives (.headUnbind slot seq) s (fun n => n = { s with ctxs := n.ctxs, heads := n.heads } ∧
      HeadOnly s n head ∧ headOf n head = { headOf s head with unbindSeq := some seq } ∧
      cmdOf n (.ctx slot) seq = some { c with started := true })))

/-- Heads: configuration, links, the tap, and binding. -/
def Obligations.Heads : Prop := headsConfigured ∧ linksAndTap ∧ headsBound

/-! ## Scan-out (09 R320–R327, R331–R335, R337–R342) -/

/-- The head after a waiting configuration has taken effect: a changed ring begins at index 0 (09 R320, R333). -/
def Sys2Proof.Say.reconfigured (h : Head) (b : Bytes) : Head :=
  match h.pendingCfg with
  | none => h
  | some p => if ringChanged b p then { h with cfg := some p, pendingCfg := none, prod := 0, beg := 0, consumer := 0 }
    else { h with cfg := some p, pendingCfg := none }

/-- HEAD_PERIOD_START: an unbound head takes its waiting configuration and starts its next period; a bound head with a slot due begins
the slot, showing the latest frame that qualifies, else the last one again or black; a HEAD_UNBIND that waits takes effect there. The
tap, where no head 1025 is configured, shows its head's last frame. -/
def Sys2Proof.Say.periodsStart : Prop :=
  (∀ s t, (headOf s 1025).cfg = none → s.tap = some t → headReached s t.nextStart = true →
    Gives (.headPeriodStart 1025) s (fun n => n = { s with tap := n.tap } ∧ n.tap = some { t with
      nextStart := t.nextStart + headInterval t.cfg
      shown := match (headOf s t.head).store with | some r => some r | none => t.shown })) ∧
  (∀ s head b, (headOf s head).cfg = some b → (headOf s head).ctx = none → (headOf s head).scanDone = true →
    headReached s (headOf s head).nextStart = true →
    let h := reconfigured (headOf s head) b
    Gives (.headPeriodStart head) s (fun n => n = { s with heads := n.heads, hostMem := n.hostMem } ∧ HeadOnly s n head ∧
      headOf n head = { h with prevStart := some h.nextStart, nextStart := h.nextStart + headInterval (h.cfg.getD []) } ∧
      (h.cfg = some b → n.hostMem = s.hostMem))) ∧
  (∀ s head slot b at_ x, (headOf s head).cfg = some b → (headOf s head).ctx = some slot → liveCtx s slot = some x →
    (headOf s head).scanDone = true → headReached s at_ = true →
    let o := headOf s head
    let h := reconfigured o b
    let c := h.cfg.getD []
    (headDue s o = some (at_, false) → Gives (.headPeriodStart head) s (fun n => n = { s with heads := n.heads } ∧ HeadOnly s n head ∧
      headOf n head = { o with prevStart := some at_, nextStart := at_ + headInterval b })) ∧
    (∀ seq q, headDue s o = some (at_, true) → o.unbindSeq = some seq → s.fw.running = true → s.fw.switching = false →
      cmdOf s (.ctx slot) seq = some q →
      Gives (.headPeriodStart head) s (fun n => Answered s n (.ctx slot) q 0 0 ∧ HeadOnly s n head ∧
        (ctxOf n slot).map (·.head) = some none ∧ (∀ i, i ≠ slot → ctxOf n i = ctxOf s i) ∧
        headOf n head = { h with
          prevStart := some at_, nextStart := at_ + headInterval c, ctx := none, nextDeadline := 0, unbindSeq := none
          begun := false, shown := .nothing, store := none })) ∧
    (headDue s o = some (at_, true) → o.unbindSeq = none →
      Gives (.headPeriodStart head) s (fun n => HeadOnly s n head ∧ (∀ i, i ≠ slot → ctxOf n i = ctxOf s i) ∧
        (let m := headOf n head
         m.cfg = h.cfg ∧ m.pendingCfg = none ∧ m.ctx = some slot ∧ m.begun = true ∧ m.slotFrame = nextSlot o ∧ m.refFrame = nextSlot o ∧
         m.refInstant = at_ ∧ m.scanStart = at_ ∧ m.prevStart = some at_ ∧ m.nextStart = at_ + headInterval c ∧
         m.scanDone = false ∧ m.slicesBegun = 0 ∧ m.inFlight = [] ∧ m.lastFrame = BitVec.ofNat 32 (nextSlot o) ∧
         (∀ r, latestReady (x.fr.ready.filter (qualifiesAt o c (nextSlot o) at_)) = some r →
           m.shown = .frame r.frame.number ∧ m.isRepeat = false ∧ m.store = some r ∧ m.repeats = o.repeats) ∧
         (latestReady (x.fr.ready.filter (qualifiesAt o c (nextSlot o) at_)) = none →
           m.store = o.store ∧ m.repeats = o.repeats + 1 ∧
           (∀ r, o.store = some r → m.shown = .frame r.frame.number ∧ m.isRepeat = true) ∧ (o.store = none → m.shown = .black))))))

/-- SLICE_BEGIN of a bound virtual head begins the slot's next slice where a ring entry or credit is free and no slice of the slot was
dropped, and drops it otherwise, with UNDERRUN at the last slice. SLICE_WRITTEN writes the oldest slice begun at its ring entry and
the producer index after it. -/
def Sys2Proof.Say.slicesGoOut : Prop :=
  (∀ s head slot b, (headOf s head).cfg = some b → (headOf s head).ctx = some slot → head < 1024 → (headOf s head).scanDone = false →
    let h := headOf s head
    h.slicesBegun < slotSlices h b → headReached s (lineStart h b (h.slicesBegun * hbSlice b)) = true →
    (noRoom h b = false → h.droppedFrame = 0 → Gives (.sliceBegin head) s (fun n => n = { s with heads := n.heads } ∧ HeadOnly s n head ∧
      headOf n head = { h with
        slicesBegun := h.slicesBegun + 1
        inFlight := h.inFlight ++ [(h.slicesBegun, tbOfHead (lineStart h b (h.slicesBegun * hbSlice b)))]
        beg := if hbHinge b then h.beg else h.beg + 1, sliceCredits := if hbHinge b then h.sliceCredits - 1 else h.sliceCredits })) ∧
    (noRoom h b = true ∨ 0 < h.droppedFrame → Gives (.sliceBegin head) s (fun n => HeadOnly s n head ∧
      headOf n head = { h with
        slicesBegun := h.slicesBegun + 1, ringDrops := h.ringDrops + 1, wrapped := h.wrapped || h.ringDrops == BitVec.allOnes 32
        fresh := headFresh h 1024 (h.ringDrops == BitVec.allOnes 32), ringFull := true, droppedFrame := h.droppedFrame + 1, afterDrop := true } ∧
      (h.slicesBegun + 1 < slotSlices h b → n = { s with heads := n.heads }) ∧
      (h.slicesBegun + 1 = slotSlices h b → Posts s n slot 3 0x0D 0x02
        (natLe 4 (match h.shown with | .frame f => f | _ => h.slotFrame) ++ natLe 2 head ++ natLe 4 (h.droppedFrame + 1)))))) ∧
  (∀ s head slot b k start rest got, (headOf s head).cfg = some b → (headOf s head).ctx = some slot →
    (headOf s head).inFlight = (k, start) :: rest →
    let h := headOf s head
    let rs := sliceReads h b k got
    let padded := (rs.filter (fun r => decide (r.got < hbWidth b))).length
    let entry := sliceHeader head slot h b k start padded ++ sliceLines b ((shownReady h).map (·.img)) (k * hbSlice b) rs
    let addr := hbRingBase b + hbEntryBytes b * (h.prod.toNat % hbEntryCount b)
    (∀ ok, Gives (.sliceWritten head got ok) s (fun n => HeadOnly s n head ∧
      let m := headOf n head
      m.inFlight = rest ∧ m.afterDrop = false ∧ m.prod = (if hbHinge b then h.prod else h.prod + 1) ∧ m.beg = h.beg ∧
      m.slicesBegun = h.slicesBegun ∧ m.underruns = h.underruns + BitVec.ofNat 32 padded ∧ m.cfg = h.cfg ∧ m.shown = h.shown)) ∧
    (hbHinge b = false → Mem.wf s.hostMem = true → Gives (.sliceWritten head got true) s (fun n =>
      hostRead n (hbProducer b) 4 = natLe 4 ((h.prod.toNat + 1) % 2 ^ 32) ∧
      (∀ i, i < entry.length → (addr + i < hbProducer b ∨ hbProducer b + 4 ≤ addr + i) → Mem.read n.hostMem (addr + i) = entry.getD i 0) ∧
      ∀ a, (a < addr ∨ addr + entry.length ≤ a) → (a < hbProducer b ∨ hbProducer b + 4 ≤ a) →
        Mem.read n.hostMem a = Mem.read s.hostMem a)) ∧
    (hbHinge b = false → Sized s → Gives (.sliceWritten head got false) s (fun n => errSet n 0 3 ∧ HostMsg.aerHostAccess ∈ n.sent)))

/-- ACTIVE_LINE_SCAN sends the next line of a physical head, its last pixel read repeated where it was not read in time, and counts it; FRAME_SCAN_END ends the slot's scan, with the shown
frame's signature and UNDERRUN where lines were missed; RING_CONSUMER_WRITE moves the consumer index by no more than the ring holds. -/
def Sys2Proof.Say.scansEnd : Prop :=
  (∀ s head b delivered, (headOf s head).cfg = some b → 1024 ≤ head → (headOf s head).scanDone = false →
    let h := headOf s head
    let r := physicalRead h b delivered
    let line := sentLine b ((shownReady h).map (·.img)) h.slicesBegun r
    h.slicesBegun < hbHeight b → headReached s (lineStart h b h.slicesBegun) = true →
    Gives (.activeLineScan head delivered) s (fun n => n = { s with heads := n.heads } ∧ HeadOnly s n head ∧
      ((shownReady h = none ∨ hbWidth b ≤ delivered) → headOf n head = { h with
        slicesBegun := h.slicesBegun + 1, lastPx := r.last, lineSent := line }) ∧
      ((shownReady h).isSome = true → delivered < hbWidth b → headOf n head = { h with
        slicesBegun := h.slicesBegun + 1, lastPx := r.last, lineSent := line, underruns := h.underruns + 1
        wrapped := h.wrapped || h.underruns == BitVec.allOnes 32, fresh := headFresh h 256 (h.underruns == BitVec.allOnes 32)
        underrun := true, underrunFrame := h.underrunFrame + 1 }))) ∧
  (∀ s head slot b, (headOf s head).cfg = some b → (headOf s head).ctx = some slot → (headOf s head).scanDone = false →
    let h := headOf s head
    allScanned head h b = true → headReached s (lineStart h b (if headerOnly h b then 0 else hbHeight b)) = true →
    Gives (.frameScanEnd head) s (fun n => HeadOnly s n head ∧
      (∀ r, shownReady h = some r → h.isRepeat = false → headOf n head = { h with
        scanDone := true, signature := BitVec.ofNat 32 (signatureOf b r.img), sigFrame := BitVec.ofNat 32 r.frame.number }) ∧
      (shownReady h = none ∨ h.isRepeat = true → headOf n head = { h with scanDone := true }) ∧
      (h.underrunFrame = 0 → n = { s with heads := n.heads }) ∧
      (0 < h.underrunFrame → Posts s n slot 3 0x0D 0x01
        (natLe 4 (match h.shown with | .frame f => f | _ => h.slotFrame) ++ natLe 2 head ++ natLe 4 h.underrunFrame)))) ∧
  (∀ s fn head v b, v < 2 ^ 32 → (headOf s head).cfg = some b →
    let h := headOf s head
    let open_ := barsOpen s fn = true ∧ head ≤ 1025 ∧ (fn = 0 ∨ headInWard s fn head = true)
    let owed := (h.prod - BitVec.ofNat 32 v).toNat
    (open_ → head < 1024 → owed ≤ hbEntryCount b → Gives (.ringConsumerWrite fn head v) s (fun n => n = { s with heads := n.heads } ∧
      HeadOnly s n head ∧ headOf n head = { h with consumer := BitVec.ofNat 32 v })) ∧
    (¬ open_ ∨ 1024 ≤ head ∨ hbEntryCount b < owed → Gives (.ringConsumerWrite fn head v) s (fun n => n = s)))

/-- GPIO_SYNC_EDGE on one genlocked head: an edge within one line of the predicted start moves the start onto the edge and its offset,
and locks; the first edge outside only counts, and from the second the start moves. With no genlocked head, and with counter sampling
not taking it, nothing changes. -/
def Sys2Proof.Say.genlock : Prop :=
  (∀ s, s.perf.externalOn = false →
    (s.heads.filterMap (fun x => x.2.cfg.bind (fun b => if hbGenlock b then some (x.1, b) else none)) = [] →
      Gives .gpioSyncEdge s (fun n => n = s)) ∧
    (∀ head b, s.heads.filterMap (fun x => x.2.cfg.bind (fun b => if hbGenlock b then some (x.1, b) else none)) = [(head, b)] →
      (headOf s head).ctx = none →
      let h := headOf s head
      let dst := nowHead s + hbOffset b
      let near := (max dst h.nextStart - min dst h.nextStart) * hbVt b ≤ hbPeriod b
      Gives .gpioSyncEdge s (fun n => n = { s with heads := n.heads } ∧ HeadOnly s n head ∧
        (near → headOf n head = { h with locked := true, outside := 0, nextStart := dst }) ∧
        (¬ near → h.outside = 0 → headOf n head = { h with locked := false, outside := 1 }) ∧
        (¬ near → 0 < h.outside → headOf n head = { h with locked := false, outside := h.outside + 1, nextStart := dst }))) ∧
    (∀ head b slot x, s.heads.filterMap (fun x => x.2.cfg.bind (fun b => if hbGenlock b then some (x.1, b) else none)) = [(head, b)] →
      (headOf s head).ctx = some slot → liveCtx s slot = some x → (headOf s head).begun = true →
      let h := headOf s head
      let dst := nowHead s + hbOffset b
      (max dst h.nextStart - min dst h.nextStart) * hbVt b ≤ hbPeriod b →
      Gives .gpioSyncEdge s (fun n => n = { s with heads := n.heads, ctxs := n.ctxs } ∧ HeadOnly s n head ∧
        headOf n head = { h with
          locked := true, outside := 0, nextStart := dst, nextDeadline := BitVec.ofNat 64 (tbOfHead dst)
          refInstant := ((h.refInstant : Int) + (dst : Int) - (h.nextStart : Int)).toNat })))

/-- Scan-out: period starts, slices, lines, the end of a scan, and genlock. -/
def Obligations.ScanOut : Prop := periodsStart ∧ slicesGoOut ∧ scansEnd ∧ genlock

/-! ## Functions (11 R389, R411, R412; 16 R504, R506, R520; 10 R345) -/

/-- Every live context of a ward is torn down, without a fault. -/
def Sys2Proof.Say.WardTorn (s n : State) (w : Nat) : Prop :=
  ∀ slot x, liveCtx s slot = some x → x.ward = w →
    (slotOf n slot).state = .teardown ∧ ((ctxOf n slot).bind (·.fault)).map (·.isFault) = some false
/-- A reset of a VF: its contexts are torn down; its registers but the error registers and its power state are at their reset values; a
ward with a key loses its memory and images and gets another key. -/
def Sys2Proof.Say.VfReset (s n : State) (fn : Nat) : Prop :=
  WardTorn s n fn ∧
  ((wardOf s fn).key.isSome = true → (wardOf n fn).mem = [] ∧ (wardOf n fn).images = [] ∧ (wardOf n fn).key = some s.nextSerial) ∧
  (wardOf n fn).cfg = (wardOf s fn).cfg ∧ n.hostMem = s.hostMem ∧ n.flash = s.flash ∧ n.tap = s.tap ∧ n.vfs = s.vfs
/-- A reset of the PF: every context is torn down, every ward unconfigured, the functions' registers, the heads, the tap and the counter
unit at their reset values, and VF Enable is cleared; host memory, the boot flash and the error counts stay. -/
def Sys2Proof.Say.PfReset (s n : State) : Prop :=
  (∀ w, w < 16 → WardTorn s n w) ∧ n.wards = List.replicate 16 {} ∧ n.heads = [] ∧ n.tap = none ∧ n.vfs = 0 ∧ n.perf = {} ∧
  n.hostMem = s.hostMem ∧ n.flash = s.flash ∧ n.ras = s.ras ∧ n.sec = s.sec ∧ n.now = s.now

/-- FLRs, the link reset, VF Enable, the power states and the heartbeat: each has its effect where configuration requests are answered,
and none elsewhere; a link reset waits for a firmware switch to end. -/
def Obligations.Functions : Prop :=
  (∀ s fn, Sized s → fnExists s fn = true → fn ≠ 0 → configOpen s = true →
    Gives (.flrVf fn) s (fun n => VfReset s n fn ∧ (∀ f, f ≠ fn → fnOf n f = fnOf s f) ∧
      fnOf n fn = { errStatus := (fnOf s fn).errStatus, errFresh := (fnOf s fn).errFresh, errMask := (fnOf s fn).errMask
                    errInfo := (fnOf s fn).errInfo, d3hot := (fnOf s fn).d3hot }) ∧
    Gives (.d3hotEntry fn) s (fun n => VfReset s n fn ∧ (∀ f, f ≠ fn → fnOf n f = fnOf s f) ∧ (fnOf n fn).d3hot = true ∧
      (fnOf n fn).enabled = false)) ∧
  (∀ s, configOpen s = true →
    Gives .flrPf s (fun n => PfReset s n ∧ n.fns = List.replicate 16 {} ∧ n.boot = s.boot ∧
      (s.fw.ready = true → n.fw.running = true) ∧ n.fw.heartbeat = 0) ∧
    Gives (.d3hotEntry 0) s (fun n => PfReset s n ∧ (fnOf n 0).d3hot = true ∧ (∀ f, f ≠ 0 → fnOf n f = {}))) ∧
  (∀ s, outOfReset s = true →
    (s.fw.switching = false → Gives .linkReset s (fun n => PfReset s n ∧ n.fns = List.replicate 16 {} ∧
      n.boot = { s.boot with lastCause := 4, linkResetWaits := false })) ∧
    (s.fw.switching = true → Gives .linkReset s (fun n => n = { s with boot := { s.boot with linkResetWaits := true } }))) ∧
  (∀ s fn, configOpen s = false → Gives (.flrVf fn) s (fun n => n = s) ∧ Gives .flrPf s (fun n => n = s) ∧
    Gives (.d3hotEntry fn) s (fun n => n = s) ∧ Gives (.d0Return fn) s (fun n => n = s) ∧ ∀ k, Gives (.vfEnable k) s (fun n => n = s)) ∧
  (∀ s, outOfReset s = false → Gives .linkReset s (fun n => n = s)) ∧
  (∀ s k, configOpen s = true → Sized s → k ≤ 15 → s.vfs ≤ 15 → Gives (.vfEnable k) s (fun n => n.vfs = k ∧ n.hostMem = s.hostMem ∧ n.flash = s.flash ∧
    (s.vfs ≤ k → n = { s with vfs := k }) ∧
    ∀ v, k < v → v ≤ s.vfs → WardTorn s n v ∧ fnOf n v = {} ∧ ((wardOf s v).key.isSome = true → (wardOf n v).mem = [] ∧
      (wardOf n v).images = []))) ∧
  (∀ s fn, configOpen s = true → fnExists s fn = true → Sized s → Gives (.d0Return fn) s (fun n => n = { s with fns := n.fns } ∧
    (∀ f, f ≠ fn → fnOf n f = fnOf s f) ∧ fnOf n fn = { fnOf s fn with d3hot := false })) ∧
  (∀ s, s.fw.running = true → s.fw.switching = false → s.fw.beatAt + 6000000 ≤ s.now →
    Gives .keeperHeartbeat s (fun n => n = { s with fw := { s.fw with heartbeat := s.fw.heartbeat + 1, beatAt := s.fw.beatAt + 6000000 } }))

/-! ## Firmware (15 R493–R498; 11 R412; 16 R509) -/

/-- FW_STAGE of an image that passes every check of Table 15-6 makes it the idle slot's resident image and starts its flash write, and
one that fails names its first failing check; FW_ACTIVATE starts the live switch of a resident image that can take over. -/
def Sys2Proof.Say.imagesStaged : Prop :=
  (∀ s fn seq c, readyCmd (.admin fn) seq 0x0C s = some c → c.started = false → s.flash.program = none →
    let k := entArg c.entry 0
    let hdr := fit 512 (hostRead s (entAddr0 c.entry) (min k 512))
    let b := if fwLengthOk k = true ∧ fwLength hdr = k then hostRead s (entAddr0 c.entry) k else hdr
    (∀ code, fwCheck s b k = some code → Gives (.fwStage fn seq) s (fun n =>
      AnsweredWith s n (.admin fn) c 0x21 0x01 (natLe 1 code) ∧ n.flash = s.flash)) ∧
    (fwCheck s b k = none → Sized s → fn < 16 → Gives (.fwStage fn seq) s (fun n => n = { s with flash := n.flash, fns := n.fns } ∧
      n.flash = (if 1 - s.fw.slot = 0 then { s.flash with image0 := some b, program := some (0, b) }
        else { s.flash with image1 := some b, program := some (1, b) }) ∧
      cmdOf n (.admin fn) seq = some { c with started := true, aux := 1 - s.fw.slot }))) ∧
  (∀ s fn seq c, readyCmd (.admin fn) seq 0x0D s = some c → c.started = false →
    let slot := entArg c.entry 0
    (∀ reason, activateBad s slot = some reason → Gives (.fwActivate fn seq) s (fun n => Answered s n (.admin fn) c 0x28 reason ∧ n.fw.switching = s.fw.switching ∧ n.flash = s.flash)) ∧
    (activateBad s slot = none → Sized s → fn < 16 → Gives (.fwActivate fn seq) s (fun n => n = { s with fw := n.fw, fns := n.fns } ∧
      n.fw = { s.fw with
        switching := true, l3Held := holdL3 s, target := slot, recovery := false, switchAt := s.now, byCommand := some (fn, seq), overtaken := false
        persist := (entArg c.entry 1).testBit 0, raiseSvn := (entArg c.entry 1).testBit 1 } ∧
      cmdOf n (.admin fn) seq = some { c with started := true })))

/-- The end of a switch runs the target image, sets FW_SWITCHED, releases what was held, posts FW_SWITCH and ends FW_ACTIVATE, or starts
the rewrite of the boot record; a link reset that waited follows. -/
def Sys2Proof.Say.switchesEnd : Prop :=
  (∀ s, s.fw.switching = true → s.boot.linkResetWaits = false → Sized s → Gives .fwSwitchComplete s (fun n =>
    n.fw.switching = false ∧ n.fw.slot = s.fw.target ∧ n.fw.beatAt = s.now ∧ n.fw.heldRecs = [] ∧ n.fw.heldDoorbells = [] ∧ errSet n 0 7 ∧
    n.wards = s.wards ∧ n.slots = s.slots ∧ n.tasks = s.tasks ∧ n.heads = s.heads ∧ n.boot = s.boot ∧
    n.sec = (if s.fw.raiseSvn = true
      then { s.sec with svnRaised := max s.sec.svnRaised (fwSvn ((residentImage s s.fw.target).getD []))
                        svnWas := some (s.now, s.sec.svnRaised) } else s.sec) ∧
    (∀ fn seq, s.fw.byCommand = some (fn, seq) →
      (s.fw.overtaken = true ∨ s.fw.persist = false → cmdOf n (.admin fn) seq = none ∧ n.flash = s.flash) ∧
      (s.fw.overtaken = false → s.fw.persist = true → n.flash = { s.flash with program := some (2, bootRecord s.fw.target) })) ∧
    (s.fw.byCommand = none → s.vfs = 0 → s.fw.heldRecs = [] → s.fw.heldDoorbells = [] → s.fw.running = true → Mem.wf s.hostMem = true →
      ∀ g, ringOf s (.admin 0) = some g → ringRoomy g = true →
        let b := hostRead n (g.cqBase + 32 * (g.posted % 2 ^ g.cqLog2)) 32
        fld b 8 1 = 3 ∧ fld b 9 1 = 0x0E ∧ fld b 10 1 = (if s.fw.recovery = true then 2 else 1) ∧
        slice b 12 8 = natLe 4 ((s.now - s.fw.switchAt) / 60) ++ natLe 4 (fwId ((residentImage s s.fw.target).getD []))))) ∧
  (∀ s, s.fw.switching = true → s.boot.linkResetWaits = true → Gives .fwSwitchComplete s (fun n =>
    n.fw.switching = false ∧ n.wards = List.replicate 16 {} ∧ n.fns = List.replicate 16 {} ∧ n.heads = [] ∧
    n.boot = { s.boot with lastCause := 4, linkResetWaits := false }))

/-- KEEPER_WATCHDOG starts a recovery switch, to the other slot where it can take over; a second one within 1 s of the last, or a lost
state area, stops Phipel with KEEPER_HALT. FLASH_PROGRAM_COMPLETE ends the write in progress and the command that waits for it. -/
def Sys2Proof.Say.keeperFails : Prop :=
  (∀ s code lost, s.fw.running = true → code = true ∨ (s.fw.switching = false ∧ s.fw.beatAt + 6000000 < s.now) →
    let soon := ∃ t, s.fw.lastRecovery = some t ∧ s.now < t + 6000000000
    (lost = true ∨ soon → Sized s → Gives (.keeperWatchdog code lost) s (fun n => n.fw.running = false ∧ n.fw.switching = false ∧
      errSet n 0 2 ∧ HostMsg.aerUncorrectable ∈ n.sent ∧ n.wards = s.wards ∧ n.slots = s.slots ∧ n.flash = s.flash ∧ n.hostMem = s.hostMem)) ∧
    (lost = false → ¬ soon → Gives (.keeperWatchdog code lost) s (fun n => n = { s with ras := n.ras, fw := n.fw } ∧
      n.ras = { s.ras with recoveries := min 65535 (s.ras.recoveries + 1) } ∧ n.fw.switching = true ∧ n.fw.recovery = true ∧
      n.fw.lastRecovery = some s.now ∧ n.fw.slot = s.fw.slot ∧
      (∀ b, residentImage s (1 - s.fw.slot) = some b → takesOver (runningImage s) b = true → n.fw.target = 1 - s.fw.slot) ∧
      (residentImage s (1 - s.fw.slot) = none → n.fw.target = s.fw.slot)))) ∧
  (∀ s slot b, outOfReset s = true → s.flash.program = some (slot, b) → Gives .flashProgramComplete s (fun n =>
    n.flash = (if slot = 0 then { s.flash with program := none, slot0 := b }
      else if slot = 1 then { s.flash with program := none, slot1 := b } else { s.flash with program := none, record := b }) ∧
    n.wards = s.wards ∧ n.slots = s.slots ∧
    (∀ c, (fnOf s 0).ring.cmds = [c] → (fnOf s 0).enabled = true → c.started = true → s.fw.running = true → s.fw.switching = false →
      (entOpcode c.entry = 0x0C → slot < 2 → Result s n (.admin 0) c (natLe 1 slot)) ∧
      (entOpcode c.entry = 0x0D → slot = 2 → Answered s n (.admin 0) c 0 0))))

/-- Firmware: staging, activation, the end of a switch, recovery, and flash writes. -/
def Obligations.Firmware : Prop := imagesStaged ∧ switchesEnd ∧ keeperFails

/-! ## Hinge messages (12 R424–R433) -/

/-- A whole message of this type is the oldest one received at a port. -/
structure Sys2Proof.Say.Arrives (s : State) (port ty : Nat) (m : HMsg) : Prop where
  inRange : port < s.hinge.ports.length
  first : (portOf s port).rx.head? = some m
  type : mType m.hdr = ty
/-- It is for this device, which accepts it from its source for a ward. -/
structure Sys2Proof.Say.Accepted (s : State) (port ty : Nat) (m : HMsg) (w : Nat) : Prop where
  arrives : Arrives s port ty m
  mine : mDest m.hdr = ownId s
  fits : acceptsFrom s (mSrc m.hdr) w = true
/-- The state with the message taken from its port. -/
def Sys2Proof.Say.taken (port : Nat) (s : State) : State := popMsg port s

/-- A message for another device goes out again with one hop less, by its route, or is discarded and counted where it has no hop left or
no route; a message of this device whose source may not reach the named ward is discarded and counted. -/
def Sys2Proof.Say.messagesPass : Prop :=
  ∀ s port m, ∀ c ∈ ([(0x01, .render port), (0x02, .pose port), (0x03, .slice port), (0x04, .sliceCredit port), (0x10, .remoteReq port),
      (0x11, .remoteRep port), (0x12, .inherit port), (0x13, .holderGone port)] : List (Nat × Instr)),
    Arrives s port c.1 m →
    let discarded := fun (n : State) => n = { s with hinge := n.hinge } ∧ (∀ p, p ≠ port → portOf n p = portOf s p) ∧
      portOf n port = { portOf s port with
        rx := (portOf s port).rx.drop 1, discards := (portOf s port).discards + 1
        wrapped := (portOf s port).wrapped || (portOf s port).discards == BitVec.allOnes 32
        fresh := portFresh (portOf s port) ((portOf s port).discards == BitVec.allOnes 32) }
    (mDest m.hdr ≠ ownId s →
      (mHops m.hdr = 0 ∨ routePort s (mDest m.hdr) = none → Gives c.2 s discarded) ∧
      (∀ p, mHops m.hdr ≠ 0 → routePort s (mDest m.hdr) = some p →
        Gives c.2 s (fun n => n = queueAt p { m with hdr := patch m.hdr 14 (natLe 2 (mHops m.hdr - 1)) } (taken port s)))) ∧
    (mDest m.hdr = ownId s → c.1 ≠ 0x03 → (∀ w, acceptsFrom s (mSrc m.hdr) w = false) → Gives c.2 s discarded) ∧
    (mDest m.hdr = ownId s → c.1 = 0x03 → Gives c.2 s (fun n => n = taken port s))

/-- RENDER and POSE put their packet in transit to the ward of the context they name; SLICE_CREDIT returns entries to the head of its
stream. -/
def Sys2Proof.Say.packetsAndCredits : Prop :=
  (∀ s port m w slot x, w < s.wards.length → ctxOf s slot = some x → x.ward = w →
    ∀ c ∈ ([(0x01, .render port, false), (0x02, .pose port, true)] : List (Nat × Instr × Bool)),
    Accepted s port c.1 m w → slot = (if c.2.2 then posSlot m.payload else rpSlot m.payload) →
    let gen := if c.2.2 then posGen m.payload else rpGen m.payload
    Gives c.2.1 s (fun n => n = { taken port s with wards := n.wards, ctxs := n.ctxs } ∧ (∀ v, v ≠ w → wardOf n v = wardOf s v) ∧
      (∀ i, i ≠ slot → ctxOf n i = ctxOf s i) ∧
      (ctxOf n slot).map (fun y => { y with acct := {} }) = some { x with acct := {} } ∧
      (namedCtx s slot gen = some x →
        (ctxOf n slot).map (·.acct.hingeRx) = some (x.acct.hingeRx + BitVec.ofNat 64 m.payload.length)) ∧
      (namedCtx s slot gen = none → n.ctxs = s.ctxs) ∧
      wardOf n w = { wardOf s w with transit := (wardOf s w).transit ++
        [{ pose := c.2.2, port := 1 + port, hops := hopsCrossed s m, bytes := m.payload }] })) ∧
  (∀ s port m w head, Accepted s port 0x04 m w → headsTo s (mSrc m.hdr) (mOp m.hdr % 1024) = [head] →
    (List.range 16).find? (fun w => (wardOf s w).cfg.headMask.testBit head) = some w →
    Gives (.sliceCredit port) s (fun n => n = { taken port s with heads := n.heads } ∧ HeadOnly s n head ∧
      headOf n head = { headOf s head with
        sliceCredits := min (((headOf s head).cfg.map hbEntryCount).getD 0) ((headOf s head).sliceCredits + mOp m.hdr / 65536 % 65536) }))

/-- A fabric cycle ends, with TB running, in which a remote request was taken and no pending record passed its limit. -/
structure Sys2Proof.Say.RequestEnds (s : State) (port : Nat) (hdr : Bytes) : Prop where
  idle : s.pending = []
  runs : outOfReset s = true ∧ s.boot.pll = true
  taken : s.hinge.requests = [(port, hdr)] ∧ port < 4
  records : ∀ r ∈ s.remotes, r.2.expired = false
/-- The step from a state answers a next state, of which P holds. -/
def Sys2Proof.Say.Steps (s : State) (P : State → Prop) : Prop := ∃ n, Machine.step s = .next n ∧ P n

/-- REMOTE_REQ takes its request. At the end of the fabric cycle it acts on an exported hasp or latch as the same instruction of a local
context would, and answers with a reply; a request that no export covers, or whose context is not live, gets GONE. -/
def Sys2Proof.Say.remoteRequests : Prop :=
  (∀ s port m, Accepted s port 0x10 m (reqOf m.hdr).tward → Gives (.remoteReq port) s (fun n =>
    n = { taken port s with hinge := { (taken port s).hinge with requests := s.hinge.requests ++ [(port, m.hdr)] } })) ∧
  ∀ s port hdr, let q := reqOf hdr
    RequestEnds s port hdr →
    let rest := { s with hinge := { s.hinge with requests := [] } }
    let stands := fun (n : State) => n.wards = s.wards ∧ n.slots = s.slots ∧ n.now = s.now + 8 ∧ n.hinge.requests = []
    let answered := fun (st : Nat) => Steps s (fun n => stands n ∧ n.ctxs = s.ctxs ∧ n.hasps = s.hasps ∧
      n.hinge = (clearFresh (replyTo q.dev q.tag q.data st rest)).hinge)
    (exported s q = none → answered 2) ∧
    (∀ x, exported s q = some x →
      (3 ≤ q.op → stagingLatches s q.tslot ≤ q.target → answered 2) ∧
      (3 ≤ q.op → q.target < stagingLatches s q.tslot →
        (q.op = 3 → Steps s (fun n => stands n ∧ n.hasps = s.hasps ∧
          (ctxOf n q.tslot).map (·.stagingBits) = some (x.stagingBits ||| 2 ^ q.target) ∧
          (ctxOf n q.tslot).map (·.latchWaiters) = some (x.latchWaiters.filter (fun w => w.1 != q.target)) ∧
          ∀ i, i ≠ q.tslot → ctxOf n i = ctxOf s i)) ∧
        (q.op = 4 → Steps s (fun n => stands n ∧ n.hasps = s.hasps ∧ (∀ i, i ≠ q.tslot → ctxOf n i = ctxOf s i) ∧
          ctxOf n q.tslot = some (if setInCycle s.now q.target x.stagingMark = true then x
            else { x with stagingBits := maskDiff x.stagingBits (2 ^ q.target) }))) ∧
        (q.op = 5 → x.stagingBits.testBit q.target = true → answered 0) ∧
        (q.op = 5 → x.stagingBits.testBit q.target = false → Steps s (fun n => stands n ∧ n.hasps = s.hasps ∧
          n.hinge = (clearFresh rest).hinge ∧ (∀ i, i ≠ q.tslot → ctxOf n i = ctxOf s i) ∧
          ctxOf n q.tslot = some { x with
            latchWaiters := x.latchWaiters ++ [(q.target, .peer q.dev q.ward q.slot q.tag q.data q.inherit)] })) ∧
        (q.op = 6 → answered (if x.stagingBits.testBit q.target then 0 else 1))) ∧
      (q.op ≤ 2 → haspAt x q.target = none → answered 2) ∧
      (∀ id h, q.op ≤ 2 → haspAt x q.target = some id → tget s.hasps id = some h →
        let p : Peer := { dev := q.dev, ward := q.ward, slot := q.slot }
        let may := h.count ≠ 0 ∧ (0 < peerCount h p ∨ h.held.length + h.peers.length < 8)
        (q.op ≤ 1 → may → Steps s (fun n => stands n ∧ n.ctxs = s.ctxs ∧
          ∃ h', tget n.hasps id = some h' ∧ h'.count = h.count - 1 ∧ h'.held = h.held ∧ h'.parked = h.parked ∧
            peerCount h' p = peerCount h p + 1)) ∧
        (q.op = 0 → ¬ may → Steps s (fun n => stands n ∧ n.ctxs = s.ctxs ∧
          ∃ h', tget n.hasps id = some h' ∧ h'.count = h.count ∧ h'.held = h.held ∧ h'.peers = h.peers ∧
            h'.parked = h.parked ++ [.peer q.dev q.ward q.slot q.tag q.data q.inherit])) ∧
        (q.op = 1 → ¬ may → answered 1) ∧
        (q.op = 2 → h.count ≠ 0xFFFF → h.parked = [] → Steps s (fun n => stands n ∧
          n.ctxs = s.ctxs ∧ ∃ h', tget n.hasps id = some h' ∧ h'.count = h.count + 1 ∧ h'.held = h.held ∧ h'.parked = [] ∧
            peerCount h' p = peerCount h p - 1)) ∧
        (q.op = 2 → h.count = 0xFFFF → answered 0)))

/-- REMOTE_REP frees the record that it answers and runs the thread that waits for it, with the result in its predicate register; GONE
tears the context down with REMOTE_LOST. INHERIT sets or clears a context's inherited deadline key; HOLDER_GONE returns what the named
context holds of the hasps and withdraws what it has parked. -/
def Sys2Proof.Say.repliesAndNotices : Prop :=
  (∀ s port m id r, Accepted s port 0x11 m (reqOf m.hdr).ward →
    s.remotes.find? (fun r => r.2.request == mTag m.hdr % 65536 && r.2.slot == (reqOf m.hdr).slot && r.2.dev == (reqOf m.hdr).dev) = some (id, r) →
    (∀ x, mStatus m.hdr = 2 → liveCtx s r.slot = some x → Gives (.remoteRep port) s (fun n => TornDown n r.slot 0x08 0x03)) ∧
    (∀ th, mStatus m.hdr ≠ 2 → threadOf s r.thread = some th → th.park = .remote id → th.held = none → recordWaiters s r.ward = [] →
      Gives (.remoteRep port) s (fun n => n.wards = s.wards ∧ n.hasps = s.hasps ∧ n.tasks = s.tasks ∧ n.slots = s.slots ∧
        n.remotes = tdel s.remotes id ∧
        ∃ p, threadOf n r.thread = some { th with park := .running, p := p } ∧
          (r.op = 1 ∨ r.op = 6 → ∀ i, predIn p i = if i ≠ 0 ∧ i = r.dst then (if mStatus m.hdr = 0 then BitVec.allOnes 64 else 0)
            else predIn th.p i) ∧
          (r.op ≠ 1 → r.op ≠ 6 → p = th.p)))) ∧
  (∀ s port m w x, Accepted s port 0x12 m w → w = field (mOp m.hdr) 11 8 → liveCtx s (field (mOp m.hdr) 21 12) = some x → x.ward = w →
    Gives (.inherit port) s (fun n => n.wards = s.wards ∧ n.slots = s.slots ∧ n.cores = s.cores ∧
      ctxOf n (field (mOp m.hdr) 21 12) = some { x with
        inheritKeys := if (mOp m.hdr).testBit 0 then x.inheritKeys ++ [(mSrc m.hdr, s.now + 60 * (mOp m.hdr / 2 ^ 32))]
          else match x.inheritKeys.find? (·.1 == mSrc m.hdr) with | some e => x.inheritKeys.erase e | none => x.inheritKeys } ∧
      ∀ i, i ≠ field (mOp m.hdr) 21 12 → ctxOf n i = ctxOf s i)) ∧
  (∀ s port m, Accepted s port 0x13 m (reqOf m.hdr).tward → let q := reqOf m.hdr
    let p : Peer := { dev := q.dev, ward := q.ward, slot := q.slot }
    Gives (.holderGone port) s (fun n => n.wards = s.wards ∧ n.slots = s.slots ∧
      (∀ id h, s.hasps = [(id, h)] → h.parked = [] → ∃ h', tget n.hasps id = some h' ∧ h'.peers = h.peers.filter (fun x => x.1 != p) ∧
        h'.held = h.held ∧ h'.count = h.count + BitVec.ofNat 16 (peerCount h p)) ∧
      (∀ slot x, ctxOf s slot = some x → ∃ y, ctxOf n slot = some y ∧ y = { x with latchWaiters := y.latchWaiters } ∧
        ∀ i tag op inh, (i, Waiter.peer q.dev q.ward q.slot tag op inh) ∉ y.latchWaiters)))

/-- Hinge messages: what passes, what is accepted, and what each kind does. -/
def Obligations.HingeMessages : Prop := messagesPass ∧ packetsAndCredits ∧ remoteRequests ∧ repliesAndNotices

/-! ## Hinge links and ports (12 R415–R422, R435–R438) -/

/-- The port is down, with nothing queued or unacknowledged, and the contexts whose operations left by it are torn down with
REMOTE_LOST, UNREACHABLE (12 R432, R436). -/
def Sys2Proof.Say.PortLost (s n : State) (port state : Nat) : Prop :=
  (let x := portOf n port
   x.state = state ∧ x.retraining = false ∧ x.lanes = 0 ∧ x.q0 = [] ∧ x.q1 = [] ∧ x.q2 = [] ∧ x.replay = []) ∧
  ∀ r ∈ s.remotes, r.2.port = port → (liveCtx s r.2.slot).isSome = true → TornDown n r.2.slot 0x08 0x02
/-- Only one port changes, and what chip counters will count of it. -/
def Sys2Proof.Say.PortOnly (s n : State) (port : Nat) : Prop :=
  n = { s with hinge := { s.hinge with ports := n.hinge.ports }, perf := { s.perf with noted := n.perf.noted } } ∧
  ∀ p, p ≠ port → portOf n p = portOf s p
/-- The contexts whose peers no route reaches are torn down with REMOTE_LOST, UNREACHABLE. -/
def Sys2Proof.Say.UnreachableLost (s n : State) : Prop :=
  ∀ r ∈ s.remotes, routePort n r.2.dev = none → (liveCtx s r.2.slot).isSome = true → TornDown n r.2.slot 0x08 0x02

/-- FLIT at a port that is UP: a bad CRC is counted, a flit out of sequence is dropped, and one in sequence is accepted, its message taken
when it is whole; a NAK sends again what is not acknowledged. Elsewhere it is not received. -/
def Sys2Proof.Say.flits : Prop :=
  (∀ s port bits, (portOf s port).state ≠ 2 → Gives (.flit port bits) s (fun n => n = s)) ∧
  (∀ s port bits, (portOf s port).state = 2 → port < s.hinge.ports.length →
    let x := portOf s port
    let b := natLe 256 bits.toNat
    let ctl := fld b 240 12
    let good := crc32 (b.take 252) = fld b 252 4
    let ack := field ctl 83 72
    (¬ good → Gives (.flit port bits) s (fun n => PortOnly s n port ∧ (portOf n port).crcErrors = x.crcErrors + 1 ∧
      (portOf n port).rxFlits = x.rxFlits ∧ (portOf n port).expected = x.expected ∧ (portOf n port).rx = x.rx)) ∧
    (good → field ctl 95 84 ≠ x.expected → Gives (.flit port bits) s (fun n => PortOnly s n port ∧ (portOf n port).crcErrors = x.crcErrors ∧
      (portOf n port).rxFlits = x.rxFlits ∧ (portOf n port).expected = x.expected ∧ (portOf n port).rx = x.rx)) ∧
    (good → field ctl 95 84 = x.expected → Gives (.flit port bits) s (fun n => PortOnly s n port ∧
      let y := portOf n port
      y.rxFlits = x.rxFlits + 1 ∧ y.expected = (x.expected + 1) % 4096 ∧ y.crcErrors = x.crcErrors ∧
      (field ctl 59 58 = 3 ∨ ctl.testBit 55 = false → y.rx = x.rx ∧ y.discards = x.discards) ∧
      (field ctl 59 58 ≠ 3 → ctl.testBit 55 = true → ctl.testBit 56 = true →
        let msg := b.take (min 240 (field ctl 54 47))
        let m : HMsg := { hdr := msg.take 32, payload := msg.drop 32 }
        let ok := 32 ≤ msg.length ∧ hdrOk m.hdr = true ∧ mLength m.hdr = m.payload.length
        (ok → y.rx = x.rx ++ [m] ∧ y.discards = x.discards) ∧ (¬ ok → y.rx = x.rx ∧ y.discards = x.discards + 1)) ∧
      (ctl.testBit 57 = false → y.nakRun = (if later 12 x.nakSeq ack then x.nakRun else 0) ∧ y.replays = x.replays ∧ y.state = 2) ∧
      (ctl.testBit 57 = true →
        let run := if x.nakRun ≠ 0 ∧ x.nakSeq = (ack + 1) % 4096 then x.nakRun + 1 else 1
        (run = 8 → y.state = 1 ∧ y.retraining = true ∧ y.retrains = x.retrains + 1 ∧ y.replays = x.replays) ∧
        (run ≠ 8 → y.nakRun = run ∧ y.state = 2 ∧
          y.replays = x.replays + BitVec.ofNat 32 (x.replay.filter (fun f => later 12 f.1 ack)).length)))))

/-- Training and retraining, and what a port loses when they fail. -/
def Sys2Proof.Say.portsTrain : Prop :=
  (∀ s port b lanes, s.hinge.cfg = some b → hcEnable b port = true → port < s.hinge.ports.length → (portOf s port).retraining = false →
    let x := portOf s port
    (x.state ≤ 1 → s.hinge.known.any (sameLink (linkOf b port)) = false → Gives (.portTrained port true lanes) s (fun n => PortOnly s n port ∧
      let y := portOf n port
      y.state = 2 ∧ y.lanes = lanes ∧ y.rx = [] ∧ y.expected = 0 ∧ y.nextSeq = 1 ∧ y.wire.length = 1 ∧ y.reserve = reserveOf b port ∧
      y.txFlits = x.txFlits + 1 ∧ y.discards = x.discards)) ∧
    (x.state ≤ 1 → s.hinge.known.any (sameLink (linkOf b port)) = true → Gives (.portTrained port true lanes) s (fun n =>
      (portOf n port).state = 2 ∧ (portOf n port).lanes = lanes ∧ n.hinge.avoided = s.hinge.avoided ∧
      n.hinge.known = s.hinge.known.filter (fun k => !sameLink (linkOf b port) k) ∧
      n = { s with hinge := n.hinge, perf := { s.perf with noted := n.perf.noted } })) ∧
    (x.state = 1 → Gives (.portTrained port false lanes) s (fun n => PortLost s n port 0)) ∧
    (x.state = 0 → Gives (.portTrained port false lanes) s (fun n => n = s))) ∧
  (∀ s port lanes, (portOf s port).state = 2 → port < s.hinge.ports.length → Gives (.laneFail port lanes) s (fun n => PortOnly s n port ∧
    portOf n port = { portOf s port with
      laneFail := (portOf s port).laneFail ||| lanes % 256, state := 1, retraining := true, nakRun := 0
      retrains := (portOf s port).retrains + 1, wrapped := (portOf s port).wrapped || (portOf s port).retrains == BitVec.allOnes 32 })) ∧
  (∀ s port, (portOf s port).state = 1 → (portOf s port).retraining = true → port < s.hinge.ports.length →
    let x := portOf s port
    let lanes := healthyLanes x.lanes x.laneFail
    let back := fun (n : State) => (∀ p, p ≠ port → portOf n p = portOf s p) ∧ (portOf n port).state = 2 ∧
      (portOf n port).retraining = false ∧ (portOf n port).lanes = lanes ∧
      (portOf n port).replays = x.replays + BitVec.ofNat 32 x.replay.length
    (lanes ≠ 0 → lanes = x.lanes → Gives (.retrainComplete port true) s (fun n => PortOnly s n port ∧ back n)) ∧
    (lanes ≠ 0 → lanes ≠ x.lanes → Sized s → Gives (.retrainComplete port true) s (fun n => back n ∧ (portOf n port).degraded = true ∧
      errSet n 0 6 ∧ n.wards = s.wards ∧ n.slots = s.slots)) ∧
    (lanes = 0 → Gives (.retrainComplete port true) s (fun n => PortLost s n port 0)) ∧
    Gives (.retrainComplete port false) s (fun n => PortLost s n port 0))

/-- HELLO names the neighbour, and holds the port of a duplicate ID; LINK_DOWN and LINK_UP pass round the ring and keep the broken links
known; the loss of a neighbour tells the ring, or ends what lies beyond; REROUTE avoids every broken link. -/
def Sys2Proof.Say.linkNotices : Prop :=
  (∀ s port m, Arrives s port 0x20 m →
    (mSrc m.hdr ≠ ownId s → Gives (.hello port) s (fun n => PortOnly s n port ∧
      portOf n port = { portOf s port with rx := (portOf s port).rx.drop 1, neighbour := mSrc m.hdr })) ∧
    (mSrc m.hdr = ownId s → Gives (.hello port) s (fun n => PortLost s n port 3 ∧ (portOf n port).dupId = true ∧
      (portOf n port).downEvent = (portOf s port).downEvent ∧ (portOf n port).neighbour = mSrc m.hdr))) ∧
  (∀ s port m b, Arrives s port 0x21 m → s.hinge.cfg = some b →
    let l := (mOp m.hdr % 4096, mOp m.hdr / 4096 % 4096)
    let fresh := hcTopology b = 2 ∧ port < 2 ∧ s.hinge.known.any (sameLink l) = false
    (fresh → Gives (.linkDown port) s (fun n => n.hinge.known = s.hinge.known ++ [l] ∧ n.hinge.avoided = s.hinge.avoided ∧
      (∀ r ∈ s.remotes, recordCrosses s b l r.2 = true → (liveCtx s r.2.slot).isSome = true → TornDown n r.2.slot 0x08 0x02) ∧
      ((∀ r ∈ s.remotes, recordCrosses s b l r.2 = false) → n = queueAt (1 - port) m
        { taken port s with hinge := { (taken port s).hinge with known := s.hinge.known ++ [l] } }))) ∧
    (¬ fresh → Gives (.linkDown port) s (fun n => n = taken port s))) ∧
  (∀ s port m, Arrives s port 0x22 m →
    let l := (mOp m.hdr % 4096, mOp m.hdr / 4096 % 4096)
    (port < 2 → s.hinge.known.any (sameLink l) = true → Gives (.linkUp port) s (fun n => n = queueAt (1 - port) m
      { taken port s with hinge := { (taken port s).hinge with known := s.hinge.known.filter (fun k => !sameLink l k) } })) ∧
    (2 ≤ port ∨ s.hinge.known.any (sameLink l) = false → Gives (.linkUp port) s (fun n => n = taken port s))) ∧
  (∀ s port b, s.hinge.cfg = some b → hcEnable b port = true → (portOf s port).state ≠ 3 →
    let l := linkOf b port
    s.hinge.known.any (sameLink l) = false → Gives (.neighbourLoss port) s (fun n => n.hinge.known = s.hinge.known ++ [l] ∧
      (hcTopology b = 2 → port < 2 → n.hinge.avoided = s.hinge.avoided) ∧
      (hcTopology b ≠ 2 ∨ 2 ≤ port → n.hinge.avoided = s.hinge.avoided ++ [l] ∧ UnreachableLost s n) ∧
      ((portOf s port).state ≠ 0 → port < s.hinge.ports.length → PortLost s n port 0 ∧ (portOf n port).downEvent = true))) ∧
  (∀ s, let fresh := s.hinge.known.filter (fun l => !s.hinge.avoided.any (sameLink l))
    fresh ≠ [] → Gives .reroute s (fun n => n.hinge.avoided = s.hinge.avoided ++ fresh ∧ n.hinge.known = s.hinge.known ∧
      n.hinge.reroutes = s.hinge.reroutes + 1 ∧ n.hinge.cfg = s.hinge.cfg ∧ UnreachableLost s n))

/-- HINGE_CONFIG refuses a block of a wrong length, with a failing field, or without a range in use; else the block is in force, and
every enabled port that changes trains again; which links stay known as broken, and which ports train, is the model's choice (log 41). -/
def Sys2Proof.Say.hingeConfigured : Prop :=
  ∀ s fn seq c, readyCmd (.admin fn) seq 0x0B s = some c →
    let k := entArg c.entry 0
    let b := hostRead s (entAddr0 c.entry) k
    let sized := 64 ≤ k ∧ k = 64 + 8 * hcRoutes b + 16 * hcRemotes b
    let used := ((s.hinge.cfg.map hcRanges).getD []).any (fun e => !(hcRanges b).contains e && rangeUsed s e)
    (¬ sized → Gives (.hingeConfig fn seq) s (fun n => Answered s n (.admin fn) c 0x20 0x06 ∧ n.hinge = s.hinge)) ∧
    (∀ off, sized → hingeBlockBad b = some off →
      Gives (.hingeConfig fn seq) s (fun n => AnsweredWith s n (.admin fn) c 0x21 0x01 (natLe 4 off) ∧ n.hinge = s.hinge)) ∧
    (sized → hingeBlockBad b = none → used = true →
      Gives (.hingeConfig fn seq) s (fun n => Answered s n (.admin fn) c 0x28 0x02 ∧ n.hinge = s.hinge)) ∧
    (sized → hingeBlockBad b = none → used = false →
      Gives (.hingeConfig fn seq) s (fun n => Answered s n (.admin fn) c 0 0 ∧ n.hinge.cfg = some b ∧
        n.hinge.known = brokenUnder s.hinge.cfg b s.hinge.known ∧ n.hinge.avoided = n.hinge.known ∧ n.hinge.ports.length = 4 ∧ UnreachableLost s n ∧
        ∀ p, p < 4 → (hcEnable b p = false → (portOf n p).state = 0) ∧ (hcEnable b p = true → 1 ≤ (portOf n p).state ∧ (portOf n p).state ≤ 2) ∧
          (hcEnable b p = true → s.hinge.cfg = none → (portOf n p).state = 1)))

/-- Hinge links: flits, training, notices and configuration. -/
def Obligations.HingeLinks : Prop := flits ∧ portsTrain ∧ linkNotices ∧ hingeConfigured

/-! ## Counters and samples (14 R466–R476) -/

/-- A core's counter unit is the only one that changes. -/
def Sys2Proof.Say.CounterOnly (s n : State) (core : Nat) : Prop :=
  n = { s with perf := { s.perf with cores := n.perf.cores } } ∧ ∀ c, c ≠ core → corePerf n c = corePerf s c

/-- Writes of the counter registers by the PF: PC_BW_CFG clears LAST and PEAK and counting resumes at the next window; FREEZE stops and
CLEAR zeroes; a write of PC_SAMPLE_CTRL is refused with CONFLICT where the comparator or GPIO_SYNC is in use; PC_SBUF_CFG sets the buffer
while it is off; the consumer index moves up to PRODUCER; PERF_USER is set for a LIVE slot only. With the PF's BARs closed nothing changes. -/
def Sys2Proof.Say.counterWrites : Prop :=
  (∀ s, barsOpen s 0 = false → ∀ core v b, ∀ c ∈ ([.bwCfgWrite core v, .counterFreeze b, .counterClear, .sampleTimerEnable v,
    .sampleExternalEnable v, .sbufEnable v, .sbufConsumerWrite v, .perfUserWrite core b] : List Instr), Gives c s (fun n => n = s)) ∧
  (∀ s, barsOpen s 0 = true →
    (∀ core v, core < coreCount s → v % 32 ≤ 16 → Gives (.bwCfgWrite core v) s (fun n => CounterOnly s n core ∧
      corePerf n core = { corePerf s core with
        bwEnable := v.testBit 31, bwWindow := v % 32, bwRuns := false, bwIndex := tb s / (100 * 2 ^ (v % 32))
        bwCur := List.replicate 6 0, bwLast := List.replicate 6 0, bwPeak := List.replicate 6 0 })) ∧
    (∀ b, Gives (.counterFreeze b) s (fun n => n = { s with perf := { s.perf with freeze := b } })) ∧
    Gives .counterClear s (fun n => n = { s with perf := n.perf } ∧ n.perf.chipOvf = 0 ∧ n.perf.freeze = s.perf.freeze ∧ n.perf.cleared = true ∧
      (∀ c i, (corePerf n c).cnt.getD i 0 = 0 ∧ (corePerf n c).bwLast.getD i 0 = 0 ∧ (corePerf n c).bwPeak.getD i 0 = 0) ∧
      (∀ c, (corePerf n c).ovf = 0 ∧ (corePerf n c).sel = (corePerf s c).sel) ∧ ∀ i, (tgetD n.perf.chip i {}).cnt = 0) ∧
    (∀ v, v < 2 ^ 64 → ∀ c ∈ ([(Instr.sampleTimerEnable v, v % 2 ^ 63 + 2 ^ 63), (.sampleExternalEnable v, v ||| 2 ^ 62)] : List (Instr × Nat)),
      let w := c.2
      let held := w.testBit 63 = true ∧ detentHolds s (field w 58 48) = true
      let genlocked := w.testBit 62 = true ∧ genlockOn s = true
      (held → Gives c.1 s (fun n => n = { s with perf := { s.perf with conflict := 3 } })) ∧
      (¬ held → genlocked → Gives c.1 s (fun n => n = { s with perf := { s.perf with conflict := 2 } })) ∧
      (¬ held → ¬ genlocked → field w 58 48 ≤ 1025 → Gives c.1 s (fun n => n = { s with perf := { s.perf with
        timerOn := w.testBit 63, externalOn := w.testBit 62, head := field w 58 48, line := field w 47 32, conflict := 0 } }))) ∧
    (∀ v, s.perf.sbufEnable = false → v.testBit 63 = true → 6 ≤ field v 36 32 → field v 36 32 ≤ 16 → 1 ≤ v % 2 ^ 17 →
      v % 2 ^ 17 ≤ 2 ^ field v 36 32 → Gives (.sbufEnable v) s (fun n => n = { s with perf := { s.perf with
        sbufEnable := true, sbufVector := field v 58 48, sbufLog2 := field v 36 32, watermark := v % 2 ^ 17, producer := 0, consumer := 0 } })) ∧
    (∀ v, s.perf.sbufEnable = true → (v.testBit 63 = true → Gives (.sbufEnable v) s (fun n => n = s)) ∧
      (v.testBit 63 = false → Gives (.sbufEnable v) s (fun n => n = { s with perf := n.perf } ∧ n.perf.sbufEnable = false ∧
        n.perf.producer = s.perf.producer ∧ ∀ c, corePerf n c = { corePerf s c with sample := none }))) ∧
    (∀ v, v < 2 ^ 32 → let left := (s.perf.producer + 2 ^ 32 - v) % 2 ^ 32
      (left ≤ sbufUnread s.perf → Gives (.sbufConsumerWrite v) s (fun n => n = { s with perf := { s.perf with consumer := v } })) ∧
      (sbufUnread s.perf < left → Gives (.sbufConsumerWrite v) s (fun n => n = s))) ∧
    (∀ slot b, slot < 1024 → (b = false ∨ (slotOf s slot).state = .live → Gives (.perfUserWrite slot b) s (fun n =>
        n = { s with slots := n.slots, perf := { s.perf with userWas := n.perf.userWas } } ∧ (∀ i, i ≠ slot → slotOf n i = slotOf s i) ∧
        slotOf n slot = { slotOf s slot with perfUser := b })) ∧
      (b = true → (slotOf s slot).state ≠ .live → Gives (.perfUserWrite slot b) s (fun n => n = s))) ∧
    Gives .sbufLostRead s (fun n => n = { s with perf := { s.perf with lost := 0 }, lastRead := natLe 4 s.perf.lost, lastPoisoned := false }))

/-- A bandwidth window ends: its counts become LAST, and PEAK where larger, and the first boundary after a write only starts counting.
The sampling timer triggers a record of each named core, or loses it where the buffer is full or a record waits; a record goes to its
place in the buffer, and the watermark sends a message. -/
def Sys2Proof.Say.windowsAndSamples : Prop :=
  (∀ s core, let p := corePerf s core
    p.bwEnable = true → p.bwIndex < tb s / (100 * 2 ^ p.bwWindow) →
    Gives (.bwWindowEnd core) s (fun n => CounterOnly s n core ∧ corePerf n core = { p with
      bwRuns := true, bwIndex := tb s / (100 * 2 ^ p.bwWindow), bwCur := List.replicate 6 0
      bwLast := if p.bwRuns then p.bwCur else p.bwLast, bwPeak := if p.bwRuns then List.zipWith max p.bwPeak p.bwCur else p.bwPeak })) ∧
  (∀ s, timerDue s = true →
    (s.perf.sbufEnable = false → Gives .sampleTimer s (fun n =>
      n = { s with perf := { s.perf with lastTimer := (headOf s s.perf.head).prevStart } })) ∧
    (∀ core, s.perf.sbufEnable = true → bitList (coreCount s) s.perf.sampleCores = [core] →
      let full := (corePerf s core).sample.isSome = true ∨ sbufUnread s.perf = 2 ^ s.perf.sbufLog2
      (¬ full → Gives .sampleTimer s (fun n => n = { s with perf := n.perf } ∧ n.perf.lost = s.perf.lost ∧
        (∀ c, c ≠ core → corePerf n c = corePerf s c) ∧
        corePerf n core = { corePerf s core with sample := some { trigger := 2, ovfMask := 0, at_ := s.now } })) ∧
      (full → Gives .sampleTimer s (fun n => n = { s with perf := { s.perf with
        lastTimer := (headOf s s.perf.head).prevStart, lost := min (2 ^ 32 - 1) (s.perf.lost + 1) } })))) ∧
  (∀ s core thread q, (corePerf s core).sample = some q → s.perf.sbufEnable = true →
    (∀ i, thread = some i → (threadOf s { core := core, slot := i }).isSome = true) →
    let addr := s.perf.sbufBase + 128 * (s.perf.producer % 2 ^ s.perf.sbufLog2)
    (Mem.wf s.hostMem = true → Gives (.sampleRecordWrite core thread true) s (fun n => n.wards = s.wards ∧ n.ctxs = s.ctxs ∧
      hostRead n addr 128 = sampleBytes s core q thread ∧ (∀ a, a < addr ∨ addr + 128 ≤ a → Mem.read n.hostMem a = Mem.read s.hostMem a) ∧
      n.perf.producer = (s.perf.producer + 1) % 2 ^ 32 ∧ n.perf.consumer = s.perf.consumer ∧
      corePerf n core = { corePerf s core with sample := none } ∧
      (sbufUnread { s.perf with producer := (s.perf.producer + 1) % 2 ^ 32 } = s.perf.watermark →
        (tgetD (fnOf s 0).msix s.perf.sbufVector {}).masked = false → n.sent = s.sent ++ [.msix 0 s.perf.sbufVector]) ∧
      (sbufUnread { s.perf with producer := (s.perf.producer + 1) % 2 ^ 32 } ≠ s.perf.watermark → n.sent = s.sent))) ∧
    (Sized s → Gives (.sampleRecordWrite core thread false) s (fun n => errSet n 0 3 ∧ HostMsg.aerHostAccess ∈ n.sent ∧
      n.perf.producer = (s.perf.producer + 1) % 2 ^ 32 ∧ (corePerf n core).sample = none)))

/-- Counters: their registers, windows and samples. -/
def Obligations.Counters : Prop := counterWrites ∧ windowsAndSamples

/-! ## Repair and errors (15 R480–R491, R499) -/

/-- A device error: bit of KW_ERR_STATUS set in the PF, with wards, contexts and host memory as they were. -/
def Sys2Proof.Say.Reports (s n : State) (bit : Nat) : Prop :=
  errSet n 0 bit ∧ n.wards = s.wards ∧ n.slots = s.slots ∧ n.ctxs = s.ctxs ∧ n.tasks = s.tasks ∧ n.cores = s.cores ∧ n.hostMem = s.hostMem

/-- SCRUB_PASS counts its pass, what it corrected and what it found; ROW_SPARE and the channel rows take spares, set SPARE_REMAP, and a
lost channel tears down the contexts that hold its granules, which read as zero; one without a spare leaves its ward. -/
def Sys2Proof.Say.vaultRepair : Prop :=
  (∀ s vault c, Sized s → outOfReset s = true →
    let cor : Corrected := if vault then { vault := c.vault } else { c with vault := 0 }
    let passed : Ras := if vault then { s.ras with vaultPasses := min (2 ^ 32 - 1) (s.ras.vaultPasses + 1) }
      else { s.ras with sramPasses := min (2 ^ 32 - 1) (s.ras.sramPasses + 1) }
    let counted : Ras := { passed with
      ceCoreStore := satAdd 32 s.ras.ceCoreStore cor.coreStore, ceRegister := satAdd 32 s.ras.ceRegister cor.register
      ceStaging := satAdd 32 s.ras.ceStaging cor.staging, ceVcache := satAdd 32 s.ras.ceVcache cor.vcache
      ceVault := satAdd 32 s.ras.ceVault cor.vault, ceKeeper := satAdd 32 s.ras.ceKeeper cor.keeper }
    Gives (.scrubPass vault c []) s (fun n => n.ras = counted ∧ (cor = ({} : Corrected) → n = { s with ras := n.ras }) ∧
      (cor ≠ ({} : Corrected) → Reports s n 0)) ∧
    (∀ w line, w < 16 → Gives (.scrubPass vault c [(w, line)]) s (fun n =>
      n.ras = { counted with ueLatent := satAdd 16 s.ras.ueLatent 1 } ∧ n.slots = s.slots ∧
      ((mappedAlloc (wardOf s w) line).isSome = true → line ∈ (wardOf n w).poisoned ∧ (wardOf n w).mem = (wardOf s w).mem) ∧
      (mappedAlloc (wardOf s w) line = none → n.wards = s.wards)))) ∧
  (∀ s ch, Sized s → outOfReset s = true → ch < channelCount s →
    let used := tgetD s.ras.rowsUsed ch 0
    (used < 512 → Gives (.rowSpare ch) s (fun n => Reports s n 5 ∧ n.ras = { s.ras with rowsUsed := tput s.ras.rowsUsed ch (used + 1) })) ∧
    (copiesOfStack s ch < stackSpares s ch → ch ∉ s.ras.copying → ch ∉ s.ras.failedChans →
      Gives (.channelSpareStart ch) s (fun n => n = { s with ras := { s.ras with copying := s.ras.copying ++ [ch] } })) ∧
    (ch ∉ s.ras.failedChans → Gives (.channelLost ch) s (fun n =>
      (∀ w slot, w < 16 → slot ∈ holdersOf s ch w → (liveCtx s slot).isSome = true → TornDown n slot 0x09 0x01) ∧
      (∀ w a i k, w < 16 → a ∈ (wardOf s w).allocs → i ∈ granulesIn ch a → k < 2 ^ 18 → Mem.wf (wardOf s w).mem = true →
        Mem.read (wardOf n w).mem ((a.base + i) * 2 ^ 18 + k) = 0) ∧
      (0 < stackSpares s ch → errSet n 0 5 ∧ n.ras.failedChans = s.ras.failedChans ∧
        n.ras.chanSpares.getD (ch / 16) 0 = s.ras.chanSpares.getD (ch / 16) 0 - 1 ∧
        ∀ w, (wardOf n w).cfg = (wardOf s w).cfg) ∧
      (stackSpares s ch = 0 → n.ras.failedChans = s.ras.failedChans ++ [ch] ∧
        ∀ w, w < 16 → (wardOf n w).cfg.chanMask = maskDiff (wardOf s w).cfg.chanMask (2 ^ ch))))) ∧
  (∀ s ch, Sized s → ch ∈ s.ras.copying → Gives (.channelSpareComplete ch) s (fun n => Reports s n 5 ∧ n.ras = { s.ras with
    chanSpares := s.ras.chanSpares.modify (ch / 16) (· - 1), rowsUsed := tdel s.ras.rowsUsed ch
    copying := s.ras.copying.filter (· != ch) }))

/-- A retirement moves the logical core to the first spare, with SPARE_REMAP, or marks it failed and takes it out of its ward's groups;
it is recorded in MG_RAS_LAST. -/
def Sys2Proof.Say.Retired (s n : State) (core cause : Nat) : Prop :=
  n.ras.remaps = min (2 ^ 16 - 1) (s.ras.remaps + 1) ∧ n.ras.lastLogical = core ∧ n.ras.lastPhys = physOf s core ∧ n.ras.lastCause = cause ∧
  (∀ p rest, s.ras.spares = p :: rest → n.ras.spares = rest ∧ n.ras.sparesLeft = rest.length ∧ physOf n core = p ∧
    coreOf n core = {} ∧ errSet n 0 5 ∧ ∀ w, (wardOf n w).cfg = (wardOf s w).cfg) ∧
  (s.ras.spares = [] → (coreOf n core).mode = .failed ∧
    ∀ w, w < 16 → (wardOf n w).cfg.coreMask = maskDiff (wardOf s w).cfg.coreMask (2 ^ core))

/-- Drains and immediate retirements of cores, the ends of self-tests, and errors of fixed-function units and of the device. -/
def Sys2Proof.Say.coreRepair : Prop :=
  (∀ s core, outOfReset s = true → core < coreCount s → (coreOf s core).mode = .running →
    let drains := fun (cause : CoreCause) (n : State) => n = { s with cores := n.cores } ∧ (∀ c, c ≠ core → coreOf n c = coreOf s c) ∧
      coreOf n core = { coreOf s core with mode := .draining cause s.now }
    Gives (.coreSelfTest core) s (drains .test) ∧ Gives (.coreDrainStart core .test) s (drains .test) ∧
    Gives (.coreDrainStart core .corrected) s (drains .corrected)) ∧
  (∀ s core cause since, Sized s → (coreOf s core).mode = .draining cause since →
    (startedOn s core = [] → Gives (.coreDrainEnd core false) s (fun n => Retired s n core (coreCauseCode cause) ∧ n.slots = s.slots ∧
      (cause = .test → n.ras.testing = s.ras.testing ++ [(physOf s core, core)]) ∧ (cause ≠ .test → n.ras.testing = s.ras.testing))) ∧
    (startedOn s core ≠ [] → since + 60000000 ≤ s.now → (s.tasks.map (·.1)).Nodup → Gives (.coreDrainEnd core true) s (fun n =>
      Retired s n core (coreCauseCode cause) ∧ (∀ id q, tget n.tasks id = some q → q.core = core → q.started = false) ∧
      ∀ t ∈ startedOn s core, irrevocable s t.1 t.2 = true → (liveCtx s t.2.slot).isSome = true → TornDown n t.2.slot 0x09 0x03))) ∧
  (∀ s core cause, Sized s → cause = .uncorrectable ∨ cause = .parity → outOfReset s = true → core < coreCount s →
    (coreOf s core).mode ≠ .failed → (s.tasks.map (·.1)).Nodup → Gives (.coreRetireImmediate core cause) s (fun n => Retired s n core (coreCauseCode cause) ∧
      (∀ id q, tget n.tasks id = some q → q.core = core → q.started = false) ∧
      ∀ t ∈ startedOn s core, irrevocable s t.1 t.2 = true → (liveCtx s t.2.slot).isSome = true → TornDown n t.2.slot 0x09 0x03)) ∧
  (∀ s phys logical, tget s.ras.testing phys = some logical →
    let left := s.ras.testing.filter (fun t => t.1 != phys)
    Gives (.selfTestComplete phys true) s (fun n => n = { s with ras := { s.ras with
      testing := left, spares := s.ras.spares ++ [phys], sparesLeft := s.ras.spares.length + 1 } }) ∧
    Gives (.selfTestComplete phys false) s (fun n => n = { s with ras := { s.ras with
      testing := left, remaps := min (2 ^ 16 - 1) (s.ras.remaps + 1), lastLogical := logical, lastPhys := phys, lastCause := 4 } })) ∧
  (∀ s phys, tget s.ras.testing phys = none → phys ∈ s.ras.spares →
    Gives (.selfTestComplete phys true) s (fun n => n = s) ∧
    Gives (.selfTestComplete phys false) s (fun n => n = { s with ras := n.ras, free := n.free } ∧
      n.ras.spares = s.ras.spares.filter (· != phys) ∧ n.ras.sparesLeft = s.ras.sparesLeft - 1 ∧ n.ras.lastPhys = phys ∧
      n.ras.lastCause = 4 ∧ n.ras.remaps = min (2 ^ 16 - 1) (s.ras.remaps + 1))) ∧
  (∀ s, Sized s → outOfReset s = true →
    (∀ unit, Gives (.unitParityError unit none) s (fun n => Reports s n 1)) ∧
    (∀ unit, Gives (.deviceUncorrectable unit) s (fun n => Reports s n 1 ∧
      ∀ u, unit = some u → (fnOf n 0).errInfo = BitVec.ofNat 64 (2 ^ 56 + faultUnitCode u * 2 ^ 48))) ∧
    (∀ unit slot x, liveCtx s slot = some x → wardHasUnit (wardOf s x.ward).cfg unit = true →
      Gives (.unitParityError unit (some slot)) s (fun n => TornDown n slot 0x09 0x03 ∧
        n.ras = { s.ras with ueContext := min (2 ^ 16 - 1) (s.ras.ueContext + 1) })))

/-- Repair: scrubbing, vault spares, core retirement, and errors of units. -/
def Obligations.Repair : Prop := vaultRepair ∧ coreRepair

/-! ## Security and the JTAG port (15 R499–R503, Table 15-7; 17 R533, R539) -/

/-- A device reset: wards, functions, contexts, heads, cores, tasks, hasps, links and counters at their reset values and TB at zero; host
memory, what waits in the queue and what has been sent stay, and so does a flash that no write was changing (16 R504, Table 16-1). -/
structure Sys2Proof.Say.Cleared (s n : State) : Prop where
  wards : n.wards = List.replicate 16 {}
  fns : n.fns = List.replicate 16 {}
  contexts : n.slots = [] ∧ n.ctxs = [] ∧ n.tasks = [] ∧ n.cores = [] ∧ n.hasps = [] ∧ n.remotes = []
  heads : n.heads = [] ∧ n.tap = none
  units : n.hinge = {} ∧ n.perf = {} ∧ n.smb = {} ∧ n.fw = {} ∧ n.vfs = 0 ∧ n.now = 0
  outside : n.hostMem = s.hostMem ∧ n.pending = s.pending ∧ n.sent = s.sent ∧ n.part = s.part
  resident : n.flash.image0 = none ∧ n.flash.image1 = none ∧ n.flash.program = none
  flash : s.flash.program = none → (n.flash.record, n.flash.slot0, n.flash.slot1) = (s.flash.record, s.flash.slot0, s.flash.slot1)

/-- A failed health test of the random source, a sensor reset, which undoes a debug unlock and an SVN raised in its fabric cycle, and the JTAG instructions; a device held in reset takes none of them. -/
def Sys2Proof.Say.portAndSensors : Prop :=
  (∀ s, Sized s → outOfReset s = true → Gives .rngFail s (fun n => Reports s n 1 ∧ n.sec = { s.sec with rngFail := true })) ∧
  (∀ s cause, s.boot.power = true → Gives (.sensorReset cause) s (fun n => Cleared s n ∧ n.boot.lastCause = 3 ∧ n.ras = s.ras ∧
    (let was := undoCycle s.now s.sec
     n.sec.tamper = (was.tamper ||| 2 ^ sensorBit cause) ∧ n.sec.unlocked = was.unlocked ∧ n.sec.svnRaised = was.svnRaised) ∧
    n.sec.tamperEver = true ∧ n.sec.challenge = none)) ∧
  (∀ x now, (x.unlockWas = none → x.svnWas = none → undoCycle now x = x) ∧
    (∀ tamper ever, x.unlockWas = some (now, tamper, ever) → (undoCycle now x).unlocked = false ∧ (undoCycle now x).tamper = tamper) ∧
    (∀ svn, x.svnWas = some (now, svn) → (undoCycle now x).svnRaised = svn)) ∧
  (∀ s cause, s.boot.power = false → Gives (.sensorReset cause) s (fun n => n = s)) ∧
  (∀ s, outOfReset s = true →
    Gives .bypass s (fun n => n = { s with sec := { s.sec with ir := 0xFF, pins := .functional, shiftedOut := 0 } }) ∧
    Gives .idcode s (fun n => n = { s with sec := { s.sec with ir := 0x01, pins := .functional, shiftedOut := idcode s } } ∧
      n.sec.shiftedOut % 2 = 1 ∧ n.sec.shiftedOut / 2 % 2048 = 0x1D3 ∧
      n.sec.shiftedOut / 2 ^ 12 % 65536 = (if s.part = .bkz2048 then 0x2048 else 0x1280)) ∧
    Gives .samplePreload s (fun n => n = { s with free := n.free, sec := n.sec } ∧
      n.sec = { s.sec with ir := 0x02, pins := .functional, shiftedOut := n.sec.shiftedOut }) ∧
    (∀ c ∈ ([(Instr.extest, 0x03, PinMode.extest), (.clamp, 0x04, .clamp), (.highz, 0x05, .highz)] : List (Instr × Nat × PinMode)),
      Gives c.1 s (fun n => Cleared s n ∧ n.sec.ir = c.2.1 ∧ n.sec.pins = c.2.2 ∧ n.boot.lastCause = 3 ∧ n.ras = s.ras ∧
        n.sec.tamper = ((undoCycle s.now s.sec).tamper ||| 8)))) ∧
  (∀ s, Gives .tapReset s (fun n => n = { s with sec := { s.sec with ir := 0x01, pins := .functional } })) ∧
  (∀ s, outOfReset s = false → ∀ r v op, ∀ c ∈ ([.bypass, .idcode, .samplePreload, .extest, .clamp, .highz, .unlockChallenge,
    .unlockResponse r v, .yakabryDebugAccess op] : List Instr), Gives c s (fun n => n = s))

/-- The debug lock: a challenge ends in the device ID; a valid response destroys every ward's key and tears every context down before the
device is unlocked, and an invalid one discards the challenge and starts the hold-off, in which none is issued. -/
def Sys2Proof.Say.debugLock : Prop :=
  (∀ s, outOfReset s = true →
    (s.sec.holdoff = false → Gives .unlockChallenge s (fun n => n = { s with free := n.free, sec := n.sec } ∧
      ∃ r : U64, n.sec = { s.sec with
        ir := 0x40, pins := .functional, shiftedOut := r.toNat + Config.deviceId.toNat * 2 ^ 64
        challenge := some (r.toNat + Config.deviceId.toNat * 2 ^ 64) })) ∧
    (s.sec.holdoff = true → Gives .unlockChallenge s (fun n => n = { s with free := n.free, sec := n.sec } ∧
      n.sec.challenge = none ∧ n.sec.holdoff = true ∧ n.sec.unlocked = s.sec.unlocked)) ∧
    (∀ r v, responseValid s r v = true → Sized s → Gives (.unlockResponse r v) s (fun n => n.sec.unlocked = true ∧ n.sec.challenge = none ∧
      n.sec.tamper = (s.sec.tamper ||| 16) ∧ n.sec.ir = 0x41 ∧
      (∀ w, w < 16 → WardTorn s n w ∧ (wardOf n w).key = none ∧ (wardOf n w).mem = [] ∧ (wardOf n w).images = [] ∧
        (wardOf n w).cfg = (wardOf s w).cfg))) ∧
    (∀ r v, responseValid s r v = false → Gives (.unlockResponse r v) s (fun n => n = { s with sec := { s.sec with
      ir := 0x41, pins := .functional, shiftedOut := 0, challenge := none, holdoff := true, holdoffAt := s.now } })) ∧
    (∀ op, s.sec.unlocked = false → Gives (.yakabryDebugAccess op) s (fun n =>
      n = { s with sec := { s.sec with ir := op, pins := .functional, shiftedOut := 0 } })) ∧
    (∀ op, s.sec.unlocked = true → Gives (.yakabryDebugAccess op) s (fun n => n = { s with free := n.free, sec := n.sec } ∧
      n.sec = { s.sec with ir := op, pins := .functional, shiftedOut := n.sec.shiftedOut }))) ∧
  (∀ s, s.sec.holdoff = true → s.sec.holdoffAt + 6000000000 ≤ s.now →
    Gives .unlockHoldoffExpiry s (fun n => n = { s with sec := { s.sec with holdoff := false } }))

/-- Security: the random source, sensors, JTAG and the debug lock. -/
def Obligations.Security : Prop := portAndSensors ∧ debugLock

/-! ## Resets and the boot sequence (16 R504–R513; 17 R533, R538) -/

/-- Power-on, power-fail and cold resets, and the release of PERST_N. -/
def Sys2Proof.Say.resets : Prop :=
  (∀ s, Gives .powerOnReset s (fun n => Cleared s n ∧ n.boot.power = true ∧ n.boot.lastCause = 1 ∧ n.boot.perst = s.boot.perst ∧
    n.boot.stage = 0 ∧ n.boot.pll = false ∧ n.boot.decoded = false ∧ n.sec = { svnRaised := s.sec.svnRaised })) ∧
  (∀ s, s.boot.power = true → Gives .powerFail s (fun n => Cleared s n ∧ n.boot.power = false ∧ n.boot.lastCause = s.boot.lastCause)) ∧
  (∀ s, s.boot.power = false → Gives .powerFail s (fun n => n = s)) ∧
  (∀ s, s.boot.perst = true → Gives .coldReset s (fun n => n = s)) ∧
  (∀ s, s.boot.perst = false → s.boot.power = true → Gives .coldReset s (fun n => Cleared s n ∧ n.boot.perst = true ∧
    n.boot.power = true ∧ n.boot.lastCause = 2 ∧ n.sec.unlocked = false ∧ n.sec.tamper = s.sec.tamper)) ∧
  (∀ s, s.boot.perst = false → s.boot.power = false → Gives .coldReset s (fun n => n = { s with boot := { s.boot with perst := true } })) ∧
  (∀ s, s.boot.perst = true → ¬ (s.boot.coldHeld = true ∧ s.boot.lastCause = 3) →
    Gives .perstNRelease s (fun n => n = { s with boot := { s.boot with perst := false, coldHeld := false } })) ∧
  (∀ s, s.boot.perst = true → s.boot.coldHeld = true → s.boot.lastCause = 3 →
    Gives .perstNRelease s (fun n => Cleared s n ∧ n.boot.perst = false ∧ n.boot.lastCause = 2)) ∧
  (∀ s, s.boot.perst = false → Gives .perstNRelease s (fun n => n = s))

/-- The steps of the boot sequence, in their order: the PLL locks and TB starts at zero; the boot ROM checks the images, the boot record's
slot first; the vault and the cores come up, repaired; then configuration requests are answered, and READY follows. -/
def Sys2Proof.Say.bootSteps : Prop :=
  (∀ s, outOfReset s = true → s.boot.pll = false →
    Gives .pllLock s (fun n => n = { s with boot := { s.boot with pll := true, stage := 1 }, now := 0 })) ∧
  (∀ s, outOfReset s = true → s.boot.pll = true → s.boot.stage = 1 →
    let first := recordSlot s.flash.record
    let ok := fun (k : Nat) => bootCheck s (if k = 0 then s.flash.slot0 else s.flash.slot1) = none
    Gives (.bootImageCheck false) s (fun n => n = { s with boot := { s.boot with stage := 15, failCode := 0x10 } }) ∧
    (ok first ∨ ok (1 - first) → Gives (.bootImageCheck true) s (fun n => n = { s with boot := n.boot, fw := n.fw, flash := n.flash } ∧
      n.boot.stage = 2 ∧ n.boot.bootSlot = first ∧ n.fw.running = true ∧ n.fw.ready = s.fw.ready ∧
      (ok first → n.fw.slot = first) ∧ (¬ ok first → n.fw.slot = 1 - first) ∧
      (ok 0 → n.flash.image0 = some (bootImage s.flash.slot0)) ∧ (¬ ok 0 → n.flash.image0 = none) ∧
      (ok 1 → n.flash.image1 = some (bootImage s.flash.slot1)) ∧ (¬ ok 1 → n.flash.image1 = none))) ∧
    (¬ ok first → ¬ ok (1 - first) → Gives (.bootImageCheck true) s (fun n => n = { s with boot := n.boot, flash := n.flash } ∧
      n.boot.stage = 15 ∧ n.boot.slotsValid = 0 ∧ n.boot.bootSlot = first ∧
      some n.boot.failCode = bootCheck s (if 1 - first = 0 then s.flash.slot0 else s.flash.slot1)))) ∧
  (∀ s failed, outOfReset s = true → s.boot.stage = 2 → Gives (.vaultTrain failed) s (fun n =>
    n.boot = { s.boot with stage := 3 } ∧ (∀ c ∈ n.ras.failedChans, c ∈ failed) ∧
    (((failed.eraseDups.filter (fun c => decide (c < channelCount s))).map (· / 16)).Nodup → n.ras.failedChans = []) ∧
    (failed = [] → n = { s with boot := n.boot, ras := n.ras }))) ∧
  (∀ s failed, outOfReset s = true → s.boot.stage = 3 →
    let pass := (List.range (if s.part = .bkz2048 then 2112 else 1344)).filter (fun p => !failed.contains p)
    Gives (.coreBringup failed) s (fun n => n = { s with boot := n.boot, ras := n.ras, cores := n.cores } ∧ n.boot = { s.boot with stage := 4 } ∧
      n.ras.spares = (pass.drop (coreCount s)).take 64 ∧ n.ras.sparesLeft = n.ras.spares.length ∧
      ∀ c, c < coreCount s → (∀ p, pass[c]? = some p → physOf n c = p ∧ (coreOf n c).mode = .running) ∧
        (pass[c]? = none → (coreOf n c).mode = .failed))) ∧
  (∀ s, outOfReset s = true → s.boot.decoded = false → s.boot.stage = 4 ∨ s.boot.stage = 15 →
    Gives .configReady s (fun n => n = { s with boot := n.boot, fw := n.fw, free := n.free } ∧ n.boot.decoded = true ∧
      n.boot.stage = (if s.boot.stage = 4 then 5 else 15) ∧ n.fw = { s.fw with ready := s.boot.stage == 4 }))

/-- Resets of the device and the boot sequence. -/
def Obligations.Boot : Prop := resets ∧ bootSteps

/-! ## Operating points and readings (16 R514–R523; 17 R541) -/

/-- OP_EVALUATION, once per millisecond: the target goes one point down while a step-down condition holds, up once every step-up condition
has held for 100 ms, and to the requested point when that changes; a decision that still waits for frame starts is not replaced. -/
def Sys2Proof.Say.evaluations : Prop :=
  (∀ s, outOfReset s = true → s.boot.pll = true → 6000000 * s.op.evalMs ≤ s.now →
    let ms := s.now / 6000000
    let req := if s.op.repeatable then 1 else 0
    let base := if req = s.op.requested then s.op.target else req
    let down := stepDownCauses s
    let new := if down ≠ 0 then min 4 (base + 1) else if req ≠ s.op.requested then req
      else if stepUpHolds s = true ∧ s.op.upFailMs + 100 ≤ ms ∧ req < base then base - 1 else base
    let binding := (s.ctxs.map (·.1)).filter (bindsCores s)
    (s.op.pending = false → Sized s → Gives .opEvaluation s (fun n => n = { s with op := n.op, fns := n.fns, free := n.free, sent := n.sent } ∧
      n.op.target = new ∧ n.op.requested = req ∧ n.op.evalMs = ms + 1 ∧ n.op.upFailMs = (if stepUpHolds s then s.op.upFailMs else ms) ∧
      (new = s.op.target → n.op.pending = false ∧ n.op.changes = s.op.changes ∧ n.op.causes = s.op.causes ∧ n.fns = s.fns) ∧
      (new ≠ s.op.target → n.op.prev = s.op.target ∧
        (binding = [] → n.op.pending = false ∧ n.op.changes = s.op.changes + 1) ∧
        (binding ≠ [] → n.op.pending = true ∧ n.op.waits = binding ∧ n.op.changes = s.op.changes) ∧
        (down ≠ 0 → errSet n 0 4 ∧ n.op.causes = (s.op.causes ||| down)) ∧ (down = 0 → n.op.causes = s.op.causes)))) ∧
    (s.op.pending = true → opWaits s ≠ [] → Gives .opEvaluation s (fun n => n = { s with op := { s.op with evalMs := ms + 1 } })) ∧
    (s.op.pending = true → opWaits s = [] → Gives .opEvaluation s (fun n =>
      exec .opEvaluation { s with op := { s.op with pending := false, waits := [], changes := s.op.changes + 1 } } = .next n)))

/-- MG_OP_CTRL takes each field that lies in its range; the readings of MG_PEAKS clear on a read; MG_REFRESH takes the readings of its
millisecond with their peaks; THERM_N is recognised. -/
def Sys2Proof.Say.readings : Prop :=
  (∀ s v, barsOpen s 0 = false → Gives (.opCtrlWrite v) s (fun n => n = s)) ∧
  (∀ s v, barsOpen s 0 = true → Gives (.opCtrlWrite v) s (fun n => n = { s with op := n.op } ∧
    let p := field v 25 16; let t := field v 15 8; let most := if s.part = .bkz2048 then 400 else 260
    n.op = { s.op with
      repeatable := v.testBit 31, powerLimit := if 100 ≤ p ∧ p ≤ most then p else s.op.powerLimit
      tHigh := if 85 ≤ t ∧ t ≤ 115 then t else s.op.tHigh })) ∧
  (∀ s, barsOpen s 0 = true →
    Gives .thermalPeakRead s (fun n => n = { s with op := { s.op with tempPeak := none }, lastRead := n.lastRead, lastPoisoned := false } ∧
      n.lastRead = natLe 8 (thermalWord s)) ∧
    Gives .powerPeakRead s (fun n => n = { s with op := { s.op with powerPeak := 0 }, lastRead := n.lastRead, lastPoisoned := false } ∧
      n.lastRead = natLe 8 (powerWord s))) ∧
  (∀ s, barsOpen s 0 = false → Gives .thermalPeakRead s (fun n => n = s) ∧ Gives .powerPeakRead s (fun n => n = s)) ∧
  (∀ s r, outOfReset s = true → s.boot.pll = true → 6000000 * s.op.freshMs ≤ s.now → Gives (.mgRefresh r) s (fun n =>
    n = { s with op := n.op } ∧ n.op.readings = r ∧ n.op.freshMs = s.now / 6000000 + 1 ∧ n.op.powerPeak = max s.op.powerPeak r.power ∧
    n.op.powers = (r.power :: s.op.powers).take 10 ∧ n.op.target = s.op.target ∧ n.op.causes = s.op.causes ∧
    (s.op.tempPeak = none → n.op.tempPeak = some r.tempMax) ∧
    (∀ p, s.op.tempPeak = some p → n.op.tempPeak = some (if tempI p < tempI r.tempMax then r.tempMax else p)) ∧
    n.op.sensors.getD 0 0 = r.tempMax ∧ n.op.sensors.getD 2 0 = r.core ∧ n.op.sensors.getD 6 0 = r.aux)) ∧
  (∀ s b, s.boot.power = true → Gives (.thermNChange b) s (fun n => n = { s with boot := { s.boot with thermN := b } }))

/-- Operating points, MG_OP_CTRL and the readings. -/
def Obligations.OperatingPoints : Prop := evaluations ∧ readings

/-! ## The SMBus endpoint (16 R524–R526, Tables 16-10, 16-11) -/

/-- The SMBus endpoint answers from the boot-ROM stage on, and keeps a request while a firmware switch is in progress; sensors read as of
the last refresh. Completion codes are the family's (log 47). -/
def Obligations.SmbusEndpoint : Prop :=
  (∀ s a, ∀ c ∈ ([(Instr.smbusArp a, 0), (.setEndpointId a, 1), (.pldmDiscovery a, 2), (.getPdr a, 3), (.getSensorReading a, 4),
      (.getStateSensorReadings a, 5)] : List (Instr × Nat)),
    (outOfReset s = false ∨ s.boot.stage = 0 → Gives c.1 s (fun n => n = s)) ∧
    (outOfReset s = true → s.boot.stage ≠ 0 → s.fw.switching = true →
      Gives c.1 s (fun n => n = { s with smb := { s.smb with waiting := s.smb.waiting ++ [(c.2, a)] } }))) ∧
  (∀ s a, outOfReset s = true → s.boot.stage ≠ 0 → s.fw.switching = false →
    Gives (.smbusArp a) s (fun n => n = { s with smb := { s.smb with address := a % 128, reply := [0] } }) ∧
    Gives (.setEndpointId a) s (fun n => n = { s with smb := { s.smb with eid := a % 256, reply := [0] } }) ∧
    Gives (.pldmDiscovery a) s (fun n => n = { s with smb := { s.smb with reply := n.smb.reply }, free := n.free } ∧
      (a = 0x04 → n.smb.reply = [0, 0, 2]) ∧ (a = 0x05 → n.smb.reply = [0, 0x11, 0x21, 0x51])) ∧
    (1 ≤ a → a ≤ 11 → Gives (.getPdr a) s (fun n => n = { s with smb := { s.smb with
      reply := [0, a, if a = 1 then 0 else if a = 2 then 1 else if a ≤ 7 then 2 else if a = 8 then 3 else 4] } })) ∧
    (12 ≤ a → Gives (.getPdr a) s (fun n => n = { s with smb := { s.smb with reply := [0x82] } })) ∧
    (1 ≤ a → a ≤ 8 → Gives (.getSensorReading a) s (fun n => n = { s with smb := { s.smb with reply := [0, s.op.sensors.getD (a - 1) 0] } })) ∧
    (a = 0 ∨ 9 ≤ a → Gives (.getSensorReading a) s (fun n => n = { s with smb := { s.smb with reply := [0x80] } })) ∧
    (9 ≤ a → a ≤ 11 → Gives (.getStateSensorReadings a) s (fun n =>
      n = { s with smb := { s.smb with reply := [0, s.op.sensors.getD (a - 1) 0] } })) ∧
    (a ≤ 8 ∨ 12 ≤ a → Gives (.getStateSensorReadings a) s (fun n => n = { s with smb := { s.smb with reply := [0x80] } })))

/-! ## The machine as a whole -/

/-- What reset leaves, by the values the spec gives: every slot FREE with generation 0, no ward with a key, every ring disabled, HOST_DMA
and the other error bits clear under the mask 0x0E, no head configured, the hinge ports DOWN with a neighbour of 0xFFF, counters zero
and running with every UNIT at 0xFF, point 0 with T_HIGH at 105 °C and POWER_LIMIT at the part's maximum, LAST_CAUSE power-on, and the
debug lock locked. -/
def Obligations.ResetState : Prop :=
  let s := State.reset
  (∀ i, (slotOf s i).state = .free ∧ (slotOf s i).gen = 0 ∧ (slotOf s i).perfUser = false ∧ ctxOf s i = none) ∧
  (∀ w, (wardOf s w).key = none ∧ (wardOf s w).mem = [] ∧ (wardOf s w).images = [] ∧ wardActive (wardOf s w).cfg = false) ∧
  (∀ f, (fnOf s f).errStatus = 0 ∧ (fnOf s f).errMask = 0x0E ∧ (fnOf s f).enabled = false ∧ (fnOf s f).aperture = 0 ∧
    (fnOf s f).sqBase = 0 ∧ (fnOf s f).cqBase = 0) ∧
  (∀ h, (headOf s h).cfg = none ∧ (headOf s h).ctx = none) ∧ s.tap = none ∧ s.vfs = 0 ∧
  (∀ p, (portOf s p).state = 0 ∧ (portOf s p).neighbour = 0xFFF ∧ (portOf s p).txFlits = 0 ∧ (portOf s p).discards = 0) ∧ s.hinge.cfg = none ∧
  (∀ c i, (corePerf s c).cnt.getD i 0 = 0 ∧ (corePerf s c).sel.getD i 0 = 0 ∧ (corePerf s c).bwEnable = false) ∧
  (∀ i, tgetD s.perf.chip i {} = { cnt := 0, sel := 0xFF * 2 ^ 40 }) ∧ s.perf.freeze = false ∧ s.perf.sbufEnable = false ∧
  s.op.target = 0 ∧ s.op.repeatable = false ∧ s.op.tHigh = 105 ∧ s.op.powerLimit = 400 ∧ s.op.causes = 0 ∧ s.op.changes = 0 ∧
  s.boot.lastCause = 1 ∧ s.boot.decoded = false ∧ s.fw.ready = false ∧ s.sec.unlocked = false ∧ s.sec.tamper = 0 ∧
  s.hasps = [] ∧ s.remotes = [] ∧ s.tasks = [] ∧ s.pending = [] ∧ s.now = 0

/-- On an empty queue a fabric cycle passes, eight root cycles, while TB runs (the model's choice, log 7): the bits set in it become old,
pending records whose limit has passed lose their contexts, and unless counting is frozen or CLEAR was written every chip counter
advances by what its selection takes of the cycle's occurrences. With TB stopped or the device in reset nothing changes. -/
def Obligations.IdleTick : Prop :=
  (∀ s, s.pending = [] → outOfReset s = true → s.boot.pll = true → s.hinge.requests = [] →
    ∃ n, step s = .next n ∧ n.now = s.now + 8 ∧
      ((∀ r ∈ s.remotes, r.2.expired = false) → n = { clearFresh s with now := s.now + 8, perf := n.perf }) ∧
      (∀ r ∈ s.remotes, r.2.expired = true → (liveCtx s r.2.slot).isSome = true → TornDown n r.2.slot 0x08 0x01) ∧
      (s.perf.freeze = true ∨ s.perf.cleared = true → n.perf.chipOvf = s.perf.chipOvf ∧ ∀ c,
        corePerf n c = { corePerf s c with wrote := 0, selWas := none }) ∧
      (s.perf.freeze = false → s.perf.cleared = false → s.perf.cores = [] → (∀ r ∈ s.remotes, r.2.expired = false) →
        ∀ i x, tget s.perf.chip i = some x → tget n.perf.chip i = some { x with
          cnt := (x.cnt + if x.wrote then 0
            else ((s.perf.noted ++ [Occurrence.chip 0x200 0 1 none]).map (chipAdds (x.selWas.getD x.sel))).sum) % 2 ^ 48
          wrote := false, selWas := none })) ∧
  (∀ s, s.pending = [] → outOfReset s = false ∨ s.boot.pll = false → step s = .next s)

/-- The invariant holds at reset. -/
def Obligations.InvariantAtReset : Prop := Sound State.reset

/-- Every step keeps the invariant: memories stay in their canonical form, and no ward, function or hinge port is lost. -/
def Obligations.InvariantKept : Prop := ∀ s n, Sound s → step s = .next n → Sound n

/-- No command changes the queue or the part: what waits still waits, in its order. -/
def Obligations.QueueUntouched : Prop := ∀ c s n, exec c s = .next n → n.pending = s.pending ∧ n.part = s.part
end

