-- ==== Sys2Proof/Laws/Tables.lean ====
section
/-!
SUPPORT. Laws of the sparse tables: a get after a put, a change or a delete. They hold of every table, in order or not, except
where a lemma says that the keys rise.
-/
namespace Sys2Proof.Machine

section
variable {α : Type}

@[simp] theorem tget_nil (k : Nat) : tget ([] : Table α) k = none := rfl

theorem tget_tput (t : Table α) (k : Nat) (v : α) (j : Nat) :
    tget (tput t k v) j = if j = k then some v else tget t j := by
  induction t with
  | nil => simp only [tput, tget]
  | cons h r ih =>
    obtain ⟨k', v'⟩ := h
    simp only [tput]
    split
    · simp only [tget]
    · split
      · subst_vars; simp only [tget]; split <;> rfl
      · simp only [tget, ih]; split <;> split <;> simp_all

@[simp] theorem tget_tput_same (t : Table α) (k : Nat) (v : α) : tget (tput t k v) k = some v := by
  simp [tget_tput]
theorem tget_tput_other (t : Table α) (k : Nat) (v : α) (j : Nat) (h : j ≠ k) : tget (tput t k v) j = tget t j := by
  simp [tget_tput, h]

theorem tget_tmod (t : Table α) (k : Nat) (f : α → α) (j : Nat) :
    tget (tmod t k f) j = if j = k then (tget t j).map f else tget t j := by
  induction t with
  | nil => simp [tmod]
  | cons h r ih =>
    obtain ⟨k', v'⟩ := h
    simp only [tmod]
    split
    · subst_vars; simp only [tget]; split <;> rfl
    · simp only [tget, ih]; split <;> split <;> simp_all

@[simp] theorem tget_tmod_same (t : Table α) (k : Nat) (f : α → α) : tget (tmod t k f) k = (tget t k).map f := by
  simp [tget_tmod]
theorem tget_tmod_other (t : Table α) (k : Nat) (f : α → α) (j : Nat) (h : j ≠ k) : tget (tmod t k f) j = tget t j := by
  simp [tget_tmod, h]

theorem tget_tdel_other (t : Table α) (k : Nat) (j : Nat) (h : j ≠ k) : tget (tdel t k) j = tget t j := by
  induction t with
  | nil => rfl
  | cons a r ih =>
    obtain ⟨k', v'⟩ := a
    simp only [tdel]
    split
    · subst_vars; simp [tget, h]
    · simp only [tget, ih]

/-- The later of two puts at one key stands. -/
@[simp] theorem tput_tput (t : Table α) (k : Nat) (v w : α) : tput (tput t k v) k w = tput t k w := by
  induction t with
  | nil => simp [tput]
  | cons a r ih =>
    obtain ⟨k', v'⟩ := a
    simp only [tput]
    split
    · simp [tput]
    · split
      · simp [tput]
      · simp only [tput, ih]; split <;> simp_all
/-- Two changes at one key are one. -/
@[simp] theorem tmod_tmod (t : Table α) (k : Nat) (f g : α → α) : tmod (tmod t k f) k g = tmod t k (fun v => g (f v)) := by
  induction t with
  | nil => rfl
  | cons a r ih =>
    obtain ⟨k', v'⟩ := a
    simp only [tmod]
    split
    · simp_all [tmod]
    · simp_all [tmod]
@[simp] theorem tmod_id (t : Table α) (k : Nat) : tmod t k (fun v => v) = t := by
  induction t with
  | nil => rfl
  | cons a r ih => obtain ⟨k', v'⟩ := a; simp only [tmod, ih]; split <;> rfl

/-- A map over the entries of a table acts on each. -/
theorem tget_map {β : Type} (t : Table α) (f : Nat → α → β) (j : Nat) :
    tget (t.map (fun x => (x.1, f x.1 x.2))) j = (tget t j).map (f j) := by
  induction t with
  | nil => rfl
  | cons a r ih =>
    obtain ⟨k', v'⟩ := a
    simp only [List.map_cons, tget]
    split
    · subst_vars; rfl
    · exact ih

/-- An entry that a get finds is an entry of the table. -/
theorem tget_mem {t : Table α} {k : Nat} {v : α} (h : tget t k = some v) : (k, v) ∈ t := by
  induction t with
  | nil => cases h
  | cons a r ih =>
    obtain ⟨k', v'⟩ := a
    simp only [tget] at h
    split at h
    · subst_vars; cases h; exact List.mem_cons_self
    · exact List.mem_cons_of_mem _ (ih h)

/-- An entry of a table after a put is the one put or was there. -/
theorem tput_mem {t : Table α} {k : Nat} {v : α} {x : Nat × α} (h : x ∈ tput t k v) : x = (k, v) ∨ x ∈ t := by
  induction t with
  | nil => simp only [tput, List.mem_singleton] at h; exact .inl h
  | cons a r ih =>
    obtain ⟨k', v'⟩ := a
    simp only [tput] at h
    split at h
    · simp only [List.mem_cons] at h ⊢; tauto
    · split at h
      · simp only [List.mem_cons] at h ⊢; tauto
      · simp only [List.mem_cons] at h ⊢
        rcases h with h | h
        · exact .inr (.inl h)
        · rcases ih h with h | h <;> tauto
/-- An entry of a table after a change was there, or is the change of one that was. -/
theorem tmod_mem {t : Table α} {k : Nat} {f : α → α} {x : Nat × α} (h : x ∈ tmod t k f) :
    x ∈ t ∨ ∃ v, (k, v) ∈ t ∧ x = (k, f v) := by
  induction t with
  | nil => cases h
  | cons a r ih =>
    obtain ⟨k', v'⟩ := a
    simp only [tmod] at h
    split at h
    · subst_vars
      simp only [List.mem_cons] at h ⊢
      rcases h with h | h
      · exact .inr ⟨v', .inl rfl, h⟩
      · exact .inl (.inr h)
    · simp only [List.mem_cons] at h ⊢
      rcases h with h | h
      · exact .inl (.inl h)
      · rcases ih h with h | ⟨v, h, e⟩
        · exact .inl (.inr h)
        · exact .inr ⟨v, .inr h, e⟩
/-- An entry left after a delete was there. -/
theorem tdel_mem {t : Table α} {k : Nat} {x : Nat × α} (h : x ∈ tdel t k) : x ∈ t := by
  induction t with
  | nil => exact h
  | cons a r ih =>
    obtain ⟨k', v'⟩ := a
    simp only [tdel] at h
    split at h
    · exact List.mem_cons_of_mem _ h
    · simp only [List.mem_cons] at h ⊢
      rcases h with h | h
      · exact .inl h
      · exact .inr (ih h)

end

end Sys2Proof.Machine
end

