-- ==== Sys2Proof/Laws/Memory.lean ====
section
/-!
SUPPORT. Byte memory: every operation keeps the canonical form, and a read after a write gives the byte written there and the old
byte elsewhere.
-/
namespace Sys2Proof.Machine

/-- Every key of a memory lies above `k`. -/
def Mem.above (k : Nat) (m : Mem) : Prop := ∀ c ∈ m, k < c.1

/-- The canonical form, one entry at a time. -/
theorem Mem.wf_cons {a : Nat} {b : BitVec 8} {r : Mem} :
    Mem.wf ((a, b) :: r) = true ↔ b ≠ Mem.unlisted ∧ Mem.above a r ∧ Mem.wf r = true := by
  induction r generalizing a b with
  | nil => simp [Mem.wf, Mem.above]
  | cons c r ih =>
    obtain ⟨a', b'⟩ := c
    simp only [Mem.wf, Bool.and_eq_true, decide_eq_true_eq, Mem.above, List.mem_cons, forall_eq_or_imp]
    constructor
    · rintro ⟨⟨h1, h2⟩, h3⟩
      refine ⟨h2, ⟨h1, fun c hc => ?_⟩, h3⟩
      exact Nat.lt_trans h1 ((ih.mp h3).2.1 c hc)
    · rintro ⟨h1, ⟨h2, _⟩, h3⟩
      exact ⟨⟨h2, h1⟩, h3⟩

theorem Mem.tput_above {k a : Nat} {b : BitVec 8} {m : Mem} (h : Mem.above k m) (ha : k < a) : Mem.above k (tput m a b) := by
  intro c hc
  rcases tput_mem hc with rfl | hc
  · exact ha
  · exact h c hc
theorem Mem.tdel_above {k a : Nat} {m : Mem} (h : Mem.above k m) : Mem.above k (tdel m a) := fun c hc => h c (tdel_mem hc)

theorem Mem.tput_wf {a : Nat} {b : BitVec 8} {m : Mem} (hb : b ≠ Mem.unlisted) (h : Mem.wf m = true) :
    Mem.wf (tput m a b) = true := by
  induction m with
  | nil => simp [tput, Mem.wf, hb]
  | cons c r ih =>
    obtain ⟨a', b'⟩ := c
    obtain ⟨h1, h2, h3⟩ := Mem.wf_cons.mp h
    simp only [tput]
    split
    · refine Mem.wf_cons.mpr ⟨hb, fun c hc => ?_, h⟩
      simp only [List.mem_cons] at hc
      rcases hc with rfl | hc
      · assumption
      · exact Nat.lt_trans ‹_› (h2 c hc)
    · split
      · subst_vars; exact Mem.wf_cons.mpr ⟨hb, h2, h3⟩
      · exact Mem.wf_cons.mpr ⟨h1, Mem.tput_above h2 (by omega), ih h3⟩

theorem Mem.tdel_wf {a : Nat} {m : Mem} (h : Mem.wf m = true) : Mem.wf (tdel m a) = true := by
  induction m with
  | nil => rfl
  | cons c r ih =>
    obtain ⟨a', b'⟩ := c
    obtain ⟨h1, h2, h3⟩ := Mem.wf_cons.mp h
    simp only [tdel]
    split
    · exact h3
    · exact Mem.wf_cons.mpr ⟨h1, Mem.tdel_above h2, ih h3⟩

/-- A write keeps the canonical form. -/
theorem Mem.write_wf {a : Nat} {b : Byte} {m : Mem} (h : Mem.wf m = true) : Mem.wf (Mem.write m a b) = true := by
  unfold Mem.write
  split
  · exact Mem.tdel_wf h
  · exact Mem.tput_wf ‹_› h
/-- A write of a byte string keeps the canonical form. -/
theorem Mem.writeN_wf (b : Bytes) : ∀ {a : Nat} {m : Mem}, Mem.wf m = true → Mem.wf (Mem.writeN m a b) = true := by
  induction b with
  | nil => intro a m h; exact h
  | cons x r ih => intro a m h; exact ih (Mem.write_wf h)
theorem Mem.filter_wf (p : Nat × BitVec 8 → Bool) {m : Mem} (h : Mem.wf m = true) : Mem.wf (m.filter p) = true := by
  induction m with
  | nil => rfl
  | cons c r ih =>
    obtain ⟨a', b'⟩ := c
    obtain ⟨h1, h2, h3⟩ := Mem.wf_cons.mp h
    simp only [List.filter_cons]
    split
    · exact Mem.wf_cons.mpr ⟨h1, fun c hc => h2 c (List.mem_filter.mp hc).1, ih h3⟩
    · exact ih h3
/-- A scrub keeps the canonical form. -/
theorem Mem.scrub_wf {a n : Nat} {m : Mem} (h : Mem.wf m = true) : Mem.wf (Mem.scrub m a n) = true := Mem.filter_wf _ h
/-- A fold of writes keeps the canonical form. -/
theorem Mem.fold_writeN_wf (l : List (Nat × Bytes)) : ∀ {m : Mem}, Mem.wf m = true →
    Mem.wf (l.foldl (fun m w => Mem.writeN m w.1 w.2) m) = true := by
  induction l with
  | nil => intro m h; exact h
  | cons x r ih => intro m h; exact ih (Mem.writeN_wf _ h)

/-- An address that a canonical memory lists nowhere above its keys reads as unlisted. -/
theorem Mem.tget_above {k : Nat} {m : Mem} (h : Mem.above k m) {a : Nat} (ha : a ≤ k) : tget m a = none := by
  induction m with
  | nil => rfl
  | cons c r ih =>
    obtain ⟨a', b'⟩ := c
    have h1 : k < a' := h (a', b') List.mem_cons_self
    simp only [tget]
    rw [if_neg (by omega)]
    exact ih (fun c hc => h c (List.mem_cons_of_mem _ hc))

theorem Mem.tget_tdel {a : Nat} {m : Mem} (h : Mem.wf m = true) : tget (tdel m a) a = none := by
  induction m with
  | nil => rfl
  | cons c r ih =>
    obtain ⟨a', b'⟩ := c
    obtain ⟨h1, h2, h3⟩ := Mem.wf_cons.mp h
    simp only [tdel]
    split
    · subst_vars; exact Mem.tget_above h2 (Nat.le_refl _)
    · simp only [tget]; rw [if_neg ‹_›]; exact ih h3

/-- A read after a write gives the byte written. -/
theorem Mem.read_write_same {a : Nat} {b : Byte} {m : Mem} (h : Mem.wf m = true) : Mem.read (Mem.write m a b) a = b := by
  unfold Mem.read Mem.write
  split
  · rw [Mem.tget_tdel h]; subst_vars; rfl
  · rw [tget_tput_same]; rfl
/-- A read elsewhere gives the old byte. -/
theorem Mem.read_write_other {a j : Nat} {b : Byte} {m : Mem} (h : j ≠ a) : Mem.read (Mem.write m a b) j = Mem.read m j := by
  unfold Mem.read Mem.write
  split
  · rw [tget_tdel_other _ _ _ h]
  · rw [tget_tput_other _ _ _ _ h]
/-- A read outside the bytes of a write gives the old byte. -/
theorem Mem.read_writeN_other (b : Bytes) : ∀ {a j : Nat} {m : Mem}, j < a ∨ a + b.length ≤ j →
    Mem.read (Mem.writeN m a b) j = Mem.read m j := by
  induction b with
  | nil => intros; rfl
  | cons x r ih =>
    intro a j m h
    simp only [List.length_cons] at h
    show Mem.read (Mem.writeN (Mem.write m a x) (a + 1) r) j = _
    rw [ih (by omega), Mem.read_write_other (by omega)]
/-- A read of one of the bytes of a write gives that byte. -/
theorem Mem.read_writeN_at (b : Bytes) : ∀ {a i : Nat} {m : Mem}, Mem.wf m = true → (h : i < b.length) →
    Mem.read (Mem.writeN m a b) (a + i) = b[i] := by
  induction b with
  | nil => intro a i m _ h; exact absurd h (Nat.not_lt_zero _)
  | cons x r ih =>
    intro a i m hm h
    show Mem.read (Mem.writeN (Mem.write m a x) (a + 1) r) (a + i) = _
    cases i with
    | zero => rw [read_writeN_other r (by omega)]; exact Mem.read_write_same hm
    | succ i =>
      have := ih (a := a + 1) (i := i) (m := Mem.write m a x) (Mem.write_wf hm) (by simpa using h)
      rw [show a + (i + 1) = a + 1 + i by omega, this]; rfl
/-- A scrubbed byte reads as unlisted. -/
theorem Mem.read_scrub_in {a n j : Nat} {m : Mem} (h1 : a ≤ j) (h2 : j < a + n) : Mem.read (Mem.scrub m a n) j = Mem.unlisted := by
  have : tget (Mem.scrub m a n) j = none := by
    induction m with
    | nil => rfl
    | cons c r ih =>
      obtain ⟨a', b'⟩ := c
      simp only [Mem.scrub, List.filter_cons] at ih ⊢
      split
      · rename_i h
        simp only [tget]
        rw [if_neg (by intro e; subst e; simp at h; omega)]
        exact ih
      · exact ih
  simp [Mem.read, this]
/-- A byte outside a scrub keeps its value. -/
theorem Mem.read_scrub_out {a n j : Nat} {m : Mem} (h : j < a ∨ a + n ≤ j) : Mem.read (Mem.scrub m a n) j = Mem.read m j := by
  have : tget (Mem.scrub m a n) j = tget m j := by
    induction m with
    | nil => rfl
    | cons c r ih =>
      obtain ⟨a', b'⟩ := c
      simp only [Mem.scrub, List.filter_cons] at ih ⊢
      split
      · simp only [tget, ih]
      · rename_i h'
        simp only [tget]
        rw [if_neg (by intro e; subst e; simp at h'; omega)]
        exact ih
  simp [Mem.read, this]

@[simp] theorem Mem.readN_length (m : Mem) (a n : Nat) : (Mem.readN m a n).length = n := by
  induction n generalizing a with
  | zero => rfl
  | succ n ih => simp [Mem.readN, ih]
/-- Byte i of a read. -/
theorem Mem.readN_getElem (m : Mem) : ∀ (n a i : Nat) (h : i < (Mem.readN m a n).length), (Mem.readN m a n)[i] = Mem.read m (a + i)
  | 0, _, i, h => absurd h (Nat.not_lt_zero _)
  | _ + 1, _, 0, _ => rfl
  | n + 1, a, i + 1, h => by
    have := Mem.readN_getElem m n (a + 1) i (by simpa [Mem.readN] using h)
    simpa [Mem.readN, Nat.add_assoc, Nat.add_comm 1] using this
/-- A read of the bytes just written gives them. -/
theorem Mem.readN_writeN {m : Mem} (h : Mem.wf m = true) (a : Nat) (b : Bytes) : Mem.readN (Mem.writeN m a b) a b.length = b :=
  List.ext_getElem (by simp) (fun i _ hb => by rw [Mem.readN_getElem, Mem.read_writeN_at b h hb])

end Sys2Proof.Machine
end

