-- ==== Sys2Proof/Laws/State.lean ====
section
/-!
SUPPORT. What each update of the state leaves of each field: one lemma for each field under each update, so that no proof
unfolds a record update.
-/
namespace Sys2Proof.Machine

@[simp] theorem modFn_pending (f : Nat) (g : Fn → Fn) (s : State) : (modFn f g s).pending = s.pending := rfl
@[simp] theorem modFn_now (f : Nat) (g : Fn → Fn) (s : State) : (modFn f g s).now = s.now := rfl
@[simp] theorem modFn_free (f : Nat) (g : Fn → Fn) (s : State) : (modFn f g s).free = s.free := rfl
@[simp] theorem modFn_part (f : Nat) (g : Fn → Fn) (s : State) : (modFn f g s).part = s.part := rfl
@[simp] theorem modFn_fw (f : Nat) (g : Fn → Fn) (s : State) : (modFn f g s).fw = s.fw := rfl
@[simp] theorem modFn_boot (f : Nat) (g : Fn → Fn) (s : State) : (modFn f g s).boot = s.boot := rfl
@[simp] theorem modFn_flash (f : Nat) (g : Fn → Fn) (s : State) : (modFn f g s).flash = s.flash := rfl
@[simp] theorem modFn_op (f : Nat) (g : Fn → Fn) (s : State) : (modFn f g s).op = s.op := rfl
@[simp] theorem modFn_ras (f : Nat) (g : Fn → Fn) (s : State) : (modFn f g s).ras = s.ras := rfl
@[simp] theorem modFn_sec (f : Nat) (g : Fn → Fn) (s : State) : (modFn f g s).sec = s.sec := rfl
@[simp] theorem modFn_smb (f : Nat) (g : Fn → Fn) (s : State) : (modFn f g s).smb = s.smb := rfl
@[simp] theorem modFn_vfs (f : Nat) (g : Fn → Fn) (s : State) : (modFn f g s).vfs = s.vfs := rfl
@[simp] theorem modFn_fns (f : Nat) (g : Fn → Fn) (s : State) : (modFn f g s).fns = lmod s.fns f g := rfl
@[simp] theorem modFn_wards (f : Nat) (g : Fn → Fn) (s : State) : (modFn f g s).wards = s.wards := rfl
@[simp] theorem modFn_slots (f : Nat) (g : Fn → Fn) (s : State) : (modFn f g s).slots = s.slots := rfl
@[simp] theorem modFn_ctxs (f : Nat) (g : Fn → Fn) (s : State) : (modFn f g s).ctxs = s.ctxs := rfl
@[simp] theorem modFn_heads (f : Nat) (g : Fn → Fn) (s : State) : (modFn f g s).heads = s.heads := rfl
@[simp] theorem modFn_tap (f : Nat) (g : Fn → Fn) (s : State) : (modFn f g s).tap = s.tap := rfl
@[simp] theorem modFn_cores (f : Nat) (g : Fn → Fn) (s : State) : (modFn f g s).cores = s.cores := rfl
@[simp] theorem modFn_tasks (f : Nat) (g : Fn → Fn) (s : State) : (modFn f g s).tasks = s.tasks := rfl
@[simp] theorem modFn_nextTask (f : Nat) (g : Fn → Fn) (s : State) : (modFn f g s).nextTask = s.nextTask := rfl
@[simp] theorem modFn_nextSerial (f : Nat) (g : Fn → Fn) (s : State) : (modFn f g s).nextSerial = s.nextSerial := rfl
@[simp] theorem modFn_hasps (f : Nat) (g : Fn → Fn) (s : State) : (modFn f g s).hasps = s.hasps := rfl
@[simp] theorem modFn_cycleOps (f : Nat) (g : Fn → Fn) (s : State) : (modFn f g s).cycleOps = s.cycleOps := rfl
@[simp] theorem modFn_detect (f : Nat) (g : Fn → Fn) (s : State) : (modFn f g s).detect = s.detect := rfl
@[simp] theorem modFn_engines (f : Nat) (g : Fn → Fn) (s : State) : (modFn f g s).engines = s.engines := rfl
@[simp] theorem modFn_feLast (f : Nat) (g : Fn → Fn) (s : State) : (modFn f g s).feLast = s.feLast := rfl
@[simp] theorem modFn_hinge (f : Nat) (g : Fn → Fn) (s : State) : (modFn f g s).hinge = s.hinge := rfl
@[simp] theorem modFn_remotes (f : Nat) (g : Fn → Fn) (s : State) : (modFn f g s).remotes = s.remotes := rfl
@[simp] theorem modFn_perf (f : Nat) (g : Fn → Fn) (s : State) : (modFn f g s).perf = s.perf := rfl
@[simp] theorem modFn_hostMem (f : Nat) (g : Fn → Fn) (s : State) : (modFn f g s).hostMem = s.hostMem := rfl
@[simp] theorem modFn_sent (f : Nat) (g : Fn → Fn) (s : State) : (modFn f g s).sent = s.sent := rfl
@[simp] theorem modFn_lastRead (f : Nat) (g : Fn → Fn) (s : State) : (modFn f g s).lastRead = s.lastRead := rfl
@[simp] theorem modFn_lastPoisoned (f : Nat) (g : Fn → Fn) (s : State) : (modFn f g s).lastPoisoned = s.lastPoisoned := rfl
@[simp] theorem modWard_pending (w : Nat) (g : Ward → Ward) (s : State) : (modWard w g s).pending = s.pending := rfl
@[simp] theorem modWard_now (w : Nat) (g : Ward → Ward) (s : State) : (modWard w g s).now = s.now := rfl
@[simp] theorem modWard_free (w : Nat) (g : Ward → Ward) (s : State) : (modWard w g s).free = s.free := rfl
@[simp] theorem modWard_part (w : Nat) (g : Ward → Ward) (s : State) : (modWard w g s).part = s.part := rfl
@[simp] theorem modWard_fw (w : Nat) (g : Ward → Ward) (s : State) : (modWard w g s).fw = s.fw := rfl
@[simp] theorem modWard_boot (w : Nat) (g : Ward → Ward) (s : State) : (modWard w g s).boot = s.boot := rfl
@[simp] theorem modWard_flash (w : Nat) (g : Ward → Ward) (s : State) : (modWard w g s).flash = s.flash := rfl
@[simp] theorem modWard_op (w : Nat) (g : Ward → Ward) (s : State) : (modWard w g s).op = s.op := rfl
@[simp] theorem modWard_ras (w : Nat) (g : Ward → Ward) (s : State) : (modWard w g s).ras = s.ras := rfl
@[simp] theorem modWard_sec (w : Nat) (g : Ward → Ward) (s : State) : (modWard w g s).sec = s.sec := rfl
@[simp] theorem modWard_smb (w : Nat) (g : Ward → Ward) (s : State) : (modWard w g s).smb = s.smb := rfl
@[simp] theorem modWard_vfs (w : Nat) (g : Ward → Ward) (s : State) : (modWard w g s).vfs = s.vfs := rfl
@[simp] theorem modWard_fns (w : Nat) (g : Ward → Ward) (s : State) : (modWard w g s).fns = s.fns := rfl
@[simp] theorem modWard_wards (w : Nat) (g : Ward → Ward) (s : State) : (modWard w g s).wards = lmod s.wards w g := rfl
@[simp] theorem modWard_slots (w : Nat) (g : Ward → Ward) (s : State) : (modWard w g s).slots = s.slots := rfl
@[simp] theorem modWard_ctxs (w : Nat) (g : Ward → Ward) (s : State) : (modWard w g s).ctxs = s.ctxs := rfl
@[simp] theorem modWard_heads (w : Nat) (g : Ward → Ward) (s : State) : (modWard w g s).heads = s.heads := rfl
@[simp] theorem modWard_tap (w : Nat) (g : Ward → Ward) (s : State) : (modWard w g s).tap = s.tap := rfl
@[simp] theorem modWard_cores (w : Nat) (g : Ward → Ward) (s : State) : (modWard w g s).cores = s.cores := rfl
@[simp] theorem modWard_tasks (w : Nat) (g : Ward → Ward) (s : State) : (modWard w g s).tasks = s.tasks := rfl
@[simp] theorem modWard_nextTask (w : Nat) (g : Ward → Ward) (s : State) : (modWard w g s).nextTask = s.nextTask := rfl
@[simp] theorem modWard_nextSerial (w : Nat) (g : Ward → Ward) (s : State) : (modWard w g s).nextSerial = s.nextSerial := rfl
@[simp] theorem modWard_hasps (w : Nat) (g : Ward → Ward) (s : State) : (modWard w g s).hasps = s.hasps := rfl
@[simp] theorem modWard_cycleOps (w : Nat) (g : Ward → Ward) (s : State) : (modWard w g s).cycleOps = s.cycleOps := rfl
@[simp] theorem modWard_detect (w : Nat) (g : Ward → Ward) (s : State) : (modWard w g s).detect = s.detect := rfl
@[simp] theorem modWard_engines (w : Nat) (g : Ward → Ward) (s : State) : (modWard w g s).engines = s.engines := rfl
@[simp] theorem modWard_feLast (w : Nat) (g : Ward → Ward) (s : State) : (modWard w g s).feLast = s.feLast := rfl
@[simp] theorem modWard_hinge (w : Nat) (g : Ward → Ward) (s : State) : (modWard w g s).hinge = s.hinge := rfl
@[simp] theorem modWard_remotes (w : Nat) (g : Ward → Ward) (s : State) : (modWard w g s).remotes = s.remotes := rfl
@[simp] theorem modWard_perf (w : Nat) (g : Ward → Ward) (s : State) : (modWard w g s).perf = s.perf := rfl
@[simp] theorem modWard_hostMem (w : Nat) (g : Ward → Ward) (s : State) : (modWard w g s).hostMem = s.hostMem := rfl
@[simp] theorem modWard_sent (w : Nat) (g : Ward → Ward) (s : State) : (modWard w g s).sent = s.sent := rfl
@[simp] theorem modWard_lastRead (w : Nat) (g : Ward → Ward) (s : State) : (modWard w g s).lastRead = s.lastRead := rfl
@[simp] theorem modWard_lastPoisoned (w : Nat) (g : Ward → Ward) (s : State) : (modWard w g s).lastPoisoned = s.lastPoisoned := rfl
@[simp] theorem modSlot_pending (i : Nat) (g : Slot → Slot) (s : State) : (modSlot i g s).pending = s.pending := rfl
@[simp] theorem modSlot_now (i : Nat) (g : Slot → Slot) (s : State) : (modSlot i g s).now = s.now := rfl
@[simp] theorem modSlot_free (i : Nat) (g : Slot → Slot) (s : State) : (modSlot i g s).free = s.free := rfl
@[simp] theorem modSlot_part (i : Nat) (g : Slot → Slot) (s : State) : (modSlot i g s).part = s.part := rfl
@[simp] theorem modSlot_fw (i : Nat) (g : Slot → Slot) (s : State) : (modSlot i g s).fw = s.fw := rfl
@[simp] theorem modSlot_boot (i : Nat) (g : Slot → Slot) (s : State) : (modSlot i g s).boot = s.boot := rfl
@[simp] theorem modSlot_flash (i : Nat) (g : Slot → Slot) (s : State) : (modSlot i g s).flash = s.flash := rfl
@[simp] theorem modSlot_op (i : Nat) (g : Slot → Slot) (s : State) : (modSlot i g s).op = s.op := rfl
@[simp] theorem modSlot_ras (i : Nat) (g : Slot → Slot) (s : State) : (modSlot i g s).ras = s.ras := rfl
@[simp] theorem modSlot_sec (i : Nat) (g : Slot → Slot) (s : State) : (modSlot i g s).sec = s.sec := rfl
@[simp] theorem modSlot_smb (i : Nat) (g : Slot → Slot) (s : State) : (modSlot i g s).smb = s.smb := rfl
@[simp] theorem modSlot_vfs (i : Nat) (g : Slot → Slot) (s : State) : (modSlot i g s).vfs = s.vfs := rfl
@[simp] theorem modSlot_fns (i : Nat) (g : Slot → Slot) (s : State) : (modSlot i g s).fns = s.fns := rfl
@[simp] theorem modSlot_wards (i : Nat) (g : Slot → Slot) (s : State) : (modSlot i g s).wards = s.wards := rfl
@[simp] theorem modSlot_slots (i : Nat) (g : Slot → Slot) (s : State) : (modSlot i g s).slots = tput s.slots i (g (slotOf s i)) := rfl
@[simp] theorem modSlot_ctxs (i : Nat) (g : Slot → Slot) (s : State) : (modSlot i g s).ctxs = s.ctxs := rfl
@[simp] theorem modSlot_heads (i : Nat) (g : Slot → Slot) (s : State) : (modSlot i g s).heads = s.heads := rfl
@[simp] theorem modSlot_tap (i : Nat) (g : Slot → Slot) (s : State) : (modSlot i g s).tap = s.tap := rfl
@[simp] theorem modSlot_cores (i : Nat) (g : Slot → Slot) (s : State) : (modSlot i g s).cores = s.cores := rfl
@[simp] theorem modSlot_tasks (i : Nat) (g : Slot → Slot) (s : State) : (modSlot i g s).tasks = s.tasks := rfl
@[simp] theorem modSlot_nextTask (i : Nat) (g : Slot → Slot) (s : State) : (modSlot i g s).nextTask = s.nextTask := rfl
@[simp] theorem modSlot_nextSerial (i : Nat) (g : Slot → Slot) (s : State) : (modSlot i g s).nextSerial = s.nextSerial := rfl
@[simp] theorem modSlot_hasps (i : Nat) (g : Slot → Slot) (s : State) : (modSlot i g s).hasps = s.hasps := rfl
@[simp] theorem modSlot_cycleOps (i : Nat) (g : Slot → Slot) (s : State) : (modSlot i g s).cycleOps = s.cycleOps := rfl
@[simp] theorem modSlot_detect (i : Nat) (g : Slot → Slot) (s : State) : (modSlot i g s).detect = s.detect := rfl
@[simp] theorem modSlot_engines (i : Nat) (g : Slot → Slot) (s : State) : (modSlot i g s).engines = s.engines := rfl
@[simp] theorem modSlot_feLast (i : Nat) (g : Slot → Slot) (s : State) : (modSlot i g s).feLast = s.feLast := rfl
@[simp] theorem modSlot_hinge (i : Nat) (g : Slot → Slot) (s : State) : (modSlot i g s).hinge = s.hinge := rfl
@[simp] theorem modSlot_remotes (i : Nat) (g : Slot → Slot) (s : State) : (modSlot i g s).remotes = s.remotes := rfl
@[simp] theorem modSlot_perf (i : Nat) (g : Slot → Slot) (s : State) : (modSlot i g s).perf = s.perf := rfl
@[simp] theorem modSlot_hostMem (i : Nat) (g : Slot → Slot) (s : State) : (modSlot i g s).hostMem = s.hostMem := rfl
@[simp] theorem modSlot_sent (i : Nat) (g : Slot → Slot) (s : State) : (modSlot i g s).sent = s.sent := rfl
@[simp] theorem modSlot_lastRead (i : Nat) (g : Slot → Slot) (s : State) : (modSlot i g s).lastRead = s.lastRead := rfl
@[simp] theorem modSlot_lastPoisoned (i : Nat) (g : Slot → Slot) (s : State) : (modSlot i g s).lastPoisoned = s.lastPoisoned := rfl
@[simp] theorem modCtx_pending (i : Nat) (g : Ctx → Ctx) (s : State) : (modCtx i g s).pending = s.pending := rfl
@[simp] theorem modCtx_now (i : Nat) (g : Ctx → Ctx) (s : State) : (modCtx i g s).now = s.now := rfl
@[simp] theorem modCtx_free (i : Nat) (g : Ctx → Ctx) (s : State) : (modCtx i g s).free = s.free := rfl
@[simp] theorem modCtx_part (i : Nat) (g : Ctx → Ctx) (s : State) : (modCtx i g s).part = s.part := rfl
@[simp] theorem modCtx_fw (i : Nat) (g : Ctx → Ctx) (s : State) : (modCtx i g s).fw = s.fw := rfl
@[simp] theorem modCtx_boot (i : Nat) (g : Ctx → Ctx) (s : State) : (modCtx i g s).boot = s.boot := rfl
@[simp] theorem modCtx_flash (i : Nat) (g : Ctx → Ctx) (s : State) : (modCtx i g s).flash = s.flash := rfl
@[simp] theorem modCtx_op (i : Nat) (g : Ctx → Ctx) (s : State) : (modCtx i g s).op = s.op := rfl
@[simp] theorem modCtx_ras (i : Nat) (g : Ctx → Ctx) (s : State) : (modCtx i g s).ras = s.ras := rfl
@[simp] theorem modCtx_sec (i : Nat) (g : Ctx → Ctx) (s : State) : (modCtx i g s).sec = s.sec := rfl
@[simp] theorem modCtx_smb (i : Nat) (g : Ctx → Ctx) (s : State) : (modCtx i g s).smb = s.smb := rfl
@[simp] theorem modCtx_vfs (i : Nat) (g : Ctx → Ctx) (s : State) : (modCtx i g s).vfs = s.vfs := rfl
@[simp] theorem modCtx_fns (i : Nat) (g : Ctx → Ctx) (s : State) : (modCtx i g s).fns = s.fns := rfl
@[simp] theorem modCtx_wards (i : Nat) (g : Ctx → Ctx) (s : State) : (modCtx i g s).wards = s.wards := rfl
@[simp] theorem modCtx_slots (i : Nat) (g : Ctx → Ctx) (s : State) : (modCtx i g s).slots = s.slots := rfl
@[simp] theorem modCtx_ctxs (i : Nat) (g : Ctx → Ctx) (s : State) : (modCtx i g s).ctxs = tmod s.ctxs i g := rfl
@[simp] theorem modCtx_heads (i : Nat) (g : Ctx → Ctx) (s : State) : (modCtx i g s).heads = s.heads := rfl
@[simp] theorem modCtx_tap (i : Nat) (g : Ctx → Ctx) (s : State) : (modCtx i g s).tap = s.tap := rfl
@[simp] theorem modCtx_cores (i : Nat) (g : Ctx → Ctx) (s : State) : (modCtx i g s).cores = s.cores := rfl
@[simp] theorem modCtx_tasks (i : Nat) (g : Ctx → Ctx) (s : State) : (modCtx i g s).tasks = s.tasks := rfl
@[simp] theorem modCtx_nextTask (i : Nat) (g : Ctx → Ctx) (s : State) : (modCtx i g s).nextTask = s.nextTask := rfl
@[simp] theorem modCtx_nextSerial (i : Nat) (g : Ctx → Ctx) (s : State) : (modCtx i g s).nextSerial = s.nextSerial := rfl
@[simp] theorem modCtx_hasps (i : Nat) (g : Ctx → Ctx) (s : State) : (modCtx i g s).hasps = s.hasps := rfl
@[simp] theorem modCtx_cycleOps (i : Nat) (g : Ctx → Ctx) (s : State) : (modCtx i g s).cycleOps = s.cycleOps := rfl
@[simp] theorem modCtx_detect (i : Nat) (g : Ctx → Ctx) (s : State) : (modCtx i g s).detect = s.detect := rfl
@[simp] theorem modCtx_engines (i : Nat) (g : Ctx → Ctx) (s : State) : (modCtx i g s).engines = s.engines := rfl
@[simp] theorem modCtx_feLast (i : Nat) (g : Ctx → Ctx) (s : State) : (modCtx i g s).feLast = s.feLast := rfl
@[simp] theorem modCtx_hinge (i : Nat) (g : Ctx → Ctx) (s : State) : (modCtx i g s).hinge = s.hinge := rfl
@[simp] theorem modCtx_remotes (i : Nat) (g : Ctx → Ctx) (s : State) : (modCtx i g s).remotes = s.remotes := rfl
@[simp] theorem modCtx_perf (i : Nat) (g : Ctx → Ctx) (s : State) : (modCtx i g s).perf = s.perf := rfl
@[simp] theorem modCtx_hostMem (i : Nat) (g : Ctx → Ctx) (s : State) : (modCtx i g s).hostMem = s.hostMem := rfl
@[simp] theorem modCtx_sent (i : Nat) (g : Ctx → Ctx) (s : State) : (modCtx i g s).sent = s.sent := rfl
@[simp] theorem modCtx_lastRead (i : Nat) (g : Ctx → Ctx) (s : State) : (modCtx i g s).lastRead = s.lastRead := rfl
@[simp] theorem modCtx_lastPoisoned (i : Nat) (g : Ctx → Ctx) (s : State) : (modCtx i g s).lastPoisoned = s.lastPoisoned := rfl
@[simp] theorem modHead_pending (h : Nat) (g : Head → Head) (s : State) : (modHead h g s).pending = s.pending := rfl
@[simp] theorem modHead_now (h : Nat) (g : Head → Head) (s : State) : (modHead h g s).now = s.now := rfl
@[simp] theorem modHead_free (h : Nat) (g : Head → Head) (s : State) : (modHead h g s).free = s.free := rfl
@[simp] theorem modHead_part (h : Nat) (g : Head → Head) (s : State) : (modHead h g s).part = s.part := rfl
@[simp] theorem modHead_fw (h : Nat) (g : Head → Head) (s : State) : (modHead h g s).fw = s.fw := rfl
@[simp] theorem modHead_boot (h : Nat) (g : Head → Head) (s : State) : (modHead h g s).boot = s.boot := rfl
@[simp] theorem modHead_flash (h : Nat) (g : Head → Head) (s : State) : (modHead h g s).flash = s.flash := rfl
@[simp] theorem modHead_op (h : Nat) (g : Head → Head) (s : State) : (modHead h g s).op = s.op := rfl
@[simp] theorem modHead_ras (h : Nat) (g : Head → Head) (s : State) : (modHead h g s).ras = s.ras := rfl
@[simp] theorem modHead_sec (h : Nat) (g : Head → Head) (s : State) : (modHead h g s).sec = s.sec := rfl
@[simp] theorem modHead_smb (h : Nat) (g : Head → Head) (s : State) : (modHead h g s).smb = s.smb := rfl
@[simp] theorem modHead_vfs (h : Nat) (g : Head → Head) (s : State) : (modHead h g s).vfs = s.vfs := rfl
@[simp] theorem modHead_fns (h : Nat) (g : Head → Head) (s : State) : (modHead h g s).fns = s.fns := rfl
@[simp] theorem modHead_wards (h : Nat) (g : Head → Head) (s : State) : (modHead h g s).wards = s.wards := rfl
@[simp] theorem modHead_slots (h : Nat) (g : Head → Head) (s : State) : (modHead h g s).slots = s.slots := rfl
@[simp] theorem modHead_ctxs (h : Nat) (g : Head → Head) (s : State) : (modHead h g s).ctxs = s.ctxs := rfl
@[simp] theorem modHead_heads (h : Nat) (g : Head → Head) (s : State) : (modHead h g s).heads = tput s.heads h (g (headOf s h)) := rfl
@[simp] theorem modHead_tap (h : Nat) (g : Head → Head) (s : State) : (modHead h g s).tap = s.tap := rfl
@[simp] theorem modHead_cores (h : Nat) (g : Head → Head) (s : State) : (modHead h g s).cores = s.cores := rfl
@[simp] theorem modHead_tasks (h : Nat) (g : Head → Head) (s : State) : (modHead h g s).tasks = s.tasks := rfl
@[simp] theorem modHead_nextTask (h : Nat) (g : Head → Head) (s : State) : (modHead h g s).nextTask = s.nextTask := rfl
@[simp] theorem modHead_nextSerial (h : Nat) (g : Head → Head) (s : State) : (modHead h g s).nextSerial = s.nextSerial := rfl
@[simp] theorem modHead_hasps (h : Nat) (g : Head → Head) (s : State) : (modHead h g s).hasps = s.hasps := rfl
@[simp] theorem modHead_cycleOps (h : Nat) (g : Head → Head) (s : State) : (modHead h g s).cycleOps = s.cycleOps := rfl
@[simp] theorem modHead_detect (h : Nat) (g : Head → Head) (s : State) : (modHead h g s).detect = s.detect := rfl
@[simp] theorem modHead_engines (h : Nat) (g : Head → Head) (s : State) : (modHead h g s).engines = s.engines := rfl
@[simp] theorem modHead_feLast (h : Nat) (g : Head → Head) (s : State) : (modHead h g s).feLast = s.feLast := rfl
@[simp] theorem modHead_hinge (h : Nat) (g : Head → Head) (s : State) : (modHead h g s).hinge = s.hinge := rfl
@[simp] theorem modHead_remotes (h : Nat) (g : Head → Head) (s : State) : (modHead h g s).remotes = s.remotes := rfl
@[simp] theorem modHead_perf (h : Nat) (g : Head → Head) (s : State) : (modHead h g s).perf = s.perf := rfl
@[simp] theorem modHead_hostMem (h : Nat) (g : Head → Head) (s : State) : (modHead h g s).hostMem = s.hostMem := rfl
@[simp] theorem modHead_sent (h : Nat) (g : Head → Head) (s : State) : (modHead h g s).sent = s.sent := rfl
@[simp] theorem modHead_lastRead (h : Nat) (g : Head → Head) (s : State) : (modHead h g s).lastRead = s.lastRead := rfl
@[simp] theorem modHead_lastPoisoned (h : Nat) (g : Head → Head) (s : State) : (modHead h g s).lastPoisoned = s.lastPoisoned := rfl
@[simp] theorem modCore_pending (c : Nat) (g : Core → Core) (s : State) : (modCore c g s).pending = s.pending := rfl
@[simp] theorem modCore_now (c : Nat) (g : Core → Core) (s : State) : (modCore c g s).now = s.now := rfl
@[simp] theorem modCore_free (c : Nat) (g : Core → Core) (s : State) : (modCore c g s).free = s.free := rfl
@[simp] theorem modCore_part (c : Nat) (g : Core → Core) (s : State) : (modCore c g s).part = s.part := rfl
@[simp] theorem modCore_fw (c : Nat) (g : Core → Core) (s : State) : (modCore c g s).fw = s.fw := rfl
@[simp] theorem modCore_boot (c : Nat) (g : Core → Core) (s : State) : (modCore c g s).boot = s.boot := rfl
@[simp] theorem modCore_flash (c : Nat) (g : Core → Core) (s : State) : (modCore c g s).flash = s.flash := rfl
@[simp] theorem modCore_op (c : Nat) (g : Core → Core) (s : State) : (modCore c g s).op = s.op := rfl
@[simp] theorem modCore_ras (c : Nat) (g : Core → Core) (s : State) : (modCore c g s).ras = s.ras := rfl
@[simp] theorem modCore_sec (c : Nat) (g : Core → Core) (s : State) : (modCore c g s).sec = s.sec := rfl
@[simp] theorem modCore_smb (c : Nat) (g : Core → Core) (s : State) : (modCore c g s).smb = s.smb := rfl
@[simp] theorem modCore_vfs (c : Nat) (g : Core → Core) (s : State) : (modCore c g s).vfs = s.vfs := rfl
@[simp] theorem modCore_fns (c : Nat) (g : Core → Core) (s : State) : (modCore c g s).fns = s.fns := rfl
@[simp] theorem modCore_wards (c : Nat) (g : Core → Core) (s : State) : (modCore c g s).wards = s.wards := rfl
@[simp] theorem modCore_slots (c : Nat) (g : Core → Core) (s : State) : (modCore c g s).slots = s.slots := rfl
@[simp] theorem modCore_ctxs (c : Nat) (g : Core → Core) (s : State) : (modCore c g s).ctxs = s.ctxs := rfl
@[simp] theorem modCore_heads (c : Nat) (g : Core → Core) (s : State) : (modCore c g s).heads = s.heads := rfl
@[simp] theorem modCore_tap (c : Nat) (g : Core → Core) (s : State) : (modCore c g s).tap = s.tap := rfl
@[simp] theorem modCore_cores (c : Nat) (g : Core → Core) (s : State) : (modCore c g s).cores = tput s.cores c (g (coreOf s c)) := rfl
@[simp] theorem modCore_tasks (c : Nat) (g : Core → Core) (s : State) : (modCore c g s).tasks = s.tasks := rfl
@[simp] theorem modCore_nextTask (c : Nat) (g : Core → Core) (s : State) : (modCore c g s).nextTask = s.nextTask := rfl
@[simp] theorem modCore_nextSerial (c : Nat) (g : Core → Core) (s : State) : (modCore c g s).nextSerial = s.nextSerial := rfl
@[simp] theorem modCore_hasps (c : Nat) (g : Core → Core) (s : State) : (modCore c g s).hasps = s.hasps := rfl
@[simp] theorem modCore_cycleOps (c : Nat) (g : Core → Core) (s : State) : (modCore c g s).cycleOps = s.cycleOps := rfl
@[simp] theorem modCore_detect (c : Nat) (g : Core → Core) (s : State) : (modCore c g s).detect = s.detect := rfl
@[simp] theorem modCore_engines (c : Nat) (g : Core → Core) (s : State) : (modCore c g s).engines = s.engines := rfl
@[simp] theorem modCore_feLast (c : Nat) (g : Core → Core) (s : State) : (modCore c g s).feLast = s.feLast := rfl
@[simp] theorem modCore_hinge (c : Nat) (g : Core → Core) (s : State) : (modCore c g s).hinge = s.hinge := rfl
@[simp] theorem modCore_remotes (c : Nat) (g : Core → Core) (s : State) : (modCore c g s).remotes = s.remotes := rfl
@[simp] theorem modCore_perf (c : Nat) (g : Core → Core) (s : State) : (modCore c g s).perf = s.perf := rfl
@[simp] theorem modCore_hostMem (c : Nat) (g : Core → Core) (s : State) : (modCore c g s).hostMem = s.hostMem := rfl
@[simp] theorem modCore_sent (c : Nat) (g : Core → Core) (s : State) : (modCore c g s).sent = s.sent := rfl
@[simp] theorem modCore_lastRead (c : Nat) (g : Core → Core) (s : State) : (modCore c g s).lastRead = s.lastRead := rfl
@[simp] theorem modCore_lastPoisoned (c : Nat) (g : Core → Core) (s : State) : (modCore c g s).lastPoisoned = s.lastPoisoned := rfl
@[simp] theorem modTask_pending (t : Nat) (g : Task → Task) (s : State) : (modTask t g s).pending = s.pending := rfl
@[simp] theorem modTask_now (t : Nat) (g : Task → Task) (s : State) : (modTask t g s).now = s.now := rfl
@[simp] theorem modTask_free (t : Nat) (g : Task → Task) (s : State) : (modTask t g s).free = s.free := rfl
@[simp] theorem modTask_part (t : Nat) (g : Task → Task) (s : State) : (modTask t g s).part = s.part := rfl
@[simp] theorem modTask_fw (t : Nat) (g : Task → Task) (s : State) : (modTask t g s).fw = s.fw := rfl
@[simp] theorem modTask_boot (t : Nat) (g : Task → Task) (s : State) : (modTask t g s).boot = s.boot := rfl
@[simp] theorem modTask_flash (t : Nat) (g : Task → Task) (s : State) : (modTask t g s).flash = s.flash := rfl
@[simp] theorem modTask_op (t : Nat) (g : Task → Task) (s : State) : (modTask t g s).op = s.op := rfl
@[simp] theorem modTask_ras (t : Nat) (g : Task → Task) (s : State) : (modTask t g s).ras = s.ras := rfl
@[simp] theorem modTask_sec (t : Nat) (g : Task → Task) (s : State) : (modTask t g s).sec = s.sec := rfl
@[simp] theorem modTask_smb (t : Nat) (g : Task → Task) (s : State) : (modTask t g s).smb = s.smb := rfl
@[simp] theorem modTask_vfs (t : Nat) (g : Task → Task) (s : State) : (modTask t g s).vfs = s.vfs := rfl
@[simp] theorem modTask_fns (t : Nat) (g : Task → Task) (s : State) : (modTask t g s).fns = s.fns := rfl
@[simp] theorem modTask_wards (t : Nat) (g : Task → Task) (s : State) : (modTask t g s).wards = s.wards := rfl
@[simp] theorem modTask_slots (t : Nat) (g : Task → Task) (s : State) : (modTask t g s).slots = s.slots := rfl
@[simp] theorem modTask_ctxs (t : Nat) (g : Task → Task) (s : State) : (modTask t g s).ctxs = s.ctxs := rfl
@[simp] theorem modTask_heads (t : Nat) (g : Task → Task) (s : State) : (modTask t g s).heads = s.heads := rfl
@[simp] theorem modTask_tap (t : Nat) (g : Task → Task) (s : State) : (modTask t g s).tap = s.tap := rfl
@[simp] theorem modTask_cores (t : Nat) (g : Task → Task) (s : State) : (modTask t g s).cores = s.cores := rfl
@[simp] theorem modTask_tasks (t : Nat) (g : Task → Task) (s : State) : (modTask t g s).tasks = tmod s.tasks t g := rfl
@[simp] theorem modTask_nextTask (t : Nat) (g : Task → Task) (s : State) : (modTask t g s).nextTask = s.nextTask := rfl
@[simp] theorem modTask_nextSerial (t : Nat) (g : Task → Task) (s : State) : (modTask t g s).nextSerial = s.nextSerial := rfl
@[simp] theorem modTask_hasps (t : Nat) (g : Task → Task) (s : State) : (modTask t g s).hasps = s.hasps := rfl
@[simp] theorem modTask_cycleOps (t : Nat) (g : Task → Task) (s : State) : (modTask t g s).cycleOps = s.cycleOps := rfl
@[simp] theorem modTask_detect (t : Nat) (g : Task → Task) (s : State) : (modTask t g s).detect = s.detect := rfl
@[simp] theorem modTask_engines (t : Nat) (g : Task → Task) (s : State) : (modTask t g s).engines = s.engines := rfl
@[simp] theorem modTask_feLast (t : Nat) (g : Task → Task) (s : State) : (modTask t g s).feLast = s.feLast := rfl
@[simp] theorem modTask_hinge (t : Nat) (g : Task → Task) (s : State) : (modTask t g s).hinge = s.hinge := rfl
@[simp] theorem modTask_remotes (t : Nat) (g : Task → Task) (s : State) : (modTask t g s).remotes = s.remotes := rfl
@[simp] theorem modTask_perf (t : Nat) (g : Task → Task) (s : State) : (modTask t g s).perf = s.perf := rfl
@[simp] theorem modTask_hostMem (t : Nat) (g : Task → Task) (s : State) : (modTask t g s).hostMem = s.hostMem := rfl
@[simp] theorem modTask_sent (t : Nat) (g : Task → Task) (s : State) : (modTask t g s).sent = s.sent := rfl
@[simp] theorem modTask_lastRead (t : Nat) (g : Task → Task) (s : State) : (modTask t g s).lastRead = s.lastRead := rfl
@[simp] theorem modTask_lastPoisoned (t : Nat) (g : Task → Task) (s : State) : (modTask t g s).lastPoisoned = s.lastPoisoned := rfl
@[simp] theorem modThread_pending (t : ThreadRef) (g : Thread → Thread) (s : State) : (modThread t g s).pending = s.pending := rfl
@[simp] theorem modThread_now (t : ThreadRef) (g : Thread → Thread) (s : State) : (modThread t g s).now = s.now := rfl
@[simp] theorem modThread_free (t : ThreadRef) (g : Thread → Thread) (s : State) : (modThread t g s).free = s.free := rfl
@[simp] theorem modThread_part (t : ThreadRef) (g : Thread → Thread) (s : State) : (modThread t g s).part = s.part := rfl
@[simp] theorem modThread_fw (t : ThreadRef) (g : Thread → Thread) (s : State) : (modThread t g s).fw = s.fw := rfl
@[simp] theorem modThread_boot (t : ThreadRef) (g : Thread → Thread) (s : State) : (modThread t g s).boot = s.boot := rfl
@[simp] theorem modThread_flash (t : ThreadRef) (g : Thread → Thread) (s : State) : (modThread t g s).flash = s.flash := rfl
@[simp] theorem modThread_op (t : ThreadRef) (g : Thread → Thread) (s : State) : (modThread t g s).op = s.op := rfl
@[simp] theorem modThread_ras (t : ThreadRef) (g : Thread → Thread) (s : State) : (modThread t g s).ras = s.ras := rfl
@[simp] theorem modThread_sec (t : ThreadRef) (g : Thread → Thread) (s : State) : (modThread t g s).sec = s.sec := rfl
@[simp] theorem modThread_smb (t : ThreadRef) (g : Thread → Thread) (s : State) : (modThread t g s).smb = s.smb := rfl
@[simp] theorem modThread_vfs (t : ThreadRef) (g : Thread → Thread) (s : State) : (modThread t g s).vfs = s.vfs := rfl
@[simp] theorem modThread_fns (t : ThreadRef) (g : Thread → Thread) (s : State) : (modThread t g s).fns = s.fns := rfl
@[simp] theorem modThread_wards (t : ThreadRef) (g : Thread → Thread) (s : State) : (modThread t g s).wards = s.wards := rfl
@[simp] theorem modThread_slots (t : ThreadRef) (g : Thread → Thread) (s : State) : (modThread t g s).slots = s.slots := rfl
@[simp] theorem modThread_ctxs (t : ThreadRef) (g : Thread → Thread) (s : State) : (modThread t g s).ctxs = s.ctxs := rfl
@[simp] theorem modThread_heads (t : ThreadRef) (g : Thread → Thread) (s : State) : (modThread t g s).heads = s.heads := rfl
@[simp] theorem modThread_tap (t : ThreadRef) (g : Thread → Thread) (s : State) : (modThread t g s).tap = s.tap := rfl
@[simp] theorem modThread_cores (t : ThreadRef) (g : Thread → Thread) (s : State) : (modThread t g s).cores = tput s.cores t.core { coreOf s t.core with threads := tmod (coreOf s t.core).threads t.slot g } := rfl
@[simp] theorem modThread_tasks (t : ThreadRef) (g : Thread → Thread) (s : State) : (modThread t g s).tasks = s.tasks := rfl
@[simp] theorem modThread_nextTask (t : ThreadRef) (g : Thread → Thread) (s : State) : (modThread t g s).nextTask = s.nextTask := rfl
@[simp] theorem modThread_nextSerial (t : ThreadRef) (g : Thread → Thread) (s : State) : (modThread t g s).nextSerial = s.nextSerial := rfl
@[simp] theorem modThread_hasps (t : ThreadRef) (g : Thread → Thread) (s : State) : (modThread t g s).hasps = s.hasps := rfl
@[simp] theorem modThread_cycleOps (t : ThreadRef) (g : Thread → Thread) (s : State) : (modThread t g s).cycleOps = s.cycleOps := rfl
@[simp] theorem modThread_detect (t : ThreadRef) (g : Thread → Thread) (s : State) : (modThread t g s).detect = s.detect := rfl
@[simp] theorem modThread_engines (t : ThreadRef) (g : Thread → Thread) (s : State) : (modThread t g s).engines = s.engines := rfl
@[simp] theorem modThread_feLast (t : ThreadRef) (g : Thread → Thread) (s : State) : (modThread t g s).feLast = s.feLast := rfl
@[simp] theorem modThread_hinge (t : ThreadRef) (g : Thread → Thread) (s : State) : (modThread t g s).hinge = s.hinge := rfl
@[simp] theorem modThread_remotes (t : ThreadRef) (g : Thread → Thread) (s : State) : (modThread t g s).remotes = s.remotes := rfl
@[simp] theorem modThread_perf (t : ThreadRef) (g : Thread → Thread) (s : State) : (modThread t g s).perf = s.perf := rfl
@[simp] theorem modThread_hostMem (t : ThreadRef) (g : Thread → Thread) (s : State) : (modThread t g s).hostMem = s.hostMem := rfl
@[simp] theorem modThread_sent (t : ThreadRef) (g : Thread → Thread) (s : State) : (modThread t g s).sent = s.sent := rfl
@[simp] theorem modThread_lastRead (t : ThreadRef) (g : Thread → Thread) (s : State) : (modThread t g s).lastRead = s.lastRead := rfl
@[simp] theorem modThread_lastPoisoned (t : ThreadRef) (g : Thread → Thread) (s : State) : (modThread t g s).lastPoisoned = s.lastPoisoned := rfl
@[simp] theorem modHasp_pending (h : Nat) (g : Hasp → Hasp) (s : State) : (modHasp h g s).pending = s.pending := rfl
@[simp] theorem modHasp_now (h : Nat) (g : Hasp → Hasp) (s : State) : (modHasp h g s).now = s.now := rfl
@[simp] theorem modHasp_free (h : Nat) (g : Hasp → Hasp) (s : State) : (modHasp h g s).free = s.free := rfl
@[simp] theorem modHasp_part (h : Nat) (g : Hasp → Hasp) (s : State) : (modHasp h g s).part = s.part := rfl
@[simp] theorem modHasp_fw (h : Nat) (g : Hasp → Hasp) (s : State) : (modHasp h g s).fw = s.fw := rfl
@[simp] theorem modHasp_boot (h : Nat) (g : Hasp → Hasp) (s : State) : (modHasp h g s).boot = s.boot := rfl
@[simp] theorem modHasp_flash (h : Nat) (g : Hasp → Hasp) (s : State) : (modHasp h g s).flash = s.flash := rfl
@[simp] theorem modHasp_op (h : Nat) (g : Hasp → Hasp) (s : State) : (modHasp h g s).op = s.op := rfl
@[simp] theorem modHasp_ras (h : Nat) (g : Hasp → Hasp) (s : State) : (modHasp h g s).ras = s.ras := rfl
@[simp] theorem modHasp_sec (h : Nat) (g : Hasp → Hasp) (s : State) : (modHasp h g s).sec = s.sec := rfl
@[simp] theorem modHasp_smb (h : Nat) (g : Hasp → Hasp) (s : State) : (modHasp h g s).smb = s.smb := rfl
@[simp] theorem modHasp_vfs (h : Nat) (g : Hasp → Hasp) (s : State) : (modHasp h g s).vfs = s.vfs := rfl
@[simp] theorem modHasp_fns (h : Nat) (g : Hasp → Hasp) (s : State) : (modHasp h g s).fns = s.fns := rfl
@[simp] theorem modHasp_wards (h : Nat) (g : Hasp → Hasp) (s : State) : (modHasp h g s).wards = s.wards := rfl
@[simp] theorem modHasp_slots (h : Nat) (g : Hasp → Hasp) (s : State) : (modHasp h g s).slots = s.slots := rfl
@[simp] theorem modHasp_ctxs (h : Nat) (g : Hasp → Hasp) (s : State) : (modHasp h g s).ctxs = s.ctxs := rfl
@[simp] theorem modHasp_heads (h : Nat) (g : Hasp → Hasp) (s : State) : (modHasp h g s).heads = s.heads := rfl
@[simp] theorem modHasp_tap (h : Nat) (g : Hasp → Hasp) (s : State) : (modHasp h g s).tap = s.tap := rfl
@[simp] theorem modHasp_cores (h : Nat) (g : Hasp → Hasp) (s : State) : (modHasp h g s).cores = s.cores := rfl
@[simp] theorem modHasp_tasks (h : Nat) (g : Hasp → Hasp) (s : State) : (modHasp h g s).tasks = s.tasks := rfl
@[simp] theorem modHasp_nextTask (h : Nat) (g : Hasp → Hasp) (s : State) : (modHasp h g s).nextTask = s.nextTask := rfl
@[simp] theorem modHasp_nextSerial (h : Nat) (g : Hasp → Hasp) (s : State) : (modHasp h g s).nextSerial = s.nextSerial := rfl
@[simp] theorem modHasp_hasps (h : Nat) (g : Hasp → Hasp) (s : State) : (modHasp h g s).hasps = tmod s.hasps h g := rfl
@[simp] theorem modHasp_cycleOps (h : Nat) (g : Hasp → Hasp) (s : State) : (modHasp h g s).cycleOps = s.cycleOps := rfl
@[simp] theorem modHasp_detect (h : Nat) (g : Hasp → Hasp) (s : State) : (modHasp h g s).detect = s.detect := rfl
@[simp] theorem modHasp_engines (h : Nat) (g : Hasp → Hasp) (s : State) : (modHasp h g s).engines = s.engines := rfl
@[simp] theorem modHasp_feLast (h : Nat) (g : Hasp → Hasp) (s : State) : (modHasp h g s).feLast = s.feLast := rfl
@[simp] theorem modHasp_hinge (h : Nat) (g : Hasp → Hasp) (s : State) : (modHasp h g s).hinge = s.hinge := rfl
@[simp] theorem modHasp_remotes (h : Nat) (g : Hasp → Hasp) (s : State) : (modHasp h g s).remotes = s.remotes := rfl
@[simp] theorem modHasp_perf (h : Nat) (g : Hasp → Hasp) (s : State) : (modHasp h g s).perf = s.perf := rfl
@[simp] theorem modHasp_hostMem (h : Nat) (g : Hasp → Hasp) (s : State) : (modHasp h g s).hostMem = s.hostMem := rfl
@[simp] theorem modHasp_sent (h : Nat) (g : Hasp → Hasp) (s : State) : (modHasp h g s).sent = s.sent := rfl
@[simp] theorem modHasp_lastRead (h : Nat) (g : Hasp → Hasp) (s : State) : (modHasp h g s).lastRead = s.lastRead := rfl
@[simp] theorem modHasp_lastPoisoned (h : Nat) (g : Hasp → Hasp) (s : State) : (modHasp h g s).lastPoisoned = s.lastPoisoned := rfl
@[simp] theorem modAcct_pending (i : Nat) (g : Account → Account) (s : State) : (modAcct i g s).pending = s.pending := rfl
@[simp] theorem modAcct_now (i : Nat) (g : Account → Account) (s : State) : (modAcct i g s).now = s.now := rfl
@[simp] theorem modAcct_free (i : Nat) (g : Account → Account) (s : State) : (modAcct i g s).free = s.free := rfl
@[simp] theorem modAcct_part (i : Nat) (g : Account → Account) (s : State) : (modAcct i g s).part = s.part := rfl
@[simp] theorem modAcct_fw (i : Nat) (g : Account → Account) (s : State) : (modAcct i g s).fw = s.fw := rfl
@[simp] theorem modAcct_boot (i : Nat) (g : Account → Account) (s : State) : (modAcct i g s).boot = s.boot := rfl
@[simp] theorem modAcct_flash (i : Nat) (g : Account → Account) (s : State) : (modAcct i g s).flash = s.flash := rfl
@[simp] theorem modAcct_op (i : Nat) (g : Account → Account) (s : State) : (modAcct i g s).op = s.op := rfl
@[simp] theorem modAcct_ras (i : Nat) (g : Account → Account) (s : State) : (modAcct i g s).ras = s.ras := rfl
@[simp] theorem modAcct_sec (i : Nat) (g : Account → Account) (s : State) : (modAcct i g s).sec = s.sec := rfl
@[simp] theorem modAcct_smb (i : Nat) (g : Account → Account) (s : State) : (modAcct i g s).smb = s.smb := rfl
@[simp] theorem modAcct_vfs (i : Nat) (g : Account → Account) (s : State) : (modAcct i g s).vfs = s.vfs := rfl
@[simp] theorem modAcct_fns (i : Nat) (g : Account → Account) (s : State) : (modAcct i g s).fns = s.fns := rfl
@[simp] theorem modAcct_wards (i : Nat) (g : Account → Account) (s : State) : (modAcct i g s).wards = s.wards := rfl
@[simp] theorem modAcct_slots (i : Nat) (g : Account → Account) (s : State) : (modAcct i g s).slots = s.slots := rfl
@[simp] theorem modAcct_ctxs (i : Nat) (g : Account → Account) (s : State) : (modAcct i g s).ctxs = tmod s.ctxs i (fun c => { c with acct := g c.acct }) := rfl
@[simp] theorem modAcct_heads (i : Nat) (g : Account → Account) (s : State) : (modAcct i g s).heads = s.heads := rfl
@[simp] theorem modAcct_tap (i : Nat) (g : Account → Account) (s : State) : (modAcct i g s).tap = s.tap := rfl
@[simp] theorem modAcct_cores (i : Nat) (g : Account → Account) (s : State) : (modAcct i g s).cores = s.cores := rfl
@[simp] theorem modAcct_tasks (i : Nat) (g : Account → Account) (s : State) : (modAcct i g s).tasks = s.tasks := rfl
@[simp] theorem modAcct_nextTask (i : Nat) (g : Account → Account) (s : State) : (modAcct i g s).nextTask = s.nextTask := rfl
@[simp] theorem modAcct_nextSerial (i : Nat) (g : Account → Account) (s : State) : (modAcct i g s).nextSerial = s.nextSerial := rfl
@[simp] theorem modAcct_hasps (i : Nat) (g : Account → Account) (s : State) : (modAcct i g s).hasps = s.hasps := rfl
@[simp] theorem modAcct_cycleOps (i : Nat) (g : Account → Account) (s : State) : (modAcct i g s).cycleOps = s.cycleOps := rfl
@[simp] theorem modAcct_detect (i : Nat) (g : Account → Account) (s : State) : (modAcct i g s).detect = s.detect := rfl
@[simp] theorem modAcct_engines (i : Nat) (g : Account → Account) (s : State) : (modAcct i g s).engines = s.engines := rfl
@[simp] theorem modAcct_feLast (i : Nat) (g : Account → Account) (s : State) : (modAcct i g s).feLast = s.feLast := rfl
@[simp] theorem modAcct_hinge (i : Nat) (g : Account → Account) (s : State) : (modAcct i g s).hinge = s.hinge := rfl
@[simp] theorem modAcct_remotes (i : Nat) (g : Account → Account) (s : State) : (modAcct i g s).remotes = s.remotes := rfl
@[simp] theorem modAcct_perf (i : Nat) (g : Account → Account) (s : State) : (modAcct i g s).perf = s.perf := rfl
@[simp] theorem modAcct_hostMem (i : Nat) (g : Account → Account) (s : State) : (modAcct i g s).hostMem = s.hostMem := rfl
@[simp] theorem modAcct_sent (i : Nat) (g : Account → Account) (s : State) : (modAcct i g s).sent = s.sent := rfl
@[simp] theorem modAcct_lastRead (i : Nat) (g : Account → Account) (s : State) : (modAcct i g s).lastRead = s.lastRead := rfl
@[simp] theorem modAcct_lastPoisoned (i : Nat) (g : Account → Account) (s : State) : (modAcct i g s).lastPoisoned = s.lastPoisoned := rfl
@[simp] theorem modPerf_pending (g : Perf → Perf) (s : State) : (modPerf g s).pending = s.pending := rfl
@[simp] theorem modPerf_now (g : Perf → Perf) (s : State) : (modPerf g s).now = s.now := rfl
@[simp] theorem modPerf_free (g : Perf → Perf) (s : State) : (modPerf g s).free = s.free := rfl
@[simp] theorem modPerf_part (g : Perf → Perf) (s : State) : (modPerf g s).part = s.part := rfl
@[simp] theorem modPerf_fw (g : Perf → Perf) (s : State) : (modPerf g s).fw = s.fw := rfl
@[simp] theorem modPerf_boot (g : Perf → Perf) (s : State) : (modPerf g s).boot = s.boot := rfl
@[simp] theorem modPerf_flash (g : Perf → Perf) (s : State) : (modPerf g s).flash = s.flash := rfl
@[simp] theorem modPerf_op (g : Perf → Perf) (s : State) : (modPerf g s).op = s.op := rfl
@[simp] theorem modPerf_ras (g : Perf → Perf) (s : State) : (modPerf g s).ras = s.ras := rfl
@[simp] theorem modPerf_sec (g : Perf → Perf) (s : State) : (modPerf g s).sec = s.sec := rfl
@[simp] theorem modPerf_smb (g : Perf → Perf) (s : State) : (modPerf g s).smb = s.smb := rfl
@[simp] theorem modPerf_vfs (g : Perf → Perf) (s : State) : (modPerf g s).vfs = s.vfs := rfl
@[simp] theorem modPerf_fns (g : Perf → Perf) (s : State) : (modPerf g s).fns = s.fns := rfl
@[simp] theorem modPerf_wards (g : Perf → Perf) (s : State) : (modPerf g s).wards = s.wards := rfl
@[simp] theorem modPerf_slots (g : Perf → Perf) (s : State) : (modPerf g s).slots = s.slots := rfl
@[simp] theorem modPerf_ctxs (g : Perf → Perf) (s : State) : (modPerf g s).ctxs = s.ctxs := rfl
@[simp] theorem modPerf_heads (g : Perf → Perf) (s : State) : (modPerf g s).heads = s.heads := rfl
@[simp] theorem modPerf_tap (g : Perf → Perf) (s : State) : (modPerf g s).tap = s.tap := rfl
@[simp] theorem modPerf_cores (g : Perf → Perf) (s : State) : (modPerf g s).cores = s.cores := rfl
@[simp] theorem modPerf_tasks (g : Perf → Perf) (s : State) : (modPerf g s).tasks = s.tasks := rfl
@[simp] theorem modPerf_nextTask (g : Perf → Perf) (s : State) : (modPerf g s).nextTask = s.nextTask := rfl
@[simp] theorem modPerf_nextSerial (g : Perf → Perf) (s : State) : (modPerf g s).nextSerial = s.nextSerial := rfl
@[simp] theorem modPerf_hasps (g : Perf → Perf) (s : State) : (modPerf g s).hasps = s.hasps := rfl
@[simp] theorem modPerf_cycleOps (g : Perf → Perf) (s : State) : (modPerf g s).cycleOps = s.cycleOps := rfl
@[simp] theorem modPerf_detect (g : Perf → Perf) (s : State) : (modPerf g s).detect = s.detect := rfl
@[simp] theorem modPerf_engines (g : Perf → Perf) (s : State) : (modPerf g s).engines = s.engines := rfl
@[simp] theorem modPerf_feLast (g : Perf → Perf) (s : State) : (modPerf g s).feLast = s.feLast := rfl
@[simp] theorem modPerf_hinge (g : Perf → Perf) (s : State) : (modPerf g s).hinge = s.hinge := rfl
@[simp] theorem modPerf_remotes (g : Perf → Perf) (s : State) : (modPerf g s).remotes = s.remotes := rfl
@[simp] theorem modPerf_perf (g : Perf → Perf) (s : State) : (modPerf g s).perf = g s.perf := rfl
@[simp] theorem modPerf_hostMem (g : Perf → Perf) (s : State) : (modPerf g s).hostMem = s.hostMem := rfl
@[simp] theorem modPerf_sent (g : Perf → Perf) (s : State) : (modPerf g s).sent = s.sent := rfl
@[simp] theorem modPerf_lastRead (g : Perf → Perf) (s : State) : (modPerf g s).lastRead = s.lastRead := rfl
@[simp] theorem modPerf_lastPoisoned (g : Perf → Perf) (s : State) : (modPerf g s).lastPoisoned = s.lastPoisoned := rfl
@[simp] theorem hostWrite_pending (a : Nat) (b : Bytes) (s : State) : (hostWrite a b s).pending = s.pending := rfl
@[simp] theorem hostWrite_now (a : Nat) (b : Bytes) (s : State) : (hostWrite a b s).now = s.now := rfl
@[simp] theorem hostWrite_free (a : Nat) (b : Bytes) (s : State) : (hostWrite a b s).free = s.free := rfl
@[simp] theorem hostWrite_part (a : Nat) (b : Bytes) (s : State) : (hostWrite a b s).part = s.part := rfl
@[simp] theorem hostWrite_fw (a : Nat) (b : Bytes) (s : State) : (hostWrite a b s).fw = s.fw := rfl
@[simp] theorem hostWrite_boot (a : Nat) (b : Bytes) (s : State) : (hostWrite a b s).boot = s.boot := rfl
@[simp] theorem hostWrite_flash (a : Nat) (b : Bytes) (s : State) : (hostWrite a b s).flash = s.flash := rfl
@[simp] theorem hostWrite_op (a : Nat) (b : Bytes) (s : State) : (hostWrite a b s).op = s.op := rfl
@[simp] theorem hostWrite_ras (a : Nat) (b : Bytes) (s : State) : (hostWrite a b s).ras = s.ras := rfl
@[simp] theorem hostWrite_sec (a : Nat) (b : Bytes) (s : State) : (hostWrite a b s).sec = s.sec := rfl
@[simp] theorem hostWrite_smb (a : Nat) (b : Bytes) (s : State) : (hostWrite a b s).smb = s.smb := rfl
@[simp] theorem hostWrite_vfs (a : Nat) (b : Bytes) (s : State) : (hostWrite a b s).vfs = s.vfs := rfl
@[simp] theorem hostWrite_fns (a : Nat) (b : Bytes) (s : State) : (hostWrite a b s).fns = s.fns := rfl
@[simp] theorem hostWrite_wards (a : Nat) (b : Bytes) (s : State) : (hostWrite a b s).wards = s.wards := rfl
@[simp] theorem hostWrite_slots (a : Nat) (b : Bytes) (s : State) : (hostWrite a b s).slots = s.slots := rfl
@[simp] theorem hostWrite_ctxs (a : Nat) (b : Bytes) (s : State) : (hostWrite a b s).ctxs = s.ctxs := rfl
@[simp] theorem hostWrite_heads (a : Nat) (b : Bytes) (s : State) : (hostWrite a b s).heads = s.heads := rfl
@[simp] theorem hostWrite_tap (a : Nat) (b : Bytes) (s : State) : (hostWrite a b s).tap = s.tap := rfl
@[simp] theorem hostWrite_cores (a : Nat) (b : Bytes) (s : State) : (hostWrite a b s).cores = s.cores := rfl
@[simp] theorem hostWrite_tasks (a : Nat) (b : Bytes) (s : State) : (hostWrite a b s).tasks = s.tasks := rfl
@[simp] theorem hostWrite_nextTask (a : Nat) (b : Bytes) (s : State) : (hostWrite a b s).nextTask = s.nextTask := rfl
@[simp] theorem hostWrite_nextSerial (a : Nat) (b : Bytes) (s : State) : (hostWrite a b s).nextSerial = s.nextSerial := rfl
@[simp] theorem hostWrite_hasps (a : Nat) (b : Bytes) (s : State) : (hostWrite a b s).hasps = s.hasps := rfl
@[simp] theorem hostWrite_cycleOps (a : Nat) (b : Bytes) (s : State) : (hostWrite a b s).cycleOps = s.cycleOps := rfl
@[simp] theorem hostWrite_detect (a : Nat) (b : Bytes) (s : State) : (hostWrite a b s).detect = s.detect := rfl
@[simp] theorem hostWrite_engines (a : Nat) (b : Bytes) (s : State) : (hostWrite a b s).engines = s.engines := rfl
@[simp] theorem hostWrite_feLast (a : Nat) (b : Bytes) (s : State) : (hostWrite a b s).feLast = s.feLast := rfl
@[simp] theorem hostWrite_hinge (a : Nat) (b : Bytes) (s : State) : (hostWrite a b s).hinge = s.hinge := rfl
@[simp] theorem hostWrite_remotes (a : Nat) (b : Bytes) (s : State) : (hostWrite a b s).remotes = s.remotes := rfl
@[simp] theorem hostWrite_perf (a : Nat) (b : Bytes) (s : State) : (hostWrite a b s).perf = s.perf := rfl
@[simp] theorem hostWrite_hostMem (a : Nat) (b : Bytes) (s : State) : (hostWrite a b s).hostMem = Mem.writeN s.hostMem a b := rfl
@[simp] theorem hostWrite_sent (a : Nat) (b : Bytes) (s : State) : (hostWrite a b s).sent = s.sent := rfl
@[simp] theorem hostWrite_lastRead (a : Nat) (b : Bytes) (s : State) : (hostWrite a b s).lastRead = s.lastRead := rfl
@[simp] theorem hostWrite_lastPoisoned (a : Nat) (b : Bytes) (s : State) : (hostWrite a b s).lastPoisoned = s.lastPoisoned := rfl

/-! ## Lookups after an update -/

theorem coreOf_modCore (c : Nat) (g : Core → Core) (s : State) (d : Nat) :
    coreOf (modCore c g s) d = if d = c then g (coreOf s c) else coreOf s d := by
  simp only [coreOf, tgetD, modCore_cores, tget_tput]; split <;> rfl
@[simp] theorem coreOf_modCore_same (c : Nat) (g : Core → Core) (s : State) : coreOf (modCore c g s) c = g (coreOf s c) := by
  simp [coreOf_modCore]
theorem ctxOf_modCtx (i : Nat) (g : Ctx → Ctx) (s : State) (j : Nat) :
    ctxOf (modCtx i g s) j = if j = i then (ctxOf s i).map g else ctxOf s j := by
  simp only [ctxOf, modCtx_ctxs, tget_tmod]; split <;> simp_all
theorem slotOf_modSlot (i : Nat) (g : Slot → Slot) (s : State) (j : Nat) :
    slotOf (modSlot i g s) j = if j = i then g (slotOf s i) else slotOf s j := by
  simp only [slotOf, tgetD, modSlot_slots, tget_tput]; split <;> rfl
theorem headOf_modHead (h : Nat) (g : Head → Head) (s : State) (j : Nat) :
    headOf (modHead h g s) j = if j = h then g (headOf s h) else headOf s j := by
  simp only [headOf, tgetD, modHead_heads, tget_tput]; split <;> rfl
theorem threadOf_modThread (t : ThreadRef) (g : Thread → Thread) (s : State) (u : ThreadRef) :
    threadOf (modThread t g s) u = if u = t then (threadOf s t).map g else threadOf s u := by
  obtain ⟨uc, us⟩ := u
  obtain ⟨tc, ts⟩ := t
  simp only [threadOf, modThread, coreOf_modCore, ThreadRef.mk.injEq]
  by_cases h : uc = tc
  · subst h
    by_cases h' : us = ts
    · subst h'; simp
    · simp [h', tget_tmod_other]
  · simp [h]
theorem fnOf_modFn (f : Nat) (g : Fn → Fn) (s : State) (h : Nat) :
    fnOf (modFn f g s) h = if h = f ∧ f < s.fns.length then g (fnOf s f) else fnOf s h := by
  simp only [fnOf, modFn_fns, lmod, List.getD_eq_getElem?_getD, List.getElem?_modify]
  by_cases e : f = h
  · subst e
    by_cases l : f < s.fns.length <;> simp [l]
  · simp [e, Ne.symm e]
theorem wardOf_modWard (w : Nat) (g : Ward → Ward) (s : State) (h : Nat) :
    wardOf (modWard w g s) h = if h = w ∧ w < s.wards.length then g (wardOf s w) else wardOf s h := by
  simp only [wardOf, modWard_wards, lmod, List.getD_eq_getElem?_getD, List.getElem?_modify]
  by_cases e : w = h
  · subst e
    by_cases l : w < s.wards.length <;> simp [l]
  · simp [e, Ne.symm e]
@[simp] theorem modFn_fns_length (f : Nat) (g : Fn → Fn) (s : State) : (modFn f g s).fns.length = s.fns.length := by
  simp [lmod]
@[simp] theorem modWard_wards_length (w : Nat) (g : Ward → Ward) (s : State) : (modWard w g s).wards.length = s.wards.length := by
  simp [lmod]

end Sys2Proof.Machine
end

