-- ==== Sys2Proof/Laws/Issue.lean ====
section
/-!
SUPPORT. What an issue does, once: the counting of events changes the counters alone, and an issue moves the thread's pc, notes the
instant, occupies an engine, charges the account and counts.
-/
namespace Sys2Proof.Machine

/-- A note changes the counters alone. -/
theorem tally_eq (c ev n : Nat) (who : Option Who) (s : State) : ∃ p, tally c ev n who s = modPerf (fun _ => p) s := by
  unfold tally
  split <;> exact ⟨_, rfl⟩
theorem tallyChip_eq (ev u n : Nat) (w : Option Nat) (s : State) : ∃ p, tallyChip ev u n w s = modPerf (fun _ => p) s := by
  unfold tallyChip
  split <;> exact ⟨_, rfl⟩
theorem portBytes_eq (c port n : Nat) (s : State) : ∃ p, portBytes c port n s = modPerf (fun _ => p) s := by
  unfold portBytes
  split
  · exact ⟨_, rfl⟩
  · split <;> exact ⟨_, rfl⟩
/-- A charge of an engine changes the context's account alone. -/
theorem chargeEngine_eq (slot : Nat) (e : Engine) (n point : Nat) (s : State) :
    ∃ a : Account → Account, chargeEngine slot e n point s = modAcct slot a s := ⟨_, rfl⟩

/-- The thread's own part of an issue: `n` is the number that the issue has on its core. -/
def issuedThread (n : Nat) (th : Thread) : Thread := { th with pc := th.pc + 8, lastIssue := n }

/-- Everything that counting an issue can change: the counters, how long the core's engines are busy, and their queues. -/
theorem countIssue_eq (op : Nat) (t : ThreadRef) (f : KFields) (e : Engine) (n : Nat) (th : Thread) (k : Task) (s : State) :
    ∃ p, countIssue op t f e n th k s = modPerf (fun _ => p) s ∨
      ∃ b te se, countIssue op t f e n th k s =
        modPerf (fun _ => p) (modCore t.core (fun c => { c with busy := b, teQ := te, seQ := se }) s) := by
  unfold countIssue
  dsimp only
  obtain ⟨p1, h1⟩ := tally_eq t.core (issueEvent e) 1 (some (whoOf k)) s
  rw [h1]
  have h2 : ∃ p, (if guardOff op e th f = true then tally t.core 0x00B 1 (some (whoOf k)) (modPerf (fun _ => p1) s) else modPerf (fun _ => p1) s)
      = modPerf (fun _ => p) s := by
    split
    · obtain ⟨p, h⟩ := tally_eq t.core 0x00B 1 (some (whoOf k)) (modPerf (fun _ => p1) s)
      exact ⟨p, h⟩
    · exact ⟨p1, rfl⟩
  obtain ⟨p2, h2⟩ := h2
  rw [h2]
  split
  · exact ⟨p2, .inl rfl⟩
  · rename_i i _
    generalize corePoint _ _ = q
    obtain ⟨p3, h3⟩ := tally_eq t.core (0x010 + 4 * i + b2n (guardOff op e th f)) n (some (whoOf k)) (modPerf (fun _ => p2) s)
    rw [h3]
    split
    · obtain ⟨p4, h4⟩ := tally_eq t.core 0x020 1 (some (whoOf k)) (occupy t.core i n q (taskLc k) (modPerf (fun _ => p3) s))
      exact ⟨p4, .inr ⟨_, _, _, h4.trans rfl⟩⟩
    · exact ⟨p3, .inr ⟨_, _, _, rfl⟩⟩

/-- Everything an issue can change: the issuing thread's pc and last issue, its core's issues, engines and queues, the context's account
and the counters. -/
theorem issued_eq (op : Nat) (t : ThreadRef) (f : KFields) (e : Engine) (n : Nat) (th : Thread) (k : Task) (s : State) :
    ∃ (p : Perf) (b : List Nat) (te se : List (Nat × Bool)) (a : Account → Account), issued op t f e n th k s =
      modPerf (fun _ => p) (modAcct k.slot a (modCore t.core (fun c =>
        { c with threads := tmod c.threads t.slot (issuedThread (c.issues + 1)), issues := c.issues + 1, busy := b, teQ := te, seQ := se }) s)) := by
  unfold issued
  obtain ⟨a, ha⟩ := chargeEngine_eq k.slot e n (corePoint s t.core) (stepThread t s)
  rw [ha]
  obtain ⟨p, h | ⟨b, te, se, h⟩⟩ := countIssue_eq op t f e n th k (modAcct k.slot a (stepThread t s))
  · rw [h]; exact ⟨p, (coreOf s t.core).busy, (coreOf s t.core).teQ, (coreOf s t.core).seQ, a, rfl⟩
  · rw [h]
    refine ⟨p, b, te, se, a, ?_⟩
    simp only [stepThread, modCore, modAcct, modCtx, modPerf, tput_tput, coreOf, tgetD, tget_tput_same, Option.getD_some]
    rfl

/-- An instruction that may issue goes on with its effect. -/
theorem issue_next {op : Nat} {t : ThreadRef} {f : KFields} {s : State} {th : Thread} {k : Task} (e : Engine) (n : Nat)
    (go : Thread → Task → State → State) (hok : okIssue op t f s = true) (hth : threadOf s t = some th)
    (hk : tget s.tasks th.task = some k) :
    issue op t f e n s go = .next (go th (withStore s k) (issued op t f e n th k s)) := by
  simp [issue, hok, hth, hk]

end Sys2Proof.Machine
end

