-- ==== Sys2Proof/WellFormed.lean ====
section
/-!
DEFINITION. Which commands are well formed: every index lies in the range that the spec gives its kind of object.
-/
namespace Sys2Proof

/-- A context slot number, 0–1,023 (10 R351). -/
def slotOk (slot : Nat) : Bool := decide (slot < 1024)
/-- A function number, 0 the PF, 1–15 the VFs (10 R345). -/
def fnOk (fn : Nat) : Bool := decide (fn < 16)
/-- A ward number (10 R345). -/
def wardOk (w : Nat) : Bool := decide (w < 16)
/-- A logical core number (10 Table 10-1). -/
def coreOk (c : Nat) : Bool := decide (c < 2048)
/-- A head number (09 R319). -/
def headOk (h : Nat) : Bool := decide (h < 1026)
/-- A hinge port number (12). -/
def portOk (p : Nat) : Bool := decide (p < 4)
/-- A vault channel number (10 Table 10-1). -/
def channelOk (c : Nat) : Bool := decide (c < 96)
/-- A thread of a core: 64 slots (05 R185). -/
def threadOk (t : ThreadRef) : Bool := coreOk t.core && decide (t.slot < 64)
/-- A SEQ value (11 R391). -/
def seqOk (q : Nat) : Bool := decide (q < 2 ^ 32)
/-- A 32-bit register value. -/
def wordOk (v : Nat) : Bool := decide (v < 2 ^ 32)
/-- A ring. -/
def ringOk : RingRef → Bool
  | .admin fn => fnOk fn
  | .ctx slot => slotOk slot

/-- A fixed-function unit that the device has (10 Table 10-1; 10 R364). -/
def unitOk : FixedUnit → Bool
  | .frontEnd i => decide (i < 16)
  | .rtu i => decide (i < 32)
  | .flowEngine i => decide (i < 8)
  | .detect i => decide (i < 4)
  | .ingest => true
/-- Readings fit their register fields (16 Table 16-8). -/
def readingsOk (r : Readings) : Bool :=
  decide (r.hot < 64) && [r.tempMax, r.tempAvg, r.power, r.core, r.sram, r.vault, r.io, r.aux].all (fun v => decide (v < 65536))

/-- The operands of a command lie in their ranges. -/
def WellFormed : Instr → Bool
  | .ingestRender slot seq | .ingestPose slot seq | .kwNop slot seq | .kwFence slot seq | .ctxConfigure slot seq
  | .imageBind slot seq | .hierLoad slot seq | .hierUnload slot seq | .graphLoad slot seq | .graphUnload slot seq
  | .headBind slot seq | .headUnbind slot seq | .auxRun slot seq | .haspGrant slot seq | .haspRelease slot seq
  | .copy slot seq | .adaptPublish slot seq | .adapterLoad slot seq | .adapterExport slot seq | .storeClear slot seq
  | .trainControl slot seq | .acctQuery slot seq | .replayFrame slot seq => slotOk slot && seqOk seq
  | .packetArrival ward _ | .ingestCheck ward | .poseIngestComplete ward => wardOk ward
  | .ingestDecodeComplete slot _ => slotOk slot
  | .frameStart slot | .cutOff slot | .geometryPassStart slot | .poolGrowthComplete slot | .binningComplete slot
  | .splatComplete slot | .detentCheck slot | .stepBoundary slot | .trainingStepComplete slot | .graphRunEnd slot
  | .teardownComplete slot => slotOk slot
  | .digestComplete slot _ => slotOk slot
  | .feSetupGroup fe => decide (fe < 16)
  | .fragmentBatch slot fe core => slotOk slot && decide (fe < 16) && coreOk core
  | .rayTaskStart slot _ | .rayTaskComplete slot _ | .captureTask slot _ | .visionNodeStart slot _ => slotOk slot
  | .flowBandComplete slot _ _ => slotOk slot
  | .taskAdmit core | .steal core | .stealWaitExpiry core | .quantumBoundary core | .bwWindowEnd core
  | .coreSelfTest core => coreOk core
  | .stripeTaskComplete core _ | .vaultReply core _ _ | .mcopyComplete core _ | .coreDrainStart core _
  | .coreDrainEnd core _ | .coreRetireImmediate core _ => coreOk core
  | .sampleRecordWrite core _ _ => coreOk core
  | .bwCfgWrite core value => coreOk core && wordOk value
  | .detentComparator head | .headPeriodStart head | .sliceBegin head | .frameScanEnd head | .dpLinkLoss head => headOk head
  | .sliceWritten head _ _ | .activeLineScan head _ | .dpHotPlug head _ | .dpLinkTrainingEnd head _ => headOk head
  | .visionSliceBoundary engine => decide (engine < 8)
  | .ringConsumerWrite fn head value => fnOk fn && headOk head && wordOk value
  | .waitLimit t | .haspTimeout t | .builtInInstruction t _ => threadOk t
  | .remoteWaitLimit _ => true
  | .nop t _ | .endThread t _ | .br t _ | .add t _ | .sub t _ | .mul t _ | .div t _ | .andS t _ | .orS t _ | .xorS t _
  | .shl t _ | .shr t _ | .sra t _ | .minS t _ | .maxS t _ | .addi t _ | .movi t _ | .movh t _ | .cmp t _ | .cmpi t _
  | .sel t _ | .plog t _ | .rdtb t _ | .pcrd t _ | .vadd t _ | .vsub t _ | .vmul t _ | .vfma t _ | .vmin t _ | .vmax t _
  | .vdiv t _ | .vsqrt t _ | .vfn t _ | .vcvt t _ | .vcmp t _ | .vsel t _ | .vlog t _ | .vsh t _ | .vbcast t _ | .viota t _
  | .vsum t _ | .vrq t _ | .vbsc t _ | .vpack t _ | .vunpk t _ | .ldc t _ | .stc t _ | .ldcx t _ | .ldw t _ | .stw t _
  | .atom t _ | .mcopy t _ | .waitc t _ | .fenceScope t _ | .lset t _ | .lclr t _ | .lwait t _ | .ltest t _ | .hacq t _
  | .hrel t _ | .htry t _ | .pxlock t _ | .pxunlock t _ | .tzero t _ | .tmm t _ | .tmmb t _ | .trd t _ | .smp t _ => threadOk t
  | .kwSqDb fn slot value | .kwCqDb fn slot value | .kwCqArm fn slot value => fnOk fn && slotOk slot && wordOk value
  | .kwCqLost fn slot => fnOk fn && slotOk slot
  | .kwAdmSqDb fn value | .kwAdmCqDb fn value | .kwAdmArm fn value | .adminEnable fn value | .adminDisable fn value =>
    fnOk fn && wordOk value
  | .registerWrite fn bar offset width value =>
    fnOk fn && (bar == 0 || bar == 4) && (width == 4 || width == 8) && decide (offset % width = 0) && decide (value < 2 ^ (8 * width))
  | .bar2Read fn offset length => fnOk fn && decide (offset + length ≤ 2 ^ 28)
  | .bar2Write fn offset data => fnOk fn && decide (offset + data.length ≤ 2 ^ 28)
  | .commandFetch ring _ => ringOk ring
  | .wardConfig fn seq | .wardReset fn seq | .memoryGrant fn seq | .ctxCreate fn seq | .ctxDestroy fn seq
  | .imageLoad fn seq | .imageUnload fn seq | .headConfig fn seq | .tapConfig fn seq | .hingeConfig fn seq
  | .fwStage fn seq | .fwActivate fn seq => fnOk fn && seqOk seq
  | .headQuery fn seq _ edid dpcd => fnOk fn && seqOk seq && decide (edid.length ≤ 512) && decide (dpcd.length ≤ 512)
  | .flrVf fn | .d3hotEntry fn | .d0Return fn => fnOk fn
  | .bar0ImproperAccess fn _ => fnOk fn
  | .render port | .pose port | .slice port | .sliceCredit port | .remoteReq port | .remoteRep port | .inherit port
  | .holderGone port | .hello port | .linkDown port | .linkUp port | .neighbourLoss port => portOk port
  | .portTrained port _ lanes | .laneFail port lanes => portOk port && decide (lanes ≤ 255)
  | .retrainComplete port _ | .flit port _ => portOk port
  | .sampleTimerEnable value | .sampleExternalEnable value | .sbufEnable value => decide (value < 2 ^ 64)
  | .sbufConsumerWrite value | .opCtrlWrite value => wordOk value
  | .mgRefresh r => readingsOk r
  | .scrubPass _ _ latent => latent.all (fun l => decide (l.2 % 64 = 0))
  | .perfUserWrite slot _ => slotOk slot
  | .rowSpare channel | .channelSpareStart channel | .channelSpareComplete channel | .channelLost channel => channelOk channel
  | .vaultTrain failed => failed.all channelOk
  | .coreBringup failed => failed.all (fun c => decide (c < 2112))
  | .selfTestComplete phys _ => decide (phys < 2112)
  | .unlockResponse r s => decide (r < 2 ^ 384) && decide (s < 2 ^ 384)
  | .yakabryDebugAccess op => decide (0x80 ≤ op) && decide (op ≤ 0xFE)
  | .unitParityError unit served => unitOk unit && (served.map slotOk).getD true
  | .vfEnable count => decide (count ≤ 15)
  | .detectJobComplete unit => decide (unit < 4)
  | .hostDmaComplete (.command ring seq) _ => ringOk ring && seqOk seq
  | .hostDmaComplete .deviceWrite _ => true
  | .smbusArp addr => decide (addr < 128)
  | .setEndpointId eid => decide (eid < 256)
  | .fwSwitchComplete | .flrPf | .keeperHeartbeat | .gpioSyncEdge | .reroute | .counterFreeze _ | .counterClear
  | .sampleTimer | .sbufLostRead | .keeperWatchdog _ _ | .rngFail | .sensorReset _ | .bypass | .idcode
  | .samplePreload | .extest | .clamp | .highz | .unlockChallenge | .unlockHoldoffExpiry
  | .powerOnReset | .powerFail | .coldReset | .perstNRelease | .linkReset | .pllLock
  | .bootImageCheck _ | .configReady | .opEvaluation | .thermalPeakRead | .powerPeakRead | .thermNChange _
  | .pldmDiscovery _ | .getPdr _ | .getSensorReading _ | .getStateSensorReadings _
  | .deviceUncorrectable _ | .tapReset | .flashProgramComplete => true

end Sys2Proof
end

