-- ==== Sys2Proof/Tests/Slice0.lean ====
section
/-!
SUPPORT. Small states, one-step tests whose expected results come from the spec's words, and for every statement with hypotheses a
witness: concrete states and operands that meet them together.
-/
set_option maxRecDepth 4000
set_option Elab.async false
namespace Sys2Proof.Test
open Sys2Proof.Machine Sys2Proof.Say

/-! ## Builders of small states -/

/-- n zero bytes with the given fields (offset, width, value) put in. -/
def bytesWith (n : Nat) (l : List (Nat × Nat × Nat)) : Bytes := l.foldl (fun b e => patch b e.1 (natLe e.2.1 e.2.2)) (List.replicate n 0)
/-- Bytes as memory from an address on. -/
def memAt (a : Nat) (b : Bytes) : Mem := Mem.writeN [] a b
/-- The device up: configuration open, READY, firmware running. -/
def up : State := { State.reset with
  boot := { perst := false, pll := true, stage := 5, decoded := true }
  fw := { running := true, ready := true } }
/-- A context block: one unit of latches, all limits ten, and the fields listed. -/
def cfgOf (l : List (Nat × Nat × Nat)) : Bytes := bytesWith 256 ([(0x054, 2, 1), (0x05C, 4, 10), (0x060, 4, 10), (0x064, 4, 10)] ++ l)
/-- Ward 0 with one granule of general memory of context 0 at ward address 2^18. -/
def ward0 : Ward := { key := some 0, allocs := [{ base := 1, count := 1, kind := .general 0 }], cfg := { pendRecs := 1 } }
/-- A live context 0 of ward 0. -/
def withCtx (x : Ctx) (s : State) : State := { s with
  slots := [(0, { state := .live })], ctxs := [(0, x)], wards := s.wards.set 0 ward0 }
/-- A context with a ring at host address 0x10000 and completions at 0x20000. -/
def ctx0 : Ctx := { cfg := cfgOf [], cfgInForce := cfgOf [], ring := { live := true, sqBase := 0x10000, cqBase := 0x20000 }, hasps := [some 0, none], group := 0xF }
/-- A vector register of 32 lanes. -/
def lanes (f : Nat → Nat) : V1024 := BitVec.ofNat 1024 (((List.range 32).map (fun i => f i * 2 ^ (32 * i))).foldl (· + ·) 0)

/-! ## Kernels -/

/-- A texture descriptor: one channel of 16 bits, 4 × 4 texels at 2^18, 64 bytes a row. -/
def texBlock : Bytes := bytesWith 32 [(0, 2, 1), (8, 6, 2 ^ 18), (16, 4, 64), (22, 2, 4), (24, 2, 4)]
/-- A block-copy descriptor: one block at 2^18, its scale at 2^18 + 1024, to core store 512 and 768. -/
def copyBlock : Bytes := bytesWith 32 [(0, 6, 2 ^ 18), (6, 6, 2 ^ 18 + 1024), (12, 4, 512), (16, 4, 768), (20, 2, 1)]
/-- The task and a thread of the kernel witnesses: core store 64 holds bytes, 1024 a texture and 2048 a copy descriptor. -/
def task0 : Task := { started := true, size := 4096, store := Mem.writeN (Mem.writeN [(0, 17), (64, 200)] 1024 texBlock) 2048 copyBlock }
def thread0 : Thread := {
  s := [0, 64, 2 ^ 18, 5, 0xFFFFFFFFFFFFFFFF, 0x80000000, 0x10000, 256, 1024, 2048, 8192, 1]
  v := [1, 2 ^ 1023 + 7, 0x3F8000003F800000, lanes (fun i => 4 * i)]
  p := [0, 5] }
def k0 : State := { withCtx ctx0 up with
  tasks := [(0, task0)], cores := [(0, { threads := [(0, thread0), (1, { index := 1 })] })], hasps := [(0, { owner := some 0, count := 2 })] }
/-- k0 with another thread 0. -/
def kThread (th : Thread) : State := { k0 with cores := [(0, { threads := [(0, th), (1, { index := 1 })] })] }
/-- k0 with requests and copies outstanding on the core. -/
def kBusy : State := { k0 with cores := [(0, {
  threads := [(0, { thread0 with pendingDest := [.s 9, .v 9] }), (1, { index := 1 })]
  vreqs := [(0, { dest := .s 9, value := 77, addr := 2 ^ 18 }), (1, { dest := .v 9, value := 78, addr := 2 ^ 18 + 64 })]
  copies := [(0, { wardWrites := [(2 ^ 18, [1, 2])], storeWrites := [(100, [3])] })] })] }
/-- k0 with the hasp held out, and with its count at the maximum. -/
def kHasp (c : BitVec 16) : State := { k0 with hasps := [(0, { owner := some 0, count := c })] }
/-- Tiles 0 integer and 1 floating point. -/
def kTiles : State := kThread { thread0 with tiles := [(0, {}), (1, { fp := true, vals := List.replicate 256 0x3F800000 })] }
/-- A BLEND task of bin 0 of frame 0, whose thread holds a fragment. -/
def kBlend : State := { k0 with
  ctxs := [(0, { ctx0 with fr := { cur := some { config := cfgOf [(8, 2, 64), (10, 2, 64)] } } })]
  tasks := [(0, { task0 with kind := .blend 0 none, frame := some 0 })]
  cores := [(0, { threads := [(0, { thread0 with fragments := [(1, 5), (9, 5)] }), (1, { index := 1 })] })] }
/-- Local latch 3 and staging latch 2 are set; thread 1 waits for local latch 5. -/
def kLatch : State := { k0 with
  ctxs := [(0, { ctx0 with stagingBits := 4 })], tasks := [(0, { task0 with latches := 8 })]
  cores := [(0, { threads := [(0, thread0), (1, { index := 1, park := .latch false 5 })] })] }
/-- A hinge block: this device 1, device 2 behind port 0, hasps and latches of context 0 exported, and two of each imported. -/
def hinge0 : Bytes := bytesWith (64 + 8 + 64) [(2, 2, 1), (8, 1, 1), (0x0E, 2, 8), (0x10, 2, 1), (0x12, 2, 4),
  (64, 2, 2), (66, 2, 1),
  (72, 1, 0x01), (78, 2, 2), (80, 2, 2), (88, 1, 0x02), (94, 2, 65), (96, 2, 2),
  (104, 1, 0x11), (110, 2, 2), (112, 2, 2), (118, 2, 5), (120, 1, 0x12), (126, 2, 2), (128, 2, 2)]
/-- k0 on the hinge, port 0 UP. -/
def kHinge : State := { k0 with hinge := { cfg := some hinge0, ports := [{ state := 2, lanes := 255, neighbour := 2 }, {}, {}, {}] } }
/-- A wait of thread 0 begun at 0, long ago. -/
def kWait (p : Park) : State := { kThread { thread0 with park := p } with now := 601 }

/-! ## Commands of the Keyway -/

/-- A command entry: opcode, TAG 0x1234, addresses and arguments. -/
def entry (op a0 a1 : Nat) (args : List Nat) : Bytes :=
  fit 64 (natLe 4 op ++ natLe 4 0x1234 ++ natLe 8 a0 ++ natLe 8 a1 ++ args.flatMap (natLe 4))
/-- Command 0 of a ring. -/
def cmd0 (e : Bytes) : Cmd := { entry := e }
/-- A context with command 0 in flight. -/
def inFlight (e : Bytes) (x : Ctx) : Ctx := { x with ring := { x.ring with cmds := [cmd0 e], nextSeq := 1, fetchHead := 1, tail := 1 } }
/-- Command 0 of context 0, in flight, over a host memory. -/
def ctxCmd (e : Bytes) (m : Mem) (x : Ctx) : State := { withCtx (inFlight e x) up with hostMem := m }
/-- Command 0 of the PF's admin ring, in flight, over a host memory. -/
def admCmd (e : Bytes) (m : Mem) (s : State) : State := { s with
  hostMem := m
  fns := s.fns.set 0 { enabled := true, ring := {
    live := true, sqBase := 0x10000, cqBase := 0x20000, cmds := [{ entry := e }], nextSeq := 1, fetchHead := 1, tail := 1 } } }
/-- The device with an admin ring whose entry 0 is written and announced. -/
def admRing (e : Bytes) : State := { up with
  hostMem := memAt 0x10000 e
  fns := up.fns.set 0 { enabled := true, ring := { live := true, sqBase := 0x10000, cqBase := 0x20000, tail := 1 } } }
/-- The same for context 0. -/
def ctxRing (e : Bytes) : State := { withCtx { ctx0 with ring := { ctx0.ring with tail := 1 } } up with hostMem := memAt 0x10000 e }
/-- A context block that every check accepts. -/
def goodCfg (l : List (Nat × Nat × Nat)) : Bytes := bytesWith 256 ([
  (0x000, 1, 1), (0x003, 1, 8), (0x004, 2, 1), (0x007, 1, 0), (0x008, 2, 128), (0x00A, 2, 64), (0x00F, 1, 1), (0x010, 4, 10000), (0x014, 4, 65536),
  (0x020, 4, 0x3F800000), (0x024, 4, 0x3F800000), (0x038, 2, 1), (0x03A, 2, 2), (0x03C, 1, 1), (0x03E, 2, 16), (0x040, 2, 0xFFFF), (0x042, 2, 0xFFFF),
  (0x054, 2, 1), (0x058, 2, 2), (0x05A, 2, 1), (0x05C, 4, 1000), (0x060, 4, 1000), (0x064, 4, 1000),
  (0x071, 1, 1), (0x072, 1, 1), (0x073, 1, 1), (0x076, 2, 1), (0x080, 2, 1), (0x084, 4, 1), (0x088, 4, 0x38000000),
  (0x094, 4, 0x38000000), (0x0A0, 8, 2 ^ 18), (0x0A8, 8, 0x10000), (0x0B0, 8, 0x20000), (0x0B8, 1, 6), (0x0B9, 1, 6), (0x0C8, 4, 2)] ++ l)
/-- A ward's configuration with every kind of unit. -/
def wardCfg : WardCfg := {
  quantum := 1024, ingest := 4, staging := 4, latches := 8, hasps := 8, ctxLimit := 4, pendRecs := 1024, ways := 1, feMask := 1, rtuMask := 1
  flowMask := 1, chanMask := 0xF, coreMask := 0xFF, headMask := 2 ^ 1024 + 3, groups := [0xF] }
/-- The device up, with ward 0 so configured. -/
def upWard : State := { up with wards := up.wards.set 0 { cfg := wardCfg, key := some 0 } }
/-- The ward block of that configuration, for ward 0, with other fields. -/
def wardFields : List (Nat × Nat × Nat) := [
  (0, 1, 1), (4, 4, 1024), (8, 2, 4), (0xA, 2, 4), (0xC, 2, 8), (0xE, 2, 8), (0x10, 2, 4), (0x12, 2, 1024), (0x14, 2, 1), (0x16, 2, 1), (0x18, 4, 1),
  (0x1C, 1, 1), (0x1D, 1, 1), (0x20, 16, 0xF), (0x40, 256, 0xFF), (0x140, 192, 2 ^ 1024 + 3), (0x200, 256, 0xF)]
def wardBlock (l : List (Nat × Nat × Nat)) : Bytes := bytesWith 768 (wardFields ++ l) ++ List.replicate 16128 0

/-! ## Packets -/

/-- A context block of 8 × 4 pixels. -/
def tinyCfg (l : List (Nat × Nat × Nat)) : Bytes := cfgOf ([(0x004, 2, 1), (0x008, 2, 8), (0x00A, 2, 4), (0x00E, 1, 1), (0x00F, 1, 1), (0x010, 4, 10000), (0x014, 4, 65536)] ++ l)
/-- A context of 8 × 4 pixels. -/
def tinyCtx : Ctx := { ctx0 with cfg := tinyCfg [], cfgInForce := tinyCfg [] }
/-- A render packet of frame n for context 0: KIND, one surface of a type and format over w × h, data of k bytes. -/
def packet (n kind ty fmt w h k : Nat) : Bytes := fit (160 + k) (bytesWith 160 [(0, 4, 0x504B5A42), (4, 1, 1), (5, 1, kind), (6, 1, 1), (12, 4, n),
  (16, 4, 160 + k), (128, 1, ty), (129, 1, fmt), (132, 2, w), (134, 2, h), (140, 4, 160), (144, 4, k)] ++ List.replicate k 0x40)
/-- A pose packet of context 0 with its CRC. -/
def posePacket : Bytes := let b := bytesWith 124 [(0, 2, 0x4F50), (2, 1, 1), (3, 1, 1), (8, 4, 7), (24, 4, 0x3F800000)]; b ++ natLe 4 (crc32 b)
/-- The queues of ward 0 hold these packets. -/
def queued (q poses transit : List Packet) (x : Ctx) : State :=
  let s := withCtx x up
  { s with wards := s.wards.set 0 { ward0 with ingestQ := q, poseQ := poses, transit := transit } }
/-- Frame 0's colour packet. -/
def pk0 : Packet := { bytes := packet 0 1 1 1 8 4 128, arrival := 5 }
/-- A set that is decoding it. -/
def filling0 : BufferSet := { use := .filling, packet := pk0, accepted := [0], hasColour := true, kind := .a, arrival := 5 }

/-! ## Heads and frames -/

/-- A head block of 8 × 4 pixels, 1 ms a period, two slices of two lines, a ring at 0x80000 with its producer index at 0x90000. -/
def headBlk (l : List (Nat × Nat × Nat)) : Bytes := bytesWith 128 ([(0, 1, 1), (1, 1, 1), (8, 2, 8), (0xA, 2, 4), (0xC, 2, 8), (0xE, 2, 4), (0x10, 2, 2),
  (0x20, 8, 6553600000), (0x50, 8, 0x80000), (0x58, 8, 0x90000), (0x60, 4, 4096), (0x64, 2, 2)] ++ l)
/-- A bound head 0 whose reference instant is 20 ms. -/
def head0 : Head := { cfg := some (headBlk []), ctx := some 0, refInstant := 20 * 6553600000, nextStart := 19 * 6553600000, begun := true }
/-- A context bound to head 0. -/
def bound (x : Ctx) : Ctx := { x with head := some 0 }
/-- Context 0, live in ward 0 with every kind of unit and memory, bound to head 0, at an instant. -/
def onHead (x : Ctx) (h : Head) (now : Nat) : State := { upWard with
  slots := [(0, { state := .live })], ctxs := [(0, bound x)], heads := [(0, h)], now := now
  wards := upWard.wards.set 0 { (wardOf upWard 0) with allocs := [{ base := 1, count := 1, kind := .general 0 }, { base := 8, count := 4, kind := .buffers 0 }] } }
/-- A plane of 8 × 4 pixels. -/
def plane (ch v : Nat) : Img := { w := 8, h := 4, ch := ch, data := List.replicate (32 * ch) v }
/-- A full set of frame n of a kind. -/
def full (n : Nat) (k : Kind) : BufferSet := { use := .full, frame := n, kind := k, arrival := 5, acceptedAt := 5, hasColour := true, accepted := [0]
                                               packet := { bytes := packet n 1 1 1 8 4 128 }, colour := plane 4 0x3C00, depth := some (plane 1 0x3F000000), decoded := some 5 }
/-- A frame in progress of 8 × 4 pixels. -/
def frame0 : Frame := { config := tinyCfg [], tiles := [{}], deadline := 20 * 6553600000, cutoff := 100000000, head := 0, group := 0xF }
/-- A context with a frame in progress. -/
def inFrame (f : Frame) (x : Ctx) : Ctx := { x with fr := { x.fr with cur := some f, nextNumber := f.number + 1, lastStarted := some f.number } }

/-! ## Geometry passes -/

/-- A camera at the origin that maps view-space (x, y, 2) to (4 + 2x, 2 + 2y) pixels. -/
def camera0 : Camera := {
  view := [0x3F800000, 0, 0, 0, 0, 0x3F800000, 0, 0, 0, 0, 0x3F800000, 0]
  proj := [0x40800000, 0x40800000, 0x40800000, 0x40000000, 0x3F800000, 0x41800000] }
/-- One triangle at Z 2 that covers the lower left half of columns 2–5. -/
def mesh0 : Mesh := { verts := [(0xBF800000, 0xBF800000, 0x40000000), (0x3F800000, 0xBF800000, 0x40000000), (0xBF800000, 0x3F800000, 0x40000000)]
                      indices := [0, 1, 2], objects := [{ id := 7, first := 0, tris := 1, transform := camera0.view }] }
/-- A context block of one front end whose geometry pass draws every triangle. -/
def geoCfg (l : List (Nat × Nat × Nat)) : Bytes := tinyCfg ([(0x068, 4, 1000), (0x03A, 2, 4), (0x03C, 1, 1), (0x03E, 2, 16), (0x040, 2, 0xFFFF), (0x042, 2, 0xFFFF)] ++ l)
/-- A G frame on the base frame 0, whose packet brought the mesh. -/
def geoFrame (c : Bytes) (g : GeoState) : Frame := { frame0 with config := c, kind := .g, base := some 0, tiles := [{}], geo := g, camera := camera0 }
/-- Context 0 with that frame in progress. -/
def geoCtx (f : Frame) : Ctx := inFrame f { ctx0 with
  cfg := f.config, cfgInForce := f.config, pool := 1
  ing := { sets := [{ full 0 .a with mesh := some mesh0, camera := camera0 }, {}, {}, {}], accepted := [0]
           past := [{ frame := 0, colour := true, kind := .a, camera := camera0, objects := some mesh0.objects }] } }
/-- Context 0 in ward 0 in the middle of a frame. -/
def geo (f : Frame) : State := onHead (geoCtx f) head0 1000000
/-- A pass that runs, with setup group 0 to take. -/
def geoRun (bin : Bool) : GeoState := { phase := .running, binMode := bin, fes := [(0, { groups := [some 0] })] }
/-- A UI layer of 2 × 2 pixels. -/
def ui0 : UiLayer := { img := { w := 2, h := 2, ch := 4, data := List.replicate 16 0 } }
/-- The sub-triangle of the mesh. -/
def sub0 : SubTri := { obj := 7, sx := [512, 1536, 512], sy := [0, 0, 1024], d := [0x3F088889, 0x3F088889, 0x3F088889], z := [0x40000000, 0x40000000, 0x40000000], mx := [0, 0, 0], my := [0, 0, 0] }
/-- A hierarchy of one triangle, its root a leaf. -/
def hier0 : Bytes := bytesWith 112 [(0, 4, 0x56484B42), (4, 1, 1), (12, 4, 112), (20, 4, 1), (24, 4, 64), (28, 4, 64), (36, 4, 0x80000000),
  (64, 4, 0xC1200000), (68, 4, 0xC1200000), (72, 4, 0x40400000), (76, 4, 0x41A00000), (80, 4, 0xC1200000), (84, 4, 0x40400000),
  (88, 4, 0xC1200000), (92, 4, 0x41A00000), (96, 4, 0x40400000)]

/-! ## A model image -/

/-- Section data, filled to a length. -/
def sec (n : Nat) (l : List Bytes) : Bytes := fit n (l.flatMap id)
/-- Words of a width. -/
def words (w : Nat) (l : List Nat) : Bytes := l.flatMap (natLe w)
/-- A layer: opcode, flags, two inputs, output and stripe rows; a CONVERT uses no epilogue entry. -/
def layerRec (op fl a b out stripe : Nat) : Bytes :=
  fit 128 (words 4 [op + 65536 * fl, a, b, noIndex, out, if op = 12 then noIndex else 0] ++ words 2 [stripe, 0] ++ natLe 4 0)
/-- A tensor of FP16, 4 × 4 × 4: source, flags, height, bytes of constant data. -/
def tensorRec (src fl h data : Nat) : Bytes :=
  fit 64 (natLe 4 (8 + 256 * src + 65536 * fl) ++ natLe 4 0 ++ words 2 [4, h, 4, 0] ++ words 4 [noIndex, 0, 0, data])
/-- The base colour of FP16 over a tile of 64 × 64, without a margin. -/
def baseRec : Bytes := fit 64 (natLe 4 (8 + 256) ++ natLe 4 0 ++ words 2 [64, 64, 4, 0] ++ words 4 [noIndex, 0, 0, 0])
/-- The rung-3 costs in every row; ten networks of one layer, the last auxiliary; a product with an adapter, and copies. -/
def imageBody : Bytes :=
  sec 64 [words 4 [4096, 4096, 4096, 4096, 8192, 8192, 8192, 8192, 6144, 6144, 6144, 6144]] ++
  sec 192 ((List.range 10).map (fun k => words 4 (if k = 9 then [4, 9, 1, 0] else [k / 3 + 256 * (k % 3), k, 1, 4096]))) ++
  sec 1280 (layerRec 2 4 0 1 2 0 :: (List.range 8).map (fun k => layerRec 12 0 0 noIndex (k + 3) 0) ++ [layerRec 12 0 11 noIndex 12 4]) ++
  sec 832 (tensorRec 1 0 4 0 :: tensorRec 0 8 1 32 :: (List.range 9).map (fun _ => tensorRec 0x30 0 4 0) ++ [tensorRec 0x40 0 4 0, tensorRec 0x41 0 4 0]) ++
  sec 64 [words 4 [0, 0, 0, 0, 0, 0x3F800000]] ++
  sec 128 [] ++
  sec 64 [words 4 [1, 32, 0, 0, 0, 4, 0, 4, 4, 0, 0x3F800000, 64]] ++
  sec 1152 [words 4 [1, 0, 0, 0], words 4 [1, 0x0801, 0, 0, 0, 64, 8, 0], List.replicate 16 0, words 4 [0, 0x01000000]]
/-- Directory entries: type, offset, length, count. -/
def imageDir : Bytes := words 4 [1, 320, 48, 1, 2, 384, 160, 10, 3, 576, 1280, 10, 4, 1856, 832, 13, 5, 2688, 0, 0, 6, 2688, 32, 1, 7, 2752, 128, 0,
  10, 2880, 48, 0, 9, 2944, 72, 0]
/-- The image with a digest. -/
def imageWith (digest : Bytes) : Bytes :=
  words 4 [0x494D5754, 0x0901, 4096, 0] ++ fit 32 digest ++ fit 80 (words 4 [0, 0, 0x00100000]) ++ fit 192 imageDir ++ imageBody
/-- The image, with its digest as computed from the bytes by SHA-256. -/
def image0 : Bytes := imageWith (natLe 32 54117781197683403515606835278918007443219431656634887958927027287925633141452)
/-- A small image, which IMAGE_LOAD would refuse for its length: the product with an adapter, an auxiliary copy, and the kernel. -/
def smallImage : Bytes :=
  words 4 [0x494D5754, 0x0901, 1408, 0] ++ fit 32 [] ++ fit 80 (words 4 [0, 0, 0x00100000]) ++
  fit 192 (words 4 [1, 320, 48, 1, 2, 384, 32, 2, 3, 448, 256, 2, 4, 704, 320, 5, 5, 1024, 0, 0, 6, 1024, 32, 1, 7, 1088, 128, 0, 10, 1216, 48, 0,
    9, 1280, 72, 0]) ++
  sec 64 [words 4 [4096, 4096, 4096, 4096, 8192, 8192, 8192, 8192, 6144, 6144, 6144, 6144]] ++
  sec 64 [words 4 [0, 0, 1, 4096, 4, 1, 1, 0]] ++
  sec 256 [layerRec 2 4 0 1 2 0, layerRec 12 0 3 noIndex 4 4] ++
  sec 320 [baseRec, tensorRec 0 8 1 32, tensorRec 0x30 0 4 0, tensorRec 0x40 0 4 0, tensorRec 0x41 0 4 0] ++
  sec 64 [words 4 [0, 0, 0, 0, 0, 0x3F800000]] ++
  sec 128 [] ++
  sec 64 [words 4 [1, 32, 0, 0, 0, 4, 0, 4, 4, 0, 0x3F800000, 64]] ++
  sec 128 [words 4 [1, 0, 0, 0], words 4 [1, 0x0801, 0, 0, 0, 64, 8, 0], List.replicate 16 0, words 4 [0, 0x01000000]]
/-- A state whose ward 0 holds that image under handle 1. -/
def imageRec : Image := { base := 2 ^ 22, bytes := smallImage }
def withImage (s : State) : State :=
  let w := wardOf s 0
  { s with wards := s.wards.set 0 { w with images := [(1, imageRec)]
                                           allocs := w.allocs ++ [{ base := 16, count := 1, kind := .image 1, ro := true, content := smallImage }] } }

/-! ## Frame graphs -/

/-- A node: opcode, inputs, output, TEXTURE, OCCLUSION, network. -/
def nodeRec (op a b out tex occ net : Nat) : Bytes := fit 32 (words 1 [op, a, b, out, 0, 0, 0, 0] ++ words 2 [tex, occ, 0, 0] ++ natLe 4 net)
/-- A buffer: binding, content, side, format, channels and host address. -/
def bufRec (binding content side fmt ch addr : Nat) : Bytes :=
  fit 32 (words 1 [binding, content, 0, 0] ++ words 2 [side, side] ++ words 1 [fmt, 0] ++ words 2 [ch, 0, 0] ++ natLe 8 addr)
/-- A graph of nodes and buffers. -/
def graphOf (ns bs : List Bytes) : Bytes :=
  fit 64 (natLe 4 0x48524647 ++ natLe 1 1 ++ natLe 4 (64 + 32 * (ns.length + bs.length)) ++ words 1 [ns.length, bs.length]) ++ ns.flatMap id ++ bs.flatMap id
/-- Flow of 16 × 16 pixels into MOTION_OUT. -/
def flowGraph : Bytes := graphOf [nodeRec 1 0 1 2 1 1 0] [bufRec 1 1 16 0 0 0, bufRec 2 1 16 0 0 0, bufRec 0x10 2 16 0 0 0]
/-- The image's auxiliary network on the colour of 4 × 4 pixels, to the host. -/
def auxGraph : Bytes := graphOf [nodeRec 3 0 0xFF 1 0 0 1] [bufRec 1 1 4 0 0 0, bufRec 0x11 4 4 8 4 0x50000]
/-- A context block of n × n pixels. -/
def squareCfg (n : Nat) (l : List (Nat × Nat × Nat)) : Bytes := tinyCfg ([(0x008, 2, n), (0x00A, 2, n), (0x040, 2, 0xFFFF), (0x042, 2, 0xFFFF)] ++ l)
/-- A context with a run of a graph. -/
def graphCtx (n : Nat) (g : GraphRun) : Ctx := { ctx0 with
  cfg := squareCfg n [], cfgInForce := squareCfg n [], image := some 1, graphRuns := [g]
  ing := { sets := [{ full 0 .u with flowNeeded := true }, {}, {}, {}], accepted := [0] } }
/-- A plane of n × n pixels. -/
def square (n ch v : Nat) : Img := { w := n, h := n, ch := ch, data := List.replicate (n * n * ch) v }
/-- The run of a graph over n × n pixels. -/
def run0 (g : Bytes) (n : Nat) : GraphRun := { graph := g, cur := square n 4 0x3C00, prev := some (square n 4 0x3800) }

/-! ## Head blocks that every check accepts -/

/-- A virtual head of 64 × 64 pixels, 100 ms a period, slices of two lines. -/
def virtualBlk (l : List (Nat × Nat × Nat)) : Bytes := bytesWith 128 ([(0, 1, 1), (1, 1, 1), (8, 2, 64), (0xA, 2, 64), (0xC, 2, 72), (0xE, 2, 8), (0x10, 2, 2),
  (0x20, 8, 6553600000), (0x50, 8, 0x80000), (0x58, 8, 0x90000), (0x60, 4, 4096), (0x64, 2, 2)] ++ l)
/-- Physical head 1024 of 64 × 64 pixels on one lane. -/
def physicalBlk (l : List (Nat × Nat × Nat)) : Bytes := bytesWith 128 ([(0, 1, 1), (1, 1, 0x11), (4, 2, 1024), (8, 2, 64), (0xA, 2, 64), (0xE, 2, 8),
  (0x14, 2, 8), (0x16, 2, 8), (0x18, 2, 8), (0x1A, 2, 8), (0x1C, 2, 8), (0x1E, 2, 8), (0x40, 4, 4194304), (0x44, 1, 1), (0x45, 1, 1)] ++ l)
/-- The heads 0 and 1024 in a state. -/
def withHead (i : Nat) (h : Head) (s : State) : State := { s with heads := [(i, h)] }
/-- A ready frame of 8 × 4 pixels. -/
def ready0 : Ready := { frame := frame0, readyAt := 100, img := plane 4 0x3C00, rungs := [3] }

/-! ## Hinge messages -/

/-- A message from device 2, with one hop used of the limit, OP_DATA and payload. -/
def msg (ty cls dest tag op : Nat) (p : Bytes) : HMsg := { hdr := mkHdr ty cls 0 dest 2 3 tag p.length op, payload := p }
/-- k0 on the hinge with a message received whole at port 0. -/
def onHinge (m : HMsg) : State := { kHinge with hinge := { kHinge.hinge with ports := [{ state := 2, lanes := 255, neighbour := 2, rx := [m] }, {}, {}, {}] } }
/-- A request of device 2's context 5 in ward 0, on target 0 of context 0. -/
def request (op target : Nat) : HMsg := msg 0x10 0 1 (reqTag 9 5 0) (reqOp op false 0 0 target 0) []


/-! ## Kernel instructions -/

/-- Thread 0 of core 0. -/
def t0 : ThreadRef := { core := 0, slot := 0 }
/-- An instruction word's fields. -/
def ops (m d a b c : Nat) (imm : Nat := 0) (pred : Nat := 0) (pneg : Bool := false) : KFields := {
  pneg := pneg, pred := BitVec.ofNat 3 pred, mod := BitVec.ofNat 4 m, dst := BitVec.ofNat 6 d, a := BitVec.ofNat 6 a
  b := BitVec.ofNat 6 b, c := BitVec.ofNat 6 c, imm := BitVec.ofNat 24 imm }
/-- What a command answers of a state, if it gives a next one. -/
def got {α : Type} (c : Instr) (s : State) (f : State → α) : Option α :=
  match exec c s with
  | .next n => some (f n)
  | _ => none
/-- Scalar register, predicate register, lane and pc of thread 0 after a command on k0. -/
def sGot (c : Instr) (i : Nat) : Option (Option U64) := got c k0 (fun n => (threadOf n t0).map (fun th => scalarIn th.s i))
def pGot (c : Instr) (i : Nat) : Option (Option U64) := got c k0 (fun n => (threadOf n t0).map (fun th => predIn th.p i))
def vGot (c : Instr) (i w j : Nat) : Option (Option Nat) := got c k0 (fun n => (threadOf n t0).map (fun th => laneAt w (th.v.getD i 0) j))

/-- The words a scalar instruction reads: every MOD that its table row has, a destination and the register that discards. -/
def scalarWords : List (Nat × KFields) :=
  [0x10, 0x11, 0x13, 0x17, 0x18, 0x19, 0x1A, 0x1B].flatMap (fun op => [(op, ops 0 0 4 5 0), (op, ops 1 7 5 4 0)]) ++
  [(0x13, ops 2 7 3 0 0), (0x13, ops 3 7 3 4 0)] ++
  [0x12, 0x14, 0x15, 0x16].flatMap (fun op => [(op, ops 0 0 4 5 0), (op, ops 0 7 5 4 0)]) ++
  [(0x1C, ops 0 7 4 0 0 0x800000), (0x1D, ops 0 7 0 63 63 0xFFFFFE), (0x1D, ops 0 0 0 0 0 1), (0x1E, ops 0 3 0 0 0 7),
   (0x21, ops 0 7 4 5 1), (0x23, ops 0 7 0 0 0), (0x24, ops 0 7 0 0 0 7)]
theorem witness_ScalarResults : ∀ q ∈ scalarWords, MayIssue q.1 t0 q.2 k0 thread0 task0 ∧ guardBit thread0 q.2 0 = true :=
  fun q h => ⟨⟨by decide +kernel, by decide +kernel, ((by decide +kernel : ∀ q ∈ scalarWords, okIssue q.1 t0 q.2 k0 = true) q h)⟩,
    (by decide +kernel : ∀ q ∈ scalarWords, guardBit thread0 q.2 0 = true) q h⟩

/-- CMP and CMPI under every condition, PLOG under every operation, and p0, which discards. -/
def predicateWords : List (Nat × KFields) :=
  (List.range 6).flatMap (fun m => [(0x1F, ops m 1 4 3 0), (0x20, ops m 2 3 0 0 5)]) ++ (List.range 4).map (fun m => (0x22, ops m 3 1 0 0)) ++
  [(0x1F, ops 0 0 1 1 0), (0x22, ops 0 0 1 1 0)]
theorem witness_PredicateResults : ∀ q ∈ predicateWords, MayIssue q.1 t0 q.2 k0 thread0 task0 ∧ guardBit thread0 q.2 0 = true :=
  fun q h => ⟨⟨by decide +kernel, by decide +kernel, ((by decide +kernel : ∀ q ∈ predicateWords, okIssue q.1 t0 q.2 k0 = true) q h)⟩,
    (by decide +kernel : ∀ q ∈ predicateWords, guardBit thread0 q.2 0 = true) q h⟩

/-- NOP, BR under each of its conditions, and every lane-wise instruction, with each MOD of its row. -/
def laneWords : List (Nat × KFields) :=
  [(0x00, ops 0 0 0 0 0), (0x02, ops 0 0 0 0 0 5), (0x02, ops 1 0 0 0 0 5 1), (0x02, ops 2 0 0 0 0 0xFFFFFF)] ++
  [0x40, 0x41, 0x42].flatMap (fun op => (List.range 4).map (fun m => (op, ops m 1 2 2 0))) ++
  [0x44, 0x45].flatMap (fun op => (List.range 3).map (fun m => (op, ops m 1 2 2 0))) ++
  [(0x43, ops 0 1 2 2 2 0 1), (0x43, ops 1 1 2 2 2), (0x46, ops 0 1 2 2 0 0 1), (0x46, ops 1 1 2 2 0)] ++
  [0x47, 0x48].flatMap (fun op => [(op, ops 0 1 2 0 0 0 1), (op, ops 1 1 2 0 0)]) ++
  [(0x49, ops 0 1 2 0 0 0x0A09), (0x4A, ops 0 1 2 2 0), (0x4A, ops 7 1 2 2 0), (0x4B, ops 0 1 2 3 1), (0x4C, ops 0 1 2 3 0 2), (0x4D, ops 0 1 2 3 0 2),
   (0x4E, ops 0 1 4 0 0), (0x4F, ops 0 1 0 0 0), (0x50, ops 0 3 2 0 0), (0x50, ops 2 3 2 0 0), (0x51, ops 0 1 2 3 3), (0x52, ops 0 3 2 0 0 3),
   (0x53, ops 0 1 0 0 0), (0x53, ops 2 1 0 0 0 0 1), (0x54, ops 0 0 1 0 0), (0x54, ops 5 0 1 0 0)]
theorem witness_NopAndBranch_VectorLanes_PackAndUnpack_VectorComparesAndReductions :
    ∀ q ∈ laneWords, MayIssue q.1 t0 q.2 k0 thread0 task0 :=
  fun q h => ⟨by decide +kernel, by decide +kernel, ((by decide +kernel : ∀ q ∈ laneWords, okIssue q.1 t0 q.2 k0 = true) q h)⟩

/-- Every guarded instruction under a guard that is off: PRED 0 complemented. -/
theorem witness_GuardOffHasNoEffect : ∀ q ∈ scalarGuarded, let f := ops 0 0 0 0 0 (if q.1 = 0xC1 then 0x110000 else 0) 0 true
    MayIssue q.1 t0 f k0 thread0 task0 ∧ guardBit thread0 f 0 = false := by
  intro q h
  have ok : ∀ q ∈ scalarGuarded, okIssue q.1 t0 (ops 0 0 0 0 0 (if q.1 = 0xC1 then 0x110000 else 0) 0 true) k0 = true := by decide +kernel
  have off : ∀ q ∈ scalarGuarded, guardBit thread0 (ops 0 0 0 0 0 (if q.1 = 0xC1 then 0x110000 else 0) 0 true) 0 = false := by decide +kernel
  exact ⟨⟨by decide +kernel, by decide +kernel, ok q h⟩, off q h⟩

/-! The scalar results of 05 Table 5-4; s1 = 64, s3 = 5, s4 = −1, s5 = 2^31, s7 = 256. -/
theorem test_add : sGot (.add t0 (ops 1 7 5 5 0)) 7 = some (some 0) ∧ sGot (.add t0 (ops 0 7 4 3 0)) 7 = some (some 4) := by decide +kernel
theorem test_sub : sGot (.sub t0 (ops 0 7 3 1 0)) 7 = some (some (BitVec.ofInt 64 (-59))) := by decide +kernel
theorem test_mul : sGot (.mul t0 (ops 0 7 4 3 0)) 7 = some (some (BitVec.ofInt 64 (-5))) := by decide +kernel
theorem test_div_by_zero : sGot (.div t0 (ops 0 7 3 0 0)) 7 = some (some (BitVec.allOnes 64)) ∧
    sGot (.div t0 (ops 2 7 3 0 0)) 7 = some (some 5) := by decide +kernel
theorem test_div_signed : sGot (.div t0 (ops 1 7 5 4 0)) 7 = some (some 0xFFFFFFFF80000000) := by decide +kernel
theorem test_logic : sGot (.andS t0 (ops 0 7 4 1 0)) 7 = some (some 64) ∧ sGot (.orS t0 (ops 0 7 1 3 0)) 7 = some (some 69) ∧
    sGot (.xorS t0 (ops 0 7 3 11 0)) 7 = some (some 4) := by decide +kernel
theorem test_shifts : sGot (.shl t0 (ops 0 7 11 3 0)) 7 = some (some 32) ∧ sGot (.shr t0 (ops 0 7 4 3 0)) 7 = some (some 0x07FFFFFFFFFFFFFF) ∧
    sGot (.sra t0 (ops 1 7 5 3 0)) 7 = some (some 0xFFFFFFFFFC000000) := by decide +kernel
theorem test_min_max : sGot (.minS t0 (ops 0 7 4 3 0)) 7 = some (some 5) ∧ sGot (.maxS t0 (ops 1 7 4 3 0)) 7 = some (some 5) := by decide +kernel
theorem test_immediates : sGot (.addi t0 (ops 0 7 3 0 0 0xFFFFFF)) 7 = some (some 4) ∧
    sGot (.movi t0 (ops 0 7 0 63 63 0xFFFFFE)) 7 = some (some (BitVec.ofInt 64 (-2))) ∧
    sGot (.movh t0 (ops 0 3 0 0 0 7)) 3 = some (some 0x700000005) := by decide +kernel
theorem test_s0_discards : sGot (.addi t0 (ops 0 0 3 0 0 9)) 0 = some (some 0) := by decide +kernel
theorem test_cmp : pGot (.cmp t0 (ops 2 2 4 3 0)) 2 = some (some (BitVec.allOnes 64)) ∧ pGot (.cmp t0 (ops 4 2 4 3 0)) 2 = some (some 0) ∧
    pGot (.cmpi t0 (ops 0 2 3 0 0 5)) 2 = some (some (BitVec.allOnes 64)) := by decide +kernel
theorem test_plog : pGot (.plog t0 (ops 3 2 0 1 0)) 2 = some (some 0xFFFFFFFFFFFFFFFA) := by decide +kernel
theorem test_br : got (.br t0 (ops 0 0 0 0 0 5)) k0 (fun n => (threadOf n t0).map (·.pc)) = some (some 40) := by decide +kernel

/-! Lanes; v2 holds 1.0 in lanes 0 and 1. -/
theorem test_vadd : vGot (.vadd t0 (ops 0 1 2 2 0)) 1 32 1 = some (some 0x40000000) ∧ vGot (.vadd t0 (ops 3 1 2 2 0)) 1 32 0 = some (some 0x7F000000) := by
  decide +kernel
theorem test_vadd_saturates : vGot (.vadd t0 (ops 3 2 1 1 0)) 2 32 31 = some (some 0x80000000) := by decide +kernel
theorem test_vmul_vfma : vGot (.vmul t0 (ops 0 1 2 2 0)) 1 32 0 = some (some 0x3F800000) ∧ vGot (.vfma t0 (ops 0 1 2 2 2)) 1 32 0 = some (some 0x40000000) := by
  decide +kernel
theorem test_vdiv_vsqrt : vGot (.vdiv t0 (ops 0 1 2 2 0)) 1 32 0 = some (some 0x3F800000) ∧ vGot (.vsqrt t0 (ops 0 1 2 0 0)) 1 32 1 = some (some 0x3F800000) := by
  decide +kernel
theorem test_lane_guard : vGot (.viota t0 (ops 0 0 0 0 0 0 1)) 0 32 1 = some (some 0) ∧ vGot (.viota t0 (ops 0 0 0 0 0 0 1)) 0 32 2 = some (some 2) := by
  decide +kernel
theorem test_vsum : sGot (.vsum t0 (ops 0 7 2 0 0)) 7 = some (some 0x40000000) := by decide +kernel
theorem test_vpack : vGot (.vpack t0 (ops 0 0 3 0 0)) 0 8 3 = some (some 12) := by decide +kernel


/-! ## Memory, copies, waits -/

theorem all_may {l : List (Nat × KFields)} {s : State} {th : Thread} {k : Task} (a : threadOf s t0 = some th) (b : tget s.tasks th.task = some k)
    (c : ∀ q ∈ l, okIssue q.1 t0 q.2 s = true) : ∀ q ∈ l, MayIssue q.1 t0 q.2 s th k := fun q h => ⟨a, b, c q h⟩

/-- LDC and STC of every MOD at the start of the store, of one byte at its end, and of a whole register. -/
def storeWords : List (Nat × KFields) :=
  (List.range 8).map (fun m => (0x80, ops m 2 1 0 0)) ++ (List.range 5).map (fun m => (0x81, ops m 0 1 3 0)) ++
  [(0x80, ops 1 0 1 0 0 4031), (0x80, ops 0 2 1 0 0 3904), (0x81, ops 1 0 1 4 0 4031), (0x81, ops 0 0 1 2 0 3904)]
theorem witness_CoreStore : (∀ q ∈ storeWords, MayIssue q.1 t0 q.2 k0 thread0 task0) ∧
    (∀ q ∈ storeWords, guardBit thread0 q.2 0 = true ∧ storeOk (withStore k0 task0) (address thread0 q.2) q.2.mod.toNat) ∧
    MayIssue 0x82 t0 (ops 0 2 1 3 0) k0 thread0 task0 ∧
    (∀ i, i < 32 → (sA thread0 (ops 0 2 1 3 0) + BitVec.ofNat 64 (laneAt 32 (thread0.v.getD 3 0) i)).toNat + 4 ≤ (withStore k0 task0).size ∧
      (sA thread0 (ops 0 2 1 3 0) + BitVec.ofNat 64 (laneAt 32 (thread0.v.getD 3 0) i)).toNat % 4 = 0) ∧
    tget k0.tasks thread0.task = some task0 ∧ Mem.wf task0.store = true := by
  refine ⟨all_may (by decide +kernel) (by decide +kernel) (by decide +kernel), ?_, ⟨?_, ?_, ?_⟩, ?_, ?_, ?_⟩ <;> (try unfold storeOk) <;> decide +kernel

/-- Task 0 is a BLEND of a merged bin, whose working planes task 1 holds; a store beyond the task's own bytes and within them. -/
def blendTask : Task := { task0 with kind := .blend 0 (some 1) }
def binTask : Task := { kind := .bin 0, size := 12288, started := true }
def kMerged (s : State) : State := { s with tasks := [(0, blendTask), (1, binTask)] }
def beyond : KFields := ops 3 0 1 3 0 4032
theorem witness_CoreStore_planes : MayIssue 0x81 t0 beyond (kMerged k0) thread0 blendTask ∧ guardBit thread0 beyond 0 = true ∧
    storeOk (withStore (kMerged k0) blendTask) (address thread0 beyond) beyond.mod.toNat ∧ blendTask.size ≤ address thread0 beyond ∧
    tget (kMerged k0).tasks 1 = some binTask ∧ Mem.wf binTask.store = true := by
  refine ⟨⟨?_, ?_, ?_⟩, ?_, ?_, ?_, ?_, ?_⟩ <;> (try unfold storeOk) <;> decide +kernel
/-- A copy into those planes, and one spoiled by a poisoned line. -/
def planesCopy : Copy := { storeWrites := [(5000, [3])] }
def spoiledCopy : Copy := { spoiled := some 9 }
def copyingS (c : Copy) : State := kMerged { k0 with cores := [(0, { threads := [(0, thread0), (1, { index := 1 })], copies := [(0, c)] })] }
theorem witness_Copies_planes : tget (coreOf (copyingS planesCopy) 0).copies 0 = some planesCopy ∧ namedCtx (copyingS planesCopy) 0 0 = some ctx0 ∧
    threadOf (copyingS planesCopy) t0 = some thread0 ∧ tget (copyingS planesCopy).tasks thread0.task = some blendTask ∧ thread0.park = .running ∧
    (∀ w ∈ planesCopy.storeWrites, blendTask.size ≤ w.1) ∧ tget (copyingS planesCopy).tasks 1 = some binTask ∧ 0 < (copyingS planesCopy).wards.length := by
  decide +kernel
theorem witness_Copies_spoiled : tget (coreOf (copyingS spoiledCopy) 0).copies 0 = some spoiledCopy ∧
    (slotOf (copyingS spoiledCopy) 0).state = .live ∧ (ctxOf (copyingS spoiledCopy) 0).isSome = true := by decide +kernel

/-- LDW, STW and ATOM in context 0's granule: every MOD at its start and 4 bytes at its end. -/
def wardWords : List (Nat × KFields) :=
  [(0x83, ops 3 2 2 0 0 262140), (0x84, ops 3 0 2 3 0 262140)] ++ (List.range 8).map (fun m => (0x83, ops m 2 2 0 0)) ++
    (List.range 5).map (fun m => (0x84, ops m 0 2 3 0)) ++ [(0x83, ops 3 0 2 0 0)]
def atomWords : List (Nat × KFields) := (List.range 8).map (fun m => (0x85, ops m 2 2 3 (if m = 7 then 1 else 0))) ++ [(0x85, ops 0 0 2 3 0)]
theorem witness_WardLoads_WardStores : (∀ q ∈ wardWords, MayIssue q.1 t0 q.2 k0 thread0 task0) ∧
    (∀ q ∈ wardWords, guardBit thread0 q.2 0 = true ∧
      ctxMapped (wardOf k0 (taskWard k0 task0)) task0.slot (address thread0 q.2) (ldSize q.2.mod.toNat) (q.1 == 0x84) = true ∧
      address thread0 q.2 % ldAlign q.2.mod.toNat = 0) ∧ Mem.wf (wardOf k0 (taskWard k0 task0)).mem = true := by
  refine ⟨all_may (by decide +kernel) (by decide +kernel) (by decide +kernel), ?_, ?_⟩ <;> decide +kernel
theorem witness_Atomics : (∀ q ∈ atomWords, MayIssue q.1 t0 q.2 k0 thread0 task0) ∧
    (∀ q ∈ atomWords, guardBit thread0 q.2 0 = true ∧ ctxMapped (wardOf k0 (taskWard k0 task0)) task0.slot (sA thread0 q.2).toNat 4 true = true ∧
      (sA thread0 q.2).toNat % 4 = 0) := by
  refine ⟨all_may (by decide +kernel) (by decide +kernel) (by decide +kernel), ?_⟩; decide +kernel
/-- The thread of kBusy, which waits for s9 and v9. -/
def busyThread : Thread := { thread0 with pendingDest := [.s 9, .v 9] }
theorem witness_WardLoads_replies : ∀ q ∈ [0, 1], ∃ r, tget (coreOf kBusy 0).vreqs q = some r ∧ namedCtx kBusy r.slot r.gen = some ctx0 ∧
    poisonIn (wardOf kBusy ctx0.ward) r.addr 1 = none ∧ threadOf kBusy { core := 0, slot := r.thread } = some busyThread ∧
    busyThread.park = .running := by
  intro q h
  rcases List.mem_pair.mp h with rfl | rfl
  · exact ⟨{ dest := .s 9, value := 77, addr := 2 ^ 18 }, by decide +kernel⟩
  · exact ⟨{ dest := .v 9, value := 78, addr := 2 ^ 18 + 64 }, by decide +kernel⟩

/-- MCOPY of every MOD: 256 bytes either way, and one block by the descriptor at 2048. -/
def copyWords : List (Nat × KFields) :=
  [(0x86, ops 0 0 2 1 7), (0x86, ops 1 0 1 2 7), (0x86, ops 2 0 9 0 0), (0x86, ops 3 0 9 0 0), (0x86, ops 4 0 9 0 0), (0x86, ops 5 0 9 0 0)]
theorem witness_Copies : (∀ q ∈ copyWords, MayIssue q.1 t0 q.2 k0 thread0 task0) ∧ (∀ q ∈ copyWords, guardBit thread0 q.2 0 = true) ∧
    (64 + 256 ≤ (withStore k0 task0).size ∧ (∀ b, ctxMapped (wardOf k0 (taskWard k0 task0)) 0 (2 ^ 18) 256 b = true)) ∧
    (let d := copyDesc (storeRead (withStore k0 task0) 2048 32)
     d.ok = true ∧ ∀ bs4, blockCopyBad k0 (withStore k0 task0) bs4 false d = none ∧ blockCopyBad k0 (withStore k0 task0) bs4 true d = none ∧
       skewOf (wardOf k0 (taskWard k0 task0)) bs4 d = none) := by
  refine ⟨all_may (by decide +kernel) (by decide +kernel) (by decide +kernel), ?_, ?_, ?_⟩ <;> decide +kernel
theorem witness_Copies_completion :
    tget (coreOf kBusy 0).copies 0 = some { wardWrites := [(2 ^ 18, [1, 2])], storeWrites := [(100, [3])] } ∧ namedCtx kBusy 0 0 = some ctx0 ∧
    threadOf kBusy t0 = some busyThread ∧ busyThread.park = .running ∧ 0 < kBusy.wards.length ∧ tget kBusy.tasks busyThread.task = some task0 := by
  decide +kernel

/-- WAITC for no copy and for one, FENCE of no scope, vault requests, copies and TX, and END. -/
def waitWords : List (Nat × KFields) := [(0x87, ops 0 0 0 0 0), (0x87, ops 0 0 0 0 0 1), (0x88, ops 0 0 0 0 0 0), (0x88, ops 0 0 0 0 0 0x12), (0x88, ops 0 0 0 0 0 8),
  (0x01, ops 0 0 0 0 0)]
theorem witness_WaitsFencesAndEnds :
    (∀ q ∈ waitWords, MayIssue q.1 t0 q.2 k0 thread0 task0) ∧ (∀ q ∈ waitWords, MayIssue q.1 t0 q.2 kBusy busyThread task0) ∧
    (∀ q ∈ waitWords, guardBit thread0 q.2 0 = true) ∧ builtInDone k0 0 task0 = true ∧ builtInDone kBusy 0 task0 = true ∧ task0.core = 0 ∧
    (∃ u, tget (coreOf k0 0).threads 1 = some u ∧ u.task = 0 ∧ u.park ≠ .ended) ∧ (∃ u, tget (coreOf kBusy 0).threads 1 = some u ∧ u.task = 0 ∧ u.park ≠ .ended) ∧
    requestsLeft k0 t0 = 0 ∧ copiesOf k0 t0 = 0 ∧ recordOf k0 t0 = none ∧ requestsLeft kBusy t0 = 2 ∧ copiesOf kBusy t0 = 1 := by
  refine ⟨all_may (by decide +kernel) (by decide +kernel) (by decide +kernel), all_may (by decide +kernel) (by decide +kernel) (by decide +kernel),
    ?_, ?_, ?_, ?_, ⟨{ index := 1 }, ?_⟩, ⟨{ index := 1 }, ?_⟩, ?_⟩ <;> decide +kernel

/-! ## Latches, hasps, other devices -/

/-- The latch instructions at the first and the last local latch, and at the first and the last staging latch of the allotment. -/
def latchWords : List (Nat × KFields) :=
  [0xA0, 0xA1, 0xA2, 0xA3].flatMap (fun op => [0, 7, 0x10000, 0x1003F].map (fun i => (op, ops 0 (if op = 0xA3 then 2 else 0) 0 0 0 i)))
theorem witness_Latches :
    (∀ q ∈ latchWords, MayIssue q.1 t0 q.2 k0 thread0 task0) ∧ (∀ q ∈ latchWords, guardBit thread0 q.2 0 = true ∧
      (q.2.imm.getLsbD 16 = false → latchIndex thread0 q.2 < 8) ∧ (q.2.imm.getLsbD 16 = true → latchIndex thread0 q.2 < 64 * cbLatches ctx0.cfg)) ∧
    ctxOf k0 0 = some ctx0 ∧ copiesOf k0 t0 = 0 ∧ copiesOf kBusy t0 ≠ 0 ∧ MayIssue 0xA0 t0 (ops 0 0 0 0 0 7) kBusy busyThread task0 := by
  refine ⟨all_may (by decide +kernel) (by decide +kernel) (by decide +kernel), ?_, ?_, ?_, ?_, ⟨?_, ?_, ?_⟩⟩ <;> decide +kernel
theorem test_lset : got (.lset t0 (ops 0 0 0 0 0 5)) kLatch (fun n => ((tget n.tasks 0).map (·.latches), (threadOf n { core := 0, slot := 1 }).map (·.park))) =
    some (some 0x28, some .running) := by decide +kernel
theorem test_ltest_staging : got (.ltest t0 (ops 0 2 0 0 0 0x10002)) kLatch (fun n => (threadOf n t0).map (fun th => predIn th.p 2)) =
    some (some (BitVec.allOnes 64)) := by decide +kernel

theorem witness_Hasps : (∀ q ∈ [(0xA4, ops 0 0 0 0 0), (0xA6, ops 0 2 0 0 0), (0xA5, ops 0 0 0 0 0)], MayIssue q.1 t0 q.2 k0 thread0 task0 ∧
      guardBit thread0 q.2 0 = true ∧ haspNum thread0 q.2 < 8192) ∧
    (ctxOf k0 0).bind (fun x => haspAt x 0) = some 0 ∧ tget k0.hasps 0 = some { owner := some 0, count := 2 } ∧
    mayAcquire { owner := some 0, count := 2 } 0 ∧ ¬ mayAcquire { owner := some 0, count := 0 } 0 ∧
    tget (kHasp 0).hasps 0 = some { owner := some 0, count := 0 } ∧ MayIssue 0xA4 t0 (ops 0 0 0 0 0) (kHasp 0) thread0 task0 ∧
    MayIssue 0xA6 t0 (ops 0 2 0 0 0) (kHasp 0) thread0 task0 ∧ copiesOf k0 t0 = 0 := by
  refine ⟨fun q h => ⟨all_may (l := [(0xA4, ops 0 0 0 0 0), (0xA6, ops 0 2 0 0 0), (0xA5, ops 0 0 0 0 0)]) (by decide +kernel) (by decide +kernel) (by decide +kernel) q h,
    (by decide +kernel : ∀ q ∈ [(0xA4, ops 0 0 0 0 0), (0xA6, ops 0 2 0 0 0), (0xA5, ops 0 0 0 0 0)], guardBit thread0 q.2 0 = true ∧ haspNum thread0 q.2 < 8192) q h⟩,
    ?_, ?_, ?_, ?_, ?_, ⟨?_, ?_, ?_⟩, ⟨?_, ?_, ?_⟩, ?_⟩ <;> (try unfold mayAcquire) <;> decide +kernel
theorem test_hrel : got (.hrel t0 (ops 0 0 0 0 0)) k0 (fun n => (tget n.hasps 0).map (·.count)) = some (some 3) := by decide +kernel
theorem test_htry_fails : got (.htry t0 (ops 0 2 0 0 0)) (kHasp 0) (fun n => ((tget n.hasps 0).map (·.count), (threadOf n t0).map (fun th => predIn th.p 2))) =
    some (some 0, some 0) := by decide +kernel

/-- Imported hasps 0 and 1 from 8192, imported latches 0 and 1 from 0x10000. -/
def remoteHasps : List (Nat × KFields) := [(0xA4, ops 0 0 10 0 0), (0xA6, ops 0 2 10 0 0 1), (0xA5, ops 0 0 10 0 0)]
def remoteLatches : List (Nat × KFields) := [(0xA0, ops 0 0 6 0 0 0x10000), (0xA1, ops 0 0 6 0 0 0x10001), (0xA2, ops 0 0 6 0 0 0x10001), (0xA3, ops 0 2 6 0 0 0x10000)]
theorem witness_RemoteOperations : (∀ q ∈ remoteHasps ++ remoteLatches, MayIssue q.1 t0 q.2 kHinge thread0 task0) ∧
    (∀ q ∈ remoteHasps ++ remoteLatches, guardBit thread0 q.2 0 = true) ∧
    (∀ q ∈ remoteHasps, 8192 ≤ haspNum thread0 q.2 ∧ (importRange kHinge 0 true (haspNum thread0 q.2 - 8192)).isSome = true) ∧
    (∀ q ∈ remoteLatches, q.2.imm.getLsbD 16 = true ∧ 0x10000 ≤ latchIndex thread0 q.2 ∧ stagingLatches kHinge 0 ≤ latchIndex thread0 q.2 ∧
      (importRange kHinge 0 false (latchIndex thread0 q.2 - 0x10000)).isSome = true) ∧
    copiesOf kHinge t0 = 0 ∧ taskWard kHinge task0 = 0 ∧ recordOf kHinge t0 = none ∧ recordFree kHinge 0 = true ∧ wardRoute kHinge 0 2 = some 0 := by
  refine ⟨all_may (by decide +kernel) (by decide +kernel) (by decide +kernel), ?_, ?_, ?_, ?_, ?_, ?_, ?_, ?_⟩ <;> decide +kernel

/-! ## The interlock, tensor products, samples -/

theorem witness_PixelInterlock : MayIssue 0xA7 t0 (ops 0 0 1 0 0) kBlend { thread0 with fragments := [(1, 5), (9, 5)] } { task0 with kind := .blend 0 none, frame := some 0 } ∧
    MayIssue 0xA8 t0 (ops 0 0 1 0 0) kBlend { thread0 with fragments := [(1, 5), (9, 5)] } { task0 with kind := .blend 0 none, frame := some 0 } ∧
    ((ctxOf kBlend 0).bind (fun x => frameOfTask x { task0 with kind := .blend 0 none, frame := some 0 })).isSome = true ∧
    MayIssue 0xA7 t0 (ops 0 0 1 0 0) k0 thread0 task0 ∧ (∀ b p, task0.kind ≠ .blend b p) := by
  refine ⟨⟨?_, ?_, ?_⟩, ⟨?_, ?_, ?_⟩, ?_, ⟨?_, ?_, ?_⟩, by intro b p h; cases h⟩ <;> decide +kernel

/-- Operands at 64 and 0: an integer and a floating-point product, a block product, and the tiles read and cleared. -/
def tensorWords : List (Nat × KFields) := [(0xC0, ops 1 0 0 0 0), (0xC3, ops 0 2 0 0 0), (0xC1, ops 0 0 1 1 1 0x110040), (0xC1, ops 0 1 1 1 1 0x550040), (0xC2, ops 0 1 1 1 1 0x20)]
/-- The thread of kTiles. -/
def tilesThread : Thread := { thread0 with tiles := [(0, {}), (1, { fp := true, vals := List.replicate 256 0x3F800000 })] }
theorem witness_TensorProducts : (∀ q ∈ tensorWords, MayIssue q.1 t0 q.2 kTiles tilesThread task0) ∧ (∀ q ∈ tensorWords, guardBit tilesThread q.2 0 = true) ∧
    (∀ i, i < 16 → 64 + i * 64 + kcBytes (codeBits 5) 16 ≤ (withStore kTiles task0).size) ∧ (tileOf tilesThread 0).fp = false ∧ (tileOf tilesThread 1).fp = true := by
  refine ⟨all_may (by decide +kernel) (by decide +kernel) (by decide +kernel), ?_, ?_, ?_, ?_⟩ <;> decide +kernel
theorem test_tzero : got (.tzero t0 (ops 1 0 0 0 0)) kTiles (fun n => (threadOf n t0).map (fun th => (tileOf th 0).fp)) = some (some true) := by decide +kernel
theorem test_trd : got (.trd t0 (ops 0 2 0 0 0 1)) kTiles (fun n => (threadOf n t0).map (fun th => laneAt 32 (th.v.getD 9 0) 31)) = some (some 0x3F800000) := by decide +kernel

theorem witness_Samples : MayIssue 0xD0 t0 (ops 0 2 8 0 0) k0 thread0 task0 ∧ guardBit thread0 (ops 0 2 8 0 0) 31 = true ∧
    (let d := texDesc (storeRead (withStore k0 task0) 1024 32)
     d.ok = true ∧ ctxMapped (wardOf k0 (taskWard k0 task0)) 0 d.base (texSpan d) false = true) ∧ (coreOf k0 0).tex = [] := by
  refine ⟨⟨?_, ?_, ?_⟩, ?_, ?_, ?_⟩ <;> decide +kernel


/-! ## The image passes every check of 04 Table 4-6a -/

/-- Its networks, tensors and layers, as 04 Tables 4-4 to 4-6 read them. -/
def tensor0 (src h : Nat) (const : Bool) (data : Nat) : Tensor := { fmt := 8, src := src, const := const, w := 4, h := h, c := 4, q := noIndex, dataBytes := data }
def layer0 (op a b out stripe : Nat) : Layer := {
  op := op, adapter := op == 2, in0 := a, in1 := b, in2 := noIndex, out := out, stripe := stripe, epi := if op = 12 then noIndex else 0, par := List.replicate 64 0 }
def nets0 : List Net := (List.range 10).map (fun k => if k = 9 then { role := 4, first := 9, count := 1 } else { role := k / 3, rung := k % 3, first := k, count := 1, store := 4096 })
def tensors0 : List Tensor := tensor0 1 4 false 0 :: tensor0 0 1 true 32 :: List.replicate 9 (tensor0 0x30 4 false 0) ++ [tensor0 0x40 4 false 0, tensor0 0x41 4 false 0]
def layers0 : List Layer := layer0 2 0 1 2 0 :: (List.range 8).map (fun k => layer0 12 0 noIndex (k + 3) 0) ++ [layer0 12 11 noIndex 12 4]
theorem image0_nets : netsOf image0 = nets0 := by decide +kernel
theorem image0_tensors : tensorsOf image0 = tensors0 := by decide +kernel
theorem image0_layers : layersOf image0 = layers0 := by decide +kernel
theorem shaBlocks_add (n : Nat) : ∀ (m : Nat) (h : List Nat) (b : Bytes), shaBlocks (m + n) h b = shaBlocks n (shaBlocks m h b) (b.drop (64 * m))
  | 0, h, b => by simp [shaBlocks]
  | m + 1, h, b => by
    rw [Nat.succ_add, shaBlocks, shaBlocks_add n m, shaBlocks, List.drop_drop, Nat.mul_succ, Nat.add_comm 64]
/-- The message that the digest covers: the image with its digest zero, padded. -/
def message0 : Bytes := shaPad (patch image0 16 (List.replicate 32 0))
theorem message0_16 : shaBlocks 16 shaInit message0 = [341929917, 381295256, 3253085493, 50637897, 1994135947, 2298800112, 3311892149, 3050988798] := by decide +kernel
theorem message0_32 : shaBlocks 16 [341929917, 381295256, 3253085493, 50637897, 1994135947, 2298800112, 3311892149, 3050988798] (message0.drop 1024) =
    [2534936882, 940478621, 1313737487, 2616320776, 3205083002, 2837791266, 748390531, 3091670648] := by decide +kernel
theorem message0_48 : shaBlocks 16 [2534936882, 940478621, 1313737487, 2616320776, 3205083002, 2837791266, 748390531, 3091670648] (message0.drop 2048) =
    [3302691257, 3853008217, 3343855151, 3365966909, 2577289331, 1434734962, 2057343762, 3490443090] := by decide +kernel
theorem message0_65 : shaBlocks 17 [3302691257, 3853008217, 3343855151, 3365966909, 2577289331, 1434734962, 2057343762, 3490443090] (message0.drop 3072) =
    [3427459566, 3021986059, 3377136444, 7641361, 2986662975, 1885364660, 2382483404, 613721463] := by decide +kernel
theorem message0_hash : shaBlocks 65 shaInit message0 = [3427459566, 3021986059, 3377136444, 7641361, 2986662975, 1885364660, 2382483404, 613721463] := by
  rw [shaBlocks_add 17 48, shaBlocks_add 16 32, shaBlocks_add 16 16, message0_16, message0_32, message0_48, message0_65]
theorem sha256_eq (b : Bytes) : sha256 b = (shaBlocks ((shaPad b).length / 64) shaInit (shaPad b)).flatMap (natBe 4) := rfl
theorem image0_digest : badDigest image0 = none := by
  have len : message0.length / 64 = 65 := by decide +kernel
  have out : ([3427459566, 3021986059, 3377136444, 7641361, 2986662975, 1885364660, 2382483404, 613721463] : List Nat).flatMap (natBe 4) = slice image0 16 32 := by
    decide +kernel
  have d : sha256 (patch image0 16 (List.replicate 32 0)) = slice image0 16 32 := by
    rw [sha256_eq, ← message0, len, message0_hash, out]
  rw [badDigest, if_pos d]
theorem image0_length : image0.length = entArg (cmd0 (entry 6 0x40000 0 [4096])).entry 0 := by decide +kernel
theorem image0_accepted : imageReject image0 4096 = none := by
  have a : ∀ c ∈ [badHeader image0 4096, badSection image0, badRungOrder image0, badRung3 image0, badNetwork image0, badReserved image0], c = none := by decide +kernel
  have b : ∀ c ∈ [badFormat tensors0, badShape image0 tensors0 layers0, badOpcode tensors0 layers0, badParameter image0 nets0 tensors0 layers0,
      badOrder nets0 tensors0 layers0, badPair tensors0 layers0, badAxis tensors0 layers0, badReduction tensors0 layers0], c = none := by decide +kernel
  have c : ∀ c ∈ [badWeight image0 tensors0 layers0, badColumn image0 tensors0 layers0, badRequant image0 tensors0 layers0,
      badMargin image0 nets0 tensors0 layers0, badStore image0 nets0 tensors0 layers0, badKernel image0 layers0, badAdapter image0 nets0 tensors0 layers0], c = none := by
    decide +kernel
  simp only [List.forall_mem_cons] at a b c
  simp only [imageReject, image0_nets, image0_tensors, image0_layers, imageCheckList, List.findSome?, List.cons_append, List.nil_append, Option.map,
    image0_digest, a, b, c]

/-! ## A signed Phipel image -/

/-- The header of an image of SVN 63, signed with the private key 1, whose public key is the base point: r = x(G), s = z + r. -/
def signed0 (r s : Nat) : Bytes :=
  patch (patch (patch (bytesWith 4096 [(0, 4, 0x4C504850), (4, 1, 1), (8, 4, 4096), (12, 1, 63)]) 24 (natBe 48 gx384)) 72 (natBe 48 gy384)) 120 (natBe 48 r ++ natBe 48 s)
/-- Its digest z, as SHA-256 of the image without the signature. -/
def z0 : Nat := 13043499271195691416822042306897607993621643152327470395851158157824403687508
def phipel0 : Bytes := signed0 gx384 (gx384 + z0)
/-- SHA-256 of the public key. -/
def keyHash0 : Nat := 100517009929231863680056272115600675690690544574977711891207571423775232751375
def signedMessage0 : Bytes := shaPad (fwMessage phipel0)
theorem signedMessage0_16 : shaBlocks 16 shaInit signedMessage0 =
    [3642263185, 1916641375, 1069153078, 2753840196, 2565477741, 3562463261, 3739774517, 1153694193] := by decide +kernel
theorem signedMessage0_32 : shaBlocks 16 [3642263185, 1916641375, 1069153078, 2753840196, 2565477741, 3562463261, 3739774517, 1153694193] (signedMessage0.drop 1024) =
    [1034534829, 2588724076, 384065189, 3888867579, 2477409241, 3378054664, 2318670730, 2424207129] := by decide +kernel
theorem signedMessage0_48 : shaBlocks 16 [1034534829, 2588724076, 384065189, 3888867579, 2477409241, 3378054664, 2318670730, 2424207129] (signedMessage0.drop 2048) =
    [170150441, 928677494, 1651061076, 1758421092, 4197712591, 1365897792, 386724629, 2177772381] := by decide +kernel
theorem signedMessage0_65 : shaBlocks 17 [170150441, 928677494, 1651061076, 1758421092, 4197712591, 1365897792, 386724629, 2177772381] (signedMessage0.drop 3072) =
    [483810277, 996688255, 1325313612, 643490059, 1196212663, 3790176802, 1882386125, 3998468180] := by decide +kernel
theorem phipel0_digest : sha256 (fwMessage phipel0) = natBe 32 z0 := by
  have len : signedMessage0.length / 64 = 65 := by decide +kernel
  rw [sha256_eq, ← signedMessage0, len, shaBlocks_add 17 48, shaBlocks_add 16 32, shaBlocks_add 16 16, signedMessage0_16, signedMessage0_32,
    signedMessage0_48, signedMessage0_65]
  decide +kernel
theorem phipel0_signed : ecdsaVerify gx384 gy384 gx384 (gx384 + z0) (natBe 32 z0) = true := by decide +kernel
theorem phipel0_length : phipel0.length = 4096 := by decide +kernel
/-- The image is accepted where its key slot is not revoked and the fuses hold its public key's hash. -/
theorem phipel0_accepted {s : State} (k : Config.keyRevoked 0 = false) (f : Config.rootKeyHash 0 = BitVec.ofNat 256 keyHash0)
    (v : s.sec.svnRaised = 0) : fwCheck s phipel0 4096 = none := by
  have a : fld phipel0 0 4 = 0x4C504850 ∧ fld phipel0 4 1 = 1 ∧ fwReservedOk phipel0 = true ∧ fwLengthOk (fwLength phipel0) = true ∧
      fwLength phipel0 = 4096 ∧ fwKeySlot phipel0 = 0 ∧ fwSvn phipel0 = 63 := by decide +kernel
  have b : beNat (slice phipel0 24 48) = gx384 ∧ beNat (slice phipel0 72 48) = gy384 ∧ beNat (slice phipel0 120 48) = gx384 ∧
      beNat (slice phipel0 168 48) = gx384 + z0 ∧ onCurve gx384 gy384 = true ∧ beNat (sha256 (slice phipel0 24 96)) = (BitVec.ofNat 256 keyHash0).toNat := by
    decide +kernel
  have n : ¬ 63 < svnFused s := by have := Config.svnFused.isLt; simp only [svnFused, v]; omega
  obtain ⟨a1, a2, a3, a4, a5, a6, a7⟩ := a
  obtain ⟨b1, b2, b3, b4, b5, b6⟩ := b
  simp only [fwCheck, a1, a2, a3, a5, a6, a7, b1, b2, b3, b4, b5, b6, k, f, n, phipel0_digest, phipel0_signed]
  simp [← a5, a4]

/-- A hasp of context 0 at its largest count. -/
def fullHasp : Hasp := { owner := some 0, count := 0xFFFF }
/-- k0 with s6 beside an aligned ward address. -/
def oddThread : Thread := { thread0 with s := thread0.s.set 6 (2 ^ 18 + 1) }
theorem witness_KernelFaults :
    (ctxOf k0 task0.slot = some ctx0 ∧ guardBit thread0 (ops 1 2 1 0 0 4032) 0 = true ∧ MayIssue 128 t0 (ops 1 2 1 0 0 4032) k0 thread0 task0 ∧
     (let kk := withStore k0 task0; kk.size < address thread0 (ops 1 2 1 0 0 4032) + ldSize (ops 1 2 1 0 0 4032).mod.toNat)) ∧
    (ctxOf k0 task0.slot = some ctx0 ∧ guardBit thread0 (ops 3 0 1 4 0 4027) 0 = true ∧ MayIssue 129 t0 (ops 3 0 1 4 0 4027) k0 thread0 task0 ∧
     address thread0 (ops 3 0 1 4 0 4027) % ldAlign (ops 3 0 1 4 0 4027).mod.toNat ≠ 0 ∧
     (let kk := withStore k0 task0; address thread0 (ops 3 0 1 4 0 4027) + ldSize (ops 3 0 1 4 0 4027).mod.toNat ≤ kk.size)) ∧
    (ctxOf k0 task0.slot = some ctx0 ∧ guardBit thread0 (ops 3 2 2 0 0 262141) 0 = true ∧
     MayIssue 131 t0 (ops 3 2 2 0 0 262141) k0 thread0 task0 ∧
     (let w := wardOf k0 (taskWard k0 task0); let ok := ctxMapped w task0.slot (address thread0 (ops 3 2 2 0 0 262141)) (ldSize (ops 3 2 2 0 0 262141).mod.toNat) false; ok = false)) ∧
    (ctxOf k0 task0.slot = some ctx0 ∧ guardBit thread0 (ops 3 0 2 4 0 1) 0 = true ∧ MayIssue 132 t0 (ops 3 0 2 4 0 1) k0 thread0 task0 ∧
     address thread0 (ops 3 0 2 4 0 1) % ldAlign (ops 3 0 2 4 0 1).mod.toNat ≠ 0 ∧
     (let w := wardOf k0 (taskWard k0 task0); let ok := ctxMapped w task0.slot (address thread0 (ops 3 0 2 4 0 1)) (ldSize (ops 3 0 2 4 0 1).mod.toNat) true; ok = true)) ∧
    (ctxOf k0 task0.slot = some ctx0 ∧ guardBit thread0 (ops 0 2 10 3 0) 0 = true ∧ MayIssue 133 t0 (ops 0 2 10 3 0) k0 thread0 task0 ∧
     (let w := wardOf k0 (taskWard k0 task0); ctxMapped w task0.slot (BitVec.toNat (sA thread0 (ops 0 2 10 3 0))) 4 true = false)) ∧
    (ctxOf (kThread oddThread) task0.slot = some ctx0 ∧ guardBit oddThread (ops 0 2 6 3 0) 0 = true ∧
     MayIssue 133 t0 (ops 0 2 6 3 0) (kThread oddThread) oddThread task0 ∧ BitVec.toNat (sA oddThread (ops 0 2 6 3 0)) % 4 ≠ 0 ∧
     (let w := wardOf (kThread oddThread) (taskWard (kThread oddThread) task0); ctxMapped w task0.slot (BitVec.toNat (sA oddThread (ops 0 2 6 3 0))) 4 true = true)) ∧
    (ctxOf k0 task0.slot = some ctx0 ∧ guardBit thread0 (ops 0 0 0 0 0 8) 0 = true ∧ MayIssue 162 t0 (ops 0 0 0 0 0 8) k0 thread0 task0 ∧
     (ops 0 0 0 0 0 8).imm.getLsbD 16 = false ∧ 8 ≤ latchIndex thread0 (ops 0 0 0 0 0 8)) ∧
    (ctxOf k0 task0.slot = some ctx0 ∧ guardBit thread0 (ops 0 0 0 0 0 1) 0 = true ∧ MayIssue 164 t0 (ops 0 0 0 0 0 1) k0 thread0 task0 ∧
     haspNum thread0 (ops 0 0 0 0 0 1) < 8192 ∧ haspAt ctx0 (haspNum thread0 (ops 0 0 0 0 0 1)) = none) ∧
    (ctxOf (kHasp 65535) task0.slot = some ctx0 ∧ guardBit thread0 (ops 0 0 0 0 0) 0 = true ∧
     MayIssue 165 t0 (ops 0 0 0 0 0) (kHasp 65535) thread0 task0 ∧ haspNum thread0 (ops 0 0 0 0 0) < 8192 ∧
     haspAt ctx0 (haspNum thread0 (ops 0 0 0 0 0)) = some 0 ∧ tget (kHasp 65535).hasps 0 = some fullHasp ∧ fullHasp.count = 65535 ∧
     copiesOf (kHasp 65535) t0 = 0) ∧
    (ctxOf k0 task0.slot = some ctx0 ∧ guardBit thread0 (ops 0 0 1 1 1 5570560) 0 = true ∧
     MayIssue 193 t0 (ops 0 0 1 1 1 5570560) k0 thread0 task0 ∧
     (tileOf thread0 (ops 0 0 1 1 1 5570560).dst.toNat).fp ≠ decide (5 ≤ (ops 0 0 1 1 1 5570560).imm.toNat / 2 ^ 20)) ∧
    (ctxOf k0 task0.slot = some ctx0 ∧ guardBit thread0 (ops 0 0 1 1 1) 0 = true ∧ MayIssue 194 t0 (ops 0 0 1 1 1) k0 thread0 task0 ∧
     (tileOf thread0 (ops 0 0 1 1 1).dst.toNat).fp = false) ∧
    (ctxOf k0 task0.slot = some ctx0 ∧ guardBit thread0 (ops 0 0 1 0 0) 0 = true ∧ MayIssue 208 t0 (ops 0 0 1 0 0) k0 thread0 task0 ∧
     (let kk := withStore k0 task0; BitVec.toNat (sA thread0 (ops 0 0 1 0 0)) + 32 ≤ kk.size ∧ (texDesc (storeRead kk (BitVec.toNat (sA thread0 (ops 0 0 1 0 0))) 32)).ok = false)) ∧
    (ctxOf k0 task0.slot = some ctx0 ∧ guardBit thread0 (ops 2 0 1 0 0) 0 = true ∧ MayIssue 134 t0 (ops 2 0 1 0 0) k0 thread0 task0 ∧
     2 ≤ (ops 2 0 1 0 0).mod.toNat ∧
     (let kk := withStore k0 task0; BitVec.toNat (sA thread0 (ops 2 0 1 0 0)) + 32 ≤ kk.size ∧ (copyDesc (storeRead kk (BitVec.toNat (sA thread0 (ops 2 0 1 0 0))) 32)).ok = false)) := by
  (repeat' (first | apply And.intro | apply MayIssue.mk | apply RingsBell.mk | apply InFrame.mk)) <;> decide +kernel
/-- An operation of context 0's thread 0. -/
def remote0 : Remote := {}
/-- That operation, sent at 0, ten microseconds and a cycle ago. -/
def wRemote : State := { kHinge with now := 601, remotes := [(0, remote0)] }
/-- kBusy's second request. -/
def vreq1 : VReq := { dest := .v 9, value := 78, addr := 2 ^ 18 + 64 }
/-- thread0 in a wait. -/
def waiting (p : Park) : Thread := { thread0 with park := p }
/-- That operation beyond its limit, at the end of the fabric cycle. -/
def lostRemote : Remote := { expired := true }
/-- The device then. -/
def wLost : State := { kHinge with remotes := [(0, lostRemote)] }
theorem witness_WaitsHaveLimits :
    (threadOf (kWait (Park.latch false 5)) t0 = some (waiting (Park.latch false 5)) ∧
     tget (kWait (Park.latch false 5)).tasks (waiting (Park.latch false 5)).task = some task0 ∧
     liveCtx (kWait (Park.latch false 5)) task0.slot = some ctx0 ∧
     ((∃ b i, (waiting (Park.latch false 5)).park = Park.latch b i) ∨ ∃ q px, (waiting (Park.latch false 5)).park = Park.pixels q px) ∧
     (waiting (Park.latch false 5)).parkedAt + 60 * cbWaitLimit ctx0.cfgInForce < (kWait (Park.latch false 5)).now) ∧
    (threadOf (kWait (Park.pixels 1 [3])) t0 = some (waiting (Park.pixels 1 [3])) ∧
     tget (kWait (Park.pixels 1 [3])).tasks (waiting (Park.pixels 1 [3])).task = some task0 ∧
     liveCtx (kWait (Park.pixels 1 [3])) task0.slot = some ctx0 ∧
     ((∃ b i, (waiting (Park.pixels 1 [3])).park = Park.latch b i) ∨ ∃ q px, (waiting (Park.pixels 1 [3])).park = Park.pixels q px) ∧
     (waiting (Park.pixels 1 [3])).parkedAt + 60 * cbWaitLimit ctx0.cfgInForce < (kWait (Park.pixels 1 [3])).now) ∧
    (threadOf (kWait (Park.hasp 0)) t0 = some (waiting (Park.hasp 0)) ∧
     tget (kWait (Park.hasp 0)).tasks (waiting (Park.hasp 0)).task = some task0 ∧ liveCtx (kWait (Park.hasp 0)) task0.slot = some ctx0 ∧
     (waiting (Park.hasp 0)).park = Park.hasp 0 ∧
     (waiting (Park.hasp 0)).parkedAt + 60 * cbHaspTimeout ctx0.cfgInForce < (kWait (Park.hasp 0)).now) ∧
    (tget wRemote.remotes 0 = some remote0 ∧ namedCtx wRemote remote0.slot remote0.gen = some ctx0 ∧
     remote0.sentAt + 60 * cbRemoteLimit ctx0.cfgInForce < wRemote.now) ∧
    (wLost.remotes = [(0, lostRemote)] ∧ lostRemote.expired = true ∧ namedCtx wLost lostRemote.slot lostRemote.gen = some ctx0) ∧
    (tget (coreOf kBusy 0).vreqs 1 = some vreq1 ∧ namedCtx kBusy vreq1.slot vreq1.gen = some ctx0) := by
  (repeat' apply And.intro) <;> first | exact .inl ⟨_, _, rfl⟩ | exact .inr ⟨_, _, rfl⟩ | decide +kernel
/-- A ward's tile of a frame whose network is the image's first. -/
def tileTask : Task := { kind := .tile 0, slot := 0, frame := some 0, lc := true, started := true, core := 1, size := 4096 }
def tileFrame : Frame := { geoFrame (geoCfg []) { phase := .complete, latches := [0], binned := true } with image := some 1, kind := .a, own := some 0 }
def tileCtx : Ctx := { geoCtx tileFrame with image := some 1 }
/-- Its thread. -/
def tileThread : Thread := { task := 4 }
/-- That thread runs on core 1. -/
def tileState : State := { withImage (onHead tileCtx head0 1000000) with tasks := [(4, tileTask)], cores := [(1, { threads := [(0, tileThread)] })] }
def tileNet0 : TileNet := (tileNet tileState (bound tileCtx) tileTask).get (by decide +kernel)
def t1 : ThreadRef := { core := 1, slot := 0 }
theorem witness_BuiltInCode :
    (threadOf k0 t0 = some thread0 ∧ tget k0.tasks thread0.task = some task0 ∧ thread0.park = Park.running ∧ task0.started = true ∧
     task0.code = Code.builtIn ∧ liveCtx k0 task0.slot = some ctx0 ∧ coreIssues (coreOf k0 t0.core) = true) ∧
    (threadOf tileState t1 = some tileThread ∧ tget tileState.tasks tileThread.task = some tileTask ∧ tileThread.park = Park.running ∧
     tileTask.started = true ∧ tileTask.code = Code.builtIn ∧ liveCtx tileState tileTask.slot = some (bound tileCtx) ∧
     coreIssues (coreOf tileState t1.core) = true ∧ (tileTask.kind = TaskKind.tile 0 ∨ tileTask.kind = TaskKind.train 0) ∧
     tileNet tileState (bound tileCtx) tileTask = some tileNet0 ∧ tileTask.progress < tileNet0.net.count ∧
     customRuns tileState tileThread.task = false ∧
     (let l := (layersOf tileNet0.img).getD (tileNet0.net.first + tileTask.progress) { }; layerSkew (tileEnvNow tileTask tileNet0) l = none ∧ l.op ≠ 15)) := by
  (repeat' (first | apply And.intro | apply MayIssue.mk)) <;> first | exact (Option.some_get _).symm | decide +kernel
/-- A ring with two records unreturned, one of which raises the condition. -/
def ringW : Ring := { live := true, sqBase := 0x10000, cqBase := 0x20000, unreturned := [false, true], posted := 2 }
/-- A context with it. -/
def bellCtx : Ctx := { ctx0 with ring := ringW }
/-- That ring as the PF's and context 0's, its vector unmasked. -/
def bellS : State := { withCtx bellCtx up with fns := up.fns.set 0 { enabled := true, ring := ringW, msix := [(0, { masked := false })] } }
theorem witness_Doorbells :
    (RingsBell bellS 0 (RingRef.ctx 0) 63 ∧ ringOf bellS (RingRef.ctx 0) = some ringW ∧ 63 % 65536 < 2 ^ ringW.sqLog2) ∧
    (RingsBell bellS 0 (RingRef.admin 0) 0 ∧ ringOf bellS (RingRef.admin 0) = some ringW ∧ 0 % 65536 < 2 ^ ringW.sqLog2) ∧
    (RingsBell bellS 0 (RingRef.ctx 0) 64 ∧ ringOf bellS (RingRef.ctx 0) = some ringW ∧ 2 ^ ringW.sqLog2 ≤ 64 % 65536) ∧
    (RingsBell bellS 0 (RingRef.admin 0) 2 ∧ ringOf bellS (RingRef.admin 0) = some ringW ∧ 2 % 65536 < 2 ^ ringW.cqLog2 ∧ ringW.lostOwed = 0 ∧
     ringW.dropped = [] ∧ (let count := (2 % 65536 + 2 ^ ringW.cqLog2 - ringW.head) % 2 ^ ringW.cqLog2; count ≤ ringW.unreturned.length)) ∧
    (RingsBell bellS 0 (RingRef.ctx 0) 0 ∧ ringOf bellS (RingRef.ctx 0) = some ringW ∧ 0 % 65536 < 2 ^ ringW.cqLog2 ∧
     (let count := (0 % 65536 + 2 ^ ringW.cqLog2 - ringW.head) % 2 ^ ringW.cqLog2; count ≤ ringW.unreturned.length)) ∧
    (RingsBell bellS 0 (RingRef.ctx 0) 3 ∧ ringOf bellS (RingRef.ctx 0) = some ringW ∧
     (let count := (3 % 65536 + 2 ^ ringW.cqLog2 - ringW.head) % 2 ^ ringW.cqLog2; 2 ^ ringW.cqLog2 ≤ 3 % 65536 ∨ ringW.unreturned.length < count)) ∧
    (RingsBell bellS 0 (RingRef.ctx 0) 64 ∧ ringOf bellS (RingRef.ctx 0) = some ringW ∧
     (let count := (64 % 65536 + 2 ^ ringW.cqLog2 - ringW.head) % 2 ^ ringW.cqLog2; 2 ^ ringW.cqLog2 ≤ 64 % 65536 ∨ ringW.unreturned.length < count)) ∧
    (RingsBell bellS 0 (RingRef.admin 0) 0 ∧ ringOf bellS (RingRef.admin 0) = some ringW ∧ 0 % 2 = 0) ∧
    (RingsBell (withCtx ctx0 up) 0 (RingRef.ctx 0) 1 ∧ ringOf (withCtx ctx0 up) (RingRef.ctx 0) = some ctx0.ring ∧ 1 % 2 = 1 ∧
     (ctx0.ring.unreturned.all fun b => !b) = true) ∧
    (RingsBell bellS 0 (RingRef.admin 0) 1 ∧ ringOf bellS (RingRef.admin 0) = some ringW ∧ 1 % 2 = 1 ∧ ringW.unreturned.any id = true ∧
     (tgetD (fnOf bellS (ringFn bellS (RingRef.admin 0))).msix (ringVector bellS (RingRef.admin 0)) { }).masked = false) := by
  (repeat' (first | apply And.intro | apply MayIssue.mk | apply RingsBell.mk | apply InFrame.mk)) <;> decide +kernel
theorem witness_ContextPages :
    (bellS.fw.switching = false ∧ ((slotOf bellS 0).state ≠ SlotState.live ∨ (slotOf bellS 0).gen ≠ 65536 / 65536 % 65536)) ∧
    (up.fw.switching = false ∧ ((slotOf up 1).state ≠ SlotState.live ∨ (slotOf up 1).gen ≠ 0 / 65536 % 65536)) ∧
    (barsOpen bellS 0 = true ∧ ctxOf bellS 0 = some bellCtx ∧ bellCtx.ward = 0 ∧
     ((slotOf bellS 0).state = SlotState.live ∨ (slotOf bellS 0).state = SlotState.teardown)) := by
  (repeat' (first | apply And.intro | apply MayIssue.mk | apply RingsBell.mk | apply InFrame.mk)) <;> decide +kernel
theorem witness_AdminRing :
    (up.fns.length = 16 ∧ up.wards.length = 16 ∧ 0 < 16 ∧ barsOpen up 0 = true ∧ 170 % 16 ≤ 10 ∧ 170 / 16 % 16 ≤ 10 ∧
     (let f := fnOf up 0; f.enabled = false ∧ f.disabling = false)) ∧
    (bellS.fns.length = 16 ∧ bellS.wards.length = 16 ∧ 0 < 16 ∧ barsOpen bellS 0 = true ∧ (let f := fnOf bellS 0; f.enabled = true)) := by
  (repeat' (first | apply And.intro | apply MayIssue.mk | apply RingsBell.mk | apply InFrame.mk)) <;> decide +kernel
theorem witness_RegisterWrites :
    (barsOpen State.reset 0 = false) ∧
    (32768 ≤ 32768) ∧
    (up.fns.length = 16 ∧ up.wards.length = 16 ∧ 0 < 16 ∧ barsOpen up 0 = true ∧ 4294967295 < 2 ^ 32) ∧
    (up.fns.length = 16 ∧ up.wards.length = 16 ∧ 0 < 16 ∧ barsOpen up 0 = true ∧ 305422335 < 2 ^ 64 ∧
     (let f := fnOf up 0; let open_ := f.enabled = false ∧ f.disabling = false; open_)) ∧
    (bellS.fns.length = 16 ∧ bellS.wards.length = 16 ∧ 0 < 16 ∧ barsOpen bellS 0 = true ∧ 4096 < 2 ^ 64 ∧
     (let f := fnOf bellS 0; let open_ := f.enabled = false ∧ f.disabling = false; ¬open_)) ∧
    (up.fns.length = 16 ∧ up.wards.length = 16 ∧ 0 < 16 ∧ barsOpen up 0 = true ∧ 18446744073709551615 < 2 ^ 64) ∧
    (up.fns.length = 16 ∧ up.wards.length = 16 ∧ 0 < 16 ∧ barsOpen up 0 = true ∧ 2047 < 2048 ∧ 7 < 2 ^ 64) ∧
    (up.fns.length = 16 ∧ up.wards.length = 16 ∧ 0 < 16 ∧ barsOpen up 0 = true ∧ 2047 < 2048 ∧ 7 < 2 ^ 64 ∧ (fnOf up 0).pba.contains 2047 = false) := by
  (repeat' (first | apply And.intro | apply MayIssue.mk | apply RingsBell.mk | apply InFrame.mk)) <;> decide +kernel
/-- The PF's aperture is open at context 0's memory. -/
def apertureS : State := { withCtx ctx0 up with fns := up.fns.set 0 { aperture := BitVec.ofNat 64 (2 ^ 18 + 1) } }
theorem witness_ApertureAndImproperAccesses :
    (apertureOpen apertureS 0 = true ∧ (wardOf apertureS 0).mem.wf = true ∧ 0 < [1, 2, 3].length ∧
     wardMapped (wardOf apertureS 0) (apertureAddr (fnOf apertureS 0) (2 ^ 18 - 3)) [1, 2, 3].length true = true) ∧
    (apertureS.fns.length = 16 ∧ apertureS.wards.length = 16 ∧ 0 < 16 ∧ apertureOpen apertureS 0 = true ∧
     wardMapped (wardOf apertureS 0) (apertureAddr (fnOf apertureS 0) (2 ^ 18 - 2)) [1, 2, 3].length true = false) ∧
    (up.fns.length = 16 ∧ up.wards.length = 16 ∧ 0 < 16 ∧ barsOpen up 0 = true) := by
  (repeat' (first | apply And.intro | apply MayIssue.mk | apply RingsBell.mk | apply InFrame.mk)) <;> decide +kernel
/-- The ring of `admRing` and `ctxRing`, with one entry announced. -/
def ring1 : Ring := { live := true, sqBase := 0x10000, cqBase := 0x20000, tail := 1 }
theorem witness_CommandFetches :
    (canFetch (admRing (entry 2 0 0 [1])) (RingRef.admin 0) = true ∧ ringOf (admRing (entry 2 0 0 [1])) (RingRef.admin 0) = some ring1 ∧
     cmdOf (admRing (entry 2 0 0 [1])) (RingRef.admin 0) ring1.nextSeq = none ∧
     (admRing (entry 2 0 0 [1])).fns.length = 16 ∧ (admRing (entry 2 0 0 [1])).wards.length = 16 ∧
     (let e := hostRead (admRing (entry 2 0 0 [1])) (ring1.sqBase + 64 * ring1.fetchHead) 64; entryBad (admRing (entry 2 0 0 [1])) (RingRef.admin 0) e = none)) ∧
    (canFetch (admRing (entry 119 0 0 [])) (RingRef.admin 0) = true ∧ ringOf (admRing (entry 119 0 0 [])) (RingRef.admin 0) = some ring1 ∧
     cmdOf (admRing (entry 119 0 0 [])) (RingRef.admin 0) ring1.nextSeq = none ∧
     (admRing (entry 119 0 0 [])).fns.length = 16 ∧ (admRing (entry 119 0 0 [])).wards.length = 16 ∧
     (let e := hostRead (admRing (entry 119 0 0 [])) (ring1.sqBase + 64 * ring1.fetchHead) 64; entryBad (admRing (entry 119 0 0 [])) (RingRef.admin 0) e = some 1)) ∧
    (canFetch (ctxRing (entry 32 0 0 [])) (RingRef.ctx 0) = true ∧ ringOf (ctxRing (entry 32 0 0 [])) (RingRef.ctx 0) = some ring1 ∧
     cmdOf (ctxRing (entry 32 0 0 [])) (RingRef.ctx 0) ring1.nextSeq = none ∧
     (ctxRing (entry 32 0 0 [])).fns.length = 16 ∧ (ctxRing (entry 32 0 0 [])).wards.length = 16) := by
  (repeat' (first | apply And.intro | apply MayIssue.mk | apply RingsBell.mk | apply InFrame.mk)) <;> decide +kernel
theorem witness_PlainCompletions :
    (readyCmd (RingRef.ctx 0) 0 32 (ctxCmd (entry 32 0 0 []) [] ctx0) = some (cmd0 (entry 32 0 0 []))) ∧
    (readyCmd (RingRef.ctx 0) 0 33 (ctxCmd (entry 33 0 0 []) [] ctx0) = some (cmd0 (entry 33 0 0 []))) ∧
    ((admCmd (entry 1 262144 0 [16896]) [] up).fns.length = 16 ∧ (admCmd (entry 1 262144 0 [16896]) [] up).wards.length = 16 ∧
     (admCmd (entry 1 262144 0 [16896]) [] up).fw.running = true ∧ (admCmd (entry 1 262144 0 [16896]) [] up).fw.switching = false ∧
     cmdOf (admCmd (entry 1 262144 0 [16896]) [] up) (RingRef.admin 0) 0 = some (cmd0 (entry 1 262144 0 [16896])) ∧
     transfers (admCmd (entry 1 262144 0 [16896]) [] up) (RingRef.admin 0) 0 (cmd0 (entry 1 262144 0 [16896])) = true) ∧
    (up.fns.length = 16 ∧ up.wards.length = 16) := by
  (repeat' (first | apply And.intro | apply MayIssue.mk | apply RingsBell.mk | apply InFrame.mk)) <;> decide +kernel

/-! ## Wards and contexts -/
/-- Bytes at host address 0x40000. -/
def hostAt (b : Bytes) : Mem := memAt 0x40000 b
/-- The PF's ward block command over a block. -/
def wardCmd (b : Bytes) (s : State) : State := admCmd (entry 1 0x40000 0 [16896]) (hostAt b) s
/-- Fields of a ward block without units. -/
def noUnits : List (Nat × Nat × Nat) := [(0x14, 2, 0), (0x1D, 1, 0), (0x200, 256, 0)]
/-- Ward 0 with two granules of spare pool, eight chunks. -/
def spareS : State := { upWard with wards := up.wards.set 0 { cfg := wardCfg, key := some 0, spare := 8, allocs := [{ kind := .spare, base := 5, count := 2 }] } }
theorem hostAt_read {s : State} {b : Bytes} {a n : Nat} (m : s.hostMem = hostAt b) (e : a = 0x40000) (h : b.length = n) : hostRead s a n = b := by
  rewrite [e, hostRead, m, ← h]; exact Mem.readN_writeN rfl _ _
theorem wardBlock_length (l : List (Nat × Nat × Nat)) (h : (bytesWith 768 (wardFields ++ l)).length = 768) : (wardBlock l).length = 16896 := by
  rw [wardBlock, List.length_append, List.length_replicate, h]
theorem wardBlock_read (l : List (Nat × Nat × Nat)) (s : State) (h : (bytesWith 768 (wardFields ++ l)).length = 768) :
    hostRead (wardCmd (wardBlock l) s) (entAddr0 (cmd0 (entry 1 0x40000 0 [16896])).entry) 16896 = wardBlock l :=
  hostAt_read rfl (by decide +kernel) (wardBlock_length l h)
theorem leNat_zeros (n : Nat) : leNat (List.replicate n 0) = 0 := by
  induction n with
  | zero => rfl
  | succ n ih => simpa [List.replicate_succ, leNat] using ih
/-- Beyond its first 768 bytes a ward block of these tests is zero. -/
theorem wardBlock_zero (l : List (Nat × Nat × Nat)) (h : (bytesWith 768 (wardFields ++ l)).length = 768) (o n : Nat) (ho : 768 ≤ o) :
    fld (wardBlock l) o n = 0 := by
  rw [fld, wardBlock, List.drop_append, List.drop_of_length_le (by omega), List.nil_append, List.drop_replicate, List.take_replicate, leNat_zeros]
theorem groupBad_zero {s : State} {w g : Nat} {o n : WardCfg} {b : Bytes} (h : fld b (0x0200 + 256 * g) 256 = 0) (c : wardCtxs s w isLive = []) :
    groupBad s w g o n b = none := by
  simp [groupBad, firstBad, h, c, subMask, maskDiff]
theorem wardBlockBad_none {s : State} {l : List (Nat × Nat × Nat)} (h : (bytesWith 768 (wardFields ++ l)).length = 768)
    (c : wardCtxs s (wbWard (wardBlock l)) isLive = []) (g0 : groupBad s (wbWard (wardBlock l)) 0 (wardOf s (wbWard (wardBlock l))).cfg (wardCfgOf (wardBlock l)) (wardBlock l) = none)
    (f : (wardFieldsBad s (wardBlock l)) = none) : wardBlockBad s (wardBlock l) = none := by
  rw [wardBlockBad, f]
  refine List.findSome?_eq_none_iff.mpr fun g _ => ?_
  by_cases hg : g = 0
  · subst hg; exact g0
  · exact groupBad_zero (wardBlock_zero l h _ _ (by omega)) c
theorem wardRefusal_none {s : State} {l : List (Nat × Nat × Nat)} (h : (bytesWith 768 (wardFields ++ l)).length = 768)
    (c : wardCtxs s (wbWard (wardBlock l)) isLive = [])
    (g0 : groupBad s (wbWard (wardBlock l)) 0 (wardOf s (wbWard (wardBlock l))).cfg (wardCfgOf (wardBlock l)) (wardBlock l) = none)
    (f : wardFieldsBad s (wardBlock l) = none) (u : s.sec.unlocked = false) (r : s.sec.rngFail = false) : wardRefusal s (wardBlock l) = none := by
  simp [wardRefusal, wardBlockBad_none h c g0 f, u, r]
theorem witness_WardCommands_blocks :
    ((wardCmd (wardBlock []) up).fns.length = 16 ∧ (wardCmd (wardBlock []) up).wards.length = 16 ∧
     readyCmd (RingRef.admin 0) 0 1 (wardCmd (wardBlock []) up) = some (cmd0 (entry 1 262144 0 [16896])) ∧
     (let b := hostRead (wardCmd (wardBlock []) up) (entAddr0 (cmd0 (entry 1 262144 0 [16896])).entry) 16896; wardRefusal (wardCmd (wardBlock []) up) b = none)) ∧
    ((wardCmd (wardBlock noUnits) upWard).fns.length = 16 ∧ (wardCmd (wardBlock noUnits) upWard).wards.length = 16 ∧
     readyCmd (RingRef.admin 0) 0 1 (wardCmd (wardBlock noUnits) upWard) = some (cmd0 (entry 1 262144 0 [16896])) ∧
     (let b := hostRead (wardCmd (wardBlock noUnits) upWard) (entAddr0 (cmd0 (entry 1 262144 0 [16896])).entry) 16896; wardRefusal (wardCmd (wardBlock noUnits) upWard) b = none)) ∧
    ((wardCmd (wardBlock [(4, 4, 5)]) up).fns.length = 16 ∧ (wardCmd (wardBlock [(4, 4, 5)]) up).wards.length = 16 ∧
     readyCmd (RingRef.admin 0) 0 1 (wardCmd (wardBlock [(4, 4, 5)]) up) = some (cmd0 (entry 1 262144 0 [16896])) ∧
     (let b := hostRead (wardCmd (wardBlock [(4, 4, 5)]) up) (entAddr0 (cmd0 (entry 1 262144 0 [16896])).entry) 16896; wardRefusal (wardCmd (wardBlock [(4, 4, 5)]) up) b = some (4, 1))) := by
  rewrite [wardBlock_read _ _ (by decide +kernel), wardBlock_read _ _ (by decide +kernel), wardBlock_read _ _ (by decide +kernel)]; refine ⟨⟨by decide +kernel, by decide +kernel, by decide +kernel, wardRefusal_none ?_ ?_ ?_ ?_ ?_ ?_⟩, ⟨by decide +kernel, by decide +kernel, by decide +kernel, wardRefusal_none ?_ ?_ ?_ ?_ ?_ ?_⟩, by decide +kernel, by decide +kernel, by decide +kernel, ?_⟩ <;> decide +kernel
theorem witness_WardCommands :
    ((admCmd (entry 2 0 0 [0]) [] upWard).fns.length = 16 ∧ (admCmd (entry 2 0 0 [0]) [] upWard).wards.length = 16 ∧
     readyCmd (RingRef.admin 0) 0 2 (admCmd (entry 2 0 0 [0]) [] upWard) = some (cmd0 (entry 2 0 0 [0])) ∧
     (cmd0 (entry 2 0 0 [0])).started = false ∧
     (let w := entArg (cmd0 (entry 2 0 0 [0])).entry 0; w < 16 ∧ wardTearing (admCmd (entry 2 0 0 [0]) [] upWard) w = false ∧ (wardOf (admCmd (entry 2 0 0 [0]) [] upWard) w).key.isSome = true)) ∧
    ((admCmd (entry 3 0 0 [2, 0]) [] upWard).fns.length = 16 ∧ (admCmd (entry 3 0 0 [2, 0]) [] upWard).wards.length = 16 ∧ 0 < 16 ∧
     readyCmd (RingRef.admin 0) 0 3 (admCmd (entry 3 0 0 [2, 0]) [] upWard) = some (cmd0 (entry 3 0 0 [2, 0])) ∧
     (wardOf (admCmd (entry 3 0 0 [2, 0]) [] upWard) 0).growthWait = [] ∧ entArg (cmd0 (entry 3 0 0 [2, 0])).entry 1 % 2 = 0 ∧
     (let k := entArg (cmd0 (entry 3 0 0 [2, 0])).entry 0; k ≤ freeGranules (wardOf (admCmd (entry 3 0 0 [2, 0]) [] upWard) 0))) ∧
    ((admCmd (entry 3 0 0 [2, 1]) [] spareS).fns.length = 16 ∧ (admCmd (entry 3 0 0 [2, 1]) [] spareS).wards.length = 16 ∧ 0 < 16 ∧
     readyCmd (RingRef.admin 0) 0 3 (admCmd (entry 3 0 0 [2, 1]) [] spareS) = some (cmd0 (entry 3 0 0 [2, 1])) ∧
     (wardOf (admCmd (entry 3 0 0 [2, 1]) [] spareS) 0).growthWait = [] ∧ entArg (cmd0 (entry 3 0 0 [2, 1])).entry 1 % 2 = 1 ∧
     (let k := entArg (cmd0 (entry 3 0 0 [2, 1])).entry 0; 4 * k ≤ (wardOf (admCmd (entry 3 0 0 [2, 1]) [] spareS) 0).spare)) := by
  (repeat' (first | apply And.intro | apply InFrame.mk)) <;> decide +kernel
/-- A context whose block every check accepts, in the ward with every unit. -/
def goodCtx : Ctx := { ctx0 with cfg := goodCfg [] }
def goodS : State := { ctxCmd (entry 0x22 0x40000 0 []) (hostAt (goodCfg [(6, 1, 2)])) goodCtx with wards := upWard.wards }
/-- Context 0 in teardown at a generation. -/
def genCtx (g : Nat) : Ctx := { ctx0 with gen := g }
def tearing (g : Nat) : State := { withCtx (genCtx g) up with slots := [(0, { state := .teardown, gen := g })] }
theorem createS_read : hostRead (admCmd (entry 4 0x40000 0 []) (hostAt (goodCfg [])) upWard) (entAddr0 (cmd0 (entry 4 0x40000 0 [])).entry) 256 = goodCfg [] :=
  hostAt_read rfl (by decide +kernel) (by decide +kernel)
theorem goodS_read : hostRead goodS (entAddr0 (cmd0 (entry 0x22 0x40000 0 [])).entry) 256 = goodCfg [(6, 1, 2)] :=
  hostAt_read rfl (by decide +kernel) (by decide +kernel)
theorem witness_ContextLifecycle_blocks :
    ((admCmd (entry 4 262144 0 []) (hostAt (goodCfg [])) upWard).fns.length = 16 ∧ (admCmd (entry 4 262144 0 []) (hostAt (goodCfg [])) upWard).wards.length
       = 16 ∧
     0 < 16 ∧ readyCmd (RingRef.admin 0) 0 4 (admCmd (entry 4 262144 0 []) (hostAt (goodCfg [])) upWard) = some (cmd0 (entry 4 262144 0 [])) ∧
     limitReached (admCmd (entry 4 262144 0 []) (hostAt (goodCfg [])) upWard) 0 = false ∧
     freeSlot (admCmd (entry 4 262144 0 []) (hostAt (goodCfg [])) upWard) = some 0 ∧
     (let b := hostRead (admCmd (entry 4 262144 0 []) (hostAt (goodCfg [])) upWard) (entAddr0 (cmd0 (entry 4 262144 0 [])).entry) 256; ctxBlockBad (admCmd (entry 4 262144 0 []) (hostAt (goodCfg [])) upWard) { } b = none)) ∧
    (readyCmd (RingRef.ctx 0) 0 34 goodS = some (cmd0 (entry 34 262144 0 [])) ∧ ctxOf goodS 0 = some (inFlight (entry 34 262144 0 []) goodCtx) ∧
     (let b := keepCreation (inFlight (entry 34 262144 0 []) goodCtx).cfg (hostRead goodS (entAddr0 (cmd0 (entry 34 262144 0 [])).entry) 256); ctxBlockBad (chargeHost 0 256 0 goodS) (ctxEnv (chargeHost 0 256 0 goodS) 0 (inFlight (entry 34 262144 0 []) goodCtx)) b = none)) := by
  rewrite [createS_read, goodS_read]; decide +kernel
theorem witness_ContextLifecycle :
    (readyCmd (RingRef.admin 0) 0 5 (admCmd (entry 5 0 0 [0, 0]) [] (withCtx ctx0 up)) = some (cmd0 (entry 5 0 0 [0, 0])) ∧
     (cmd0 (entry 5 0 0 [0, 0])).started = false ∧ ctx0.ward = 0 ∧
     (let slot := entArg (cmd0 (entry 5 0 0 [0, 0])).entry 0; slot < 1024 ∧ (slotOf (admCmd (entry 5 0 0 [0, 0]) [] (withCtx ctx0 up)) slot).gen = entArg (cmd0 (entry 5 0 0 [0, 0])).entry 1 ∧ (slotOf (admCmd (entry 5 0 0 [0, 0]) [] (withCtx ctx0 up)) slot).state = SlotState.live ∧ ctxOf (admCmd (entry 5 0 0 [0, 0]) [] (withCtx ctx0 up)) slot = some ctx0)) ∧
    ((tearing 0).fns.length = 16 ∧ (tearing 0).wards.length = 16 ∧ (slotOf (tearing 0) 0).state = SlotState.teardown ∧
     (tearing 0).fw.switching = false ∧ ctxOf (tearing 0) 0 = some (genCtx 0) ∧ (genCtx 0).ward < 16) ∧
    ((tearing 65535).fns.length = 16 ∧ (tearing 65535).wards.length = 16 ∧ (slotOf (tearing 65535) 0).state = SlotState.teardown ∧
     (tearing 65535).fw.switching = false ∧ ctxOf (tearing 65535) 0 = some (genCtx 65535) ∧ (genCtx 65535).ward < 16) := by
  (repeat' (first | apply And.intro | apply InFrame.mk)) <;> decide +kernel
/-- Context 0 owns hasp 0; context 1 is granted it. -/
def grantee : Ctx := { ctx0 with hasps := [] }
def hasp0 : Hasp := { owner := some 0, count := 2 }
def grantS : State :=
  let s := ctxCmd (entry 0x2D 0 0 [0, 1, 0]) [] ctx0
  { s with slots := [(0, { state := .live }), (1, { state := .live })], ctxs := s.ctxs ++ [(1, grantee)], hasps := [(0, hasp0)] }
/-- Context 0 gives up an index, its own 0 or the granted 4097. -/
def grantedCtx : Ctx := { ctx0 with granted := [(4097, 0)] }
def releaseS (i : Nat) : State := { ctxCmd (entry 0x2E 0 0 [i]) [] grantedCtx with hasps := [(0, hasp0)] }
theorem witness_GrantsAndAccounts :
    (readyCmd (RingRef.ctx 0) 0 45 grantS = some (cmd0 (entry 45 0 0 [0, 1, 0])) ∧
     ctxOf grantS 0 = some (inFlight (entry 45 0 0 [0, 1, 0]) ctx0) ∧ entArg (cmd0 (entry 45 0 0 [0, 1, 0])).entry 0 < 4096 ∧
     haspAt (inFlight (entry 45 0 0 [0, 1, 0]) ctx0) (entArg (cmd0 (entry 45 0 0 [0, 1, 0])).entry 0) = some 0 ∧
     grantee.ward = (inFlight (entry 45 0 0 [0, 1, 0]) ctx0).ward ∧ tget grantS.hasps 0 = some hasp0 ∧ hasp0.grants.length < 64 ∧
     (List.all grantee.granted fun e => e.2 != 0) = true ∧ freeKeyFrom grantee.granted 4096 < 8192 ∧
     (let g := entArg (cmd0 (entry 45 0 0 [0, 1, 0])).entry 1; namedCtx grantS g (entArg (cmd0 (entry 45 0 0 [0, 1, 0])).entry 2) = some grantee ∧ g ≠ 0)) ∧
    (readyCmd (RingRef.ctx 0) 0 46 (releaseS 0) = some (cmd0 (entry 46 0 0 [0])) ∧
     ctxOf (releaseS 0) 0 = some (inFlight (entry 46 0 0 [0]) grantedCtx) ∧ tget (releaseS 0).hasps 0 = some hasp0 ∧ tgetD hasp0.held 0 0 = 0 ∧
     hasp0.parked = [] ∧ (let i := entArg (cmd0 (entry 46 0 0 [0])).entry 0; haspAt (inFlight (entry 46 0 0 [0]) grantedCtx) i = some 0)) ∧
    (readyCmd (RingRef.ctx 0) 0 46 (releaseS 4097) = some (cmd0 (entry 46 0 0 [4097])) ∧
     ctxOf (releaseS 4097) 0 = some (inFlight (entry 46 0 0 [4097]) grantedCtx) ∧ tget (releaseS 4097).hasps 0 = some hasp0 ∧
     tgetD hasp0.held 0 0 = 0 ∧ hasp0.parked = [] ∧
     (let i := entArg (cmd0 (entry 46 0 0 [4097])).entry 0; haspAt (inFlight (entry 46 0 0 [4097]) grantedCtx) i = some 0)) ∧
    (readyCmd (RingRef.ctx 0) 0 53 (ctxCmd (entry 53 262144 0 []) [] ctx0) = some (cmd0 (entry 53 262144 0 [])) ∧
     ctxOf (ctxCmd (entry 53 262144 0 []) [] ctx0) 0 = some (inFlight (entry 53 262144 0 []) ctx0)) := by
  (repeat' (first | apply And.intro | apply InFrame.mk)) <;> decide +kernel
/-! ## Images and copies -/
/-- IMAGE_LOAD of 4,096 bytes. -/
def loadCmd (b : Bytes) : State := admCmd (entry 6 0x40000 0 [4096]) (hostAt b) upWard
/-- A ward with an image that nothing uses. -/
def image1 : Image := { base := 1 }
def unloadS : State := admCmd (entry 7 0 0 [1]) [] { upWard with wards := up.wards.set 0 { cfg := wardCfg, images := [(1, image1)], allocs := [{ kind := .image 1, base := 1, count := 1 }] } }
/-- COPY of 4 bytes in each direction: host to ward, ward to host, ward to ward. -/
def copyEntry (d : Nat) : Bytes := entry 0x2F (if d = 0 then 0x40000 else 2 ^ 18) (if d = 1 then 0x40000 else 2 ^ 18 + 2) [4, d]
def copyS (d : Nat) : State := ctxCmd (copyEntry d) (hostAt [1, 2, 3]) ctx0
theorem witness_ImagesAndCopies :
    ((loadCmd []).fns.length = 16 ∧ (loadCmd []).wards.length = 16 ∧ 0 < 16 ∧
     readyCmd (RingRef.admin 0) 0 6 (loadCmd []) = some (cmd0 (entry 6 262144 0 [4096])) ∧
     (let len := entArg (cmd0 (entry 6 262144 0 [4096])).entry 0; let b := hostRead (loadCmd []) (entAddr0 (cmd0 (entry 6 262144 0 [4096])).entry) len; imageReject b len = some (1, noIndex))) ∧
    (unloadS.fns.length = 16 ∧ unloadS.wards.length = 16 ∧ 0 < 16 ∧ readyCmd (RingRef.admin 0) 0 7 unloadS = some (cmd0 (entry 7 0 0 [1])) ∧
     (let h := entArg (cmd0 (entry 7 0 0 [1])).entry 0; tget (wardOf unloadS 0).images h = some image1 ∧ imageInUse unloadS 0 h = false)) ∧
    ((copyS 0).fns.length = 16 ∧ (copyS 0).wards.length = 16 ∧ readyCmd (RingRef.ctx 0) 0 47 (copyS 0) = some (cmd0 (copyEntry 0)) ∧
     ctxOf (copyS 0) 0 = some (inFlight (copyEntry 0) ctx0) ∧ (inFlight (copyEntry 0) ctx0).ward < 16 ∧ entArg (cmd0 (copyEntry 0)).entry 1 = 0 ∧
     (let k := entArg (cmd0 (copyEntry 0)).entry 0; 0 < k ∧ let dst := entAddr1 (cmd0 (copyEntry 0)).entry; let w := wardOf (copyS 0) (inFlight (copyEntry 0) ctx0).ward; ctxMapped w 0 dst k true = true ∧ w.mem.wf = true)) ∧
    ((copyS 1).fns.length = 16 ∧ (copyS 1).wards.length = 16 ∧ readyCmd (RingRef.ctx 0) 0 47 (copyS 1) = some (cmd0 (copyEntry 1)) ∧
     ctxOf (copyS 1) 0 = some (inFlight (copyEntry 1) ctx0) ∧ (inFlight (copyEntry 1) ctx0).ward < 16 ∧ entArg (cmd0 (copyEntry 1)).entry 1 = 1 ∧
     (copyS 1).hostMem.wf = true ∧
     (let k := entArg (cmd0 (copyEntry 1)).entry 0; let src := entAddr0 (cmd0 (copyEntry 1)).entry; let w := wardOf (copyS 1) (inFlight (copyEntry 1) ctx0).ward; ctxMapped w 0 src k false = true ∧ poisonIn w src k = none)) ∧
    ((copyS 2).fns.length = 16 ∧ (copyS 2).wards.length = 16 ∧ readyCmd (RingRef.ctx 0) 0 47 (copyS 2) = some (cmd0 (copyEntry 2)) ∧
     ctxOf (copyS 2) 0 = some (inFlight (copyEntry 2) ctx0) ∧ (inFlight (copyEntry 2) ctx0).ward < 16 ∧ entArg (cmd0 (copyEntry 2)).entry 1 = 2 ∧
     (let k := entArg (cmd0 (copyEntry 2)).entry 0; 0 < k ∧ let src := entAddr0 (cmd0 (copyEntry 2)).entry; let dst := entAddr1 (cmd0 (copyEntry 2)).entry; let w := wardOf (copyS 2) (inFlight (copyEntry 2) ctx0).ward; ctxMapped w 0 src k false = true ∧ ctxMapped w 0 dst k true = true ∧ poisonIn w src k = none ∧ w.mem.wf = true)) := by
  (repeat' (first | apply And.intro | apply InFrame.mk)) <;> decide +kernel
theorem loadCmd_read (b : Bytes) (h : b.length = entArg (cmd0 (entry 6 0x40000 0 [4096])).entry 0) :
    hostRead (loadCmd b) (entAddr0 (cmd0 (entry 6 0x40000 0 [4096])).entry) (entArg (cmd0 (entry 6 0x40000 0 [4096])).entry 0) = b :=
  hostAt_read rfl (by decide +kernel) h
theorem witness_ImagesAndCopies_load :
    (loadCmd image0).fns.length = 16 ∧ (loadCmd image0).wards.length = 16 ∧ 0 < 16 ∧
    readyCmd (RingRef.admin 0) 0 6 (loadCmd image0) = some (cmd0 (entry 6 262144 0 [4096])) ∧
    (let len := entArg (cmd0 (entry 6 262144 0 [4096])).entry 0; cdiv len (2 ^ 18) ≤ freeGranules (wardOf (loadCmd image0) 0) ∧ let b := hostRead (loadCmd image0) (entAddr0 (cmd0 (entry 6 262144 0 [4096])).entry) len; imageReject b len = none) := by
  refine ⟨by decide +kernel, by decide +kernel, by decide +kernel, by decide +kernel, by decide +kernel, ?_⟩; rewrite [loadCmd_read image0 image0_length]; intro b; rewrite [show entArg (cmd0 (entry 6 0x40000 0 [4096])).entry 0 = 4096 by decide +kernel]; exact image0_accepted

/-! ## Ingest and frames -/
/-- A render packet of frame 3 in host memory, and the pose packet. -/
def renderS (g : Nat) : State := ctxCmd (entry 0x23 0x40000 0 [288]) (hostAt (packet 3 1 1 1 8 4 128)) (genCtx g)
def poseS (g : Nat) : State := ctxCmd (entry 0x24 0x40000 0 []) (hostAt posePacket) (genCtx g)
/-- A pose packet in transit. -/
def posePk : Packet := { pose := true, bytes := posePacket }
theorem witness_Ingest_arrive :
    ((renderS 0).fns.length = 16 ∧ (renderS 0).wards.length = 16 ∧ ctxOf (renderS 0) 0 = some (inFlight (entry 35 262144 0 [288]) (genCtx 0)) ∧
     (inFlight (entry 35 262144 0 [288]) (genCtx 0)).ward < 16 ∧ (cmd0 (entry 35 262144 0 [288])).started = false ∧
     ingestTurn (inFlight (entry 35 262144 0 [288]) (genCtx 0)).ring 0 = true ∧
     readyCmd (RingRef.ctx 0) 0 35 (renderS 0) = some (cmd0 (entry 35 262144 0 [288])) ∧
     (let b := hostRead (renderS 0) (entAddr0 (cmd0 (entry 35 262144 0 [288])).entry) (if false = true then 128 else entArg (cmd0 (entry 35 262144 0 [288])).entry 0); let named := if false = true then (posSlot b, posGen b) else (rpSlot b, rpGen b); named = (0, (inFlight (entry 35 262144 0 [288]) (genCtx 0)).gen))) ∧
    ((renderS 1).fns.length = 16 ∧ (renderS 1).wards.length = 16 ∧ ctxOf (renderS 1) 0 = some (inFlight (entry 35 262144 0 [288]) (genCtx 1)) ∧
     (inFlight (entry 35 262144 0 [288]) (genCtx 1)).ward < 16 ∧ (cmd0 (entry 35 262144 0 [288])).started = false ∧
     ingestTurn (inFlight (entry 35 262144 0 [288]) (genCtx 1)).ring 0 = true ∧
     readyCmd (RingRef.ctx 0) 0 35 (renderS 1) = some (cmd0 (entry 35 262144 0 [288])) ∧
     (let b := hostRead (renderS 1) (entAddr0 (cmd0 (entry 35 262144 0 [288])).entry) (if false = true then 128 else entArg (cmd0 (entry 35 262144 0 [288])).entry 0); let named := if false = true then (posSlot b, posGen b) else (rpSlot b, rpGen b); named ≠ (0, (inFlight (entry 35 262144 0 [288]) (genCtx 1)).gen))) ∧
    ((poseS 0).fns.length = 16 ∧ (poseS 0).wards.length = 16 ∧ ctxOf (poseS 0) 0 = some (inFlight (entry 36 262144 0 []) (genCtx 0)) ∧
     (inFlight (entry 36 262144 0 []) (genCtx 0)).ward < 16 ∧ (cmd0 (entry 36 262144 0 [])).started = false ∧
     ingestTurn (inFlight (entry 36 262144 0 []) (genCtx 0)).ring 0 = true ∧
     readyCmd (RingRef.ctx 0) 0 36 (poseS 0) = some (cmd0 (entry 36 262144 0 [])) ∧
     (let b := hostRead (poseS 0) (entAddr0 (cmd0 (entry 36 262144 0 [])).entry) (if true = true then 128 else entArg (cmd0 (entry 36 262144 0 [])).entry 0); let named := if true = true then (posSlot b, posGen b) else (rpSlot b, rpGen b); named = (0, (inFlight (entry 36 262144 0 []) (genCtx 0)).gen))) ∧
    ((poseS 7).fns.length = 16 ∧ (poseS 7).wards.length = 16 ∧ ctxOf (poseS 7) 0 = some (inFlight (entry 36 262144 0 []) (genCtx 7)) ∧
     (inFlight (entry 36 262144 0 []) (genCtx 7)).ward < 16 ∧ (cmd0 (entry 36 262144 0 [])).started = false ∧
     ingestTurn (inFlight (entry 36 262144 0 []) (genCtx 7)).ring 0 = true ∧
     readyCmd (RingRef.ctx 0) 0 36 (poseS 7) = some (cmd0 (entry 36 262144 0 [])) ∧
     (let b := hostRead (poseS 7) (entAddr0 (cmd0 (entry 36 262144 0 [])).entry) (if true = true then 128 else entArg (cmd0 (entry 36 262144 0 [])).entry 0); let named := if true = true then (posSlot b, posGen b) else (rpSlot b, rpGen b); named ≠ (0, (inFlight (entry 36 262144 0 []) (genCtx 7)).gen))) ∧
    ((queued [] [] [pk0, posePk] tinyCtx).fns.length = 16 ∧ (queued [] [] [pk0, posePk] tinyCtx).wards.length = 16 ∧ 0 < 16 ∧
     (wardOf (queued [] [] [pk0, posePk] tinyCtx) 0).transit[0]? = some pk0 ∧
     inOrder (wardOf (queued [] [] [pk0, posePk] tinyCtx) 0) 0 pk0 = true ∧ pk0.pose = false) ∧
    ((queued [] [] [posePk] tinyCtx).fns.length = 16 ∧ (queued [] [] [posePk] tinyCtx).wards.length = 16 ∧ 0 < 16 ∧
     (wardOf (queued [] [] [posePk] tinyCtx) 0).transit[0]? = some posePk ∧ inOrder (wardOf (queued [] [] [posePk] tinyCtx) 0) 0 posePk = true ∧
     posePk.pose = true) := by
  (repeat' (first | apply And.intro | apply InFrame.mk)) <;> decide +kernel
/-- A packet cut short, and one without a colour surface. -/
def shortPk : Packet := { pk0 with bytes := pk0.bytes.drop 1 }
def litePk : Packet := { bytes := packet 3 1 6 7 1 1 16 }
/-- Context 0 has another generation than the packets name. -/
def deadS (q p : List Packet) : State := { queued q p [] { tinyCtx with gen := 1 } with slots := [(0, { state := .live, gen := 1 })] }
theorem witness_Ingest_check :
    ((deadS [pk0] []).fns.length = 16 ∧ (deadS [pk0] []).wards.length = 16 ∧ 0 < 16 ∧ (wardOf (deadS [pk0] []) 0).ingestQ = [pk0] ∧
     (let slot := rpSlot pk0.bytes; ∀ (x : Ctx), namedCtx (deadS [pk0] []) slot (rpGen pk0.bytes) = some x → x.ward ≠ 0)) ∧
    ((queued [shortPk] [] [] tinyCtx).fns.length = 16 ∧ (queued [shortPk] [] [] tinyCtx).wards.length = 16 ∧ 0 < 16 ∧
     (wardOf (queued [shortPk] [] [] tinyCtx) 0).ingestQ = [shortPk] ∧ tinyCtx.ward = 0 ∧ packetBad tinyCtx shortPk.bytes = some 1 ∧
     (let slot := rpSlot shortPk.bytes; namedCtx (queued [shortPk] [] [] tinyCtx) slot (rpGen shortPk.bytes) = some tinyCtx)) ∧
    ((queued [pk0] [] [] tinyCtx).fns.length = 16 ∧ (queued [pk0] [] [] tinyCtx).wards.length = 16 ∧ 0 < 16 ∧
     (wardOf (queued [pk0] [] [] tinyCtx) 0).ingestQ = [pk0] ∧ tinyCtx.ward = 0 ∧ packetBad tinyCtx pk0.bytes = none ∧
     (let slot := rpSlot pk0.bytes; namedCtx (queued [pk0] [] [] tinyCtx) slot (rpGen pk0.bytes) = some tinyCtx)) ∧
    ((queued [litePk] [] [] tinyCtx).fns.length = 16 ∧ (queued [litePk] [] [] tinyCtx).wards.length = 16 ∧ 0 < 16 ∧
     (wardOf (queued [litePk] [] [] tinyCtx) 0).ingestQ = [litePk] ∧ tinyCtx.ward = 0 ∧ packetBad tinyCtx litePk.bytes = none ∧
     (let slot := rpSlot litePk.bytes; namedCtx (queued [litePk] [] [] tinyCtx) slot (rpGen litePk.bytes) = some tinyCtx)) := by
  (repeat' apply And.intro) <;> first | (intro x h; exact absurd h (by decide +kernel)) | decide +kernel
/-- A context whose set 0 decodes frame 0's packet. -/
def decodingCtx : Ctx := { tinyCtx with ing := { sets := [filling0, {}, {}, {}], accepted := [0] } }
theorem witness_Ingest_decode :
    liveCtx (queued [] [] [] decodingCtx) 0 = some decodingCtx ∧ 0 < 4 ∧ decodeTarget decodingCtx 0 = some filling0 ∧
    decodeTurn (queued [] [] [] decodingCtx) decodingCtx.ward filling0 = true ∧ curTriggeredBy decodingCtx filling0.frame = false ∧
    filling0.hasColour = true ∧
    (let p := filling0.packet.bytes; let a := decodeAll p filling0.accepted; (a.surface 1).isSome = true ∧ a.bad = [] ∧ let cam := packetCamera decodingCtx p; let keep := filling0.accepted; let eff := { good := List.filter (fun g => keep.contains g.1) a.good, bad := a.bad }; let g := comeIntoForce filling0.frame (queued [] [] [] decodingCtx).now filling0.primaries p keep eff decodingCtx.ing; latestRendered { sets := g.sets, releases := g.releases, lite := g.lite, accepted := g.accepted, missing := g.missing, rejected := g.rejected, past := g.past ++ [pastEntry decodingCtx filling0 true cam (queued [] [] [] decodingCtx).now], poses := g.poses, proj := g.proj, exposures := g.exposures, hierRefs := g.hierRefs, ui := g.ui } = some filling0.frame) := by
  (repeat' (first | apply And.intro | apply InFrame.mk)) <;> decide +kernel
/-- A context that has received the pose packet. -/
def pose0 : Pose := { bytes := posePacket }
def posedCtx : Ctx := { tinyCtx with ing := { poses := [pose0] } }
def badPose : Packet := { pose := true, bytes := patch posePacket 124 [0, 0, 0, 0] }
theorem witness_Ingest_pose :
    ((deadS [] [posePk]).fns.length = 16 ∧ (deadS [] [posePk]).wards.length = 16 ∧ 0 < 16 ∧ (wardOf (deadS [] [posePk]) 0).poseQ = [posePk] ∧
     (let slot := posSlot posePk.bytes; ∀ (x : Ctx), namedCtx (deadS [] [posePk]) slot (posGen posePk.bytes) = some x → x.ward ≠ 0)) ∧
    ((queued [] [badPose] [] posedCtx).fns.length = 16 ∧ (queued [] [badPose] [] posedCtx).wards.length = 16 ∧ 0 < 16 ∧
     (wardOf (queued [] [badPose] [] posedCtx) 0).poseQ = [badPose] ∧ posedCtx.ward = 0 ∧ poseOk badPose.bytes = false ∧
     (let slot := posSlot badPose.bytes; namedCtx (queued [] [badPose] [] posedCtx) slot (posGen badPose.bytes) = some posedCtx)) ∧
    ((queued [] [posePk] [] posedCtx).fns.length = 16 ∧ (queued [] [posePk] [] posedCtx).wards.length = 16 ∧ 0 < 16 ∧
     (wardOf (queued [] [posePk] [] posedCtx) 0).poseQ = [posePk] ∧ posedCtx.ward = 0 ∧ poseOk posePk.bytes = true ∧
     List.findIdx? (fun q => q.ingested.isNone) posedCtx.ing.poses = some 0 ∧ posedCtx.ing.poses[0]? = some pose0 ∧
     (let slot := posSlot posePk.bytes; namedCtx (queued [] [posePk] [] posedCtx) slot (posGen posePk.bytes) = some posedCtx)) := by
  (repeat' apply And.intro) <;> first | (intro x h; exact absurd h (by decide +kernel)) | decide +kernel
/-- A context with one rendered frame, bound to head 0. -/
def renderedCtx : Ctx := { tinyCtx with ing := { sets := [full 0 .a, {}, {}, {}], accepted := [0], past := [{ frame := 0, colour := true, kind := .a }] } }
/-- The plan of its next frame. -/
def plan0 : Plan := (planFrame (onHead renderedCtx head0 100) 0 (bound renderedCtx) 0).get (by decide +kernel)
theorem witness_FramesStart :
    (liveCtx (onHead renderedCtx head0 100) 0 = some (bound renderedCtx) ∧ (bound renderedCtx).head = some 0 ∧
     planFrame (onHead renderedCtx head0 100) 0 (bound renderedCtx) 0 = some plan0 ∧ (bound renderedCtx).fr.cur = none ∧
     plan0.t0 ≤ (onHead renderedCtx head0 100).now) ∧
    (liveCtx (onHead tinyCtx head0 130000000) 0 = some (bound tinyCtx) ∧ (bound tinyCtx).head = some 0 ∧ (bound tinyCtx).fr.cut = false ∧
     cutoffOf (onHead tinyCtx head0 130000000) 0 (bound tinyCtx) (headOf (onHead tinyCtx head0 130000000) 0) (bound tinyCtx).fr.nextNumber (slotKindAt
       (bound tinyCtx).cfg (bound tinyCtx).fr.nextPlace) ≤ ↑(onHead tinyCtx head0 130000000).now) := by
  (repeat' (first | apply And.intro | apply InFrame.mk)) <;> decide +kernel

/-! ## Geometry and rays -/
/-- A G frame whose pass waits; the same in immediate mode, and as a U frame. -/
def waitingFrame (c : Bytes) : Frame := geoFrame c {}
def immediateCfg : Bytes := geoCfg [(0x003, 1, 0x10)]
def uFrame : Frame := { waitingFrame (geoCfg []) with kind := .u }
theorem witness_Geometry_start :
    (InFrame (geo (waitingFrame (geoCfg []))) 0 (bound (geoCtx (waitingFrame (geoCfg [])))) (waitingFrame (geoCfg [])) ∧
     (waitingFrame (geoCfg [])).geo.phase = GeoPhase.waiting ∧
     poseArrived (bound (geoCtx (waitingFrame (geoCfg [])))) (waitingFrame (geoCfg [])) = true ∧
     (bound (geoCtx (waitingFrame (geoCfg [])))).ward < 16 ∧
     (geo (waitingFrame (geoCfg []))).fns.length = 16 ∧ (geo (waitingFrame (geoCfg []))).wards.length = 16 ∧
     (wardOf (geo (waitingFrame (geoCfg []))) (bound (geoCtx (waitingFrame (geoCfg [])))).ward).mem.wf = true) ∧
    (InFrame (geo (waitingFrame immediateCfg)) 0 (bound (geoCtx (waitingFrame immediateCfg))) (waitingFrame immediateCfg) ∧
     (waitingFrame immediateCfg).geo.phase = GeoPhase.waiting ∧
     poseArrived (bound (geoCtx (waitingFrame immediateCfg))) (waitingFrame immediateCfg) = true ∧
     (bound (geoCtx (waitingFrame immediateCfg))).ward < 16 ∧
     (geo (waitingFrame immediateCfg)).fns.length = 16 ∧ (geo (waitingFrame immediateCfg)).wards.length = 16 ∧
     (wardOf (geo (waitingFrame immediateCfg)) (bound (geoCtx (waitingFrame immediateCfg))).ward).mem.wf = true) ∧
    (InFrame (geo uFrame) 0 (bound (geoCtx uFrame)) uFrame ∧ uFrame.geo.phase = GeoPhase.waiting ∧
     poseArrived (bound (geoCtx uFrame)) uFrame = true ∧ (bound (geoCtx uFrame)).ward < 16 ∧
     (geo uFrame).fns.length = 16 ∧ (geo uFrame).wards.length = 16 ∧ (wardOf (geo uFrame) (bound (geoCtx uFrame)).ward).mem.wf = true) := by
  (repeat' (first | apply And.intro | apply InFrame.mk)) <;> decide +kernel
/-- A front end with the UI layers as its group. -/
def uiGeo : GeoState := { phase := .running, fes := [(0, { groups := [none] })] }
def uiFrame : Frame := { geoFrame (geoCfg []) uiGeo with ui := [(0, ui0)] }
def binFrame : Frame := geoFrame (geoCfg []) (geoRun true)
def immFrame : Frame := geoFrame immediateCfg (geoRun false)
theorem witness_Geometry_groups :
    (feNext (geo uiFrame) 0 = some (0, bound (geoCtx uiFrame)) ∧ InFrame (geo uiFrame) 0 (bound (geoCtx uiFrame)) uiFrame ∧
     (let e := tgetD uiFrame.geo.fes 0 { }; e.groups = [none])) ∧
    (feNext (geo immFrame) 0 = some (0, bound (geoCtx immFrame)) ∧ InFrame (geo immFrame) 0 (bound (geoCtx immFrame)) immFrame ∧
     immFrame.geo.binMode = false ∧ (let e := tgetD immFrame.geo.fes 0 { }; e.groups = [some 0])) ∧
    (feNext (geo binFrame) 0 = some (0, bound (geoCtx binFrame)) ∧ InFrame (geo binFrame) 0 (bound (geoCtx binFrame)) binFrame ∧
     binFrame.geo.binMode = true ∧
     (let subs := List.flatMap (fun i => subTris (rasterIn (bound (geoCtx binFrame)) binFrame) (256 * 0 + i)) (List.range (min 256 (drawnTris (bound (geoCtx binFrame)) binFrame - 256 * 0))); let r := drainWrites 0 (1024 * (bound (geoCtx binFrame)).pool) (List.flatMap (subWrites binFrame.config) subs) binFrame.geo 0; r.2.1 = []) ∧
     (let e := tgetD binFrame.geo.fes 0 { }; e.groups = [some 0])) := by
  (repeat' (first | apply And.intro | apply InFrame.mk)) <;> decide +kernel
/-- A context whose pool grows by a chunk. -/
def growingCtx : Ctx := { geoCtx binFrame with growing := some 1 }
/-- A pass whose groups are all set up. -/
def doneGeo : GeoState := { phase := .running }
def doneFrame : Frame := geoFrame (geoCfg []) doneGeo
def doneU : Frame := { geoFrame (geoCfg []) doneGeo with kind := .u }
theorem witness_Geometry_on :
    (liveCtx (onHead growingCtx head0 1000) 0 = some (bound growingCtx) ∧ (onHead growingCtx head0 1000).fw.switching = false ∧
     (bound growingCtx).growing = some 1) ∧
    (InFrame (geo doneFrame) 0 (bound (geoCtx doneFrame)) doneFrame ∧ doneFrame.geo.phase = GeoPhase.running ∧ doneFrame.geo.binned = false ∧
     feDone (geo doneFrame) 0 doneFrame = true ∧ doneFrame.geo.latches = []) ∧
    (InFrame (geo doneU) 0 (bound (geoCtx doneU)) doneU ∧ doneU.geo.phase = GeoPhase.running ∧ doneU.geo.binned = false ∧
     feDone (geo doneU) 0 doneU = true ∧ doneU.geo.latches = []) ∧
    (InFrame (geo doneFrame) 0 (bound (geoCtx doneFrame)) doneFrame ∧ hasMeshPass doneFrame = true ∧ doneFrame.geo.phase = GeoPhase.running ∧
     doneFrame.geo.splat = false ∧
     ((splatted (bound (geoCtx doneFrame)) doneFrame).all fun b => (Option.map (fun b => b.decoded.isSome) b).getD false) = true) := by
  (repeat' (first | apply And.intro | apply InFrame.mk)) <;> decide +kernel
/-- A batch of one fragment of the triangle, at pixel 3, of a front end in immediate mode. -/
def batch0 : Batch := { sub := sub0, bin := 0, px := [3] }
def batchFe : FrontEnd := { batches := [batch0] }
def batchGeo (o : List (Nat × Nat)) : GeoState := { phase := .running, binMode := false, owners := o, fes := [(0, batchFe)] }
def batchFrame (c : Bytes) (o : List (Nat × Nat)) : Frame := { geoFrame c (batchGeo o) with image := some 1 }
def imageCtx (f : Frame) : Ctx := { geoCtx f with image := some 1 }
def onImage (f : Frame) : State := withImage (onHead (imageCtx f) head0 1000000)
theorem witness_Geometry_batches :
    (InFrame (geo (batchFrame immediateCfg [])) 0 (bound (geoCtx (batchFrame immediateCfg []))) (batchFrame immediateCfg []) ∧
     tget (batchFrame immediateCfg []).geo.fes 0 = some batchFe ∧ batchFe.batches = [batch0] ∧
     (batchFrame immediateCfg []).geo.phase = GeoPhase.running ∧ (batchFrame immediateCfg []).geo.binMode = false ∧
     (coreOf (geo (batchFrame immediateCfg [])) 1).mode = CoreMode.running ∧
     (tget (batchFrame immediateCfg []).geo.owners batch0.bin = some 1 ∨ tget (batchFrame immediateCfg []).geo.owners batch0.bin = none ∧ (batchFrame
       immediateCfg []).group.testBit 1 = true) ∧
     blendKernel (geo (batchFrame immediateCfg [])) (bound (geoCtx (batchFrame immediateCfg []))) (batchFrame immediateCfg []) = none) ∧
    (InFrame (geo (batchFrame immediateCfg [(0, 1)])) 0 (bound (geoCtx (batchFrame immediateCfg [(0, 1)]))) (batchFrame immediateCfg [(0, 1)]) ∧
     tget (batchFrame immediateCfg [(0, 1)]).geo.fes 0 = some batchFe ∧ batchFe.batches = [batch0] ∧
     (batchFrame immediateCfg [(0, 1)]).geo.phase = GeoPhase.running ∧ (batchFrame immediateCfg [(0, 1)]).geo.binMode = false ∧
     (coreOf (geo (batchFrame immediateCfg [(0, 1)])) 1).mode = CoreMode.running ∧
     (tget (batchFrame immediateCfg [(0, 1)]).geo.owners batch0.bin = some 1 ∨ tget (batchFrame immediateCfg [(0, 1)]).geo.owners batch0.bin = none ∧
       (batchFrame immediateCfg [(0, 1)]).group.testBit 1 = true) ∧
     blendKernel (geo (batchFrame immediateCfg [(0, 1)])) (bound (geoCtx (batchFrame immediateCfg [(0, 1)]))) (batchFrame immediateCfg [(0, 1)]) = none) := by
  (repeat' (first | apply And.intro | apply InFrame.mk)) <;> decide +kernel
/-- The same with the image's kernel 0 as BLEND kernel. -/
def blendFrame : Frame := batchFrame (geoCfg [(0x003, 1, 0x10), (0x040, 2, 0)]) []
def blend0 : Nat × Nat × KernelRec := (blendKernel (onImage blendFrame) (bound (imageCtx blendFrame)) blendFrame).get (by decide +kernel)
theorem witness_Geometry_blend :
    InFrame (onImage blendFrame) 0 (bound (imageCtx blendFrame)) blendFrame ∧ tget blendFrame.geo.fes 0 = some batchFe ∧
    batchFe.batches = [batch0] ∧ blendFrame.geo.phase = GeoPhase.running ∧ blendFrame.geo.binMode = false ∧
    (coreOf (onImage blendFrame) 1).mode = CoreMode.running ∧
    (tget blendFrame.geo.owners batch0.bin = some 1 ∨ tget blendFrame.geo.owners batch0.bin = none ∧ blendFrame.group.testBit 1 = true) ∧
    blendKernel (onImage blendFrame) (bound (imageCtx blendFrame)) blendFrame = some blend0 ∧ batch0.sub.occluder = false ∧
    roomFor (onImage blendFrame) 1 1 blend0.2.2.vregs (cdiv blend0.2.2.store 4096) = true := by
  (repeat' (first | apply And.intro | apply InFrame.mk)) <;> decide +kernel
/-- A frame whose rays can be cast, with its hierarchy present or gone, and with them cast. -/
def rayGeo (r : List Nat) : GeoState := { phase := .running, binned := true, binsDone := [0], splat := true, rays := r }
def rayFrame (r : List Nat) : Frame := { geoFrame (geoCfg []) (rayGeo r) with hier := some (0, 1, 1) }
def hierRec : Hier := { gen := 1, base := 12 * 2 ^ 18, bytes := hier0 }
def rayCtx (r : List Nat) (hits : Bool) : Ctx := { geoCtx (rayFrame r) with hiers := if hits then [(1, hierRec)] else [] }
def rayTask : Task := { kind := .ray 0, slot := 0, frame := some 0, started := true }
def rayS (r : List Nat) (hits : Bool) : State := { onHead (rayCtx r hits) head0 1000 with tasks := [(0, rayTask)] }
theorem witness_RaysAndHierarchies_run :
    (InFrame (rayS [] false) 0 (bound (rayCtx [] false)) (rayFrame []) ∧
     taskOf (rayS [] false) 0 (rayFrame []) (TaskKind.ray 0) = some (0, rayTask) ∧ rayTask.started = true ∧ 0 ∉ (rayFrame []).geo.rays ∧
     rayReady (rayFrame []) 0 = true ∧
     (frameHier (bound (rayCtx [] false)) (rayFrame []) = none ∨ rtuList (rayS [] false) (bound (rayCtx [] false)).ward (rayFrame []) ≠ []) ∧
     (let rays := match frameHier (bound (rayCtx [] false)) (rayFrame []) with | some h => castRays (rayS [] false) 0 (bound (rayCtx [] false)) (rayFrame []) h 0 | none => []; ∀ (h : Hier), frameHier (bound (rayCtx [] false)) (rayFrame []) = some h → rays = [] ∨ poisonIn (wardOf (rayS [] false) (bound (rayCtx [] false)).ward) h.base (List.length h.bytes) = none)) ∧
    (InFrame (rayS [] true) 0 (bound (rayCtx [] true)) (rayFrame []) ∧
     taskOf (rayS [] true) 0 (rayFrame []) (TaskKind.ray 0) = some (0, rayTask) ∧ rayTask.started = true ∧ 0 ∉ (rayFrame []).geo.rays ∧
     rayReady (rayFrame []) 0 = true ∧
     (frameHier (bound (rayCtx [] true)) (rayFrame []) = none ∨ rtuList (rayS [] true) (bound (rayCtx [] true)).ward (rayFrame []) ≠ []) ∧
     (let rays := match frameHier (bound (rayCtx [] true)) (rayFrame []) with | some h => castRays (rayS [] true) 0 (bound (rayCtx [] true)) (rayFrame []) h 0 | none => []; ∀ (h : Hier), frameHier (bound (rayCtx [] true)) (rayFrame []) = some h → rays = [] ∨ poisonIn (wardOf (rayS [] true) (bound (rayCtx [] true)).ward) h.base (List.length h.bytes) = none)) := by
  (repeat' (first | apply And.intro | apply InFrame.mk)) <;> first | (intro rays h e; exact absurd e (by decide +kernel)) | (intro rays h e; obtain rfl := (Option.some.inj e).symm; decide +kernel) | decide +kernel
theorem witness_RaysAndHierarchies_end :
    InFrame (rayS [0] true) 0 (bound (rayCtx [0] true)) (rayFrame [0]) ∧
    taskOf (rayS [0] true) 0 (rayFrame [0]) (TaskKind.ray 0) = some (0, rayTask) ∧ 0 ∈ (rayFrame [0]).geo.rays ∧
    taskOf (rayS [0] true) 0 (rayFrame [0]) (TaskKind.hit 0) = none := by
  (repeat' (first | apply And.intro | apply InFrame.mk)) <;> decide +kernel
/-- HIER_LOAD of 112 bytes, HIER_UNLOAD of handle 1 at generation 1. -/
def loadHier (b : Bytes) (x : Ctx) : State := { ctxCmd (entry 0x26 0x40000 0 [112]) (hostAt b) x with wards := upWard.wards }
def unloadHier (x : Ctx) : State := { ctxCmd (entry 0x27 0 0 [1, 1]) [] x with wards := upWard.wards }
def fullCtx : Ctx := { ctx0 with hiers := (List.range 4).map (fun i => (i + 1, {})) }
def hier1 : Hier := { gen := 1 }
def heldCtx : Ctx := { ctx0 with hiers := [(1, hier1)] }
def usedCtx : Ctx := { inFrame { frame0 with hier := some (0, 1, 1) } ctx0 with hiers := [(1, hier1)] }
theorem witness_RaysAndHierarchies_load :
    ((loadHier (List.drop 1 hier0) ctx0).fns.length = 16 ∧ (loadHier (List.drop 1 hier0) ctx0).wards.length = 16 ∧
     readyCmd (RingRef.ctx 0) 0 38 (loadHier (List.drop 1 hier0) ctx0) = some (cmd0 (entry 38 262144 0 [112])) ∧
     ctxOf (loadHier (List.drop 1 hier0) ctx0) 0 = some (inFlight (entry 38 262144 0 [112]) ctx0) ∧
     (inFlight (entry 38 262144 0 [112]) ctx0).ward < 16 ∧
     (let len := entArg (cmd0 (entry 38 262144 0 [112])).entry 0; let b := hostRead (loadHier (List.drop 1 hier0) ctx0) (entAddr0 (cmd0 (entry 38 262144 0 [112])).entry) len; hierReject b len = some 1)) ∧
    ((loadHier hier0 fullCtx).fns.length = 16 ∧ (loadHier hier0 fullCtx).wards.length = 16 ∧
     readyCmd (RingRef.ctx 0) 0 38 (loadHier hier0 fullCtx) = some (cmd0 (entry 38 262144 0 [112])) ∧
     ctxOf (loadHier hier0 fullCtx) 0 = some (inFlight (entry 38 262144 0 [112]) fullCtx) ∧
     (inFlight (entry 38 262144 0 [112]) fullCtx).ward < 16 ∧ 4 ≤ List.length (inFlight (entry 38 262144 0 [112]) fullCtx).hiers ∧
     (let len := entArg (cmd0 (entry 38 262144 0 [112])).entry 0; let b := hostRead (loadHier hier0 fullCtx) (entAddr0 (cmd0 (entry 38 262144 0 [112])).entry) len; hierReject b len = none)) ∧
    ((loadHier hier0 ctx0).fns.length = 16 ∧ (loadHier hier0 ctx0).wards.length = 16 ∧
     readyCmd (RingRef.ctx 0) 0 38 (loadHier hier0 ctx0) = some (cmd0 (entry 38 262144 0 [112])) ∧
     ctxOf (loadHier hier0 ctx0) 0 = some (inFlight (entry 38 262144 0 [112]) ctx0) ∧ (inFlight (entry 38 262144 0 [112]) ctx0).ward < 16 ∧
     List.length (inFlight (entry 38 262144 0 [112]) ctx0).hiers < 4 ∧
     (let len := entArg (cmd0 (entry 38 262144 0 [112])).entry 0; cdiv len (2 ^ 18) ≤ freeGranules (wardOf (loadHier hier0 ctx0) (inFlight (entry 38 262144 0 [112]) ctx0).ward) ∧ let b := hostRead (loadHier hier0 ctx0) (entAddr0 (cmd0 (entry 38 262144 0 [112])).entry) len; hierReject b len = none)) ∧
    (readyCmd (RingRef.ctx 0) 0 39 (unloadHier heldCtx) = some (cmd0 (entry 39 0 0 [1, 1])) ∧
     ctxOf (unloadHier heldCtx) 0 = some (inFlight (entry 39 0 0 [1, 1]) heldCtx) ∧ (cmd0 (entry 39 0 0 [1, 1])).started = false ∧
     hier1.gen = entArg (cmd0 (entry 39 0 0 [1, 1])).entry 1 ∧ (∀ e ∈ (inFlight (entry 39 0 0 [1, 1]) heldCtx).hiers, e.2.unloading = false) ∧
     (∀ d ∈ (inFlight (entry 39 0 0 [1, 1]) heldCtx).ring.cmds, entOpcode d.entry = 39 → d.started = false) ∧
     (let h := entArg (cmd0 (entry 39 0 0 [1, 1])).entry 0; tget (inFlight (entry 39 0 0 [1, 1]) heldCtx).hiers h = some hier1 ∧ let used := Option.map (fun r => (r.2.1, r.2.2)) ((inFlight (entry 39 0 0 [1, 1]) heldCtx).fr.cur.bind fun x => x.hier) = some (h, hier1.gen); ¬used)) ∧
    (readyCmd (RingRef.ctx 0) 0 39 (unloadHier usedCtx) = some (cmd0 (entry 39 0 0 [1, 1])) ∧
     ctxOf (unloadHier usedCtx) 0 = some (inFlight (entry 39 0 0 [1, 1]) usedCtx) ∧ (cmd0 (entry 39 0 0 [1, 1])).started = false ∧
     hier1.gen = entArg (cmd0 (entry 39 0 0 [1, 1])).entry 1 ∧ (∀ e ∈ (inFlight (entry 39 0 0 [1, 1]) usedCtx).hiers, e.2.unloading = false) ∧
     (∀ d ∈ (inFlight (entry 39 0 0 [1, 1]) usedCtx).ring.cmds, entOpcode d.entry = 39 → d.started = false) ∧
     (let h := entArg (cmd0 (entry 39 0 0 [1, 1])).entry 0; tget (inFlight (entry 39 0 0 [1, 1]) usedCtx).hiers h = some hier1 ∧ let used := Option.map (fun r => (r.2.1, r.2.2)) ((inFlight (entry 39 0 0 [1, 1]) usedCtx).fr.cur.bind fun x => x.hier) = some (h, hier1.gen); used)) ∧
    (readyCmd (RingRef.ctx 0) 0 39 (unloadHier ctx0) = some (cmd0 (entry 39 0 0 [1, 1])) ∧
     ctxOf (unloadHier ctx0) 0 = some (inFlight (entry 39 0 0 [1, 1]) ctx0) ∧ (cmd0 (entry 39 0 0 [1, 1])).started = false ∧
     tget (inFlight (entry 39 0 0 [1, 1]) ctx0).hiers (entArg (cmd0 (entry 39 0 0 [1, 1])).entry 0) = none) := by
  (repeat' (first | apply And.intro | apply InFrame.mk)) <;> decide +kernel

/-! ## Tasks and the Detent -/
/-- A tile task of frame 0 on a core, started or not. -/
def tileOn (core : Nat) (st : Bool) : Task := { kind := .tile 0, slot := 0, frame := some 0, lc := true, started := st, core := core }
def doneGeo3 : GeoState := { phase := .complete, latches := [0], binned := true }
def frame3 : Frame := { geoFrame (geoCfg []) doneGeo3 with rung := 3, startRung := 3 }
/-- Tasks and cores in a frame whose geometry pass is complete. -/
def tasksS (t : List (Nat × Task)) (c : List (Nat × Core)) : State := { geo frame3 with tasks := t, nextTask := 9, cores := c }
theorem witness_Tasks_start :
    (1 < coreCount (tasksS [(4, tileOn 1 false)] []) ∧ (coreOf (tasksS [(4, tileOn 1 false)] []) 1).mode = CoreMode.running ∧
     (firstFit (tasksS [(4, tileOn 1 false)] []) 1 1 fun _ => true) = some (4, tileOn 1 false)) ∧
    (1 < coreCount (tasksS [(4, tileOn 2 false)] []) ∧ wardOfCore (tasksS [(4, tileOn 2 false)] []) 1 = some 0 ∧
     (coreOf (tasksS [(4, tileOn 2 false)] []) 1).mode = CoreMode.running ∧ (coreOf (tasksS [(4, tileOn 2 false)] []) 1).stealWait = none ∧
     (firstFit (tasksS [(4, tileOn 2 false)] []) 1 1 fun _ => true) = none ∧
     (let near := nearCores (tasksS [(4, tileOn 2 false)] []) 0 1; List.findIdx? (fun v => (firstFit (tasksS [(4, tileOn 2 false)] []) v 1 (mayTake (tasksS [(4, tileOn 2 false)] []) 0 1)).isSome) near = some 1 ∧ firstFit (tasksS [(4, tileOn 2 false)] []) (near.getD 1 0) 1 (mayTake (tasksS [(4, tileOn 2 false)] []) 0 1) = some (4, tileOn 2 false))) ∧
    (1 < coreCount (tasksS [] []) ∧ wardOfCore (tasksS [] []) 1 = some 0 ∧ (coreOf (tasksS [] []) 1).mode = CoreMode.running ∧
     (coreOf (tasksS [] []) 1).stealWait = none ∧ (firstFit (tasksS [] []) 1 1 fun _ => true) = none ∧
     (let near := nearCores (tasksS [] []) 0 1; ∀ v ∈ near, firstFit (tasksS [] []) v 1 (mayTake (tasksS [] []) 0 1) = none)) ∧
    ((coreOf (tasksS [] [(0, { stealWait := some 0 })]) 0).stealWait = some 0 ∧
     0 + 2048 * coreDiv (corePoint (tasksS [] [(0, { stealWait := some 0 })]) 0) ≤ (tasksS [] [(0, { stealWait := some 0 })]).now) := by
  (repeat' (first | apply And.intro | apply InFrame.mk)) <;> decide +kernel
theorem witness_Tasks_quanta :
    (0 < coreCount (tasksS [(4, tileOn 0 true)] [(0, { owner := some 3 })]) ∧
     wardOfCore (tasksS [(4, tileOn 0 true)] [(0, { owner := some 3 })]) 0 = some 0 ∧
     (let c := coreOf (tasksS [(4, tileOn 0 true)] [(0, { owner := some 3 })]) 0; match c.owner with | some k => (∀ t ∈ startedOn (tasksS [(4, tileOn 0 true)] [(0, { owner := some 3 })]) 0, t.2.slot ≠ k) ∨ c.quantumStart + quantumOf (tasksS [(4, tileOn 0 true)] [(0, { owner := some 3 })]) 0 ≤ (tasksS [(4, tileOn 0 true)] [(0, { owner := some 3 })]).now | none => c.quantumStart + quantumOf (tasksS [(4, tileOn 0 true)] [(0, { owner := some 3 })]) 0 ≤ (tasksS [(4, tileOn 0 true)] [(0, { owner := some 3 })]).now ∧ (nextOwner (tasksS [(4, tileOn 0 true)] [(0, { owner := some 3 })]) 0 c.lastOwner).isSome = true)) ∧
    (0 < coreCount (tasksS [(4, tileOn 0 true)] [(0, { owner := some 0 })]) ∧
     wardOfCore (tasksS [(4, tileOn 0 true)] [(0, { owner := some 0 })]) 0 = some 0 ∧
     (let c := coreOf (tasksS [(4, tileOn 0 true)] [(0, { owner := some 0 })]) 0; match c.owner with | some k => (∀ t ∈ startedOn (tasksS [(4, tileOn 0 true)] [(0, { owner := some 0 })]) 0, t.2.slot ≠ k) ∨ c.quantumStart + quantumOf (tasksS [(4, tileOn 0 true)] [(0, { owner := some 0 })]) 0 ≤ (tasksS [(4, tileOn 0 true)] [(0, { owner := some 0 })]).now | none => c.quantumStart + quantumOf (tasksS [(4, tileOn 0 true)] [(0, { owner := some 0 })]) 0 ≤ (tasksS [(4, tileOn 0 true)] [(0, { owner := some 0 })]).now ∧ (nextOwner (tasksS [(4, tileOn 0 true)] [(0, { owner := some 0 })]) 0 c.lastOwner).isSome = true)) ∧
    (0 < coreCount (tasksS [(4, tileOn 0 true)] []) ∧ wardOfCore (tasksS [(4, tileOn 0 true)] []) 0 = some 0 ∧
     (let c := coreOf (tasksS [(4, tileOn 0 true)] []) 0; match c.owner with | some k => (∀ t ∈ startedOn (tasksS [(4, tileOn 0 true)] []) 0, t.2.slot ≠ k) ∨ c.quantumStart + quantumOf (tasksS [(4, tileOn 0 true)] []) 0 ≤ (tasksS [(4, tileOn 0 true)] []).now | none => c.quantumStart + quantumOf (tasksS [(4, tileOn 0 true)] []) 0 ≤ (tasksS [(4, tileOn 0 true)] []).now ∧ (nextOwner (tasksS [(4, tileOn 0 true)] []) 0 c.lastOwner).isSome = true)) := by
  exact ⟨⟨by decide +kernel, by decide +kernel, Or.inl (by decide +kernel)⟩, ⟨by decide +kernel, by decide +kernel, Or.inr (by decide +kernel)⟩, ⟨by decide +kernel, by decide +kernel, And.intro (by decide +kernel) (by decide +kernel)⟩⟩
/-- A run of the image's auxiliary network, its stripe's task on core 2, and a detection job of it. -/
def auxRun0 : NetRun := { image := 1 }
def stripeTask : Task := { kind := .stripe 1 0, started := true, core := 2 }
def stripeCtx : Ctx := { ctx0 with image := some 1, runs := [(1, auxRun0)] }
def job0 : DetectJob := { unit := some 1, net := 1, layer := 1 }
def lostJob : DetectJob := { unit := some 1, net := 1, layer := 1, gen := 4 }
def stripeS (d : List DetectJob) : State := { withImage (onHead stripeCtx head0 1000) with tasks := [(7, stripeTask)], detect := d }
theorem witness_Tasks_stripes :
    (tget (stripeS []).tasks 7 = some stripeTask ∧ stripeTask.kind = TaskKind.stripe 1 0 ∧ stripeTask.core = 2 ∧ stripeTask.started = true ∧
     allEnded (stripeS []) 7 stripeTask = true ∧ ctxOf (stripeS []) stripeTask.slot = some (bound stripeCtx) ∧
     runOfStripe (stripeS []) (bound stripeCtx) 1 = some (1, auxRun0) ∧ tget (bound stripeCtx).runs 1 = some auxRun0 ∧
     (wardOf (stripeS []) (bound stripeCtx).ward).poisoned = [] ∧
     (let e := runEnv (bound stripeCtx) (runImage (stripeS []) (bound stripeCtx).ward auxRun0) auxRun0; layerSkew e (e.ls.getD 1 { }) = none)) ∧
    (List.find? (fun d => d.unit == some 1) (stripeS [lostJob]).detect = some lostJob ∧
     namedCtx (stripeS [lostJob]) lostJob.slot lostJob.gen = none) ∧
    (List.find? (fun d => d.unit == some 1) (stripeS [job0]).detect = some job0 ∧
     namedCtx (stripeS [job0]) job0.slot job0.gen = some (bound stripeCtx) ∧ tget (bound stripeCtx).runs job0.net = some auxRun0 ∧
     (wardOf (stripeS [job0]) (bound stripeCtx).ward).poisoned = [] ∧
     (let e := runEnv (bound stripeCtx) (runImage (stripeS [job0]) (bound stripeCtx).ward auxRun0) auxRun0; layerSkew e (e.ls.getD job0.layer { }) = none)) := by
  (repeat' (first | apply And.intro | apply InFrame.mk)) <;> decide +kernel
/-- A frame under a head whose comparator is set, with tasks. -/
def detentS (f : Frame) (c : Nat) (t : List (Nat × Task)) : State := { onHead (geoCtx f) { head0 with detentAt := some c } 1000000 with tasks := t }
def dueFrame (k : Kind) (d : Nat) (c : Int) : Frame := { frame3 with checkDue := true, rung := 0, kind := k, deadline := d, cutoff := c }
def heldFrame : Frame := { frame3 with checkDue := true, held := some ([], []) }
def lateFrame : Frame := { frame3 with checkDue := true, tiles := [{ started := true }] }
def period0 : Nat := 6553600000
def captureOn : Task := { tileOn 0 false with kind := .capture 0 }
theorem witness_Detent :
    (InFrame (detentS heldFrame 5 [(4, tileOn 0 false)]) 0 (bound (geoCtx heldFrame)) heldFrame ∧
     (heldFrame.checkDue = true ∨ heldFrame.seen ≠ detentTerms (detentS heldFrame 5 [(4, tileOn 0 false)]) 0 (bound (geoCtx heldFrame)) heldFrame) ∧
     (heldFrame.held.isSome = true ∨ cbReplay heldFrame.config = true ∨ heldFrame.cutoff < ↑heldFrame.t0 ∨ unstarted (detentS heldFrame 5 [(4, tileOn 0
       false)]) 0 heldFrame = 0)) ∧
    (InFrame (detentS lateFrame 5 []) 0 (bound (geoCtx lateFrame)) lateFrame ∧
     (lateFrame.checkDue = true ∨ lateFrame.seen ≠ detentTerms (detentS lateFrame 5 []) 0 (bound (geoCtx lateFrame)) lateFrame) ∧
     (lateFrame.held.isSome = true ∨ cbReplay lateFrame.config = true ∨ lateFrame.cutoff < ↑lateFrame.t0 ∨ unstarted (detentS lateFrame 5 []) 0 lateFrame =
       0)) ∧
    (InFrame (detentS (dueFrame Kind.a (20 * period0) 100000000) 5 [(4, tileOn 0 false), (5, captureOn)]) 0 (bound (geoCtx (dueFrame Kind.a (20 * period0)
       100000000))) (dueFrame Kind.a (20 * period0) 100000000) ∧
     ((dueFrame Kind.a (20 * period0) 100000000).checkDue = true ∨ (dueFrame Kind.a (20 * period0) 100000000).seen ≠ detentTerms (detentS (dueFrame Kind.a
       (20 * period0) 100000000) 5 [(4, tileOn 0 false), (5, captureOn)]) 0 (bound (geoCtx (dueFrame Kind.a (20 * period0) 100000000))) (dueFrame Kind.a
       (20 * period0) 100000000)) ∧
     (dueFrame Kind.a (20 * period0) 100000000).held = none ∧ cbReplay (dueFrame Kind.a (20 * period0) 100000000).config = false ∧
     ↑(dueFrame Kind.a (20 * period0) 100000000).t0 ≤ (dueFrame Kind.a (20 * period0) 100000000).cutoff ∧
     unstarted (detentS (dueFrame Kind.a (20 * period0) 100000000) 5 [(4, tileOn 0 false), (5, captureOn)]) 0 (dueFrame Kind.a (20 * period0) 100000000) ≠
       0 ∧
     (dueFrame Kind.a (20 * period0) 100000000).kind = Kind.a ∧
     (let z := Q.ofInt (lastStart (detentS (dueFrame Kind.a (20 * period0) 100000000) 5 [(4, tileOn 0 false), (5, captureOn)]) (dueFrame Kind.a (20 * period0) 100000000)); let p3 := projection (detentS (dueFrame Kind.a (20 * period0) 100000000) 5 [(4, tileOn 0 false), (5, captureOn)]) 0 (bound (geoCtx (dueFrame Kind.a (20 * period0) 100000000))) (dueFrame Kind.a (20 * period0) 100000000) 3; Q.lt z p3 = false)) ∧
    (InFrame (detentS (dueFrame Kind.a (period0 / 4) 1000000) 5 [(4, tileOn 0 false), (5, captureOn)]) 0 (bound (geoCtx (dueFrame Kind.a (period0 / 4)
       1000000))) (dueFrame Kind.a (period0 / 4) 1000000) ∧
     ((dueFrame Kind.a (period0 / 4) 1000000).checkDue = true ∨ (dueFrame Kind.a (period0 / 4) 1000000).seen ≠ detentTerms (detentS (dueFrame Kind.a
       (period0 / 4) 1000000) 5 [(4, tileOn 0 false), (5, captureOn)]) 0 (bound (geoCtx (dueFrame Kind.a (period0 / 4) 1000000))) (dueFrame Kind.a (period0
       / 4) 1000000)) ∧
     (dueFrame Kind.a (period0 / 4) 1000000).held = none ∧ cbReplay (dueFrame Kind.a (period0 / 4) 1000000).config = false ∧
     ↑(dueFrame Kind.a (period0 / 4) 1000000).t0 ≤ (dueFrame Kind.a (period0 / 4) 1000000).cutoff ∧
     unstarted (detentS (dueFrame Kind.a (period0 / 4) 1000000) 5 [(4, tileOn 0 false), (5, captureOn)]) 0 (dueFrame Kind.a (period0 / 4) 1000000) ≠ 0 ∧
     (dueFrame Kind.a (period0 / 4) 1000000).kind = Kind.a ∧
     (let z := Q.ofInt (lastStart (detentS (dueFrame Kind.a (period0 / 4) 1000000) 5 [(4, tileOn 0 false), (5, captureOn)]) (dueFrame Kind.a (period0 / 4) 1000000)); let p3 := projection (detentS (dueFrame Kind.a (period0 / 4) 1000000) 5 [(4, tileOn 0 false), (5, captureOn)]) 0 (bound (geoCtx (dueFrame Kind.a (period0 / 4) 1000000))) (dueFrame Kind.a (period0 / 4) 1000000) 3; Q.lt z p3 = true)) ∧
    (InFrame (detentS (dueFrame Kind.g (20 * period0) 4000000) 5 [(4, tileOn 0 false)]) 0 (bound (geoCtx (dueFrame Kind.g (20 * period0) 4000000)))
       (dueFrame Kind.g (20 * period0) 4000000) ∧
     ((dueFrame Kind.g (20 * period0) 4000000).checkDue = true ∨ (dueFrame Kind.g (20 * period0) 4000000).seen ≠ detentTerms (detentS (dueFrame Kind.g (20
       * period0) 4000000) 5 [(4, tileOn 0 false)]) 0 (bound (geoCtx (dueFrame Kind.g (20 * period0) 4000000))) (dueFrame Kind.g (20 * period0) 4000000)) ∧
     (dueFrame Kind.g (20 * period0) 4000000).held = none ∧ cbReplay (dueFrame Kind.g (20 * period0) 4000000).config = false ∧
     ↑(dueFrame Kind.g (20 * period0) 4000000).t0 ≤ (dueFrame Kind.g (20 * period0) 4000000).cutoff ∧
     unstarted (detentS (dueFrame Kind.g (20 * period0) 4000000) 5 [(4, tileOn 0 false)]) 0 (dueFrame Kind.g (20 * period0) 4000000) ≠ 0 ∧
     (dueFrame Kind.g (20 * period0) 4000000).kind ≠ Kind.a ∧ (dueFrame Kind.g (20 * period0) 4000000).geo.waitsGrant = false ∧
     (dueFrame Kind.g (20 * period0) 4000000).geo.grantedAt ≠ some (detentS (dueFrame Kind.g (20 * period0) 4000000) 5 [(4, tileOn 0 false)]).now) ∧
    ((headOf (detentS frame3 1000000 []) 0).detentAt = some 1000000 ∧ 1000000 ≤ (detentS frame3 1000000 []).now) := by
  (repeat' (first | apply And.intro | apply InFrame.mk)) <;> decide +kernel

/-! ## Adaptation -/
/-- A context block with adaptation on, and an adapter set of 32 elements. -/
def adCfg (l : List (Nat × Nat × Nat)) : Bytes := tinyCfg ([(0x040, 2, 0xFFFF), (0x042, 2, 0xFFFF), (0x070, 1, 1), (0x071, 1, 1), (0x072, 1, 1), (0x073, 1, 1),
  (0x076, 2, 1), (0x080, 2, 1), (0x084, 4, 1), (0x088, 4, 0x38000000), (0x094, 4, 0x38000000)] ++ l)
def ad0 : Adapt := { block := adCfg [], live := List.replicate 32 1, master := List.replicate 32 2, store := [{ valid := true }], committed := 1 }
def adCtx (a : Adapt) (c : Bytes) (b : Bool) : Ctx := { ctx0 with cfg := c, cfgInForce := c, image := if b then some 1 else none, ad := a }
def adS (a : Adapt) (c : Bytes) : State := withImage (onHead (adCtx a c true) head0 1000)
/-- A command of the context, in the ward with every unit and the image. -/
def adCmd (e : Bytes) (a : Adapt) (c : Bytes) (b : Bool) : State :=
  withImage { ctxCmd e (hostAt (List.replicate 64 5)) (adCtx a c b) with wards := upWard.wards }
/-- An A frame with a capture begun. -/
def captureFrame : Frame := { frame0 with image := some 1, config := adCfg [], kind := .a, own := some 0, base := some 0 }
def captureCtx : Ctx := { inFrame captureFrame (bound (adCtx { ad0 with staging := [{ frame := 0, left := 1 }] } (adCfg []) true)) with ing := { sets := [full 0 .a, {}, {}, {}] } }
def captureTask0 : Task := { kind := .capture 0, frame := some 0, started := true }
def captureS : State := { adS ad0 (adCfg []) with ctxs := [(0, captureCtx)], tasks := [(3, captureTask0)] }
theorem witness_Adaptation_capture :
    liveCtx captureS 0 = some captureCtx ∧
    List.find? (fun t => t.2.slot == 0 && t.2.kind == TaskKind.capture 0 && t.2.started) captureS.tasks = some (3, captureTask0) ∧
    anchorFrame captureCtx (captureTask0.frame.getD 0) = some captureFrame ∧ frameImage captureS captureCtx captureFrame = some smallImage := by
  (repeat' (first | apply And.intro | apply InFrame.mk)) <;> first | exact @rfl (Option Ctx) _ | exact @rfl (Option Cmd) _ | exact @rfl (Option Image) _ | exact @rfl (Option Bytes) _ | decide +kernel
def bindE : Bytes := entry 0x25 0 0 [1]
/-- Blocks that the image does not satisfy: a rank that it has not, and a HIT kernel that it has not. -/
def badRank : Bytes := adCfg [(0x074, 1, 3)]
def bindWhy : Nat × Nat × Nat := (bindBad (adCmd bindE ad0 badRank false) 0 (inFlight bindE (adCtx ad0 badRank false)) smallImage).get (by decide +kernel)
theorem witness_Adaptation_bind :
    (readyCmd (RingRef.ctx 0) 0 37 (adCmd bindE ad0 badRank false) = some (cmd0 bindE) ∧
     ctxOf (adCmd bindE ad0 badRank false) 0 = some (inFlight bindE (adCtx ad0 badRank false)) ∧
     bindBad (adCmd bindE ad0 badRank false) 0 (inFlight bindE (adCtx ad0 badRank false)) imageRec.bytes = some (bindWhy.1, bindWhy.2.1, bindWhy.2.2) ∧
     (let h := entArg (cmd0 bindE).entry 0; tget (wardOf (adCmd bindE ad0 badRank false) (inFlight bindE (adCtx ad0 badRank false)).ward).images h = some imageRec)) ∧
    (readyCmd (RingRef.ctx 0) 0 37 (adCmd bindE ad0 (adCfg []) false) = some (cmd0 bindE) ∧
     ctxOf (adCmd bindE ad0 (adCfg []) false) 0 = some (inFlight bindE (adCtx ad0 (adCfg []) false)) ∧
     bindBad (adCmd bindE ad0 (adCfg []) false) 0 (inFlight bindE (adCtx ad0 (adCfg []) false)) imageRec.bytes = none ∧
     (let h := entArg (cmd0 bindE).entry 0; tget (wardOf (adCmd bindE ad0 (adCfg []) false) (inFlight bindE (adCtx ad0 (adCfg []) false)).ward).images h = some imageRec)) := by
  (repeat' (first | apply And.intro | apply InFrame.mk)) <;> first | exact @rfl (Option Ctx) _ | exact @rfl (Option Cmd) _ | exact @rfl (Option Image) _ | exact @rfl (Option Bytes) _ | decide +kernel
def steppingAd : Adapt := { ad0 with running := some { block := adCfg [], short := true } }
def pausedCfg : Bytes := adCfg [(0x070, 1, 0)]
theorem witness_Adaptation_boundary :
    (liveCtx (adS ad0 (adCfg [])) 0 = some (bound (adCtx ad0 (adCfg []) true)) ∧
     ((bound (adCtx ad0 (adCfg []) true)).ad.running = none ∨ cbAdapt (bound (adCtx ad0 (adCfg []) true)).cfg = false)) ∧
    (liveCtx (adS steppingAd pausedCfg) 0 = some (bound (adCtx steppingAd pausedCfg true)) ∧
     ((bound (adCtx steppingAd pausedCfg true)).ad.running = none ∨ cbAdapt (bound (adCtx steppingAd pausedCfg true)).cfg = false)) := by
  (repeat' (first | apply And.intro | apply InFrame.mk)) <;> first | exact @rfl (Option Ctx) _ | exact @rfl (Option Cmd) _ | exact @rfl (Option Image) _ | exact @rfl (Option Bytes) _ | decide +kernel
def trainNet0 : Nat × Net := (trainNet smallImage (adCfg [])).get (by decide +kernel)
def trainTask : Task := { kind := .train 0, started := true }
def steppingS : State := { adS steppingAd (adCfg []) with tasks := [(1, trainTask)] }
def step0 : Step := { block := adCfg [], short := true }
theorem steppingS_tasks : ∀ t ∈ steppingS.tasks, t.2.started = true ∧ allEnded steppingS t.1 t.2 = true := by decide +kernel
theorem witness_Adaptation_step :
    liveCtx steppingS 0 = some (bound (adCtx steppingAd (adCfg []) true)) ∧ (bound (adCtx steppingAd (adCfg []) true)).ad.running = some step0 ∧
    cbAdapt (bound (adCtx steppingAd (adCfg []) true)).cfg = true ∧
    boundImage steppingS (bound (adCtx steppingAd (adCfg []) true)) = some smallImage ∧
    trainNet smallImage step0.block = some (trainNet0.1, trainNet0.2) ∧
    (wardOf steppingS (bound (adCtx steppingAd (adCfg []) true)).ward).poisoned = [] ∧
    (∀ t ∈ steppingS.tasks, t.2.slot = 0 → (∃ j, t.2.kind = TaskKind.train j) → t.2.started = true ∧ allEnded steppingS t.1 t.2 = true) := by
  exact ⟨by decide +kernel, by decide +kernel, by decide +kernel, by decide +kernel, by decide +kernel, by decide +kernel, fun t h _ _ => steppingS_tasks t h⟩
def replayCfg : Bytes := adCfg [(3, 1, 0x40)]
def pubE : Bytes := entry 0x30 0 0 []
def setE (k : Nat) : Bytes := entry 0x31 0x40000 0 [k]
def getE : Bytes := entry 0x32 0x40000 0 []
theorem witness_Adaptation_commands :
    (ctxOf (adCmd pubE ad0 (adCfg []) false) 0 = some (inFlight pubE (adCtx ad0 (adCfg []) false)) ∧
     readyCmd (RingRef.ctx 0) 0 48 (adCmd pubE ad0 (adCfg []) false) = some (cmd0 pubE) ∧ (cmd0 pubE).started = false ∧
     (inFlight pubE (adCtx ad0 (adCfg []) false)).image = none) ∧
    (ctxOf (adCmd pubE ad0 replayCfg true) 0 = some (inFlight pubE (adCtx ad0 replayCfg true)) ∧
     readyCmd (RingRef.ctx 0) 0 48 (adCmd pubE ad0 replayCfg true) = some (cmd0 pubE) ∧ (cmd0 pubE).started = false ∧
     (inFlight pubE (adCtx ad0 replayCfg true)).image ≠ none ∧ cbReplay (inFlight pubE (adCtx ad0 replayCfg true)).cfgInForce = true) ∧
    (ctxOf (adCmd pubE ad0 (adCfg []) true) 0 = some (inFlight pubE (adCtx ad0 (adCfg []) true)) ∧
     readyCmd (RingRef.ctx 0) 0 48 (adCmd pubE ad0 (adCfg []) true) = some (cmd0 pubE) ∧ (cmd0 pubE).started = false ∧
     (inFlight pubE (adCtx ad0 (adCfg []) true)).image ≠ none ∧ cbReplay (inFlight pubE (adCtx ad0 (adCfg []) true)).cfgInForce = false) ∧
    (ctxOf (adCmd (setE 63) ad0 (adCfg []) true) 0 = some (inFlight (setE 63) (adCtx ad0 (adCfg []) true)) ∧
     readyCmd (RingRef.ctx 0) 0 49 (adCmd (setE 63) ad0 (adCfg []) true) = some (cmd0 (setE 63)) ∧ (cmd0 (setE 63)).started = false ∧
     boundImage (adCmd (setE 63) ad0 (adCfg []) true) (inFlight (setE 63) (adCtx ad0 (adCfg []) true)) = some smallImage ∧
     (let k := totalElements smallImage; k = 0 ∨ entArg (cmd0 (setE 63)).entry 0 ≠ 2 * k)) ∧
    (ctxOf (adCmd (setE 64) ad0 (adCfg []) true) 0 = some (inFlight (setE 64) (adCtx ad0 (adCfg []) true)) ∧
     readyCmd (RingRef.ctx 0) 0 49 (adCmd (setE 64) ad0 (adCfg []) true) = some (cmd0 (setE 64)) ∧ (cmd0 (setE 64)).started = false ∧
     boundImage (adCmd (setE 64) ad0 (adCfg []) true) (inFlight (setE 64) (adCtx ad0 (adCfg []) true)) = some smallImage ∧
     (let k := totalElements smallImage; k ≠ 0 ∧ entArg (cmd0 (setE 64)).entry 0 = 2 * k)) ∧
    (ctxOf (adCmd getE ad0 (adCfg []) false) 0 = some (inFlight getE (adCtx ad0 (adCfg []) false)) ∧
     readyCmd (RingRef.ctx 0) 0 50 (adCmd getE ad0 (adCfg []) false) = some (cmd0 getE) ∧
     (inFlight getE (adCtx ad0 (adCfg []) false)).image = none) ∧
    (ctxOf (adCmd getE ad0 (adCfg []) true) 0 = some (inFlight getE (adCtx ad0 (adCfg []) true)) ∧
     readyCmd (RingRef.ctx 0) 0 50 (adCmd getE ad0 (adCfg []) true) = some (cmd0 getE) ∧ (inFlight getE (adCtx ad0 (adCfg []) true)).image ≠ none) ∧
    (ctxOf (adCmd (entry 51 0 0 []) ad0 (adCfg []) true) 0 = some (inFlight (entry 51 0 0 []) (adCtx ad0 (adCfg []) true)) ∧
     readyCmd (RingRef.ctx 0) 0 51 (adCmd (entry 51 0 0 []) ad0 (adCfg []) true) = some (cmd0 (entry 51 0 0 []))) ∧
    (ctxOf (adCmd (entry 52 0 0 [1]) ad0 (adCfg []) true) 0 = some (inFlight (entry 52 0 0 [1]) (adCtx ad0 (adCfg []) true)) ∧
     readyCmd (RingRef.ctx 0) 0 52 (adCmd (entry 52 0 0 [1]) ad0 (adCfg []) true) = some (cmd0 (entry 52 0 0 [1])) ∧
     (cmd0 (entry 52 0 0 [1])).started = false) := by
  (repeat' (first | apply And.intro | apply InFrame.mk)) <;> first | exact @rfl (Option Ctx) _ | exact @rfl (Option Cmd) _ | exact @rfl (Option Image) _ | exact @rfl (Option Bytes) _ | decide +kernel
/-! ## Frame graphs -/
/-- A run of a graph in ward 0 with the image, and engines. -/
def graphS (n : Nat) (g : GraphRun) (e : List (Nat × FlowEngine)) : State := { withImage (onHead (graphCtx n g) head0 1000000) with engines := e }
def flowRun : GraphRun := run0 flowGraph 16
def begunRun : GraphRun := { run0 flowGraph 16 with begun := [0] }
def bandRun : GraphRun := { begunRun with work := [(0, 64)] }
def endedRun : GraphRun := { begunRun with ended := [0] }
def auxRun1 : GraphRun := run0 auxGraph 4
def auxEnded : GraphRun := { auxRun1 with begun := [0], ended := [0] }
def noRuns : List GraphRun := []
def slice0 : Slice := {}
def busyEngine : FlowEngine := { job := some slice0, since := 1000000 - 800 }
theorem witness_Vision_run :
    (liveCtx (graphS 16 flowRun []) 0 = some (bound (graphCtx 16 flowRun)) ∧
     ((bound (graphCtx 16 flowRun)).graphRuns = noRuns ++ flowRun :: noRuns ∧ ∀ q ∈ noRuns ++ noRuns, q.id ≠ flowRun.id) ∧
     (∀ q ∈ noRuns, nodeCanStart (graphS 16 flowRun []) 0 (bound (graphCtx 16 flowRun)) 0 q = false) ∧ 0 < fgNodes flowRun.graph ∧
     0 ∉ flowRun.begun ∧ (nodeInputs flowRun.graph 0).all (bufferReady (graphS 16 flowRun []) 0 (bound (graphCtx 16 flowRun)) flowRun) = true ∧
     fld (fgNode flowRun.graph 0) 0 1 ≠ 3) ∧
    (liveCtx (graphS 4 auxRun1 []) 0 = some (bound (graphCtx 4 auxRun1)) ∧
     ((bound (graphCtx 4 auxRun1)).graphRuns = noRuns ++ auxRun1 :: noRuns ∧ ∀ q ∈ noRuns ++ noRuns, q.id ≠ auxRun1.id) ∧
     (∀ q ∈ noRuns, nodeCanStart (graphS 4 auxRun1 []) 0 (bound (graphCtx 4 auxRun1)) 0 q = false) ∧ 0 < fgNodes auxRun1.graph ∧
     0 ∉ auxRun1.begun ∧ (nodeInputs auxRun1.graph 0).all (bufferReady (graphS 4 auxRun1 []) 0 (bound (graphCtx 4 auxRun1)) auxRun1) = true ∧
     fld (fgNode auxRun1.graph 0) 0 1 = 3 ∧ (bound (graphCtx 4 auxRun1)).image = some 1 ∧
     tget (wardOf (graphS 4 auxRun1 []) (bound (graphCtx 4 auxRun1)).ward).images 1 = some imageRec ∧
     (let net := fld (fgNode auxRun1.graph 0) 16 4; ∀ q ∈ (bound (graphCtx 4 auxRun1)).runs, q.1 = net → q.2.running = false)) ∧
    (0 < 8 ∧ nextSlice (graphS 16 begunRun []) 0 = some (slice0, true) ∧ (let eng := engineOf (graphS 16 begunRun []) 0; eng.job = none)) ∧
    (0 < 8 ∧ namedCtx (graphS 16 begunRun [(0, busyEngine)]) slice0.slot slice0.gen = some (bound (graphCtx 16 begunRun)) ∧
     ((bound (graphCtx 16 begunRun)).graphRuns = noRuns ++ begunRun :: noRuns ∧ ∀ q ∈ noRuns ++ noRuns, q.id ≠ begunRun.id) ∧
     begunRun.id = slice0.run ∧ (wardOf (graphS 16 begunRun [(0, busyEngine)]) (bound (graphCtx 16 begunRun)).ward).poisoned = [] ∧
     (let eng := engineOf (graphS 16 begunRun [(0, busyEngine)]) 0; eng.job = some slice0 ∧ (graphS 16 begunRun [(0, busyEngine)]).now < eng.since + 8 * 4096 + 8)) ∧
    (liveCtx (graphS 16 bandRun []) 0 = some (bound (graphCtx 16 bandRun)) ∧
     ((bound (graphCtx 16 bandRun)).graphRuns = noRuns ++ bandRun :: noRuns ∧ ∀ q ∈ noRuns ++ noRuns, q.id ≠ bandRun.id) ∧
     (∀ q ∈ noRuns, bandCan 0 0 q = false) ∧ 0 ∈ bandRun.begun ∧ bandWork bandRun.graph 0 0 ≤ tgetD bandRun.work 0 0 ∧
     (let nd := fgNode bandRun.graph 0; (fld nd 0 1 = 1 ∨ fld nd 0 1 = 2) ∧ let out := fld nd 3 1; 0 < bandsOf bandRun.graph out ∧ (tgetD bandRun.latches out 0).testBit 0 = false)) ∧
    (liveCtx (graphS 16 endedRun []) 0 = some (bound (graphCtx 16 endedRun)) ∧
     ((bound (graphCtx 16 endedRun)).graphRuns = noRuns ++ endedRun :: noRuns ∧ ∀ q ∈ noRuns ++ noRuns, q.id ≠ endedRun.id) ∧
     (∀ q ∈ noRuns, graphEnded q = false) ∧ (∀ k < fgNodes endedRun.graph, k ∈ endedRun.ended) ∧ hasHost endedRun.graph = false) ∧
    (liveCtx (graphS 4 auxEnded []) 0 = some (bound (graphCtx 4 auxEnded)) ∧
     ((bound (graphCtx 4 auxEnded)).graphRuns = noRuns ++ auxEnded :: noRuns ∧ ∀ q ∈ noRuns ++ noRuns, q.id ≠ auxEnded.id) ∧
     (∀ q ∈ noRuns, graphEnded q = false) ∧ (∀ k < fgNodes auxEnded.graph, k ∈ auxEnded.ended) ∧ hasHost auxEnded.graph = true) := by
  (repeat' (first | apply And.intro | apply InFrame.mk)) <;> first | decide +kernel | exact @rfl (Option Ctx) _ | simp [RunAmong]
/-- A command of a context with the graph's run, with host bytes. -/
def graphCmd (e : Bytes) (m : Bytes) (x : Ctx) : State :=
  withImage { ctxCmd e (hostAt m) x with wards := up.wards.set 0 { cfg := wardCfg, key := some 0, allocs := [{ base := 1, count := 1, kind := .general 0 }] } }
def loadE (k : Nat) : Bytes := entry 0x28 0x40000 0 [k]
def flowOnCtx : Ctx := { graphCtx 16 flowRun with cfg := squareCfg 16 [(3, 1, 2)] }
def noFlowS : State := { graphCmd (loadE 192) flowGraph (graphCtx 16 flowRun) with wards := up.wards }
def graphWhy : Nat × Nat := (graphReject (graphCmd (loadE 128) flowGraph (graphCtx 16 flowRun)) (inFlight (loadE 128) (graphCtx 16 flowRun))
  (hostRead (graphCmd (loadE 128) flowGraph (graphCtx 16 flowRun)) 0x40000 128) 128).get (by decide +kernel)
def dropE : Bytes := entry 0x29 0 0 []
def loadedCtx : Ctx := { graphCtx 16 flowRun with graph := some flowGraph }
def auxE (n : Nat) : Bytes := entry 0x2C (2 ^ 18) (2 ^ 18 + 1024) [n]
theorem witness_Vision_commands :
    (ctxOf (graphCmd (loadE 192) flowGraph flowOnCtx) 0 = some (inFlight (loadE 192) flowOnCtx) ∧
     readyCmd (RingRef.ctx 0) 0 40 (graphCmd (loadE 192) flowGraph flowOnCtx) = some (cmd0 (loadE 192)) ∧
     cbFlow (inFlight (loadE 192) flowOnCtx).cfg = true) ∧
    (ctxOf noFlowS 0 = some (inFlight (loadE 192) (graphCtx 16 flowRun)) ∧ readyCmd (RingRef.ctx 0) 0 40 noFlowS = some (cmd0 (loadE 192)) ∧
     cbFlow (inFlight (loadE 192) (graphCtx 16 flowRun)).cfg = false ∧
     (wardOf noFlowS (inFlight (loadE 192) (graphCtx 16 flowRun)).ward).cfg.flowMask = 0) ∧
    (ctxOf (graphCmd (loadE 128) flowGraph (graphCtx 16 flowRun)) 0 = some (inFlight (loadE 128) (graphCtx 16 flowRun)) ∧
     readyCmd (RingRef.ctx 0) 0 40 (graphCmd (loadE 128) flowGraph (graphCtx 16 flowRun)) = some (cmd0 (loadE 128)) ∧
     cbFlow (inFlight (loadE 128) (graphCtx 16 flowRun)).cfg = false ∧
     (wardOf (graphCmd (loadE 128) flowGraph (graphCtx 16 flowRun)) (inFlight (loadE 128) (graphCtx 16 flowRun)).ward).cfg.flowMask ≠ 0 ∧
     (let len := entArg (cmd0 (loadE 128)).entry 0; let g := hostRead (graphCmd (loadE 128) flowGraph (graphCtx 16 flowRun)) (entAddr0 (cmd0 (loadE 128)).entry) len; graphReject (graphCmd (loadE 128) flowGraph (graphCtx 16 flowRun)) (inFlight (loadE 128) (graphCtx 16 flowRun)) g len = some (graphWhy.1, graphWhy.2))) ∧
    (ctxOf (graphCmd (loadE 192) flowGraph (graphCtx 16 flowRun)) 0 = some (inFlight (loadE 192) (graphCtx 16 flowRun)) ∧
     readyCmd (RingRef.ctx 0) 0 40 (graphCmd (loadE 192) flowGraph (graphCtx 16 flowRun)) = some (cmd0 (loadE 192)) ∧
     cbFlow (inFlight (loadE 192) (graphCtx 16 flowRun)).cfg = false ∧
     (wardOf (graphCmd (loadE 192) flowGraph (graphCtx 16 flowRun)) (inFlight (loadE 192) (graphCtx 16 flowRun)).ward).cfg.flowMask ≠ 0 ∧
     (let len := entArg (cmd0 (loadE 192)).entry 0; let g := hostRead (graphCmd (loadE 192) flowGraph (graphCtx 16 flowRun)) (entAddr0 (cmd0 (loadE 192)).entry) len; graphReject (graphCmd (loadE 192) flowGraph (graphCtx 16 flowRun)) (inFlight (loadE 192) (graphCtx 16 flowRun)) g len = none ∧ latchesUsed (graphCmd (loadE 192) flowGraph (graphCtx 16 flowRun)) (inFlight (loadE 192) (graphCtx 16 flowRun)).ward - (inFlight (loadE 192) (graphCtx 16 flowRun)).bandLatches + graphLatches g ≤ 64 * (wardOf (graphCmd (loadE 192) flowGraph (graphCtx 16 flowRun)) (inFlight (loadE 192) (graphCtx 16 flowRun)).ward).cfg.latches)) ∧
    (ctxOf (graphCmd dropE [] (graphCtx 16 flowRun)) 0 = some (inFlight dropE (graphCtx 16 flowRun)) ∧
     readyCmd (RingRef.ctx 0) 0 41 (graphCmd dropE [] (graphCtx 16 flowRun)) = some (cmd0 dropE) ∧
     (inFlight dropE (graphCtx 16 flowRun)).graph = none) ∧
    (ctxOf (graphCmd dropE [] loadedCtx) 0 = some (inFlight dropE loadedCtx) ∧
     readyCmd (RingRef.ctx 0) 0 41 (graphCmd dropE [] loadedCtx) = some (cmd0 dropE) ∧ (inFlight dropE loadedCtx).graph ≠ none) ∧
    (ctxOf (graphCmd (auxE 1) [] ctx0) 0 = some (inFlight (auxE 1) ctx0) ∧
     readyCmd (RingRef.ctx 0) 0 44 (graphCmd (auxE 1) [] ctx0) = some (cmd0 (auxE 1)) ∧ (cmd0 (auxE 1)).started = false ∧
     (inFlight (auxE 1) ctx0).image = none ∧
     (let net := entArg (cmd0 (auxE 1)).entry 0; ∀ r ∈ (inFlight (auxE 1) ctx0).runs, r.1 = net → r.2.running = false)) ∧
    (ctxOf (graphCmd (auxE 0) [] (graphCtx 16 flowRun)) 0 = some (inFlight (auxE 0) (graphCtx 16 flowRun)) ∧
     readyCmd (RingRef.ctx 0) 0 44 (graphCmd (auxE 0) [] (graphCtx 16 flowRun)) = some (cmd0 (auxE 0)) ∧ (cmd0 (auxE 0)).started = false ∧
     (inFlight (auxE 0) (graphCtx 16 flowRun)).image = some 1 ∧
     tget (wardOf (graphCmd (auxE 0) [] (graphCtx 16 flowRun)) (inFlight (auxE 0) (graphCtx 16 flowRun)).ward).images 1 = some imageRec ∧
     (let net := entArg (cmd0 (auxE 0)).entry 0; (∀ r ∈ (inFlight (auxE 0) (graphCtx 16 flowRun)).runs, r.1 = net → r.2.running = false) ∧ let rec_ := (netsOf imageRec.bytes).getD net { }; let ts := tensorsOf imageRec.bytes; let ls := List.take rec_.count (List.drop rec_.first (layersOf imageRec.bytes)); let ins := Option.map streamBytes (List.find? (fun t => t.src == 64) (List.map (tn ts) (List.flatMap layerReads ls))); let outs := Option.map streamBytes (List.find? (fun t => t.src == 65) (List.map (fun l => tn ts l.out) ls)); let ok := net < (netsOf imageRec.bytes).length ∧ rec_.role = 4 ∧ ctxMapped (wardOf (graphCmd (auxE 0) [] (graphCtx 16 flowRun)) (inFlight (auxE 0) (graphCtx 16 flowRun)).ward) 0 (entAddr0 (cmd0 (auxE 0)).entry) (ins.getD 0) false = true ∧ ctxMapped (wardOf (graphCmd (auxE 0) [] (graphCtx 16 flowRun)) (inFlight (auxE 0) (graphCtx 16 flowRun)).ward) 0 (entAddr1 (cmd0 (auxE 0)).entry) (outs.getD 0) true = true; ¬ok)) ∧
    (ctxOf (graphCmd (auxE 1) [] (graphCtx 16 flowRun)) 0 = some (inFlight (auxE 1) (graphCtx 16 flowRun)) ∧
     readyCmd (RingRef.ctx 0) 0 44 (graphCmd (auxE 1) [] (graphCtx 16 flowRun)) = some (cmd0 (auxE 1)) ∧ (cmd0 (auxE 1)).started = false ∧
     (inFlight (auxE 1) (graphCtx 16 flowRun)).image = some 1 ∧
     tget (wardOf (graphCmd (auxE 1) [] (graphCtx 16 flowRun)) (inFlight (auxE 1) (graphCtx 16 flowRun)).ward).images 1 = some imageRec ∧
     (let net := entArg (cmd0 (auxE 1)).entry 0; (∀ r ∈ (inFlight (auxE 1) (graphCtx 16 flowRun)).runs, r.1 = net → r.2.running = false) ∧ let rec_ := (netsOf imageRec.bytes).getD net { }; let ts := tensorsOf imageRec.bytes; let ls := List.take rec_.count (List.drop rec_.first (layersOf imageRec.bytes)); let ins := Option.map streamBytes (List.find? (fun t => t.src == 64) (List.map (tn ts) (List.flatMap layerReads ls))); let outs := Option.map streamBytes (List.find? (fun t => t.src == 65) (List.map (fun l => tn ts l.out) ls)); let ok := net < (netsOf imageRec.bytes).length ∧ rec_.role = 4 ∧ ctxMapped (wardOf (graphCmd (auxE 1) [] (graphCtx 16 flowRun)) (inFlight (auxE 1) (graphCtx 16 flowRun)).ward) 0 (entAddr0 (cmd0 (auxE 1)).entry) (ins.getD 0) false = true ∧ ctxMapped (wardOf (graphCmd (auxE 1) [] (graphCtx 16 flowRun)) (inFlight (auxE 1) (graphCtx 16 flowRun)).ward) 0 (entAddr1 (cmd0 (auxE 1)).entry) (outs.getD 0) true = true; ok)) := by
  (repeat' (first | apply And.intro | apply InFrame.mk)) <;> first | exact @rfl (Option Ctx) _ | exact @rfl (Option Cmd) _ | exact @rfl (Option Image) _ | exact @rfl (Option Bytes) _ | decide +kernel

/-! ## Records and replay -/
/-- A context with a ready frame and its frame-information entries at 0x70000. -/
def readyOf (c : Bytes) (fresh : Bool) : Ready := { ready0 with frame := { frame0 with config := c, fresh := fresh } }
def recordCtx (l : List (Nat × Nat × Nat)) (fresh : Bool) : Ctx :=
  { tinyCtx with cfg := tinyCfg ([(0x0C0, 8, 0x70000), (0x0C8, 4, 2)] ++ l), fr := { ready := [readyOf (tinyCfg l) fresh] } }
theorem witness_Records_digest :
    (liveCtx (onHead (recordCtx [] false) head0 1000) 0 = some (bound (recordCtx [] false)) ∧
     List.find? (fun r => !r.digested) (bound (recordCtx [] false)).fr.ready = some (readyOf (tinyCfg []) false)) ∧
    (liveCtx (onHead (recordCtx [(3, 1, 32)] true) head0 1000) 0 = some (bound (recordCtx [(3, 1, 32)] true)) ∧
     List.find? (fun r => !r.digested) (bound (recordCtx [(3, 1, 32)] true)).fr.ready = some (readyOf (tinyCfg [(3, 1, 32)]) true) ∧
     (onHead (recordCtx [(3, 1, 32)] true) head0 1000).fns.length = 16 ∧ (onHead (recordCtx [(3, 1, 32)] true) head0 1000).wards.length = 16) := by
  (repeat' (first | apply And.intro | apply InFrame.mk)) <;> decide +kernel
/-- A REPLAY_FRAME of frame 3, in a context that has started frames or holds replays, over a rung map. -/
def replayCtx (on : Bool) (l : Option Nat) (k : Nat) : Ctx :=
  { recordCtx (if on then [(3, 1, 0x40)] else []) false with fr := { lastStarted := l, held := List.replicate k (100, [], [], 0) } }
def replayE : Bytes := entry 0x36 0x40000 0 [3]
def replayS (x : Ctx) (m : Bytes) : State := ctxCmd replayE (memAt (0x40000 + 128) m) x
theorem witness_Records_replay :
    (readyCmd (RingRef.ctx 0) 0 54 (replayS (replayCtx false none 0) []) = some (cmd0 replayE) ∧
     ctxOf (replayS (replayCtx false none 0) []) 0 = some (inFlight replayE (replayCtx false none 0)) ∧
     cbReplay (inFlight replayE (replayCtx false none 0)).cfg = false) ∧
    (readyCmd (RingRef.ctx 0) 0 54 (replayS (replayCtx true (some 5) 0) []) = some (cmd0 replayE) ∧
     ctxOf (replayS (replayCtx true (some 5) 0) []) 0 = some (inFlight replayE (replayCtx true (some 5) 0)) ∧
     cbReplay (inFlight replayE (replayCtx true (some 5) 0)).cfg = true ∧
     (let f := entArg (cmd0 replayE).entry 0; let late := (∃ l, (inFlight replayE (replayCtx true (some 5) 0)).fr.lastStarted = some l ∧ later 32 f l = false) ∨ ∃ h ∈ (inFlight replayE (replayCtx true (some 5) 0)).fr.held, h.1 = f; late)) ∧
    (readyCmd (RingRef.ctx 0) 0 54 (replayS (replayCtx true none 0) [255]) = some (cmd0 replayE) ∧
     ctxOf (replayS (replayCtx true none 0) [255]) 0 = some (inFlight replayE (replayCtx true none 0)) ∧
     cbReplay (inFlight replayE (replayCtx true none 0)).cfg = true ∧
     (let e := hostRead (replayS (replayCtx true none 0) [255]) (entAddr0 (cmd0 replayE).entry) (infoBytes (inFlight replayE (replayCtx true none 0)).cfg); let m := slice e 128 (mapBytes (inFlight replayE (replayCtx true none 0)).cfg); mapTailOk (inFlight replayE (replayCtx true none 0)).cfg m = false) ∧
     (let f := entArg (cmd0 replayE).entry 0; let late := (∃ l, (inFlight replayE (replayCtx true none 0)).fr.lastStarted = some l ∧ later 32 f l = false) ∨ ∃ h ∈ (inFlight replayE (replayCtx true none 0)).fr.held, h.1 = f; ¬late)) ∧
    (readyCmd (RingRef.ctx 0) 0 54 (replayS (replayCtx true none 64) []) = some (cmd0 replayE) ∧
     ctxOf (replayS (replayCtx true none 64) []) 0 = some (inFlight replayE (replayCtx true none 64)) ∧
     cbReplay (inFlight replayE (replayCtx true none 64)).cfg = true ∧ 64 ≤ (inFlight replayE (replayCtx true none 64)).fr.held.length ∧
     (let e := hostRead (replayS (replayCtx true none 64) []) (entAddr0 (cmd0 replayE).entry) (infoBytes (inFlight replayE (replayCtx true none 64)).cfg); let m := slice e 128 (mapBytes (inFlight replayE (replayCtx true none 64)).cfg); mapTailOk (inFlight replayE (replayCtx true none 64)).cfg m = true) ∧
     (let f := entArg (cmd0 replayE).entry 0; let late := (∃ l, (inFlight replayE (replayCtx true none 64)).fr.lastStarted = some l ∧ later 32 f l = false) ∨ ∃ h ∈ (inFlight replayE (replayCtx true none 64)).fr.held, h.1 = f; ¬late)) ∧
    (readyCmd (RingRef.ctx 0) 0 54 (replayS (replayCtx true none 63) []) = some (cmd0 replayE) ∧
     ctxOf (replayS (replayCtx true none 63) []) 0 = some (inFlight replayE (replayCtx true none 63)) ∧
     cbReplay (inFlight replayE (replayCtx true none 63)).cfg = true ∧ (inFlight replayE (replayCtx true none 63)).fr.held.length < 64 ∧
     (let e := hostRead (replayS (replayCtx true none 63) []) (entAddr0 (cmd0 replayE).entry) (infoBytes (inFlight replayE (replayCtx true none 63)).cfg); let m := slice e 128 (mapBytes (inFlight replayE (replayCtx true none 63)).cfg); mapTailOk (inFlight replayE (replayCtx true none 63)).cfg m = true) ∧
     (let f := entArg (cmd0 replayE).entry 0; let late := (∃ l, (inFlight replayE (replayCtx true none 63)).fr.lastStarted = some l ∧ later 32 f l = false) ∨ ∃ h ∈ (inFlight replayE (replayCtx true none 63)).fr.held, h.1 = f; ¬late)) := by
  (repeat' (first | apply And.intro | apply InFrame.mk)) <;> decide +kernel
/-! ## Heads -/
/-- The PF's ward holds the heads 0, 1 and 1024 to 1026's three places; HEAD_CONFIG of a block. -/
def headsS : State := { upWard with wards := up.wards.set 0 { cfg := { wardCfg with headMask := 7 * 2 ^ 1024 + 3 }, key := some 0 } }
def headE : Bytes := entry 8 0x40000 0 [128]
def headCmd (b : Bytes) (s : State) : State := admCmd headE (hostAt b) s
def virtualHead (l : List (Nat × Nat × Nat)) : Head := { cfg := some (virtualBlk l) }
def bound66 : Head := { virtualHead [(8, 2, 66)] with ctx := some 0 }
def externalS : State := { headsS with perf := { externalOn := true } }
def genlockBlk : Bytes := virtualBlk [(3, 1, 2)]
theorem witness_Heads_config :
    (readyCmd (RingRef.admin 0) 0 8 (headCmd (virtualBlk [(0, 1, 2)]) headsS) = some (cmd0 headE) ∧ (cmd0 headE).started = false ∧
     (let b := hostRead (headCmd (virtualBlk [(0, 1, 2)]) headsS) (entAddr0 (cmd0 headE).entry) 128; let head := hbHead b; headBlockBad (headInWard (headCmd (virtualBlk [(0, 1, 2)]) headsS) 0 head) b = some 0)) ∧
    (readyCmd (RingRef.admin 0) 0 8 (headCmd (virtualBlk []) (withHead 0 bound66 headsS)) = some (cmd0 headE) ∧ (cmd0 headE).started = false ∧
     (let b := hostRead (headCmd (virtualBlk []) (withHead 0 bound66 headsS)) (entAddr0 (cmd0 headE).entry) 128; noAdaptive (headCmd (virtualBlk []) (withHead 0 bound66 headsS)) b = false ∧ let head := hbHead b; headBlockBad (headInWard (headCmd (virtualBlk []) (withHead 0 bound66 headsS)) 0 head) b = none ∧ let h := headOf (headCmd (virtualBlk []) (withHead 0 bound66 headsS)) head; fixedChanged h b = true)) ∧
    (readyCmd (RingRef.admin 0) 0 8 (headCmd genlockBlk externalS) = some (cmd0 headE) ∧ (cmd0 headE).started = false ∧
     (let b := hostRead (headCmd genlockBlk externalS) (entAddr0 (cmd0 headE).entry) 128; noAdaptive (headCmd genlockBlk externalS) b = false ∧ headConflict (headCmd genlockBlk externalS) b = some ((headConflict (headCmd genlockBlk externalS) genlockBlk).getD 0) ∧ let head := hbHead b; headBlockBad (headInWard (headCmd genlockBlk externalS) 0 head) b = none ∧ let h := headOf (headCmd genlockBlk externalS) head; fixedChanged h b = false)) ∧
    (readyCmd (RingRef.admin 0) 0 8 (headCmd (virtualBlk []) headsS) = some (cmd0 headE) ∧ (cmd0 headE).started = false ∧
     (let b := hostRead (headCmd (virtualBlk []) headsS) (entAddr0 (cmd0 headE).entry) 128; noAdaptive (headCmd (virtualBlk []) headsS) b = false ∧ headConflict (headCmd (virtualBlk []) headsS) b = none ∧ let head := hbHead b; headBlockBad (headInWard (headCmd (virtualBlk []) headsS) 0 head) b = none ∧ head < 1024 ∧ let h := headOf (headCmd (virtualBlk []) headsS) head; fixedChanged h b = false)) ∧
    (readyCmd (RingRef.admin 0) 0 8 (headCmd (virtualBlk []) (withHead 0 (virtualHead []) headsS)) = some (cmd0 headE) ∧
     (cmd0 headE).started = false ∧
     (let b := hostRead (headCmd (virtualBlk []) (withHead 0 (virtualHead []) headsS)) (entAddr0 (cmd0 headE).entry) 128; noAdaptive (headCmd (virtualBlk []) (withHead 0 (virtualHead []) headsS)) b = false ∧ headConflict (headCmd (virtualBlk []) (withHead 0 (virtualHead []) headsS)) b = none ∧ let head := hbHead b; headBlockBad (headInWard (headCmd (virtualBlk []) (withHead 0 (virtualHead []) headsS)) 0 head) b = none ∧ head < 1024 ∧ let h := headOf (headCmd (virtualBlk []) (withHead 0 (virtualHead []) headsS)) head; fixedChanged h b = false)) ∧
    (readyCmd (RingRef.admin 0) 0 8 (headCmd (physicalBlk []) headsS) = some (cmd0 headE) ∧ (cmd0 headE).started = false ∧ 0 < 16 ∧
     (headCmd (physicalBlk []) headsS).fns.length = 16 ∧ (headCmd (physicalBlk []) headsS).wards.length = 16 ∧
     (let b := hostRead (headCmd (physicalBlk []) headsS) (entAddr0 (cmd0 headE).entry) 128; noAdaptive (headCmd (physicalBlk []) headsS) b = false ∧ headConflict (headCmd (physicalBlk []) headsS) b = none ∧ let head := hbHead b; headBlockBad (headInWard (headCmd (physicalBlk []) headsS) 0 head) b = none ∧ 1024 ≤ head ∧ let h := headOf (headCmd (physicalBlk []) headsS) head; fixedChanged h b = false)) := by
  (repeat' (first | apply And.intro | apply InFrame.mk)) <;> decide +kernel
/-- A VRR window on a physical head, in a state whose next free value is v. -/
def vrrBlk : Bytes := physicalBlk [(3, 1, 1), (0x28, 8, 6553600000), (0x30, 8, 6553600000)]
theorem witness_Heads_sink (v : Config.freeWord 0 = 0) :
    readyCmd (RingRef.admin 0) 0 8 (headCmd vrrBlk headsS) = some (cmd0 headE) ∧ (cmd0 headE).started = false ∧
    (let b := hostRead (headCmd vrrBlk headsS) (entAddr0 (cmd0 headE).entry) 128; noAdaptive (headCmd vrrBlk headsS) b = true ∧ let head := hbHead b; headBlockBad (headInWard (headCmd vrrBlk headsS) 0 head) b = none) := by
  refine ⟨by decide +kernel, by decide +kernel, ?_, by decide +kernel⟩; show noAdaptive _ _ = true; rewrite [noAdaptive, show (headCmd vrrBlk headsS).free = 0 by decide +kernel, v]; decide +kernel
/-- Head 1024's configuration in training. -/
def trainOf (b : Bytes) : Cmd := { cmd0 headE with started := true, block := b, aux := 1024 }
def trainCmd : Cmd := trainOf (physicalBlk [])
def genlockTrain : Cmd := trainOf (physicalBlk [(3, 1, 2)])
def trainingBy (c : Cmd) (h : Head) : State :=
  { withHead 1024 h headsS with fns := headsS.fns.set 0 { enabled := true, ring := { live := true, sqBase := 0x10000, cqBase := 0x20000, cmds := [c], nextSeq := 1, fetchHead := 1, tail := 1 } } }
def trainingS : Head → State := trainingBy trainCmd
def newHead : Head := {}
def physicalHead : Head := { cfg := some (physicalBlk []) }
def upHead : Head := { physicalHead with ctx := some 0, linkUp := true }
def goodLink : LinkResult := { ok := true, rate := 3, lanes := 4 }
def noLink : LinkResult := {}
def trainConflict : State := { trainingBy genlockTrain newHead with perf := { externalOn := true } }
def otherSize : Head := { cfg := some (physicalBlk [(8, 2, 66)]), ctx := some 0 }
theorem witness_Heads_refused :
    (keeperServes trainConflict = true ∧ trainingCmd trainConflict 1024 = some (0, genlockTrain) ∧
     cmdOf trainConflict (RingRef.admin 0) genlockTrain.seq = some genlockTrain ∧
     headConflict trainConflict genlockTrain.block = some ((headConflict trainConflict genlockTrain.block).getD 0)) ∧
    (keeperServes (trainingS otherSize) = true ∧ trainingCmd (trainingS otherSize) 1024 = some (0, trainCmd) ∧
     cmdOf (trainingS otherSize) (RingRef.admin 0) trainCmd.seq = some trainCmd ∧ headConflict (trainingS otherSize) trainCmd.block = none ∧
     (let h := headOf (trainingS otherSize) 1024; fixedChanged h trainCmd.block = true)) := by
  (repeat' (first | apply And.intro | apply InFrame.mk)) <;> decide +kernel
theorem witness_Heads_train :
    (keeperServes (trainingS newHead) = true ∧ trainingCmd (trainingS newHead) 1024 = some (0, trainCmd) ∧
     cmdOf (trainingS newHead) (RingRef.admin 0) trainCmd.seq = some trainCmd ∧ headConflict (trainingS newHead) trainCmd.block = none ∧
     goodLink.ok = true ∧ (let h := headOf (trainingS newHead) 1024; fixedChanged h trainCmd.block = false)) ∧
    (keeperServes (trainingS upHead) = true ∧ trainingCmd (trainingS upHead) 1024 = some (0, trainCmd) ∧
     cmdOf (trainingS upHead) (RingRef.admin 0) trainCmd.seq = some trainCmd ∧ headConflict (trainingS upHead) trainCmd.block = none ∧
     goodLink.ok = true ∧ (let h := headOf (trainingS upHead) 1024; fixedChanged h trainCmd.block = false)) ∧
    (keeperServes (trainingS physicalHead) = true ∧ trainingCmd (trainingS physicalHead) 1024 = some (0, trainCmd) ∧
     cmdOf (trainingS physicalHead) (RingRef.admin 0) trainCmd.seq = some trainCmd ∧
     headConflict (trainingS physicalHead) trainCmd.block = none ∧ noLink.ok = false ∧
     (let h := headOf (trainingS physicalHead) 1024; fixedChanged h trainCmd.block = false)) := by
  (repeat' (first | apply And.intro | apply InFrame.mk)) <;> decide +kernel
def queryE (h : Nat) : Bytes := entry 9 0x40000 0 [h]
def queryS (h : Nat) : State := admCmd (queryE h) [] headsS
def tapE (a : Nat) : Bytes := entry 0xA 0x40000 0 [a]
def tapS (a : Nat) (b : Bytes) (s : State) : State := admCmd (tapE a) (hostAt b) s
theorem witness_Heads_links :
    (1024 ≤ 1024 ∧ 1024 ≤ 1025 ∧ (headOf (withHead 1024 physicalHead headsS) 1024).cfg.isSome = true ∧
     (headOf (withHead 1024 physicalHead headsS) 1024).linkUp = false ∧ goodLink.ok = true) ∧
    (1024 ≤ 1025 ∧ 1025 ≤ 1025 ∧ (headOf (withHead 1025 physicalHead headsS) 1025).cfg.isSome = true ∧
     (headOf (withHead 1025 physicalHead headsS) 1025).linkUp = false ∧ noLink.ok = false) ∧
    ((headOf (withHead 1024 upHead headsS) 1024).linkUp = true) ∧
    (readyCmd (RingRef.admin 0) 0 9 (queryS 3) = some (cmd0 (queryE 3)) ∧
     (let head := entArg (cmd0 (queryE 3)).entry 0; headInWard (queryS 3) 0 head = false)) ∧
    (readyCmd (RingRef.admin 0) 0 9 (queryS 1024) = some (cmd0 (queryE 1024)) ∧ true = true ∧
     (let head := entArg (cmd0 (queryE 1024)).entry 0; headInWard (queryS 1024) 0 head = true ∧ 1024 ≤ head)) ∧
    (readyCmd (RingRef.admin 0) 0 9 (queryS 1024) = some (cmd0 (queryE 1024)) ∧
     (let head := entArg (cmd0 (queryE 1024)).entry 0; headInWard (queryS 1024) 0 head = true ∧ (false = false ∨ head < 1024))) ∧
    (readyCmd (RingRef.admin 0) 0 9 (queryS 1) = some (cmd0 (queryE 1)) ∧
     (let head := entArg (cmd0 (queryE 1)).entry 0; headInWard (queryS 1) 0 head = true ∧ (true = false ∨ head < 1024))) ∧
    (readyCmd (RingRef.admin 0) 0 10 (tapS 0 [] headsS) = some (cmd0 (tapE 0)) ∧ (let arg := entArg (cmd0 (tapE 0)).entry 0; arg < 2 ^ 31)) ∧
    (readyCmd (RingRef.admin 0) 0 10 (tapS (2 ^ 31 + 1024) [] headsS) = some (cmd0 (tapE (2 ^ 31 + 1024))) ∧
     (let arg := entArg (cmd0 (tapE (2 ^ 31 + 1024))).entry 0; 2 ^ 31 ≤ arg ∧ 1024 ≤ arg % 2048)) ∧
    (readyCmd (RingRef.admin 0) 0 10 (tapS (2 ^ 31 + 1023) (physicalBlk []) headsS) = some (cmd0 (tapE (2 ^ 31 + 1023))) ∧
     (let b := hostRead (tapS (2 ^ 31 + 1023) (physicalBlk []) headsS) (entAddr0 (cmd0 (tapE (2 ^ 31 + 1023))).entry) 128; (if hbHead b ≠ 1025 then some 4 else headBlockBad true b) = some 4) ∧
     (let arg := entArg (cmd0 (tapE (2 ^ 31 + 1023))).entry 0; 2 ^ 31 ≤ arg ∧ arg % 2048 < 1024)) ∧
    (readyCmd (RingRef.admin 0) 0 10 (tapS (2 ^ 31 + 1) (physicalBlk [(4, 2, 1025)]) (withHead 1025 physicalHead headsS)) = some (cmd0 (tapE (2 ^ 31 + 1)))
       ∧
     (headOf (tapS (2 ^ 31 + 1) (physicalBlk [(4, 2, 1025)]) (withHead 1025 physicalHead headsS)) 1025).cfg.isSome = true ∧
     (let b := hostRead (tapS (2 ^ 31 + 1) (physicalBlk [(4, 2, 1025)]) (withHead 1025 physicalHead headsS)) (entAddr0 (cmd0 (tapE (2 ^ 31 + 1))).entry) 128; hbHead b = 1025 ∧ headBlockBad true b = none) ∧
     (let arg := entArg (cmd0 (tapE (2 ^ 31 + 1))).entry 0; 2 ^ 31 ≤ arg ∧ arg % 2048 < 1024)) ∧
    (readyCmd (RingRef.admin 0) 0 10 (tapS (2 ^ 31 + 1) (physicalBlk [(4, 2, 1025)]) headsS) = some (cmd0 (tapE (2 ^ 31 + 1))) ∧
     (headOf (tapS (2 ^ 31 + 1) (physicalBlk [(4, 2, 1025)]) headsS) 1025).cfg = none ∧
     (let b := hostRead (tapS (2 ^ 31 + 1) (physicalBlk [(4, 2, 1025)]) headsS) (entAddr0 (cmd0 (tapE (2 ^ 31 + 1))).entry) 128; hbHead b = 1025 ∧ headBlockBad true b = none) ∧
     (let arg := entArg (cmd0 (tapE (2 ^ 31 + 1))).entry 0; 2 ^ 31 ≤ arg ∧ arg % 2048 < 1024)) := by
  (repeat' (first | apply And.intro | apply InFrame.mk)) <;> decide +kernel
/-- HEAD_BIND by a context of 64 × 64 pixels. -/
def bindHeadE (h : Nat) : Bytes := entry 0x2A 0 0 [h]
def bindCtx (l : List (Nat × Nat × Nat)) : Ctx := { ctx0 with cfg := squareCfg 64 l }
def bindS (a : Nat) (h : Head) (l : List (Nat × Nat × Nat)) : State := { ctxCmd (bindHeadE a) [] (bindCtx l) with wards := upWard.wards, heads := [(0, h)], now := 1000 }
def boundElsewhere : Head := { virtualHead [] with ctx := some 1 }
/-- A BE context, beside an LC context of the same group. -/
def conflictS : State := { bindS 0 (virtualHead []) [(1, 1, 1)] with
  slots := [(0, { state := .live }), (1, { state := .live })], ctxs := [(0, inFlight (bindHeadE 0) (bindCtx [(1, 1, 1)])), (1, ctx0)] }
def timerS : State := { bindS 0 (virtualHead []) [] with perf := { timerOn := true } }
def unbindE : Bytes := entry 0x2B 0 0 []
def unbindS : State := { ctxCmd unbindE [] (bound ctx0) with heads := [(0, virtualHead [])] }
theorem witness_Heads_bind :
    (readyCmd (RingRef.ctx 0) 0 42 (bindS 5 (virtualHead []) []) = some (cmd0 (bindHeadE 5)) ∧
     ctxOf (bindS 5 (virtualHead []) []) 0 = some (inFlight (bindHeadE 5) (bindCtx [])) ∧
     (let head := entArg (cmd0 (bindHeadE 5)).entry 0; let h := headOf (bindS 5 (virtualHead []) []) head; headInWard (bindS 5 (virtualHead []) []) (inFlight (bindHeadE 5) (bindCtx [])).ward head = false ∨ headCfg h = none)) ∧
    (readyCmd (RingRef.ctx 0) 0 42 (bindS 0 newHead []) = some (cmd0 (bindHeadE 0)) ∧
     ctxOf (bindS 0 newHead []) 0 = some (inFlight (bindHeadE 0) (bindCtx [])) ∧
     (let head := entArg (cmd0 (bindHeadE 0)).entry 0; let h := headOf (bindS 0 newHead []) head; headInWard (bindS 0 newHead []) (inFlight (bindHeadE 0) (bindCtx [])).ward head = false ∨ headCfg h = none)) ∧
    (readyCmd (RingRef.ctx 0) 0 42 (bindS 0 boundElsewhere []) = some (cmd0 (bindHeadE 0)) ∧
     ctxOf (bindS 0 boundElsewhere []) 0 = some (inFlight (bindHeadE 0) (bindCtx [])) ∧
     (let head := entArg (cmd0 (bindHeadE 0)).entry 0; headInWard (bindS 0 boundElsewhere []) (inFlight (bindHeadE 0) (bindCtx [])).ward head = true ∧ let h := headOf (bindS 0 boundElsewhere []) head; headCfg h = some (virtualBlk []) ∧ (h.ctx.isSome = true ∨ (inFlight (bindHeadE 0) (bindCtx [])).head.isSome = true))) ∧
    (readyCmd (RingRef.ctx 0) 0 42 conflictS = some (cmd0 (bindHeadE 0)) ∧
     ctxOf conflictS 0 = some (inFlight (bindHeadE 0) (bindCtx [(1, 1, 1)])) ∧ (inFlight (bindHeadE 0) (bindCtx [(1, 1, 1)])).head = none ∧
     (let head := entArg (cmd0 (bindHeadE 0)).entry 0; headInWard conflictS (inFlight (bindHeadE 0) (bindCtx [(1, 1, 1)])).ward head = true ∧ (let cores := cbClassBE (inFlight (bindHeadE 0) (bindCtx [(1, 1, 1)])).cfg = true ∧ groupConflict conflictS (have __src := ctxEnv conflictS 0 (inFlight (bindHeadE 0) (bindCtx [(1, 1, 1)])); { ward := __src.ward, slot := __src.slot, img := __src.img, head := some head, replay := __src.replay, graph := __src.graph, stripe := __src.stripe, band := __src.band, latches := __src.latches, staging := __src.staging, granules := __src.granules, hasps := __src.hasps, pool := __src.pool, poolInit := __src.poolInit }) (inFlight (bindHeadE 0) (bindCtx [(1, 1, 1)])).cfg = true; cores) ∧ let h := headOf conflictS head; headCfg h = some (virtualBlk []) ∧ h.ctx = none)) ∧
    (readyCmd (RingRef.ctx 0) 0 42 timerS = some (cmd0 (bindHeadE 0)) ∧ ctxOf timerS 0 = some (inFlight (bindHeadE 0) (bindCtx [])) ∧
     (inFlight (bindHeadE 0) (bindCtx [])).head = none ∧
     (let head := entArg (cmd0 (bindHeadE 0)).entry 0; headInWard timerS (inFlight (bindHeadE 0) (bindCtx [])).ward head = true ∧ (let timer := cbReplay (inFlight (bindHeadE 0) (bindCtx [])).cfg = false ∧ timerS.perf.timerOn = true ∧ timerS.perf.head = head; timer) ∧ (let cores := cbClassBE (inFlight (bindHeadE 0) (bindCtx [])).cfg = true ∧ groupConflict timerS (have __src := ctxEnv timerS 0 (inFlight (bindHeadE 0) (bindCtx [])); { ward := __src.ward, slot := __src.slot, img := __src.img, head := some head, replay := __src.replay, graph := __src.graph, stripe := __src.stripe, band := __src.band, latches := __src.latches, staging := __src.staging, granules := __src.granules, hasps := __src.hasps, pool := __src.pool, poolInit := __src.poolInit }) (inFlight (bindHeadE 0) (bindCtx [])).cfg = true; ¬cores) ∧ let h := headOf timerS head; headCfg h = some (virtualBlk []) ∧ h.ctx = none)) ∧
    (readyCmd (RingRef.ctx 0) 0 42 (bindS 0 (virtualHead []) [(8, 2, 32)]) = some (cmd0 (bindHeadE 0)) ∧
     ctxOf (bindS 0 (virtualHead []) [(8, 2, 32)]) 0 = some (inFlight (bindHeadE 0) (bindCtx [(8, 2, 32)])) ∧
     (inFlight (bindHeadE 0) (bindCtx [(8, 2, 32)])).head = none ∧
     headBindBad (bindS 0 (virtualHead []) [(8, 2, 32)]) (inFlight (bindHeadE 0) (bindCtx [(8, 2, 32)])) (virtualBlk []) = some 10 ∧
     (let head := entArg (cmd0 (bindHeadE 0)).entry 0; headInWard (bindS 0 (virtualHead []) [(8, 2, 32)]) (inFlight (bindHeadE 0) (bindCtx [(8, 2, 32)])).ward head = true ∧ (let timer := cbReplay (inFlight (bindHeadE 0) (bindCtx [(8, 2, 32)])).cfg = false ∧ (bindS 0 (virtualHead []) [(8, 2, 32)]).perf.timerOn = true ∧ (bindS 0 (virtualHead []) [(8, 2, 32)]).perf.head = head; ¬timer) ∧ (let cores := cbClassBE (inFlight (bindHeadE 0) (bindCtx [(8, 2, 32)])).cfg = true ∧ groupConflict (bindS 0 (virtualHead []) [(8, 2, 32)]) (have __src := ctxEnv (bindS 0 (virtualHead []) [(8, 2, 32)]) 0 (inFlight (bindHeadE 0) (bindCtx [(8, 2, 32)])); { ward := __src.ward, slot := __src.slot, img := __src.img, head := some head, replay := __src.replay, graph := __src.graph, stripe := __src.stripe, band := __src.band, latches := __src.latches, staging := __src.staging, granules := __src.granules, hasps := __src.hasps, pool := __src.pool, poolInit := __src.poolInit }) (inFlight (bindHeadE 0) (bindCtx [(8, 2, 32)])).cfg = true; ¬cores) ∧ let h := headOf (bindS 0 (virtualHead []) [(8, 2, 32)]) head; headCfg h = some (virtualBlk []) ∧ h.ctx = none)) ∧
    (readyCmd (RingRef.ctx 0) 0 42 (bindS 0 (virtualHead []) []) = some (cmd0 (bindHeadE 0)) ∧
     ctxOf (bindS 0 (virtualHead []) []) 0 = some (inFlight (bindHeadE 0) (bindCtx [])) ∧ (inFlight (bindHeadE 0) (bindCtx [])).head = none ∧
     headBindBad (bindS 0 (virtualHead []) []) (inFlight (bindHeadE 0) (bindCtx [])) (virtualBlk []) = none ∧
     (let head := entArg (cmd0 (bindHeadE 0)).entry 0; headInWard (bindS 0 (virtualHead []) []) (inFlight (bindHeadE 0) (bindCtx [])).ward head = true ∧ (let timer := cbReplay (inFlight (bindHeadE 0) (bindCtx [])).cfg = false ∧ (bindS 0 (virtualHead []) []).perf.timerOn = true ∧ (bindS 0 (virtualHead []) []).perf.head = head; ¬timer) ∧ (let cores := cbClassBE (inFlight (bindHeadE 0) (bindCtx [])).cfg = true ∧ groupConflict (bindS 0 (virtualHead []) []) (have __src := ctxEnv (bindS 0 (virtualHead []) []) 0 (inFlight (bindHeadE 0) (bindCtx [])); { ward := __src.ward, slot := __src.slot, img := __src.img, head := some head, replay := __src.replay, graph := __src.graph, stripe := __src.stripe, band := __src.band, latches := __src.latches, staging := __src.staging, granules := __src.granules, hasps := __src.hasps, pool := __src.pool, poolInit := __src.poolInit }) (inFlight (bindHeadE 0) (bindCtx [])).cfg = true; ¬cores) ∧ let h := headOf (bindS 0 (virtualHead []) []) head; headCfg h = some (virtualBlk []) ∧ h.ctx = none)) ∧
    (readyCmd (RingRef.ctx 0) 0 43 (ctxCmd unbindE [] ctx0) = some (cmd0 unbindE) ∧ (cmd0 unbindE).started = false ∧
     ctxOf (ctxCmd unbindE [] ctx0) 0 = some (inFlight unbindE ctx0) ∧ (inFlight unbindE ctx0).head = none) ∧
    (readyCmd (RingRef.ctx 0) 0 43 unbindS = some (cmd0 unbindE) ∧ (cmd0 unbindE).started = false ∧
     ctxOf unbindS 0 = some (inFlight unbindE (bound ctx0)) ∧ (inFlight unbindE (bound ctx0)).head = some 0) := by
  (repeat' (first | apply And.intro | apply InFrame.mk)) <;> decide +kernel

/-! ## Scan-out -/
/-- The head time of 1 ms, and 20 ms of it. -/
def headMs : Nat := 6553600000
def at20 : Nat := 20 * headMs
/-- Head 0's states: after slot 0, in the scan of slot 1, unbound, a physical head's scan. -/
def slotHead : Head := { head0 with refInstant := 19 * headMs, nextStart := at20, slotFrame := 0, begun := true, scanDone := true }
def scanHead : Head := { slotHead with scanDone := false, scanStart := 19 * headMs, slotFrame := 1, shown := .frame 0, store := some ready0 }
def physHead : Head := { scanHead with cfg := some (physicalBlk [(8, 2, 8), (0xA, 2, 4)]) }
def freeHead : Head := { cfg := some (headBlk []), nextStart := 7 }
def movedBlk : Bytes := headBlk [(0x50, 8, 0x100000)]
def ready1 : Ready := { ready0 with frame := { frame0 with number := 1 } }
def readyCtx : Ctx := { tinyCtx with fr := { ready := [ready0, ready1] } }
def headAt (h : Head) (x : Ctx) : State := onHead x h (20 * 6000000)
def tap0 : Tap := { cfg := physicalBlk [], nextStart := 5 }
def tapState : State := { headAt { head0 with ctx := none } tinyCtx with tap := some tap0 }
def waitingHead : Head := { slotHead with pendingCfg := some movedBlk, store := some ready0 }
def unbindEntry : Bytes := entry 0x2B 0 0 []
def unbindHead : Head := { slotHead with unbindSeq := some 0 }
def unbindWait : State := { ctxCmd unbindEntry [] (bound tinyCtx) with heads := [(0, unbindHead)], now := 20 * 6000000 }
def boundTiny : Ctx := bound tinyCtx
def boundReady : Ctx := bound readyCtx
def boundUnbind : Ctx := inFlight unbindEntry (bound tinyCtx)
def freeWaiting : Head := { freeHead with pendingCfg := some movedBlk }
def lateHead : Head := { slotHead with begun := false, refInstant := 30 * headMs, nextStart := 7 }
theorem witness_ScanOut_periods :
    ((headOf tapState 1025).cfg = none ∧ tapState.tap = some tap0 ∧ headReached tapState tap0.nextStart = true) ∧
    ((headOf (headAt freeHead tinyCtx) 0).cfg = some (headBlk []) ∧ (headOf (headAt freeHead tinyCtx) 0).ctx = none ∧
     (headOf (headAt freeHead tinyCtx) 0).scanDone = true ∧
     headReached (headAt freeHead tinyCtx) (headOf (headAt freeHead tinyCtx) 0).nextStart = true) ∧
    ((headOf (headAt freeWaiting tinyCtx) 0).cfg = some (headBlk []) ∧ (headOf (headAt freeWaiting tinyCtx) 0).ctx = none ∧
     (headOf (headAt freeWaiting tinyCtx) 0).scanDone = true ∧
     headReached (headAt freeWaiting tinyCtx) (headOf (headAt freeWaiting tinyCtx) 0).nextStart = true) ∧
    ((headOf (headAt lateHead tinyCtx) 0).cfg = some (headBlk []) ∧ (headOf (headAt lateHead tinyCtx) 0).ctx = some 0 ∧
     liveCtx (headAt lateHead tinyCtx) 0 = some boundTiny ∧ (headOf (headAt lateHead tinyCtx) 0).scanDone = true ∧
     headReached (headAt lateHead tinyCtx) 7 = true ∧
     (let o := headOf (headAt lateHead tinyCtx) 0; headDue (headAt lateHead tinyCtx) o = some (7, false))) ∧
    ((headOf unbindWait 0).cfg = some (headBlk []) ∧ (headOf unbindWait 0).ctx = some 0 ∧ liveCtx unbindWait 0 = some boundUnbind ∧
     (headOf unbindWait 0).scanDone = true ∧ headReached unbindWait at20 = true ∧ unbindWait.fw.running = true ∧
     unbindWait.fw.switching = false ∧ cmdOf unbindWait (RingRef.ctx 0) 0 = some (cmd0 unbindEntry) ∧
     (let o := headOf unbindWait 0; headDue unbindWait o = some (at20, true) ∧ o.unbindSeq = some 0)) ∧
    ((headOf (headAt slotHead tinyCtx) 0).cfg = some (headBlk []) ∧ (headOf (headAt slotHead tinyCtx) 0).ctx = some 0 ∧
     liveCtx (headAt slotHead tinyCtx) 0 = some boundTiny ∧ (headOf (headAt slotHead tinyCtx) 0).scanDone = true ∧
     headReached (headAt slotHead tinyCtx) at20 = true ∧
     (let o := headOf (headAt slotHead tinyCtx) 0; headDue (headAt slotHead tinyCtx) o = some (at20, true) ∧ o.unbindSeq = none)) ∧
    ((headOf (headAt slotHead readyCtx) 0).cfg = some (headBlk []) ∧ (headOf (headAt slotHead readyCtx) 0).ctx = some 0 ∧
     liveCtx (headAt slotHead readyCtx) 0 = some boundReady ∧ (headOf (headAt slotHead readyCtx) 0).scanDone = true ∧
     headReached (headAt slotHead readyCtx) at20 = true ∧
     (let o := headOf (headAt slotHead readyCtx) 0; headDue (headAt slotHead readyCtx) o = some (at20, true) ∧ o.unbindSeq = none)) ∧
    ((headOf (headAt waitingHead readyCtx) 0).cfg = some (headBlk []) ∧ (headOf (headAt waitingHead readyCtx) 0).ctx = some 0 ∧
     liveCtx (headAt waitingHead readyCtx) 0 = some boundReady ∧ (headOf (headAt waitingHead readyCtx) 0).scanDone = true ∧
     headReached (headAt waitingHead readyCtx) at20 = true ∧
     (let o := headOf (headAt waitingHead readyCtx) 0; headDue (headAt waitingHead readyCtx) o = some (at20, true) ∧ o.unbindSeq = none)) := by
  (repeat' (first | apply And.intro | apply InFrame.mk)) <;> decide +kernel
def fullHead : Head := { scanHead with beg := 2, consumer := 0, prod := 2 }
def droppedHead : Head := { scanHead with slicesBegun := 1, droppedFrame := 1 }
def writingHead : Head := { scanHead with slicesBegun := 1, inFlight := [(0, 5)] }
theorem witness_ScanOut_slices :
    ((headOf (headAt scanHead tinyCtx) 0).cfg = some (headBlk []) ∧ (headOf (headAt scanHead tinyCtx) 0).ctx = some 0 ∧ 0 < 1024 ∧
     (headOf (headAt scanHead tinyCtx) 0).scanDone = false ∧
     (let h := headOf (headAt scanHead tinyCtx) 0; h.slicesBegun < slotSlices h (headBlk []) ∧ headReached (headAt scanHead tinyCtx) (lineStart h (headBlk []) (h.slicesBegun * hbSlice (headBlk []))) = true ∧ noRoom h (headBlk []) = false ∧ h.droppedFrame = 0)) ∧
    ((headOf (headAt fullHead tinyCtx) 0).cfg = some (headBlk []) ∧ (headOf (headAt fullHead tinyCtx) 0).ctx = some 0 ∧ 0 < 1024 ∧
     (headOf (headAt fullHead tinyCtx) 0).scanDone = false ∧
     (let h := headOf (headAt fullHead tinyCtx) 0; h.slicesBegun < slotSlices h (headBlk []) ∧ headReached (headAt fullHead tinyCtx) (lineStart h (headBlk []) (h.slicesBegun * hbSlice (headBlk []))) = true ∧ (noRoom h (headBlk []) = true ∨ 0 < h.droppedFrame))) ∧
    ((headOf (headAt droppedHead tinyCtx) 0).cfg = some (headBlk []) ∧ (headOf (headAt droppedHead tinyCtx) 0).ctx = some 0 ∧ 0 < 1024 ∧
     (headOf (headAt droppedHead tinyCtx) 0).scanDone = false ∧
     (let h := headOf (headAt droppedHead tinyCtx) 0; h.slicesBegun < slotSlices h (headBlk []) ∧ headReached (headAt droppedHead tinyCtx) (lineStart h (headBlk []) (h.slicesBegun * hbSlice (headBlk []))) = true ∧ (noRoom h (headBlk []) = true ∨ 0 < h.droppedFrame))) ∧
    ((headOf (headAt writingHead tinyCtx) 0).cfg = some (headBlk []) ∧ (headOf (headAt writingHead tinyCtx) 0).ctx = some 0 ∧
     (headOf (headAt writingHead tinyCtx) 0).inFlight = [(0, 5)]) ∧
    ((headOf (headAt writingHead tinyCtx) 0).cfg = some (headBlk []) ∧ (headOf (headAt writingHead tinyCtx) 0).ctx = some 0 ∧
     (headOf (headAt writingHead tinyCtx) 0).inFlight = [(0, 5)] ∧ hbHinge (headBlk []) = false ∧ (headAt writingHead tinyCtx).hostMem.wf = true) ∧
    ((headOf (headAt writingHead tinyCtx) 0).cfg = some (headBlk []) ∧ (headOf (headAt writingHead tinyCtx) 0).ctx = some 0 ∧
     (headOf (headAt writingHead tinyCtx) 0).inFlight = [(0, 5)] ∧ hbHinge (headBlk []) = false ∧
     (headAt writingHead tinyCtx).fns.length = 16 ∧ (headAt writingHead tinyCtx).wards.length = 16) := by
  (repeat' (first | apply And.intro | apply InFrame.mk)) <;> decide +kernel
def physBlack : Head := { physHead with shown := .black }
def endHead : Head := { scanHead with slicesBegun := 2 }
def repeatEnd : Head := { endHead with isRepeat := true, underrunFrame := 3 }
def ringHead : Head := { scanHead with prod := 5, beg := 5 }
def physBytes : Bytes := physicalBlk [(8, 2, 8), (0xA, 2, 4)]
theorem witness_ScanOut_ends :
    ((headOf (withHead 1024 physBlack (headAt scanHead tinyCtx)) 1024).cfg = some physBytes ∧ 1024 ≤ 1024 ∧
     (headOf (withHead 1024 physBlack (headAt scanHead tinyCtx)) 1024).scanDone = false ∧
     (let h := headOf (withHead 1024 physBlack (headAt scanHead tinyCtx)) 1024; h.slicesBegun < hbHeight physBytes ∧ headReached (withHead 1024 physBlack (headAt scanHead tinyCtx)) (lineStart h physBytes h.slicesBegun) = true)) ∧
    ((headOf (withHead 1024 physHead (headAt scanHead tinyCtx)) 1024).cfg = some physBytes ∧ 1024 ≤ 1024 ∧
     (headOf (withHead 1024 physHead (headAt scanHead tinyCtx)) 1024).scanDone = false ∧
     (let h := headOf (withHead 1024 physHead (headAt scanHead tinyCtx)) 1024; h.slicesBegun < hbHeight physBytes ∧ headReached (withHead 1024 physHead (headAt scanHead tinyCtx)) (lineStart h physBytes h.slicesBegun) = true)) ∧
    ((headOf (headAt endHead tinyCtx) 0).cfg = some (headBlk []) ∧ (headOf (headAt endHead tinyCtx) 0).ctx = some 0 ∧
     (headOf (headAt endHead tinyCtx) 0).scanDone = false ∧
     (let h := headOf (headAt endHead tinyCtx) 0; allScanned 0 h (headBlk []) = true ∧ headReached (headAt endHead tinyCtx) (lineStart h (headBlk []) (if headerOnly h (headBlk []) = true then 0 else hbHeight (headBlk []))) = true)) ∧
    ((headOf (headAt repeatEnd tinyCtx) 0).cfg = some (headBlk []) ∧ (headOf (headAt repeatEnd tinyCtx) 0).ctx = some 0 ∧
     (headOf (headAt repeatEnd tinyCtx) 0).scanDone = false ∧
     (let h := headOf (headAt repeatEnd tinyCtx) 0; allScanned 0 h (headBlk []) = true ∧ headReached (headAt repeatEnd tinyCtx) (lineStart h (headBlk []) (if headerOnly h (headBlk []) = true then 0 else hbHeight (headBlk []))) = true)) ∧
    (3 < 2 ^ 32 ∧ (headOf (headAt ringHead tinyCtx) 0).cfg = some (headBlk []) ∧ 0 < 1024 ∧
     (let open_ := barsOpen (headAt ringHead tinyCtx) 0 = true ∧ 0 ≤ 1025 ∧ (0 = 0 ∨ headInWard (headAt ringHead tinyCtx) 0 0 = true); open_) ∧
     (let h := headOf (headAt ringHead tinyCtx) 0; let owed := BitVec.toNat (h.prod - 3#32); owed ≤ hbEntryCount (headBlk []))) ∧
    (2 < 2 ^ 32 ∧ (headOf (headAt ringHead tinyCtx) 0).cfg = some (headBlk []) ∧
     (let h := headOf (headAt ringHead tinyCtx) 0; let open_ := barsOpen (headAt ringHead tinyCtx) 0 = true ∧ 0 ≤ 1025 ∧ (0 = 0 ∨ headInWard (headAt ringHead tinyCtx) 0 0 = true); let owed := BitVec.toNat (h.prod - 2#32); ¬open_ ∨ 1024 ≤ 0 ∨ hbEntryCount (headBlk []) < owed)) := by
  (repeat' (first | apply And.intro | apply InFrame.mk)) <;> decide +kernel
def lockBlk : Bytes := headBlk [(3, 1, 2)]
def lockHead : Head := { cfg := some lockBlk, nextStart := at20 }
def farHead : Head := { lockHead with nextStart := at20 + 10 ^ 12 }
def farAgain : Head := { farHead with outside := 1 }
def lockBound : Head := { slotHead with cfg := some lockBlk }
theorem witness_ScanOut_genlock :
    ((headAt scanHead tinyCtx).perf.externalOn = false ∧
     List.filterMap (fun x => x.2.cfg.bind fun b => if hbGenlock b = true then some (x.1, b) else none) (headAt scanHead tinyCtx).heads = []) ∧
    ((headAt lockHead tinyCtx).perf.externalOn = false ∧
     List.filterMap (fun x => x.2.cfg.bind fun b => if hbGenlock b = true then some (x.1, b) else none) (headAt lockHead tinyCtx).heads = [(0, lockBlk)] ∧
     (headOf (headAt lockHead tinyCtx) 0).ctx = none) ∧
    ((headAt farHead tinyCtx).perf.externalOn = false ∧
     List.filterMap (fun x => x.2.cfg.bind fun b => if hbGenlock b = true then some (x.1, b) else none) (headAt farHead tinyCtx).heads = [(0, lockBlk)] ∧
     (headOf (headAt farHead tinyCtx) 0).ctx = none) ∧
    ((headAt farAgain tinyCtx).perf.externalOn = false ∧
     List.filterMap (fun x => x.2.cfg.bind fun b => if hbGenlock b = true then some (x.1, b) else none) (headAt farAgain tinyCtx).heads = [(0, lockBlk)] ∧
     (headOf (headAt farAgain tinyCtx) 0).ctx = none) ∧
    ((headAt lockBound tinyCtx).perf.externalOn = false ∧
     List.filterMap (fun x => x.2.cfg.bind fun b => if hbGenlock b = true then some (x.1, b) else none) (headAt lockBound tinyCtx).heads = [(0, lockBlk)] ∧
     (headOf (headAt lockBound tinyCtx) 0).ctx = some 0 ∧ liveCtx (headAt lockBound tinyCtx) 0 = some boundTiny ∧
     (headOf (headAt lockBound tinyCtx) 0).begun = true ∧
     (let h := headOf (headAt lockBound tinyCtx) 0; let dst := nowHead (headAt lockBound tinyCtx) + hbOffset lockBlk; (max dst h.nextStart - min dst h.nextStart) * hbVt lockBlk ≤ hbPeriod lockBlk)) := by
  (repeat' (first | apply And.intro | apply InFrame.mk)) <;> decide +kernel
/-! ## Functions -/
def vfs2 : State := { upWard with vfs := 2 }
def switching0 : State := { upWard with fw := { running := true, ready := true, switching := true } }
def beating : State := { upWard with now := 6000000 }
theorem witness_Functions :
    (vfs2.fns.length = 16 ∧ vfs2.wards.length = 16 ∧ fnExists vfs2 2 = true ∧ 2 ≠ 0 ∧ configOpen vfs2 = true) ∧
    (configOpen upWard = true) ∧
    (outOfReset upWard = true ∧ upWard.fw.switching = false) ∧
    (outOfReset switching0 = true ∧ switching0.fw.switching = true) ∧
    (configOpen State.reset = false) ∧
    (outOfReset State.reset = false) ∧
    (configOpen vfs2 = true ∧ vfs2.fns.length = 16 ∧ vfs2.wards.length = 16 ∧ 1 ≤ 15 ∧ vfs2.vfs ≤ 15) ∧
    (configOpen vfs2 = true ∧ vfs2.fns.length = 16 ∧ vfs2.wards.length = 16 ∧ 15 ≤ 15 ∧ vfs2.vfs ≤ 15) ∧
    (configOpen vfs2 = true ∧ fnExists vfs2 2 = true ∧ vfs2.fns.length = 16 ∧ vfs2.wards.length = 16) ∧
    (beating.fw.running = true ∧ beating.fw.switching = false ∧ beating.fw.beatAt + 6000000 ≤ beating.now) := by
  (repeat' (first | apply And.intro | apply InFrame.mk)) <;> decide +kernel

/-! ## Firmware -/
def stageE (k : Nat) : Bytes := entry 0xC 0x40000 0 [k]
def stageS (k : Nat) (b : Bytes) : State := admCmd (stageE k) (hostAt b) up
def activateE (slot : Nat) : Bytes := entry 0xD 0 0 [slot, 3]
def activateS (slot : Nat) (f : Flash) : State := { admCmd (activateE slot) [] up with flash := f }
/-- Both images resident, all their fields zero. -/
def twoImages : Flash := { image0 := some (List.replicate 512 0), image1 := some (List.replicate 512 0) }
def noImages : Flash := {}
theorem stage_read (k : Nat) (b : Bytes) (e : entAddr0 (stageE k) = 0x40000) (h : b.length = k) : hostRead (stageS k b) (entAddr0 (stageE k)) k = b :=
  hostAt_read rfl e h
theorem readN_take (m : Mem) : ∀ (k n a : Nat), k ≤ n → Mem.readN m a k = (Mem.readN m a n).take k
  | 0, _, _, _ => by simp [Mem.readN]
  | k + 1, 0, _, h => absurd h (by omega)
  | k + 1, n + 1, a, h => by rw [Mem.readN, Mem.readN, List.take_succ_cons, readN_take m k n (a + 1) (by omega)]
theorem stage_prefix (k n : Nat) (b : Bytes) (e : entAddr0 (stageE k) = 0x40000) (h : b.length = k) (l : n ≤ k) :
    hostRead (stageS k b) (entAddr0 (stageE k)) n = b.take n := by
  rw [hostRead, readN_take _ n k _ l, ← hostRead, stage_read k b e h]
theorem stage_header : fwLengthOk 4096 = true ∧ fwLength (fit 512 (hostRead (stageS 4096 phipel0) (entAddr0 (stageE 4096)) (min 4096 512))) = 4096 := by
  rewrite [show min 4096 512 = 512 from rfl, stage_prefix 4096 512 phipel0 (by decide +kernel) phipel0_length (by omega)]
  decide +kernel
theorem witness_Firmware_stage :
    (readyCmd (RingRef.admin 0) 0 12 (stageS 4096 []) = some (cmd0 (stageE 4096)) ∧ (cmd0 (stageE 4096)).started = false ∧
     (stageS 4096 []).flash.program = none ∧
     (let k := entArg (cmd0 (stageE 4096)).entry 0; let hdr := fit 512 (hostRead (stageS 4096 []) (entAddr0 (cmd0 (stageE 4096)).entry) (min k 512)); let b := if fwLengthOk k = true ∧ fwLength hdr = k then hostRead (stageS 4096 []) (entAddr0 (cmd0 (stageE 4096)).entry) k else hdr; fwCheck (stageS 4096 []) b k = some 1)) ∧
    (readyCmd (RingRef.admin 0) 0 12 (stageS 4095 []) = some (cmd0 (stageE 4095)) ∧ (cmd0 (stageE 4095)).started = false ∧
     (stageS 4095 []).flash.program = none ∧
     (let k := entArg (cmd0 (stageE 4095)).entry 0; let hdr := fit 512 (hostRead (stageS 4095 []) (entAddr0 (cmd0 (stageE 4095)).entry) (min k 512)); let b := if fwLengthOk k = true ∧ fwLength hdr = k then hostRead (stageS 4095 []) (entAddr0 (cmd0 (stageE 4095)).entry) k else hdr; fwCheck (stageS 4095 []) b k = some 1)) ∧
    (readyCmd (RingRef.admin 0) 0 13 (activateS 1 noImages) = some (cmd0 (activateE 1)) ∧ (cmd0 (activateE 1)).started = false ∧
     (let slot := entArg (cmd0 (activateE 1)).entry 0; activateBad (activateS 1 noImages) slot = some 3)) ∧
    (readyCmd (RingRef.admin 0) 0 13 (activateS 1 twoImages) = some (cmd0 (activateE 1)) ∧ (cmd0 (activateE 1)).started = false ∧
     (activateS 1 twoImages).fns.length = 16 ∧ (activateS 1 twoImages).wards.length = 16 ∧ 0 < 16 ∧
     (let slot := entArg (cmd0 (activateE 1)).entry 0; activateBad (activateS 1 twoImages) slot = none)) := by
  (repeat' (first | apply And.intro | apply Arrives.mk | apply Accepted.mk | apply RequestEnds.mk)) <;> decide +kernel
theorem witness_Firmware_accepted (k : Config.keyRevoked 0 = false) (f : Config.rootKeyHash 0 = BitVec.ofNat 256 keyHash0) :
    readyCmd (RingRef.admin 0) 0 12 (stageS 4096 phipel0) = some (cmd0 (stageE 4096)) ∧ (cmd0 (stageE 4096)).started = false ∧
    (stageS 4096 phipel0).flash.program = none ∧ (stageS 4096 phipel0).fns.length = 16 ∧ (stageS 4096 phipel0).wards.length = 16 ∧ 0 < 16 ∧
    (let k := entArg (cmd0 (stageE 4096)).entry 0; let hdr := fit 512 (hostRead (stageS 4096 phipel0) (entAddr0 (cmd0 (stageE 4096)).entry) (min k 512)); let b := if fwLengthOk k = true ∧ fwLength hdr = k then hostRead (stageS 4096 phipel0) (entAddr0 (cmd0 (stageE 4096)).entry) k else hdr; fwCheck (stageS 4096 phipel0) b k = none) := by
  refine ⟨by decide +kernel, by decide +kernel, by decide +kernel, by decide +kernel, by decide +kernel, by decide +kernel, ?_⟩; rewrite [show (cmd0 (stageE 4096)).entry = stageE 4096 from rfl, show entArg (stageE 4096) 0 = 4096 by decide +kernel]; intro j hdr b; have e : b = phipel0 := (if_pos stage_header).trans (stage_read 4096 phipel0 (by decide +kernel) phipel0_length); rewrite [e]; exact phipel0_accepted k f rfl
def switchFw : Firmware := { running := true, ready := true, switching := true, byCommand := some (0, 0), target := 1, persist := true }
def switchS (fw : Firmware) (waits : Bool) : State := { withCtx ctx0 (activateS 1 twoImages) with fw := fw, boot := { up.boot with linkResetWaits := waits } }
def ownSwitch : Firmware := { switchFw with byCommand := none, recovery := true }
def raised : Firmware := { switchFw with persist := false, raiseSvn := true }
def ring0 : Ring := (fnOf (switchS ownSwitch false) 0).ring
def haltS (lost : Option Nat) : State := { up with now := 6000001, fw := { up.fw with lastRecovery := lost }, flash := twoImages }
def writeS (op slot : Nat) (img : Bytes) : State :=
  let s := admCmd (entry op 0 0 [1, 1]) [] up
  { s with flash := { twoImages with program := some (slot, img) }
           fns := s.fns.map (fun f => { f with ring := { f.ring with cmds := f.ring.cmds.map (fun c => { c with started := true }) } }) }
theorem witness_Firmware_switch :
    ((switchS switchFw false).fw.switching = true ∧ (switchS switchFw false).boot.linkResetWaits = false ∧
     (switchS switchFw false).fns.length = 16 ∧ (switchS switchFw false).wards.length = 16) ∧
    ((switchS raised false).fw.switching = true ∧ (switchS raised false).boot.linkResetWaits = false ∧
     (switchS raised false).fns.length = 16 ∧ (switchS raised false).wards.length = 16) ∧
    ((switchS ownSwitch false).fw.switching = true ∧ (switchS ownSwitch false).boot.linkResetWaits = false ∧
     (switchS ownSwitch false).fns.length = 16 ∧ (switchS ownSwitch false).wards.length = 16) ∧
    ((switchS switchFw true).fw.switching = true ∧ (switchS switchFw true).boot.linkResetWaits = true) := by
  (repeat' (first | apply And.intro | apply Arrives.mk | apply Accepted.mk | apply RequestEnds.mk)) <;> decide +kernel
/-- The PF's admin ring takes the record of a recovery. -/
theorem witness_Firmware_record : (switchS ownSwitch false).vfs = 0 ∧ Mem.wf (switchS ownSwitch false).hostMem = true ∧
    ringOf (switchS ownSwitch false) (.admin 0) = some ring0 ∧ ringRoomy ring0 = true := by decide +kernel
theorem witness_Firmware_halt :
    (haltS none).fw.running = true ∧ (false = true ∨ (haltS none).fw.switching = false ∧ (haltS none).fw.beatAt + 6000000 < (haltS none).now) ∧
    (haltS none).fns.length = 16 ∧ (haltS none).wards.length = 16 ∧
    (let soon := ∃ t, (haltS none).fw.lastRecovery = some t ∧ (haltS none).now < t + 6000000000; true = true ∨ soon) := by
  (repeat' apply And.intro) <;> decide +kernel
theorem witness_Firmware_again :
    (haltS (some 1)).fw.running = true ∧
    (false = true ∨ (haltS (some 1)).fw.switching = false ∧ (haltS (some 1)).fw.beatAt + 6000000 < (haltS (some 1)).now) ∧
    (haltS (some 1)).fns.length = 16 ∧ (haltS (some 1)).wards.length = 16 ∧
    (let soon := ∃ t, (haltS (some 1)).fw.lastRecovery = some t ∧ (haltS (some 1)).now < t + 6000000000; false = true ∨ soon) := by
  (repeat' apply And.intro) <;> decide +kernel
theorem witness_Firmware_recovery :
    (haltS none).fw.running = true ∧ (true = true ∨ (haltS none).fw.switching = false ∧ (haltS none).fw.beatAt + 6000000 < (haltS none).now) ∧
    false = false ∧ (let soon := ∃ t, (haltS none).fw.lastRecovery = some t ∧ (haltS none).now < t + 6000000000; ¬soon) := by
  (repeat' apply And.intro) <;> decide +kernel
theorem witness_Firmware_flash :
    (outOfReset (writeS 12 1 [1]) = true ∧ (writeS 12 1 [1]).flash.program = some (1, [1])) ∧
    (outOfReset (writeS 13 2 [1]) = true ∧ (writeS 13 2 [1]).flash.program = some (2, [1])) := by
  (repeat' (first | apply And.intro | apply Arrives.mk | apply Accepted.mk | apply RequestEnds.mk)) <;> decide +kernel
/-! ## Hinge messages -/
/-- Commands that take a message of a type: RENDER and SLICE; RENDER and POSE. -/
def takesRender : Nat × Instr := (0x01, .render 0)
def takesSlice : Nat × Instr := (0x03, .slice 0)
def renders : Nat × Instr × Bool := (0x01, .render 0, false)
def poses : Nat × Instr × Bool := (0x02, .pose 0, true)
/-- A RENDER for device 2 and for 77, one without hops left, one for this device from 78. -/
def onward (ty : Nat) : HMsg := msg ty 0 2 0 0 []
def noHops : HMsg := { hdr := mkHdr 1 0 0 2 2 0 0 0 0 }
def stranger : HMsg := { hdr := mkHdr 1 0 0 1 78 3 0 0 0 }
def mine (ty op : Nat) (p : Bytes) : HMsg := msg ty 0 1 0 op p
theorem witness_HingeMessages_stranger :
    Arrives (onHinge stranger) 0 takesRender.1 stranger ∧ mDest stranger.hdr = ownId (onHinge stranger) ∧ takesRender.1 ≠ 3 ∧
    (∀ (w : ℕ), acceptsFrom (onHinge stranger) (mSrc stranger.hdr) w = false) := by
  refine ⟨⟨by decide +kernel, by decide +kernel, by decide +kernel⟩, by decide +kernel, by decide +kernel, fun w => ?_⟩; rewrite [acceptsFrom, show routeOf (onHinge stranger) (mSrc stranger.hdr) = none by decide +kernel]; rfl
theorem witness_HingeMessages_pass :
    (Arrives (onHinge noHops) 0 takesRender.1 noHops ∧ mDest noHops.hdr ≠ ownId (onHinge noHops) ∧
     (mHops noHops.hdr = 0 ∨ routePort (onHinge noHops) (mDest noHops.hdr) = none)) ∧
    (Arrives (onHinge (msg 1 0 77 0 0 [])) 0 takesRender.1 (msg 1 0 77 0 0 []) ∧
     mDest (msg 1 0 77 0 0 []).hdr ≠ ownId (onHinge (msg 1 0 77 0 0 [])) ∧
     (mHops (msg 1 0 77 0 0 []).hdr = 0 ∨ routePort (onHinge (msg 1 0 77 0 0 [])) (mDest (msg 1 0 77 0 0 []).hdr) = none)) ∧
    (Arrives (onHinge (onward 1)) 0 takesRender.1 (onward 1) ∧ mDest (onward 1).hdr ≠ ownId (onHinge (onward 1)) ∧ mHops (onward 1).hdr ≠ 0 ∧
     routePort (onHinge (onward 1)) (mDest (onward 1).hdr) = some 0) ∧
    (Arrives (onHinge (onward 3)) 0 takesSlice.1 (onward 3) ∧ mDest (onward 3).hdr ≠ ownId (onHinge (onward 3)) ∧ mHops (onward 3).hdr ≠ 0 ∧
     routePort (onHinge (onward 3)) (mDest (onward 3).hdr) = some 0) ∧
    (Arrives (onHinge (mine 3 0 [])) 0 takesSlice.1 (mine 3 0 []) ∧ mDest (mine 3 0 []).hdr = ownId (onHinge (mine 3 0 [])) ∧ takesSlice.1 = 3) := by
  (repeat' (first | apply And.intro | apply Arrives.mk | apply Accepted.mk | apply RequestEnds.mk)) <;> decide +kernel
def renderM : HMsg := mine 1 0 (packet 3 1 1 1 8 4 128)
def poseM : HMsg := mine 2 0 posePacket
/-- A credit of two slices for stream 0, whose head has a ring of two entries. -/
def creditM : HMsg := mine 4 (2 * 65536) []
def creditHead : Head := { cfg := some (headBlk [(3, 1, 16), (0x68, 4, 2)]) }
def creditS : State :=
  let s := onHinge creditM
  { s with heads := [(0, creditHead)], wards := s.wards.set 0 { (wardOf s 0) with cfg := wardCfg } }
theorem witness_HingeMessages_packets :
    (0 < (onHinge renderM).wards.length ∧ ctxOf (onHinge renderM) 0 = some ctx0 ∧ ctx0.ward = 0 ∧
     Accepted (onHinge renderM) 0 renders.1 renderM 0 ∧ (0 = if renders.2.2 = true then posSlot renderM.payload else rpSlot renderM.payload)) ∧
    (0 < (onHinge poseM).wards.length ∧ ctxOf (onHinge poseM) 0 = some ctx0 ∧ ctx0.ward = 0 ∧ Accepted (onHinge poseM) 0 poses.1 poseM 0 ∧
     (0 = if poses.2.2 = true then posSlot poseM.payload else rpSlot poseM.payload)) ∧
    (Accepted creditS 0 4 creditM 0 ∧ headsTo creditS (mSrc creditM.hdr) (mOp creditM.hdr % 1024) = [0] ∧
     List.find? (fun w => (wardOf creditS w).cfg.headMask.testBit 0) (List.range 16) = some 0) := by
  (repeat' (first | apply And.intro | apply Arrives.mk | apply Accepted.mk | apply RequestEnds.mk)) <;> decide +kernel
/-- A request of device 2 acts at the end of the fabric cycle, in states of its target. -/
def reqS (op t : Nat) : State := { kHinge with hinge := { kHinge.hinge with requests := [(0, (request op t).hdr)] } }
def latchCtx : Ctx := { ctx0 with stagingBits := 5, latchWaiters := [(0, .peer 2 0 5 0 0 false)] }
def latchS (op : Nat) : State := { reqS op 0 with ctxs := [(0, latchCtx)] }
def haspS (op : Nat) (h : Hasp) : State := { reqS op 0 with hasps := [(0, h)] }
def openHasp : Hasp := { owner := some 0, count := 2 }
def outHasp : Hasp := { count := 0 }
def brimHasp : Hasp := { count := 0xFFFF }
def crowded : Hasp := { count := 1, held := (List.range 8).map (fun i => (i + 1, 1)) }
theorem witness_HingeMessages_takes :
    (portOf (onHinge renderM) 0).rx.head? = some renderM ∧ mType renderM.hdr = takesRender.1 := by
  (repeat' (first | apply And.intro | apply Arrives.mk | apply Accepted.mk | apply RequestEnds.mk)) <;> decide +kernel
theorem witness_HingeMessages_requests :
    (Accepted (onHinge (request 0 70)) 0 16 (request 0 70) (reqOf (request 0 70).hdr).tward) ∧
    (RequestEnds (reqS 0 70) 0 (request 0 70).hdr ∧ (let q := reqOf (request 0 70).hdr; exported (reqS 0 70) q = none)) ∧
    (RequestEnds (reqS 5 64) 0 (request 5 64).hdr ∧
     (let q := reqOf (request 5 64).hdr; exported (reqS 5 64) q = some ctx0 ∧ 3 ≤ q.op ∧ stagingLatches (reqS 5 64) q.tslot ≤ q.target)) ∧
    (RequestEnds (latchS 3) 0 (request 3 0).hdr ∧
     (let q := reqOf (request 3 0).hdr; exported (latchS 3) q = some latchCtx ∧ 3 ≤ q.op ∧ q.target < stagingLatches (latchS 3) q.tslot ∧ q.op = 3)) ∧
    (RequestEnds (latchS 4) 0 (request 4 0).hdr ∧
     (let q := reqOf (request 4 0).hdr; exported (latchS 4) q = some latchCtx ∧ 3 ≤ q.op ∧ q.target < stagingLatches (latchS 4) q.tslot ∧ q.op = 4)) ∧
    (RequestEnds (latchS 5) 0 (request 5 0).hdr ∧
     (let q := reqOf (request 5 0).hdr; exported (latchS 5) q = some latchCtx ∧ 3 ≤ q.op ∧ q.target < stagingLatches (latchS 5) q.tslot ∧ q.op = 5 ∧ latchCtx.stagingBits.testBit q.target = true)) ∧
    (RequestEnds (reqS 5 0) 0 (request 5 0).hdr ∧
     (let q := reqOf (request 5 0).hdr; exported (reqS 5 0) q = some ctx0 ∧ 3 ≤ q.op ∧ q.target < stagingLatches (reqS 5 0) q.tslot ∧ q.op = 5 ∧ ctx0.stagingBits.testBit q.target = false)) ∧
    (RequestEnds (latchS 6) 0 (request 6 0).hdr ∧
     (let q := reqOf (request 6 0).hdr; exported (latchS 6) q = some latchCtx ∧ 3 ≤ q.op ∧ q.target < stagingLatches (latchS 6) q.tslot ∧ q.op = 6)) ∧
    (RequestEnds (reqS 1 1) 0 (request 1 1).hdr ∧
     (let q := reqOf (request 1 1).hdr; exported (reqS 1 1) q = some ctx0 ∧ q.op ≤ 2 ∧ haspAt ctx0 q.target = none)) ∧
    (RequestEnds (haspS 0 openHasp) 0 (request 0 0).hdr ∧ tget (haspS 0 openHasp).hasps 0 = some openHasp ∧
     (let q := reqOf (request 0 0).hdr; exported (haspS 0 openHasp) q = some ctx0 ∧ q.op ≤ 2 ∧ haspAt ctx0 q.target = some 0 ∧ q.op ≤ 1 ∧ let p := { dev := q.dev, ward := q.ward, slot := q.slot }; let may := openHasp.count ≠ 0 ∧ (0 < peerCount openHasp p ∨ List.length openHasp.held + openHasp.peers.length < 8); may)) ∧
    (RequestEnds (haspS 0 crowded) 0 (request 0 0).hdr ∧ tget (haspS 0 crowded).hasps 0 = some crowded ∧
     (let q := reqOf (request 0 0).hdr; exported (haspS 0 crowded) q = some ctx0 ∧ q.op ≤ 2 ∧ haspAt ctx0 q.target = some 0 ∧ q.op = 0 ∧ let p := { dev := q.dev, ward := q.ward, slot := q.slot }; let may := crowded.count ≠ 0 ∧ (0 < peerCount crowded p ∨ List.length crowded.held + crowded.peers.length < 8); ¬may)) ∧
    (RequestEnds (haspS 1 outHasp) 0 (request 1 0).hdr ∧ tget (haspS 1 outHasp).hasps 0 = some outHasp ∧
     (let q := reqOf (request 1 0).hdr; exported (haspS 1 outHasp) q = some ctx0 ∧ q.op ≤ 2 ∧ haspAt ctx0 q.target = some 0 ∧ q.op = 1 ∧ let p := { dev := q.dev, ward := q.ward, slot := q.slot }; let may := outHasp.count ≠ 0 ∧ (0 < peerCount outHasp p ∨ List.length outHasp.held + outHasp.peers.length < 8); ¬may)) ∧
    (RequestEnds (haspS 2 openHasp) 0 (request 2 0).hdr ∧ tget (haspS 2 openHasp).hasps 0 = some openHasp ∧ openHasp.count ≠ 65535 ∧
     openHasp.parked = [] ∧
     (let q := reqOf (request 2 0).hdr; exported (haspS 2 openHasp) q = some ctx0 ∧ q.op ≤ 2 ∧ haspAt ctx0 q.target = some 0 ∧ q.op = 2)) ∧
    (RequestEnds (haspS 2 brimHasp) 0 (request 2 0).hdr ∧ tget (haspS 2 brimHasp).hasps 0 = some brimHasp ∧ brimHasp.count = 65535 ∧
     (let q := reqOf (request 2 0).hdr; exported (haspS 2 brimHasp) q = some ctx0 ∧ q.op ≤ 2 ∧ haspAt ctx0 q.target = some 0 ∧ q.op = 2)) := by
  (repeat' (first | apply And.intro | apply Arrives.mk | apply Accepted.mk | apply RequestEnds.mk)) <;> decide +kernel
/-- A reply of device 2 to record 3, for which thread 0 waits. -/
def replyM (status op : Nat) : HMsg := { hdr := mkHdr 0x11 0 status 1 2 3 (reqTag 9 0 0) 0 (reqOp op false 0 0 0 0) }
def record3 (op : Nat) : Remote := { thread := ⟨0, 0⟩, slot := 0, dev := 2, request := 9, op := op, dst := 2 }
def waiting3 : Thread := { thread0 with park := .remote 3 }
def replyS (status op : Nat) : State := { onHinge (replyM status op) with
  remotes := [(3, record3 op)], cores := [(0, { threads := [(0, waiting3), (1, { index := 1 })] })] }
def inheritM : HMsg := mine 0x12 (1 + 5 * 2 ^ 32) []
def goneM : HMsg := msg 0x13 0 1 (reqTag 0 5 0) (reqOp 0 false 0 0 0 0) []
def peerHasp : Hasp := { count := 1, peers := [({ dev := 2, ward := 0, slot := 5 }, 2)] }
def goneS : State := { onHinge goneM with hasps := [(0, peerHasp)] }
theorem witness_HingeMessages_replies :
    (Accepted (replyS 2 0) 0 17 (replyM 2 0) (reqOf (replyM 2 0).hdr).ward ∧
     List.find? (fun r => r.2.request == mTag (replyM 2 0).hdr % 65536 && r.2.slot == (reqOf (replyM 2 0).hdr).slot && r.2.dev == (reqOf (replyM 2
       0).hdr).dev) (replyS 2 0).remotes = some (3, record3 0) ∧
     mStatus (replyM 2 0).hdr = 2 ∧ liveCtx (replyS 2 0) (record3 0).slot = some ctx0) ∧
    (Accepted (replyS 0 1) 0 17 (replyM 0 1) (reqOf (replyM 0 1).hdr).ward ∧
     List.find? (fun r => r.2.request == mTag (replyM 0 1).hdr % 65536 && r.2.slot == (reqOf (replyM 0 1).hdr).slot && r.2.dev == (reqOf (replyM 0
       1).hdr).dev) (replyS 0 1).remotes = some (3, record3 1) ∧
     mStatus (replyM 0 1).hdr ≠ 2 ∧ threadOf (replyS 0 1) (record3 1).thread = some waiting3 ∧ waiting3.park = Park.remote 3 ∧
     waiting3.held = none ∧ recordWaiters (replyS 0 1) (record3 1).ward = []) ∧
    (Accepted (replyS 0 0) 0 17 (replyM 0 0) (reqOf (replyM 0 0).hdr).ward ∧
     List.find? (fun r => r.2.request == mTag (replyM 0 0).hdr % 65536 && r.2.slot == (reqOf (replyM 0 0).hdr).slot && r.2.dev == (reqOf (replyM 0
       0).hdr).dev) (replyS 0 0).remotes = some (3, record3 0) ∧
     mStatus (replyM 0 0).hdr ≠ 2 ∧ threadOf (replyS 0 0) (record3 0).thread = some waiting3 ∧ waiting3.park = Park.remote 3 ∧
     waiting3.held = none ∧ recordWaiters (replyS 0 0) (record3 0).ward = []) ∧
    (Accepted (onHinge inheritM) 0 18 inheritM 0 ∧ 0 = field (mOp inheritM.hdr) 11 8 ∧
     liveCtx (onHinge inheritM) (field (mOp inheritM.hdr) 21 12) = some ctx0 ∧ ctx0.ward = 0) ∧
    (Accepted goneS 0 19 goneM (reqOf goneM.hdr).tward) := by
  (repeat' (first | apply And.intro | apply Arrives.mk | apply Accepted.mk | apply RequestEnds.mk)) <;> decide +kernel
/-! ## Hinge links -/
/-- The flit that carries piece i of a message, and port 0 in a state. -/
def flitBits (m : HMsg) (i seq : Nat) (nak : Bool) : BitVec 2048 := BitVec.ofNat 2048 (leNat (flitBytes ((msgFlits m).getD i {}) seq 0 nak))
def badBits : BitVec 2048 := 1
def helloM : HMsg := msg 0x20 0 2 0 0 []
def port0 : Port := { state := 2, lanes := 255, neighbour := 2 }
def portS (x : Port) : State := { kHinge with hinge := { kHinge.hinge with ports := [x, {}, {}, {}] } }
def downPort : Port := {}
def training : Port := { port0 with state := 1 }
def sevenNaks : Port := { port0 with nakRun := 7, nakSeq := 1 }
def replaying : Port := { port0 with nakRun := 3, nakSeq := 1, replay := [(0, {}), (1, {})] }
theorem witness_HingeLinks_flits :
    ((portOf (portS downPort) 0).state ≠ 2) ∧
    ((portOf (portS port0) 0).state = 2 ∧ 0 < (portS port0).hinge.ports.length ∧
     (let b := natLe 256 badBits.toNat; let good := crc32 (List.take 252 b) = fld b 252 4; ¬good)) ∧
    ((portOf (portS port0) 0).state = 2 ∧ 0 < (portS port0).hinge.ports.length ∧
     (let x := portOf (portS port0) 0; let b := natLe 256 (flitBits helloM 0 5 false).toNat; (let good := crc32 (List.take 252 b) = fld b 252 4; good) ∧ let ctl := fld b 240 12; field ctl 95 84 ≠ x.expected)) ∧
    ((portOf (portS port0) 0).state = 2 ∧ 0 < (portS port0).hinge.ports.length ∧
     (let x := portOf (portS port0) 0; let b := natLe 256 (flitBits helloM 0 0 false).toNat; (let good := crc32 (List.take 252 b) = fld b 252 4; good) ∧ let ctl := fld b 240 12; field ctl 95 84 = x.expected)) ∧
    ((portOf (portS sevenNaks) 0).state = 2 ∧ 0 < (portS sevenNaks).hinge.ports.length ∧
     (let x := portOf (portS sevenNaks) 0; let b := natLe 256 (flitBits helloM 0 0 true).toNat; (let good := crc32 (List.take 252 b) = fld b 252 4; good) ∧ let ctl := fld b 240 12; field ctl 95 84 = x.expected)) ∧
    ((portOf (portS replaying) 0).state = 2 ∧ 0 < (portS replaying).hinge.ports.length ∧
     (let x := portOf (portS replaying) 0; let b := natLe 256 (flitBits helloM 0 0 true).toNat; (let good := crc32 (List.take 252 b) = fld b 252 4; good) ∧ let ctl := fld b 240 12; field ctl 95 84 = x.expected)) := by
  decide +kernel
/-- A record that device 2 has not answered. -/
def sent3 : Remote := { thread := ⟨0, 0⟩, slot := 0, dev := 2, request := 9 }
def asked (s : State) : State := { s with remotes := [(3, sent3)] }
def stopped0 : Port := { port0 with state := 0 }
def retrainPort (fail : Nat) : Port := { training with retraining := true, laneFail := fail }
def brokenLink (s : State) : State := { s with hinge := { s.hinge with known := [linkOf hinge0 0] } }
theorem witness_HingeLinks_trains :
    ((asked (portS training)).hinge.cfg = some hinge0 ∧ hcEnable hinge0 0 = true ∧ 0 < (asked (portS training)).hinge.ports.length ∧
     (portOf (asked (portS training)) 0).retraining = false ∧ (asked (portS training)).hinge.known.any (sameLink (linkOf hinge0 0)) = false ∧
     (let x := portOf (asked (portS training)) 0; x.state ≤ 1)) ∧
    ((brokenLink (portS training)).hinge.cfg = some hinge0 ∧ hcEnable hinge0 0 = true ∧ 0 < (brokenLink (portS training)).hinge.ports.length ∧
     (portOf (brokenLink (portS training)) 0).retraining = false ∧
     (brokenLink (portS training)).hinge.known.any (sameLink (linkOf hinge0 0)) = true ∧
     (let x := portOf (brokenLink (portS training)) 0; x.state ≤ 1)) ∧
    ((asked (portS training)).hinge.cfg = some hinge0 ∧ hcEnable hinge0 0 = true ∧ 0 < (asked (portS training)).hinge.ports.length ∧
     (portOf (asked (portS training)) 0).retraining = false ∧ (let x := portOf (asked (portS training)) 0; x.state = 1)) ∧
    ((portS stopped0).hinge.cfg = some hinge0 ∧ hcEnable hinge0 0 = true ∧ 0 < (portS stopped0).hinge.ports.length ∧
     (portOf (portS stopped0) 0).retraining = false ∧ (let x := portOf (portS stopped0) 0; x.state = 0)) ∧
    ((portOf (portS port0) 0).state = 2 ∧ 0 < (portS port0).hinge.ports.length) ∧
    ((portOf (asked (portS (retrainPort 0))) 0).state = 1 ∧ (portOf (asked (portS (retrainPort 0))) 0).retraining = true ∧
     0 < (asked (portS (retrainPort 0))).hinge.ports.length ∧
     (let x := portOf (asked (portS (retrainPort 0))) 0; let lanes := healthyLanes x.lanes x.laneFail; lanes ≠ 0 ∧ lanes = x.lanes)) ∧
    ((portOf (asked (portS (retrainPort 240))) 0).state = 1 ∧ (portOf (asked (portS (retrainPort 240))) 0).retraining = true ∧
     0 < (asked (portS (retrainPort 240))).hinge.ports.length ∧
     (asked (portS (retrainPort 240))).fns.length = 16 ∧ (asked (portS (retrainPort 240))).wards.length = 16 ∧
     (let x := portOf (asked (portS (retrainPort 240))) 0; let lanes := healthyLanes x.lanes x.laneFail; lanes ≠ 0 ∧ lanes ≠ x.lanes)) ∧
    ((portOf (asked (portS (retrainPort 255))) 0).state = 1 ∧ (portOf (asked (portS (retrainPort 255))) 0).retraining = true ∧
     0 < (asked (portS (retrainPort 255))).hinge.ports.length ∧
     (let x := portOf (asked (portS (retrainPort 255))) 0; let lanes := healthyLanes x.lanes x.laneFail; lanes = 0)) ∧
    ((portOf (asked (portS (retrainPort 0))) 0).state = 1 ∧ (portOf (asked (portS (retrainPort 0))) 0).retraining = true ∧
     0 < (asked (portS (retrainPort 0))).hinge.ports.length) := by
  (repeat' (first | apply And.intro | apply Arrives.mk | apply Accepted.mk | apply RequestEnds.mk)) <;> decide +kernel
def ownHello : HMsg := { hdr := mkHdr 0x20 0 0 1 1 3 0 0 0 }
/-- A ring of devices 1, 2 and 4, in which this one hears of the link between 1 and 2. -/
def ringBlock : Bytes := bytesWith 136 [(0, 1, 1), (1, 1, 2), (4, 2, 4), (6, 2, 1), (2, 2, 1), (8, 1, 3), (0x0E, 2, 8), (0x10, 2, 1), (0x12, 2, 4),
  (64, 2, 2), (66, 2, 1), (68, 2, 2), (70, 1, 0xFF), (72, 1, 0x01), (78, 2, 2), (80, 2, 2), (88, 1, 0x02), (94, 2, 64), (96, 2, 2),
  (104, 1, 0x11), (110, 2, 2), (112, 2, 2), (118, 2, 5), (120, 1, 0x12), (126, 2, 2), (128, 2, 2)]
def ringHinge (m : HMsg) (known : List (Nat × Nat)) : State :=
  let s := onHinge m
  { s with hinge := { s.hinge with cfg := some ringBlock, known := known, ports := [{ port0 with rx := [m] }, { port0 with neighbour := 0xFFF }, {}, {}] } }
def brokenM : HMsg := msg 0x21 0 1 0 (1 + 2 * 4096) []
def mendedM : HMsg := msg 0x22 0 1 0 (1 + 2 * 4096) []
theorem witness_HingeLinks_notices :
    (Arrives (onHinge helloM) 0 32 helloM ∧ mSrc helloM.hdr ≠ ownId (onHinge helloM)) ∧
    (Arrives (asked (onHinge ownHello)) 0 32 ownHello ∧ mSrc ownHello.hdr = ownId (asked (onHinge ownHello))) ∧
    (Arrives (ringHinge brokenM []) 0 33 brokenM ∧ (ringHinge brokenM []).hinge.cfg = some ringBlock ∧
     (let l := (mOp brokenM.hdr % 4096, mOp brokenM.hdr / 4096 % 4096); let fresh := hcTopology ringBlock = 2 ∧ 0 < 2 ∧ (ringHinge brokenM []).hinge.known.any (sameLink l) = false; fresh)) ∧
    (Arrives (asked (ringHinge brokenM [])) 0 33 brokenM ∧ (asked (ringHinge brokenM [])).hinge.cfg = some ringBlock ∧
     (let l := (mOp brokenM.hdr % 4096, mOp brokenM.hdr / 4096 % 4096); let fresh := hcTopology ringBlock = 2 ∧ 0 < 2 ∧ (asked (ringHinge brokenM [])).hinge.known.any (sameLink l) = false; fresh)) ∧
    (Arrives (ringHinge brokenM [(1, 2)]) 0 33 brokenM ∧ (ringHinge brokenM [(1, 2)]).hinge.cfg = some ringBlock ∧
     (let l := (mOp brokenM.hdr % 4096, mOp brokenM.hdr / 4096 % 4096); let fresh := hcTopology ringBlock = 2 ∧ 0 < 2 ∧ (ringHinge brokenM [(1, 2)]).hinge.known.any (sameLink l) = false; ¬fresh)) ∧
    (Arrives (onHinge brokenM) 0 33 brokenM ∧ (onHinge brokenM).hinge.cfg = some hinge0 ∧
     (let l := (mOp brokenM.hdr % 4096, mOp brokenM.hdr / 4096 % 4096); let fresh := hcTopology hinge0 = 2 ∧ 0 < 2 ∧ (onHinge brokenM).hinge.known.any (sameLink l) = false; ¬fresh)) ∧
    (Arrives (ringHinge mendedM [(1, 2)]) 0 34 mendedM ∧ 0 < 2 ∧
     (let l := (mOp mendedM.hdr % 4096, mOp mendedM.hdr / 4096 % 4096); (ringHinge mendedM [(1, 2)]).hinge.known.any (sameLink l) = true)) ∧
    (Arrives (ringHinge mendedM []) 0 34 mendedM ∧
     (let l := (mOp mendedM.hdr % 4096, mOp mendedM.hdr / 4096 % 4096); 2 ≤ 0 ∨ (ringHinge mendedM []).hinge.known.any (sameLink l) = false)) ∧
    ((asked (ringHinge helloM [])).hinge.cfg = some ringBlock ∧ hcEnable ringBlock 0 = true ∧
     (portOf (asked (ringHinge helloM [])) 0).state ≠ 3 ∧
     (let l := linkOf ringBlock 0; (asked (ringHinge helloM [])).hinge.known.any (sameLink l) = false)) ∧
    ((asked (onHinge helloM)).hinge.cfg = some hinge0 ∧ hcEnable hinge0 0 = true ∧ (portOf (asked (onHinge helloM)) 0).state ≠ 3 ∧
     (let l := linkOf hinge0 0; (asked (onHinge helloM)).hinge.known.any (sameLink l) = false)) ∧
    ((let fresh := List.filter (fun l => !(asked (ringHinge helloM [(1, 2), (0, 1)])).hinge.avoided.any (sameLink l)) (asked (ringHinge helloM [(1, 2), (0, 1)])).hinge.known; fresh ≠ [])) := by
  (repeat' (first | apply And.intro | apply Arrives.mk | apply Accepted.mk | apply RequestEnds.mk)) <;> decide +kernel
/-- HINGE_CONFIG of a block that every check accepts, and of one that names no range in use. -/
def staticBlock : Bytes := bytesWith 136 [(0, 1, 1), (2, 2, 1), (8, 1, 1), (0x0E, 2, 8), (0x10, 2, 1), (0x12, 2, 4),
  (64, 2, 2), (66, 2, 1), (72, 1, 0x01), (78, 2, 2), (80, 2, 2), (88, 1, 0x02), (94, 2, 64), (96, 2, 2),
  (104, 1, 0x11), (110, 2, 2), (112, 2, 2), (118, 2, 5), (120, 1, 0x12), (126, 2, 2), (128, 2, 2)]
def noRanges : Bytes := bytesWith 64 [(0, 1, 1), (0xE, 2, 1), (2, 2, 1)]
def hingeE (k : Nat) : Bytes := entry 0xB 0x40000 0 [k]
def hingeCmd (k : Nat) (b : Bytes) (s : State) : State := admCmd (hingeE k) (memAt 0x40000 b) s
def peersHold : State := { kHinge with hasps := [(0, peerHasp)] }
theorem witness_HingeLinks_config :
    (readyCmd (RingRef.admin 0) 0 11 (hingeCmd 135 staticBlock up) = some (cmd0 (hingeE 135)) ∧
     (let k := entArg (cmd0 (hingeE 135)).entry 0; let b := hostRead (hingeCmd 135 staticBlock up) (entAddr0 (cmd0 (hingeE 135)).entry) k; let sized := 64 ≤ k ∧ k = 64 + 8 * hcRoutes b + 16 * hcRemotes b; ¬sized)) ∧
    (readyCmd (RingRef.admin 0) 0 11 (hingeCmd 136 hinge0 up) = some (cmd0 (hingeE 136)) ∧
     (let k := entArg (cmd0 (hingeE 136)).entry 0; let b := hostRead (hingeCmd 136 hinge0 up) (entAddr0 (cmd0 (hingeE 136)).entry) k; hingeBlockBad b = some ((hingeBlockBad hinge0).getD 0) ∧ let sized := 64 ≤ k ∧ k = 64 + 8 * hcRoutes b + 16 * hcRemotes b; sized)) ∧
    (readyCmd (RingRef.admin 0) 0 11 (hingeCmd 64 noRanges peersHold) = some (cmd0 (hingeE 64)) ∧
     (let k := entArg (cmd0 (hingeE 64)).entry 0; let b := hostRead (hingeCmd 64 noRanges peersHold) (entAddr0 (cmd0 (hingeE 64)).entry) k; hingeBlockBad b = none ∧ (let used := ((Option.map hcRanges (hingeCmd 64 noRanges peersHold).hinge.cfg).getD []).any fun e => !(hcRanges b).contains e && rangeUsed (hingeCmd 64 noRanges peersHold) e; used = true) ∧ let sized := 64 ≤ k ∧ k = 64 + 8 * hcRoutes b + 16 * hcRemotes b; sized)) ∧
    (readyCmd (RingRef.admin 0) 0 11 (hingeCmd 136 staticBlock up) = some (cmd0 (hingeE 136)) ∧
     (let k := entArg (cmd0 (hingeE 136)).entry 0; let b := hostRead (hingeCmd 136 staticBlock up) (entAddr0 (cmd0 (hingeE 136)).entry) k; hingeBlockBad b = none ∧ (let used := ((Option.map hcRanges (hingeCmd 136 staticBlock up).hinge.cfg).getD []).any fun e => !(hcRanges b).contains e && rangeUsed (hingeCmd 136 staticBlock up) e; used = false) ∧ let sized := 64 ≤ k ∧ k = 64 + 8 * hcRoutes b + 16 * hcRemotes b; sized)) := by
  (repeat' (first | apply And.intro | apply Arrives.mk | apply Accepted.mk | apply RequestEnds.mk)) <;> decide +kernel

/-! ## Counters and samples -/
def timerC (v : Nat) : Instr × Nat := (.sampleTimerEnable v, v % 2 ^ 63 + 2 ^ 63)
def externalC (v : Nat) : Instr × Nat := (.sampleExternalEnable v, v ||| 2 ^ 62)
/-- A task that a head's Detent holds, a genlocked head, a sample buffer. -/
def heldS : State := { onHead (inFrame { frame0 with kind := .g } ctx0) { head0 with detentAt := some 4000 } 1000 with tasks := [(1, { kind := .tile 0, frame := some 0 })] }
def genlocked : Head := { cfg := some (headBlk [(3, 1, 2)]) }
def sampleOn : Perf := { sbufEnable := true, sbufBase := 0x90000 }
def perfS (p : Perf) : State := { up with perf := p }
def readPerf : Perf := { sampleOn with producer := 5, consumer := 2 }
theorem witness_Counters_writes :
    (barsOpen State.reset 0 = false) ∧
    (barsOpen up 0 = true ∧ 0 < coreCount up ∧ (2 ^ 31 + 3) % 32 ≤ 16) ∧
    (barsOpen up 0 = true) ∧
    (barsOpen heldS 0 = true ∧ 2 ^ 63 < 2 ^ 64 ∧
     (let w := (timerC (2 ^ 63)).2; let held := w.testBit 63 = true ∧ detentHolds heldS (field w 58 48) = true; held)) ∧
    (barsOpen (withHead 0 genlocked up) 0 = true ∧ 2 ^ 62 < 2 ^ 64 ∧
     (let w := (externalC (2 ^ 62)).2; (let genlocked := w.testBit 62 = true ∧ genlockOn (withHead 0 genlocked up) = true; genlocked) ∧ let held := w.testBit 63 = true ∧ detentHolds (withHead 0 genlocked up) (field w 58 48) = true; ¬held)) ∧
    (barsOpen up 0 = true ∧ 5 * 2 ^ 32 < 2 ^ 64 ∧
     (let w := (timerC (5 * 2 ^ 32)).2; field w 58 48 ≤ 1025 ∧ (let genlocked := w.testBit 62 = true ∧ genlockOn up = true; ¬genlocked) ∧ let held := w.testBit 63 = true ∧ detentHolds up (field w 58 48) = true; ¬held)) ∧
    (barsOpen up 0 = true ∧ 5 * 2 ^ 32 < 2 ^ 64 ∧
     (let w := (externalC (5 * 2 ^ 32)).2; field w 58 48 ≤ 1025 ∧ (let genlocked := w.testBit 62 = true ∧ genlockOn up = true; ¬genlocked) ∧ let held := w.testBit 63 = true ∧ detentHolds up (field w 58 48) = true; ¬held)) ∧
    (barsOpen up 0 = true ∧ up.perf.sbufEnable = false ∧ (2 ^ 63 + 6 * 2 ^ 32 + 1).testBit 63 = true ∧
     6 ≤ field (2 ^ 63 + 6 * 2 ^ 32 + 1) 36 32 ∧ field (2 ^ 63 + 6 * 2 ^ 32 + 1) 36 32 ≤ 16 ∧ 1 ≤ (2 ^ 63 + 6 * 2 ^ 32 + 1) % 2 ^ 17 ∧
     (2 ^ 63 + 6 * 2 ^ 32 + 1) % 2 ^ 17 ≤ 2 ^ field (2 ^ 63 + 6 * 2 ^ 32 + 1) 36 32) ∧
    (barsOpen (perfS sampleOn) 0 = true ∧ (perfS sampleOn).perf.sbufEnable = true ∧ (2 ^ 63).testBit 63 = true) ∧
    (barsOpen (perfS sampleOn) 0 = true ∧ (perfS sampleOn).perf.sbufEnable = true ∧ Nat.testBit 0 63 = false) ∧
    (barsOpen (perfS readPerf) 0 = true ∧ 3 < 2 ^ 32 ∧
     (let left := ((perfS readPerf).perf.producer + 2 ^ 32 - 3) % 2 ^ 32; left ≤ sbufUnread (perfS readPerf).perf)) ∧
    (barsOpen (perfS readPerf) 0 = true ∧ 1 < 2 ^ 32 ∧
     (let left := ((perfS readPerf).perf.producer + 2 ^ 32 - 1) % 2 ^ 32; sbufUnread (perfS readPerf).perf < left)) ∧
    (barsOpen (withCtx ctx0 up) 0 = true ∧ 0 < 1024 ∧ (true = false ∨ (slotOf (withCtx ctx0 up) 0).state = SlotState.live)) ∧
    (barsOpen up 0 = true ∧ 1023 < 1024 ∧ (false = false ∨ (slotOf up 1023).state = SlotState.live)) ∧
    (barsOpen up 0 = true ∧ 1023 < 1024 ∧ true = true ∧ (slotOf up 1023).state ≠ SlotState.live) := by
  (repeat' (first | apply And.intro | apply Arrives.mk | apply Accepted.mk)) <;> decide +kernel
def bwCore : CorePerf := { bwEnable := true, bwRuns := true, bwCur := [5, 0, 0, 0, 0, 0] }
def bwS : State := { perfS { cores := [(0, bwCore)] } with now := 60000 }
def timerPerf : Perf := { sampleOn with timerOn := true, sampleCores := 1 }
def timedHead : Head := { cfg := some (headBlk []), prevStart := some 3 }
def timedS (p : Perf) : State := { withHead 0 timedHead up with perf := p, now := 10 ^ 9 }
def sample0 : PSample := {}
def waitingPerf : Perf := { timerPerf with cores := [(0, { sample := some sample0 })] }
def offPerf : Perf := { timerPerf with sbufEnable := false }
/-- A record of core 0 waits, below the watermark and at it. -/
def recordS (mark : Nat) : State := { k0 with fns := k0.fns.set 0 { msix := [(0, { masked := false })] }, perf := { waitingPerf with watermark := mark } }
theorem witness_Counters_samples :
    ((let p := corePerf bwS 0; p.bwEnable = true ∧ p.bwIndex < tb bwS / (100 * 2 ^ p.bwWindow))) ∧
    (timerDue (timedS offPerf) = true ∧ (timedS offPerf).perf.sbufEnable = false) ∧
    (timerDue (timedS timerPerf) = true ∧ (timedS timerPerf).perf.sbufEnable = true ∧
     bitList (coreCount (timedS timerPerf)) (timedS timerPerf).perf.sampleCores = [0] ∧
     (let full := (corePerf (timedS timerPerf) 0).sample.isSome = true ∨ sbufUnread (timedS timerPerf).perf = 2 ^ (timedS timerPerf).perf.sbufLog2; ¬full)) ∧
    (timerDue (timedS waitingPerf) = true ∧ (timedS waitingPerf).perf.sbufEnable = true ∧
     bitList (coreCount (timedS waitingPerf)) (timedS waitingPerf).perf.sampleCores = [0] ∧
     (let full := (corePerf (timedS waitingPerf) 0).sample.isSome = true ∨ sbufUnread (timedS waitingPerf).perf = 2 ^ (timedS waitingPerf).perf.sbufLog2; full)) := by
  (repeat' (first | apply And.intro | apply Arrives.mk | apply Accepted.mk)) <;> decide +kernel
theorem witness_Counters_records :
    ((corePerf (recordS 1) 0).sample = some sample0 ∧ (recordS 1).perf.sbufEnable = true ∧
     (∀ (i : ℕ), some 0 = some i → (threadOf (recordS 1) { core := 0, slot := i }).isSome = true) ∧ (recordS 1).hostMem.wf = true) ∧
    ((corePerf (recordS 9) 0).sample = some sample0 ∧ (recordS 9).perf.sbufEnable = true ∧
     (∀ (i : ℕ), some 1 = some i → (threadOf (recordS 9) { core := 0, slot := i }).isSome = true) ∧ (recordS 9).hostMem.wf = true) := by
  refine ⟨⟨by decide +kernel, by decide +kernel, ?_, by decide +kernel⟩, by decide +kernel, by decide +kernel, ?_, by decide +kernel⟩ <;> (intro i h; cases h; decide +kernel)
theorem witness_Counters_fault :
    (corePerf (recordS 1) 0).sample = some sample0 ∧ (recordS 1).perf.sbufEnable = true ∧
    (∀ (i : ℕ), none = some i → (threadOf (recordS 1) { core := 0, slot := i }).isSome = true) ∧
    (recordS 1).fns.length = 16 ∧ (recordS 1).wards.length = 16 := by
  refine ⟨by decide +kernel, by decide +kernel, ?_, by decide +kernel, by decide +kernel⟩; intro i h; cases h
theorem witness_Counters_mark : sbufUnread { (recordS 1).perf with producer := ((recordS 1).perf.producer + 1) % 2 ^ 32 } = (recordS 1).perf.watermark ∧
    (tgetD (fnOf (recordS 1) 0).msix (recordS 1).perf.sbufVector {}).masked = false ∧
    sbufUnread { (recordS 9).perf with producer := ((recordS 9).perf.producer + 1) % 2 ^ 32 } ≠ (recordS 9).perf.watermark := by decide +kernel
/-! ## Repair -/
def noErrors : Corrected := {}
/-- Ward 0 over four channels, with a granule of context 0 in each. -/
def chanWard : Ward := { ward0 with cfg := wardCfg, allocs := [{ base := 1, count := 1, kind := .general 0, chans := 15 }] }
def chanS (r : Ras) : State := { withCtx ctx0 up with ras := r, wards := up.wards.set 0 chanWard }
def spareRas : Ras := {}
def noSpare : Ras := { chanSpares := [0, 0, 0, 0, 0, 0] }
def copyingRas : Ras := { copying := [0], rowsUsed := [(0, 512)] }
theorem witness_Repair_vault :
    (up.fns.length = 16 ∧ up.wards.length = 16 ∧ outOfReset up = true) ∧
    ((chanS spareRas).fns.length = 16 ∧ (chanS spareRas).wards.length = 16 ∧ outOfReset (chanS spareRas) = true ∧ 0 < 16) ∧
    ((chanS spareRas).fns.length = 16 ∧ (chanS spareRas).wards.length = 16 ∧ outOfReset (chanS spareRas) = true ∧
     0 < channelCount (chanS spareRas) ∧ (let used := tgetD (chanS spareRas).ras.rowsUsed 0 0; used < 512)) ∧
    ((chanS (freshRas Part.bkz2048)).fns.length = 16 ∧ (chanS (freshRas Part.bkz2048)).wards.length = 16 ∧
     outOfReset (chanS (freshRas Part.bkz2048)) = true ∧ 0 < channelCount (chanS (freshRas Part.bkz2048)) ∧
     copiesOfStack (chanS (freshRas Part.bkz2048)) 0 < stackSpares (chanS (freshRas Part.bkz2048)) 0 ∧
     0 ∉ (chanS (freshRas Part.bkz2048)).ras.copying ∧ 0 ∉ (chanS (freshRas Part.bkz2048)).ras.failedChans) ∧
    ((chanS (freshRas Part.bkz2048)).fns.length = 16 ∧ (chanS (freshRas Part.bkz2048)).wards.length = 16 ∧
     outOfReset (chanS (freshRas Part.bkz2048)) = true ∧ 0 < channelCount (chanS (freshRas Part.bkz2048)) ∧
     0 ∉ (chanS (freshRas Part.bkz2048)).ras.failedChans) ∧
    ((chanS noSpare).fns.length = 16 ∧ (chanS noSpare).wards.length = 16 ∧ outOfReset (chanS noSpare) = true ∧ 0 < channelCount (chanS noSpare) ∧
     0 ∉ (chanS noSpare).ras.failedChans) ∧
    ((chanS copyingRas).fns.length = 16 ∧ (chanS copyingRas).wards.length = 16 ∧ 0 ∈ (chanS copyingRas).ras.copying) := by
  (repeat' (first | apply And.intro | apply Arrives.mk | apply Accepted.mk)) <;> decide +kernel
def drainS (cause : CoreCause) (r : Ras) (busy : Bool) : State := { k0 with
  ras := r, now := 60000001, tasks := if busy then k0.tasks else [], cores := k0.cores.map (fun c => (c.1, { c.2 with mode := .draining cause 0 })) }
def coreSpares : Ras := { spares := [2048, 2049] }
def testingRas : Ras := { testing := [(5, 3)], spares := [7] }
def rasS (r : Ras) : State := { up with ras := r }
def ctxBusy : State := { upWard with slots := [(0, { state := .live })], ctxs := [(0, ctx0)] }
theorem witness_Repair_cores :
    (outOfReset up = true ∧ 2047 < coreCount up ∧ (coreOf up 2047).mode = CoreMode.running) ∧
    ((drainS CoreCause.test coreSpares false).fns.length = 16 ∧ (drainS CoreCause.test coreSpares false).wards.length = 16 ∧
     (coreOf (drainS CoreCause.test coreSpares false) 0).mode = CoreMode.draining CoreCause.test 0 ∧
     startedOn (drainS CoreCause.test coreSpares false) 0 = []) ∧
    ((drainS CoreCause.corrected spareRas false).fns.length = 16 ∧ (drainS CoreCause.corrected spareRas false).wards.length = 16 ∧
     (coreOf (drainS CoreCause.corrected spareRas false) 0).mode = CoreMode.draining CoreCause.corrected 0 ∧
     startedOn (drainS CoreCause.corrected spareRas false) 0 = []) ∧
    ((drainS CoreCause.test coreSpares true).fns.length = 16 ∧ (drainS CoreCause.test coreSpares true).wards.length = 16 ∧
     (coreOf (drainS CoreCause.test coreSpares true) 0).mode = CoreMode.draining CoreCause.test 0 ∧
     startedOn (drainS CoreCause.test coreSpares true) 0 ≠ [] ∧ 0 + 60000000 ≤ (drainS CoreCause.test coreSpares true).now ∧
     (List.map (fun x => x.1) (drainS CoreCause.test coreSpares true).tasks).Nodup) ∧
    ((rasS coreSpares).fns.length = 16 ∧ (rasS coreSpares).wards.length = 16 ∧
     (CoreCause.uncorrectable = CoreCause.uncorrectable ∨ CoreCause.uncorrectable = CoreCause.parity) ∧ outOfReset (rasS coreSpares) = true ∧
     0 < coreCount (rasS coreSpares) ∧ (coreOf (rasS coreSpares) 0).mode ≠ CoreMode.failed ∧
     (List.map (fun x => x.1) (rasS coreSpares).tasks).Nodup) ∧
    (k0.fns.length = 16 ∧ k0.wards.length = 16 ∧ (CoreCause.parity = CoreCause.uncorrectable ∨ CoreCause.parity = CoreCause.parity) ∧
     outOfReset k0 = true ∧ 0 < coreCount k0 ∧ (coreOf k0 0).mode ≠ CoreMode.failed ∧ (List.map (fun x => x.1) k0.tasks).Nodup) ∧
    (tget (rasS testingRas).ras.testing 5 = some 3) ∧
    (tget (rasS testingRas).ras.testing 7 = none ∧ 7 ∈ (rasS testingRas).ras.spares) ∧
    (up.fns.length = 16 ∧ up.wards.length = 16 ∧ outOfReset up = true) ∧
    (ctxBusy.fns.length = 16 ∧ ctxBusy.wards.length = 16 ∧ outOfReset ctxBusy = true ∧ liveCtx ctxBusy 0 = some ctx0 ∧
     wardHasUnit (wardOf ctxBusy ctx0.ward).cfg (FixedUnit.rtu 0) = true) := by
  (repeat' (first | apply And.intro | apply Arrives.mk | apply Accepted.mk)) <;> decide +kernel
/-! ## Security -/
/-- A device without power, its PERST_N asserted. -/
def bootS (b : Boot) : State := { State.reset with boot := b }
def powerless : State := bootS { power := false, perst := true }
def secS (x : Sec) : State := { up with sec := x }
def unlockedSec : Sec := { unlocked := true }
def heldOff : Sec := { holdoff := true }
def noChallenge : Sec := {}
def unlockedNow : Sec := { unlocked := true, unlockWas := some (5, 8, true) }
def svnNow : Sec := { svnRaised := 4, svnWas := some (5, 3) }
theorem witness_Security_port :
    (up.fns.length = 16 ∧ up.wards.length = 16 ∧ outOfReset up = true) ∧
    (up.boot.power = true) ∧
    (powerless.boot.power = false) ∧
    (outOfReset State.reset = false) ∧
    (outOfReset up = true) ∧
    (noChallenge.unlockWas = none ∧ noChallenge.svnWas = none) ∧
    (unlockedNow.unlockWas = some (5, 8, true)) ∧
    (svnNow.svnWas = some (5, 3)) := by
  (repeat' (first | apply And.intro | apply Arrives.mk | apply Accepted.mk)) <;> decide +kernel
/-- The hold-off began at 0 and ends now. -/
def holdEnds : State := { secS heldOff with now := 6000000000 }
theorem witness_Security_lock :
    (outOfReset up = true ∧ up.sec.holdoff = false) ∧
    (outOfReset (secS heldOff) = true ∧ (secS heldOff).sec.holdoff = true) ∧
    (outOfReset (secS noChallenge) = true ∧ responseValid (secS noChallenge) 1 2 = false) ∧
    (outOfReset (secS noChallenge) = true ∧ (secS noChallenge).sec.unlocked = false) ∧
    (outOfReset (secS unlockedSec) = true ∧ (secS unlockedSec).sec.unlocked = true) ∧
    (holdEnds.sec.holdoff = true ∧ holdEnds.sec.holdoffAt + 6000000000 ≤ holdEnds.now) := by
  (repeat' (first | apply And.intro | apply Arrives.mk | apply Accepted.mk)) <;> decide +kernel
/-- A challenge of zeros, whose digest is z, signed with the private key 1. -/
def challenged : Sec := { challenge := some 0 }
def zeroDigest : Nat := 25002714928494966271747975156357681692251132181234715675664020813905482495931
theorem zeros_signed : sha256 (natLe 16 0) = natBe 32 zeroDigest ∧ (gx384, gy384) ∈ signingKeys gx384 (gx384 + zeroDigest) (natBe 32 zeroDigest) ∧
    ecdsaVerify gx384 gy384 gx384 (gx384 + zeroDigest) (natBe 32 zeroDigest) = true ∧
    beNat (sha256 (natBe 48 gx384 ++ natBe 48 gy384)) = (BitVec.ofNat 256 keyHash0).toNat := by decide +kernel
theorem challenge_answered (f : Config.debugKeyHash = BitVec.ofNat 256 keyHash0) :
    responseValid (secS challenged) gx384 (gx384 + zeroDigest) = true := by
  obtain ⟨d, m, v, k⟩ := zeros_signed
  rewrite [responseValid, show (secS challenged).sec.challenge = some 0 from rfl]
  refine List.any_eq_true.mpr ⟨(gx384, gy384), ?_, ?_⟩
  · rewrite [d]; exact m
  · rewrite [d, f, ← k, v, beq_self_eq_true]; rfl
theorem witness_Security_unlock (f : Config.debugKeyHash = BitVec.ofNat 256 keyHash0) :
    outOfReset (secS challenged) = true ∧ responseValid (secS challenged) gx384 (gx384 + zeroDigest) = true ∧
    (secS challenged).fns.length = 16 ∧ (secS challenged).wards.length = 16 := by
  exact ⟨by decide +kernel, challenge_answered f, by decide +kernel, by decide +kernel⟩
/-! ## Resets and start-up -/
def heldCold : State := bootS { perst := true, coldHeld := true, lastCause := 3 }
def noPower : State := bootS { perst := false, power := false }
def released : State := bootS { perst := false }
def atStage (k : Nat) : State := bootS { perst := false, pll := true, stage := k }
theorem witness_Boot_resets :
    (up.boot.power = true) ∧
    (powerless.boot.power = false) ∧
    (State.reset.boot.perst = true) ∧
    (up.boot.perst = false ∧ up.boot.power = true) ∧
    (noPower.boot.perst = false ∧ noPower.boot.power = false) ∧
    (State.reset.boot.perst = true ∧ ¬(State.reset.boot.coldHeld = true ∧ State.reset.boot.lastCause = 3)) ∧
    (heldCold.boot.perst = true ∧ heldCold.boot.coldHeld = true ∧ heldCold.boot.lastCause = 3) ∧
    (up.boot.perst = false) := by
  (repeat' (first | apply And.intro | apply Arrives.mk | apply Accepted.mk)) <;> decide +kernel
theorem witness_Boot_steps :
    (outOfReset released = true ∧ released.boot.pll = false) ∧
    (outOfReset (atStage 1) = true ∧ (atStage 1).boot.pll = true ∧ (atStage 1).boot.stage = 1) ∧
    (outOfReset (atStage 1) = true ∧ (atStage 1).boot.pll = true ∧ (atStage 1).boot.stage = 1 ∧
     (let first := recordSlot (atStage 1).flash.record; let ok := fun k => bootCheck (atStage 1) (if k = 0 then (atStage 1).flash.slot0 else (atStage 1).flash.slot1) = none; ¬ok first ∧ ¬ok (1 - first))) ∧
    (outOfReset (atStage 2) = true ∧ (atStage 2).boot.stage = 2) ∧
    (outOfReset (atStage 3) = true ∧ (atStage 3).boot.stage = 3) ∧
    (outOfReset (atStage 4) = true ∧ (atStage 4).boot.decoded = false ∧ ((atStage 4).boot.stage = 4 ∨ (atStage 4).boot.stage = 15)) ∧
    (outOfReset (atStage 15) = true ∧ (atStage 15).boot.decoded = false ∧ ((atStage 15).boot.stage = 4 ∨ (atStage 15).boot.stage = 15)) := by
  (repeat' (first | apply And.intro | apply Arrives.mk | apply Accepted.mk)) <;> decide +kernel
/-- Slot 0 of the flash holds the signed image. -/
def flashS : State := { atStage 1 with flash := { slot0 := phipel0 } }
theorem phipel0_boots : bootImage phipel0 = phipel0 ∧ fwLength phipel0 = 4096 := by decide +kernel
theorem witness_Boot_starts (k : Config.keyRevoked 0 = false) (f : Config.rootKeyHash 0 = BitVec.ofNat 256 keyHash0) :
    outOfReset flashS = true ∧ flashS.boot.pll = true ∧ flashS.boot.stage = 1 ∧
    (let first := recordSlot flashS.flash.record; let ok := fun k => bootCheck flashS (if k = 0 then flashS.flash.slot0 else flashS.flash.slot1) = none; ok first ∨ ok (1 - first)) := by
  refine ⟨by decide +kernel, by decide +kernel, by decide +kernel, Or.inl ?_⟩; show bootCheck flashS phipel0 = none; rewrite [bootCheck, phipel0_boots.1, phipel0_boots.2]; exact phipel0_accepted k f rfl
theorem witness_Functions_held :
    configOpen State.reset = false := by
  decide +kernel
/-! ## Operating points and the endpoint -/
def opS (x : OpPoint) (s : State) : State := { s with op := x, now := 200 * 6000000 }
def cool : OpPoint := {}
def point2 : OpPoint := { target := 2 }
def hotOp : OpPoint := { readings := { tempMax := 120 * 16, power := 500 * 8 } }
def awaited : OpPoint := { pending := true, waits := [0] }
def settled : OpPoint := { pending := true }
def liveCtx0 : State := withCtx ctx0 up
def hotReadings : Readings := { tempMax := 110 * 16, power := 399 * 8 }
def switchingUp : State := { up with fw := { switching := true } }
theorem witness_OperatingPoints :
    (outOfReset (opS cool liveCtx0) = true ∧ (opS cool liveCtx0).boot.pll = true ∧
     6000000 * (opS cool liveCtx0).op.evalMs ≤ (opS cool liveCtx0).now ∧ (opS cool liveCtx0).op.pending = false ∧
     (opS cool liveCtx0).fns.length = 16 ∧ (opS cool liveCtx0).wards.length = 16) ∧
    (outOfReset (opS point2 liveCtx0) = true ∧ (opS point2 liveCtx0).boot.pll = true ∧
     6000000 * (opS point2 liveCtx0).op.evalMs ≤ (opS point2 liveCtx0).now ∧ (opS point2 liveCtx0).op.pending = false ∧
     (opS point2 liveCtx0).fns.length = 16 ∧ (opS point2 liveCtx0).wards.length = 16) ∧
    (outOfReset (opS hotOp liveCtx0) = true ∧ (opS hotOp liveCtx0).boot.pll = true ∧
     6000000 * (opS hotOp liveCtx0).op.evalMs ≤ (opS hotOp liveCtx0).now ∧ (opS hotOp liveCtx0).op.pending = false ∧
     (opS hotOp liveCtx0).fns.length = 16 ∧ (opS hotOp liveCtx0).wards.length = 16) ∧
    (outOfReset (opS hotOp up) = true ∧ (opS hotOp up).boot.pll = true ∧ 6000000 * (opS hotOp up).op.evalMs ≤ (opS hotOp up).now ∧
     (opS hotOp up).op.pending = false ∧ (opS hotOp up).fns.length = 16 ∧ (opS hotOp up).wards.length = 16) ∧
    (outOfReset (opS awaited liveCtx0) = true ∧ (opS awaited liveCtx0).boot.pll = true ∧
     6000000 * (opS awaited liveCtx0).op.evalMs ≤ (opS awaited liveCtx0).now ∧ (opS awaited liveCtx0).op.pending = true ∧
     opWaits (opS awaited liveCtx0) ≠ []) ∧
    (outOfReset (opS settled liveCtx0) = true ∧ (opS settled liveCtx0).boot.pll = true ∧
     6000000 * (opS settled liveCtx0).op.evalMs ≤ (opS settled liveCtx0).now ∧ (opS settled liveCtx0).op.pending = true ∧
     opWaits (opS settled liveCtx0) = []) ∧
    (barsOpen State.reset 0 = false) ∧
    (barsOpen up 0 = true) ∧
    (outOfReset (opS cool up) = true ∧ (opS cool up).boot.pll = true ∧ 6000000 * (opS cool up).op.freshMs ≤ (opS cool up).now) ∧
    (up.boot.power = true) := by
  (repeat' (first | apply And.intro | apply Arrives.mk | apply Accepted.mk)) <;> decide +kernel
def arp (a : Nat) : Instr × Nat := (.smbusArp a, 0)
theorem witness_SmbusEndpoint :
    ((outOfReset State.reset = false ∨ State.reset.boot.stage = 0)) ∧
    (outOfReset switchingUp = true ∧ switchingUp.boot.stage ≠ 0 ∧ switchingUp.fw.switching = true) ∧
    (outOfReset up = true ∧ up.boot.stage ≠ 0 ∧ up.fw.switching = false) ∧
    (outOfReset up = true ∧ up.boot.stage ≠ 0 ∧ up.fw.switching = false ∧ 1 ≤ 1 ∧ 1 ≤ 11) ∧
    (outOfReset up = true ∧ up.boot.stage ≠ 0 ∧ up.fw.switching = false ∧ 1 ≤ 11 ∧ 11 ≤ 11) ∧
    (outOfReset up = true ∧ up.boot.stage ≠ 0 ∧ up.fw.switching = false ∧ 12 ≤ 12) ∧
    (outOfReset up = true ∧ up.boot.stage ≠ 0 ∧ up.fw.switching = false ∧ 1 ≤ 8 ∧ 8 ≤ 8) ∧
    (outOfReset up = true ∧ up.boot.stage ≠ 0 ∧ up.fw.switching = false ∧ (9 = 0 ∨ 9 ≤ 9)) ∧
    (outOfReset up = true ∧ up.boot.stage ≠ 0 ∧ up.fw.switching = false ∧ 9 ≤ 11 ∧ 11 ≤ 11) ∧
    (outOfReset up = true ∧ up.boot.stage ≠ 0 ∧ up.fw.switching = false ∧ (12 ≤ 8 ∨ 12 ≤ 12)) := by
  (repeat' (first | apply And.intro | apply Arrives.mk | apply Accepted.mk)) <;> decide +kernel
/-! ## The machine as a whole -/
def expiredS : State := { asked (withCtx ctx0 up) with remotes := [(3, { sent3 with expired := true })] }
def notedS : State := { up with perf := { noted := [.chip 0x200 0 1 none], chip := [(3, { sel := 0x200 })] } }
theorem witness_IdleTick : ∀ s ∈ [up, expiredS, notedS, { up with perf := { freeze := true } }], s.pending = [] ∧ outOfReset s = true ∧
    s.boot.pll = true ∧ s.hinge.requests = [] := by decide +kernel
theorem witness_IdleTick_records : (∀ r ∈ up.remotes, r.2.expired = false) ∧
    (∀ r ∈ expiredS.remotes, r.2.expired = true ∧ (liveCtx expiredS r.2.slot).isSome = true) ∧ expiredS.remotes ≠ [] := by decide +kernel
theorem witness_IdleTick_counts : notedS.perf.freeze = false ∧ notedS.perf.cleared = false ∧ notedS.perf.cores = [] ∧ notedS.remotes = [] ∧
    tget notedS.perf.chip 3 = some { sel := 0x200 } := by decide +kernel
theorem witness_IdleTick_held : State.reset.pending = [] ∧ outOfReset State.reset = false := by decide +kernel

theorem witness_InvariantKept : Sound up ∧ ∃ n, step up = .next n :=
  ⟨⟨by decide +kernel, by decide +kernel, by decide +kernel, by decide +kernel, by decide +kernel, by decide +kernel⟩, _, rfl⟩
theorem witness_QueueUntouched : ∃ n, exec .tapReset up = .next n := ⟨_, rfl⟩

/-! ## Well-formed commands, and the words of the table -/

def f0 : KFields := {}
/-- For each check of WellFormed a command that fails it alone. -/
def illFormed : List Instr := [
  .kwNop 1024 0, .kwNop 0 (2 ^ 32), .cutOff 1024, .packetArrival 16 0, .digestComplete 1024 0, .feSetupGroup 16, .fragmentBatch 1024 0 0,
  .fragmentBatch 0 16 0, .fragmentBatch 0 0 2048, .rayTaskStart 1024 0, .flowBandComplete 1024 0 0, .taskAdmit 2048, .mcopyComplete 2048 0,
  .sampleRecordWrite 2048 none true, .bwCfgWrite 2048 0, .bwCfgWrite 0 (2 ^ 32), .sliceBegin 1026, .activeLineScan 1026 0, .visionSliceBoundary 8,
  .ringConsumerWrite 16 0 0, .ringConsumerWrite 0 1026 0, .ringConsumerWrite 0 0 (2 ^ 32), .waitLimit { core := 2048, slot := 0 },
  .add { core := 0, slot := 64 } f0, .smp { core := 2048, slot := 0 } f0, .kwSqDb 16 0 0, .kwSqDb 0 1024 0, .kwSqDb 0 0 (2 ^ 32), .kwCqLost 16 0,
  .kwAdmSqDb 16 0, .kwAdmSqDb 0 (2 ^ 32), .registerWrite 16 0 0 4 0, .registerWrite 0 2 0 4 0, .registerWrite 0 0 0 2 0, .registerWrite 0 0 4 8 0,
  .registerWrite 0 4 0 4 (2 ^ 32), .bar2Read 16 0 0, .bar2Read 0 (2 ^ 28) 1, .bar2Write 0 (2 ^ 28) [0], .commandFetch (.admin 16) 0,
  .commandFetch (.ctx 1024) 0, .wardConfig 16 0, .wardConfig 0 (2 ^ 32), .headQuery 0 0 true (List.replicate 513 0) [], .headQuery 0 0 true [] (List.replicate 513 0),
  .flrVf 16, .render 4, .laneFail 4 0, .laneFail 0 256, .flit 4 0, .sbufEnable (2 ^ 64), .opCtrlWrite (2 ^ 32), .mgRefresh { hot := 64 },
  .mgRefresh { aux := 65536 }, .scrubPass true {} [(0, 32)], .perfUserWrite 1024 true, .rowSpare 96, .vaultTrain [96], .coreBringup [2112],
  .selfTestComplete 2112 true, .unlockResponse (2 ^ 384) 0, .unlockResponse 0 (2 ^ 384), .yakabryDebugAccess 0x7F, .yakabryDebugAccess 0xFF,
  .unitParityError (.frontEnd 16) none, .unitParityError (.rtu 32) none, .unitParityError (.flowEngine 8) none, .unitParityError (.detect 4) none,
  .unitParityError .ingest (some 1024), .vfEnable 16, .detectJobComplete 4, .hostDmaComplete (.command (.ctx 1024) 0) true, .smbusArp 128, .setEndpointId 256]
theorem test_ill_formed_refused : illFormed.all (fun c => !WellFormed c) = true := by decide +kernel
/-- The same at the last operands that are accepted. -/
theorem test_well_formed_accepted : ([.kwNop 1023 (2 ^ 32 - 1), .packetArrival 15 0, .fragmentBatch 1023 15 2047, .sliceBegin 1025, .visionSliceBoundary 7,
    .add { core := 2047, slot := 63 } f0, .kwSqDb 15 1023 (2 ^ 32 - 1), .registerWrite 15 4 8 8 (2 ^ 64 - 1), .bar2Read 15 (2 ^ 28 - 1) 1, .laneFail 3 255,
    .mgRefresh { hot := 63, aux := 65535 }, .scrubPass true {} [(0, 64)], .rowSpare 95, .selfTestComplete 2111 true, .yakabryDebugAccess 0x80,
    .yakabryDebugAccess 0xFE, .unitParityError (.detect 3) (some 1023), .vfEnable 15, .smbusArp 127, .setEndpointId 255] : List Instr).all WellFormed = true := by
  decide +kernel
/-- The table gives its rows no bits. -/
theorem test_no_words (nbits w : Nat) : decodeTableWord nbits w = none := rfl

end Sys2Proof.Test
end

section
/-!
PROOFS. The start of an output frame (01 R24, R36, R55; 08 R316): what the operations that a frame start is made of leave as it is, the
tasks that it deals, and the context that it leaves.
-/
namespace Sys2Proof.Machine

/-! ## What stays beside a context's frame -/

/-- A context without its ring, account, ingest and runs: records posted, packets and networks change these alone. -/
def frameSide (x : Ctx) : Ctx := { x with ring := {}, acct := {}, ing := {}, runs := [] }

/-- Everything that a frame start of a context shares with the rest of the device stays: wards, slots, heads and the other contexts, and
the LC tasks that were dealt. -/
structure KeepsOthers (slot : Nat) (s n : State) : Prop where
  wards : n.wards = s.wards
  slots : n.slots = s.slots
  heads : n.heads = s.heads
  ctxs : ∀ i, i ≠ slot → ctxOf n i = ctxOf s i
  nextTask : s.nextTask ≤ n.nextTask
  tasks : ∀ id k, id < s.nextTask → k.lc = true → tget s.tasks id = some k → tget n.tasks id = some k

/-- The same, and of the context itself only its ring, account, ingest and runs may change. -/
structure KeepsFrame (slot : Nat) (s n : State) : Prop extends KeepsOthers slot s n where
  ctx : (ctxOf n slot).map frameSide = (ctxOf s slot).map frameSide

theorem KeepsOthers.refl (slot : Nat) (s : State) : KeepsOthers slot s s :=
  ⟨rfl, rfl, rfl, fun _ _ => rfl, Nat.le_refl _, fun _ _ _ _ h => h⟩
theorem KeepsOthers.trans {slot : Nat} {s m n : State} (a : KeepsOthers slot s m) (b : KeepsOthers slot m n) : KeepsOthers slot s n where
  wards := b.wards.trans a.wards
  slots := b.slots.trans a.slots
  heads := b.heads.trans a.heads
  ctxs i h := (b.ctxs i h).trans (a.ctxs i h)
  nextTask := a.nextTask.trans b.nextTask
  tasks id k hid hlc h := b.tasks id k (hid.trans_le a.nextTask) hlc (a.tasks id k hid hlc h)

theorem KeepsFrame.refl (slot : Nat) (s : State) : KeepsFrame slot s s := ⟨.refl slot s, rfl⟩
theorem KeepsFrame.trans {slot : Nat} {s m n : State} (a : KeepsFrame slot s m) (b : KeepsFrame slot m n) : KeepsFrame slot s n :=
  ⟨a.toKeepsOthers.trans b.toKeepsOthers, b.ctx.trans a.ctx⟩

/-- A state with the same wards, slots, heads, contexts and tasks. -/
theorem KeepsFrame.of_eq {slot : Nat} {s n : State} (hw : n.wards = s.wards) (hs : n.slots = s.slots) (hh : n.heads = s.heads)
    (hc : n.ctxs = s.ctxs) (hn : n.nextTask = s.nextTask) (ht : n.tasks = s.tasks) : KeepsFrame slot s n :=
  ⟨⟨hw, hs, hh, fun i _ => congrArg (tget · i) hc, hn.ge, fun _ _ _ _ h => ht ▸ h⟩, congrArg (fun t => (tget t slot).map frameSide) hc⟩

/-- Steps that each keep the frame keep it together. -/
theorem KeepsFrame.foldl {α : Type} {slot : Nat} {f : State → α → State} (hf : ∀ s a, KeepsFrame slot s (f s a)) (l : List α) (s : State) :
    KeepsFrame slot s (l.foldl f s) :=
  List.foldlRecOn l f (.refl slot s) (fun _ h a _ => h.trans (hf _ a))

theorem modCtx_keepsOthers (slot : Nat) (g : Ctx → Ctx) (s : State) : KeepsOthers slot s (modCtx slot g s) :=
  ⟨rfl, rfl, rfl, fun i h => by simp [ctxOf_modCtx, h], Nat.le_refl _, fun _ _ _ _ h => h⟩
/-- A change of the context's ring, account, ingest or runs keeps its frame. -/
theorem modCtx_keepsFrame {slot : Nat} {g : Ctx → Ctx} (hg : ∀ x, frameSide (g x) = frameSide x) (s : State) :
    KeepsFrame slot s (modCtx slot g s) :=
  ⟨modCtx_keepsOthers slot g s, by simp [ctxOf_modCtx, Option.map_map, Function.comp_def, hg]⟩

theorem ite_keepsFrame {slot : Nat} {s a b : State} {c : Prop} [Decidable c] (ha : KeepsFrame slot s a) (hb : KeepsFrame slot s b) :
    KeepsFrame slot s (if c then a else b) := by split <;> assumption

/-! ## Records (11 R394, R395, R409) -/

theorem modFn_keepsFrame (slot fn : Nat) (g : Fn → Fn) (s : State) : KeepsFrame slot s (modFn fn g s) := .of_eq rfl rfl rfl rfl rfl rfl
theorem sendMsix_keepsFrame (slot fn v : Nat) (s : State) : KeepsFrame slot s (sendMsix fn v s) := by
  unfold sendMsix
  split
  · exact modFn_keepsFrame _ _ _ _
  · exact .of_eq rfl rfl rfl rfl rfl rfl
theorem modRing_keepsFrame (slot : Nat) (g : Ring → Ring) (s : State) : KeepsFrame slot s (modRing (.ctx slot) g s) :=
  modCtx_keepsFrame (g := fun c => { c with ring := g c.ring }) (fun _ => rfl) s
theorem modAcct_keepsFrame (slot : Nat) (g : Account → Account) (s : State) : KeepsFrame slot s (modAcct slot g s) :=
  modCtx_keepsFrame (g := fun c => { c with acct := g c.acct }) (fun _ => rfl) s
theorem putRecord_keepsFrame (slot : Nat) (r : Rec) (s : State) : KeepsFrame slot s (putRecord (.ctx slot) r s) := by
  unfold putRecord
  split
  · exact .refl slot s
  · next g _ =>
    have written : KeepsFrame slot s (chargeHost slot 0 32 (hostWrite (g.cqBase + 32 * (g.posted % 2 ^ g.cqLog2)) (recBytes g false r) s)) :=
      KeepsFrame.trans (m := hostWrite _ _ s) (.of_eq rfl rfl rfl rfl rfl rfl) (modAcct_keepsFrame slot _ _)
    have posted (f : Ring → Ring) := written.trans (modRing_keepsFrame slot f _)
    exact ite_keepsFrame (((posted _).trans (modRing_keepsFrame slot _ _)).trans (sendMsix_keepsFrame slot _ _ _)) (posted _)
theorem postAlways_keepsFrame (slot : Nat) (r : Rec) (s : State) : KeepsFrame slot s (postAlways (.ctx slot) r s) := by
  unfold postAlways
  split
  · exact .of_eq rfl rfl rfl rfl rfl rfl
  · split
    · exact putRecord_keepsFrame slot r s
    · exact .refl slot s
/-- An event on the context's ring, posted or dropped, keeps its frame. -/
theorem postEvent_keepsFrame (slot code reason : Nat) (body : Bytes) (s : State) : KeepsFrame slot s (postEvent slot code reason body s) := by
  unfold postEvent postOther
  split
  · exact .refl slot s
  · split
    · exact postAlways_keepsFrame slot _ s
    · exact modRing_keepsFrame slot _ s

/-! ## Tasks and inheritance (10 R357, R362, R366; 12 R433) -/

theorem sendPort_keepsFrame (slot p : Nat) (g : Port → Port) (s : State) : KeepsFrame slot s (sendPort p g s) := by
  have counted : ∀ ev u n w (s : State), KeepsFrame slot s (tallyChip ev u n w s) := fun ev u n w s => by
    obtain ⟨q, h⟩ := tallyChip_eq ev u n w s
    exact h ▸ .of_eq rfl rfl rfl rfl rfl rfl
  refine KeepsFrame.trans (KeepsFrame.trans ?_ (counted _ _ _ _ _)) (KeepsFrame.foldl (fun s f => counted _ _ _ _ s) _ _)
  exact .of_eq rfl rfl rfl rfl rfl rfl
theorem sendOrDrop_keepsFrame (slot ty cls status dest tag : Nat) (payload : Bytes) (op : Nat) (s : State) :
    KeepsFrame slot s (sendOrDrop ty cls status dest tag payload op s) := by
  unfold sendOrDrop sendFor sendMsg
  split
  · unfold queueAt
    simp only [Option.getD_some]
    split
    · exact .of_eq rfl rfl rfl rfl rfl rfl
    · exact sendPort_keepsFrame slot _ _ s
  · exact .refl slot s
theorem inheritPeers_keepsFrame (slot id : Nat) (s : State) : KeepsFrame slot s (inheritPeers id s) := by
  unfold inheritPeers
  split
  · exact .refl slot s
  · refine KeepsFrame.trans ((KeepsFrame.foldl (fun s p => ?_) _ s).trans (KeepsFrame.foldl (fun s p => ?_) _ _)) (.of_eq rfl rfl rfl rfl rfl rfl)
    all_goals exact sendOrDrop_keepsFrame slot _ _ _ _ _ _ _ _
/-- Inheritance changes the keys of tasks that are not LC themselves. -/
theorem settleInherit_keepsFrame (slot : Nat) (s : State) : KeepsFrame slot s (settleInherit s) := by
  unfold settleInherit
  refine KeepsFrame.trans ?_ (KeepsFrame.foldl (fun s (x : Nat × Hasp) => inheritPeers_keepsFrame slot x.1 s) _ _)
  refine ⟨⟨rfl, rfl, rfl, fun _ _ => rfl, Nat.le_refl _, fun id k _ hlc h => ?_⟩, rfl⟩
  exact (tget_map s.tasks (fun _ t => if t.lc then t else inheritTask s (inheritOf s 8 t.slot) t) id).trans (by simp [h, hlc])
theorem dealTask_keepsFrame (slot : Nat) (t : Task) (s : State) : KeepsFrame slot s (dealTask t s) :=
  ⟨⟨rfl, rfl, rfl, fun _ _ => rfl, Nat.le_succ _, fun _ _ hid _ h => (tget_tput_other _ _ _ _ hid.ne).trans h⟩, rfl⟩
/-- Each of `m` tasks dealt in turn stands among the tasks, with the instant of its deal. -/
theorem tget_dealt (t : Nat → Task) (s : State) (m : Nat) : ∀ i < m,
    ∃ id d, id < ((List.range m).foldl (fun s i => dealTask (t i) s) s).nextTask ∧
      tget ((List.range m).foldl (fun s i => dealTask (t i) s) s).tasks id = some { t i with dealtAt := d } := by
  induction m with
  | zero => exact fun i h => absurd h (Nat.not_lt_zero i)
  | succ m ih =>
    intro i hi
    simp only [List.range_succ, List.foldl_append, List.foldl_cons, List.foldl_nil]
    generalize (List.range m).foldl (fun s i => dealTask (t i) s) s = q at ih ⊢
    rcases Nat.lt_succ_iff_lt_or_eq.mp hi with h | rfl
    · obtain ⟨id, d, hid, hk⟩ := ih i h
      exact ⟨id, d, Nat.lt_succ_of_lt hid, (tget_tput_other _ _ _ _ hid.ne).trans hk⟩
    · exact ⟨q.nextTask, q.now, Nat.lt_succ_self _, tget_tput_same _ _ _⟩

/-! ## Networks and buffer sets (04 R159; 10 R364; 01 R43; 02 R77) -/

theorem submitDetect_keepsFrame (slot i net : Nat) (s : State) : KeepsFrame slot s (submitDetect i net s) := by
  have settled : ∀ s : State, KeepsFrame slot s (settleDetect s) := KeepsFrame.foldl (fun s u => by
    dsimp only
    split
    · exact .refl slot s
    · split
      · exact .of_eq rfl rfl rfl rfl rfl rfl
      · exact .refl slot s) _
  unfold submitDetect
  split
  · exact .refl slot s
  · split
    · exact .refl slot s
    · dsimp only
      refine KeepsFrame.trans ?_ (settled _)
      exact .of_eq rfl rfl rfl rfl rfl rfl
theorem startRun_keepsFrame (slot net : Nat) (r : NetRun) (srcs : NEnv → NEnv) (s : State) : KeepsFrame slot s (startRun slot net r srcs s) := by
  unfold startRun
  split
  · exact .refl slot s
  · refine KeepsFrame.trans (KeepsFrame.trans (modCtx_keepsFrame ?_ s) (KeepsFrame.foldl (fun s i => ?_) _ _))
      ((settleInherit_keepsFrame slot _).trans (submitDetect_keepsFrame slot slot net _))
    · exact fun _ => rfl
    · dsimp only
      split
      · exact .refl slot s
      · exact KeepsFrame.foldl (fun s j => dealTask_keepsFrame slot _ s) _ s
theorem startGuard_keepsFrame (slot : Nat) (f : Frame) (s : State) : KeepsFrame slot s (startGuard slot f s) := by
  unfold startGuard
  split
  · exact .refl slot s
  · split
    · exact .refl slot s
    · split
      · exact .refl slot s
      · exact startRun_keepsFrame slot _ _ _ s
theorem settleSets_keepsFrame (slot : Nat) (s : State) : KeepsFrame slot s (settleSets slot s) := by
  refine modCtx_keepsFrame ?_ s
  exact fun _ => rfl
theorem settleOp_keepsFrame (slot : Nat) (s : State) : KeepsFrame slot s (settleOp s) := by
  unfold settleOp
  split
  · exact .of_eq rfl rfl rfl rfl rfl rfl
  · exact .refl slot s

/-! ## The deal of a frame (10 R357) -/

/-- The tile tasks are dealt first, and the frame's other tasks leave them as they stand. -/
theorem dealFrame_keepsTiles (slot : Nat) (x : Ctx) (f : Frame) (captures : Nat) (s : State) : KeepsFrame slot
    ((List.range (tileCount f.config)).foldl (fun s i => dealTask (frameTask slot x f (.tile i) i i) s) s) (dealFrame slot x f captures s) := by
  have dealt {l : List Nat} {t : Nat → Task} (s : State) : KeepsFrame slot s (l.foldl (fun s i => dealTask (t i) s) s) :=
    .foldl (fun s i => dealTask_keepsFrame slot (t i) s) l s
  unfold dealFrame
  refine KeepsFrame.trans (KeepsFrame.trans ?_ (dealt _)) (settleInherit_keepsFrame slot _)
  split
  · exact .foldl (fun s i => (dealt s).trans (dealTask_keepsFrame slot _ _)) _ _
  · exact .refl slot _
theorem dealFrame_keepsFrame (slot : Nat) (x : Ctx) (f : Frame) (captures : Nat) (s : State) :
    KeepsFrame slot s (dealFrame slot x f captures s) :=
  (KeepsFrame.foldl (fun s _ => dealTask_keepsFrame slot _ s) _ s).trans (dealFrame_keepsTiles slot x f captures s)

/-- Every tile of a frame has its task among the state's. -/
def TilesDealt (slot : Nat) (x : Ctx) (f : Frame) (n : State) : Prop :=
  ∀ i < tileCount f.config, ∃ id d, id < n.nextTask ∧ tget n.tasks id = some { frameTask slot x f (.tile i) i i with dealtAt := d }
theorem TilesDealt.mono {slot : Nat} {x : Ctx} {f : Frame} {s n : State} (h : TilesDealt slot x f s) (hk : KeepsFrame slot s n) :
    TilesDealt slot x f n := fun i hi =>
  let ⟨id, d, hid, ht⟩ := h i hi
  ⟨id, d, hid.trans_le hk.nextTask, hk.tasks id _ hid rfl ht⟩
theorem dealFrame_tiles (slot : Nat) (x : Ctx) (f : Frame) (captures : Nat) (s : State) : TilesDealt slot x f (dealFrame slot x f captures s) :=
  TilesDealt.mono (tget_dealt (fun i => frameTask slot x f (.tile i) i i) s (tileCount f.config)) (dealFrame_keepsTiles slot x f captures s)

/-! ## The adapter swap (08 R316) -/

/-- The live adapter set and the pending one, for a frame that starts at t0. -/
def adaptersAt (a : Adapt) (t0 : Nat) : List Nat × Option (List Nat × Bytes × Nat) :=
  if byCycle a.readyAt t0 then ((a.ready.map (·.1)).getD a.live, none) else (a.live, a.ready)

theorem KeepsFrame.ctx_some {slot : Nat} {s n : State} (h : KeepsFrame slot s n) {x : Ctx} (hx : ctxOf s slot = some x) :
    ∃ y, ctxOf n slot = some y ∧ frameSide y = frameSide x := by
  have hy := h.ctx
  rw [hx] at hy
  exact Option.map_eq_some_iff.mp hy

theorem swapAdapters_keepsOthers (slot number t0 : Nat) (s : State) : KeepsOthers slot s (swapAdapters slot number t0 s) := by
  unfold swapAdapters
  split
  · exact .refl slot s
  · exact (modCtx_keepsOthers slot _ s).trans (postEvent_keepsFrame slot _ _ _ _).toKeepsOthers
/-- The swap changes nothing of the context's side of the frame but the adapters. -/
theorem swapAdapters_ctx {slot : Nat} {s : State} {x : Ctx} (hx : ctxOf s slot = some x) (number t0 : Nat) :
    ∃ y, ctxOf (swapAdapters slot number t0 s) slot = some y ∧ frameSide { y with ad := x.ad } = frameSide x ∧
      (y.ad.live, y.ad.ready) = adaptersAt x.ad t0 := by
  unfold swapAdapters adaptersAt
  simp only [hx, Option.bind_some]
  split
  · next h =>
    refine ⟨x, hx, rfl, ?_⟩
    split
    · next due =>
      have hready : x.ad.ready = none := by simpa [due] using h
      rw [hready]; rfl
    · rfl
  · next set digest step h =>
    obtain ⟨due, hready⟩ : byCycle x.ad.readyAt t0 = true ∧ x.ad.ready = some (set, digest, step) := by simpa using h
    have hctx : ctxOf (modCtx slot (fun x => { x with ad := { x.ad with live := set, digest := digest, liveStep := step, ready := none } }) s) slot
        = some { x with ad := { x.ad with live := set, digest := digest, liveStep := step, ready := none } } := by simp [ctxOf_modCtx, hx]
    obtain ⟨y, hy, e⟩ := (postEvent_keepsFrame slot kAdapterSwap 0 (digest ++ natLe 4 step ++ natLe 4 number) _).ctx_some hctx
    have had : y.ad = { x.ad with live := set, digest := digest, liveStep := step, ready := none } := congrArg Ctx.ad e
    refine ⟨y, hy, congrArg (fun z : Ctx => { z with ad := x.ad }) e, ?_⟩
    simp [had, due, hready]

/-! ## The start (01 R24, R26, R36) -/

/-- A context as a frame start of it leaves it: its frame in progress is f, and number and place have advanced (01 R26, R27). -/
structure Begun (x : Ctx) (f : Frame) (y : Ctx) : Prop where
  cur : y.fr.cur = some f
  config : y.cfgInForce = x.cfg
  cut : y.fr.cut = false
  number : y.fr.nextNumber = (x.fr.nextNumber + 1) % 2 ^ 32
  started : y.fr.lastStarted = some x.fr.nextNumber
  place : (y.fr.nextPlace, y.fr.nextRender) = if x.fr.nextPlace = cbG x.cfg then (0, (x.fr.nextRender + 1) % 2 ^ 32)
    else (x.fr.nextPlace + 1, x.fr.nextRender)
  adapters : (y.ad.live, y.ad.ready) = (x.ad.live, x.ad.ready)

theorem Begun.of_frameSide {x y z : Ctx} {f : Frame} (h : Begun x f y) (e : frameSide z = frameSide y) : Begun x f z := by
  have hfr : z.fr = y.fr := (congrArg Ctx.fr e :)
  have hcfg : z.cfgInForce = y.cfgInForce := (congrArg Ctx.cfgInForce e :)
  have had : z.ad = y.ad := (congrArg Ctx.ad e :)
  obtain ⟨cur, config, cut, number, started, place, adapters⟩ := h
  constructor <;> simp only [hfr, hcfg, had] <;> assumption

/-- A frame start, after the adapter swap, is a change of the context and a deal of the frame's tasks; what comes between and
after them keeps the frame. -/
theorem startFrame_steps {slot h : Nat} {x0 x : Ctx} {p : Plan} {s0 s1 : State} (hs : swapAdapters slot x0.fr.nextNumber p.t0 s0 = s1)
    (hx : ctxOf s1 slot = some x) (hnum : x.fr.nextNumber = x0.fr.nextNumber) : ∃ g s3 captures, Begun x (makeFrame s1 h x p) (g x) ∧
      KeepsFrame slot (modCtx slot g s1) s3 ∧
      KeepsFrame slot (dealFrame slot x (makeFrame s1 h x p) captures s3) (startFrame slot h x0 p s0) := by
  generalize hn : startFrame slot h x0 p s0 = n
  unfold startFrame at hn
  extract_lets num t1 at hn
  obtain rfl : t1 = s1 := hs
  split at hn
  · next hnone => cases hnone.symm.trans hx
  · next x' hx' =>
    obtain rfl : x' = x := Option.some.inj (hx'.symm.trans hx)
    extract_lets f zero c cap last isOwn keepLatest s2 op s3 s4 s5 s6 at hn
    have awaited : KeepsFrame slot s2 { s2 with op := { s2.op with waits := s2.op.waits.filter (· != slot) } } :=
      .of_eq rfl rfl rfl rfl rfl rfl
    have clock : KeepsFrame slot s2 s3 := ite_keepsFrame (.refl slot s2) (awaited.trans (settleOp_keepsFrame slot _))
    have reported : KeepsFrame slot s4 s5 := ite_keepsFrame (postEvent_keepsFrame slot _ _ _ s4) (.refl slot s4)
    have settled : KeepsFrame slot s4 s6 := reported.trans (settleSets_keepsFrame slot s5)
    have finish : KeepsFrame slot s4 n := hn ▸ ite_keepsFrame (settled.trans (startGuard_keepsFrame slot f s6)) settled
    refine ⟨_, s3, cap.1, ?_, clock, finish⟩
    constructor
    case number => exact congrArg (fun k => (k + 1) % 2 ^ 32) hnum.symm
    case started => exact congrArg some hnum.symm
    case place => dsimp only; split <;> rfl
    case adapters => dsimp only; split <;> rfl
    all_goals rfl

/-- What a frame start gives: the rest of the device as it was, the context begun, and every tile dealt. -/
theorem startFrame_spec {slot : Nat} {x0 : Ctx} {s : State} (h : Nat) (p : Plan) (hx0 : ctxOf s slot = some x0) :
    ∃ x y, KeepsOthers slot s (startFrame slot h x0 p s) ∧ frameSide { x with ad := x0.ad } = frameSide x0 ∧
      (x.ad.live, x.ad.ready) = adaptersAt x0.ad p.t0 ∧ ctxOf (startFrame slot h x0 p s) slot = some y ∧
      Begun x (makeFrame (swapAdapters slot x0.fr.nextNumber p.t0 s) h x p) y ∧
      TilesDealt slot x (makeFrame (swapAdapters slot x0.fr.nextNumber p.t0 s) h x p) (startFrame slot h x0 p s) := by
  have swapped := swapAdapters_keepsOthers slot x0.fr.nextNumber p.t0 s
  obtain ⟨x, hx, side, adapters⟩ := swapAdapters_ctx hx0 x0.fr.nextNumber p.t0
  have hfr : x.fr = x0.fr := (congrArg Ctx.fr side :)
  obtain ⟨g, s3, captures, begun, clock, finish⟩ := startFrame_steps (h := h) rfl hx (congrArg CtxFrames.nextNumber hfr)
  have dealt := clock.trans ((dealFrame_keepsFrame slot x (makeFrame _ h x p) captures s3).trans finish)
  have hg : ctxOf (modCtx slot g (swapAdapters slot x0.fr.nextNumber p.t0 s)) slot = some (g x) := by simp [ctxOf_modCtx, hx]
  obtain ⟨y, hy, e⟩ := dealt.ctx_some hg
  exact ⟨x, y, (swapped.trans (modCtx_keepsOthers slot g _)).trans dealt.toKeepsOthers, side, adapters, hy, begun.of_frameSide e,
    (dealFrame_tiles slot x _ captures s3).mono finish⟩

theorem ctxOf_of_liveCtx {s : State} {slot : Nat} {x : Ctx} (h : liveCtx s slot = some x) : ctxOf s slot = some x := by
  unfold liveCtx at h
  split at h
  · exact h
  · cases h
theorem exec_frameStart (slot : Nat) (s : State) : exec (.frameStart slot) s = execFrameStart slot s := rfl
theorem exec_cutOff (slot : Nat) (s : State) : exec (.cutOff slot) s = execCutOff slot s := rfl

theorem execFrameStart_next {s : State} {slot h : Nat} {x : Ctx} {p : Plan} (hx : liveCtx s slot = some x) (hh : x.head = some h)
    (hp : planFrame s slot x h = some p) (hcur : x.fr.cur = none) (ht : p.t0 ≤ s.now) :
    execFrameStart slot s = .next (startFrame slot h x p s) := by
  simp [execFrameStart, need, guardThat, hx, hh, hp, hcur, ht]
theorem execCutOff_next {s : State} {slot h : Nat} {x : Ctx} (hx : liveCtx s slot = some x) (hh : x.head = some h) (hcut : x.fr.cut = false)
    (ht : cutoffOf s slot x (headOf s h) x.fr.nextNumber (slotKindAt x.cfg x.fr.nextPlace) ≤ (s.now : Int)) :
    execCutOff slot s = .next (modCtx slot (fun x => { x with fr := { x.fr with cut := true } }) s) := by
  simp [execCutOff, need, guardThat, hx, hh, hcut, ht]

end Sys2Proof.Machine

namespace Sys2Proof.Say
open Sys2Proof.Machine

/-- Settles O36: a frame start is the adapter swap, a change of the context's own frame state and a deal of tasks; records, clocks,
sets and the guard around them keep the frame (`startFrame_spec`). A cut-off is one mark in the context. -/
theorem framesStart : Obligations.FramesStart := by
  unfold Obligations.FramesStart
  refine ⟨fun s slot h x0 p hx hh hp hcur ht => ?start, fun s slot h x hx hh hcut ht => ?cutOff⟩
  case start =>
    refine ⟨startFrame slot h x0 p s, (exec_frameStart slot s).trans (execFrameStart_next hx hh hp hcur ht), ?_⟩
    obtain ⟨x, y, others, side, adapters, hy, begun, tiles⟩ := startFrame_spec h p (ctxOf_of_liveCtx hx)
    have hfr : x.fr = x0.fr := (congrArg Ctx.fr side :)
    have hcfg : x.cfg = x0.cfg := (congrArg Ctx.cfg side :)
    have himage : x.image = x0.image := (congrArg Ctx.image side :)
    have hward : x.ward = x0.ward := (congrArg Ctx.ward side :)
    have hgroup : groupMask (swapAdapters slot x0.fr.nextNumber p.t0 s) x.ward x.cfg = groupMask s x0.ward x0.cfg := by
      rw [hward, hcfg]
      exact congrArg (fun w => (w.getD x0.ward {}).cfg.groups.getD (cbGroup x0.cfg) 0) (swapAdapters_keepsOthers slot _ p.t0 s).wards
    obtain ⟨cur, config, cut, number, started, place, live⟩ := begun
    rw [hfr, hcfg] at place
    refine ⟨others.wards, others.slots, others.heads, others.ctxs, ⟨y, _, hy, cur, ?_⟩, fun i hi => ?_⟩
    · refine ⟨config.trans hcfg, cut, hfr ▸ number, hfr ▸ started, place, live.trans adapters, ?_, rfl, ?_, ?_⟩
      · simp [makeFrame, hfr]
      · simp [makeFrame, hcfg, himage]
      · simp [makeFrame, hcfg]
    · obtain ⟨id, d, -, hk⟩ := tiles i (by simpa [makeFrame, hcfg] using hi)
      refine ⟨id, _, hk, rfl, rfl, ?_, ?_, rfl, rfl⟩
      · simp [frameTask, makeFrame, hfr]
      · simp only [frameTask, makeFrame, hgroup]
  case cutOff =>
    refine ⟨_, (exec_cutOff slot s).trans (execCutOff_next hx hh hcut ht), rfl, (modCtx_keepsOthers slot _ s).ctxs, ?_⟩
    simp [ctxOf_modCtx, ctxOf_of_liveCtx hx]

end Sys2Proof.Say
end

section
/-!
PROOFS. Completion records (11 R391–R395, R402): what posting a record leaves as it is, and the record of a completed command.
-/
namespace Sys2Proof.Machine
open Sys2Proof.Say (Answered)

/-! ## What a record leaves as it is -/

/-- What a ring holds besides its records: the commands in flight and the lost records owed. -/
def cmdsAndOwed (g : Ring) : List Cmd × Nat := (g.cmds, g.lostOwed)
/-- The host address of a ring's next record. -/
def recordAddr (g : Ring) : Nat := g.cqBase + 32 * (g.posted % 2 ^ g.cqLog2)
/-- The ring is a function's. -/
def isAdmin (r : RingRef) : Bool := match r with | .admin _ => true | .ctx _ => false

/-- A context without what the records of its ring change: the ring and the account. -/
def unposted (x : Ctx) : Ctx := { x with ring := {}, acct := {} }
/-- A state without what posting a record or counting an event changes. -/
def recordless (s : State) : State :=
  { s with fns := [], ctxs := s.ctxs.map (fun e => (e.1, unposted e.2)), perf := {}, hostMem := [], sent := [], fw := {} }

/-- Steps that each keep a view of the state keep it together. -/
theorem foldl_view {α β : Type} {view : State → β} {f : State → α → State} (hf : ∀ s a, view (f s a) = view s) (l : List α) (s : State) :
    view (l.foldl f s) = view s :=
  List.foldlRecOn l f (motive := fun n => view n = view s) rfl (fun _ h a _ => (hf _ a).trans h)
/-- A change of an entry that a view of the entries does not show. -/
theorem map_tmod {α β : Type} {view : α → β} {g : α → α} (hg : ∀ v, view (g v) = view v) (t : Table α) (k : Nat) :
    (tmod t k g).map (fun e => (e.1, view e.2)) = t.map (fun e => (e.1, view e.2)) := by
  induction t with
  | nil => rfl
  | cons a r ih => simp only [tmod]; split <;> simp_all

theorem recordless_modCtx {i : Nat} {g : Ctx → Ctx} (hg : ∀ x, unposted (g x) = unposted x) (s : State) :
    recordless (modCtx i g s) = recordless s := by
  simp only [recordless, modCtx_ctxs, map_tmod hg]; rfl
@[simp] theorem recordless_modAcct (i : Nat) (g : Account → Account) (s : State) : recordless (modAcct i g s) = recordless s :=
  recordless_modCtx (g := fun c => { c with acct := g c.acct }) (fun _ => rfl) s
@[simp] theorem recordless_modRing (r : RingRef) (g : Ring → Ring) (s : State) : recordless (modRing r g s) = recordless s := by
  cases r with
  | admin fn => rfl
  | ctx i => exact recordless_modCtx (g := fun c => { c with ring := g c.ring }) (fun _ => rfl) s
@[simp] theorem recordless_sendMsix (fn v : Nat) (s : State) : recordless (sendMsix fn v s) = recordless s := by
  unfold sendMsix; split <;> rfl
@[simp] theorem recordless_hostWrite (a : Nat) (b : Bytes) (s : State) : recordless (hostWrite a b s) = recordless s := rfl
@[simp] theorem recordless_chargeHost (i rx tx : Nat) (s : State) : recordless (chargeHost i rx tx s) = recordless s :=
  recordless_modAcct i _ s
@[simp] theorem recordless_tallyChip (ev u n : Nat) (w : Option Nat) (s : State) : recordless (tallyChip ev u n w s) = recordless s := by
  obtain ⟨p, h⟩ := tallyChip_eq ev u n w s
  exact h ▸ rfl
/-- A record's bytes written at the ring's next place, and charged where the ring is a context's. -/
def writeRecord (r : RingRef) (g : Ring) (x : Rec) (s : State) : State :=
  let s1 := hostWrite (recordAddr g) (recBytes g (isAdmin r) x) s
  match r with | .ctx i => chargeHost i 0 32 s1 | .admin _ => s1
@[simp] theorem recordless_writeRecord (r : RingRef) (g : Ring) (x : Rec) (s : State) : recordless (writeRecord r g x s) = recordless s := by
  cases r with
  | admin fn => rfl
  | ctx i => exact recordless_chargeHost i 0 32 _
theorem modRing_modRing (r : RingRef) (f k : Ring → Ring) (s : State) : modRing r k (modRing r f s) = modRing r (fun g => k (f g)) s := by
  cases r with
  | admin fn => simp only [modRing, modFn, lmod, List.modify_modify_eq]; rfl
  | ctx i => simp only [modRing, modCtx, tmod_tmod]
/-- To post a record is to write it, to change the ring but not its commands or the lost records owed, and perhaps to send an
interrupt message. -/
theorem putRecord_cases {r : RingRef} {s : State} {g : Ring} (x : Rec) (hg : ringOf s r = some g) :
    ∃ f, (∀ q, cmdsAndOwed (f q) = cmdsAndOwed q) ∧ (putRecord r x s = modRing r f (writeRecord r g x s) ∨
      ∃ fn v, putRecord r x s = sendMsix fn v (modRing r f (writeRecord r g x s))) := by
  unfold putRecord
  simp -zeta only [hg]
  extract_lets admin addr raises s1 s2 s3 armed
  have written : s2 = writeRecord r g x s := by cases r <;> rfl
  split
  · refine ⟨_, ?_, .inr ⟨_, _, written ▸ congrArg (sendMsix _ _) (modRing_modRing r _ _ s2)⟩⟩
    exact fun _ => rfl
  · refine ⟨_, ?_, .inl (congrArg (modRing r _) written)⟩
    exact fun _ => rfl
@[simp] theorem recordless_putRecord (r : RingRef) (x : Rec) (s : State) : recordless (putRecord r x s) = recordless s := by
  cases hg : ringOf s r with
  | none => simp [putRecord, hg]
  | some g => obtain ⟨f, -, h | ⟨fn, v, h⟩⟩ := putRecord_cases x hg <;> simp [h]
@[simp] theorem recordless_postAlways (r : RingRef) (x : Rec) (s : State) : recordless (postAlways r x s) = recordless s := by
  unfold postAlways
  split
  · rfl
  · split
    · exact recordless_putRecord r x s
    · rfl
@[simp] theorem recordless_postOther (r : RingRef) (x : Rec) (s : State) : recordless (postOther r x s) = recordless s := by
  unfold postOther
  split
  · rfl
  · split
    · exact recordless_postAlways r x s
    · exact recordless_modRing r _ s
@[simp] theorem recordless_postEvent (slot code reason : Nat) (body : Bytes) (s : State) :
    recordless (postEvent slot code reason body s) = recordless s := recordless_postOther _ _ s
@[simp] theorem recordless_settleLost (r : RingRef) (s : State) : recordless (settleLost r s) = recordless s := by
  unfold settleLost
  split
  · rfl
  · split
    · simp
    · rfl
@[simp] theorem recordless_settleDisable (r : RingRef) (s : State) : recordless (settleDisable r s) = recordless s := by
  cases r with
  | admin fn => unfold settleDisable; dsimp only; split <;> rfl
  | ctx i => rfl
@[simp] theorem recordless_complete (r : RingRef) (seq code reason : Nat) (result : Bytes) (s : State) :
    recordless (complete r seq code reason result s) = recordless s := by
  unfold complete
  split
  · rfl
  · dsimp only
    split <;> simp

/-- States that differ only in records have the same contexts, but for their rings and accounts. -/
theorem ctxOf_of_recordless {s n : State} (h : recordless n = recordless s) (i : Nat) :
    (ctxOf n i).map unposted = (ctxOf s i).map unposted := by
  have hc := congrArg (fun q => tget q.ctxs i) h
  simp only [recordless, tget_map _ (fun _ => unposted)] at hc
  exact hc
theorem ctx_of_recordless {s n : State} {i : Nat} {x : Ctx} (h : recordless n = recordless s) (hx : ctxOf s i = some x) :
    ∃ y, ctxOf n i = some y ∧ unposted y = unposted x := by
  have hy := ctxOf_of_recordless h i
  rw [hx] at hy
  exact Option.map_eq_some_iff.mp hy
theorem wardOf_of_recordless {s n : State} (h : recordless n = recordless s) (w : Nat) : wardOf n w = wardOf s w :=
  congrArg (fun q => q.wards.getD w {}) h

/-! ## Rings -/

theorem ringOf_modRing (r : RingRef) (g : Ring → Ring) (s : State) : ringOf (modRing r g s) r = (ringOf s r).map g := by
  cases r with
  | ctx i => simp [ringOf, modRing, ctxOf_modCtx, Option.map_map, Function.comp_def]
  | admin fn =>
    by_cases h : fn < s.fns.length
    · simp only [ringOf, modRing, fnOf_modFn, h, and_self, if_true]
      split <;> rfl
    · have absent : fnOf s fn = {} := by simp [fnOf, List.getElem?_eq_none (Nat.le_of_not_lt h)]
      simp [ringOf, modRing, fnOf_modFn, h, absent]
@[simp] theorem ringOf_sendMsix (fn v : Nat) (s : State) (r : RingRef) : ringOf (sendMsix fn v s) r = ringOf s r := by
  unfold sendMsix
  split
  · cases r with
    | ctx i => rfl
    | admin f => simp only [ringOf, fnOf_modFn]; split <;> simp_all
  · rfl
@[simp] theorem ringOf_chargeHost (i rx tx : Nat) (s : State) (r : RingRef) : ringOf (chargeHost i rx tx s) r = ringOf s r := by
  cases r with
  | admin f => rfl
  | ctx j =>
    simp only [ringOf, chargeHost, modAcct, ctxOf_modCtx]
    split <;> simp_all [Option.map_map, Function.comp_def]
@[simp] theorem ringOf_hostWrite (a : Nat) (b : Bytes) (s : State) (r : RingRef) : ringOf (hostWrite a b s) r = ringOf s r := rfl
@[simp] theorem modRing_hostMem (r : RingRef) (g : Ring → Ring) (s : State) : (modRing r g s).hostMem = s.hostMem := by cases r <;> rfl
@[simp] theorem modRing_fw (r : RingRef) (g : Ring → Ring) (s : State) : (modRing r g s).fw = s.fw := by cases r <;> rfl
@[simp] theorem sendMsix_hostMem (fn v : Nat) (s : State) : (sendMsix fn v s).hostMem = s.hostMem := by
  unfold sendMsix; split <;> rfl
@[simp] theorem ringOf_writeRecord (r : RingRef) (g : Ring) (x : Rec) (s : State) : ringOf (writeRecord r g x s) r = ringOf s r := by
  cases r with
  | admin fn => rfl
  | ctx i => exact ringOf_chargeHost i 0 32 _ _
@[simp] theorem writeRecord_hostMem (r : RingRef) (g : Ring) (x : Rec) (s : State) :
    (writeRecord r g x s).hostMem = Mem.writeN s.hostMem (recordAddr g) (recBytes g (isAdmin r) x) := by cases r <;> rfl
theorem ringOf_putRecord (r : RingRef) (x : Rec) (s : State) : (ringOf (putRecord r x s) r).map cmdsAndOwed = (ringOf s r).map cmdsAndOwed := by
  cases hg : ringOf s r with
  | none => simp [putRecord, hg]
  | some g => obtain ⟨f, hf, h | ⟨fn, v, h⟩⟩ := putRecord_cases x hg <;> simp [h, ringOf_modRing, hg, hf]
theorem putRecord_hostMem {r : RingRef} {s : State} {g : Ring} (x : Rec) (hg : ringOf s r = some g) :
    (putRecord r x s).hostMem = Mem.writeN s.hostMem (recordAddr g) (recBytes g (isAdmin r) x) := by
  obtain ⟨f, -, h | ⟨fn, v, h⟩⟩ := putRecord_cases x hg <;> simp [h]
theorem ringOf_postAlways (r : RingRef) (x : Rec) (s : State) : (ringOf (postAlways r x s) r).map cmdsAndOwed = (ringOf s r).map cmdsAndOwed := by
  unfold postAlways
  split
  · cases r <;> rfl
  · split
    · exact ringOf_putRecord r x s
    · rfl
/-- The EVENTS_LOST record owed leaves the commands in flight. -/
theorem ringOf_settleLost (r : RingRef) (s : State) : (ringOf (settleLost r s) r).map Ring.cmds = (ringOf s r).map Ring.cmds := by
  unfold settleLost
  split
  · rfl
  · split
    · have posted := fun x => congrArg (Option.map Prod.fst) (ringOf_postAlways r x (modRing r (fun g => { g with lostOwed := 0 }) s))
      simpa [ringOf_modRing, Option.map_map, Function.comp_def, cmdsAndOwed] using posted _
    · rfl
theorem settleLost_of_none {r : RingRef} {s : State} (h : ∀ g, ringOf s r = some g → g.lostOwed = 0) : settleLost r s = s := by
  unfold settleLost
  split
  · rfl
  · next g hg => simp [h g hg]

/-! ## The record of a command (11 R402, Table 11-10) -/

theorem leNat_lt (b : Bytes) : leNat b < 256 ^ b.length := by
  induction b with
  | nil => simp [leNat]
  | cons x r ih =>
    have := x.isLt
    simp only [leNat, List.length_cons, pow_succ]
    omega
theorem fld_lt (b : Bytes) (off len : Nat) : fld b off len < 256 ^ len :=
  (leNat_lt _).trans_le (Nat.pow_le_pow_right (by decide) (List.length_take_le _ _))
theorem leNat_natLe (k : Nat) : ∀ v, leNat (natLe k v) = v % 256 ^ k := by
  induction k with
  | zero => simp [natLe, leNat, Nat.mod_one]
  | succ k ih =>
    intro v
    rw [natLe, leNat, ih, pow_succ', Nat.mod_mul]
    rfl
@[simp] theorem natLe_length (k : Nat) : ∀ v, (natLe k v).length = k := by
  induction k with
  | zero => exact fun _ => rfl
  | succ k ih => simp [natLe, ih]
@[simp] theorem fit_length (n : Nat) (b : Bytes) : (fit n b).length = n := by
  simp [fit, slice]
/-- A field that stands at the front of a byte string. -/
theorem fld_natLe (k v : Nat) (r : Bytes) : fld (natLe k v ++ r) 0 k = v % 256 ^ k := by
  simp [fld, leNat_natLe]
/-- A field past a front part. -/
theorem fld_append (a r : Bytes) (off len : Nat) : fld (a ++ r) (a.length + off) len = fld r off len := by
  rw [fld, fld, List.drop_length_add_append]

/-- A record's bytes but for its flags (11 Table 11-10). -/
theorem recBytes_eq (g : Ring) (admin : Bool) (x : Rec) {seq : Nat} (hs : x.seq = some seq) : ∃ flags, recBytes g admin x =
    natLe 4 seq ++ (natLe 4 flags ++ (natLe 1 x.type ++ (natLe 1 x.code ++ (natLe 1 x.reason ++ (natLe 1 x.opcode ++ fit 20 x.body))))) := by
  simp only [recBytes, hs, Option.getD_some, List.append_assoc]
  exact ⟨_, rfl⟩
theorem recBytes_length (g : Ring) (admin : Bool) (x : Rec) {seq : Nat} (hs : x.seq = some seq) : (recBytes g admin x).length = 32 := by
  obtain ⟨flags, h⟩ := recBytes_eq g admin x hs
  simp [h]
theorem fld_recBytes (g : Ring) (admin : Bool) (x : Rec) {seq : Nat} (hs : x.seq = some seq) :
    fld (recBytes g admin x) 0 4 = seq % 2 ^ 32 ∧ fld (recBytes g admin x) 8 1 = x.type % 256 ∧ fld (recBytes g admin x) 9 1 = x.code % 256 ∧
      fld (recBytes g admin x) 10 1 = x.reason % 256 ∧ fld (recBytes g admin x) 11 1 = x.opcode % 256 ∧
      fld (recBytes g admin x) 12 4 = fld (fit 20 x.body) 0 4 := by
  obtain ⟨flags, h⟩ := recBytes_eq g admin x hs
  have past4 (v : Nat) (r : Bytes) (off len : Nat) : fld (natLe 4 v ++ r) (4 + off) len = fld r off len := fld_append (natLe 4 v) r off len
  have past1 (v : Nat) (r : Bytes) (off len : Nat) : fld (natLe 1 v ++ r) (1 + off) len = fld r off len := fld_append (natLe 1 v) r off len
  rw [h]
  refine ⟨fld_natLe 4 _ _, ?type, ?code, ?reason, ?opcode, ?body⟩
  case type => exact ((past4 ..).trans (past4 _ _ 0 1)).trans (fld_natLe 1 _ _)
  case code => exact (((past4 ..).trans (past4 _ _ 1 1)).trans (past1 _ _ 0 1)).trans (fld_natLe 1 _ _)
  case reason => exact ((((past4 ..).trans (past4 _ _ 2 1)).trans (past1 _ _ 1 1)).trans (past1 _ _ 0 1)).trans (fld_natLe 1 _ _)
  case opcode =>
    exact (((((past4 ..).trans (past4 _ _ 3 1)).trans (past1 _ _ 2 1)).trans (past1 _ _ 1 1)).trans (past1 _ _ 0 1)).trans (fld_natLe 1 _ _)
  case body => exact (((((past4 ..).trans (past4 _ _ 4 4)).trans (past1 _ _ 3 4)).trans (past1 _ _ 2 4)).trans (past1 _ _ 1 4)).trans (past1 _ _ 0 4)

theorem cmdOf_some {s : State} {r : RingRef} {seq : Nat} {c : Cmd} (h : cmdOf s r seq = some c) :
    c.seq = seq ∧ ∃ g, ringOf s r = some g := by
  obtain ⟨g, hg, hc⟩ := Option.bind_eq_some_iff.mp h
  exact ⟨by simpa using List.find?_some hc, g, hg⟩
/-- The device's rings take part in `cmdOf` with their commands alone. -/
theorem cmdOf_eq (s : State) (r : RingRef) (seq : Nat) :
    cmdOf s r seq = ((ringOf s r).map Ring.cmds).bind (fun l => l.find? (fun c => c.seq == seq)) := by
  simp [cmdOf, Option.bind_map]
theorem cmdOf_settleDisable {r : RingRef} {s : State} {seq : Nat} (h : cmdOf s r seq = none) : cmdOf (settleDisable r s) r seq = none := by
  cases r with
  | ctx i => exact h
  | admin fn =>
    unfold settleDisable
    dsimp only
    split
    · simp only [cmdOf, ringOf, fnOf_modFn] at h ⊢
      split <;> simp_all
    · exact h
@[simp] theorem settleDisable_hostMem (r : RingRef) (s : State) : (settleDisable r s).hostMem = s.hostMem := by
  cases r with
  | ctx i => rfl
  | admin fn => unfold settleDisable; dsimp only; split <;> rfl

/-- The record of a completed command (11 R402). -/
def completion (s : State) (r : RingRef) (c : Cmd) (seq code reason : Nat) (result : Bytes) : Rec :=
  { type := 1, code := code, reason := reason, opcode := entOpcode c.entry, seq := some seq,
    body := natLe 4 (entTag c.entry) ++ fit 16 result,
    fence := entFence c.entry || (entOpcode c.entry == 0x21 && code == 0), irq := entIrq c.entry,
    slot := (ringSlot s r).1, gen := (ringSlot s r).2 }
/-- The state as a completed command leaves its ring, before the record. -/
def retire (r : RingRef) (seq : Nat) (s : State) : State :=
  modRing r (fun x => { x with cmds := x.cmds.filter (fun c => c.seq != seq) }) s
theorem complete_eq {r : RingRef} {s : State} {c : Cmd} {seq : Nat} (code reason : Nat) (result : Bytes) (h : cmdOf s r seq = some c) :
    complete r seq code reason result s = settleDisable r (settleLost r
      (if entQuiet c.entry && code == 0 then retire r seq s else postAlways r (completion s r c seq code reason result) (retire r seq s))) := by
  unfold complete
  rw [h]
  rfl
theorem cmdOf_retire (r : RingRef) (seq : Nat) (s : State) : cmdOf (retire r seq s) r seq = none := by
  simp [cmdOf, retire, ringOf_modRing, Option.bind_map, List.find?_eq_none]

/-- A field at the front of a body that is fitted to a greater length. -/
theorem fld_fit {n k : Nat} (v : Nat) (r : Bytes) (h : k ≤ n) : fld (fit n (natLe k v ++ r)) 0 k = v % 256 ^ k := by
  simp only [fit, slice, List.drop_zero, List.take_append, natLe_length]
  rw [List.take_of_length_le (by simpa using h), List.append_assoc, fld_natLe]
/-- What a completion says of its command (11 Table 11-10). -/
theorem completion_fields (g : Ring) (s : State) (r : RingRef) (c : Cmd) (code reason : Nat) (result b : Bytes)
    (h : recBytes g (isAdmin r) (completion s r c c.seq code reason result) = b) :
    fld b 0 4 = c.seq % 2 ^ 32 ∧ fld b 8 1 = 1 ∧ fld b 9 1 = code % 256 ∧ fld b 10 1 = reason % 256 ∧ fld b 11 1 = entOpcode c.entry ∧
      fld b 12 4 = entTag c.entry := by
  obtain ⟨hseq, htype, hcode, hreason, hop, hbody⟩ := fld_recBytes g (isAdmin r) (completion s r c c.seq code reason result) rfl
  rw [h] at hseq htype hcode hreason hop hbody
  refine ⟨hseq, htype, hcode, hreason, hop.trans (Nat.mod_eq_of_lt (fld_lt c.entry 0 1)), hbody.trans ?_⟩
  exact (fld_fit (entTag c.entry) (fit 16 result) (by decide)).trans (Nat.mod_eq_of_lt (fld_lt c.entry 4 4))

/-- A ring from which a command is taken. -/
theorem ringOf_retire {r : RingRef} {s : State} {g : Ring} (seq : Nat) (hg : ringOf s r = some g) :
    ringOf (retire r seq s) r = some { g with cmds := g.cmds.filter (fun c => c.seq != seq) } := by
  simp [retire, ringOf_modRing, hg]
/-- A command that is not QUIET, or that fails, has its record at the ring's next place. -/
theorem complete_hostMem {r : RingRef} {s : State} {c : Cmd} {seq : Nat} {g : Ring} (code reason : Nat) (result : Bytes)
    (hc : cmdOf s r seq = some c) (hrun : s.fw.running = true) (hsw : s.fw.switching = false) (hg : ringOf s r = some g)
    (hlost : g.lostOwed = 0) (hloud : ¬ (entQuiet c.entry = true ∧ code = 0)) :
    ∃ q, (complete r seq code reason result s).hostMem =
      Mem.writeN s.hostMem (recordAddr g) (recBytes q (isAdmin r) (completion s r c seq code reason result)) := by
  have hring := ringOf_retire seq hg
  have kept := ringOf_putRecord r (completion s r c seq code reason result) (retire r seq s)
  have posts : ∀ x, postAlways r x (retire r seq s) = putRecord r x (retire r seq s) := fun x => by
    simp [postAlways, retire, hrun, hsw]
  rw [complete_eq code reason result hc, if_neg (by simpa using hloud), posts, settleLost_of_none, settleDisable_hostMem, putRecord_hostMem _ hring]
  · exact ⟨_, congrArg (Mem.writeN · _ _) (modRing_hostMem r _ s)⟩
  · intro q hq
    rw [hq, hring] at kept
    exact (congrArg Prod.snd (Option.some.inj kept)).trans hlost
/-- A completed command is in flight no more. -/
theorem cmdOf_complete {r : RingRef} {s : State} {c : Cmd} {seq : Nat} (code reason : Nat) (result : Bytes) (hc : cmdOf s r seq = some c) :
    cmdOf (complete r seq code reason result s) r seq = none := by
  rw [complete_eq code reason result hc]
  apply cmdOf_settleDisable
  rw [cmdOf_eq, ringOf_settleLost, ← cmdOf_eq]
  split
  · exact cmdOf_retire r seq s
  · have posted := congrArg (Option.map Prod.fst) (ringOf_postAlways r (completion s r c seq code reason result) (retire r seq s))
    simp only [Option.map_map] at posted
    rw [cmdOf_eq]
    exact (congrArg (Option.bind · _) posted).trans ((cmdOf_eq ..).symm.trans (cmdOf_retire r seq s))
/-- A completed command is answered (11 R397, R402). -/
theorem complete_answered {r : RingRef} {s : State} {c : Cmd} {seq : Nat} (code reason : Nat) (result : Bytes)
    (hc : cmdOf s r seq = some c) (hrun : s.fw.running = true) (hsw : s.fw.switching = false) :
    Answered s (complete r seq code reason result s) r c code reason := by
  obtain ⟨rfl, -⟩ := cmdOf_some hc
  refine ⟨cmdOf_complete code reason result hc, fun g hg hlost hwf hloud => ?_⟩
  obtain ⟨q, hmem⟩ := complete_hostMem code reason result hc hrun hsw hg hlost hloud
  have read := Mem.readN_writeN hwf (recordAddr g) (recBytes q (isAdmin r) (completion s r c c.seq code reason result))
  rw [recBytes_length _ _ _ rfl, ← hmem] at read
  exact completion_fields q s r c code reason result _ read.symm
/-- The answer stands where the ring and host memory are as before the command, and as after it. -/
theorem answered_of_same_ring {s s' n' n : State} {r : RingRef} {c : Cmd} {code reason : Nat} (h : Answered s' n' r c code reason)
    (hs : ringOf s' r = ringOf s r) (hsm : s'.hostMem = s.hostMem) (hn : ringOf n r = ringOf n' r) (hnm : n.hostMem = n'.hostMem) :
    Answered s n r c code reason where
  gone := (congrArg (Option.bind · _) hn).trans h.gone
  record g hg hlost hwf hloud := by
    have record := h.record g (hs.trans hg) hlost (hsm ▸ hwf) hloud
    rwa [hostRead, ← hnm] at record

end Sys2Proof.Machine
end

section
/-!
PROOFS. Ingest (02 R64–R78, R81–R83; 11 R399): the transfer and arrival of packets, their checks, what decoding brings into force, and poses.
-/
namespace Sys2Proof.Machine
open Sys2Proof.Say (Answered CommandEnds)

/-! ## The rows of the dispatch and their lookups -/

theorem exec_ingestRender (slot seq : Nat) (s : State) : exec (.ingestRender slot seq) s = ingestCommand false slot seq 0x23 s := rfl
theorem exec_ingestPose (slot seq : Nat) (s : State) : exec (.ingestPose slot seq) s = ingestCommand true slot seq 0x24 s := rfl
theorem exec_packetArrival (ward index : Nat) (s : State) : exec (.packetArrival ward index) s = execPacketArrival ward index s := rfl
theorem exec_ingestCheck (ward : Nat) (s : State) : exec (.ingestCheck ward) s = execIngestCheck ward s := rfl
theorem exec_ingestDecodeComplete (slot set : Nat) (s : State) :
    exec (.ingestDecodeComplete slot set) s = execIngestDecodeComplete slot set s := rfl
theorem exec_poseIngestComplete (ward : Nat) (s : State) : exec (.poseIngestComplete ward) s = execPoseIngestComplete ward s := rfl
theorem wardOf_modWard_same {wd : Nat} {s : State} (g : Ward → Ward) (h : wd < s.wards.length) : wardOf (modWard wd g s) wd = g (wardOf s wd) := by
  rw [wardOf_modWard, if_pos ⟨rfl, h⟩]
theorem wardOf_modWard_other {wd w : Nat} (g : Ward → Ward) (s : State) (h : w ≠ wd) : wardOf (modWard wd g s) w = wardOf s w := by
  rw [wardOf_modWard, if_neg (fun e => h e.1)]
theorem ctxOf_of_namedCtx {s : State} {slot gen : Nat} {x : Ctx} (h : namedCtx s slot gen = some x) : ctxOf s slot = some x := by
  unfold namedCtx at h
  split at h
  · exact h
  · cases h

/-! ## Transfer (11 R399) -/

theorem readyCmd_ctx {s : State} {slot seq op : Nat} {c : Cmd} (h : readyCmd (.ctx slot) seq op s = some c) :
    s.fw.running = true ∧ s.fw.switching = false ∧ cmdOf s (.ctx slot) seq = some c := by
  unfold readyCmd at h
  dsimp only at h
  split at h
  · next served =>
    obtain ⟨⟨⟨running, -⟩, switching⟩, -⟩ : ((s.fw.running = true ∧ s.fw.ready = true) ∧ s.fw.switching = false) ∧ _ := by
      simpa [keeperServes] using served
    refine ⟨running, switching, ?_⟩
    split at h
    · cases h
    · next g hg =>
      split at h
      · cases h
      · next c' hc =>
        split at h
        · cases h
          simp [cmdOf, hg, hc]
        · cases h
  · cases h
theorem ingestCommand_next {pose : Bool} {slot seq op : Nat} {s : State} {c : Cmd} {x : Ctx} (hc : readyCmd (.ctx slot) seq op s = some c)
    (hx : ctxOf s slot = some x) (hstart : c.started = false) (hturn : ingestTurn x.ring seq = true) :
    ingestCommand pose slot seq op s = .next (ingestGo pose slot seq c x s) := by
  simp [ingestCommand, need, guardThat, hc, hx, hstart, hturn]
/-- A change of a command that keeps its SEQ. -/
theorem cmdOf_modCmd {r : RingRef} {seq : Nat} {f : Cmd → Cmd} (hf : ∀ c, (f c).seq = c.seq) (s : State) :
    cmdOf (modCmd r seq f s) r seq = (cmdOf s r seq).map f := by
  have found (l : List Cmd) : (l.map (fun c => if c.seq == seq then f c else c)).find? (fun c => c.seq == seq)
      = (l.find? (fun c => c.seq == seq)).map f := by
    induction l with
    | nil => rfl
    | cons c l ih =>
      rw [List.map_cons, List.find?_cons, List.find?_cons]
      by_cases h : c.seq = seq
      · simp [h, hf]
      · simpa only [beq_eq_false_iff_ne.mpr h, Bool.false_eq_true, if_false] using ih
  simp only [cmdOf, modCmd, ringOf_modRing, Option.bind_map, Option.map_bind, Function.comp_def, found]
/-- The packet that an ingest command reads from host memory. -/
def fetchedPacket (pose : Bool) (slot seq : Nat) (c : Cmd) (s : State) : Packet :=
  { pose := pose, bytes := hostRead s (entAddr0 c.entry) (if pose then 128 else entArg c.entry 0), cmd := some (slot, seq) }
/-- The slot and generation that a packet's bytes name. -/
def packetNames (pose : Bool) (b : Bytes) : Nat × Nat := if pose then (posSlot b, posGen b) else (rpSlot b, rpGen b)
theorem ingestGo_refuses {pose : Bool} {slot seq : Nat} {c : Cmd} {x : Ctx} {s : State}
    (h : packetNames pose (fetchedPacket pose slot seq c s).bytes ≠ (slot, x.gen)) :
    ingestGo pose slot seq c x s = complete (.ctx slot) seq kBadEntry 0x02 [] s := if_pos h
theorem ingestGo_transfers {pose : Bool} {slot seq : Nat} {c : Cmd} {x : Ctx} {s : State}
    (h : packetNames pose (fetchedPacket pose slot seq c s).bytes = (slot, x.gen)) :
    ingestGo pose slot seq c x s = modCmd (.ctx slot) seq (fun c => { c with started := true })
      (modWard x.ward (fun w => { w with transit := w.transit ++ [fetchedPacket pose slot seq c s] })
        (chargeHost slot (if pose then 128 else entArg c.entry 0) 0 s)) := if_neg (not_not.mpr h)
theorem cmdOf_chargeHost (i rx tx : Nat) (s : State) (r : RingRef) (seq : Nat) : cmdOf (chargeHost i rx tx s) r seq = cmdOf s r seq := by
  simp only [cmdOf, ringOf_chargeHost]
/-- A transfer puts the packet in transit to its context's ward, and its command is started. -/
theorem transfer_spec {slot seq : Nat} {c : Cmd} {x : Ctx} {s : State} (p : Packet) (rx : Nat) (hward : x.ward < s.wards.length)
    (hc : cmdOf s (.ctx slot) seq = some c) :
    let n := modCmd (.ctx slot) seq (fun c => { c with started := true })
      (modWard x.ward (fun w => { w with transit := w.transit ++ [p] }) (chargeHost slot rx 0 s))
    n = { s with wards := n.wards, ctxs := n.ctxs } ∧
      (∀ w, w ≠ x.ward → wardOf n w = wardOf s w) ∧ (∀ i, i ≠ slot → ctxOf n i = ctxOf s i) ∧
      wardOf n x.ward = { wardOf s x.ward with transit := (wardOf s x.ward).transit ++ [p] } ∧
      cmdOf n (.ctx slot) seq = some { c with started := true } := by
  refine ⟨rfl, fun w hw => ?ward, fun i hi => ?ctx, ?own, ?cmd⟩
  case ward => exact wardOf_modWard_other _ (chargeHost slot rx 0 s) hw
  case ctx => exact (tget_tmod_other _ _ _ _ hi).trans (tget_tmod_other _ _ _ _ hi)
  case own => exact wardOf_modWard_same _ (s := chargeHost slot rx 0 s) hward
  case cmd =>
    refine (cmdOf_modCmd (f := fun c => { c with started := true }) (fun _ => rfl) _).trans ?_
    exact congrArg (Option.map _) ((cmdOf_chargeHost slot rx 0 s _ _).trans hc)

/-! ## Arrival (02 R81) -/

/-- A packet as its last byte arrives. -/
def arrived (s : State) (ward : Nat) (p : Packet) : Packet := { p with arrival := s.now, size := p.bytes.length + ingestBytes s ward }
/-- A ward without one of its packets in transit. -/
def leaveTransit (index : Nat) (w : Ward) : Ward := { w with transit := w.transit.eraseIdx index }
theorem execPacketArrival_next {ward index : Nat} {s : State} {p : Packet} (hp : (wardOf s ward).transit[index]? = some p)
    (hin : inOrder (wardOf s ward) index p = true) :
    execPacketArrival ward index s = .next (arrive ward p (modWard ward (leaveTransit index) s)) := by
  simp only [execPacketArrival, need, guardThat, hp, hin, if_true]
  rfl
/-- A packet in transit is none of the bytes that its ward's ingest holds. -/
theorem arrived_leaveTransit {ward : Nat} {s : State} (index : Nat) (p : Packet) (hward : ward < s.wards.length) :
    arrived (modWard ward (leaveTransit index) s) ward p = arrived s ward p := by
  have held : ingestBytes (modWard ward (leaveTransit index) s) ward = ingestBytes s ward := by
    simp only [ingestBytes, wardOf_modWard_same _ hward]
    rfl
  simp only [arrived, held]
  rfl
theorem arrive_render {ward : Nat} {p : Packet} (s : State) (h : p.pose = false) : ∃ k, arrive ward p s =
    modWard ward (fun w => { w with ingestQ := queueInsert (arrived s ward p) w.ingestQ }) (modPerf (fun _ => k) s) := by
  obtain ⟨k, hk⟩ := tallyChip_eq 0x208 0 p.bytes.length (some ward) s
  refine ⟨k, ?_⟩
  unfold arrive
  extract_lets q s1
  rw [if_neg (show ¬ q.pose = true from ne_true_of_eq_false h)]
  exact congrArg (modWard ward _) hk
theorem arrive_pose {ward : Nat} {p : Packet} (s : State) (h : p.pose = true) : ∃ k t, arrive ward p s =
      { modWard ward (fun w => { w with poseQ := queueInsert (arrived s ward p) w.poseQ }) (modPerf (fun _ => k) s) with ctxs := t } ∧
    ∀ x, namedCtx s (posSlot p.bytes) (posGen p.bytes) = some x → x.ward = ward → poseOk p.bytes = true →
      tget t (posSlot p.bytes) = some { x with ing := { x.ing with poses := x.ing.poses ++ [poseOf (arrived s ward p)] } } := by
  obtain ⟨k, hk⟩ := tallyChip_eq 0x208 0 p.bytes.length (some ward) s
  unfold arrive
  extract_lets q s1 s2
  have h2 : s2 = modWard ward (fun w => { w with poseQ := queueInsert (arrived s ward p) w.poseQ }) (modPerf (fun _ => k) s) :=
    congrArg (modWard ward _) hk
  rw [if_pos (show q.pose = true from h), h2]
  split
  · next x hx =>
    split
    · refine ⟨k, _, rfl, fun x' h _ _ => ?_⟩
      obtain rfl : x = x' := Option.some.inj (hx.symm.trans h)
      exact (tget_tmod_same _ _ _).trans (congrArg (Option.map _) (ctxOf_of_namedCtx hx))
    · next no =>
      refine ⟨k, s.ctxs, rfl, fun x' h hw ok => absurd ?_ no⟩
      obtain rfl : x = x' := Option.some.inj (hx.symm.trans h)
      simp [hw, q, ok]
  · next hx => exact ⟨k, s.ctxs, rfl, fun x' h => absurd (hx.symm.trans h) nofun⟩

/-! ## The heads of the queues -/

/-- The render packet at the head of a ward's queue is taken, and r stays. -/
def takeRender (ward : Nat) (r : List Packet) (s : State) : State := modWard ward (fun w => { w with ingestQ := r }) s
/-- The same for a pose packet. -/
def takePose (ward : Nat) (r : List Packet) (s : State) : State := modWard ward (fun w => { w with poseQ := r }) s
theorem execIngestCheck_next {ward : Nat} {s : State} {p : Packet} {r : List Packet} (h : (wardOf s ward).ingestQ = p :: r) :
    execIngestCheck ward s = .next (checkPacket ward p (takeRender ward r s)) := by
  rw [execIngestCheck, h]
  rfl
theorem execPoseIngestComplete_next {ward : Nat} {s : State} {p : Packet} {r : List Packet} (h : (wardOf s ward).poseQ = p :: r) :
    execPoseIngestComplete ward s = .next (finishPose ward p (takePose ward r s)) := by
  rw [execPoseIngestComplete, h]
  rfl

/-! ## Discards (02 R74; 14 Table 14-8) -/

/-- A state without what the statistics of its contexts change. -/
def allocless (s : State) : State := { s with wards := s.wards.map (fun w => { w with allocs := [] }) }
theorem map_lmod {α β : Type} {view : α → β} {g : α → α} (hg : ∀ v, view (g v) = view v) (l : List α) (i : Nat) :
    (lmod l i g).map view = l.map view := by
  refine List.ext_getElem? fun j => ?_
  simp only [lmod, List.getElem?_map, List.getElem?_modify]
  split <;> simp [Function.comp_def, hg]
theorem allocless_modWard {g : Ward → Ward} (hg : ∀ w, ({ g w with allocs := [] } : Ward) = { w with allocs := [] }) (wd : Nat) (s : State) :
    allocless (modWard wd g s) = allocless s :=
  congrArg (fun l => ({ s with wards := l } : State)) (map_lmod hg s.wards wd)
theorem allocless_addStat (slot off n : Nat) (s : State) : allocless (addStat slot off n s) = allocless s := by
  unfold addStat modStats
  split
  · rfl
  · split
    · rfl
    · refine allocless_modWard ?_ _ s
      exact fun _ => rfl
theorem wardOf_of_allocless {s n : State} (h : allocless n = allocless s) (w : Nat) :
    wardOf n w = { wardOf s w with allocs := (wardOf n w).allocs } := by
  have hw := congrArg (fun q => { q.wards.getD w {} with allocs := (wardOf n w).allocs }) h
  have shown (q : State) : (allocless q).wards.getD w {} = { wardOf q w with allocs := [] } := by
    simp only [allocless, wardOf, List.getD_eq_getElem?_getD, List.getElem?_map]
    cases q.wards[w]? <;> rfl
  simp only [shown] at hw
  exact hw
/-- A discarded packet is counted in its ward and in the statistics of the ward's contexts, and changes nothing else. -/
theorem discardPacket_eq {wd : Nat} {s : State} (hwd : wd < s.wards.length) :
    discardPacket wd s = { s with wards := (discardPacket wd s).wards } ∧
      ∃ a, wardOf (discardPacket wd s) wd = { wardOf s wd with discards := (wardOf s wd).discards + 1, allocs := a } := by
  have kept : allocless (discardPacket wd s) = allocless (modWard wd (fun w => { w with discards := w.discards + 1 }) s) :=
    foldl_view (f := fun s (x : Nat × Ctx) => addStat x.1 stDiscard 1 s) (fun s x => allocless_addStat x.1 stDiscard 1 s) _ _
  refine ⟨congrArg (fun q : State => { q with wards := (discardPacket wd s).wards }) kept,
    (wardOf (discardPacket wd s) wd).allocs, (wardOf_of_allocless kept wd).trans ?_⟩
  rw [wardOf_modWard, if_pos ⟨rfl, hwd⟩]

/-! ## The check (02 R73–R77) -/

theorem checkPacket_unnamed {wd : Nat} {pk : Packet} {s : State}
    (h : ∀ x, namedCtx s (rpSlot pk.bytes) (rpGen pk.bytes) = some x → x.ward ≠ wd) : checkPacket wd pk s = discardPacket wd s := by
  unfold checkPacket
  dsimp only
  split
  · rfl
  · next x hx => exact if_pos (h x hx)
theorem recordless_rejectPacket (pk : Packet) (slot frame reason : Nat) (s : State) :
    recordless (rejectPacket pk slot frame reason s) = recordless s := by
  unfold rejectPacket
  dsimp only
  split <;> simp
theorem recordless_postMissing (slot frame : Nat) (missing : List (Nat × Nat)) (s : State) :
    recordless (postMissing slot frame missing s) = recordless s :=
  foldl_view (fun s _ => foldl_view (fun s _ => recordless_postEvent _ _ _ _ s) _ s) _ s

/-- A rejected packet is reported, and beside that only the context's list of rejected packets changes. -/
theorem checkPacket_rejects {wd : Nat} {pk : Packet} {s : State} {x : Ctx} {reason : Nat}
    (hx : namedCtx s (rpSlot pk.bytes) (rpGen pk.bytes) = some x) (hward : x.ward = wd) (hbad : packetBad x pk.bytes = some reason) :
    ∃ l, checkPacket wd pk s = modCtx (rpSlot pk.bytes) (fun c => { c with ing := { c.ing with rejected := c.ing.rejected ++ l } })
      (rejectPacket pk (rpSlot pk.bytes) (rpFrame pk.bytes) reason (tallyChip 0x20A 0 1 (some wd) s)) := by
  unfold checkPacket
  dsimp only
  rw [hx]
  dsimp only
  rw [if_neg (not_not.mpr hward), hbad]
  dsimp only
  split
  · refine ⟨[], ?_⟩
    simp only [List.append_nil]
    exact (congrArg (fun t => { rejectPacket pk _ _ _ _ with ctxs := t }) (tmod_id _ _)).symm
  · exact ⟨_, rfl⟩
theorem checkPacket_accepts {wd : Nat} {pk : Packet} {s : State} {x : Ctx}
    (hx : namedCtx s (rpSlot pk.bytes) (rpGen pk.bytes) = some x) (hward : x.ward = wd) (hok : packetBad x pk.bytes = none) :
    checkPacket wd pk s = acceptPacket (rpSlot pk.bytes) x pk s := by
  unfold checkPacket
  dsimp only
  rw [hx]
  dsimp only
  rw [if_neg (not_not.mpr hward), hok]

/-- The buffer set that an accepted packet fills. -/
def filledSet (s : State) (x : Ctx) (pk : Packet) : BufferSet :=
  fillSet s pk (judgeHref x pk.bytes (judgeMesh pk.bytes (scanDir x.cfg pk.bytes)).2) (judgeMesh pk.bytes (scanDir x.cfg pk.bytes)).1
/-- A context that has taken a packet into the set b: with its colour the set is filled, and without it the set is released again. -/
structure Took (now : Nat) (x : Ctx) (p : Bytes) (b : BufferSet) (y : Ctx) : Prop where
  number : rpFrame p ∈ y.ing.accepted
  frames : y.fr = x.fr
  filled : b.hasColour = true → y.ing.sets = x.ing.sets.set ((freeSet x.ing).getD 0) b ∧ y.ing.lite = x.ing.lite
  released : b.hasColour = false → y.ing.sets = x.ing.sets.set ((freeSet x.ing).getD 0) { freedAt := x.ing.releases } ∧
    y.ing.releases = x.ing.releases + 1 ∧ (rpFrame p, now) ∈ y.ing.missing ∧
    y.ing.lite = x.ing.lite ++ [{ b with accepted := liteOnly p b.accepted, mesh := none }]

/-- An accepted packet is a change of its context, after the events of its missing surfaces. -/
theorem acceptPacket_takes (slot : Nat) (x : Ctx) (pk : Packet) (s : State) : ∃ g s1, acceptPacket slot x pk s = modCtx slot g s1 ∧
    recordless s1 = recordless s ∧ ∀ c, unposted c = unposted x → Took s.now x pk.bytes (filledSet s x pk) (g c) := by
  unfold acceptPacket
  extract_lets p n m st b keep s1
  refine ⟨_, s1, rfl, (recordless_tallyChip ..).trans (recordless_postMissing ..), fun c hc => ?_⟩
  have hing : c.ing = x.ing := (congrArg Ctx.ing hc :)
  have hfr : c.fr = x.fr := (congrArg Ctx.fr hc :)
  have hb : filledSet s x pk = b := rfl
  rw [hb]
  cases hcol : b.hasColour with
  | true => constructor <;> simp [hcol, hing, hfr, pruneIngest, keep, n, p, freeSet]
  | false => constructor <;> simp [hcol, hing, hfr, pruneIngest, keep, n, p, freeSet]
theorem acceptPacket_ctx {slot : Nat} {x : Ctx} {s : State} (pk : Packet) (hx : ctxOf s slot = some x) :
    ∃ y, ctxOf (acceptPacket slot x pk s) slot = some y ∧ Took s.now x pk.bytes (filledSet s x pk) y := by
  obtain ⟨g, s1, h, kept, took⟩ := acceptPacket_takes slot x pk s
  obtain ⟨c, hc, e⟩ := ctx_of_recordless kept hx
  exact ⟨g c, by simp [h, ctxOf_modCtx, hc], took c e⟩

/-! ## The command of a packet -/

/-- The rings of contexts, host memory and Phipel are the same in two states. -/
structure SameRings (s n : State) : Prop where
  rings : ∀ i, ringOf n (.ctx i) = ringOf s (.ctx i)
  hostMem : n.hostMem = s.hostMem
  fw : n.fw = s.fw
theorem SameRings.refl (s : State) : SameRings s s := ⟨fun _ => rfl, rfl, rfl⟩
theorem SameRings.trans {s m n : State} (a : SameRings s m) (b : SameRings m n) : SameRings s n :=
  ⟨fun i => (b.rings i).trans (a.rings i), b.hostMem.trans a.hostMem, b.fw.trans a.fw⟩
theorem sameRings_modWard (wd : Nat) (g : Ward → Ward) (s : State) : SameRings s (modWard wd g s) := ⟨fun _ => rfl, rfl, rfl⟩
theorem sameRings_tallyChip (ev u n : Nat) (w : Option Nat) (s : State) : SameRings s (tallyChip ev u n w s) := by
  obtain ⟨p, h⟩ := tallyChip_eq ev u n w s
  exact h ▸ ⟨fun _ => rfl, rfl, rfl⟩
theorem sameRings_modCtx {g : Ctx → Ctx} (hg : ∀ x, (g x).ring = x.ring) (slot : Nat) (s : State) : SameRings s (modCtx slot g s) := by
  refine ⟨fun i => ?_, rfl, rfl⟩
  simp only [ringOf, ctxOf_modCtx]
  split
  · next h => simp [h, Option.map_map, Function.comp_def, hg]
  · rfl

/-- What a command's answer rests on is the rings and host memory, before the answer and after it. -/
theorem commandEnds_of_sameRings {s m k n : State} {pk : Packet} {code reason : Nat} (h : CommandEnds m k pk code reason)
    (before : SameRings s m) (after : SameRings k n) : CommandEnds s n pk code reason := by
  intro i seq c hcmd hrun hsw hc
  refine answered_of_same_ring (h i seq c hcmd ?_ ?_ ?_) (before.rings i) before.hostMem (after.rings i) after.hostMem
  · rw [before.fw, hrun]
  · rw [before.fw, hsw]
  · exact (congrArg (Option.bind · _) (before.rings i)).trans hc
/-- The command of a packet that has one completes with KW_OK. -/
def completePacket (pk : Packet) (s : State) : State :=
  match pk.cmd with
  | some (i, seq) => completeOk (.ctx i) seq [] s
  | none => s
@[simp] theorem recordless_completePacket (pk : Packet) (s : State) : recordless (completePacket pk s) = recordless s := by
  unfold completePacket
  split
  · exact recordless_complete ..
  · rfl
theorem rejectPacket_ends (pk : Packet) (slot frame reason : Nat) (s : State) :
    CommandEnds s (rejectPacket pk slot frame reason s) pk 0x01 reason := by
  intro i seq c hcmd hrun hsw hc
  simp only [rejectPacket, hcmd]
  exact complete_answered kInputBounds reason _ hc hrun hsw
theorem completePacket_ends (pk : Packet) (s : State) : CommandEnds s (completePacket pk s) pk 0 0 := by
  intro i seq c hcmd hrun hsw hc
  simp only [completePacket, hcmd]
  exact complete_answered 0 0 [] hc hrun hsw

/-! ## Poses (02 R68, R83) -/

theorem finishPose_unnamed {wd : Nat} {pk : Packet} {s : State}
    (h : ∀ x, namedCtx s (posSlot pk.bytes) (posGen pk.bytes) = some x → x.ward ≠ wd) : finishPose wd pk s = discardPacket wd s := by
  unfold finishPose
  dsimp only
  split
  · rfl
  · next x hx => exact if_pos (h x hx)
theorem finishPose_rejects {wd : Nat} {pk : Packet} {s : State} {x : Ctx} (hx : namedCtx s (posSlot pk.bytes) (posGen pk.bytes) = some x)
    (hward : x.ward = wd) (hbad : poseOk pk.bytes = false) :
    finishPose wd pk s = rejectPacket pk (posSlot pk.bytes) 0 irPoseCheck (tallyChip 0x20A 0 1 (some wd) s) := by
  unfold finishPose
  dsimp only
  rw [hx]
  dsimp only
  rw [if_neg (not_not.mpr hward), hbad, if_neg Bool.false_ne_true]
theorem finishPose_ingests {wd : Nat} {pk : Packet} {s : State} {x : Ctx} (hx : namedCtx s (posSlot pk.bytes) (posGen pk.bytes) = some x)
    (hward : x.ward = wd) (hok : poseOk pk.bytes = true) :
    finishPose wd pk s = completePacket pk (ingestPose (posSlot pk.bytes) s) := by
  unfold finishPose
  dsimp only
  rw [hx]
  dsimp only
  rw [if_neg (not_not.mpr hward), if_pos hok]
  rfl
/-- A pose that is ingested now, with the projection in force. -/
def ingestedPose (now : Nat) (proj : List Nat) (p : Pose) : Pose := { p with ingested := some now, proj := some proj }
theorem ingestPose_ctx {slot i : Nat} {s : State} {x : Ctx} {q : Pose} (hx : ctxOf s slot = some x)
    (hi : x.ing.poses.findIdx? (fun q => q.ingested.isNone) = some i) (hq : x.ing.poses[i]? = some q) :
    let proj := q.proj.orElse (fun _ => x.ing.proj)
    ctxOf (ingestPose slot s) slot = some { x with ing := { x.ing with
      proj := proj, poses := x.ing.poses.modify i (ingestedPose s.now (proj.getD (cbProj x.cfg))) } } := by
  intro proj
  have hproj : ((x.ing.poses.getD i {}).proj).orElse (fun _ => x.ing.proj) = proj := by
    rw [List.getD_eq_getElem?_getD, hq]
    rfl
  simp only [ingestPose, ctxOf_modCtx, if_true, hx, Option.map_some, hi, hproj]
  rfl
theorem sameRings_ingestPose (slot : Nat) (s : State) : SameRings s (ingestPose slot s) := by
  unfold ingestPose
  refine sameRings_modCtx (fun x => ?_) slot s
  split <;> rfl

/-! ## Decoding (02 R75–R78, R84–R95) -/

/-- A context without its graph runs, and without what a graph makes its sets wait for. -/
def graphless (x : Ctx) : Ctx :=
  { x with nextGraph := 0, graphRuns := [], ing := { x.ing with sets := x.ing.sets.map (fun q => { q with flowNeeded := false }) } }
/-- A state without its graph runs, wards and counters. -/
def graphlessState (s : State) : State :=
  { s with wards := [], ctxs := s.ctxs.map (fun e => (e.1, graphless e.2)), perf := {} }
theorem graphlessState_modCtx {i : Nat} {g : Ctx → Ctx} (hg : ∀ x, graphless (g x) = graphless x) (s : State) :
    graphlessState (modCtx i g s) = graphlessState s :=
  congrArg (fun t => ({ s with wards := [], ctxs := t, perf := {} } : State)) (map_tmod hg s.ctxs i)
theorem startGraph_graphless (slot : Nat) (b : BufferSet) (s : State) : graphlessState (startGraph slot b s) = graphlessState s := by
  unfold startGraph
  split
  · rfl
  · split
    · rfl
    · refine graphlessState_modCtx (fun x => ?_) s
      simp only [graphless, List.map_map]
      congr 3
      funext q
      simp only [Function.comp_apply]
      split <;> rfl
theorem keepSources_graphless (wd : Nat) (s : State) : graphlessState (keepSources wd s) = graphlessState s := by
  unfold keepSources
  refine foldl_view (fun s y => ?_) _ s
  refine graphlessState_modCtx ?_ s
  exact fun _ => rfl
theorem ctxOf_of_graphless {s n : State} (h : graphlessState n = graphlessState s) (i : Nat) :
    (ctxOf n i).map graphless = (ctxOf s i).map graphless := by
  have hc := congrArg (fun q => tget q.ctxs i) h
  simp only [graphlessState, tget_map _ (fun _ => graphless)] at hc
  exact hc
theorem sameRings_of_graphless {s n : State} (h : graphlessState n = graphlessState s) : SameRings s n where
  rings i := by
    have hx := congrArg (Option.map Ctx.ring) (ctxOf_of_graphless h i)
    simp only [Option.map_map] at hx
    exact hx
  hostMem := (congrArg State.hostMem h :)
  fw := (congrArg State.fw h :)
theorem graphlessState_addStat (slot off n : Nat) (s : State) : graphlessState (addStat slot off n s) = graphlessState s :=
  (congrArg graphlessState (allocless_addStat slot off n s) :)
theorem addStat_ctxs (slot off n : Nat) (s : State) : (addStat slot off n s).ctxs = s.ctxs := (congrArg State.ctxs (allocless_addStat slot off n s) :)

/-- Releasing sets keeps each set that is not released at its place. -/
theorem foldl_release_getElem? (drop : BufferSet → Bool) (a : List BufferSet × Nat) (l : List BufferSet) :
    let r := l.foldl (fun (a : List BufferSet × Nat) b => if drop b then (a.1 ++ [{ freedAt := a.2 }], a.2 + 1) else (a.1 ++ [b], a.2)) a
    r.1.length = a.1.length + l.length ∧ ∀ (k : Nat) q, l[k]? = some q → drop q = false → r.1[a.1.length + k]? = some q := by
  induction l using List.reverseRecOn with
  | nil => simp
  | append_singleton l b ih =>
    simp only [List.foldl_append, List.foldl_cons, List.foldl_nil, List.length_append, List.length_singleton]
    obtain ⟨len, kept⟩ := ih
    generalize l.foldl _ a = r at len kept ⊢
    refine ⟨by split <;> simp [len, Nat.add_assoc], fun k q hk hq => ?_⟩
    rcases Nat.lt_or_ge k l.length with h | h
    · rw [List.getElem?_append_left h] at hk
      have inside : a.1.length + k < r.1.length := by omega
      split <;> simpa [List.getElem?_append_left inside] using kept k q hk hq
    · obtain ⟨rfl, rfl⟩ : k = l.length ∧ b = q := by
        rw [List.getElem?_append_right h] at hk
        obtain ⟨hlt, he⟩ := List.getElem?_eq_some_iff.mp hk
        simp only [List.length_singleton] at hlt
        exact ⟨by omega, by simpa using he⟩
      simp [hq, ← len]
/-- Releasing sets changes the sets alone, and keeps those in use. -/
theorem settleSets_ctx {slot : Nat} {s : State} {x : Ctx} (hx : ctxOf s slot = some x) : ∃ l k,
    ctxOf (settleSets slot s) slot = some { x with ing := { x.ing with sets := l, releases := k } } ∧
      ∀ (i : Nat) q, x.ing.sets[i]? = some q → setInUse x q = true → l[i]? = some q := by
  unfold settleSets
  refine ⟨_, _, by simp only [ctxOf_modCtx, if_true, hx, Option.map_some]; rfl, fun i q hi hq => ?_⟩
  have kept := (foldl_release_getElem? (fun b => b.use != .free && !setInUse x b) ([], x.ing.releases) x.ing.sets).2 i q hi (by simp [hq])
  simpa using kept
theorem sameRings_settleSets (slot : Nat) (s : State) : SameRings s (settleSets slot s) := by
  refine sameRings_modCtx ?_ slot s
  exact fun _ => rfl

/-- A context as the decoding of its set leaves it where the colour is there: what the packet brings is in force, and the set is full. -/
def takeDecoded (s : State) (x : Ctx) (b : BufferSet) (set : Nat) (c : Ctx) : Ctx :=
  let p := b.packet.bytes
  let a := decodeAll p b.accepted
  let g := comeIntoForce b.frame s.now b.primaries p b.accepted { a with good := a.good.filter (fun g => b.accepted.contains g.1) } c.ing
  { c with ing := { g with
      past := g.past ++ [pastEntry x b true (packetCamera x p) s.now]
      sets := g.sets.set set (convertSet x b a (packetCamera x p) (((boundImage s x).map imPyramid).getD 0) s.now) } }

theorem postMissing_nil (slot frame : Nat) (s : State) : postMissing slot frame [] s = s := by
  simp [postMissing]
theorem graphlessState_tallyChip (ev u n : Nat) (w : Option Nat) (s : State) : graphlessState (tallyChip ev u n w s) = graphlessState s := by
  obtain ⟨p, h⟩ := tallyChip_eq ev u n w s
  exact h ▸ rfl
theorem tallyChip_ctxs (ev u n : Nat) (w : Option Nat) (s : State) : (tallyChip ev u n w s).ctxs = s.ctxs := by
  obtain ⟨p, h⟩ := tallyChip_eq ev u n w s
  exact h ▸ rfl
/-- With its colour, and outside the frame in progress, a decoded packet changes its context, its command completes and sets are released. -/
theorem decodeComplete_steps {slot set : Nat} {x : Ctx} {b : BufferSet} {s : State} (hset : set < 4) (hcol : b.hasColour = true)
    (hsurf : ((decodeAll b.packet.bytes b.accepted).surface 1).isSome = true) (hbad : (decodeAll b.packet.bytes b.accepted).bad = [])
    (hcur : curTriggeredBy x b.frame = false) : ∃ s1 s3, s1.ctxs = s.ctxs ∧ graphlessState s1 = graphlessState s ∧
      graphlessState s3 = graphlessState (refreshFrame slot false (modCtx slot (takeDecoded s x b set) s1)) ∧
      decodeComplete slot set x b s = settleSets slot (completePacket b.packet s3) := by
  unfold decodeComplete
  extract_lets p n a ok cam keep eff k full replaced s1 s2 mine s3 s4 s5
  have hok : ok = true := by simp [ok, a, p, hcol, hsurf]
  have hkeep : keep = b.accepted := if_pos hok
  have hmine : mine = false := hcur
  have h2 : s2 = modCtx slot (takeDecoded s x b set) s1 := by
    simp only [s2, hok, if_true, eff, hkeep, if_neg (Nat.not_le.mpr hset)]
    rfl
  have h3 : s3 = keepSources x.ward (startGraph slot full (refreshFrame slot false s2)) := by simp only [s3, hok, if_true, hmine]
  have h4 : s4 = s3 := by simp [s4, hmine]
  refine ⟨s1, s3, ?_, ?_, ?_, ?_⟩
  · rw [addStat_ctxs, tallyChip_ctxs, tallyChip_ctxs, hbad, postMissing_nil]
  · rw [graphlessState_addStat, graphlessState_tallyChip, graphlessState_tallyChip, hbad, postMissing_nil]
  · rw [h3, keepSources_graphless, startGraph_graphless, h2]
  · simp only [s5, h4]
    rfl

/-- The sets of contexts that differ only in their graphs differ only in what the graphs make them wait for. -/
theorem set_of_graphless {x y : Ctx} {i : Nat} {q : BufferSet} (h : graphless y = graphless x) (hq : x.ing.sets[i]? = some q) :
    ∃ w, y.ing.sets[i]? = some { q with flowNeeded := w } := by
  have hi := congrArg (fun z : Ctx => z.ing.sets[i]?) h
  simp only [graphless, List.getElem?_map, hq, Option.map_some] at hi
  obtain ⟨r, hr, e⟩ := Option.map_eq_some_iff.mp hi
  exact ⟨r.flowNeeded, hr.trans (congrArg (fun z : BufferSet => some { z with flowNeeded := r.flowNeeded }) e)⟩
theorem sameRings_takeDecoded (s : State) (x : Ctx) (b : BufferSet) (set slot : Nat) (s1 : State) :
    SameRings s1 (refreshFrame slot false (modCtx slot (takeDecoded s x b set) s1)) := by
  refine (sameRings_modCtx (g := takeDecoded s x b set) (fun _ => rfl) slot s1).trans (sameRings_modCtx ?_ slot _)
  exact fun _ => rfl
/-- A context that has no frame in progress is refreshed to itself. -/
theorem ctxOf_refreshFrame {slot : Nat} {s : State} {x : Ctx} (own : Bool) (hx : ctxOf s slot = some x) :
    ∃ f, ctxOf (refreshFrame slot own s) slot = some { x with fr := f } ∧ (x.fr.cur = none → f = x.fr) := by
  unfold refreshFrame
  refine ⟨_, by simp only [ctxOf_modCtx, if_true, hx, Option.map_some]; rfl, fun h => ?_⟩
  exact congrArg (fun c => ({ x.fr with cur := c } : CtxFrames)) ((congrArg (Option.map _) h).trans h.symm)
/-- The latest rendered frame's set stays in use. -/
theorem setInUse_of_latest {x : Ctx} {q : BufferSet} (hfull : q.use = .full) (h : latestRendered x.ing = some q.frame) : setInUse x q = true := by
  simp [setInUse, hfull, h]

/-- The tables that a decode leaves. -/
def leftTables (s : State) : Table Task × Table Slot × Table Head × Table Hasp := (s.tasks, s.slots, s.heads, s.hasps)
/-- A decode that leaves its set full touches no task, slot, head or hasp. -/
theorem decodeComplete_tables {slot set : Nat} {x : Ctx} {b : BufferSet} {s s1 s3 : State} (h1 : graphlessState s1 = graphlessState s)
    (h3 : graphlessState s3 = graphlessState (refreshFrame slot false (modCtx slot (takeDecoded s x b set) s1))) :
    leftTables (settleSets slot (completePacket b.packet s3)) = leftTables s :=
  calc leftTables (settleSets slot (completePacket b.packet s3))
    _ = leftTables s3 := (congrArg leftTables (recordless_completePacket b.packet s3) :)
    _ = leftTables s1 := (congrArg leftTables h3 :)
    _ = leftTables s := (congrArg leftTables h1 :)
/-- A context as it stands after a decode that leaves its set full. -/
theorem decodeComplete_ctx {slot set : Nat} {x : Ctx} {b : BufferSet} {s s1 s3 : State} (hx : ctxOf s slot = some x) (hset : set < x.ing.sets.length)
    (h1 : s1.ctxs = s.ctxs) (h3 : graphlessState s3 = graphlessState (refreshFrame slot false (modCtx slot (takeDecoded s x b set) s1)))
    (hlatest : latestRendered (takeDecoded s x b set x).ing = some b.frame) :
    ∃ y w, ctxOf (settleSets slot (completePacket b.packet s3)) slot = some y ∧ (x.fr.cur = none → y.fr = x.fr) ∧
      (y.ing.past, y.ing.ui, y.ing.exposures, y.ing.hierRefs) = ((takeDecoded s x b set x).ing.past, (takeDecoded s x b set x).ing.ui,
        (takeDecoded s x b set x).ing.exposures, (takeDecoded s x b set x).ing.hierRefs) ∧
      y.ing.sets[set]? = some { convertSet x b (decodeAll b.packet.bytes b.accepted) (packetCamera x b.packet.bytes)
        (((boundImage s x).map imPyramid).getD 0) s.now with flowNeeded := w } := by
  have taken : ctxOf (modCtx slot (takeDecoded s x b set) s1) slot = some (takeDecoded s x b set x) := by
    have hx1 : ctxOf s1 slot = some x := (congrArg (tget · slot) h1).trans hx
    simp [ctxOf_modCtx, hx1]
  obtain ⟨f, refreshed, hf⟩ := ctxOf_refreshFrame false taken
  have run := ctxOf_of_graphless h3 slot
  rw [refreshed] at run
  obtain ⟨y3, hy3, e3⟩ := Option.map_eq_some_iff.mp run
  obtain ⟨y5, hy5, e5⟩ := ctx_of_recordless (recordless_completePacket b.packet s3) hy3
  obtain ⟨l, k, settled, kept⟩ := settleSets_ctx hy5
  have hing : y5.ing = y3.ing := (congrArg Ctx.ing e5 :)
  have hpast : y3.ing.past = (takeDecoded s x b set x).ing.past := (congrArg (fun z : Ctx => z.ing.past) e3 :)
  obtain ⟨w, hw⟩ := set_of_graphless (i := set) e3 (List.getElem?_set_self hset)
  refine ⟨_, w, settled, fun h => ?_, ?_, kept _ _ (hing ▸ hw) (setInUse_of_latest rfl ?_)⟩
  · exact ((congrArg Ctx.fr e5 :).trans (congrArg Ctx.fr e3 :)).trans (hf h)
  · simp only [hing]
    exact (congrArg (fun z : Ctx => (z.ing.past, z.ing.ui, z.ing.exposures, z.ing.hierRefs)) e3 :)
  · have same : latestRendered y5.ing = latestRendered (takeDecoded s x b set x).ing := by simp only [latestRendered, hing, hpast]
    exact same.trans hlatest
theorem execIngestDecodeComplete_next {s : State} {slot set : Nat} {x : Ctx} {b : BufferSet} (hx : liveCtx s slot = some x)
    (hb : decodeTarget x set = some b) (hturn : decodeTurn s x.ward b = true) :
    execIngestDecodeComplete slot set s = .next (decodeComplete slot set x b s) := by
  simp [execIngestDecodeComplete, need, guardThat, hx, hb, hturn]
theorem decodeTarget_lt {x : Ctx} {set : Nat} {b : BufferSet} (hb : decodeTarget x set = some b) (hset : set < 4) : set < x.ing.sets.length := by
  unfold decodeTarget at hb
  rw [if_pos hset] at hb
  obtain ⟨q, hq, -⟩ := Option.bind_eq_some_iff.mp hb
  exact (List.getElem?_eq_some_iff.mp hq).1

end Sys2Proof.Machine

namespace Sys2Proof.Say
open Sys2Proof.Machine

/-- An ingest command's one outcome: the transfer where the packet names its own context, and else the refusal. -/
theorem ingestCommand_spec (pose : Bool) {slot seq op : Nat} {s : State} {c : Cmd} {x : Ctx} (hs : Sized s) (hx : ctxOf s slot = some x)
    (hward : x.ward < 16) (hstart : c.started = false) (hturn : ingestTurn x.ring seq = true) (hc : readyCmd (.ctx slot) seq op s = some c) :
    ∃ n, ingestCommand pose slot seq op s = .next n ∧
      (packetNames pose (fetchedPacket pose slot seq c s).bytes = (slot, x.gen) →
        n = { s with wards := n.wards, ctxs := n.ctxs } ∧
        (∀ w, w ≠ x.ward → wardOf n w = wardOf s w) ∧ (∀ i, i ≠ slot → ctxOf n i = ctxOf s i) ∧
        wardOf n x.ward = { wardOf s x.ward with transit := (wardOf s x.ward).transit ++ [fetchedPacket pose slot seq c s] } ∧
        cmdOf n (.ctx slot) seq = some { c with started := true }) ∧
      (packetNames pose (fetchedPacket pose slot seq c s).bytes ≠ (slot, x.gen) →
        Answered s n (.ctx slot) c 0x20 0x02 ∧ n.wards = s.wards ∧ n.slots = s.slots) := by
  obtain ⟨hrun, hsw, hcmd⟩ := readyCmd_ctx hc
  refine ⟨_, ingestCommand_next hc hx hstart hturn, fun h => ?_, fun h => ?_⟩
  · rw [ingestGo_transfers h]
    exact transfer_spec _ _ (hs.2 ▸ hward) hcmd
  · rw [ingestGo_refuses h]
    have kept := recordless_complete (.ctx slot) seq kBadEntry 0x02 [] s
    exact ⟨complete_answered kBadEntry 0x02 [] hcmd hrun hsw, (congrArg State.wards kept :), (congrArg State.slots kept :)⟩

/-- Transfer and arrival: an ingest command and an arriving packet each have one outcome, given by `ingestCommand_spec`, `arrive_render`
and `arrive_pose`. -/
theorem packetsArrive_holds : packetsArrive := by
  refine ⟨fun s slot seq c x hs hx hward hstart hturn q hq hc => ?transfer, fun s ward index p hs hward hp hin => ?arrival⟩
  case transfer =>
    obtain rfl | rfl : q = (.ingestRender slot seq, 0x23, false) ∨ q = (.ingestPose slot seq, 0x24, true) := by simpa using hq
    · obtain ⟨n, hn, named, other⟩ := ingestCommand_spec false hs hx hward hstart hturn hc
      exact ⟨fun h => ⟨n, hn, named h⟩, fun h => ⟨n, hn, other h⟩⟩
    · obtain ⟨n, hn, named, other⟩ := ingestCommand_spec true hs hx hward hstart hturn hc
      exact ⟨fun h => ⟨n, hn, named h⟩, fun h => ⟨n, hn, other h⟩⟩
  case arrival =>
    have hwd : ward < s.wards.length := hs.2 ▸ hward
    have hn := (exec_packetArrival ward index s).trans (execPacketArrival_next hp hin)
    have left : wardOf (modWard ward (leaveTransit index) s) ward = leaveTransit index (wardOf s ward) := wardOf_modWard_same _ hwd
    have queued (g : Ward → Ward) (w : Nat) (hw : w ≠ ward) : wardOf (modWard ward g (modWard ward (leaveTransit index) s)) w = wardOf s w :=
      (wardOf_modWard_other g _ hw).trans (wardOf_modWard_other _ s hw)
    have own (g : Ward → Ward) : wardOf (modWard ward g (modWard ward (leaveTransit index) s)) ward = g (leaveTransit index (wardOf s ward)) :=
      (wardOf_modWard_same g (by rw [modWard_wards_length]; exact hwd)).trans (congrArg g left)
    refine ⟨fun h => ?render, fun h => ?pose⟩
    case render =>
      obtain ⟨k, e⟩ := arrive_render (ward := ward) (modWard ward (leaveTransit index) s) h
      rw [arrived_leaveTransit index p hwd] at e
      rw [e] at hn
      exact ⟨_, hn, rfl, fun w hw => queued _ w hw, own _⟩
    case pose =>
      obtain ⟨k, t, e, known⟩ := arrive_pose (ward := ward) (modWard ward (leaveTransit index) s) h
      rw [arrived_leaveTransit index p hwd] at e known
      rw [e] at hn
      exact ⟨_, hn, rfl, fun w hw => queued _ w hw, own _, known⟩

/-- The three ways of a packet at the head of its queue: discarded, rejected, accepted. -/
theorem packetsChecked_holds : packetsChecked := by
  intro s ward p r hs hward hq slot
  have hwd : ward < s.wards.length := hs.2 ▸ hward
  have own : wardOf (takeRender ward r s) ward = { wardOf s ward with ingestQ := r } :=
    wardOf_modWard_same _ hwd
  have hn := (exec_ingestCheck ward s).trans (execIngestCheck_next hq)
  have taken : SameRings s (takeRender ward r s) := sameRings_modWard ward _ s
  refine ⟨fun unnamed => ?discards, fun x hx hxw => ⟨fun reason hbad => ?rejects, fun hok => ?accepts⟩⟩
  case discards =>
    obtain ⟨frame, a, counted⟩ := discardPacket_eq (wd := ward) (s := takeRender ward r s)
      ((modWard_wards_length ..).symm ▸ hwd)
    rw [checkPacket_unnamed (s := takeRender ward r s) unnamed] at hn
    exact ⟨_, hn, frame, a, by rw [counted, own]⟩
  case rejects =>
    obtain ⟨l, e⟩ := checkPacket_rejects (s := takeRender ward r s) hx hxw hbad
    rw [e] at hn
    have kept := (recordless_rejectPacket p slot (rpFrame p.bytes) reason _).trans
      (recordless_tallyChip 0x20A 0 1 (some ward) (takeRender ward r s))
    obtain ⟨c, hc, same⟩ := ctx_of_recordless kept (i := slot) (ctxOf_of_namedCtx hx)
    have hing : c.ing = x.ing := (congrArg Ctx.ing same :)
    refine ⟨_, hn, ?_, (wardOf_of_recordless kept ward).trans own, ?_⟩
    · refine commandEnds_of_sameRings (rejectPacket_ends _ _ _ _ _) (taken.trans (sameRings_tallyChip ..)) (sameRings_modCtx ?_ slot _)
      exact fun _ => rfl
    · simp [ctxOf_modCtx, slot, hc, hing]
  case accepts =>
    intro m st b
    rw [checkPacket_accepts (s := takeRender ward r s) hx hxw hok] at hn
    obtain ⟨g, s1, e, kept, -⟩ := acceptPacket_takes slot x p (takeRender ward r s)
    obtain ⟨y, hy, took⟩ := acceptPacket_ctx (s := takeRender ward r s) p (ctxOf_of_namedCtx hx)
    have wards (w : Nat) : wardOf (acceptPacket slot x p (takeRender ward r s)) w = wardOf (takeRender ward r s) w := by
      rw [e]
      exact wardOf_of_recordless kept w
    refine ⟨_, hn, (wards ward).trans own, fun w hw => (wards w).trans (wardOf_modWard_other _ s hw), ?_, y, hy, took.number, took.frames,
      took.filled, took.released⟩
    rw [e]
    exact (congrArg State.slots kept :)

/-- A decode with its colour is its context's change, the packet's completion, and a release of sets that keeps its own. -/
theorem packetsDecode_holds : packetsDecode := by
  intro s slot set x b hx hset hb hturn hcur hcol p a cam keep eff g hsurf hbad hlatest
  obtain ⟨s1, s3, hctxs, h1, h3, hn⟩ := decodeComplete_steps (s := s) (slot := slot) hset hcol hsurf hbad hcur
  obtain ⟨y, w, hy, hfr, hing, hfull⟩ := decodeComplete_ctx (ctxOf_of_liveCtx hx) (decodeTarget_lt hb hset) hctxs h3 hlatest
  have run := (sameRings_of_graphless h1).trans ((sameRings_takeDecoded s x b set slot s1).trans (sameRings_of_graphless h3))
  have tables := decodeComplete_tables h1 h3
  simp only [leftTables, Prod.mk.injEq] at tables hing
  obtain ⟨tasks, slots, heads, hasps⟩ := tables
  obtain ⟨past, ui, exposures, hierRefs⟩ := hing
  refine ⟨_, ((exec_ingestDecodeComplete slot set s).trans (execIngestDecodeComplete_next hx hb hturn)).trans (congrArg _ hn), ?_⟩
  refine ⟨commandEnds_of_sameRings (completePacket_ends b.packet s3) run (sameRings_settleSets slot _), tasks, slots, heads, hasps, y, hy, hfr,
    past, ?_, _, hfull, rfl, rfl, rfl, rfl, rfl⟩
  rw [ui, exposures, hierRefs]
  rfl

/-- The three ways of a pose packet at the head of its queue: discarded, rejected, ingested. -/
theorem posesIngested_holds : posesIngested := by
  intro s ward p r hs hward hq slot
  have hwd : ward < s.wards.length := hs.2 ▸ hward
  have own : wardOf (takePose ward r s) ward = { wardOf s ward with poseQ := r } :=
    wardOf_modWard_same _ hwd
  have hn := (exec_poseIngestComplete ward s).trans (execPoseIngestComplete_next hq)
  have taken : SameRings s (takePose ward r s) := sameRings_modWard ward _ s
  refine ⟨fun unnamed => ?discards, fun x hx hxw => ⟨fun hbad => ?rejects, fun i q hok hi hqi => ?ingests⟩⟩
  case discards =>
    obtain ⟨frame, a, counted⟩ := discardPacket_eq (wd := ward) (s := takePose ward r s)
      ((modWard_wards_length ..).symm ▸ hwd)
    rw [finishPose_unnamed (s := takePose ward r s) unnamed] at hn
    exact ⟨_, hn, frame, a, by rw [counted, own]⟩
  case rejects =>
    rw [finishPose_rejects (s := takePose ward r s) hx hxw hbad] at hn
    have kept := (recordless_rejectPacket p slot 0 irPoseCheck _).trans
      (recordless_tallyChip 0x20A 0 1 (some ward) (takePose ward r s))
    obtain ⟨c, hc, same⟩ := ctx_of_recordless kept (i := slot) (ctxOf_of_namedCtx hx)
    refine ⟨_, hn, ?_, (wardOf_of_recordless kept ward).trans own, ?_⟩
    · exact commandEnds_of_sameRings (rejectPacket_ends _ _ _ _ _) (taken.trans (sameRings_tallyChip ..)) (.refl _)
    · rw [hc]
      exact congrArg some (congrArg Ctx.ing same :)
  case ingests =>
    rw [finishPose_ingests (s := takePose ward r s) hx hxw hok] at hn
    have kept := recordless_completePacket p (ingestPose slot (takePose ward r s))
    obtain ⟨y, hy, same⟩ := ctx_of_recordless kept (ingestPose_ctx (s := takePose ward r s) (ctxOf_of_namedCtx hx) hi hqi)
    have hproj : y.ing.proj = q.proj.orElse (fun _ => x.ing.proj) := (congrArg (fun z : Ctx => z.ing.proj) same :)
    have hposes : y.ing.poses = x.ing.poses.modify i (ingestedPose s.now ((q.proj.orElse (fun _ => x.ing.proj)).getD (cbProj x.cfg))) :=
      (congrArg (fun z : Ctx => z.ing.poses) same :)
    have ingested : y.ing.poses[i]? = some (ingestedPose s.now ((q.proj.orElse (fun _ => x.ing.proj)).getD (cbProj x.cfg)) q) := by
      rw [hposes, List.getElem?_modify_eq, hqi]
      rfl
    refine ⟨_, hn, ?_, (wardOf_of_recordless kept ward).trans own, y, hy, hproj, (congrArg Ctx.fr same :), fun j hj => ?_,
      congrArg (Option.map _) ingested, congrArg (Option.map _) ingested⟩
    · exact commandEnds_of_sameRings (completePacket_ends _ _) (taken.trans (sameRings_ingestPose _ _)) (.refl _)
    · rw [hposes, List.getElem?_modify_ne _ _ hj.symm]

/-- Settles O35: each of its four parts follows the branches of its own function of the model. What comes between, records, statistics and
graphs, is set aside by the views `recordless`, `allocless` and `graphlessState`, and `complete_answered` gives every command's record. -/
theorem ingest : Obligations.Ingest := ⟨packetsArrive_holds, packetsChecked_holds, packetsDecode_holds, posesIngested_holds⟩

end Sys2Proof.Say
end

section
/-!
PROOFS. Loaded images and COPY (04 R144; 11 R388, Table 11-8): the answer of a command that comes after a change of memory, ward memory
after a write, and the images and allocations of a ward.
-/
namespace Sys2Proof.Machine
open Sys2Proof.Say (Answered Result)

/-! ## The answer of a command after its effect (11 R397, R402) -/

/-- A command that may start is in flight, and Phipel runs. -/
theorem readyCmd_some {s : State} {r : RingRef} {seq op : Nat} {c : Cmd} (h : readyCmd r seq op s = some c) :
    cmdOf s r seq = some c ∧ s.fw.running = true ∧ s.fw.switching = false := by
  simp only [readyCmd, Option.ite_none_right_eq_some, Bool.and_eq_true, keeperServes, Bool.not_eq_true'] at h
  obtain ⟨⟨⟨⟨running, -⟩, steady⟩, -⟩, h⟩ := h
  refine ⟨?_, running, steady⟩
  split at h
  · cases h
  · next g hg =>
    split at h
    · cases h
    · next c' hc' =>
      obtain ⟨-, rfl⟩ : _ ∧ c' = c := by simpa using h
      simp [cmdOf, hg, hc']
theorem command_next {r : RingRef} {seq op : Nat} {s : State} {c : Cmd} (go : Cmd → State → State) (hc : readyCmd r seq op s = some c) :
    command r seq op s go = .next (go c s) := by
  simp [command, need, hc]
theorem ctxCommand_next {slot seq op : Nat} {s : State} {c : Cmd} {x : Ctx} (go : Cmd → Ctx → State → State)
    (hc : readyCmd (.ctx slot) seq op s = some c) (hx : ctxOf s slot = some x) : ctxCommand slot seq op s go = .next (go c x s) := by
  simp [ctxCommand, need, hc, hx]

/-- What the answer of a command rests on: its ring, Phipel, and the canonical form of host memory. -/
structure KeepsRing (r : RingRef) (s n : State) : Prop where
  ring : ringOf n r = ringOf s r
  fw : n.fw = s.fw
  canonical : Mem.wf s.hostMem = true → Mem.wf n.hostMem = true
theorem KeepsRing.refl (r : RingRef) (s : State) : KeepsRing r s s := ⟨rfl, rfl, id⟩
theorem KeepsRing.trans {r : RingRef} {s m n : State} (a : KeepsRing r s m) (b : KeepsRing r m n) : KeepsRing r s n :=
  ⟨b.ring.trans a.ring, b.fw.trans a.fw, b.canonical ∘ a.canonical⟩
theorem keepsRing_modWard (r : RingRef) (wd : Nat) (g : Ward → Ward) (s : State) : KeepsRing r s (modWard wd g s) := by
  refine ⟨?_, rfl, id⟩
  cases r <;> rfl
theorem keepsRing_hostWrite (r : RingRef) (a : Nat) (b : Bytes) (s : State) : KeepsRing r s (hostWrite a b s) :=
  ⟨ringOf_hostWrite a b s r, rfl, Mem.writeN_wf b⟩
theorem keepsRing_modAcct (slot i : Nat) (g : Account → Account) (s : State) : KeepsRing (.ctx slot) s (modAcct i g s) :=
  ⟨(sameRings_modCtx (g := fun x => { x with acct := g x.acct }) (fun _ => rfl) i s).rings slot, rfl, id⟩
theorem cmdOf_of_keepsRing {r : RingRef} {s n : State} (h : KeepsRing r s n) (seq : Nat) : cmdOf n r seq = cmdOf s r seq :=
  congrArg (Option.bind · _) h.ring

section
variable {r : RingRef} {s m : State} {c : Cmd} {seq op : Nat}

/-- A command that has its effect first is answered as it was fetched. -/
theorem complete_answered_after (code reason : Nat) (result : Bytes) (hc : readyCmd r seq op s = some c) (kept : KeepsRing r s m) :
    Answered s (complete r seq code reason result m) r c code reason := by
  obtain ⟨hcmd, running, steady⟩ := readyCmd_some hc
  have answered := complete_answered code reason result ((cmdOf_of_keepsRing kept seq).trans hcmd) (kept.fw ▸ running) (kept.fw ▸ steady)
  exact ⟨answered.gone, fun g hg hlost hwf => answered.record g (kept.ring.trans hg) hlost (kept.canonical hwf)⟩

theorem fit_of_length {n : Nat} {b : Bytes} (h : b.length = n) : fit n b = b := by
  subst h
  simp [fit, slice]
/-- RESULT stands in bytes 16–31 of a completion (11 Table 11-10). -/
theorem slice_completion (g : Ring) (s : State) (r : RingRef) (c : Cmd) (seq code reason : Nat) (result : Bytes) :
    slice (recBytes g (isAdmin r) (completion s r c seq code reason result)) 16 16 = fit 16 result := by
  obtain ⟨flags, h⟩ := recBytes_eq g (isAdmin r) (completion s r c seq code reason result) rfl
  have body : fit 20 (completion s r c seq code reason result).body = natLe 4 (entTag c.entry) ++ fit 16 result := fit_of_length (by simp [completion])
  rw [h, body]
  simp [slice, List.drop_append, List.drop_eq_nil_of_le]
theorem completeOk_result_after (result : Bytes) (hc : readyCmd r seq op s = some c) (kept : KeepsRing r s m) :
    Result s (completeOk r seq result m) r c result := by
  refine ⟨complete_answered_after 0 0 result hc kept, fun g hg hlost hwf loud => ?_⟩
  obtain ⟨hcmd, running, steady⟩ := readyCmd_some hc
  obtain ⟨q, hmem⟩ := complete_hostMem 0 0 result ((cmdOf_of_keepsRing kept seq).trans hcmd) (kept.fw ▸ running) (kept.fw ▸ steady)
    (kept.ring.trans hg) hlost (by simp [loud])
  have read := Mem.readN_writeN (kept.canonical hwf) (recordAddr g) (recBytes q (isAdmin r) (completion m r c seq 0 0 result))
  rw [recBytes_length _ _ _ rfl, ← hmem] at read
  exact (congrArg (slice · 16 16) read).trans (slice_completion q m r c seq 0 0 result)

/-- The record of a command stands in its ring's completion queue, and every other byte of host memory keeps its value. -/
theorem complete_hostMem_outside {g : Ring} {a : Nat} (code reason : Nat) (result : Bytes) (hc : cmdOf s r seq = some c)
    (hrun : s.fw.running = true) (hsw : s.fw.switching = false) (hg : ringOf s r = some g) (hlost : g.lostOwed = 0)
    (ha : a < g.cqBase ∨ g.cqBase + 32 * 2 ^ g.cqLog2 ≤ a) :
    Mem.read (complete r seq code reason result s).hostMem a = Mem.read s.hostMem a := by
  by_cases quiet : entQuiet c.entry = true ∧ code = 0
  · have settled : settleLost r (retire r seq s) = retire r seq s := settleLost_of_none fun q hq => by
      obtain rfl := Option.some.inj ((ringOf_retire seq hg).symm.trans hq)
      exact hlost
    rw [complete_eq code reason result hc, if_pos (by simpa using quiet), settled, settleDisable_hostMem, retire, modRing_hostMem]
  · obtain ⟨q, hmem⟩ := complete_hostMem code reason result hc hrun hsw hg hlost quiet
    have place : g.posted % 2 ^ g.cqLog2 < 2 ^ g.cqLog2 := Nat.mod_lt _ (by positivity)
    rw [hmem, Mem.read_writeN_other]
    rw [recBytes_length _ _ _ rfl, recordAddr]
    omega
end

/-- The wards stand as they were before a command is answered. -/
theorem complete_wards (r : RingRef) (seq code reason : Nat) (result : Bytes) (s : State) :
    (complete r seq code reason result s).wards = s.wards :=
  (congrArg State.wards (recordless_complete r seq code reason result s) :)
theorem wardOf_complete (r : RingRef) (seq code reason : Nat) (result : Bytes) (s : State) (w : Nat) :
    wardOf (complete r seq code reason result s) w = wardOf s w :=
  wardOf_of_recordless (recordless_complete r seq code reason result s) w

/-! ## Ward memory after a write (11 R388; 05 R216) -/

/-- Byte j of a memory after a write of a byte string. -/
theorem Mem.read_writeN {m : Mem} (hm : Mem.wf m = true) (a : Nat) (b : Bytes) (j : Nat) :
    Mem.read (Mem.writeN m a b) j = if a ≤ j ∧ j < a + b.length then b.getD (j - a) 0 else Mem.read m j := by
  split
  · next h =>
    have inside : j - a < b.length := by omega
    have read := Mem.read_writeN_at (a := a) b hm inside
    rwa [Nat.add_sub_cancel' h.1, ← List.getD_eq_getElem b 0 inside] at read
  · next h => exact Mem.read_writeN_other b (by omega)
theorem hostRead_getD (s : State) (a : Nat) {n i : Nat} (h : i < n) : (hostRead s a n).getD i 0 = Mem.read s.hostMem (a + i) := by
  have inside : i < (hostRead s a n).length := by simpa [hostRead] using h
  rw [List.getD_eq_getElem _ _ inside]
  exact Mem.readN_getElem s.hostMem n a i inside
@[simp] theorem wardRead_length (w : Ward) (a n : Nat) : (wardRead w a n).length = n := by
  induction n generalizing a with
  | zero => rfl
  | succ n ih => simp [wardRead, ih]
theorem wardRead_getD (w : Ward) (n : Nat) : ∀ (a : Nat) {i : Nat}, i < n → (wardRead w a n).getD i 0 = wardByte w (a + i) := by
  induction n with
  | zero => exact fun _ _ h => absurd h (Nat.not_lt_zero _)
  | succ n ih =>
    intro a i h
    cases i with
    | zero => rfl
    | succ i =>
      have tail := ih (a + 1) (Nat.lt_of_succ_lt_succ h)
      rwa [Nat.add_right_comm] at tail

/-- Objects hold whole granules: an address belongs to the object that its granule belongs to. -/
theorem mappedAlloc_granule (w : Ward) (a : Nat) : mappedAlloc w (a / 2 ^ 18 * 2 ^ 18) = mappedAlloc w a := by
  have same : allocAt w (a / 2 ^ 18 * 2 ^ 18) = allocAt w a := by
    unfold allocAt
    congr 1
    funext x
    congr 1 <;> simp only [decide_eq_decide] <;> omega
  simp only [mappedAlloc, same]
/-- Every address of a mapped range belongs to an object that satisfies the test. -/
theorem mappedAlloc_of_mappedBy {w : Ward} {addr n a : Nat} {ok : Alloc → Bool} (h : mappedBy w addr n ok = true) (h1 : addr ≤ a)
    (h2 : a < addr + n) : ∃ x, mappedAlloc w a = some x ∧ ok x = true := by
  have hn : (n == 0) = false := by simp; omega
  simp only [mappedBy, hn, Bool.false_or, List.all_eq_true, List.mem_range] at h
  have granule := h (a / 2 ^ 18 - addr / 2 ^ 18) (by omega)
  rw [show addr / 2 ^ 18 + (a / 2 ^ 18 - addr / 2 ^ 18) = a / 2 ^ 18 by omega, mappedAlloc_granule] at granule
  cases hx : mappedAlloc w a with
  | none => simp [hx] at granule
  | some x => exact ⟨x, rfl, by simpa [hx] using granule⟩

/-- A ward with bytes written, as `wardWrite` leaves it. -/
def overwrite (addr : Nat) (b : Bytes) (w : Ward) : Ward :=
  { w with mem := Mem.writeN w.mem addr b, poisoned := w.poisoned.filter (fun l => !lineMeets addr b.length l) }
theorem wardWrite_eq (wd addr : Nat) (b : Bytes) (s : State) : wardWrite wd addr b s = modWard wd (overwrite addr b) s := rfl
/-- In a writable range the bytes of a write stand, and every other byte of the ward keeps its value: no read-only object lies there. -/
theorem wardByte_overwrite {w : Ward} {slot addr : Nat} {b : Bytes} (hm : ctxMapped w slot addr b.length true = true)
    (hwf : Mem.wf w.mem = true) (a : Nat) :
    wardByte (overwrite addr b w) a = if addr ≤ a ∧ a < addr + b.length then b.getD (a - addr) 0 else wardByte w a := by
  have same : mappedAlloc (overwrite addr b w) a = mappedAlloc w a := rfl
  have mem : (overwrite addr b w).mem = Mem.writeN w.mem addr b := rfl
  simp only [wardByte, same, mem, Mem.read_writeN hwf]
  by_cases inside : addr ≤ a ∧ a < addr + b.length
  · obtain ⟨x, hx, ok⟩ := mappedAlloc_of_mappedBy hm inside.1 inside.2
    obtain ⟨writable, -⟩ : x.ro = false ∧ allocFor slot x = true := by simpa using ok
    simp [hx, writable, inside]
  · simp only [if_neg inside]

/-! ## Images of a ward (04 R144) -/

/-- A ward with one allocation more. -/
def addAlloc (a : Alloc) (w : Ward) : Ward := { w with allocs := w.allocs ++ [a] }
/-- An object that fits in free memory is allocated. -/
theorem allocate_some {wd count : Nat} {s : State} (kind : AllocKind) (ro : Bool) (content : Bytes) (h : count ≤ freeGranules (wardOf s wd)) :
    ∃ addr a, allocate wd count kind ro content s = some (addr, { modWard wd (addAlloc a) s with nextSerial := s.nextSerial + 1 }) := by
  unfold allocate
  extract_lets w base a
  rw [if_neg (by simp [w, h])]
  exact ⟨_, a, rfl⟩

/-- A ward with an image under a handle. -/
def mapImage (h : Nat) (im : Image) (w : Ward) : Ward := { w with images := tput w.images h im }
/-- A ward without the image of a handle. -/
def unmapImage (h : Nat) (w : Ward) : Ward := { w with images := tdel w.images h }
/-- The state as an image that is loaded leaves it: allocated in its ward, and mapped under a handle. -/
def loadImage (fn h : Nat) (im : Image) (a : Alloc) (s : State) : State :=
  modWard fn (mapImage h im) { modWard fn (addAlloc a) s with nextSerial := s.nextSerial + 1 }
theorem keepsRing_loadImage (fn h : Nat) (im : Image) (a : Alloc) (s : State) : KeepsRing (.admin fn) s (loadImage fn h im a s) := ⟨rfl, rfl, id⟩
theorem wardOf_loadImage_same {fn : Nat} {s : State} (h : Nat) (im : Image) (a : Alloc) (hwd : fn < s.wards.length) :
    wardOf (loadImage fn h im a s) fn = mapImage h im (addAlloc a (wardOf s fn)) := by
  rw [loadImage, wardOf_modWard_same _ ((modWard_wards_length fn _ s).symm ▸ hwd)]
  exact congrArg _ (wardOf_modWard_same _ hwd)
theorem wardOf_loadImage_other {fn v : Nat} (h : Nat) (im : Image) (a : Alloc) (s : State) (hv : v ≠ fn) :
    wardOf (loadImage fn h im a s) v = wardOf s v :=
  (wardOf_modWard_other _ _ hv).trans (wardOf_modWard_other _ s hv)

theorem imageLoadGo_rejects {fn seq reason index : Nat} {c : Cmd} {s : State}
    (h : imageReject (hostRead s (entAddr0 c.entry) (entArg c.entry 0)) (entArg c.entry 0) = some (reason, index)) :
    imageLoadGo fn seq c s = complete (.admin fn) seq kImageRejected reason (natLe 4 index) s := by
  simp only [imageLoadGo, h]
/-- An image that passes its checks and fits is mapped, and its handle and address are the result. -/
theorem imageLoadGo_loads {fn seq : Nat} {c : Cmd} {s : State}
    (h : imageReject (hostRead s (entAddr0 c.entry) (entArg c.entry 0)) (entArg c.entry 0) = none)
    (fits : cdiv (entArg c.entry 0) (2 ^ 18) ≤ freeGranules (wardOf s fn)) :
    ∃ addr a, imageLoadGo fn seq c s = completeOk (.admin fn) seq
      (natLe 4 (freeKeyFrom (wardOf s fn).images 1) ++ natLe 4 0 ++ natLe 6 addr)
      (loadImage fn (freeKeyFrom (wardOf s fn).images 1) { base := addr, bytes := hostRead s (entAddr0 c.entry) (entArg c.entry 0) } a s) := by
  obtain ⟨addr, a, ha⟩ := allocate_some (.image (freeKeyFrom (wardOf s fn).images 1)) true
    (hostRead s (entAddr0 c.entry) (entArg c.entry 0)) fits
  refine ⟨addr, a, ?_⟩
  simp only [imageLoadGo, h, ha]
  rfl
theorem imageUnloadGo_unloads {fn seq : Nat} {c : Cmd} {s : State} {im : Image} (him : tget (wardOf s fn).images (entArg c.entry 0) = some im)
    (unused : imageInUse s fn (entArg c.entry 0) = false) :
    imageUnloadGo fn seq c s = completeOk (.admin fn) seq []
      (modWard fn (unmapImage (entArg c.entry 0)) (release fn (·.kind == .image (entArg c.entry 0)) s)) := by
  simp only [imageUnloadGo, him, unused]
  rfl
/-- A release leaves the ward's images and the allocations that fail the test. -/
theorem wardOf_release {wd : Nat} {s : State} (test : Alloc → Bool) (h : wd < s.wards.length) :
    (wardOf (release wd test s) wd).images = (wardOf s wd).images ∧
      (wardOf (release wd test s) wd).allocs = (wardOf s wd).allocs.filter (fun a => !test a) := by
  simp only [release, wardOf_modWard_same _ h, and_self]

/-! ## COPY (11 Table 11-8) -/

theorem copyGo_fromHost {slot seq : Nat} {c : Cmd} {x : Ctx} {s : State} (hdir : entArg c.entry 1 = 0)
    (hdst : ctxMapped (wardOf s x.ward) slot (entAddr1 c.entry) (entArg c.entry 0) true = true) :
    copyGo slot seq c x s = completeOk (.ctx slot) seq [] (chargeVault slot 0 (entArg c.entry 0) (chargeHost slot (entArg c.entry 0) 0
      (wardWrite x.ward (entAddr1 c.entry) (hostRead s (entAddr0 c.entry) (entArg c.entry 0)) s))) := by
  simp only [copyGo, hdir, hdst, if_true]
theorem copyGo_toHost {slot seq : Nat} {c : Cmd} {x : Ctx} {s : State} (hdir : entArg c.entry 1 = 1)
    (hsrc : ctxMapped (wardOf s x.ward) slot (entAddr0 c.entry) (entArg c.entry 0) false = true)
    (sound : poisonIn (wardOf s x.ward) (entAddr0 c.entry) (entArg c.entry 0) = none) :
    copyGo slot seq c x s = completeOk (.ctx slot) seq [] (chargeVault slot (entArg c.entry 0) 0 (chargeHost slot 0 (entArg c.entry 0)
      (hostWrite (entAddr1 c.entry) (wardRead (wardOf s x.ward) (entAddr0 c.entry) (entArg c.entry 0)) s))) := by
  simp [copyGo, hdir, hsrc, sound]
theorem copyGo_withinWard {slot seq : Nat} {c : Cmd} {x : Ctx} {s : State} (hdir : entArg c.entry 1 = 2)
    (hsrc : ctxMapped (wardOf s x.ward) slot (entAddr0 c.entry) (entArg c.entry 0) false = true)
    (hdst : ctxMapped (wardOf s x.ward) slot (entAddr1 c.entry) (entArg c.entry 0) true = true)
    (sound : poisonIn (wardOf s x.ward) (entAddr0 c.entry) (entArg c.entry 0) = none) :
    copyGo slot seq c x s = completeOk (.ctx slot) seq [] (chargeVault slot (entArg c.entry 0) (entArg c.entry 0)
      (wardWrite x.ward (entAddr1 c.entry) (wardRead (wardOf s x.ward) (entAddr0 c.entry) (entArg c.entry 0)) s)) := by
  simp [copyGo, hdir, hsrc, hdst, sound]
theorem keepsRing_chargeHost (slot i rx tx : Nat) (s : State) : KeepsRing (.ctx slot) s (chargeHost i rx tx s) := keepsRing_modAcct slot i _ s
theorem keepsRing_chargeVault (slot i rd wr : Nat) (s : State) : KeepsRing (.ctx slot) s (chargeVault i rd wr s) := keepsRing_modAcct slot i _ s
/-- A COPY of the bytes f into a ward leaves them there, its other bytes and every other ward as they were. -/
theorem completeOk_copied {r : RingRef} {wd slot addr k seq : Nat} {b : Bytes} {s m : State} (f : Nat → Byte) (len : b.length = k)
    (source : ∀ i < k, b.getD i 0 = f i) (written : m.wards = (wardWrite wd addr b s).wards) (hwd : wd < s.wards.length)
    (hm : ctxMapped (wardOf s wd) slot addr k true = true) (hwf : Mem.wf (wardOf s wd).mem = true) :
    (∀ v, v ≠ wd → wardOf (completeOk r seq [] m) v = wardOf s v) ∧
      ∀ a, wardByte (wardOf (completeOk r seq [] m) wd) a = if addr ≤ a ∧ a < addr + k then f (a - addr) else wardByte (wardOf s wd) a := by
  have same (v : Nat) : wardOf (completeOk r seq [] m) v = wardOf (modWard wd (overwrite addr b) s) v :=
    (wardOf_complete ..).trans (congrArg (fun l => l.getD v {}) (written.trans (congrArg State.wards (wardWrite_eq wd addr b s))))
  subst len
  refine ⟨fun v hv => (same v).trans (wardOf_modWard_other _ s hv), fun a => ?_⟩
  rw [same, wardOf_modWard_same _ hwd, wardByte_overwrite hm hwf]
  split
  · exact source _ (by omega)
  · rfl

theorem exec_imageLoad (fn seq : Nat) (s : State) : exec (.imageLoad fn seq) s = execImageLoad fn seq s := rfl
theorem exec_imageUnload (fn seq : Nat) (s : State) : exec (.imageUnload fn seq) s = execImageUnload fn seq s := rfl
theorem exec_copy (slot seq : Nat) (s : State) : exec (.copy slot seq) s = execCopy slot seq s := rfl

end Sys2Proof.Machine

namespace Sys2Proof.Say
open Sys2Proof.Machine

/-- Settles O34: each command is its own effect and then an answer, which leaves the wards (`complete_wards`) and, outside the completion
queue, host memory (`complete_hostMem_outside`). A write to a mapped, writable range is what every byte then shows (`wardByte_overwrite`). -/
theorem imagesAndCopies : Obligations.ImagesAndCopies := by
  unfold Obligations.ImagesAndCopies
  refine ⟨fun s fn seq c hs hfn hc => ?load, fun s fn seq c im hs hfn hc => ?unload, fun s slot seq c x hs hc hx hward => ?copy⟩
  case load =>
    have hwd : fn < s.wards.length := hs.2 ▸ hfn
    have run := (exec_imageLoad fn seq s).trans (command_next (fun c s => imageLoadGo fn seq c s) hc)
    refine ⟨fun valid fits => ?mapped, fun reason index bad => ?rejected⟩
    case mapped =>
      obtain ⟨addr, a, loads⟩ := imageLoadGo_loads (seq := seq) valid fits
      refine ⟨_, run.trans (congrArg _ loads), ⟨addr, ?image, completeOk_result_after _ hc (keepsRing_loadImage ..)⟩, fun j hj => ?images, ?mem,
        fun v hv => (wardOf_complete ..).trans (wardOf_loadImage_other _ _ _ s hv)⟩
      all_goals rw [completeOk, wardOf_complete, wardOf_loadImage_same _ _ _ hwd]
      case image => exact tget_tput_same _ _ _
      case images => exact tget_tput_other _ _ _ _ hj
      case mem => rfl
    case rejected =>
      exact ⟨_, run.trans (congrArg _ (imageLoadGo_rejects bad)), complete_answered_after _ reason _ hc (.refl _ s), complete_wards ..⟩
  case unload =>
    intro h him unused
    have hwd : fn < s.wards.length := hs.2 ▸ hfn
    obtain ⟨images, allocs⟩ := wardOf_release (s := s) (·.kind == .image h) hwd
    have own := wardOf_modWard_same (s := release fn (·.kind == .image h) s) (unmapImage h) ((modWard_wards_length fn _ s).symm ▸ hwd)
    refine ⟨_, ((exec_imageUnload fn seq s).trans (command_next _ hc)).trans (congrArg _ (imageUnloadGo_unloads him unused)),
      complete_answered_after 0 0 [] hc ((keepsRing_modWard ..).trans (keepsRing_modWard ..)), ?_, fun a ha => ?_, fun v hv => ?_⟩
    · rw [completeOk, wardOf_complete, own]
      exact congrArg (tdel · h) images
    · rw [completeOk, wardOf_complete, own] at ha
      have stays := (List.mem_filter.mp (Eq.mp (congrArg (a ∈ ·) allocs) ha)).2
      exact fun e => by simp [e] at stays
    · rw [completeOk, wardOf_complete, wardOf_modWard_other _ _ hv]
      exact wardOf_modWard_other _ s hv
  case copy =>
    intro k src dst w
    have hwd : x.ward < s.wards.length := hs.2 ▸ hward
    have run := (exec_copy slot seq s).trans (ctxCommand_next _ hc hx)
    refine ⟨fun hdir _ hdst hwf => ?fromHost, fun hdir hsrc sound hwf => ?toHost, fun hdir _ hsrc hdst sound hwf => ?withinWard⟩
    case fromHost =>
      exact ⟨_, run.trans (congrArg _ (copyGo_fromHost hdir hdst)), complete_answered_after 0 0 [] hc (((keepsRing_modWard ..).trans
        (keepsRing_chargeHost ..)).trans (keepsRing_chargeVault ..)), completeOk_copied (fun i => Mem.read s.hostMem (src + i))
          (Mem.readN_length ..) (fun i hi => hostRead_getD s src hi) rfl hwd hdst hwf⟩
    case toHost =>
      have kept : KeepsRing (.ctx slot) s (chargeVault slot k 0 (chargeHost slot 0 k (hostWrite dst (wardRead w src k) s))) :=
        ((keepsRing_hostWrite ..).trans (keepsRing_chargeHost ..)).trans (keepsRing_chargeVault ..)
      refine ⟨_, run.trans (congrArg _ (copyGo_toHost hdir hsrc sound)), complete_answered_after 0 0 [] hc kept, complete_wards ..,
        fun a hlost ha => ?_⟩
      obtain ⟨hcmd, running, steady⟩ := readyCmd_some hc
      have hring : ringOf s (.ctx slot) = some x.ring := congrArg (Option.map _) hx
      refine (complete_hostMem_outside 0 0 [] ((cmdOf_of_keepsRing kept seq).trans hcmd) (kept.fw ▸ running) (kept.fw ▸ steady)
        (kept.ring.trans hring) hlost ha).trans ((Mem.read_writeN hwf dst (wardRead w src k) a).trans ?_)
      rw [wardRead_length]
      split
      · exact wardRead_getD w k src (by omega)
      · rfl
    case withinWard =>
      exact ⟨_, run.trans (congrArg _ (copyGo_withinWard hdir hsrc hdst sound)), complete_answered_after 0 0 [] hc
        ((keepsRing_modWard ..).trans (keepsRing_chargeVault ..)), completeOk_copied (fun i => wardByte w (src + i))
          (wardRead_length ..) (fun i hi => wardRead_getD w k src hi) rfl hwd hdst hwf⟩

end Sys2Proof.Say
end

section
/-!
PROOFS. One instruction of a thread (05 R184–R192): the state that an issue leaves, what keeps the frame of an issue, and registers,
guards and lanes as the statements read them.
-/
namespace Sys2Proof.Say
open Sys2Proof.Machine

/-! ## Registers (05 R190) -/

theorem getD_regSet {α : Type} (d : α) (l : List α) (i j : Nat) (x : α) : (regSet d l i x).getD j d = if j = i then x else l.getD j d := by
  simp only [regSet, List.getD_eq_getElem?_getD]
  split
  · next h => rw [List.getElem?_set]; by_cases hj : j = i <;> simp_all [eq_comm]
  · next h =>
    rcases Nat.lt_trichotomy j i with hj | rfl | hj
    · rw [if_neg (by omega), List.getElem?_append_left (by simp; omega)]
      rcases Nat.lt_or_ge j l.length with hl | hl
      · rw [List.getElem?_append_left hl]
      · rw [List.getElem?_append_right hl, List.getElem?_replicate, if_pos (by omega), List.getElem?_eq_none hl]; rfl
    · rw [if_pos rfl, List.getElem?_append_right (by simp; omega)]; simp [show j - (l.length + (j - l.length)) = 0 by omega]
    · rw [if_neg (by omega), List.getElem?_eq_none (by simp; omega), List.getElem?_eq_none (by omega)]

theorem rdS_eq (th : Thread) (i : Nat) : rdS th i = (scalarIn th.s i).toNat := by unfold rdS scalarIn; split <;> rfl
theorem rdP_eq (th : Thread) (i : Nat) : rdP th i = (predIn th.p i).toNat := by unfold rdP predIn; split <;> rfl

theorem wrS_eq (i n : Nat) (th : Thread) : wrS i n th = { th with s := (wrS i n th).s } := by unfold wrS; split <;> rfl
theorem wrP_eq (i n : Nat) (th : Thread) : wrP i n th = { th with p := (wrP i n th).p } := by unfold wrP; split <;> rfl
theorem scalarIn_wrS (i n : Nat) (th : Thread) (j : Nat) :
    scalarIn (wrS i n th).s j = if j ≠ 0 ∧ j = i then BitVec.ofNat 64 n else scalarIn th.s j := by
  unfold wrS scalarIn
  by_cases hj : j = 0
  · simp [hj]
  · by_cases hi : i = 0
    · simp [hi, hj]
    · simp only [hi, hj, if_false, getD_regSet, ne_eq, not_false_eq_true, true_and]
theorem predIn_wrP (i n : Nat) (th : Thread) (j : Nat) :
    predIn (wrP i n th).p j = if j ≠ 0 ∧ j = i then BitVec.ofNat 64 n else predIn th.p j := by
  unfold wrP predIn
  by_cases hj : j = 0
  · simp [hj]
  · by_cases hi : i = 0
    · simp [hi, hj]
    · simp only [hi, hj, if_false, getD_regSet, ne_eq, not_false_eq_true, true_and]
theorem getD_wrV (i n : Nat) (th : Thread) (j : Nat) : (wrV i n th).v.getD j 0 = if j = i then BitVec.ofNat 1024 n else th.v.getD j 0 :=
  getD_regSet 0 th.v i j _

/-! ## The guard (05 R192) -/

theorem testBit_guardOf (th : Thread) (f : KFields) {i : Nat} (h : i < 64) : (guardOf th f).testBit i = guardBit th f i := by
  simp only [guardOf, guardBit, rdP_eq]
  cases f.pneg
  · simp [BitVec.testBit_toNat]
  · rw [if_pos rfl, Nat.testBit_xor, Nat.testBit_two_pow_sub_one, decide_eq_true h, BitVec.testBit_toNat, Bool.true_xor, Bool.bne_true]
theorem guard0_eq (th : Thread) (f : KFields) : guard0 th f = guardBit th f 0 := testBit_guardOf th f (by decide)

/-! ## The frame of an issue -/

section
variable {t : ThreadRef} {k : Task} {s m n : State} {r : Table VReq} {c : Table Copy} {x : List (Nat × Bytes)}

theorem coreOf_congr (h : n.cores = m.cores) (i : Nat) : coreOf n i = coreOf m i := congrArg (fun l => tgetD l i ({} : Core)) h
theorem threadOf_congr (h : n.cores = m.cores) (u : ThreadRef) : threadOf n u = threadOf m u :=
  congrArg (fun c : Core => tget c.threads u.slot) (coreOf_congr h u.core)

/-- The frame speaks of cores and contexts alone. -/
theorem CoreFrame.congr (h : CoreFrame t k s m r c x) (hc : n.cores = m.cores) (hx : n.ctxs = m.ctxs) : CoreFrame t k s n r c x := by
  have core := coreOf_congr hc
  have thread := threadOf_congr hc
  have ctx : ∀ i, ctxOf n i = ctxOf m i := fun i => congrArg (tget · i) hx
  exact ⟨fun i hi => (core i).trans (h.otherCores i hi), fun j hj => (thread _).trans (h.otherThreads j hj),
    by rw [core]; exact h.core, fun i hi => (ctx i).trans (h.otherCtxs i hi), by rw [ctx]; exact h.ctx⟩
/-- A change of the issuing thread and of its core's requests, copies and texture-cache lines. -/
theorem CoreFrame.modCore (h : CoreFrame t k s m r c x) {g : Core → Core} {ths : Table Thread} {r' : Table VReq} {c' : Table Copy}
    {x' : List (Nat × Bytes)} (hg : g (coreOf m t.core) = { coreOf m t.core with threads := ths, vreqs := r', copies := c', tex := x' })
    (hths : ∀ j, j ≠ t.slot → tget ths j = tget (coreOf m t.core).threads j) : CoreFrame t k s (Machine.modCore t.core g m) r' c' x' where
  otherCores i hi := by rw [coreOf_modCore, if_neg hi]; exact h.otherCores i hi
  otherThreads j hj := by
    refine .trans ?_ (h.otherThreads j hj)
    simp only [threadOf, coreOf_modCore_same, hg]
    exact hths j hj
  core := by
    rw [coreOf_modCore_same, hg]
    exact congrArg (fun y : Core => { y with threads := ths, vreqs := r', copies := c', tex := x' }) h.core
  otherCtxs := h.otherCtxs
  ctx := h.ctx
theorem CoreFrame.modThread (h : CoreFrame t k s m r c x) (g : Thread → Thread) : CoreFrame t k s (Machine.modThread t g m) r c x :=
  h.modCore (by rw [h.core]) (fun j hj => tget_tmod_other _ _ _ _ hj)
theorem CoreFrame.modAcct (h : CoreFrame t k s m r c x) (g : Account → Account) : CoreFrame t k s (Machine.modAcct k.slot g m) r c x where
  otherCores := h.otherCores
  otherThreads := h.otherThreads
  core := h.core
  otherCtxs i hi := by simp only [Machine.modAcct, ctxOf_modCtx, if_neg hi]; exact h.otherCtxs i hi
  ctx := by
    refine .trans ?_ h.ctx
    simp only [Machine.modAcct, ctxOf_modCtx, if_pos, Option.map_map]
    rfl

end

/-- A core after an issue of its thread: what its engines do then is as given. -/
def issuedCore (t : ThreadRef) (busy : List Nat) (te se : List (Nat × Bool)) (c : Core) : Core :=
  { c with threads := tmod c.threads t.slot (issuedThread (c.issues + 1)), issues := c.issues + 1, busy := busy, teQ := te, seQ := se }

/-- A state in which nothing has happened but an issue of a thread, which is now `u`. -/
structure IssuedTo (t : ThreadRef) (k : Task) (s : State) (u : Thread) (m : State) : Prop where
  frame : IssueFrame t k s m
  thread : threadOf m t = some u

section
variable {op : Nat} {t : ThreadRef} {f : KFields} {s m : State} {th u : Thread} {k : Task}

theorem MayIssue.issued (h : MayIssue op t f s th k) (e : Engine) (n : Nat) :
    IssuedTo t k s (stepped s t th) (Machine.issued op t f e n th k s) := by
  obtain ⟨p, b, te, se, a, eq⟩ := issued_eq op t f e n th k s
  have ctxs : ∀ i, ctxOf (Machine.issued op t f e n th k s) i =
      if i = k.slot then (ctxOf s k.slot).map (fun c => { c with acct := a c.acct }) else ctxOf s i :=
    fun i => by rw [eq]; exact ctxOf_modCtx k.slot _ s i
  have core : ∀ i, coreOf (Machine.issued op t f e n th k s) i = if i = t.core then issuedCore t b te se (coreOf s t.core) else coreOf s i :=
    fun i => by rw [eq]; exact coreOf_modCore t.core (issuedCore t b te se) s i
  refine ⟨⟨by rw [eq]; rfl, ⟨fun i hi => by rw [core, if_neg hi], fun j hj => ?_, by rw [core, if_pos rfl]; rfl, fun i hi => by rw [ctxs, if_neg hi], ?_⟩⟩, ?_⟩
  · simp only [threadOf, core, if_pos, issuedCore, tget_tmod_other _ _ _ _ hj]
  · rw [ctxs, if_pos rfl, Option.map_map]
    rfl
  · simp only [threadOf, core, if_pos, issuedCore, tget_tmod_same]
    rw [show tget (coreOf s t.core).threads t.slot = some th from h.thread]
    rfl

theorem IssuedTo.modThread (h : IssuedTo t k s u m) (g : Thread → Thread) : IssuedTo t k s (g u) (Machine.modThread t g m) where
  frame := ⟨by rw [h.frame.1]; rfl, h.frame.2.modThread g⟩
  thread := by rw [threadOf_modThread, if_pos rfl, h.thread]; rfl

/-- An instruction that may issue gives what its effect makes of the issued state. -/
theorem MayIssue.gives (h : MayIssue op t f s th k) {i : Instr} {e : Engine} {n : Nat} {go : Thread → Task → State → State}
    {P : State → Prop} (hi : exec i s = issue op t f e n s go) (hP : P (go th (withStore s k) (Machine.issued op t f e n th k s))) :
    Gives i s P := ⟨_, hi.trans (issue_next e n go h.ok h.thread h.task), hP⟩

/-- The same for the effect of an instruction whose guard bit 0 is 1. -/
theorem MayIssue.gives_on (h : MayIssue op t f s th k) (hg : guardBit th f 0 = true) {i : Instr} {e : Engine} {n : Nat}
    {body : Thread → Task → State → State} {P : State → Prop}
    (hi : exec i s = issue op t f e n s (fun th k m => if !guard0 th f then m else body th k m))
    (hP : P (body th (withStore s k) (Machine.issued op t f e n th k s))) : Gives i s P :=
  h.gives hi (by rw [guard0_eq, hg]; exact hP)

theorem MayIssue.can (h : MayIssue op t f s th k) : canIssue op t f s = true := (Bool.and_eq_true _ _ ▸ h.ok).1
theorem MayIssue.conditions (h : MayIssue op t f s th k) :
    th.park = .running ∧ (slotOf s k.slot).state = .live ∧ wordOkFor op f k.vregs = true ∧ opUse op f.mod.toNat ≠ none := by
  have can := h.can
  simp only [canIssue, h.thread, h.task, Bool.and_eq_true, decide_eq_true_eq] at can
  obtain ⟨⟨⟨⟨⟨⟨⟨⟨⟨park, -⟩, live⟩, -⟩, -⟩, word⟩, use⟩, -⟩, -⟩, -⟩ := can
  exact ⟨park, live, word, fun e => by simp [e] at use⟩

end

/-! ## The meaning of each instruction -/

theorem exec_nop (t : ThreadRef) (f : KFields) (s : State) : exec (.nop t f) s = execNop t f s := rfl
theorem exec_br (t : ThreadRef) (f : KFields) (s : State) : exec (.br t f) s = execBr t f s := rfl
theorem exec_ldc (t : ThreadRef) (f : KFields) (s : State) : exec (.ldc t f) s = execLdc t f s := rfl
theorem exec_stc (t : ThreadRef) (f : KFields) (s : State) : exec (.stc t f) s = execStc t f s := rfl
theorem exec_ldcx (t : ThreadRef) (f : KFields) (s : State) : exec (.ldcx t f) s = execLdcx t f s := rfl
theorem exec_ldw (t : ThreadRef) (f : KFields) (s : State) : exec (.ldw t f) s = execLdw t f s := rfl
theorem exec_stw (t : ThreadRef) (f : KFields) (s : State) : exec (.stw t f) s = execStw t f s := rfl
theorem exec_atom (t : ThreadRef) (f : KFields) (s : State) : exec (.atom t f) s = execAtom t f s := rfl
theorem exec_mcopy (t : ThreadRef) (f : KFields) (s : State) : exec (.mcopy t f) s = execMcopy t f s := rfl
theorem exec_waitc (t : ThreadRef) (f : KFields) (s : State) : exec (.waitc t f) s = execWaitc t f s := rfl
theorem exec_fenceScope (t : ThreadRef) (f : KFields) (s : State) : exec (.fenceScope t f) s = execFenceScope t f s := rfl
theorem exec_lset (t : ThreadRef) (f : KFields) (s : State) : exec (.lset t f) s = execLset t f s := rfl
theorem exec_lclr (t : ThreadRef) (f : KFields) (s : State) : exec (.lclr t f) s = execLclr t f s := rfl
theorem exec_lwait (t : ThreadRef) (f : KFields) (s : State) : exec (.lwait t f) s = execLwait t f s := rfl
theorem exec_ltest (t : ThreadRef) (f : KFields) (s : State) : exec (.ltest t f) s = execLtest t f s := rfl
theorem exec_hacq (t : ThreadRef) (f : KFields) (s : State) : exec (.hacq t f) s = execHacq t f s := rfl
theorem exec_hrel (t : ThreadRef) (f : KFields) (s : State) : exec (.hrel t f) s = execHrel t f s := rfl
theorem exec_htry (t : ThreadRef) (f : KFields) (s : State) : exec (.htry t f) s = execHtry t f s := rfl
theorem exec_pxlock (t : ThreadRef) (f : KFields) (s : State) : exec (.pxlock t f) s = execPxlock t f s := rfl
theorem exec_pxunlock (t : ThreadRef) (f : KFields) (s : State) : exec (.pxunlock t f) s = execPxunlock t f s := rfl
theorem exec_tzero (t : ThreadRef) (f : KFields) (s : State) : exec (.tzero t f) s = execTzero t f s := rfl
theorem exec_trd (t : ThreadRef) (f : KFields) (s : State) : exec (.trd t f) s = execTrd t f s := rfl
theorem exec_pcrd (t : ThreadRef) (f : KFields) (s : State) : exec (.pcrd t f) s = execPcrd t f s := rfl
theorem exec_vcmp (t : ThreadRef) (f : KFields) (s : State) : exec (.vcmp t f) s = execVcmp t f s := rfl
theorem exec_vsum (t : ThreadRef) (f : KFields) (s : State) : exec (.vsum t f) s = execVsum t f s := rfl
theorem exec_vbsc (t : ThreadRef) (f : KFields) (s : State) : exec (.vbsc t f) s = execVbsc t f s := rfl
theorem exec_vpack (t : ThreadRef) (f : KFields) (s : State) : exec (.vpack t f) s = execVpack t f s := rfl
theorem exec_smp (t : ThreadRef) (f : KFields) (s : State) : exec (.smp t f) s = execSmp t f s := rfl
theorem exec_endThread (t : ThreadRef) (f : KFields) (s : State) : exec (.endThread t f) s = execEndThread t f s := rfl
theorem exec_vaultReply (core req : Nat) (bad : Bool) (s : State) : exec (.vaultReply core req bad) s = execVaultReply core req bad s := rfl
theorem exec_mcopyComplete (core copy : Nat) (s : State) : exec (.mcopyComplete core copy) s = execMcopyComplete core copy s := rfl

/-! ## One register of an issued state -/

section
variable {t : ThreadRef} {k : Task} {s m : State} {th : Thread}

theorem IssuedTo.wrS (h : IssuedTo t k s (stepped s t th) m) (d : Nat) {v : Nat} {val : U64} (hv : BitVec.ofNat 64 v = val) :
    IssueFrame t k s (Machine.modThread t (Machine.wrS d v) m) ∧ ∃ r, threadOf (Machine.modThread t (Machine.wrS d v) m) t = some { stepped s t th with s := r } ∧
      ∀ i, scalarIn r i = if i ≠ 0 ∧ i = d then val else scalarIn th.s i :=
  have wrote := h.modThread (Machine.wrS d v)
  ⟨wrote.frame, _, wrote.thread.trans (congrArg some (wrS_eq _ _ _)), fun i => by rw [scalarIn_wrS, hv]; rfl⟩
theorem IssuedTo.wrP (h : IssuedTo t k s (stepped s t th) m) (d : Nat) {v : Nat} {val : U64} (hv : BitVec.ofNat 64 v = val) :
    IssueFrame t k s (Machine.modThread t (Machine.wrP d v) m) ∧ ∃ r, threadOf (Machine.modThread t (Machine.wrP d v) m) t = some { stepped s t th with p := r } ∧
      ∀ i, predIn r i = if i ≠ 0 ∧ i = d then val else predIn th.p i :=
  have wrote := h.modThread (Machine.wrP d v)
  ⟨wrote.frame, _, wrote.thread.trans (congrArg some (wrP_eq _ _ _)), fun i => by rw [predIn_wrP, hv]; rfl⟩

end

/-! ## The task as it sees its core store -/

theorem withStore_eq (s : State) (k : Task) : withStore s k = { k with store := (withStore s k).store, size := (withStore s k).size } := by
  unfold withStore; split <;> rfl
@[simp] theorem withStore_slot (s : State) (k : Task) : (withStore s k).slot = k.slot := by rw [withStore_eq]
@[simp] theorem withStore_kind (s : State) (k : Task) : (withStore s k).kind = k.kind := by rw [withStore_eq]

end Sys2Proof.Say
end

section
/-!
PROOFS. Scalar, predicate and branch instructions (05 Table 5-4): each writes one register of an issued state, with a value that is the
machine's own arithmetic on naturals read as bit vectors.
-/
namespace Sys2Proof.Say
open Sys2Proof.Machine

/-! ## Natural arithmetic as bit vectors -/

theorem sext_eq {w : Nat} (h : 0 < w) (n : Nat) : sext w n = (BitVec.ofNat w n).toInt := by
  obtain ⟨v, rfl⟩ := Nat.exists_eq_succ_of_ne_zero h.ne'
  rw [sext, BitVec.toInt_eq_toNat_cond, BitVec.toNat_ofNat, Nat.succ_sub_one, Nat.succ_eq_add_one]
  have : 2 * (n % 2 ^ (v + 1)) < 2 ^ (v + 1) ↔ n % 2 ^ (v + 1) < 2 ^ v := by rw [Nat.pow_succ]; omega
  simp only [this]
theorem sext_toNat {w : Nat} (h : 0 < w) (x : BitVec w) : sext w x.toNat = x.toInt := by rw [sext_eq h, BitVec.ofNat_toNat, BitVec.setWidth_eq]
theorem trunc_eq (w : Nat) (x : Int) : trunc w x = (BitVec.ofInt w x).toNat := (BitVec.toNat_ofInt x).symm
theorem ofNat_trunc (w : Nat) (x : Int) : BitVec.ofNat w (trunc w x) = BitVec.ofInt w x := by
  rw [trunc_eq, BitVec.ofNat_toNat, BitVec.setWidth_eq]
theorem ofInt_sext {w v : Nat} (h : 0 < w) (n : Nat) : BitVec.ofInt v (sext w n) = (BitVec.ofNat w n).signExtend v := by
  rw [sext_eq h, BitVec.signExtend]
theorem immS_eq (f : KFields) : immS f = f.imm.toInt := sext_toNat (by decide) f.imm
theorem ofInt_immS (f : KFields) : BitVec.ofInt 64 (immS f) = immX f := by rw [immS_eq, immX, BitVec.signExtend]
/-- MOD 1 gives 32 bits sign-extended. -/
theorem ofNat_out32 (f : KFields) (n : Nat) : BitVec.ofNat 64 (out32 f n) = byMod f (BitVec.ofNat 32 n) (BitVec.ofNat 64 n) := by
  unfold out32 byMod
  split
  · rw [sx32, ofNat_trunc, ofInt_sext (by decide), sx]
  · exact BitVec.eq_of_toNat_eq (by simp)

theorem ra_eq (th : Thread) (f : KFields) : ra th f = (sA th f).toNat := rdS_eq th _
theorem rb_eq (th : Thread) (f : KFields) : rb th f = (sB th f).toNat := rdS_eq th _
@[simp] theorem ofNat_64_toNat (x : U64) : BitVec.ofNat 64 x.toNat = x := by simp
@[simp] theorem ofNat_32_toNat (x : U64) : BitVec.ofNat 32 x.toNat = lo x := BitVec.ofNat_toNat 32 x

/-! ## Instructions that write one register -/

section
variable {op : Nat} {c : ThreadRef → KFields → Instr}

theorem scalarTo_of {v : State → KFields → Thread → Nat} {val : State → KFields → Thread → U64}
    (hc : ∀ t f s, exec (c t f) s = issueS op t f s (v s f))
    (hv : ∀ s f th, opUse op f.mod.toNat ≠ none → BitVec.ofNat 64 (v s f th) = val s f th) : ScalarTo op c val := by
  intro t f s th k h hg
  refine h.gives (hc t f s) ?_
  rw [guard0_eq, if_pos hg]
  exact (h.issued .none 0).wrS f.dst.toNat (hv s f th h.conditions.2.2.2)
theorem predTo_of {v : KFields → Thread → Nat} {val : KFields → Thread → U64}
    (hc : ∀ t f s, exec (c t f) s = issueP op t f s (v f)) (hv : ∀ f th, BitVec.ofNat 64 (v f th) = val f th) : PredTo op c val := by
  intro t f s th k h hg
  refine h.gives (hc t f s) ?_
  rw [guard0_eq, if_pos hg]
  exact (h.issued .none 0).wrP f.dst.toNat (hv f th)
end

/-! ## The values of 05 Table 5-4 -/

theorem low32_out32_shl (f : KFields) (x : U64) (n : Nat) :
    BitVec.ofNat 64 (out32 f (low32 f x.toNat * 2 ^ n)) = byMod f (lo x <<< n) (x <<< n) := by
  rw [ofNat_out32]
  by_cases hm : f.mod = 1
  · simp only [byMod, low32, hm, if_true]
    exact congrArg sx (BitVec.eq_of_toNat_eq (by simp [lo, Nat.shiftLeft_eq]))
  · simp only [byMod, low32, hm, if_false]
    exact BitVec.eq_of_toNat_eq (by simp [Nat.shiftLeft_eq])
theorem low32_out32_shr (f : KFields) (x : U64) (n : Nat) :
    BitVec.ofNat 64 (out32 f (low32 f x.toNat / 2 ^ n)) = byMod f (lo x >>> n) (x >>> n) := by
  rw [ofNat_out32]
  by_cases hm : f.mod = 1
  · simp only [byMod, low32, hm, if_true]
    refine congrArg sx (BitVec.eq_of_toNat_eq ?_)
    simp only [lo, BitVec.toNat_ofNat, BitVec.toNat_ushiftRight, BitVec.toNat_setWidth, Nat.shiftRight_eq_div_pow]
    exact Nat.mod_eq_of_lt ((Nat.div_le_self _ _).trans_lt (Nat.mod_lt _ (by decide)))
  · simp only [byMod, low32, hm, if_false]
    refine BitVec.eq_of_toNat_eq ?_
    simp only [BitVec.toNat_ofNat, BitVec.toNat_ushiftRight, Nat.shiftRight_eq_div_pow]
    exact Nat.mod_eq_of_lt ((Nat.div_le_self _ _).trans_lt x.isLt)
/-- An arithmetic right shift of the low `w` bits, sign-extended. -/
theorem ofNat_sra {w : Nat} (h : 0 < w) (x : U64) (n : Nat) :
    BitVec.ofNat 64 (trunc 64 (sext w x.toNat / (2 ^ n : Nat))) = ((x.setWidth w).sshiftRight n).signExtend 64 := by
  rw [ofNat_trunc, sext_eq h, BitVec.ofNat_toNat, BitVec.signExtend, BitVec.toInt_sshiftRight, Int.shiftRight_eq_div_pow]
theorem toNat_wideImm (f : KFields) : (wideImm f).toNat = imm36 f := by
  have hc := f.c.isLt
  have hi := f.imm.isLt
  rw [wideImm, BitVec.toNat_append, BitVec.toNat_append, ← Nat.shiftLeft_add_eq_or_of_lt hc, ← Nat.shiftLeft_add_eq_or_of_lt hi,
    Nat.shiftLeft_eq, Nat.shiftLeft_eq, imm36]
theorem ofNat_movh (f : KFields) (x : U64) : BitVec.ofNat 64 (imm32 f * 2 ^ 32 + x.toNat % 2 ^ 32) = (wideImm f).setWidth 32 ++ lo x := by
  refine BitVec.eq_of_toNat_eq ?_
  have hx : x.toNat % 2 ^ 32 < 2 ^ 32 := Nat.mod_lt _ (by decide)
  have hi : imm32 f < 2 ^ 32 := Nat.mod_lt _ (by decide)
  rw [BitVec.toNat_append, BitVec.toNat_setWidth, toNat_wideImm, lo, BitVec.toNat_setWidth, ← Nat.shiftLeft_add_eq_or_of_lt hx, Nat.shiftLeft_eq,
    BitVec.toNat_ofNat, ← imm32, Nat.mod_eq_of_lt (by omega)]
theorem sle_eq (x y : U64) : x.sle y = decide (sext 64 x.toNat ≤ sext 64 y.toNat) := by
  rw [sext_toNat (by decide), sext_toNat (by decide), BitVec.sle_eq_decide]

theorem scalarResults_holds : scalarResults := by
  refine ⟨scalarTo_of (fun _ _ _ => rfl) fun s f th _ => ?add, scalarTo_of (fun _ _ _ => rfl) fun s f th _ => ?sub,
    scalarTo_of (fun _ _ _ => rfl) fun s f th _ => ?mul, scalarTo_of (fun _ _ _ => rfl) fun s f th _ => ?andS,
    scalarTo_of (fun _ _ _ => rfl) fun s f th _ => ?orS, scalarTo_of (fun _ _ _ => rfl) fun s f th _ => ?xorS,
    scalarTo_of (fun _ _ _ => rfl) fun s f th _ => ?shl, scalarTo_of (fun _ _ _ => rfl) fun s f th _ => ?shr,
    scalarTo_of (fun _ _ _ => rfl) fun s f th _ => ?sra, scalarTo_of (fun _ _ _ => rfl) fun s f th _ => ?minS,
    scalarTo_of (fun _ _ _ => rfl) fun s f th _ => ?maxS, scalarTo_of (fun _ _ _ => rfl) fun s f th _ => ?addi,
    scalarTo_of (fun _ _ _ => rfl) fun s f th _ => ?movi, scalarTo_of (fun _ _ _ => rfl) fun s f th _ => ?movh,
    scalarTo_of (fun _ _ _ => rfl) fun s f th _ => ?sel, scalarTo_of (fun _ _ _ => rfl) fun s f th _ => ?rdtb⟩
  case add => rw [ofNat_out32, BitVec.ofNat_add, BitVec.ofNat_add, ra_eq, rb_eq]; simp only [ofNat_64_toNat, ofNat_32_toNat]
  case sub =>
    rw [ofNat_out32, ra_eq, rb_eq]
    exact congrArg₂ (byMod f) (by simp [lo]; bv_omega) (by bv_omega)
  case mul => rw [ra_eq, rb_eq]; exact BitVec.eq_of_toNat_eq (by simp)
  case andS => rw [ra_eq, rb_eq]; exact BitVec.eq_of_toNat_eq (by simp)
  case orS => rw [ra_eq, rb_eq]; exact BitVec.eq_of_toNat_eq (by simp)
  case xorS => rw [ra_eq, rb_eq]; exact BitVec.eq_of_toNat_eq (by simp)
  case shl => rw [ra_eq, rb_eq]; exact low32_out32_shl f _ _
  case shr => rw [ra_eq, rb_eq]; exact low32_out32_shr f _ _
  case sra =>
    rw [ra_eq, rb_eq]
    by_cases hm : f.mod = 1 <;> simp only [byMod, hm, if_true, if_false, ofNat_sra (w := 32) (by decide), ofNat_sra (w := 64) (by decide)]
    · rfl
    · simp [count64]
  case minS => 
    simp only [ra_eq, rb_eq, sle_eq, BitVec.ule_eq_decide, apply_ite (BitVec.ofNat 64), ofNat_64_toNat]
    split <;> simp
  case maxS => 
    simp only [ra_eq, rb_eq, sle_eq, BitVec.ule_eq_decide, apply_ite (BitVec.ofNat 64), ofNat_64_toNat]
    split <;> simp
  case addi => rw [ra_eq, ofNat_trunc, BitVec.ofInt_add, ofInt_immS, BitVec.ofInt_natCast, ofNat_64_toNat]
  case movi => rw [ofNat_trunc, ← toNat_wideImm, ofInt_sext (by decide), BitVec.ofNat_toNat, BitVec.setWidth_eq]
  case movh => rw [rdS_eq]; exact ofNat_movh f _
  case sel => rw [rdP_eq, ra_eq, rb_eq, BitVec.testBit_toNat, apply_ite (BitVec.ofNat 64), ofNat_64_toNat, ofNat_64_toNat]; rfl
  case rdtb => exact BitVec.eq_of_toNat_eq (by simp [tb])

/-- DIV on w bits, as its corners have it. -/
theorem ofNat_divOp {w : Nat} (h : 0 < w) (signed remainder : Bool) (x y : Nat) :
    BitVec.ofNat w (divOp w signed remainder x y) = if BitVec.ofNat w y = 0 then (if remainder then BitVec.ofNat w x else BitVec.allOnes w)
      else if signed then (if remainder then (BitVec.ofNat w x).srem (BitVec.ofNat w y) else (BitVec.ofNat w x).sdiv (BitVec.ofNat w y))
      else if remainder then BitVec.ofNat w x % BitVec.ofNat w y else BitVec.ofNat w x / BitVec.ofNat w y := by
  have zero : BitVec.ofNat w y = 0 ↔ y % 2 ^ w = 0 := by simp [BitVec.toNat_eq]
  simp only [divOp, zero, sext_eq h]
  split
  · cases remainder <;> exact BitVec.eq_of_toNat_eq (by simp)
  · cases signed <;> cases remainder <;> simp only [if_true, if_false, Bool.false_eq_true, ofNat_trunc]
    · exact BitVec.eq_of_toNat_eq (by simp [BitVec.toNat_udiv]; exact Nat.mod_eq_of_lt ((Nat.div_le_self _ _).trans_lt (Nat.mod_lt _ (Nat.two_pow_pos w))))
    · exact BitVec.eq_of_toNat_eq (by simp [BitVec.toNat_umod]; exact Nat.mod_eq_of_lt ((Nat.mod_le _ _).trans_lt (Nat.mod_lt _ (Nat.two_pow_pos w))))
    · exact BitVec.eq_of_toInt_eq (by rw [BitVec.toInt_ofInt, BitVec.toInt_sdiv])
    · exact BitVec.eq_of_toInt_eq (by rw [BitVec.toInt_ofInt, ← BitVec.toInt_srem, BitVec.toInt_bmod_cancel])
theorem mod_of_opUse_div {f : KFields} (h : opUse 0x13 f.mod.toNat ≠ none) : f.mod = 0 ∨ f.mod = 1 ∨ f.mod = 2 ∨ f.mod = 3 := by
  have le : f.mod.toNat ≤ 3 := by
    by_contra hm
    exact h (by simp [opUse, hm])
  bv_omega
theorem division_holds : division := by
  refine scalarTo_of (fun _ _ _ => rfl) fun s f th use => ?_
  simp only [ra_eq, rb_eq, ofNat_out32, byMod]
  rcases mod_of_opUse_div use with hm | hm | hm | hm <;>
    simp [hm, ofNat_divOp, lo, Nat.testBit]
  rfl

theorem counterReads_holds : counterReads := fun t f s th k h hg => by
  refine h.gives_on hg (exec_pcrd t f s) ((h.issued .none 0).wrS f.dst.toNat ?_)
  rw [withStore_slot, apply_ite (BitVec.ofNat 64)]
  rfl

/-! ## Predicates -/

theorem ofNat_ones64 (b : Bool) : BitVec.ofNat 64 (ones64 b) = allOnesIf b := by cases b <;> rfl
theorem slt_eq (x y : U64) : x.slt y = decide (sext 64 x.toNat < sext 64 y.toNat) := by
  rw [sext_toNat (by decide), sext_toNat (by decide), BitVec.slt_eq_decide]
theorem cmpCond_eq (f : KFields) (x y : U64) : cmpCond f.mod.toNat x.toNat y.toNat = cond f x y := by
  have mod : ∀ i : Nat, i < 16 → (f.mod.toNat = i ↔ f.mod = BitVec.ofNat 4 i) := fun i hi => by
    rw [BitVec.toNat_eq, BitVec.toNat_ofNat, Nat.mod_eq_of_lt (by omega)]
  simp only [cmpCond, cond, slt_eq, sle_eq, BitVec.ult_eq_decide, BitVec.ule_eq_decide, mod 0 (by decide), mod 1 (by decide), mod 2 (by decide),
    mod 3 (by decide), mod 4 (by decide), lo]
  have eq : (x.toNat == y.toNat) = (x == y) := by simp [BitVec.toNat_eq, Bool.beq_eq_decide_eq]
  have ne : (x.toNat % 2 ^ 32 != y.toNat % 2 ^ 32) = (x.setWidth 32 != y.setWidth 32) := by simp [BitVec.toNat_eq, bne, Bool.beq_eq_decide_eq]
  rw [eq, ne]
  rfl
theorem predicateResults_holds : Obligations.PredicateResults := by
  refine ⟨predTo_of (fun _ _ _ => rfl) fun f th => ?cmp, predTo_of (fun _ _ _ => rfl) fun f th => ?cmpi, predTo_of (fun _ _ _ => rfl) fun f th => ?plog⟩
  case cmp => rw [ofNat_ones64, ra_eq, rb_eq, cmpCond_eq]
  case cmpi => rw [ofNat_ones64, ra_eq, trunc_eq, ofInt_immS, cmpCond_eq]
  case plog =>
    have andNot (x y : U64) : x.toNat &&& (2 ^ 64 - 1 ^^^ y.toNat) = (x &&& ~~~ y).toNat := by
      rw [show 2 ^ 64 - 1 = (BitVec.allOnes 64).toNat from rfl, ← BitVec.toNat_xor, ← BitVec.toNat_and, BitVec.allOnes_xor]
    simp only [rdP_eq, apply_ite (BitVec.ofNat 64), andNot, ← BitVec.toNat_and, ← BitVec.toNat_or, ← BitVec.toNat_xor, ofNat_64_toNat]
    rfl

/-! ## Branches -/

/-- Guard bits [31:0] are bits 0 to 31 of a number below 2^32: none is 1 when it is zero, and all are when it is 2^32 − 1. -/
theorem guardOf_ne_zero (th : Thread) (f : KFields) : (guardOf th f % 2 ^ 32 != 0) = (List.range 32).any (guardBit th f) := by
  rw [Bool.eq_iff_iff, bne_iff_ne, List.any_eq_true]
  constructor
  · intro h
    obtain ⟨i, hi⟩ := Nat.exists_testBit_of_ne_zero h
    rw [Nat.testBit_mod_two_pow, Bool.and_eq_true, decide_eq_true_eq] at hi
    exact ⟨i, List.mem_range.mpr hi.1, testBit_guardOf th f (i := i) (by omega) ▸ hi.2⟩
  · rintro ⟨i, hi, hb⟩ h
    have hi := List.mem_range.mp hi
    have bit := Nat.testBit_mod_two_pow (guardOf th f) 32 i
    rw [h, Nat.zero_testBit, testBit_guardOf th f (by omega), hb] at bit
    simp [hi] at bit
theorem guardOf_eq_ones (th : Thread) (f : KFields) : (guardOf th f % 2 ^ 32 == 2 ^ 32 - 1) = (List.range 32).all (guardBit th f) := by
  rw [Bool.eq_iff_iff, beq_iff_eq, List.all_eq_true]
  constructor
  · intro h i hi
    have hi := List.mem_range.mp hi
    rw [← testBit_guardOf th f (by omega), ← Bool.true_and ((guardOf th f).testBit i), ← decide_eq_true hi, ← Nat.testBit_mod_two_pow, h,
      Nat.testBit_two_pow_sub_one]
  · intro h
    refine Nat.eq_of_testBit_eq fun i => ?_
    rw [Nat.testBit_mod_two_pow, Nat.testBit_two_pow_sub_one]
    by_cases hi : i < 32
    · rw [testBit_guardOf th f (by omega), h i (List.mem_range.mpr hi), Bool.and_true]
    · simp [hi]
theorem branch_taken (th : Thread) (f : KFields) :
    (if f.mod = 0 then (guardOf th f % 2 ^ 32).testBit 0 else if f.mod = 1 then guardOf th f % 2 ^ 32 != 0 else guardOf th f % 2 ^ 32 == 2 ^ 32 - 1)
      = if f.mod = 0 then guardBit th f 0 else if f.mod = 1 then (List.range 32).any (guardBit th f) else (List.range 32).all (guardBit th f) := by
  rw [guardOf_ne_zero, guardOf_eq_ones, Nat.testBit_mod_two_pow, testBit_guardOf th f (by decide)]
  rfl

end Sys2Proof.Say

namespace Sys2Proof.Machine
open Sys2Proof.Say

/-- Settles O14: one register of an issued state (`scalarTo_of`), with the value of each instruction. -/
theorem scalarResults : Obligations.ScalarResults := ⟨scalarResults_holds, division_holds, counterReads_holds⟩
/-- Settles O2: CMP and CMPI by `cmpCond_eq`, PLOG by the laws of bit vectors. -/
theorem predicateResults : Obligations.PredicateResults := predicateResults_holds

/-- Settles O3: NOP leaves the issued state, and BR is taken by the guard bits as `branch_taken` reads them. -/
theorem nopAndBranch : Obligations.NopAndBranch := by
  refine ⟨fun t f s th k h => h.gives (exec_nop t f s) ⟨(h.issued .none 0).frame, (h.issued .none 0).thread⟩,
    fun t f s th k h => h.gives (exec_br t f s) ?_⟩
  simp only [branch_taken, immS_eq]
  generalize (if f.mod = 0 then guardBit th f 0 else _) = taken
  cases taken
  · exact ⟨(h.issued .none 0).frame, (h.issued .none 0).thread⟩
  · have jumped := (h.issued .none 0).modThread (fun u => { u with pc := (th.pc + 8 * f.imm.toInt).toNat })
    exact ⟨jumped.frame, jumped.thread⟩

end Sys2Proof.Machine
end


section
/-!
PROOFS. Vector instructions (05 R190, R192, Table 5-4): lanes of a register, the instructions that write the enabled lanes, comparisons,
reductions, packs and unpacks.
-/
namespace Sys2Proof.Say
open Sys2Proof.Machine

/-! ## Lanes -/

theorem laneAt_eq (w : Nat) (x : V1024) (i : Nat) : laneAt w x i = lane w x.toNat i := by
  rw [laneAt, BitVec.extractLsb'_toNat, Nat.shiftRight_eq_div_pow, lane]
theorem lane_rdV (w : Nat) (th : Thread) (d i : Nat) : lane w (rdV th d) i = laneAt w (th.v.getD d 0) i := (laneAt_eq w _ i).symm
theorem lane_lt (w n i : Nat) : lane w n i < 2 ^ w := Nat.mod_lt _ (Nat.two_pow_pos w)
theorem laneAt_mod (w : Nat) (x : V1024) (i : Nat) : laneAt w x i % 2 ^ w = laneAt w x i := Nat.mod_eq_of_lt (BitVec.isLt _)
theorem lane_ofLanes (w : Nat) (l : List Nat) : ∀ i, lane w (ofLanes w l) i = l.getD i 0 % 2 ^ w := by
  induction l with
  | nil => intro i; simp [lane, ofLanes]
  | cons x l ih =>
    have hx : x % 2 ^ w < 2 ^ w := Nat.mod_lt _ (Nat.two_pow_pos w)
    intro i
    rw [show ofLanes w (x :: l) = x % 2 ^ w + 2 ^ w * ofLanes w l from rfl]
    cases i with
    | zero => simp [lane]
    | succ i =>
      rw [lane, show w * (i + 1) = w + w * i by ring, Nat.pow_add, ← Nat.div_div_eq_div_mul, Nat.add_mul_div_left _ _ (Nat.two_pow_pos w),
        Nat.div_eq_of_lt hx, Nat.zero_add]
      exact ih i
/-- The lanes of a number that is cut to a vector register. -/
theorem laneAt_ofNat (w n : Nat) {i : Nat} (h : w * (i + 1) ≤ 1024) : laneAt w (BitVec.ofNat 1024 n) i = lane w n i := by
  refine Nat.eq_of_testBit_eq fun j => ?_
  rw [laneAt_eq, lane, lane, Nat.testBit_mod_two_pow, Nat.testBit_mod_two_pow, Nat.testBit_div_two_pow, Nat.testBit_div_two_pow, BitVec.toNat_ofNat,
    Nat.testBit_mod_two_pow _ 1024]
  by_cases hj : j < w
  · rw [decide_eq_true (show j + w * i < 1024 by rw [Nat.mul_succ] at h; omega), Bool.true_and]
  · simp [hj]
theorem lane_in_register {w i : Nat} (h : i < 1024 / w) : w * (i + 1) ≤ 1024 :=
  (Nat.mul_le_mul_left w h).trans (Nat.mul_div_le 1024 w)

theorem getD_map_range {α : Type} (g : Nat → α) (d : α) {n i : Nat} (h : i < n) : ((List.range n).map g).getD i d = g i := by
  simp [List.getD_eq_getElem?_getD, h]

theorem wrLanes_eq (w g d : Nat) (new : Nat → Nat) (th : Thread) : wrLanes w g d new th = { th with v := (wrLanes w g d new th).v } := rfl
theorem wrLanes_other {w g d i : Nat} (new : Nat → Nat) (th : Thread) (h : i ≠ d) : (wrLanes w g d new th).v.getD i 0 = th.v.getD i 0 := by
  rw [wrLanes, getD_wrV, if_neg h]
theorem laneAt_wrLanes {w j : Nat} (g d : Nat) (new : Nat → Nat) (th : Thread) (h : j < 1024 / w) :
    laneAt w ((wrLanes w g d new th).v.getD d 0) j = if g.testBit j then new j % 2 ^ w else laneAt w (th.v.getD d 0) j := by
  rw [wrLanes, getD_wrV, if_pos rfl, laneAt_ofNat _ _ (lane_in_register h), lane_ofLanes, getD_map_range _ _ h, lane_rdV, apply_ite (· % 2 ^ w), laneAt_mod]

/-! ## Instructions that write the enabled lanes of one register -/

theorem laneW_cases (f : KFields) : f.mod = 1 ∧ laneW f = 16 ∨ f.mod ≠ 1 ∧ laneW f = 32 := by
  by_cases h : f.mod = 1
  · exact .inl ⟨h, if_pos h⟩
  · exact .inr ⟨h, if_neg h⟩
theorem lane_lt_64 {f : KFields} {j : Nat} (h : j < 1024 / laneW f) : j < 64 := by
  rcases laneW_cases f with ⟨-, e⟩ | ⟨-, e⟩ <;> rw [e] at h <;> omega

theorem lanesTo_of {op : Nat} {c : ThreadRef → KFields → Instr} {cycles w : KFields → Nat} {v val : KFields → Thread → Nat → Nat}
    (hc : ∀ t f s, exec (c t f) s = issueV op t f (cycles f) (w f) s (v f)) (hw : ∀ f, opUse op f.mod.toNat ≠ none → w f = laneW f)
    (hv : ∀ f th j, opUse op f.mod.toNat ≠ none → v f th j % 2 ^ laneW f = val f th j % 2 ^ laneW f) : LanesTo op c val := by
  intro t f s th k h
  have use := h.conditions.2.2.2
  refine h.gives (hc t f s) ?_
  have wrote := (h.issued .ve (cycles f)).modThread (wrLanes (w f) (guardOf th f) f.dst.toNat (v f th))
  refine ⟨wrote.frame, _, wrote.thread.trans (congrArg some (wrLanes_eq ..)), fun i hi => wrLanes_other _ _ hi, fun j hj => ?_⟩
  rw [hw f use, laneAt_wrLanes _ _ _ _ hj, testBit_guardOf th f (lane_lt_64 hj), hv f th j use]
  rfl

/-! ## The values of 05 Table 5-4 -/

theorem va_eq (th : Thread) (f : KFields) (i : Nat) : va th f (laneW f) i = lA th f i := lane_rdV _ _ _ _
theorem vb_eq (th : Thread) (f : KFields) (i : Nat) : vb th f (laneW f) i = lB th f i := lane_rdV _ _ _ _
theorem vc_eq (th : Thread) (f : KFields) (i : Nat) : vc th f (laneW f) i = lC th f i := lane_rdV _ _ _ _
theorem s32_eq (n : Nat) : s32 n = intOf n := sext_eq (by decide) n
theorem sat32_eq (x : Int) : sat32 x = satS x := by
  rw [sat32, trunc_eq, satS, clampI]
  congr 2
  split <;> [skip; split] <;> omega
theorem bin_eq (f : KFields) (fp : Fmt → Nat → Nat → Nat) (int : Int → Int → Int) (x y : Nat) : bin f fp int x y = byLane f fp int x y := by
  simp only [bin, byLane, laneFmt, intOut, s32_eq, sat32_eq, trunc_eq]
  by_cases h0 : f.mod = 0
  · rw [if_pos (.inl h0), if_pos h0, if_neg (by rw [h0]; decide)]
  · by_cases h1 : f.mod = 1
    · rw [if_pos (.inr h1), if_neg h0, if_pos h1, if_pos h1]
    · rw [if_neg (not_or.mpr ⟨h0, h1⟩), if_neg h0, if_neg h1]

theorem lanesTo_bin {op cycles : Nat} {c : ThreadRef → KFields → Instr} {fp : Fmt → Nat → Nat → Nat} {int : Int → Int → Int}
    (hc : ∀ t f s, exec (c t f) s = issueBin op t f cycles s fp int) :
    LanesTo op c (fun f th j => byLane f fp int (lA th f j) (lB th f j)) :=
  lanesTo_of hc (fun _ _ => rfl) fun f th j _ => by rw [bin_eq, va_eq, vb_eq]
/-- The same for an instruction that has no integer form. -/
theorem lanesTo_float {op cycles : Nat} {c : ThreadRef → KFields → Instr} {fp : Fmt → Nat → Nat → Nat} {int : Int → Int → Int}
    (hc : ∀ t f s, exec (c t f) s = issueBin op t f cycles s fp int) (hm : ∀ f : KFields, opUse op f.mod.toNat ≠ none → f.mod = 0 ∨ f.mod = 1) :
    LanesTo op c (fun f th j => fp (laneFmt f) (lA th f j) (lB th f j)) :=
  lanesTo_of hc (fun _ _ => rfl) fun f th j use => by rw [bin, if_pos (hm f use), va_eq, vb_eq]
theorem vsh_value (f : KFields) (x n : Nat) (hx : x < 2 ^ laneW f) :
    (if f.imm.toNat % 4 = 0 then x * 2 ^ n % 2 ^ laneW f else if f.imm.toNat % 4 = 1 then x / 2 ^ n else trunc (laneW f) (sext (laneW f) x / (2 ^ n : Nat)))
      = if f.imm.toNat % 4 = 0 then (BitVec.ofNat (laneW f) x <<< n).toNat else if f.imm.toNat % 4 = 1 then (BitVec.ofNat (laneW f) x >>> n).toNat
        else ((BitVec.ofNat (laneW f) x).sshiftRight n).toNat := by
  have hw : 0 < laneW f := by rcases laneW_cases f with ⟨-, e⟩ | ⟨-, e⟩ <;> omega
  have toNat : (BitVec.ofNat (laneW f) x).toNat = x := by rw [BitVec.toNat_ofNat, Nat.mod_eq_of_lt hx]
  rw [BitVec.toNat_shiftLeft, BitVec.toNat_ushiftRight, toNat, Nat.shiftLeft_eq, Nat.shiftRight_eq_div_pow, trunc_eq, sext_eq hw, BitVec.sshiftRight,
    Int.shiftRight_eq_div_pow]

/-- VDIV has the two floating-point forms, and VCVT and VRQ have lanes of 32 bits. -/
theorem mod_of_opUse_vdiv (f : KFields) (h : opUse 0x46 f.mod.toNat ≠ none) : f.mod = 0 ∨ f.mod = 1 := by
  have : f.mod.toNat ≤ 1 := by
    by_contra hm
    exact h (by simp [opUse, hm])
  bv_omega
theorem laneW_of_opUse_vcvt (f : KFields) (h : opUse 0x49 f.mod.toNat ≠ none) : 32 = laneW f := by
  refine (if_neg fun e => h ?_).symm
  rw [e]; rfl
theorem laneW_of_opUse_vrq (f : KFields) (h : opUse 0x51 f.mod.toNat ≠ none) : 32 = laneW f := by
  refine (if_neg fun e => h ?_).symm
  rw [e]; rfl

/-! ## Comparisons -/

/-- The number whose bits below n are those of a predicate. -/
theorem testBit_bitSum (b : Nat → Bool) (n : Nat) :
    (List.range n).foldl (fun acc i => acc + b2n (b i) * 2 ^ i) 0 < 2 ^ n ∧
      ∀ j, ((List.range n).foldl (fun acc i => acc + b2n (b i) * 2 ^ i) 0).testBit j = (decide (j < n) && b j) := by
  induction n with
  | zero => simp
  | succ n ih =>
    obtain ⟨lt, bits⟩ := ih
    simp only [List.range_succ, List.foldl_append, List.foldl_cons, List.foldl_nil]
    generalize (List.range n).foldl (fun acc i => acc + b2n (b i) * 2 ^ i) 0 = x at lt bits ⊢
    refine ⟨?_, fun j => ?_⟩
    · rw [Nat.pow_succ]
      cases b n <;> simp only [b2n] <;> simp <;> omega
    · rw [Nat.add_comm, Nat.mul_comm, Nat.testBit_two_pow_mul_add _ lt]
      rcases Nat.lt_trichotomy j n with h | rfl | h
      · rw [if_pos h, bits, decide_eq_true h, decide_eq_true (Nat.lt_succ_of_lt h)]
      · rw [if_neg (Nat.lt_irrefl j), Nat.sub_self, decide_eq_true (Nat.lt_succ_self j)]
        cases b j <;> rfl
      · rw [if_neg (by omega), decide_eq_false (by omega)]
        obtain ⟨m, hm⟩ : ∃ m, j - n = m + 1 := ⟨j - n - 1, by omega⟩
        rw [hm, Nat.testBit_succ]
        cases b n <;> simp [b2n]

theorem vectorCompare_holds : vectorCompare := by
  intro t f s th k h
  refine h.gives (exec_vcmp t f s) ?_
  obtain ⟨frame, r, hr, regs⟩ := (h.issued .ve 1).wrP f.dst.toNat (v := _) rfl
  refine ⟨frame, r, hr, fun i hi => ?_, fun j hd hj => ?_⟩
  · rw [regs, if_neg (by tauto)]
  · intro w
    have hd : f.dst.toNat ≠ 0 := fun e => hd (BitVec.eq_of_toNat_eq e)
    rw [show predIn r f.dst.toNat = BitVec.ofNat 64 _ from (regs _).trans (if_pos ⟨hd, rfl⟩), BitVec.getLsbD_ofNat, (testBit_bitSum _ _).2, decide_eq_true hj, Bool.true_and, testBit_guardOf th f hj, rdP_eq,
      BitVec.testBit_toNat, va, vb, lane_rdV, lane_rdV]
    by_cases h : j < 1024 / w
    · rw [decide_eq_true h, if_neg (Nat.not_le.mpr h), Bool.true_and]
    · rw [decide_eq_false h, if_pos (Nat.not_lt.mp h), Bool.false_and]

/-! ## Reductions -/

theorem enabledA_eq (th : Thread) (f : KFields) :
    enabledA th f = ((List.range 32).filter (guardBit th f)).map (laneAt 32 (th.v.getD f.a.toNat 0)) := by
  rw [enabledA, List.filter_congr fun i hi => testBit_guardOf th f (i := i) (by have := List.mem_range.mp hi; omega)]
  exact List.map_congr_left fun i _ => lane_rdV 32 th _ i

theorem reductionTo_of {op : Nat} {c : ThreadRef → KFields → Instr} {v : KFields → List Nat → Nat} {val : KFields → List Nat → U64}
    (hc : ∀ t f s, exec (c t f) s = issue op t f .ve 2 s (fun th _ s => modThread t (wrS f.dst.toNat (v f (enabledA th f))) s))
    (hv : ∀ f xs, BitVec.ofNat 64 (v f xs) = val f xs) : ReductionTo op c val := by
  intro t f s th k h
  refine h.gives (hc t f s) ((h.issued .ve 2).wrS f.dst.toNat ?_)
  rw [hv, enabledA_eq]

theorem vectorReductions_holds : vectorReductions := by
  refine ⟨reductionTo_of (v := fun f xs => if f.mod = 0 then orderedSum xs else trunc 64 (sext 32 (xs.foldl (· + ·) 0))) exec_vsum fun f xs => ?_, reductionTo_of exec_vbsc fun _ _ => rfl⟩
  rw [apply_ite (BitVec.ofNat 64), ofNat_trunc, ofInt_sext (by decide), ← List.sum_eq_foldl]
  rfl

/-! ## Packs and unpacks -/

/-- An element of w bits, where w divides 32, lies in one lane of 32 bits. -/
theorem lane_lane {w q : Nat} (h : w * q = 32) (n e : Nat) : lane w n e = lane w (lane 32 n (e / q)) (e % q) := by
  have hq : 0 < q := Nat.pos_of_ne_zero (by rintro rfl; simp at h)
  have split : w * e = 32 * (e / q) + w * (e % q) := by rw [← h, Nat.mul_assoc, ← Nat.mul_add, Nat.div_add_mod]
  have fits : w * (e % q) + w ≤ 32 := by rw [← h, ← Nat.mul_succ]; exact Nat.mul_le_mul_left w (Nat.mod_lt e hq)
  refine Nat.eq_of_testBit_eq fun j => ?_
  simp only [lane, Nat.testBit_mod_two_pow, Nat.testBit_div_two_pow]
  by_cases hj : j < w
  · rw [decide_eq_true (show j + w * (e % q) < 32 by omega), split, Bool.true_and]; congr 2; omega
  · simp [hj]

/-- Writes of the enabled lanes of successive registers. -/
theorem foldl_wrLanes (w g d : Nat) (new : Nat → Nat → Nat) (th : Thread) (n : Nat) :
    let r := (List.range n).foldl (fun acc j => wrLanes w g (d + j) (new j) acc) th
    r = { th with v := r.v } ∧ (∀ i, i < d ∨ d + n ≤ i → r.v.getD i 0 = th.v.getD i 0) ∧
      ∀ j i, j < n → i < 1024 / w →
        laneAt w (r.v.getD (d + j) 0) i = if g.testBit i then new j i % 2 ^ w else laneAt w (th.v.getD (d + j) 0) i := by
  induction n with
  | zero => exact ⟨rfl, fun _ _ => rfl, fun j _ hj => absurd hj (Nat.not_lt_zero j)⟩
  | succ n ih =>
    obtain ⟨rest, others, lanes⟩ := ih
    simp only [List.range_succ, List.foldl_append, List.foldl_cons, List.foldl_nil]
    generalize (List.range n).foldl (fun acc j => wrLanes w g (d + j) (new j) acc) th = u at rest others lanes ⊢
    refine ⟨by rw [wrLanes_eq, rest], fun i hi => ?_, fun j i hj hi => ?_⟩
    · rw [wrLanes_other _ _ (by omega)]
      exact others i (by omega)
    · rcases Nat.lt_succ_iff_lt_or_eq.mp hj with h | rfl
      · rw [wrLanes_other _ _ (by omega)]
        exact lanes j i h hi
      · rw [laneAt_wrLanes _ _ _ _ hi, others _ (by omega)]

/-- The value of a lane that VUNPK writes to its register j. -/
def unpackLane (f : KFields) (th : Thread) (j i : Nat) : Nat :=
  let x := lane (packW f.mod.toNat) (rdV th f.a.toNat) (32 * j + i)
  if 4 ≤ f.mod.toNat then trunc 32 (sext (packW f.mod.toNat) x) else x
theorem exec_vunpk (t : ThreadRef) (f : KFields) (s : State) : exec (.vunpk t f) s =
    issue 0x54 t f .ve (32 / packW f.mod.toNat) s (fun th _ m => modThread t (fun u => (List.range (32 / packW f.mod.toNat)).foldl
      (fun acc j => wrLanes 32 (guardOf th f) (f.dst.toNat + j) (unpackLane f th j) acc) u) m) := rfl

theorem packW_cases (m : Nat) : packW m = 8 ∨ packW m = 16 ∨ packW m = 4 := by
  unfold packW; split <;> [exact .inl rfl; split <;> simp]
theorem packW_of_opUse_vpack {f : KFields} (h : opUse 0x53 f.mod.toNat ≠ none) :
    packW f.mod.toNat = if f.mod = 0 then 8 else if f.mod = 1 then 16 else 4 := by
  have le : f.mod.toNat ≤ 2 := by
    by_contra hm
    exact h (by simp [opUse, hm])
  have mod : f.mod = 0 ∨ f.mod = 1 ∨ f.mod = 2 := by bv_omega
  rcases mod with e | e | e <;> rw [e] <;> rfl
theorem unpackLane_mod (f : KFields) (th : Thread) (j i : Nat) : unpackLane f th j i % 2 ^ 32 =
    if 4 ≤ f.mod.toNat then ((BitVec.ofNat (packW f.mod.toNat) (laneAt (packW f.mod.toNat) (th.v.getD f.a.toNat 0) (32 * j + i))).signExtend 32).toNat
    else (BitVec.ofNat (packW f.mod.toNat) (laneAt (packW f.mod.toNat) (th.v.getD f.a.toNat 0) (32 * j + i))).toNat := by
  rw [unpackLane, lane_rdV, trunc_eq, BitVec.toNat_ofNat, laneAt_mod]
  have hw := packW_cases f.mod.toNat
  generalize packW f.mod.toNat = w at hw
  have lt : laneAt w (th.v.getD f.a.toNat 0) (32 * j + i) < 2 ^ 32 :=
    (BitVec.isLt _).trans_le (Nat.pow_le_pow_right (by decide) (by omega))
  rw [sext_eq (by omega), ← BitVec.signExtend]
  split
  · exact Nat.mod_eq_of_lt (BitVec.isLt _)
  · exact Nat.mod_eq_of_lt lt

/-- What VPACK packs: element i is the low bits of lane i mod 32 of v[a + ⌊i/32⌋]. -/
def packed (th : Thread) (f : KFields) (w : Nat) : Nat :=
  ofLanes w ((List.range (1024 / w)).map (fun i => lane 32 (rdV th (f.a.toNat + i / 32)) (i % 32)))
/-- The elements of a VPACK, of which a lane of 32 bits holds q. -/
theorem vpack_elements {w q : Nat} (hw : w * q = 32) (th u : Thread) (f : KFields) {e : Nat} (he : e < 1024 / w) (hg : guardBit th f (e / q) = true) :
    laneAt w ((wrLanes 32 (guardOf th f) f.dst.toNat (lane 32 (packed th f w)) u).v.getD f.dst.toNat 0) e =
      laneAt 32 (th.v.getD (f.a.toNat + e / 32) 0) (e % 32) % 2 ^ w := by
  have bound : e / q < 32 := by
    have : e < 32 * q := he.trans_le (by rw [show 1024 = 32 * q * w by rw [Nat.mul_assoc, Nat.mul_comm q, hw]]; exact Nat.div_le_of_le_mul (Nat.mul_comm _ _).le)
    exact Nat.div_lt_of_lt_mul (by rwa [Nat.mul_comm])
  rw [laneAt_eq, lane_lane hw, ← laneAt_eq, laneAt_wrLanes _ _ _ _ bound, testBit_guardOf th f (by omega), if_pos hg, Nat.mod_eq_of_lt (lane_lt 32 _ _),
    ← lane_lane hw, packed, lane_ofLanes, getD_map_range _ _ he, lane_rdV]

end Sys2Proof.Say

namespace Sys2Proof.Machine
open Sys2Proof.Say

/-- Settles O4: each instruction writes the enabled lanes (`lanesTo_of`), with its lane's value. -/
theorem vectorLanes : Obligations.VectorLanes := by
  refine ⟨lanesTo_bin fun _ _ _ => rfl, lanesTo_bin fun _ _ _ => rfl, lanesTo_bin fun _ _ _ => rfl, ?vfma, ?vmin, ?vmax, ?vdiv, ?vsqrt, ?vfn, ?vcvt,
    ?vsel, ?vlog, ?vsh, ?vbcast, ?viota, ?vrq⟩
  case vmin => exact lanesTo_bin fun _ _ _ => rfl
  case vmax => exact lanesTo_bin fun _ _ _ => rfl
  case vdiv => exact lanesTo_float (fun _ _ _ => rfl) mod_of_opUse_vdiv
  case vfma => exact lanesTo_of (fun _ _ _ => rfl) (fun _ _ => rfl) fun f th j _ => by rw [va_eq, vb_eq, vc_eq]; rfl
  case vsqrt => exact lanesTo_of (fun _ _ _ => rfl) (fun _ _ => rfl) fun f th j _ => by rw [va_eq]; rfl
  case vfn => exact lanesTo_of (fun _ _ _ => rfl) (fun _ _ => rfl) fun f th j _ => by rw [va_eq]; rfl
  case vcvt =>
    exact lanesTo_of (fun _ _ _ => rfl) laneW_of_opUse_vcvt fun f th j use => by
      rw [laneW_of_opUse_vcvt f use, va_eq, BitVec.testBit_toNat]
  case vsel =>
    exact lanesTo_of (fun _ _ _ => rfl) (fun _ _ => rfl) fun f th j _ => by rw [va_eq, vb_eq, rdP_eq, BitVec.testBit_toNat]; rfl
  case vlog => exact lanesTo_of (fun _ _ _ => rfl) (fun _ _ => rfl) fun f th j _ => by rw [va_eq, vb_eq]
  case vsh =>
    refine lanesTo_of (fun _ _ _ => rfl) (fun _ _ => rfl) fun f th j _ => ?_
    exact congrArg (· % 2 ^ laneW f) (va_eq th f j ▸ vb_eq th f j ▸ vsh_value f _ _ (lane_lt _ _ _))
  case vbcast => exact lanesTo_of (fun _ _ _ => rfl) (fun _ _ => rfl) fun f th j _ => by rw [Nat.mod_mod, rdS_eq]; rfl
  case viota => exact lanesTo_of (fun _ _ _ => rfl) (fun _ _ => rfl) fun f th j _ => rfl
  case vrq =>
    exact lanesTo_of (fun _ _ _ => rfl) laneW_of_opUse_vrq fun f th j use => by
      rw [trunc_eq, s32_eq, s32_eq, laneW_of_opUse_vrq f use, va_eq, vb_eq, vc_eq]

/-- Settles O5: VCMP by the bits of its sum of powers of two, VSUM and VBSC as functions of the enabled lanes. -/
theorem vectorComparesAndReductions : Obligations.VectorComparesAndReductions := ⟨vectorCompare_holds, vectorReductions_holds⟩

/-- Settles O6: VPACK by its elements' place in the lanes of 32 bits, VUNPK by the lanes of successive registers. -/
theorem packAndUnpack : Obligations.PackAndUnpack := by
  refine ⟨fun t f s th k h => ?pack, fun t f s th k h => ?unpack⟩
  case pack =>
    refine h.gives (exec_vpack t f s) ?_
    have wrote := (h.issued .ve 1).modThread (wrLanes 32 (guardOf th f) f.dst.toNat (lane 32 (packed th f (packW f.mod.toNat))))
    refine ⟨wrote.frame, _, wrote.thread.trans (congrArg some (wrLanes_eq ..)), fun i hi => wrLanes_other _ _ hi, fun j hj off => ?_, fun e => ?_⟩
    · rw [laneAt_wrLanes _ _ _ _ hj, testBit_guardOf th f (by omega), off]
      rfl
    · intro w he hg
      have hw : packW f.mod.toNat = w := packW_of_opUse_vpack h.conditions.2.2.2
      clear_value w
      subst hw
      obtain ⟨q, hq⟩ : ∃ q, packW f.mod.toNat * q = 32 := by
        rcases packW_cases f.mod.toNat with e | e | e <;> rw [e] <;> [exact ⟨4, rfl⟩; exact ⟨2, rfl⟩; exact ⟨8, rfl⟩]
      have pos : 0 < packW f.mod.toNat := by rcases packW_cases f.mod.toNat with e | e | e <;> omega
      rw [Nat.mul_comm, ← hq, Nat.mul_div_mul_left _ _ pos] at hg
      exact vpack_elements hq th _ f he hg
  case unpack =>
    refine h.gives (exec_vunpk t f s) ?_
    have wrote := (h.issued .ve (32 / packW f.mod.toNat)).modThread (fun u => (List.range (32 / packW f.mod.toNat)).foldl
      (fun acc j => wrLanes 32 (guardOf th f) (f.dst.toNat + j) (unpackLane f th j) acc) u)
    obtain ⟨rest, others, lanes⟩ := foldl_wrLanes 32 (guardOf th f) f.dst.toNat (unpackLane f th) (stepped s t th) (32 / packW f.mod.toNat)
    refine ⟨wrote.frame, _, wrote.thread.trans (congrArg some rest), others, fun j i hj hi => ?_⟩
    rw [lanes j i hj hi, testBit_guardOf th f (by omega), unpackLane_mod]
    rfl

end Sys2Proof.Machine
end

section
/-!
PROOFS. Core store (05 R188, Table 5-4): the address and the bytes of an access, stores lane by lane, and the task whose store a write
changes.
-/
namespace Sys2Proof.Say
open Sys2Proof.Machine

/-! ## Accesses -/

theorem effAddr_eq (th : Thread) (f : KFields) : effAddr th f = address th f := by
  rw [effAddr, trunc_eq, BitVec.ofInt_add, ofInt_immS, BitVec.ofInt_natCast, rdS_eq, ofNat_64_toNat]
  rfl
theorem storeIn_iff (k : Task) (a n : Nat) : storeIn k a n = true ↔ a + n ≤ k.size := by
  simp only [storeIn, Bool.and_eq_true, decide_eq_true_eq]; omega
theorem storeBad_none {k : Task} {a n al : Nat} (h : a + n ≤ k.size) (hal : a % al = 0) : storeBad k a n al = none := by
  rw [storeBad, (storeIn_iff k a n).mpr h]
  simp [hal]
theorem storeBad_of_storeOk {k : Task} {a m : Nat} (h : storeOk k a m) : storeBad k a (ldSize m) (ldAlign m) = none := storeBad_none h.1 h.2
theorem ldSize_pos (m : Nat) : 0 < ldSize m := by
  unfold ldSize
  split <;> [decide; split <;> [decide; split <;> [decide; split <;> decide]]]
theorem ofNat_ldValue (m : Nat) (b : Bytes) : BitVec.ofNat 64 (ldValue m b) = loaded m b := by
  by_cases h : 5 ≤ m
  · rw [ldValue, loaded, if_pos h, if_neg (by omega), ofNat_trunc, ofInt_sext (by have := ldSize_pos m; omega)]
  · rw [ldValue, loaded, if_neg h, if_pos (by omega)]
theorem mod_eq_zero (f : KFields) : f.mod.toNat = 0 ↔ f.mod = 0 := by rw [BitVec.toNat_eq]; rfl

/-! ## Loads -/

theorem IssuedTo.wrLoad {t : ThreadRef} {k : Task} {s m : State} {th : Thread} (h : IssuedTo t k s (stepped s t th) m) (f : KFields) (b : Bytes) :
    let n := Machine.modThread t (Machine.wrLoad f.mod.toNat f.dst.toNat (ldValue f.mod.toNat b)) m
    IssueFrame t k s n ∧ if f.mod = 0 then ∃ r, threadOf n t = some { stepped s t th with v := r } ∧
        (∀ i, r.getD i 0 = if i = f.dst.toNat then BitVec.ofNat 1024 (leNat b) else th.v.getD i 0)
      else ∃ r, threadOf n t = some { stepped s t th with s := r } ∧
        (∀ i, scalarIn r i = if i ≠ 0 ∧ i = f.dst.toNat then loaded f.mod.toNat b else scalarIn th.s i) := by
  by_cases hm : f.mod = 0
  · have hm' := (mod_eq_zero f).mpr hm
    have wrote := h.modThread (Machine.wrV f.dst.toNat (leNat b))
    have eq : Machine.wrLoad f.mod.toNat f.dst.toNat (ldValue f.mod.toNat b) = Machine.wrV f.dst.toNat (leNat b) := by rw [hm']; rfl
    simp only [eq, if_pos hm]
    exact ⟨wrote.frame, _, wrote.thread, fun i => getD_wrV _ _ _ i⟩
  · have hm' := (mod_eq_zero f).not.mpr hm
    have eq : Machine.wrLoad f.mod.toNat f.dst.toNat (ldValue f.mod.toNat b) = Machine.wrS f.dst.toNat (ldValue f.mod.toNat b) :=
      funext fun _ => if_neg hm'
    simp only [eq, if_neg hm]
    exact h.wrS f.dst.toNat (ofNat_ldValue _ _)

theorem coreStoreLoads_holds : coreStoreLoads := by
  refine ⟨fun t f s th k h hg ok => ?ldc, fun t f s th k h hg => ?ldcx⟩
  case ldc =>
    refine h.gives_on hg (exec_ldc t f s) ?_
    rw [effAddr_eq, storeBad_of_storeOk ok]
    exact (h.issued .me 1).wrLoad f _
  case ldcx =>
    intro addr ok
    have at_ (i : Nat) : (rdS th f.a.toNat + lane 32 (rdV th f.b.toNat) i) % 2 ^ 64 = addr i := by
      rw [rdS_eq, lane_rdV]
      simp [addr, sA, BitVec.toNat_add]
    have sound : (List.range 32).findSome? (fun i => if (guardOf th f).testBit i then storeBad (withStore s k) (addr i) 4 4 else none) = none := by
      refine List.findSome?_eq_none_iff.mpr fun i hi => ?_
      have hi := List.mem_range.mp hi
      rw [testBit_guardOf th f (by omega)]
      split
      · next on => exact storeBad_none (ok i hi on).1 (ok i hi on).2
      · rfl
    refine h.gives_on hg (exec_ldcx t f s) ?_
    simp only [at_, sound, orFault]
    have wrote := (h.issued .me 2).modThread (wrLanes 32 (guardOf th f) f.dst.toNat (fun i => leNat (storeRead (withStore s k) (addr i) 4)))
    refine ⟨wrote.frame, _, wrote.thread.trans (congrArg some (wrLanes_eq ..)), fun i hi => wrLanes_other _ _ hi, fun i hi => ?_⟩
    have lt : leNat (storeRead (withStore s k) (addr i) 4) < 2 ^ 32 := by
      have := leNat_lt (storeRead (withStore s k) (addr i) 4)
      rwa [show (storeRead (withStore s k) (addr i) 4).length = 4 from Mem.readN_length ..] at this
    rw [laneAt_wrLanes _ _ _ _ hi, testBit_guardOf th f (by omega), Nat.mod_eq_of_lt lt]
    rfl

/-! ## The bytes of a store -/

/-- Byte i of a number. -/
theorem natLe_getD (k : Nat) : ∀ (v : Nat) {i : Nat}, i < k → (natLe k v).getD i 0 = BitVec.ofNat 8 (lane 8 v i) := by
  induction k with
  | zero => exact fun _ _ h => absurd h (Nat.not_lt_zero _)
  | succ k ih =>
    intro v i hi
    cases i with
    | zero => exact BitVec.eq_of_toNat_eq (by simp [natLe, lane])
    | succ i =>
      rw [show (natLe (k + 1) v).getD (i + 1) 0 = (natLe k (v / 256)).getD i 0 from rfl, ih _ (by omega), lane, lane, Nat.div_div_eq_div_mul,
        show 256 * 2 ^ (8 * i) = 2 ^ (8 * (i + 1)) by rw [Nat.mul_succ, Nat.pow_add, Nat.mul_comm]]
theorem ofNat_lane_8 {w : Nat} (x : BitVec w) (i : Nat) : BitVec.ofNat 8 (lane 8 x.toNat i) = x.extractLsb' (8 * i) 8 := by
  refine BitVec.eq_of_toNat_eq ?_
  rw [BitVec.toNat_ofNat, lane, Nat.mod_mod, BitVec.extractLsb'_toNat, Nat.shiftRight_eq_div_pow]

/-- Memory after the stores of the enabled lanes below n. -/
theorem read_laneStores {m : Mem} (hm : Mem.wf m = true) (a : Nat) (on : Nat → Bool) (v : V1024) (x : Nat) : ∀ n,
    let m' := (((List.range n).filter on).map (fun i => (a + 4 * i, natLe 4 (laneAt 32 v i)))).foldl (fun m w => Mem.writeN m w.1 w.2) m
    Mem.wf m' = true ∧ Mem.read m' x =
      if a ≤ x ∧ x < a + 4 * n ∧ on ((x - a) / 4) = true then v.extractLsb' (8 * (x - a)) 8 else Mem.read m x
  | 0 => ⟨hm, (if_neg (by omega)).symm⟩
  | n + 1 => by
    obtain ⟨wf, ih⟩ := read_laneStores hm a on v x n
    simp only [List.range_succ, List.filter_append, List.map_append, List.foldl_append, List.filter_singleton]
    generalize (((List.range n).filter on).map (fun i => (a + 4 * i, natLe 4 (laneAt 32 v i)))).foldl (fun m w => Mem.writeN m w.1 w.2) m = m' at wf ih ⊢
    by_cases hn : on n = true
    · rw [hn, cond_true, List.map_singleton, List.foldl_cons, List.foldl_nil]
      refine ⟨Mem.writeN_wf _ wf, ?_⟩
      rw [Mem.read_writeN wf, natLe_length, ih]
      by_cases inside : a + 4 * n ≤ x ∧ x < a + 4 * n + 4
      · have place : (x - a) / 4 = n ∧ (x - a) % 4 = x - (a + 4 * n) := by omega
        rw [if_pos inside, if_pos ⟨by omega, by omega, place.1 ▸ hn⟩, natLe_getD 4 _ (by omega), laneAt_eq, ← place.2, ← place.1,
          ← lane_lane (w := 8) (q := 4) rfl, ofNat_lane_8]
      · rw [if_neg inside]
        exact if_congr (by constructor <;> rintro ⟨_, _, h⟩ <;> exact ⟨by omega, by omega, h⟩) rfl rfl
    · rw [Bool.not_eq_true] at hn
      rw [hn, cond_false]
      refine ⟨wf, ih.trans (if_congr ⟨fun ⟨h1, h2, h⟩ => ⟨h1, by omega, h⟩, fun ⟨h1, h2, h⟩ => ⟨h1, ?_, h⟩⟩ rfl rfl)⟩
      by_contra h3
      rw [show (x - a) / 4 = n by omega, hn] at h
      cases h

/-- Memory after a store: the bytes of the register, of the enabled lanes only in the vector form. -/
theorem read_stores (th : Thread) (f : KFields) {m : Mem} (hm : Mem.wf m = true) (a x : Nat) :
    Mem.read (((stores th f).map (fun w => (a + w.1, w.2))).foldl (fun m w => Mem.writeN m w.1 w.2) m) x = (storedByte th f a x).getD (Mem.read m x) := by
  by_cases mod : f.mod = 0
  · have size : ldSize f.mod.toNat = 128 := by rw [mod]; rfl
    have on : (List.range 32).filter (fun i => (guardOf th f).testBit i) = (List.range 32).filter (guardBit th f) :=
      List.filter_congr fun i hi => testBit_guardOf th f (by have := List.mem_range.mp hi; omega)
    have lanes : (stores th f).map (fun w => (a + w.1, w.2)) =
        ((List.range 32).filter (guardBit th f)).map (fun i => (a + 4 * i, natLe 4 (laneAt 32 (th.v.getD f.b.toNat 0) i))) := by
      rw [stores, if_pos mod, laneStores, on, List.map_map]
      exact List.map_congr_left fun i _ => by simp only [Function.comp, laneStores.vLane, lane_rdV]
    rw [lanes, (read_laneStores hm a _ _ x 32).2, storedByte, size, if_pos mod]
    by_cases out : x < a ∨ a + 128 ≤ x
    · rw [if_pos out, if_neg (by omega)]; rfl
    · rw [if_neg out]
      by_cases on : guardBit th f ((x - a) / 4) = true
      · rw [if_pos ⟨by omega, by omega, on⟩, if_pos on]; rfl
      · rw [if_neg (fun h => on h.2.2), if_neg on]; rfl
  · rw [stores, if_neg mod, List.map_singleton, List.foldl_cons, List.foldl_nil, Mem.read_writeN hm, natLe_length, storedByte, if_neg mod]
    by_cases out : x < a ∨ a + ldSize f.mod.toNat ≤ x
    · rw [if_pos out, if_neg (by simp only [Nat.add_zero]; omega)]; rfl
    · rw [if_neg out, if_pos (by simp only [Nat.add_zero]; omega), Nat.add_zero, natLe_getD _ _ (by omega), rdS_eq, ofNat_lane_8]; rfl
/-- The bytes of a store lie in its access. -/
theorem stores_inside (th : Thread) (f : KFields) {w : Nat × Bytes} (hw : w ∈ stores th f) : w.1 + w.2.length ≤ ldSize f.mod.toNat := by
  unfold stores at hw
  split at hw
  · next mod =>
    obtain ⟨i, hi, rfl⟩ := List.mem_map.mp hw
    have := List.mem_range.mp (List.mem_filter.mp hi).1
    simp only [natLe_length, mod]
    show 4 * i + 4 ≤ 128
    omega
  · rw [List.mem_singleton.mp hw, natLe_length, Nat.zero_add]
theorem storedByte_above (th : Thread) (f : KFields) {a base : Nat} (h : base ≤ a) (x : Nat) :
    storedByte th f a (base + x) = storedByte th f (a - base) x := by
  rw [storedByte, storedByte, show base + x - a = x - (a - base) by omega]
  exact if_congr (by omega) rfl rfl

/-! ## The task whose core store a write changes -/

/-- A task after writes in order, to its core store from address base on. -/
def withWrites (base : Nat) (ws : List (Nat × Bytes)) (o : Task) : Task :=
  { o with store := ws.foldl (fun m w => Mem.writeN m (w.1 - base) w.2) o.store }
/-- What a write to core store asks of the task: its kind and its size. -/
def Shaped (task : Nat) (k : Task) (s : State) : Prop := (tget s.tasks task).map (fun o => (o.kind, o.size)) = some (k.kind, k.size)

section
variable {task id base : Nat} {k : Task} {s : State}

theorem Shaped.of (h : tget s.tasks task = some k) : Shaped task k s := by rw [Shaped, h]; rfl
theorem Shaped.tgetD (h : Shaped task k s) : (tgetD s.tasks task {}).kind = k.kind ∧ (tgetD s.tasks task {}).size = k.size := by
  obtain ⟨o, ho, e⟩ := Option.map_eq_some_iff.mp h
  rw [Prod.mk.injEq] at e
  simp only [Machine.tgetD, ho, Option.getD_some]
  exact e
theorem Shaped.withWrites (h : Shaped task k s) (ws : List (Nat × Bytes)) : Shaped task k (modTask id (Say.withWrites base ws) s) := by
  rw [Shaped, modTask_tasks, tget_tmod]
  split
  · rw [Option.map_map]; exact h
  · exact h
theorem modTask_withWrites_nil (id base : Nat) (s : State) : modTask id (withWrites base []) s = s := by
  show { s with tasks := tmod s.tasks id (fun o => o) } = s
  rw [tmod_id]

/-- Writes that each change one task's core store make together one change of it. -/
theorem foldl_storeWrite : ∀ (ws : List (Nat × Bytes)) {s : State}, Shaped task k s →
    (∀ w ∈ ws, ∀ {s'}, Shaped task k s' → storeWrite task w.1 w.2 s' = modTask id (withWrites base [w]) s') →
    ws.foldl (fun s w => storeWrite task w.1 w.2 s) s = modTask id (withWrites base ws) s
  | [], _, _, _ => (modTask_withWrites_nil _ _ _).symm
  | w :: ws, s, hs, one => by
    rw [List.foldl_cons, one w (List.mem_cons_self ..) hs,
      foldl_storeWrite ws (hs.withWrites [w]) (fun w' hw => one w' (List.mem_cons_of_mem _ hw)), modTask, modTask, modTask, tmod_tmod]
    rfl

/-- A write within the task's own bytes. -/
theorem storeWrite_own (h : Shaped task k s) {w : Nat × Bytes} (hw : ∀ b p, k.kind = .blend b (some p) → w.1 + w.2.length ≤ k.size) :
    storeWrite task w.1 w.2 s = modTask task (withWrites 0 [w]) s := by
  obtain ⟨kind, size⟩ := h.tgetD
  unfold storeWrite
  simp only [kind, size]
  split
  · next b p e =>
    have := hw b p e
    rw [List.drop_eq_nil_of_le (by omega), List.take_of_length_le (by omega)]
    exact modTask_withWrites_nil p 0 _
  · rfl
/-- A write beyond the own bytes of a BLEND task in bin mode: its bin task's planes. -/
theorem storeWrite_planes (h : Shaped task k s) {b p : Nat} (hk : k.kind = .blend b (some p)) {w : Nat × Bytes} (hw : k.size ≤ w.1) :
    storeWrite task w.1 w.2 s = modTask p (withWrites k.size [w]) s := by
  obtain ⟨kind, size⟩ := h.tgetD
  unfold storeWrite
  simp only [kind, size, hk]
  rw [Nat.sub_eq_zero_of_le hw, List.drop_zero, List.take_zero]
  exact congrArg _ (modTask_withWrites_nil task 0 s)

end

/-! ## Stores -/

/-- A store to core store, once it is known whose store it changes. -/
theorem IssuedTo.stores {t : ThreadRef} {f : KFields} {s m n : State} {th : Thread} {k o : Task} {id base : Nat}
    (h : IssuedTo t k s (stepped s t th) m) (ho : tget s.tasks id = some o) (hbase : base ≤ address th f) (hm : Mem.wf o.store = true)
    (hn : n = modTask id (withWrites base ((Machine.stores th f).map (fun w => (address th f + w.1, w.2)))) m) :
    n = { s with cores := n.cores, ctxs := n.ctxs, perf := n.perf, tasks := n.tasks } ∧
    CoreFrame t k s n (coreOf s t.core).vreqs (coreOf s t.core).copies (coreOf s t.core).tex ∧ threadOf n t = some (stepped s t th) ∧
    (∀ i, i ≠ id → tget n.tasks i = tget s.tasks i) ∧
    ∃ r, tget n.tasks id = some { o with store := r } ∧
      ∀ x, Mem.read r x = (storedByte th f (address th f) (base + x)).getD (Mem.read o.store x) := by
  have tasks : m.tasks = s.tasks := by rw [h.frame.1]
  subst hn
  refine ⟨by rw [h.frame.1]; rfl, h.frame.2.congr rfl rfl, h.thread, fun i hi => ?_,
    (withWrites base ((Machine.stores th f).map (fun w => (address th f + w.1, w.2))) o).store, ?_, fun x => ?_⟩
  · rw [modTask_tasks, tget_tmod_other _ _ _ _ hi, tasks]
  · rw [modTask_tasks, tget_tmod_same, tasks, ho]
    rfl
  · rw [withWrites, storedByte_above th f hbase, ← read_stores th f hm, List.foldl_map, List.foldl_map]
    simp only [Nat.sub_add_comm hbase]

theorem coreStoreStores_holds : coreStoreStores := by
  intro t f s th k h hg ok stores
  have writes : ∀ id base o, tget s.tasks id = some o → base ≤ address th f →
      (∀ w ∈ Machine.stores th f, ∀ {s'}, Shaped th.task k s' →
        storeWrite th.task (address th f + w.1) w.2 s' = modTask id (withWrites base [(address th f + w.1, w.2)]) s') → stores id base o := by
    intro id base o ho hbase one hm
    have issued := h.issued .me 1
    have shaped : Shaped th.task k (Machine.issued 0x81 t f .me 1 th k s) := .of (by rw [issued.frame.1]; exact h.task)
    refine h.gives_on hg (exec_stc t f s) (issued.stores ho hbase hm ?_)
    rw [effAddr_eq, storeBad_of_storeOk ok, ← foldl_storeWrite _ shaped ?_, List.foldl_map]
    · rfl
    · intro w hw
      obtain ⟨v, hv, rfl⟩ := List.mem_map.mp hw
      exact one v hv
  refine ⟨fun own => writes _ 0 k h.task (Nat.zero_le _) fun w hw _ hs => storeWrite_own (w := (_, _)) hs fun b p e => ?_,
    fun b p o hk above _ ho => writes p k.size o ho above fun w _ _ hs => storeWrite_planes (w := (_, _)) hs hk (by simp only; omega)⟩
  calc address th f + _ + _ ≤ address th f + ldSize f.mod.toNat := by rw [Nat.add_assoc]; exact Nat.add_le_add_left (stores_inside th f hw) _
    _ ≤ k.size := own b p e

end Sys2Proof.Say
namespace Sys2Proof.Machine
open Sys2Proof.Say

/-- Settles O8: a load writes its register alone; a store changes, of all core store, only the bytes of the task that its addresses
belong to. -/
theorem coreStore : Obligations.CoreStore := ⟨coreStoreLoads_holds, coreStoreStores_holds⟩

end Sys2Proof.Machine
end

section
/-!
PROOFS. Ward memory (05 R196, R199): the traffic and the requests of an access, the stores of one fabric cycle, and the replies.
-/
namespace Sys2Proof.Say
open Sys2Proof.Machine

/-! ## Traffic and requests -/

theorem modAcct_id (i : Nat) (s : State) : modAcct i id s = s := by
  show { s with ctxs := tmod s.ctxs i (fun c => c) } = s
  rw [tmod_id]
theorem chargeVault_eq (slot rd wr : Nat) (s : State) : ∃ a : Account → Account, chargeVault slot rd wr s = modAcct slot a s := ⟨_, rfl⟩
/-- Everything that traffic can change: the context's account, the counters and the free values. -/
theorem vaultTraffic_eq (core : Nat) (k : Task) (wd addr n : Nat) (write : Bool) (s : State) :
    ∃ (p : Perf) (a : Account → Account) (fr : Nat), vaultTraffic core k wd addr n write s = modPerf (fun _ => p) (modAcct k.slot a { s with free := fr }) := by
  unfold vaultTraffic
  dsimp only
  split
  · exact ⟨s.perf, id, s.free, by rw [modAcct_id]; rfl⟩
  split
  · obtain ⟨p, h⟩ := portBytes_eq core (if write then 3 else 2) (64 * n) s
    exact ⟨p, id, s.free, by rw [modAcct_id]; exact h⟩
  obtain ⟨p1, h1⟩ := tally_eq core 0x028 n (some (whoOf k)) (drawFree s).2
  rw [h1]
  obtain ⟨p2, h2⟩ := portBytes_eq core (b2n write) (64 * n) (modPerf (fun _ => p1) (drawFree s).2)
  rw [h2]
  split
  · obtain ⟨p3, h3⟩ := tally_eq core 0x02A n (some (whoOf k)) (modPerf (fun _ => p2) (modPerf (fun _ => p1) (drawFree s).2))
    rw [h3]
    obtain ⟨p4, h4⟩ := tallyChip_eq (0x228 + b2n write) (channelAt (wardOf s wd) addr) (64 * n) (some wd)
      (chargeVault k.slot (if write then 0 else 64 * n) (if write then 64 * n else 0)
        (modPerf (fun _ => p3) (modPerf (fun _ => p2) (modPerf (fun _ => p1) (drawFree s).2))))
    obtain ⟨a, ha⟩ := chargeVault_eq k.slot (if write then 0 else 64 * n) (if write then 64 * n else 0)
      (modPerf (fun _ => p3) (modPerf (fun _ => p2) (modPerf (fun _ => p1) (drawFree s).2)))
    exact ⟨p4, a, s.free + 1, (h4.trans (congrArg (modPerf fun _ => p4) ha)).trans rfl⟩
  · obtain ⟨p3, h3⟩ := tally_eq core 0x029 n (some (whoOf k)) (modPerf (fun _ => p2) (modPerf (fun _ => p1) (drawFree s).2))
    exact ⟨p3, id, s.free + 1, by rw [modAcct_id]; exact h3⟩

/-- A thread that waits for one destination more. -/
def awaiting (d : Dest) (th : Thread) : Thread := { th with pendingDest := alsoPending th d }
/-- A core with one request more, of one of its threads. -/
def requested (t : ThreadRef) (q : VReq) (c : Core) : Core :=
  { c with vreqs := tput c.vreqs (freeKeyFrom c.vreqs 0) q, threads := tmod c.threads t.slot (awaiting q.dest) }
theorem request_eq (t : ThreadRef) (k : Task) {d d' : Dest} (h : (if d = .s 0 then .none else d) = d') (v a : Nat) (s : State) :
    ∃ n, request t k d v a s = vaultTraffic t.core k (taskWard s k) a n false (modCore t.core (requested t (newRequest t k d' v a)) s) := by
  unfold request
  rw [h]
  exact ⟨_, rfl⟩

/-- A state in which nothing has happened but an issue of a thread, which is now `u`, and traffic, requests and copies of its core. -/
structure Reached (t : ThreadRef) (k : Task) (s : State) (u : Thread) (reqs : Table VReq) (copies : Table Copy) (m : State) : Prop where
  state : m = { s with cores := m.cores, ctxs := m.ctxs, perf := m.perf, free := m.free }
  frame : CoreFrame t k s m reqs copies (coreOf s t.core).tex
  thread : threadOf m t = some u

section
variable {t : ThreadRef} {k k' : Task} {s m : State} {th u : Thread} {r : Table VReq} {c : Table Copy}

theorem IssuedTo.reached (h : IssuedTo t k s u m) : Reached t k s u (coreOf s t.core).vreqs (coreOf s t.core).copies m where
  state := by rw [h.frame.1]
  frame := h.frame.2
  thread := h.thread
theorem Reached.traffic (h : Reached t k s u r c m) (hk : k'.slot = k.slot) (core wd addr n : Nat) (write : Bool) :
    Reached t k s u r c (vaultTraffic core k' wd addr n write m) := by
  obtain ⟨p, a, fr, eq⟩ := vaultTraffic_eq core k' wd addr n write m
  rw [eq, hk]
  exact ⟨by rw [h.state]; rfl, (h.frame.modAcct a).congr rfl rfl, h.thread⟩
theorem Reached.modThread (h : Reached t k s u r c m) (g : Thread → Thread) : Reached t k s (g u) r c (Machine.modThread t g m) where
  state := by rw [h.state]; rfl
  frame := h.frame.modThread g
  thread := by rw [threadOf_modThread, if_pos rfl, h.thread]; rfl
theorem Reached.vreqs (h : Reached t k s u r c m) : (coreOf m t.core).vreqs = r := congrArg (·.vreqs) h.frame.core
theorem Reached.copies (h : Reached t k s u r c m) : (coreOf m t.core).copies = c := congrArg (·.copies) h.frame.core
theorem Reached.request (h : Reached t k s u r c m) (hs : k'.slot = k.slot) (hg : k'.gen = k.gen) {d d' : Dest}
    (hd : (if d = .s 0 then .none else d) = d') (v a : Nat) :
    Reached t k s (awaiting d' u) (tput r (freeKeyFrom r 0) (newRequest t k d' v a)) c (request t k' d v a m) := by
  obtain ⟨n, eq⟩ := request_eq t k' hd v a m
  have q : newRequest t k' d' v a = newRequest t k d' v a := by rw [newRequest, hs, hg]; rfl
  rw [eq, q]
  refine .traffic (.mk (by rw [h.state]; rfl) (h.frame.modCore (ths := tmod (coreOf m t.core).threads t.slot (awaiting d')) ?_
    fun j hj => tget_tmod_other _ _ _ _ hj) ?_) hs _ _ _ _ _
  · rw [requested, h.vreqs]
    rw [h.frame.core]
    rfl
  · simp only [threadOf, coreOf_modCore_same, requested, tget_tmod_same]
    rw [show tget (coreOf m t.core).threads t.slot = some u from h.thread]
    rfl

end

@[simp] theorem withStore_gen (s : State) (k : Task) : (withStore s k).gen = k.gen := by rw [withStore_eq]
@[simp] theorem taskWard_withStore (s : State) (k : Task) : taskWard s (withStore s k) = taskWard s k := by simp only [taskWard, withStore_slot]
theorem wardBad_none {s : State} {k : Task} {a n al : Nat} {write : Bool} (h : ctxMapped (wardOf s (taskWard s k)) k.slot a n write = true)
    (hal : a % al = 0) : wardBad s (withStore s k) a n al write = none := by
  rw [wardBad, taskWard_withStore, withStore_slot, h]
  simp [hal]

/-! ## Loads -/

theorem ldSize_le_8 {m : Nat} (h : m ≠ 0) : ldSize m ≤ 8 := by
  unfold ldSize
  rw [if_neg h]
  split <;> [decide; split <;> [decide; split <;> decide]]
theorem toNat_loaded {m : Nat} (hm : m ≠ 0) {b : Bytes} (hb : b.length = ldSize m) : ldValue m b = (loaded m b).toNat := by
  rw [← ofNat_ldValue, BitVec.toNat_ofNat, Nat.mod_eq_of_lt]
  unfold ldValue
  split
  · exact Nat.lt_of_lt_of_eq (by rw [trunc_eq]; exact BitVec.isLt _) rfl
  · calc leNat b < 256 ^ b.length := leNat_lt b
      _ ≤ 256 ^ 8 := Nat.pow_le_pow_right (by decide) (hb ▸ ldSize_le_8 hm)
      _ = 2 ^ 64 := by norm_num

theorem wardLoads_holds : wardLoads := by
  intro t f s th k h hg ok d b
  have dest : (if (if f.mod.toNat = 0 then Dest.v f.dst.toNat else .s f.dst.toNat) = .s 0 then .none
      else if f.mod.toNat = 0 then Dest.v f.dst.toNat else .s f.dst.toNat) = d := by
    simp only [d, mod_eq_zero]
    by_cases hm : f.mod = 0
    · simp [hm]
    · simp only [if_neg hm, Dest.s.injEq]
      exact if_congr (by rw [BitVec.toNat_eq]; rfl) rfl rfl
  have value : ldValue f.mod.toNat b = if f.mod = 0 then leNat b else (loaded f.mod.toNat b).toNat := by
    split
    · next hm => rw [hm]; rfl
    · next hm => exact toNat_loaded ((mod_eq_zero f).not.mpr hm) (wardRead_length ..)
  refine h.gives_on hg (exec_ldw t f s) ?_
  rw [effAddr_eq, wardBad_none ok.1 ok.2, taskWard_withStore, orFault, ← value]
  have reached := (h.issued .me (requestsOf 0x83 f)).reached.request (withStore_slot s k) (withStore_gen s k) dest (ldValue f.mod.toNat b) (address th f)
  exact ⟨reached.state, reached.frame, reached.thread⟩

/-! ## The reply of a request -/

theorem settleThread_running {t : ThreadRef} {s : State} {th : Thread} (h : threadOf s t = some th) (run : th.park = .running) :
    settleThread t s = s := by
  simp only [settleThread, h, run]
/-- A thread whose request has returned. -/
def answered (r : VReq) (th : Thread) : Thread :=
  let th1 := { th with pendingDest := th.pendingDest.erase r.dest }
  match r.dest with
  | .none => th1
  | .s i => wrS i r.value th1
  | .v i => wrV i r.value th1
theorem answered_eq (r : VReq) (th : Thread) : ∃ sr vr, answered r th = { th with s := sr, v := vr, pendingDest := th.pendingDest.erase r.dest } ∧
    (∀ i, scalarIn sr i = if r.dest = .s i ∧ i ≠ 0 then BitVec.ofNat 64 r.value else scalarIn th.s i) ∧
    (∀ i, vr.getD i 0 = if r.dest = .v i then BitVec.ofNat 1024 r.value else th.v.getD i 0) := by
  unfold answered
  cases r.dest with
  | none => exact ⟨th.s, th.v, rfl, fun i => by simp, fun i => by simp⟩
  | s d =>
    refine ⟨_, th.v, wrS_eq .., fun i => ?_, fun i => by simp⟩
    rw [scalarIn_wrS]
    exact if_congr ⟨fun ⟨h0, e⟩ => ⟨e ▸ rfl, h0⟩, fun ⟨e, h0⟩ => ⟨h0, (Dest.s.inj e).symm⟩⟩ rfl rfl
  | v d =>
    refine ⟨th.s, _, rfl, fun i => by simp, fun i => ?_⟩
    refine (getD_wrV d r.value th i).trans ?_
    exact if_congr ⟨fun e => e ▸ rfl, fun e => (Dest.v.inj e).symm⟩ rfl rfl

/-- A state after the reply of a core's request, whose thread runs on. -/
def replied (core req : Nat) (r : VReq) (s : State) : State :=
  modThread { core := core, slot := r.thread } (answered r) (modCore core (fun c => { c with vreqs := tdel c.vreqs req }) s)
theorem threadOf_replied {core req : Nat} {r : VReq} {s : State} {th : Thread} (h : threadOf s { core := core, slot := r.thread } = some th) :
    threadOf (replied core req r s) { core := core, slot := r.thread } = some (answered r th) := by
  rw [replied, threadOf_modThread, if_pos rfl, threadOf, coreOf_modCore_same]
  exact congrArg (Option.map (answered r)) h

theorem vaultReplies_holds : vaultReplies := by
  intro core req s r x th hr hx clean hth run
  obtain ⟨sr, vr, eq, scalars, vectors⟩ := answered_eq r th
  have settled := settleThread_running (threadOf_replied (req := req) hth) (by rw [eq]; exact run)
  refine ⟨replied core req r s, ?_, ?_⟩
  · rw [exec_vaultReply, execVaultReply, hr]
    simp only [need, hx, clean, Bool.false_or, Option.isSome_none, Bool.false_eq_true, if_false]
    exact congrArg _ settled
  · refine ⟨rfl, fun c hc => ?_, ?_, fun j hj => ?_, sr, vr, (threadOf_replied hth).trans (congrArg some eq), scalars, vectors⟩
    · simp only [replied, modThread, coreOf_modCore, if_neg hc]
    · simp only [replied, modThread, coreOf_modCore_same]
    · simp only [replied, modThread, threadOf, coreOf_modCore_same]
      exact tget_tmod_other _ _ _ _ hj

end Sys2Proof.Say
namespace Sys2Proof.Machine
open Sys2Proof.Say

/-- Settles O11: the request of a load holds the value, and its reply writes it to the register that it names. -/
theorem wardLoads : Obligations.WardLoads := ⟨wardLoads_holds, vaultReplies_holds⟩

end Sys2Proof.Machine
end

section
/-!
PROOFS. Stores and atomics of one fabric cycle (05 R199): what each writes to its ward, and which of two stands.
-/
namespace Sys2Proof.Say
open Sys2Proof.Machine

/-! ## Writes to a ward, in order -/

/-- A ward after writes in order. -/
def overwrites (ws : List (Nat × Bytes)) (w : Ward) : Ward := ws.foldl (fun w x => overwrite x.1 x.2 w) w

theorem modWard_modWard (wd : Nat) (f g : Ward → Ward) (s : State) : modWard wd g (modWard wd f s) = modWard wd (fun w => g (f w)) s := by
  simp only [modWard, lmod, List.modify_modify_eq]
  rfl
theorem modWard_id (wd : Nat) (s : State) : modWard wd (fun w => w) s = s := by
  show { s with wards := s.wards.modify wd id } = s
  rw [List.modify_id]
theorem writeAll_eq (wd : Nat) : ∀ (ws : List (Nat × Bytes)) (s : State), writeAll wd ws s = modWard wd (overwrites ws) s
  | [], s => (modWard_id wd s).symm
  | _ :: ws, s => (writeAll_eq wd ws _).trans (modWard_modWard wd _ _ s)
/-- Writes change a ward's bytes and which of its lines are poisoned. -/
theorem overwrites_eq : ∀ (ws : List (Nat × Bytes)) (w : Ward), overwrites ws w =
    { w with mem := ws.foldl (fun m x => Mem.writeN m x.1 x.2) w.mem, poisoned := (overwrites ws w).poisoned }
  | [], _ => rfl
  | x :: ws, w => by
    rw [show overwrites (x :: ws) w = overwrites ws (overwrite x.1 x.2 w) from rfl, overwrites_eq ws]
    rfl
/-- Writes in a writable range show the bytes that they leave in memory. -/
theorem wardByte_overwrites {w : Ward} {slot a n : Nat} {ws : List (Nat × Bytes)} {g : Nat → Option Byte} (hm : ctxMapped w slot a n true = true)
    (left : ∀ x, Mem.read (ws.foldl (fun m x => Mem.writeN m x.1 x.2) w.mem) x = (g x).getD (Mem.read w.mem x))
    (out : ∀ x, ¬ (a ≤ x ∧ x < a + n) → g x = none) (x : Nat) : wardByte (overwrites ws w) x = (g x).getD (wardByte w x) := by
  have same : mappedAlloc (overwrites ws w) x = mappedAlloc w x := by rw [overwrites_eq]; rfl
  have mem : Mem.read (overwrites ws w).mem x = (g x).getD (Mem.read w.mem x) := by rw [overwrites_eq]; exact left x
  simp only [wardByte, same, mem]
  by_cases inside : a ≤ x ∧ x < a + n
  · obtain ⟨y, hy, ok⟩ := mappedAlloc_of_mappedBy hm inside.1 inside.2
    obtain ⟨writable, -⟩ : y.ro = false ∧ allocFor slot y = true := by simpa using ok
    simp only [hy, writable]
    rfl
  · rw [out x inside]
    rfl
/-- A ward with something mapped is one of the chip's. -/
theorem ward_lt_of_mapped {s : State} {wd slot a n : Nat} {write : Bool} (h : ctxMapped (wardOf s wd) slot a n write = true) (hn : 0 < n) :
    wd < s.wards.length := by
  by_contra none_
  obtain ⟨y, hy, -⟩ := mappedAlloc_of_mappedBy h (le_refl a) (by omega)
  have empty : wardOf s wd = {} := by
    rw [wardOf, List.getD_eq_getElem?_getD, List.getElem?_eq_none (by omega)]
    rfl
  rw [empty] at hy
  cases hy

/-! ## The operations of a fabric cycle -/

/-- Where no operation of the cycle on the ward comes after it, an operation takes effect at once. -/
theorem laterOps_of_last {s m : State} {t : ThreadRef} {o : WardOp} (last : LastInCycle s t o.ward) (ops : m.cycleOps = s.cycleOps)
    (now : m.now = s.now) (core : o.core = t.core) (slot : o.slot = t.slot) : laterOps o m = [] := by
  unfold laterOps
  simp only [ops, now]
  refine if_neg fun meets => ?_
  obtain ⟨p, hp, meet⟩ := List.any_eq_true.mp meets
  obtain ⟨mem, cond⟩ := List.mem_filter.mp hp
  obtain ⟨cycle, later⟩ := Bool.and_eq_true _ _ ▸ cond
  have ward : o.ward = p.ward := eq_of_beq (Bool.and_eq_true _ _ ▸ meet : _ ∧ _).1
  have before := last p mem (eq_of_beq cycle) ward.symm
  simp only [opLater, core, slot, Bool.or_eq_true, Bool.and_eq_true, decide_eq_true_eq, beq_iff_eq] at later
  omega
theorem doInCycle_of_last {o : WardOp} {s : State} (h : laterOps o s = []) : ∃ l, doInCycle o s = { (doOp o s).2 with cycleOps := l } := by
  unfold doInCycle
  rw [h]
  exact ⟨_, rfl⟩
theorem doOp_store {o : WardOp} (h : o.atom = none) (s : State) : (doOp o s).2 = modWard o.ward (overwrites o.writes) s := by
  simp only [doOp, h, writeAll_eq]

/-- A state in which an instruction has written to a ward, and nothing else has happened but its issue, its traffic and its request. -/
structure Stored (t : ThreadRef) (k : Task) (s : State) (u : Thread) (reqs : Table VReq) (wd : Nat) (ws : List (Nat × Bytes)) (n : State) : Prop where
  state : n = { s with cores := n.cores, ctxs := n.ctxs, perf := n.perf, free := n.free, wards := n.wards, cycleOps := n.cycleOps }
  frame : CoreFrame t k s n reqs (coreOf s t.core).copies (coreOf s t.core).tex
  thread : threadOf n t = some u
  others : ∀ w, w ≠ wd → wardOf n w = wardOf s w
  ward : wardOf n wd = overwrites ws (wardOf s wd)

section
variable {t : ThreadRef} {k k' : Task} {s m : State} {u : Thread} {r : Table VReq} {wd : Nat} {ws : List (Nat × Bytes)}

theorem Reached.wards (h : Reached t k s u r (coreOf s t.core).copies m) : m.wards = s.wards := by rw [h.state]
theorem Reached.cycleOps (h : Reached t k s u r (coreOf s t.core).copies m) : m.cycleOps = s.cycleOps := by rw [h.state]
theorem Reached.now (h : Reached t k s u r (coreOf s t.core).copies m) : m.now = s.now := by rw [h.state]
theorem Reached.stored (h : Reached t k s u r (coreOf s t.core).copies m) (here : wd < s.wards.length) (ws : List (Nat × Bytes)) (l : List WardOp) :
    Stored t k s u r wd ws { modWard wd (overwrites ws) m with cycleOps := l } where
  state := by rw [h.state]; rfl
  frame := h.frame.congr rfl rfl
  thread := h.thread
  others w hw := (wardOf_modWard_other _ m hw).trans (congrArg (·.getD w {}) h.wards)
  ward := (wardOf_modWard_same _ (by rw [h.wards]; exact here)).trans (congrArg (fun l => overwrites ws (l.getD wd {})) h.wards)
theorem Stored.traffic (h : Stored t k s u r wd ws m) (hk : k'.slot = k.slot) (core v addr n : Nat) (write : Bool) :
    Stored t k s u r wd ws (vaultTraffic core k' v addr n write m) := by
  obtain ⟨p, a, fr, eq⟩ := vaultTraffic_eq core k' v addr n write m
  rw [eq, hk]
  exact ⟨by rw [h.state]; rfl, (h.frame.modAcct a).congr rfl rfl, h.thread, h.others, h.ward⟩
/-- The bytes that a ward shows after writes in a writable range. -/
theorem Stored.shows {slot a n : Nat} {g : Nat → Option Byte} (h : Stored t k s u r wd ws m) (hm : ctxMapped (wardOf s wd) slot a n true = true)
    (left : ∀ x, Mem.read (ws.foldl (fun m x => Mem.writeN m x.1 x.2) (wardOf s wd).mem) x = (g x).getD (Mem.read (wardOf s wd).mem x))
    (out : ∀ x, ¬ (a ≤ x ∧ x < a + n) → g x = none) :
    wardOf m wd = { wardOf s wd with mem := (wardOf m wd).mem, poisoned := (wardOf m wd).poisoned } ∧
      ∀ x, wardByte (wardOf m wd) x = (g x).getD (wardByte (wardOf s wd) x) := by
  rw [h.ward]
  exact ⟨by rw [overwrites_eq], wardByte_overwrites hm left out⟩

end

/-! ## Stores -/

theorem storedByte_outside {th : Thread} {f : KFields} {a x : Nat} (h : ¬ (a ≤ x ∧ x < a + ldSize f.mod.toNat)) : storedByte th f a x = none :=
  if_pos (by omega)

theorem wardStores_holds : wardStores := by
  intro t f s th k h last hg ok wf
  obtain ⟨mapped, aligned⟩ := ok
  have reached := (h.issued .me (if f.mod = 0 then 2 else 1)).reached
  refine h.gives_on hg (exec_stw t f s) ?_
  rw [effAddr_eq, wardBad_none mapped aligned, orFault, taskWard_withStore]
  obtain ⟨l, eq⟩ := doInCycle_of_last (laterOps_of_last (m := Machine.issued 0x84 t f .me (if f.mod = 0 then 2 else 1) th k s)
    (o := { at_ := s.now, ward := taskWard s k, core := t.core, slot := t.slot, writes := (stores th f).map (fun w => (address th f + w.1, w.2)) })
    last reached.cycleOps reached.now rfl rfl)
  rw [eq, doOp_store rfl]
  have done := (reached.stored (ward_lt_of_mapped mapped (ldSize_pos _)) ((stores th f).map (fun w => (address th f + w.1, w.2))) l).traffic
    (withStore_slot s k) t.core (taskWard s k) (address th f) (if f.mod.toNat = 0 then 2 else 1) true
  exact ⟨done.state, done.frame, done.thread, done.others, done.shows mapped (read_stores th f wf _) fun x hx => storedByte_outside hx⟩

/-! ## Two stores of one fabric cycle -/

/-- A store to the same bytes as one that comes after it, whose bytes stand already, changes no byte. -/
theorem Mem.read_undo_redo {m : Mem} (wf : Mem.wf m = true) {a n : Nat} {before new same : Bytes} (h1 : before.length = n) (h2 : new.length = n)
    (h3 : same.length = n) (hs : ∀ i, i < n → same.getD i 0 = Mem.read m (a + i)) (x : Nat) :
    Mem.read (Mem.writeN (Mem.writeN (Mem.writeN m a before) a new) a same) x = Mem.read m x := by
  have wf1 := Mem.writeN_wf before (a := a) wf
  rw [Mem.read_writeN (Mem.writeN_wf new wf1), Mem.read_writeN wf1, Mem.read_writeN wf, h1, h2, h3]
  by_cases inside : a ≤ x ∧ x < a + n
  · rw [if_pos inside, hs _ (by omega), Nat.add_sub_cancel' inside.1]
  · simp only [if_neg inside]

theorem laterOps_one {o p : WardOp} {s : State} (ops : s.cycleOps = [p]) (cycle : p.at_ / 8 = s.now / 8) (later : opLater p o = true)
    (meet : opsMeet o p = true) : laterOps o s = [p] := by
  simp [laterOps, ops, cycle, later, meet]
/-- An operation that another one of its cycle comes after: that one is undone, and done again after it. -/
theorem doInCycle_of_one {o p : WardOp} {s : State} (h : laterOps o s = [p]) :
    ∃ l, doInCycle o s = { (doOp p (doOp o (writeAll p.ward p.before s)).2).2 with cycleOps := l } := by
  unfold doInCycle
  rw [h]
  exact ⟨_, rfl⟩

theorem laterStoresStand_holds : laterStoresStand := by
  intro t f s th k p h hg ok wf mod ops cycle ward atom writes before later
  obtain ⟨mapped, aligned⟩ := ok
  obtain ⟨old, hold, len⟩ : ∃ b, p.before = [(address th f, b)] ∧ b.length = ldSize f.mod.toNat := by
    obtain ⟨⟨x, b⟩, eq, e⟩ := List.map_eq_singleton_iff.mp before
    obtain ⟨rfl, len⟩ := Prod.mk.inj e
    exact ⟨b, eq, len⟩
  have reached := (h.issued .me (if f.mod = 0 then 2 else 1)).reached
  have new : (stores th f).map (fun w => (address th f + w.1, w.2)) = [(address th f, natLe (ldSize f.mod.toNat) (rdS th f.b.toNat))] := by
    rw [stores, if_neg mod]
    rfl
  refine h.gives_on hg (exec_stw t f s) ?_
  rw [effAddr_eq, wardBad_none mapped aligned, orFault, taskWard_withStore, new]
  obtain ⟨l, eq⟩ := doInCycle_of_one (laterOps_one (s := Machine.issued 0x84 t f .me (if f.mod = 0 then 2 else 1) th k s)
    (o := { at_ := s.now, ward := taskWard s k, core := t.core, slot := t.slot,
            writes := [(address th f, natLe (ldSize f.mod.toNat) (rdS th f.b.toNat))] })
    (reached.cycleOps.trans ops) (by rw [reached.now]; exact cycle) (by
      simp only [opLater, Bool.or_eq_true, Bool.and_eq_true, decide_eq_true_eq, beq_iff_eq]
      omega)
    (by
      have := ldSize_pos f.mod.toNat
      simp only [opsMeet, ward, writes, List.any_cons, List.any_nil, natLe_length, wardRead_length, beq_self_eq_true, Bool.or_false,
        Bool.true_and, Bool.and_eq_true, decide_eq_true_eq]
      omega))
  rw [eq, doOp_store atom, doOp_store rfl, writeAll_eq, ward, hold, writes, modWard_modWard, modWard_modWard]
  have done := (reached.stored (ward_lt_of_mapped mapped (ldSize_pos _)) [(address th f, old),
    (address th f, natLe (ldSize f.mod.toNat) (rdS th f.b.toNat)),
    (address th f, wardRead (wardOf s (taskWard s k)) (address th f) (ldSize f.mod.toNat))] l).traffic
    (withStore_slot s k) t.core (taskWard s k) (address th f) (if f.mod.toNat = 0 then 2 else 1) true
  refine ⟨done.thread, (done.shows (g := fun _ => none) mapped (fun x => ?_) fun _ _ => rfl).2⟩
  refine Mem.read_undo_redo wf len (natLe_length ..) (wardRead_length ..) (fun i hi => ?_) x
  obtain ⟨y, hy, ro⟩ := mappedAlloc_of_mappedBy mapped (Nat.le_add_right _ i) (Nat.add_lt_add_left hi _)
  obtain ⟨writable, -⟩ : y.ro = false ∧ allocFor k.slot y = true := by simpa using ro
  rw [wardRead_getD _ _ _ hi]
  simp [wardByte, hy, writable]

end Sys2Proof.Say
namespace Sys2Proof.Machine
open Sys2Proof.Say

/-- Settles O9: an operation that is the last of its fabric cycle takes effect at once, and one that another comes after is followed by that
one once more. -/
theorem wardStores : Obligations.WardStores := ⟨wardStores_holds, laterStoresStand_holds⟩

end Sys2Proof.Machine
namespace Sys2Proof.Say
open Sys2Proof.Machine

/-! ## Atomics -/

theorem tmod_tput {α : Type} (q : Table α) (i : Nat) (v : α) (g : α → α) : tmod (tput q i v) i g = tput q i (g v) := by
  induction q with
  | nil => simp [tput, tmod]
  | cons x q ih =>
    obtain ⟨j, y⟩ := x
    simp only [tput]
    split
    · simp [tmod]
    · next h => split <;> simp_all [tmod]

/-- The request of an atomic, with the value that it returns. -/
def returning (v : Nat) (r : VReq) : VReq := { r with value := v }
theorem Reached.modRequest {t : ThreadRef} {k : Task} {s m : State} {u : Thread} {r : Table VReq} {c : Table Copy} (h : Reached t k s u r c m)
    (req : Nat) (g : VReq → VReq) : Reached t k s u (tmod r req g) c (modCore t.core (fun c => { c with vreqs := tmod c.vreqs req g }) m) where
  state := by rw [h.state]; rfl
  frame := h.frame.modCore (by rw [h.vreqs, h.frame.core]) fun _ _ => rfl
  thread := by simp only [threadOf, coreOf_modCore_same]; exact h.thread

theorem s32_toNat (x : U32) : s32 x.toNat = x.toInt := by rw [s32_eq, intOf, BitVec.ofNat_toNat, BitVec.setWidth_eq]
theorem ofNat_atomNew (m : Nat) (x y z : U32) : BitVec.ofNat 32 (atomNew m x.toNat y.toNat z.toNat) = atomValue m x y z := by
  have le (u v : U32) : s32 u.toNat ≤ s32 v.toNat ↔ u.sle v = true := by rw [s32_toNat, s32_toNat, BitVec.sle_iff_toInt_le]
  have eq (u v : U32) : u.toNat = v.toNat ↔ u = v := BitVec.toNat_inj
  unfold atomNew atomValue
  simp only [le, eq, apply_ite (BitVec.ofNat 32), BitVec.ofNat_toNat, BitVec.setWidth_eq, BitVec.ofNat_or, BitVec.ofNat_and]
  refine if_congr Iff.rfl ?_ rfl
  exact BitVec.eq_of_toNat_eq (by simp)
/-- Byte i of a number of 32 bits. -/
theorem natLe_getD_32 (v : Nat) {i : Nat} (h : i < 4) : (natLe 4 v).getD i 0 = (BitVec.ofNat 32 v).extractLsb' (8 * i) 8 := by
  have low : lane 8 (v % 2 ^ 32) i = lane 8 v i := by
    rw [lane, lane, show 2 ^ 32 = 2 ^ (8 * i) * 2 ^ (32 - 8 * i) by rw [← Nat.pow_add]; congr 1; omega, Nat.mod_mul_right_div_self,
      Nat.mod_mod_of_dvd _ (Nat.pow_dvd_pow 2 (by omega))]
  rw [natLe_getD 4 v h, ← ofNat_lane_8, BitVec.toNat_ofNat, low]

theorem leNat_wardRead (w : Ward) (a : Nat) : leNat (wardRead w a 4) = (BitVec.ofNat 32 (leNat (wardRead w a 4))).toNat := by
  have := leNat_lt (wardRead w a 4)
  rw [wardRead_length] at this
  exact (Nat.mod_eq_of_lt this).symm
theorem doOp_atom {o : WardOp} {m y z req a : Nat} {s : State} (h : o.atom = some (m, y, z, req)) (hw : o.writes = [(a, [0, 0, 0, 0])]) :
    (doOp o s).2 = modWard o.ward (overwrites [(a, natLe 4 (atomNew m (leNat (wardRead (wardOf s o.ward) a 4)) y z))])
      (modCore o.core (fun c => { c with vreqs := tmod c.vreqs req (returning (leNat (wardRead (wardOf s o.ward) a 4))) }) s) := by
  simp only [doOp, h, hw, writeAll_eq]
  rfl

end Sys2Proof.Say
namespace Sys2Proof.Machine
open Sys2Proof.Say

/-- Settles O10: an atomic that is the last of its fabric cycle stores its operation of the value that stands there, which its request
returns. -/
theorem atomics : Obligations.Atomics := by
  intro t f s th k h hg last a w mapped aligned wf old d
  have dest : (if (Dest.s f.dst.toNat) = .s 0 then .none else .s f.dst.toNat) = d := by
    simp only [d, Dest.s.injEq]
    exact if_congr (by rw [BitVec.toNat_eq]; rfl) rfl rfl
  have base := (h.issued .me 1).reached
  have pre := ((base.traffic (withStore_slot s k) t.core (taskWard s k) a 1 true).modThread
    (fun x => { x with irrevocable := true })).request (withStore_slot s k) (withStore_gen s k) dest 0 a
  refine h.gives_on hg (exec_atom t f s) ?_
  dsimp only
  have operand (i : Nat) : rdS th i % 2 ^ 32 = (lo (scalarIn th.s i)).toNat := by rw [rdS_eq, lo, BitVec.toNat_setWidth]
  rw [show rdS th f.a.toNat = a from rdS_eq th _, wardBad_none mapped aligned, orFault, taskWard_withStore, base.vreqs, operand, operand]
  obtain ⟨l, eq⟩ := doInCycle_of_last (laterOps_of_last
    (o := { at_ := s.now, ward := taskWard s k, core := t.core, slot := t.slot, writes := [(a, [0, 0, 0, 0])],
            atom := some (f.mod.toNat, (lo (sB th f)).toNat, (lo (sC th f)).toNat, freeKeyFrom (coreOf s t.core).vreqs 0) })
    last pre.cycleOps pre.now rfl rfl)
  have ward : wardOf _ (taskWard s k) = w := congrArg (·.getD (taskWard s k) {}) pre.wards
  rw [show scalarIn th.s f.b.toNat = sB th f from rfl, show scalarIn th.s f.c.toNat = sC th f from rfl, eq, doOp_atom rfl rfl, ward,
    leNat_wardRead]
  have done := (pre.modRequest (freeKeyFrom (coreOf s t.core).vreqs 0) (returning old.toNat)).stored (ward_lt_of_mapped mapped (by decide))
    [(a, natLe 4 (atomNew f.mod.toNat old.toNat (lo (sB th f)).toNat (lo (sC th f)).toNat))] l
  rw [tmod_tput] at done
  have shows := done.shows (g := fun x => if a ≤ x ∧ x < a + 4
    then some ((atomValue f.mod.toNat old (lo (sB th f)) (lo (sC th f))).extractLsb' (8 * (x - a)) 8) else none) mapped
    (fun x => ?_) (fun x hx => if_neg hx)
  · refine ⟨done.state, done.frame, done.thread, done.others, shows.1, fun x => (shows.2 x).trans ?_⟩
    split <;> rfl
  · rw [List.foldl_cons, List.foldl_nil, Mem.read_writeN wf, natLe_length]
    split
    · next inside => rw [natLe_getD_32 _ (by omega), ofNat_atomNew]; rfl
    · rfl

end Sys2Proof.Machine
end

section
/-!
PROOFS. Teardowns (10 R365, R376; 12 R432): the messages and the hasps of a teardown leave every context, and a fault tears a live one down.
-/
namespace Sys2Proof.Say
open Sys2Proof.Machine

/-! ## Messages and hasps -/

/-- Nothing but the hasps, the threads that wait for them, the hinge and the counters may differ. -/
def HaspSide (s n : State) : Prop := n = { s with cores := n.cores, hasps := n.hasps, hinge := n.hinge, perf := n.perf }

section
variable {s m n : State}

theorem HaspSide.refl (s : State) : HaspSide s s := rfl
theorem HaspSide.trans (a : HaspSide s m) (b : HaspSide m n) : HaspSide s n := by
  unfold HaspSide at *
  rw [b, a]
theorem HaspSide.foldl {α : Type} {g : State → α → State} (hg : ∀ s a, HaspSide s (g s a)) (l : List α) (s : State) : HaspSide s (l.foldl g s) :=
  List.foldlRecOn l g (.refl s) (fun _ h a _ => h.trans (hg _ a))
theorem HaspSide.ctxs (h : HaspSide s n) : n.ctxs = s.ctxs := by rw [h]
theorem HaspSide.slots (h : HaspSide s n) : n.slots = s.slots := by rw [h]
theorem HaspSide.tasks (h : HaspSide s n) : n.tasks = s.tasks := by rw [h]
theorem HaspSide.wards (h : HaspSide s n) : n.wards = s.wards := by rw [h]

end

/-- A message changes the hinge and the counters. -/
def HingeSide (s n : State) : Prop := n = { s with hinge := n.hinge, perf := n.perf }
theorem HingeSide.refl (s : State) : HingeSide s s := rfl
theorem HingeSide.trans {s m n : State} (a : HingeSide s m) (b : HingeSide m n) : HingeSide s n := by
  unfold HingeSide at *
  rw [b, a]
theorem HingeSide.foldl {α : Type} {g : State → α → State} (hg : ∀ s a, HingeSide s (g s a)) (l : List α) (s : State) : HingeSide s (l.foldl g s) :=
  List.foldlRecOn l g (.refl s) (fun _ h a _ => h.trans (hg _ a))
theorem HingeSide.haspSide {s n : State} (h : HingeSide s n) : HaspSide s n := by
  unfold HaspSide
  rw [h]

theorem tallyChip_hingeSide (ev u n : Nat) (w : Option Nat) (s : State) : HingeSide s (tallyChip ev u n w s) := by
  obtain ⟨p, h⟩ := tallyChip_eq ev u n w s
  exact h ▸ rfl
theorem sendPort_hingeSide (p : Nat) (g : Port → Port) (s : State) : HingeSide s (sendPort p g s) := by
  have port : HingeSide s (modPort p (fun _ => { g (portOf s p) with sent := [], again := 0 }) s) := rfl
  exact (port.trans (tallyChip_hingeSide ..)).trans (.foldl (fun _ _ => tallyChip_hingeSide ..) _ _)
theorem sendFor_hingeSide (w : Option Nat) (ty cls status dest tag : Nat) (payload : Bytes) (op : Nat) (s : State) :
    HingeSide s (sendFor w ty cls status dest tag payload op s) := by
  unfold sendFor sendMsg
  split
  · unfold queueAt
    simp only [Option.getD_some]
    split
    · exact rfl
    · exact sendPort_hingeSide _ _ s
  · exact .refl s
theorem replyTo_hingeSide (dev tag op status : Nat) (s : State) : HingeSide s (replyTo dev tag op status s) := sendFor_hingeSide ..
theorem sendGone_hingeSide (slot : Nat) (x : Ctx) (s : State) : HingeSide s (sendGone slot x s) :=
  .foldl (fun _ _ => sendFor_hingeSide ..) _ s
theorem goneWaiters_hingeSide (x : Ctx) (s : State) : HingeSide s (goneWaiters x s) := by
  refine .foldl (fun s w => ?_) _ s
  split
  · exact replyTo_hingeSide ..
  · exact .refl s

theorem modHasp_haspSide (id : Nat) (g : Hasp → Hasp) (s : State) : HaspSide s (modHasp id g s) := rfl
theorem modThread_haspSide (t : ThreadRef) (g : Thread → Thread) (s : State) : HaspSide s (modThread t g s) := rfl
theorem serveWaiter_haspSide (id : Nat) (w : Waiter) (s : State) : HaspSide s (serveWaiter id w s) := by
  unfold serveWaiter
  split
  · exact rfl
  · exact HaspSide.trans (m := modHasp id _ (modHasp id _ s)) rfl (replyTo_hingeSide ..).haspSide
theorem haspServe_haspSide (id : Nat) : ∀ (fuel : Nat) (s : State), HaspSide s (haspServe id fuel s)
  | 0, s => .refl s
  | fuel + 1, s => by
    unfold haspServe
    split
    · exact .refl s
    · split
      · exact .refl s
      · exact (serveWaiter_haspSide ..).trans (haspServe_haspSide id fuel _)
theorem haspReap_haspSide (id : Nat) (s : State) : HaspSide s (haspReap id s) := by
  unfold haspReap
  split
  · split <;> exact rfl
  · exact .refl s
theorem haspDropCtx_haspSide (slot id : Nat) (s : State) : HaspSide s (haspDropCtx slot id s) := by
  unfold haspDropCtx
  split
  · exact .refl s
  · refine (((HaspSide.foldl (fun s w => ?_) _ s).trans (modHasp_haspSide ..)).trans (haspServe_haspSide ..)).trans (haspReap_haspSide ..)
    split
    · exact (replyTo_hingeSide ..).haspSide
    · exact .refl s
/-- What a teardown does to the hasps, and the messages that it sends, change no context. -/
theorem haspTeardown_haspSide (slot : Nat) (s : State) : HaspSide s (haspTeardown slot s) :=
  .foldl (fun s (x : Nat × Hasp) => haspDropCtx_haspSide slot x.1 s) _ s

/-! ## Faults -/

theorem fault_of_stopped {slot : Nat} {m : State} {x : Ctx} {r : FaultReport} (g : Ctx → Ctx) (h : ctxOf m slot = some x) :
    (ctxOf (modCtx slot (fun c => ctxStopped r (g c)) m) slot).bind (·.fault) = some r := by
  rw [ctxOf_modCtx, if_pos rfl, h]
  rfl
/-- A fault tears a live context down with its report. -/
theorem tornDown_faultOn {slot : Nat} {s : State} (core code reason : Nat) (detail : Bytes) (live : (slotOf s slot).state = .live)
    (ctx : (ctxOf s slot).isSome = true) : TornDown (faultOn core slot code reason detail s) slot code reason := by
  have told : HaspSide s (goneWaiters ((ctxOf s slot).getD {}) (sendGone slot ((ctxOf s slot).getD {}) (haspTeardown slot s))) :=
    ((haspTeardown_haspSide slot s).trans (sendGone_hingeSide ..).haspSide).trans (goneWaiters_hingeSide ..).haspSide
  obtain ⟨x, hx⟩ := Option.isSome_iff_exists.mp ctx
  have stays : ctxOf (goneWaiters ((ctxOf s slot).getD {}) (sendGone slot ((ctxOf s slot).getD {}) (haspTeardown slot s))) slot = some x :=
    (congrArg (tget · slot) told.ctxs).trans hx
  unfold faultOn startTeardown
  rw [if_neg (by rw [live]; decide), if_neg (by rw [live]; decide)]
  constructor
  · simp only [slotOf, modSlot, tgetD, tget_tput_same, Option.getD_some]
  · exact congrArg (Option.map fun r => (r.code, r.reason, r.isFault)) (fault_of_stopped (fun c => { c with ring := untail s.now c.ring }) stays)
theorem kernelFault_eq (th : Thread) (k : Task) (reason addr : Nat) (s : State) :
    ∃ detail, kernelFault th k reason addr s = faultOn k.core k.slot kKernelFault reason detail s := ⟨_, rfl⟩
/-- A KERNEL_FAULT tears the context of the thread's task down. -/
theorem tornDown_kernelFault {k : Task} {s : State} (th : Thread) (reason addr : Nat) (live : (slotOf s k.slot).state = .live)
    (ctx : (ctxOf s k.slot).isSome = true) : TornDown (kernelFault th k reason addr s) k.slot 0x10 reason := by
  obtain ⟨detail, eq⟩ := kernelFault_eq th k reason addr s
  rw [eq]
  exact tornDown_faultOn _ _ _ _ live ctx
/-- An uncorrectable error tears the context down, and is counted. -/
theorem tornDown_uncorrectable {slot : Nat} {s : State} (reason addr core : Nat) (live : (slotOf s slot).state = .live)
    (ctx : (ctxOf s slot).isSome = true) : TornDown (uncorrectable slot reason addr core s) slot 0x09 reason := by
  unfold uncorrectable
  dsimp only
  rw [if_pos live]
  exact tornDown_faultOn _ _ _ _ live ctx

end Sys2Proof.Say
end

section
/-!
PROOFS. Copies (05 R211): what MCOPY begins, and what MCOPY_COMPLETE writes.
-/
namespace Sys2Proof.Say
open Sys2Proof.Machine

/-! ## A copy begins -/

/-- A core with one copy more. -/
def withCopyOf (q : Copy) (c : Core) : Core := { c with copies := tput c.copies (freeKeyFrom c.copies 0) q }

section
variable {t : ThreadRef} {k k' : Task} {s m : State} {u : Thread} {r : Table VReq} {c : Table Copy}

theorem CoreFrame.ward {x : List (Nat × Bytes)} (h : CoreFrame t k s m r c x) : taskWard m k = taskWard s k := by
  have same := congrArg (Option.map Ctx.ward) h.ctx
  rw [Option.map_map, Option.map_map] at same
  exact congrArg (Option.getD · 0) same
theorem Reached.beginCopy (h : Reached t k s u r c m) (hs : k'.slot = k.slot) (hg : k'.gen = k.gen) (a : Nat) (wardW storeW : List (Nat × Bytes))
    {reads : List (Nat × Nat)} (sound : ∀ q ∈ reads, poisonIn (wardOf s (taskWard s k)) q.1 q.2 = none) :
    Reached t k s u r (tput c (freeKeyFrom c 0)
      { thread := t.slot, slot := k.slot, gen := k.gen, ward := taskWard s k, wardWrites := wardW, storeWrites := storeW })
      (Machine.beginCopy t k' a wardW storeW reads m) := by
  have ward : taskWard m k' = taskWard s k := by rw [← h.frame.ward, taskWard, taskWard, hs]
  have wards : wardOf m (taskWard s k) = wardOf s (taskWard s k) := by rw [h.state]; rfl
  have clean : reads.findSome? (fun q => poisonIn (wardOf s (taskWard s k)) q.1 q.2) = none := List.findSome?_eq_none_iff.mpr sound
  have begun : Reached t k s u r (tput c (freeKeyFrom c 0)
      { thread := t.slot, slot := k.slot, gen := k.gen, ward := taskWard s k, wardWrites := wardW, storeWrites := storeW })
      (modCore t.core (withCopyOf { thread := t.slot, slot := k.slot, gen := k.gen, ward := taskWard s k, wardWrites := wardW, storeWrites := storeW }) m) :=
    ⟨by rw [h.state]; rfl, h.frame.modCore (by rw [withCopyOf, h.copies, h.frame.core]) (fun _ _ => rfl),
      by simp only [threadOf, coreOf_modCore_same]; exact h.thread⟩
  unfold Machine.beginCopy
  rw [ward, wards, clean, hs, hg]
  exact (begun.traffic hs _ _ _ _ _).traffic hs _ _ _ _ _

end

theorem toNat_mod {f : KFields} {v : BitVec 4} (h : f.mod = v) : f.mod.toNat = v.toNat := by rw [h]
theorem isBs4_eq (f : KFields) : (f.mod.toNat == 3 || f.mod.toNat == 5) = decide (f.mod = 3 ∨ f.mod = 5) := by
  rw [Bool.eq_iff_iff]
  simp [BitVec.toNat_eq]

/-- An instruction whose guard bit 0 is 1, once it is known what its effect makes of the issued state. -/
theorem MayIssue.gives_eq {op : Nat} {t : ThreadRef} {f : KFields} {s : State} {th : Thread} {k : Task} (h : MayIssue op t f s th k)
    (hg : guardBit th f 0 = true) {i : Instr} {e : Engine} {n : Nat} {body : Thread → Task → State → State} {x : State} {P : State → Prop}
    (hi : exec i s = issue op t f e n s (fun th k m => if !guard0 th f then m else body th k m))
    (he : body th (withStore s k) (Machine.issued op t f e n th k s) = x) (hP : P x) : Gives i s P :=
  h.gives_on hg hi (by rw [he]; exact hP)

theorem copiesBegin_holds : copiesBegin := by
  intro t f s th k h hg kk wd begins a b c
  have begun : ∀ x ww sw reads, (∀ q ∈ reads, poisonIn (wardOf s wd) q.1 q.2 = none) →
      Reached t k s (stepped s t th) (coreOf s t.core).vreqs
        (withCopy s t { thread := t.slot, slot := k.slot, gen := k.gen, ward := wd, wardWrites := ww, storeWrites := sw })
        (beginCopy t kk x ww sw reads (Machine.issued 0x86 t f .me 1 th k s)) := fun x ww sw reads sound =>
    (h.issued .me 1).reached.beginCopy (withStore_slot s k) (withStore_gen s k) x ww sw sound
  have begins_of {ww sw n} (r : Reached t k s (stepped s t th) (coreOf s t.core).vreqs
        (withCopy s t { thread := t.slot, slot := k.slot, gen := k.gen, ward := wd, wardWrites := ww, storeWrites := sw }) n) :=
    And.intro r.state (And.intro r.frame r.thread)
  have none_ : ∀ q ∈ ([] : List (Nat × Nat)), poisonIn (wardOf s wd) q.1 q.2 = none := fun _ hq => absurd hq List.not_mem_nil
  have ra : rdS th f.a.toNat = a := rdS_eq th _
  have rb : rdS th f.b.toNat = b := rdS_eq th _
  have rc : rdS th f.c.toNat = c := rdS_eq th _
  refine ⟨fun e hc ha hb inside mapped sound => ?load, fun e hc ha hb inside mapped => ?store, ?blocks⟩
  case load =>
    have hm : f.mod.toNat = 0 := toNat_mod e
    refine h.gives_eq hg (exec_mcopy t f s) ?_ (begins_of (begun a [] _ [(a, c)] (by simpa using sound)))
    simp [hm, ra, rb, rc, hc, storeBad_none inside hb, wardBad_none mapped ha, orFault, kk, wd]
  case store =>
    have hm : f.mod.toNat = 1 := toNat_mod e
    refine h.gives_eq hg (exec_mcopy t f s) ?_ (begins_of (begun b _ [] [] none_))
    simp [hm, ra, rb, rc, hc, storeBad_none inside ha, wardBad_none mapped hb, orFault, kk]
  case blocks =>
    intro d bs4
    have wide (e : 2 ≤ f.mod.toNat) : ¬ f.mod.toNat ≤ 1 := by omega
    have fits (h : a + 32 ≤ kk.size) : storeIn (withStore s k) a 32 = true := (storeIn_iff kk a 32).mpr h
    have desc : copyDesc (storeRead (withStore s k) a 32) = d := rfl
    have form : decide (f.mod = 3 ∨ f.mod = 5) = bs4 := rfl
    refine ⟨fun e inside ok good straight sound => ?unpack, fun e inside ok good => ?pack⟩
    case unpack =>
      have hm : f.mod.toNat = 2 ∨ f.mod.toNat = 3 := e.imp toNat_mod toNat_mod
      refine h.gives_eq hg (exec_mcopy t f s) ?_ (begins_of (begun d.data [] _ (unpackReads bs4 d) sound))
      simp only [ra, isBs4_eq, if_neg (wide (by omega)), fits inside, desc, form, ok, if_pos (show f.mod.toNat ≤ 3 by omega), Bool.not_true,
        Bool.false_eq_true, if_false, show blockCopyBad s (withStore s k) bs4 false d = none from good, taskWard_withStore, wd,
        show skewOf (wardOf s (taskWard s k)) bs4 d = none from straight, kk]
    case pack =>
      have hm : f.mod.toNat = 4 ∨ f.mod.toNat = 5 := e.imp toNat_mod toNat_mod
      refine h.gives_eq hg (exec_mcopy t f s) ?_ (begins_of (begun d.data _ [] [] none_))
      simp only [ra, isBs4_eq, if_neg (wide (by omega)), fits inside, desc, form, ok, if_neg (show ¬ f.mod.toNat ≤ 3 by omega), Bool.not_true,
        Bool.false_eq_true, if_false, show blockCopyBad s (withStore s k) bs4 true d = none from good, orFault, kk]

/-! ## A copy completes -/

/-- A state after a copy's bytes are written, to ward memory and to the core store of a task from an address on. -/
def copied (core copy : Nat) (c : Copy) (id base : Nat) (s : State) : State :=
  modTask id (withWrites base c.storeWrites) (modWard c.ward (overwrites c.wardWrites) (modCore core (fun x => { x with copies := tdel x.copies copy }) s))

section
variable {core copy id base : Nat} {s : State} {c : Copy} {x : Ctx} {th : Thread} {o : Task}

theorem coreOf_copied (d : Nat) : coreOf (copied core copy c id base s) d =
    if d = core then { coreOf s core with copies := tdel (coreOf s core).copies copy } else coreOf s d :=
  (coreOf_congr (m := modCore core (fun x => { x with copies := tdel x.copies copy }) s) rfl d).trans (coreOf_modCore ..)
theorem threadOf_copied (t : ThreadRef) : threadOf (copied core copy c id base s) t = threadOf s t := by
  rw [threadOf, coreOf_copied]
  split
  · next e => rw [threadOf, e]
  · rfl
theorem exec_mcopyComplete_written (hc : tget (coreOf s core).copies copy = some c) (hx : namedCtx s c.slot c.gen = some x)
    (ht : threadOf s { core := core, slot := c.thread } = some th) (run : th.park = .running) (sound : c.spoiled = none)
    (ho : tget s.tasks th.task = some o)
    (writes : ∀ w ∈ c.storeWrites, ∀ {m}, Shaped th.task o m → storeWrite th.task w.1 w.2 m = modTask id (withWrites base [w]) m) :
    exec (.mcopyComplete core copy) s = .next (copied core copy c id base s) := by
  have stored := foldl_storeWrite c.storeWrites
    (s := modWard c.ward (overwrites c.wardWrites) (modCore core (fun x => { x with copies := tdel x.copies copy }) s)) (.of ho) writes
  rw [exec_mcopyComplete, execMcopyComplete, hc]
  simp only [need, hx, ht, sound]
  rw [show c.wardWrites.foldl (fun s w => wardWrite c.ward w.1 w.2 s) _ = writeAll c.ward c.wardWrites _ from rfl, writeAll_eq, stored]
  exact congrArg _ (settleThread_running ((threadOf_copied _).trans ht) run)

end

theorem copiesComplete_holds : copiesComplete := by
  intro core copy s c x th o hc hx ht ho completes
  have written : ∀ id base q, tget s.tasks id = some q →
      (∀ w ∈ c.storeWrites, ∀ {m}, Shaped th.task o m → storeWrite th.task w.1 w.2 m = modTask id (withWrites base [w]) m) →
      completes id base q := by
    intro id base q hq writes sound run here
    refine ⟨_, exec_mcopyComplete_written hc hx ht run sound ho writes, rfl, fun d hd => ?_, ?_, fun w hw => ?_, ?_, fun i hi => ?_, ?_⟩
    · exact (coreOf_copied d).trans (if_neg hd)
    · exact (coreOf_copied core).trans (if_pos rfl)
    · exact wardOf_modWard_other _ _ hw
    · have ward : wardOf (copied core copy c id base s) c.ward = overwrites c.wardWrites (wardOf s c.ward) :=
        wardOf_modWard_same (s := modCore core (fun x => { x with copies := tdel x.copies copy }) s) _ here
      rw [ward]
      exact overwrites_eq ..
    · exact tget_tmod_other _ _ _ _ hi
    · refine (tget_tmod_same ..).trans ?_
      exact congrArg (Option.map (withWrites base c.storeWrites)) hq
  refine ⟨fun own => written _ 0 o ho fun w hw _ hs => storeWrite_own hs fun b p e => own b p e w hw,
    fun b p q hk above _ hq => written p o.size q hq fun w hw _ hs => storeWrite_planes hs hk (above w hw), fun l hl live ctx => ?_⟩
  refine ⟨_, ?_, tornDown_uncorrectable (s := modCore core (fun x => { x with copies := tdel x.copies copy }) s) 0x01 l core live ctx⟩
  rw [exec_mcopyComplete, execMcopyComplete, hc]
  simp only [need, hx, ht, hl]

end Sys2Proof.Say
namespace Sys2Proof.Machine
open Sys2Proof.Say

/-- Settles O12: a copy holds from its issue what it writes when it completes. -/
theorem copies : Obligations.Copies := ⟨copiesBegin_holds, copiesComplete_holds⟩

end Sys2Proof.Machine
end

section
/-!
PROOFS. Threads that wait and threads that end (05 R187, R193, R196–R198): parking, what frees a parked thread, fences and END.
-/
namespace Sys2Proof.Say
open Sys2Proof.Machine

/-! ## What an issue leaves of a thread's outstanding work -/

section
variable {t : ThreadRef} {k : Task} {s m : State} {u th : Thread}

theorem IssuedTo.copies (h : IssuedTo t k s u m) : (coreOf m t.core).copies = (coreOf s t.core).copies := congrArg (·.copies) h.frame.2.core
theorem IssuedTo.vreqs (h : IssuedTo t k s u m) : (coreOf m t.core).vreqs = (coreOf s t.core).vreqs := congrArg (·.vreqs) h.frame.2.core
theorem IssuedTo.copiesOf (h : IssuedTo t k s u m) : Machine.copiesOf m t = Machine.copiesOf s t := by
  rw [Machine.copiesOf, h.copies]
  rfl
theorem IssuedTo.requestsLeft (h : IssuedTo t k s u m) : Machine.requestsLeft m t = Machine.requestsLeft s t := by
  rw [Machine.requestsLeft, h.vreqs]
  rfl
theorem IssuedTo.recordOf (h : IssuedTo t k s u m) : Machine.recordOf m t = Machine.recordOf s t := by
  rw [Machine.recordOf, h.frame.1]
  rfl
theorem IssuedTo.tasks (h : IssuedTo t k s u m) : m.tasks = s.tasks := by rw [h.frame.1]
theorem IssuedTo.now (h : IssuedTo t k s u m) : m.now = s.now := by rw [h.frame.1]
theorem IssuedTo.dropTex (h : IssuedTo t k s u m) :
    CoreFrame t k s (modCore t.core (fun c => { c with tex := [] }) m) (coreOf s t.core).vreqs (coreOf s t.core).copies [] :=
  h.frame.2.modCore (by rw [h.frame.2.core]) fun _ _ => rfl
/-- A thread that parks at its issue. -/
theorem IssuedTo.park (h : IssuedTo t k s (stepped s t th) m) (p : Park) (held : Option Held) :
    IssuedTo t k s (parked s t th p held) (parkThread t p held m) := by
  have parks := h.modThread (fun x => { x with park := p, parkedAt := m.now, held := held })
  have eq : Say.parked s t th p held = { stepped s t th with park := p, parkedAt := m.now, held := held } := by rw [h.now]; rfl
  rw [eq]
  exact parks

end

/-! ## Threads that run again -/

/-- Let the threads that satisfy a test run again. -/
def runAgain (ready : Thread → Bool) (th : Thread) : Thread := if ready th then { th with park := .running } else th
def wakeCore (ready : Thread → Bool) (c : Core) : Core := { c with threads := c.threads.map (fun t => (t.1, runAgain ready t.2)) }
def wakeIf (ready : Thread → Bool) (s : State) : State := { s with cores := s.cores.map (fun c => (c.1, wakeCore ready c.2)) }

theorem coreOf_wakeIf (ready : Thread → Bool) (s : State) (c : Nat) : coreOf (wakeIf ready s) c = wakeCore ready (coreOf s c) := by
  rw [coreOf, tgetD, show (wakeIf ready s).cores = s.cores.map (fun c => (c.1, wakeCore ready c.2)) from rfl,
    tget_map s.cores (fun _ => wakeCore ready) c, coreOf, tgetD]
  cases tget s.cores c <;> rfl
theorem threadOf_wakeIf (ready : Thread → Bool) (s : State) (t : ThreadRef) : threadOf (wakeIf ready s) t = (threadOf s t).map (runAgain ready) := by
  rw [threadOf, coreOf_wakeIf]
  exact tget_map _ (fun _ => runAgain ready) _
theorem wakeLatch_eq (staging : Bool) (i : Nat) (mine : Nat → Bool) (s : State) :
    wakeLatch staging i mine s = wakeIf (fun th => th.park == .latch staging i && mine th.task) s := rfl
/-- A thread that waits for pixels of its BLEND task goes on: every lower fragment at them is released (05 R205). -/
def pixelsReady (slot : Nat) (s : State) (th : Thread) : Bool :=
  match th.park, tget s.tasks th.task, ctxOf s slot with
  | .pixels key px, some k, some x =>
    (match k.kind, frameOfTask x k with
    | .blend b _, some f => k.slot == slot && lowerReleased s slot f b key px
    | _, _ => false)
  | _, _, _ => false
theorem wakePixels_eq (slot : Nat) (s : State) : wakePixels slot s = wakeIf (pixelsReady slot s) s := rfl
theorem pixelsReady_parked {slot : Nat} {s : State} {th : Thread} (h : pixelsReady slot s th = true) : ∃ key px, th.park = .pixels key px := by
  unfold pixelsReady at h
  split at h
  · next key px _ _ hp _ _ => exact ⟨key, px, hp⟩
  · cases h
theorem runAgain_of_not {ready : Thread → Bool} {th : Thread} (h : ready th = false) : runAgain ready th = th := by rw [runAgain, h]; rfl

/-! ## WAITC and FENCE -/

theorem fenceMet_iff (s : State) (t : ThreadRef) (f : KFields) : fenceMet s t f.imm.toNat = true ↔
    (f.imm.getLsbD 1 = true → requestsLeft s t = 0) ∧ (f.imm.getLsbD 3 = true → copiesOf s t = 0) := by
  simp only [fenceMet, ← BitVec.testBit_toNat, Bool.and_eq_true, Bool.or_eq_true, Bool.not_eq_true', beq_iff_eq, Bool.eq_false_iff, ne_eq,
    imp_iff_not_or]
theorem exec_waitc_parks (t : ThreadRef) (f : KFields) (s : State) : exec (.waitc t f) s = issue 0x87 t f .none 0 s (fun th _ m =>
    if guard0 th f && decide (f.imm.toNat < copiesOf m t) then parkThread t (.copies f.imm.toNat) none m else m) := rfl

theorem waitsAndFences_holds : waitsAndFences := by
  refine ⟨fun t f s th k h hg => ?waitc, fun t f s th k h hg => ?fence⟩
  case waitc =>
    have issued := h.issued .none 0
    refine h.gives (exec_waitc_parks t f s) ?_
    simp only [guard0_eq, hg, Bool.true_and, decide_eq_true_eq, issued.copiesOf]
    by_cases enough : copiesOf s t ≤ f.imm.toNat
    · rw [if_neg (by omega), if_pos enough]
      exact ⟨issued.frame, issued.thread⟩
    · rw [if_pos (by omega), if_neg enough]
      exact ⟨(issued.park _ _).frame, (issued.park _ _).thread⟩
  case fence =>
    intro met
    have issued := h.issued .none 0
    have done : fenceMet (Machine.issued 0x88 t f .none 0 th k s) t f.imm.toNat = true ↔ met := by
      rw [fenceMet_iff, issued.copiesOf, issued.requestsLeft]
    refine h.gives_on hg (exec_fenceScope t f s) ?_
    by_cases now : met
    · rw [if_pos (done.mpr now), fenceDone, show f.imm.toNat.testBit 4 = f.imm.getLsbD 4 from rfl]
      by_cases tx : f.imm.getLsbD 4 = true
      · have dropped := issued.dropTex
        have tex := congrArg (·.tex) dropped.core
        rw [if_pos tx]
        refine ⟨by rw [issued.frame.1]; rfl, by rw [tex]; exact dropped, fun _ => ⟨?_, tex.trans (if_pos tx).symm⟩, fun e => absurd now e⟩
        simp only [threadOf, coreOf_modCore_same]
        exact issued.thread
      · have tex := congrArg (·.tex) issued.frame.2.core
        rw [if_neg tx]
        exact ⟨by rw [issued.frame.1], by rw [tex]; exact issued.frame.2, fun _ => ⟨issued.thread, tex.trans (if_neg tx).symm⟩, fun e => absurd now e⟩
    · rw [if_neg (fun e => now (done.mp e))]
      have waits := issued.park (.fence f.imm.toNat) none
      have tex := congrArg (·.tex) waits.frame.2.core
      refine ⟨by rw [waits.frame.1], by rw [tex]; exact waits.frame.2, fun e => absurd e now, fun _ => ⟨waits.thread, tex⟩⟩

/-! ## END -/

/-- A thread that has ended: its fragments are released. -/
def ended (th : Thread) : Thread := { th with park := .ended, held := none, fragments := [] }
theorem fenceMet_all (s : State) (t : ThreadRef) : fenceMet s t allScopes = true ↔ requestsLeft s t = 0 ∧ copiesOf s t = 0 := by
  simp [fenceMet, allScopes, Nat.testBit]
/-- A thread of the task that has not ended. -/
theorem allEnded_of_other {s : State} {id j : Nat} {k : Task} {u : Thread} (h : tget (coreOf s k.core).threads j = some u) (hu : u.task = id)
    (live : u.park ≠ .ended) : allEnded s id k = false := by
  rw [Bool.eq_false_iff]
  intro all
  have gone := List.all_eq_true.mp all (j, u) (List.mem_filter.mpr ⟨tget_mem h, by simpa using hu⟩)
  exact live (by simpa using gone)
theorem taskEnds_of_live {s : State} {id : Nat} {k : Task} (hk : tget s.tasks id = some k) (h : allEnded s id k = false) : taskEnds id s = s := by
  simp only [taskEnds, hk, h]
  rfl
/-- The state that an END leaves which is not its task's last. -/
def endedState (t : ThreadRef) (slot : Nat) (s : State) : State := wakePixels slot (modCore t.core (fun c => { c with tex := [] }) (modThread t ended s))
theorem endNow_eq {t : ThreadRef} {s : State} {th : Thread} (h : threadOf s t = some th) :
    endNow t s = taskEnds th.task (endedState t ((threadSlot s t).getD 0) s) := by
  simp only [endNow, h]
  rfl

theorem threadOf_dropTex (t u : ThreadRef) (s : State) : threadOf (modCore t.core (fun c => { c with tex := [] }) s) u = threadOf s u := by
  rw [threadOf, coreOf_modCore]
  split
  · next e => rw [threadOf, e]
  · rfl
theorem runAgain_task (ready : Thread → Bool) (th : Thread) : (runAgain ready th).task = th.task := by unfold runAgain; split <;> rfl
theorem runAgain_ended {ready : Thread → Bool} {th : Thread} (h : th.park ≠ .ended) : (runAgain ready th).park ≠ .ended := by
  unfold runAgain
  split
  · exact nofun
  · exact h
theorem threadOf_endedState (t u : ThreadRef) (slot : Nat) (s : State) : ∃ ready : Thread → Bool, ready (ended ((threadOf s t).getD {})) = false ∧
    threadOf (endedState t slot s) u = (if u = t then (threadOf s t).map ended else threadOf s u).map (runAgain ready) := by
  refine ⟨pixelsReady slot (modCore t.core (fun c => { c with tex := [] }) (modThread t ended s)), ?_, by rw [endedState, wakePixels_eq, threadOf_wakeIf, threadOf_dropTex, threadOf_modThread]⟩
  rw [Bool.eq_false_iff]
  intro waits
  obtain ⟨_, _, e⟩ := pixelsReady_parked waits
  cases e
theorem endedState_eq (t : ThreadRef) (slot : Nat) (s : State) : endedState t slot s = { s with cores := (endedState t slot s).cores } := rfl
theorem endedState_tex (t : ThreadRef) (slot : Nat) (s : State) : (coreOf (endedState t slot s) t.core).tex = [] := by
  rw [endedState, wakePixels_eq, coreOf_wakeIf, wakeCore, coreOf_modCore_same]
theorem exec_endThread_done {t : ThreadRef} {f : KFields} {s : State} {th : Thread} {k : Task} (ht : threadOf s t = some th)
    (hk : tget s.tasks th.task = some k) (built : builtInDone s th.task k = true) :
    exec (.endThread t f) s = issue 0x01 t f .none 0 s (fun th _ m => if !guard0 th f then m
      else if fenceMet m t allScopes && (recordOf m t).isNone then endNow t m else parkThread t .ending none m) := by
  rw [exec_endThread, execEndThread, ht]
  simp only [Option.bind_some, hk, Option.map_some, Option.getD_some, built]
  rfl

theorem threadsEnd_holds : threadsEnd := by
  intro t f s th k h hg built core ⟨j, u, hu, hj, task, live⟩
  have issued := h.issued .none 0
  have done : (fenceMet (Machine.issued 0x01 t f .none 0 th k s) t allScopes && (recordOf (Machine.issued 0x01 t f .none 0 th k s) t).isNone) = true ↔
      requestsLeft s t = 0 ∧ copiesOf s t = 0 ∧ recordOf s t = none := by
    rw [Bool.and_eq_true, fenceMet_all, issued.requestsLeft, issued.copiesOf, issued.recordOf, Option.isNone_iff_eq_none, and_assoc]
  refine ⟨fun hr hc hrec => ?ends, fun waits => ?waits⟩
  case ends =>
    generalize hm : Machine.issued 0x01 t f .none 0 th k s = m at issued done
    have other : threadOf m { core := t.core, slot := j } = some u := (issued.frame.2.otherThreads j hj).trans hu
    have taskLives : taskEnds th.task (endedState t ((threadSlot m t).getD 0) m) = endedState t ((threadSlot m t).getD 0) m := by
      obtain ⟨ready, -, eq⟩ := threadOf_endedState t { core := t.core, slot := j } ((threadSlot m t).getD 0) m
      rw [if_neg (fun e => hj (congrArg ThreadRef.slot e)), other] at eq
      refine taskEnds_of_live (k := k) ((congrArg (tget · th.task) issued.tasks).trans h.task) ?_
      exact allEnded_of_other (core ▸ eq) ((runAgain_task ..).trans task) (runAgain_ended live)
    refine h.gives_eq hg (exec_endThread_done h.thread h.task built) (x := endedState t ((threadSlot m t).getD 0) m) ?_ ⟨?_, endedState_tex .., ?_⟩
    · rw [hm, if_pos (done.mpr ⟨hr, hc, hrec⟩), endNow_eq issued.thread]
      exact taskLives
    · rw [endedState_eq, issued.frame.1]
    · obtain ⟨ready, hr, eq⟩ := threadOf_endedState t t ((threadSlot m t).getD 0) m
      rw [issued.thread] at hr
      rw [eq, if_pos rfl, issued.thread]
      exact congrArg some (runAgain_of_not hr)
  case waits =>
    refine h.gives_eq hg (exec_endThread_done h.thread h.task built) (if_neg fun e => ?_) ⟨(issued.park .ending none).frame, (issued.park .ending none).thread⟩
    obtain ⟨hr, hc, hrec⟩ := done.mp e
    rcases waits with w | w | w
    · exact w hr
    · exact w hc
    · exact w hrec

end Sys2Proof.Say
namespace Sys2Proof.Machine
open Sys2Proof.Say

/-- Settles O13: a thread parks at its issue unless its requests, copies and remote operation are as its instruction asks. -/
theorem waitsFencesAndEnds : Obligations.WaitsFencesAndEnds := ⟨waitsAndFences_holds, threadsEnd_holds⟩

end Sys2Proof.Machine
end

section
/-!
PROOFS. Latches (05 R199, R200): the latch that an instruction names, and what setting, clearing, testing and waiting do to it.
-/
namespace Sys2Proof.Say
open Sys2Proof.Machine

/-! ## The latch that an instruction names -/

theorem latchNamed_eq (th : Thread) (f : KFields) : latchNamed th f = (f.imm.getLsbD 16, latchIndex th f) := by
  rw [latchNamed, latchIndex, rdS_eq, BitVec.toNat_add, BitVec.toNat_ofNat, Nat.add_mod_mod]
  rfl
theorem latchAt_local (s : State) (k : Task) {i : Nat} (h : i < 8) : latchAt s k false i = some (.local_ i) := by
  simp [latchAt, h]
theorem latchAt_staging {s : State} {k : Task} {x : Ctx} {i : Nat} (hx : ctxOf s k.slot = some x) (h : i < 64 * cbLatches x.cfg) :
    latchAt s k true i = some (.staging i) := by
  simp [latchAt, stagingLatches, hx, h]
theorem latchAt_withStore (s : State) (k : Task) (st : Bool) (i : Nat) : latchAt s (withStore s k) st i = latchAt s k st i := by
  simp only [latchAt, withStore_slot, taskWard_withStore]

/-- A latch instruction whose guard bit 0 is 1 and whose latch exists. -/
theorem MayIssue.latch {op : Nat} {t : ThreadRef} {f : KFields} {s : State} {th : Thread} {k : Task} (h : MayIssue op t f s th k)
    (hg : guardBit th f 0 = true) {i : Instr} {go : Thread → Task → LatchAt → State → State} {l : LatchAt} {P : State → Prop} {st : Bool}
    (hi : exec i s = latchOp op t f s go) (hs : f.imm.getLsbD 16 = st) (hl : latchAt s k st (latchIndex th f) = some l)
    (hP : P (go th (withStore s k) l (Machine.issued op t f .none 0 th k s))) : Gives i s P := by
  refine h.gives_eq hg hi ?_ hP
  rw [latchNamed_eq, latchAt_withStore, hs, hl]

section
variable {t : ThreadRef} {k : Task} {s m : State} {u th : Thread} {r : Table VReq} {c : Table Copy} {tx : List (Nat × Bytes)} {x : Ctx}

theorem IssuedTo.other (h : IssuedTo t k s u m) {v : ThreadRef} (hv : v ≠ t) : threadOf m v = threadOf s v := by
  by_cases hc : v.core = t.core
  · have slot : v.slot ≠ t.slot := fun e => hv (by cases v; cases t; simp_all)
    have same := h.frame.2.otherThreads v.slot slot
    rwa [← hc] at same
  · rw [threadOf, threadOf, h.frame.2.otherCores _ hc]
/-- An issue changes of its context the account alone. -/
theorem CoreFrame.ctx_some (h : CoreFrame t k s m r c tx) (hx : ctxOf s k.slot = some x) : ∃ a, ctxOf m k.slot = some { x with acct := a } := by
  have same := h.ctx
  rw [hx] at same
  obtain ⟨y, hy, e⟩ := Option.map_eq_some_iff.mp same
  refine ⟨y.acct, hy.trans (congrArg some ?_)⟩
  calc y = { ({ y with acct := {} } : Ctx) with acct := y.acct } := rfl
    _ = { x with acct := y.acct } := by rw [e]

end

/-! ## Bits -/

theorem testBit_maskDiff (a b j : Nat) : (maskDiff a b).testBit j = (a.testBit j && !b.testBit j) := by
  rw [maskDiff, Nat.testBit_xor, Nat.testBit_and]
  cases a.testBit j <;> cases b.testBit j <;> rfl
theorem testBit_cleared (a i j : Nat) : (maskDiff a (2 ^ i)).testBit j = (a.testBit j && j != i) := by
  rw [testBit_maskDiff, Nat.testBit_two_pow]
  congr 1
  rw [Bool.eq_iff_iff, Bool.not_eq_true', decide_eq_false_iff_not, bne_iff_ne, ne_comm]
/-- A clear that spares a latch set in the same cycle. -/
theorem cleared_unless (a i j : Nat) (b : Bool) : (if b then a else maskDiff a (2 ^ i)).testBit j = (a.testBit j && (j != i || b)) := by
  cases b
  · simp [testBit_cleared]
  · simp

theorem ofNat_allOnesIf (b : Bool) : BitVec.ofNat 64 (if b then 2 ^ 64 - 1 else 0) = allOnesIf b := by
  cases b <;> rfl

/-! ## Local latches -/

/-- The eight latches of a task after a clear. -/
theorem cleared_latches (l : BitVec 8) (i j : Nat) (b : Bool) :
    (if b then l else BitVec.ofNat 8 (maskDiff l.toNat (2 ^ i))).getLsbD j = (l.getLsbD j && (j != i || b)) := by
  rw [← BitVec.testBit_toNat l, ← cleared_unless]
  cases b
  · simp only [Bool.false_eq_true, if_false, BitVec.getLsbD_ofNat, testBit_maskDiff]
    by_cases hj : j < 8
    · simp [hj]
    · rw [BitVec.testBit_toNat, BitVec.getLsbD_of_ge l j (by omega)]
      simp
  · rfl

section
variable {t : ThreadRef} {k : Task} {s m : State} {u th : Thread}

theorem IssuedTo.setLatchNow (h : IssuedTo t k s (stepped s t th) m) (hk : tget s.tasks th.task = some k) {st : Bool} {i : Nat} {l : LatchAt}
    (hl : latchAt m k st i = some l) : Machine.setLatchNow t st i m =
      match l with | .local_ i => setLocal th.task i m | .staging i => setStaging k.slot i m | .imported r => startRemote t 3 r 0 m := by
  simp only [Machine.setLatchNow, h.thread, show tget m.tasks (stepped s t th).task = some k from (congrArg (tget · _) h.tasks).trans hk, hl]
  cases l <;> rfl

end

/-- Does a thread wait for a local latch of a task? -/
def awaitsLocal (task i : Nat) (th : Thread) : Bool := th.park == .latch false i && th.task == task
theorem runAgain_awaitsLocal (task i : Nat) (w : Thread) : runAgain (awaitsLocal task i) w =
    if w.park = .latch false i ∧ w.task = task then { w with park := .running } else w := by
  unfold runAgain awaitsLocal
  exact if_congr (by simp) rfl rfl
/-- A task with one of its latches set. -/
def withLatch (now i : Nat) (k : Task) : Task :=
  { k with latches := k.latches ||| BitVec.ofNat 8 (2 ^ i), latchMark := markSet now i k.latchMark }
theorem setLocal_eq (task i : Nat) (s : State) : setLocal task i s = wakeIf (awaitsLocal task i) (modTask task (withLatch s.now i) s) := rfl

theorem latchIsSet_local (m s : State) (k : Task) (i : Nat) : latchIsSet m (withStore s k) (.local_ i) = k.latches.getLsbD i := by
  rw [withStore_eq]
  rfl

theorem localLatches_holds : localLatches := by
  refine ⟨fun t f s th k h hg loc inside => ⟨fun none_ => ?set, fun some_ => ?waits⟩, fun t f s th k h hg loc inside => ?clear,
    fun t f s th k h hg loc inside => ?wait, fun t f s th k h hg loc inside => ?test⟩
  case set =>
    have issued := h.issued .none 0
    refine h.latch hg (exec_lset t f s) loc (latchAt_local s k inside) ?_
    simp only [latchNamed_eq, loc, issued.copiesOf, none_, if_true, issued.setLatchNow h.task (latchAt_local _ k inside), setLocal_eq]
    refine ⟨by rw [issued.frame.1]; rfl, fun i hi => ?_, ?_, ?_, fun u w hu hw => ?_⟩
    · exact (tget_tmod_other _ _ _ _ hi).trans (congrArg (tget · i) issued.tasks)
    · refine (tget_tmod_same ..).trans ?_
      rw [issued.tasks, h.task, issued.now]
      rfl
    · rw [threadOf_wakeIf]
      refine (congrArg (Option.map _) issued.thread).trans (congrArg some (runAgain_of_not ?_))
      rw [awaitsLocal, show (stepped s t th).park = .running from h.conditions.1]
      rfl
    · rw [threadOf_wakeIf, ← runAgain_awaitsLocal]
      exact congrArg (Option.map _) ((issued.other hu).trans hw)
  case waits =>
    have issued := h.issued .none 0
    refine h.latch hg (exec_lset t f s) loc (latchAt_local s k inside) ?_
    simp only [latchNamed_eq, loc, issued.copiesOf, some_, if_false]
    exact ⟨(issued.park _ _).frame, (issued.park _ _).thread⟩
  case clear =>
    have issued := h.issued .none 0
    refine h.latch hg (exec_lclr t f s) loc (latchAt_local s k inside) ?_
    refine ⟨by rw [issued.frame.1]; rfl, issued.thread, fun i hi => ?_,
      if setInCycle s.now (latchIndex th f) k.latchMark then k.latches else BitVec.ofNat 8 (maskDiff k.latches.toNat (2 ^ latchIndex th f)), ?_, fun j => ?_⟩
    · exact (tget_tmod_other _ _ _ _ hi).trans (congrArg (tget · i) issued.tasks)
    · refine (tget_tmod_same ..).trans ?_
      rw [issued.tasks, h.task, issued.now, Option.map_some]
      split <;> rfl
    · rw [← cleared_latches]
  case wait =>
    have issued := h.issued .none 0
    refine h.latch hg (exec_lwait t f s) loc (latchAt_local s k inside) ?_
    simp only [latchIsSet_local]
    split
    · exact ⟨issued.frame, issued.thread⟩
    · exact ⟨(issued.park _ _).frame, (issued.park _ _).thread⟩
  case test =>
    have issued := h.issued .none 0
    refine h.latch hg (exec_ltest t f s) loc (latchAt_local s k inside) ?_
    refine issued.wrP f.dst.toNat ?_
    rw [latchIsSet_local, ofNat_allOnesIf]

/-! ## Staging latches -/

/-- A context with one of its staging latches set, and the waiters on it answered. -/
def withStagingLatch (now i : Nat) (x : Ctx) : Ctx :=
  { x with stagingBits := x.stagingBits ||| 2 ^ i, stagingMark := markSet now i x.stagingMark, latchWaiters := x.latchWaiters.filter (fun w => w.1 != i) }
/-- Does a thread wait for a staging latch, of the tasks that satisfy a test? -/
def awaitsStaging (mine : Nat → Bool) (i : Nat) (th : Thread) : Bool := th.park == .latch true i && mine th.task
/-- Setting a staging latch frees its waiters, and answers those of its peers by messages. -/
theorem setStaging_hingeSide (slot i : Nat) (s : State) :
    ∃ mine, HingeSide (wakeIf (awaitsStaging mine i) (modCtx slot (withStagingLatch s.now i) s)) (setStaging slot i s) := by
  refine ⟨fun task => ((tget s.tasks task).map (fun k => k.slot == slot)).getD false, ?_⟩
  unfold setStaging
  extract_lets peers s1 s2
  refine HingeSide.foldl (fun s w => ?_) peers s2
  split
  · exact replyTo_hingeSide ..
  · exact .refl s

theorem HingeSide.threadOf {s n : State} (h : HingeSide s n) (t : ThreadRef) : Machine.threadOf n t = Machine.threadOf s t :=
  threadOf_congr (by rw [h]) t

theorem stagingLatches_issued {t : ThreadRef} {k : Task} {s m : State} {u : Thread} {x : Ctx} (h : IssuedTo t k s u m) (hx : ctxOf s k.slot = some x)
    {i : Nat} (hi : i < 64 * cbLatches x.cfg) : latchAt m k true i = some (.staging i) := by
  obtain ⟨a, ha⟩ := h.frame.2.ctx_some hx
  exact latchAt_staging ha hi
theorem latchIsSet_staging {t : ThreadRef} {k : Task} {s m : State} {u : Thread} {x : Ctx} (h : IssuedTo t k s u m) (hx : ctxOf s k.slot = some x)
    (i : Nat) : latchIsSet m (withStore s k) (.staging i) = x.stagingBits.testBit i := by
  obtain ⟨a, ha⟩ := h.frame.2.ctx_some hx
  simp [latchIsSet, ha]

theorem stagingLatchOps_holds : stagingLatchOps := by
  refine ⟨fun t f s th k x h hg st hx inside none_ => ?set, fun t f s th k x h hg st hx inside => ?clear,
    fun t f s th k x h hg st hx inside => ?wait, fun t f s th k x h hg st hx inside => ?test⟩
  case set =>
    have issued := h.issued .none 0
    obtain ⟨a, ha⟩ := issued.frame.2.ctx_some hx
    refine h.latch hg (exec_lset t f s) st (latchAt_staging hx inside) ?_
    simp only [latchNamed_eq, st, issued.copiesOf, none_, if_true, issued.setLatchNow h.task (stagingLatches_issued issued hx inside)]
    obtain ⟨mine, eq⟩ := setStaging_hingeSide k.slot (latchIndex th f) (Machine.issued 0xA0 t f .none 0 th k s)
    have ctxs (i : Nat) : ctxOf (setStaging k.slot (latchIndex th f) (Machine.issued 0xA0 t f .none 0 th k s)) i = _ :=
      (congrArg (tget · i) eq.haspSide.ctxs).trans (ctxOf_modCtx k.slot _ _ i)
    refine ⟨?_, ?_, ?_, ?_, ?_, fun i hi => ?_, ?_⟩
    · rw [eq, issued.frame.1]; rfl
    · rw [eq, issued.frame.1]; rfl
    · rw [eq, issued.frame.1]; rfl
    · rw [eq, issued.frame.1]; rfl
    · rw [ctxs, if_pos rfl, ha]
      rfl
    · rw [ctxs, if_neg hi]
      exact issued.frame.2.otherCtxs i hi
    · rw [eq.threadOf, threadOf_wakeIf]
      refine (congrArg (Option.map _) issued.thread).trans (congrArg some (runAgain_of_not ?_))
      rw [awaitsStaging, show (stepped s t th).park = .running from h.conditions.1]
      rfl
  case clear =>
    have issued := h.issued .none 0
    obtain ⟨a, ha⟩ := issued.frame.2.ctx_some hx
    refine h.latch hg (exec_lclr t f s) st (latchAt_staging hx inside) ?_
    refine ⟨by rw [issued.frame.1]; rfl, issued.thread, fun i hi => ?_,
      if setInCycle s.now (latchIndex th f) x.stagingMark then x.stagingBits else maskDiff x.stagingBits (2 ^ latchIndex th f), ?_,
      fun j => cleared_unless ..⟩
    · simp only [clearStaging, withStore_slot, ctxOf_modCtx, if_neg hi]
      exact issued.frame.2.otherCtxs i hi
    · simp only [clearStaging, withStore_slot, ctxOf_modCtx, if_pos, ha, issued.now, Option.map_some]
      split <;> rfl
  case wait =>
    have issued := h.issued .none 0
    refine h.latch hg (exec_lwait t f s) st (latchAt_staging hx inside) ?_
    simp only [latchIsSet_staging issued hx]
    split
    · exact ⟨issued.frame, issued.thread⟩
    · exact ⟨(issued.park _ _).frame, (issued.park _ _).thread⟩
  case test =>
    have issued := h.issued .none 0
    refine h.latch hg (exec_ltest t f s) st (latchAt_staging hx inside) ?_
    refine issued.wrP f.dst.toNat ?_
    rw [latchIsSet_staging issued hx, ofNat_allOnesIf]

end Sys2Proof.Say
namespace Sys2Proof.Machine
open Sys2Proof.Say

/-- Settles O15: each latch instruction reads or changes the latch that it names, and an LSET frees the threads that wait for it. -/
theorem latches : Obligations.Latches := ⟨localLatches_holds, stagingLatchOps_holds⟩

end Sys2Proof.Machine
end

section
/-!
PROOFS. The pixel interlock (05 R205, R206): an issue releases no fragment, and what PXLOCK and PXUNLOCK do to a thread.
-/
namespace Sys2Proof.Say
open Sys2Proof.Machine

/-! ## Fragments held by the threads of a task -/

/-- The fragments that the threads of a task hold, in a table of threads. -/
def fragmentsIn (id : Nat) (l : Table Thread) : List (Nat × Nat) := (l.filter (fun x => x.2.task == id)).flatMap (fun x => x.2.fragments)
theorem fragmentsIn_tmod (id i : Nat) {g : Thread → Thread} (task : ∀ th, (g th).task = th.task) (held : ∀ th, (g th).fragments = th.fragments) :
    ∀ l : Table Thread, fragmentsIn id (tmod l i g) = fragmentsIn id l
  | [] => rfl
  | (j, th) :: l => by
    have ih := fragmentsIn_tmod id i task held l
    unfold fragmentsIn at *
    simp only [tmod]
    split
    · simp only [List.filter_cons, task]
      split
      · simp only [List.flatMap_cons, held]
      · rfl
    · simp only [List.filter_cons]
      split
      · simp only [List.flatMap_cons, ih]
      · exact ih
theorem fragmentsIn_issued (op : Nat) (t : ThreadRef) (f : KFields) (e : Engine) (n : Nat) (th : Thread) (k : Task) (s : State) (id c : Nat) :
    fragmentsIn id (coreOf (issued op t f e n th k s) c).threads = fragmentsIn id (coreOf s c).threads := by
  obtain ⟨p, b, te, se, a, eq⟩ := issued_eq op t f e n th k s
  have core : coreOf (issued op t f e n th k s) c = if c = t.core then issuedCore t b te se (coreOf s t.core) else coreOf s c := by
    rw [eq]
    exact coreOf_modCore t.core (issuedCore t b te se) s c
  rw [core]
  split
  · next hc => rw [hc]; exact fragmentsIn_tmod id t.slot (g := issuedThread _) (fun _ => rfl) (fun _ => rfl) _
  · rfl
theorem handedOut_issued (op : Nat) (t : ThreadRef) (f : KFields) (e : Engine) (n : Nat) (th : Thread) (k : Task) (s : State) (slot : Nat) (fr : Frame)
    (b : Nat) : handedOut (issued op t f e n th k s) slot fr b = handedOut s slot fr b := by
  obtain ⟨p, _, te, se, a, eq⟩ := issued_eq op t f e n th k s
  have tasks : (issued op t f e n th k s).tasks = s.tasks := by rw [eq]; rfl
  unfold handedOut
  rw [tasks]
  exact List.flatMap_congr fun x _ => fragmentsIn_issued op t f e n th k s x.1 x.2.core
/-- An issue releases no fragment. -/
theorem lowerReleased_issued (op : Nat) (t : ThreadRef) (f : KFields) (e : Engine) (n : Nat) (th : Thread) (k : Task) (s : State) (slot : Nat)
    (fr : Frame) (b key : Nat) (px : List Nat) :
    lowerReleased (issued op t f e n th k s) slot fr b key px = lowerReleased s slot fr b key px := by
  unfold lowerReleased
  rw [handedOut_issued]

theorem frameOfTask_withStore (x : Ctx) (s : State) (k : Task) : frameOfTask x (withStore s k) = frameOfTask x k := by
  rw [withStore_eq]
  rfl

/-! ## PXLOCK and PXUNLOCK -/

theorem pixelLocks : ∀ t f s th k x fr b p, MayIssue 0xA7 t f s th k → guardBit th f 0 = true → k.kind = .blend b p → ctxOf s k.slot = some x →
    frameOfTask x k = some fr → Gives (.pxlock t f) s (fun n => IssueFrame t k s n ∧ threadOf n t =
      some (if pixelsNamed th f = [] ∨ lowerReleased s k.slot fr b (sB th f).toNat (pixelsNamed th f) = true then stepped s t th
            else parked s t th (.pixels (sB th f).toNat (pixelsNamed th f)) none)) := by
  intro t f s th k x fr b p h hg kind hx hfr
  have issued := h.issued .none 0
  obtain ⟨a, ha⟩ := issued.frame.2.ctx_some hx
  have frame : (ctxOf (Machine.issued 0xA7 t f .none 0 th k s) k.slot).bind (fun x => frameOfTask x (withStore s k)) = some fr := by
    rw [ha, Option.bind_some, frameOfTask_withStore]
    exact hfr
  have key : rdS th f.b.toNat = (sB th f).toNat := rdS_eq th _
  refine h.gives_on hg (exec_pxlock t f s) ?_
  simp only [withStore_kind, withStore_slot, kind, frame, lowerReleased_issued, key, List.isEmpty_iff, Bool.or_eq_true]
  by_cases free : pixelsNamed th f = [] ∨ lowerReleased s k.slot fr b (sB th f).toNat (pixelsNamed th f) = true
  · rw [if_pos free, if_pos free]
    exact ⟨issued.frame, issued.thread⟩
  · rw [if_neg free, if_neg free]
    exact ⟨(issued.park _ _).frame, (issued.park _ _).thread⟩
theorem pixelLocks_elsewhere : ∀ t f s th k, MayIssue 0xA7 t f s th k → (∀ b p, k.kind ≠ .blend b p) →
    Gives (.pxlock t f) s (fun n => IssueFrame t k s n ∧ threadOf n t = some (stepped s t th)) := by
  intro t f s th k h other
  have issued := h.issued .none 0
  have moved := And.intro issued.frame issued.thread
  refine h.gives (exec_pxlock t f s) ?_
  dsimp only
  split
  · exact moved
  · rw [withStore_kind]
    split
    · next b p _ kind _ => exact absurd kind (other b p)
    · exact moved
/-- A thread that has released its fragments at some pixels. -/
def releasing (px : List Nat) (th : Thread) : Thread := { th with fragments := th.fragments.filter (fun q => !px.contains q.1) }
theorem pixelUnlocks : ∀ t f s th k, MayIssue 0xA8 t f s th k → guardBit th f 0 = true →
    Gives (.pxunlock t f) s (fun n => n = { s with cores := n.cores, ctxs := n.ctxs, perf := n.perf } ∧
      threadOf n t = some { stepped s t th with fragments := th.fragments.filter (fun q => !(pixelsNamed th f).contains q.1) }) := by
  intro t f s th k h hg
  have released := (h.issued .none 0).modThread (releasing (pixelsNamed th f))
  generalize hm : Machine.modThread t (releasing (pixelsNamed th f)) (Machine.issued 0xA8 t f .none 0 th k s) = m at released
  refine h.gives_eq hg (exec_pxunlock t f s) (x := wakeIf (pixelsReady k.slot m) m) (by rw [← hm, withStore_slot]; rfl) ⟨by rw [released.frame.1]; rfl, ?_⟩
  rw [threadOf_wakeIf]
  refine (congrArg (Option.map _) released.thread).trans (congrArg some (runAgain_of_not ?_))
  rw [Bool.eq_false_iff]
  intro waits
  obtain ⟨_, _, e⟩ := pixelsReady_parked waits
  exact absurd (h.conditions.1.symm.trans e) nofun

end Sys2Proof.Say
namespace Sys2Proof.Machine
open Sys2Proof.Say

/-- Settles O18: the issue of the instruction itself releases no fragment, so PXLOCK finds those of the state before it. -/
theorem pixelInterlock : Obligations.PixelInterlock := ⟨pixelLocks, pixelLocks_elsewhere, pixelUnlocks⟩

end Sys2Proof.Machine
end

section
/-!
PROOFS. The tensor engine (05 R194, R195), and guarded instructions under a guard that is off (05 R192).
-/
namespace Sys2Proof.Say
open Sys2Proof.Machine

/-! ## Tiles -/

theorem toNat_getD_ofNat (g : Nat → Nat) {n i : Nat} (h : i < n) : (((List.range n).map (fun i => BitVec.ofNat 32 (g i))).getD i 0).toNat = g i % 2 ^ 32 := by
  rw [getD_map_range _ _ h, BitVec.toNat_ofNat]
theorem tileAt_mkTile (fp : Bool) (g : Nat → Nat → Nat) {i j : Nat} (hi : i < 16) (hj : j < 16) : tileAt (mkTile fp g) i j = g i j % 2 ^ 32 := by
  refine (toNat_getD_ofNat (fun i => g (i / 16) (i % 16)) (by omega)).trans ?_
  rw [show (16 * i + j) / 16 = i by omega, show (16 * i + j) % 16 = j by omega]
theorem intStep_lt (ca cb kc acc : Nat) (x y : Bytes) : intStep ca cb kc acc x y < 2 ^ 32 := by
  rw [intStep, trunc_eq]
  exact BitVec.isLt _
theorem storeRead_getD (k : Task) (a : Nat) {n i : Nat} (h : i < n) : (storeRead k a n).getD i 0 = Mem.read k.store (a + i) := by
  have inside : i < (storeRead k a n).length := by simpa [storeRead] using h
  rw [List.getD_eq_getElem _ _ inside]
  exact Mem.readN_getElem k.store n a i inside

/-- The chunk of a TMM: its elements, the rows of A and the columns of B in core store, and the bytes of a row and of a column. -/
def tmmCount (th : Thread) (f : KFields) : Nat := if rdS th f.c.toNat / 2 ^ 16 % 32 = 0 then 16 else rdS th f.c.toNat / 2 ^ 16 % 32
def tileRow (th : Thread) (f : KFields) (m : Nat) : Nat := (rdS th f.a.toNat + m * (f.imm.toNat % 2 ^ 16)) % 2 ^ 64
def tileCol (th : Thread) (f : KFields) (n : Nat) : Nat := (rdS th f.b.toNat + n * (rdS th f.c.toNat % 2 ^ 16)) % 2 ^ 64
def tmmFmtA (f : KFields) : Nat := f.imm.toNat / 2 ^ 20
def tmmFmtB (f : KFields) : Nat := f.imm.toNat / 2 ^ 16 % 16
def tmmBytes (th : Thread) (f : KFields) (code : Nat) : Nat := kcBytes (codeBits code) (tmmCount th f)
/-- The rows and columns of a product whose accesses fault. -/
def tilesBad (th : Thread) (k : Task) (f : KFields) (na nb : Nat) : Option (Nat × Nat) :=
  (List.range 16).findSome? (fun i => (storeBad k (tileRow th f i) na 1).orElse (fun _ => storeBad k (tileCol th f i) nb 1))
/-- The tile that a TMM leaves. -/
def tmmTile (th : Thread) (k : Task) (f : KFields) : AccTile :=
  mkTile (decide (5 ≤ tmmFmtA f)) (fun m n =>
    match fmtOf (tmmFmtA f), fmtOf (tmmFmtB f) with
    | some fa, some fb => fpStep fa fb (tmmCount th f) (tileAt (tileOf th f.dst.toNat) m n)
        (storeRead k (tileRow th f m) (tmmBytes th f (tmmFmtA f))) (storeRead k (tileCol th f n) (tmmBytes th f (tmmFmtB f)))
    | _, _ => intStep (tmmFmtA f) (tmmFmtB f) (tmmCount th f) (tileAt (tileOf th f.dst.toNat) m n)
        (storeRead k (tileRow th f m) (tmmBytes th f (tmmFmtA f))) (storeRead k (tileCol th f n) (tmmBytes th f (tmmFmtB f))))
/-- Put a tile of a thread. -/
def putTile (d : Nat) (q : AccTile) (th : Thread) : Thread := { th with tiles := tput th.tiles d q }
theorem exec_tmm (t : ThreadRef) (f : KFields) (s : State) : exec (.tmm t f) s =
    issue 0xC1 t f (.te (teClass (tmmFmtA f) (tmmFmtB f)))
      (if codeBits (tmmFmtA f) = 16 then 64 else if codeBits (tmmFmtA f) = 4 ∧ codeBits (tmmFmtB f) = 4 then 8 else 16) s (fun th k m =>
        if !guard0 th f then m
        else orFault th k ((if (tileOf th f.dst.toNat).fp != decide (5 ≤ tmmFmtA f) then some (kfAccType, 0) else none).orElse
          (fun _ => tilesBad th k f (tmmBytes th f (tmmFmtA f)) (tmmBytes th f (tmmFmtB f)))) s
          (modThread t (putTile f.dst.toNat (tmmTile th k f)) m)) := rfl
/-- The element type of a TMMB, and the bytes of a row of its elements. -/
def tmmbType (f : KFields) : Nat := f.imm.toNat / 2 ^ 16 % 4
def tmmbBytes (f : KFields) : Nat := if tmmbType f = 3 then 16 else 32
/-- The tile that a TMMB leaves. -/
def tmmbTile (th : Thread) (k : Task) (f : KFields) : AccTile :=
  let codes := storeRead k (rdS th f.c.toNat) 32
  mkTile true (fun m n => blockStep (tmmbType f) (tileAt (tileOf th f.dst.toNat) m n) (codes.getD m 0).toNat (codes.getD (16 + n) 0).toNat
    (storeRead k (tileRow th f m) (tmmbBytes f)) (storeRead k (tileCol th f n) (tmmbBytes f)))
theorem exec_tmmb (t : ThreadRef) (f : KFields) (s : State) : exec (.tmmb t f) s =
    issue 0xC2 t f (.te 4) (if tmmbType f = 3 then 16 else 32) s (fun th k m =>
      if !guard0 th f then m
      else orFault th k ((if !(tileOf th f.dst.toNat).fp then some (kfAccType, 0) else none).orElse
        (fun _ => (tilesBad th k f (tmmbBytes f) (tmmbBytes f)).orElse (fun _ => storeBad k (rdS th f.c.toNat) 32 1))) s
        (modThread t (putTile f.dst.toNat (tmmbTile th k f)) m)) := rfl

/-! ## The operands of a product -/

theorem tileRow_eq (th : Thread) (f : KFields) (m : Nat) : tileRow th f m = ((sA th f).toNat + m * (f.imm.toNat % 2 ^ 16)) % 2 ^ 64 := by
  rw [tileRow, rdS_eq]
  rfl
theorem tileCol_eq (th : Thread) (f : KFields) (n : Nat) : tileCol th f n = ((sB th f).toNat + n * ((sC th f).toNat % 2 ^ 16)) % 2 ^ 64 := by
  rw [tileCol, rdS_eq, rdS_eq]
  rfl
theorem tmmCount_eq (th : Thread) (f : KFields) :
    tmmCount th f = if (sC th f).toNat / 2 ^ 16 % 32 = 0 then 16 else (sC th f).toNat / 2 ^ 16 % 32 := by
  rw [tmmCount, rdS_eq]
  rfl
theorem tilesBad_none {th : Thread} {k : Task} {f : KFields} {na nb : Nat}
    (h : ∀ i, i < 16 → tileRow th f i + na ≤ k.size ∧ tileCol th f i + nb ≤ k.size) : tilesBad th k f na nb = none := by
  refine List.findSome?_eq_none_iff.mpr fun i hi => ?_
  obtain ⟨row, col⟩ := h i (List.mem_range.mp hi)
  rw [storeBad_none row (Nat.mod_one _), storeBad_none col (Nat.mod_one _)]
  rfl
/-- A tile that an instruction has put. -/
theorem IssuedTo.putTile {t : ThreadRef} {k : Task} {s m : State} {th : Thread} (h : IssuedTo t k s (stepped s t th) m) (d : Nat) (q : AccTile) :
    IssueFrame t k s (Machine.modThread t (Say.putTile d q) m) ∧
    ∃ r, threadOf (Machine.modThread t (Say.putTile d q) m) t = some { stepped s t th with tiles := r } ∧
      (∀ i, i ≠ d → tget r i = tget th.tiles i) ∧ tget r d = some q :=
  have wrote := h.modThread (Say.putTile d q)
  ⟨wrote.frame, tput th.tiles d q, wrote.thread, fun _ hi => tget_tput_other _ _ _ _ hi, tget_tput_same ..⟩

/-! ## Tiles to registers -/

theorem foldl_wrV (d : Nat) (x : Nat → Nat) (th : Thread) (n : Nat) :
    let r := (List.range n).foldl (fun acc j => wrV (d + j) (x j) acc) th
    r = { th with v := r.v } ∧ ∀ i, r.v.getD i 0 = if d ≤ i ∧ i < d + n then BitVec.ofNat 1024 (x (i - d)) else th.v.getD i 0 := by
  induction n with
  | zero => exact ⟨rfl, fun i => (if_neg (by omega)).symm⟩
  | succ n ih =>
    obtain ⟨rest, regs⟩ := ih
    simp only [List.range_succ, List.foldl_append, List.foldl_cons, List.foldl_nil]
    generalize (List.range n).foldl (fun acc j => wrV (d + j) (x j) acc) th = u at rest regs ⊢
    refine ⟨by rw [show wrV (d + n) (x n) u = { u with v := (wrV (d + n) (x n) u).v } from rfl, rest], fun i => ?_⟩
    rw [getD_wrV, regs]
    by_cases hi : i = d + n
    · rw [if_pos hi, if_pos (by omega), hi, Nat.add_sub_cancel_left]
    · rw [if_neg hi]
      exact if_congr (by omega) rfl rfl
/-- The registers that TRD writes. -/
def readTile (d : Nat) (a : AccTile) (th : Thread) : Thread :=
  (List.range 8).foldl (fun acc j => wrV (d + j) (ofLanes 32 ((List.range 32).map (fun i => tileAt a (2 * j + i / 16) (i % 16)))) acc) th
theorem exec_trd_reads (t : ThreadRef) (f : KFields) (s : State) : exec (.trd t f) s = issue 0xC3 t f (.te 0) 8 s (fun th _ m =>
    if guard0 th f then modThread t (readTile f.dst.toNat (tileOf th (f.imm.toNat % 8))) m else m) := rfl
theorem exec_tzero_puts (t : ThreadRef) (f : KFields) (s : State) : exec (.tzero t f) s =
    issue 0xC0 t f (.te (if f.mod = 1 then 3 else 0)) 1 s (fun th _ m =>
      if guard0 th f then modThread t (putTile f.dst.toNat { fp := f.mod == 1, vals := List.replicate 256 0 }) m else m) := rfl

end Sys2Proof.Say
namespace Sys2Proof.Machine
open Sys2Proof.Say

/-- Settles O19: a product puts a tile whose elements are the steps of the old one's, and TRD reads the elements in order of lane. -/
theorem tensorProducts : Obligations.TensorProducts := by
  refine ⟨fun t f s th k h hg => ?zero, fun t f s th k h hg => ?product, fun t f s th k h hg => ?blocks, fun t f s th k h hg => ?read⟩
  case zero =>
    have put := (h.issued (.te (if f.mod = 1 then 3 else 0)) 1).modThread (putTile f.dst.toNat { fp := f.mod == 1, vals := List.replicate 256 0 })
    refine h.gives (exec_tzero_puts t f s) ?_
    rw [guard0_eq, hg, if_pos rfl]
    exact ⟨put.frame, put.thread⟩
  case product =>
    intro kk ca cb kc rowA rowB na nb inside type
    have row : tileRow th f = rowA := funext (tileRow_eq th f)
    have col : tileCol th f = rowB := funext (tileCol_eq th f)
    have count : tmmCount th f = kc := tmmCount_eq th f
    have sound : tilesBad th kk f na nb = none := tilesBad_none (by rw [row, col]; exact inside)
    obtain ⟨frame, r, thread, others, put⟩ := (h.issued (.te (teClass ca cb))
      (if codeBits ca = 16 then 64 else if codeBits ca = 4 ∧ codeBits cb = 4 then 8 else 16)).putTile f.dst.toNat (tmmTile th kk f)
    refine h.gives_eq hg (exec_tmm t f s) ?_ ⟨frame, r, thread, others, _, put, rfl, fun i j hi hj => ?_⟩
    · rw [type, show tilesBad th (withStore s k) f (tmmBytes th f (tmmFmtA f)) (tmmBytes th f (tmmFmtB f)) = none by
        rw [tmmBytes, tmmBytes, count]; exact sound, show (decide (5 ≤ ca) != decide (5 ≤ tmmFmtA f)) = false from bne_self_eq_false _]
      rfl
    · refine (tileAt_mkTile _ _ hi hj).trans ?_
      rw [row, col, tmmBytes, tmmBytes, count, show tmmFmtA f = ca from rfl, show tmmFmtB f = cb from rfl]
      cases fmtOf ca with
      | none => exact Nat.mod_eq_of_lt (intStep_lt ..)
      | some fa =>
        cases fmtOf cb with
        | none => exact Nat.mod_eq_of_lt (intStep_lt ..)
        | some fb => rfl
  case blocks =>
    intro kk ty rowA rowB nb inside codes type
    have row : tileRow th f = rowA := funext (tileRow_eq th f)
    have col : tileCol th f = rowB := funext (tileCol_eq th f)
    have sc : rdS th f.c.toNat = (sC th f).toNat := rdS_eq th _
    have sound : tilesBad th kk f nb nb = none := tilesBad_none (by rw [row, col]; exact inside)
    obtain ⟨frame, r, thread, others, put⟩ := (h.issued (.te 4) (if tmmbType f = 3 then 16 else 32)).putTile f.dst.toNat (tmmbTile th kk f)
    refine h.gives_eq hg (exec_tmmb t f s) ?_ ⟨frame, r, thread, others, _, put, rfl, fun i j hi hj => ?_⟩
    · rw [type, show tilesBad th (withStore s k) f (tmmbBytes f) (tmmbBytes f) = none from sound, sc, storeBad_none codes (Nat.mod_one _)]
      rfl
    · refine (tileAt_mkTile _ _ hi hj).trans ?_
      rw [row, col, sc, storeRead_getD _ _ (by omega), storeRead_getD _ _ (by omega)]
      rfl
  case read =>
    have wrote := (h.issued (.te 0) 8).modThread (readTile f.dst.toNat (tileOf th (f.imm.toNat % 8)))
    obtain ⟨rest, regs⟩ := foldl_wrV f.dst.toNat
      (fun j => ofLanes 32 ((List.range 32).map (fun i => tileAt (tileOf th (f.imm.toNat % 8)) (2 * j + i / 16) (i % 16)))) (stepped s t th) 8
    refine h.gives (exec_trd_reads t f s) ?_
    rw [guard0_eq, hg, if_pos rfl]
    refine ⟨wrote.frame, _, wrote.thread.trans (congrArg some rest), fun i hi => (regs i).trans (if_neg (by omega)), fun i j hi hj => ?_⟩
    rw [regs, if_pos (by omega), Nat.add_sub_cancel_left, laneAt_ofNat 32 _ (by omega), lane_ofLanes, getD_map_range _ _ (by omega),
      show 2 * (i / 2) + (16 * (i % 2) + j) / 16 = i by omega, show (16 * (i % 2) + j) % 16 = j by omega, tileAt, Nat.mod_eq_of_lt (BitVec.isLt _)]

end Sys2Proof.Machine
namespace Sys2Proof.Say
open Sys2Proof.Machine

/-! ## The guard is off -/

/-- An instruction issues, and its effect is none where guard bit 0 is 0. -/
def OffOnlyIssues (op : Nat) (c : ThreadRef → KFields → Instr) : Prop :=
  ∀ t f s, ∃ e n go, exec (c t f) s = issue op t f e n s go ∧ ∀ th k m, guard0 th f = false → go th k m = m

theorem OffOnlyIssues.gives {op : Nat} {c : ThreadRef → KFields → Instr} (hc : OffOnlyIssues op c) {t : ThreadRef} {f : KFields} {s : State}
    {th : Thread} {k : Task} (h : MayIssue op t f s th k) (hg : guardBit th f 0 = false) :
    Gives (c t f) s (fun n => IssueFrame t k s n ∧ threadOf n t = some (stepped s t th)) := by
  obtain ⟨e, n, go, hi, off⟩ := hc t f s
  refine h.gives hi ?_
  rw [off _ _ _ ((guard0_eq th f).trans hg)]
  exact ⟨(h.issued e n).frame, (h.issued e n).thread⟩

section
variable {op : Nat} {c : ThreadRef → KFields → Instr}

theorem offOnlyIssues_of {e : KFields → Engine} {n : KFields → Nat} {go : ThreadRef → KFields → State → Thread → Task → State → State}
    (hc : ∀ t f s, exec (c t f) s = issue op t f (e f) (n f) s (go t f s)) (off : ∀ t f s th k m, guard0 th f = false → go t f s th k m = m) :
    OffOnlyIssues op c := fun t f s => ⟨_, _, _, hc t f s, off t f s⟩
theorem offOnlyIssues_scalar {v : KFields → State → Thread → Nat} (hc : ∀ t f s, exec (c t f) s = issueS op t f s (v f s)) : OffOnlyIssues op c :=
  offOnlyIssues_of hc fun _ _ _ _ _ _ h => by simp [h]
theorem offOnlyIssues_pred {v : KFields → State → Thread → Nat} (hc : ∀ t f s, exec (c t f) s = issueP op t f s (v f s)) : OffOnlyIssues op c :=
  offOnlyIssues_of hc fun _ _ _ _ _ _ h => by simp [h]
theorem offOnlyIssues_latch {go : ThreadRef → KFields → State → Thread → Task → LatchAt → State → State}
    (hc : ∀ t f s, exec (c t f) s = latchOp op t f s (go t f s)) : OffOnlyIssues op c :=
  offOnlyIssues_of hc fun _ _ _ _ _ _ h => by simp [h]
theorem offOnlyIssues_hasp {go : ThreadRef → KFields → State → Thread → Task → HaspAt → State → State}
    (hc : ∀ t f s, exec (c t f) s = haspOp op t f s (go t f s)) : OffOnlyIssues op c :=
  offOnlyIssues_of hc fun _ _ _ _ _ _ h => by simp [h]
/-- An instruction of any other shape, whose effect begins with the test of guard bit 0. -/
theorem offOnlyIssues_guarded {e : KFields → Engine} {n : KFields → Nat} {go : ThreadRef → KFields → State → Thread → Task → State → State}
    (hc : ∀ t f s, exec (c t f) s = issue op t f (e f) (n f) s (fun th k m => if !guard0 th f then m else go t f s th k m)) : OffOnlyIssues op c :=
  offOnlyIssues_of hc fun _ _ _ _ _ _ h => by simp [h]
end

theorem scalarGuarded_off : ∀ q ∈ scalarGuarded, OffOnlyIssues q.1 q.2 := by
  simp only [scalarGuarded, List.forall_mem_cons, List.not_mem_nil, false_implies, implies_true, and_true]
  exact ⟨offOnlyIssues_scalar fun _ _ _ => rfl, offOnlyIssues_scalar fun _ _ _ => rfl, offOnlyIssues_scalar fun _ _ _ => rfl,
    offOnlyIssues_scalar fun _ _ _ => rfl, offOnlyIssues_scalar fun _ _ _ => rfl, offOnlyIssues_scalar fun _ _ _ => rfl,
    offOnlyIssues_scalar fun _ _ _ => rfl, offOnlyIssues_scalar fun _ _ _ => rfl, offOnlyIssues_scalar fun _ _ _ => rfl,
    offOnlyIssues_scalar fun _ _ _ => rfl, offOnlyIssues_scalar fun _ _ _ => rfl, offOnlyIssues_scalar fun _ _ _ => rfl,
    offOnlyIssues_scalar fun _ _ _ => rfl, offOnlyIssues_scalar fun _ _ _ => rfl, offOnlyIssues_scalar fun _ _ _ => rfl,
    offOnlyIssues_pred fun _ _ _ => rfl, offOnlyIssues_pred fun _ _ _ => rfl, offOnlyIssues_scalar fun _ _ _ => rfl,
    offOnlyIssues_pred fun _ _ _ => rfl, offOnlyIssues_scalar fun _ _ _ => rfl,
    offOnlyIssues_guarded exec_pcrd,
    offOnlyIssues_guarded exec_ldc,
    offOnlyIssues_guarded exec_stc,
    offOnlyIssues_guarded exec_ldcx,
    offOnlyIssues_guarded exec_ldw,
    offOnlyIssues_guarded exec_stw,
    offOnlyIssues_guarded exec_atom,
    offOnlyIssues_guarded exec_mcopy,
    offOnlyIssues_of exec_waitc fun _ _ _ _ _ _ h => by simp [h],
    offOnlyIssues_guarded exec_fenceScope,
    offOnlyIssues_latch exec_lset,
    offOnlyIssues_latch exec_lclr,
    offOnlyIssues_latch exec_lwait,
    offOnlyIssues_latch exec_ltest,
    offOnlyIssues_hasp exec_hacq,
    offOnlyIssues_hasp exec_hrel,
    offOnlyIssues_hasp exec_htry,
    offOnlyIssues_guarded exec_pxlock,
    offOnlyIssues_guarded exec_pxunlock,
    offOnlyIssues_of exec_tzero fun _ _ _ _ _ _ h => by simp [h],
    offOnlyIssues_guarded exec_tmm,
    offOnlyIssues_guarded exec_tmmb,
    offOnlyIssues_of exec_trd fun _ _ _ _ _ _ h => by simp [h]⟩

end Sys2Proof.Say
namespace Sys2Proof.Machine
open Sys2Proof.Say

/-- Settles O7: the effect of each of these instructions begins with the test of guard bit 0. -/
theorem guardOffHasNoEffect : Obligations.GuardOffHasNoEffect := fun q hq _ _ _ _ _ h hg => (scalarGuarded_off q hq).gives h hg

end Sys2Proof.Machine
end

section
/-!
PROOFS. Samples (05 R207–R210): the lines that the texture cache brings in, and the lanes that SMP writes.
-/
namespace Sys2Proof.Say
open Sys2Proof.Machine

/-! ## The texture cache -/

/-- Every line that a core's texture cache holds is as ward memory has it. -/
def TexFaithful (w : Ward) (c : Core) : Prop := ∀ l ∈ c.tex, l.2 = wardRead w l.1 64
theorem texFill_faithful (w : Ward) (lines : List Nat) {c : Core} (h : TexFaithful w c) : TexFaithful w (texFill w lines c) := by
  refine List.foldlRecOn lines _ h fun c hc a _ => ?_
  split
  · exact hc
  · intro l hl
    rcases List.mem_cons.mp (List.mem_of_mem_take hl) with rfl | hl
    · rfl
    · exact hc l hl
theorem texLine_of_faithful {w : Ward} {c : Core} (h : TexFaithful w c) (a : Nat) : texLine c w a = wardRead w a 64 := by
  unfold texLine
  split
  · next l hl =>
    have at_ : l.1 = a := by simpa using List.find?_some hl
    rw [h l (List.mem_of_find?_eq_some hl), at_]
  · rfl
theorem texelBytes_of_faithful {w : Ward} {c : Core} (h : TexFaithful w c) (d : TexDesc) (x y : Nat) :
    texelBytes c w d x y = slice (wardRead w (texelAddr d x y / 64 * 64) 64) (texelAddr d x y % 64) (texBytes d.fmt) := by
  rw [texelBytes, texLine_of_faithful h]

/-! ## The state that a sample leaves -/

/-- Of two changes of the counters, the later stands. -/
theorem modPerf_modAcct_modPerf {slot fr : Nat} (q p : Perf) (a : Account → Account) (s : State) :
    modPerf (fun _ => p) (modAcct slot a { modPerf (fun _ => q) s with free := fr }) = modPerf (fun _ => p) (modAcct slot a { s with free := fr }) := rfl
/-- What counting a sample's lines and its traffic can change. -/
theorem sampleTraffic_eq (core : Nat) (k : Task) (wd addr hits fills : Nat) (who : Option Who) (s : State) :
    ∃ (p : Perf) (a : Account → Account) (fr : Nat), vaultTraffic core k wd addr fills false (tally core 0x030 hits who (tally core 0x031 fills who s)) =
      modPerf (fun _ => p) (modAcct k.slot a { s with free := fr }) := by
  obtain ⟨p1, e1⟩ := tally_eq core 0x031 fills who s
  rw [e1]
  obtain ⟨p2, e2⟩ := tally_eq core 0x030 hits who (modPerf (fun _ => p1) s)
  rw [e2]
  obtain ⟨p, a, fr, e⟩ := vaultTraffic_eq core k wd addr fills false (modPerf (fun _ => p2) (modPerf (fun _ => p1) s))
  exact ⟨p, a, fr, e.trans (modPerf_modAcct_modPerf p2 p a (modPerf (fun _ => p1) s))⟩

section
variable {t : ThreadRef} {k k' : Task} {s m : State} {u : Thread}

theorem IssuedTo.fillTex (h : IssuedTo t k s u m) (lines : List (Nat × Bytes)) :
    CoreFrame t k s (modCore t.core (fun x => { x with tex := lines }) m) (coreOf s t.core).vreqs (coreOf s t.core).copies lines :=
  h.frame.2.modCore (by rw [h.frame.2.core]) fun _ _ => rfl
/-- The lines of a core's texture cache, its thread, the traffic and the counters change with a sample. -/
theorem IssuedTo.sampled (h : IssuedTo t k s u m) (hk : k'.slot = k.slot) (lines : List (Nat × Bytes)) (g : Thread → Thread)
    (wd addr hits fills : Nat) (who : Option Who) :
    let n := vaultTraffic t.core k' wd addr fills false (tally t.core 0x030 hits who (tally t.core 0x031 fills who
      (Machine.modThread t g (modCore t.core (fun x => { x with tex := lines }) m))))
    n = { s with cores := n.cores, ctxs := n.ctxs, perf := n.perf, free := n.free } ∧
      CoreFrame t k s n (coreOf s t.core).vreqs (coreOf s t.core).copies (coreOf n t.core).tex ∧ threadOf n t = some (g u) := by
  have frame := (h.fillTex lines).modThread g
  obtain ⟨c, state⟩ : ∃ c, Machine.modThread t g (modCore t.core (fun x => { x with tex := lines }) m) = { s with cores := c, ctxs := m.ctxs, perf := m.perf } := by
    rw [h.frame.1]
    exact ⟨_, rfl⟩
  have thread : threadOf (Machine.modThread t g (modCore t.core (fun x => { x with tex := lines }) m)) t = some (g u) := by
    rw [threadOf_modThread, if_pos rfl]
    refine congrArg (Option.map g) (.trans ?_ h.thread)
    rw [threadOf, coreOf_modCore_same]
    rfl
  generalize Machine.modThread t g (modCore t.core (fun x => { x with tex := lines }) m) = filled at frame state thread ⊢
  obtain ⟨p, a, fr, eq⟩ := sampleTraffic_eq t.core k' wd addr hits fills who filled
  simp only [eq, hk]
  have same : CoreFrame t k s (modPerf (fun _ => p) (modAcct k.slot a { filled with free := fr })) _ _ lines := (frame.modAcct a).congr rfl rfl
  refine ⟨by rw [state]; rfl, ?_, thread⟩
  rw [congrArg (·.tex) same.core]
  exact same

end

/-- An instruction whose effect is a sample, once it is known what that makes of the issued state. -/
theorem MayIssue.gives_sampled {op : Nat} {t : ThreadRef} {f : KFields} {s : State} {th : Thread} {k : Task} (h : MayIssue op t f s th k)
    {i : Instr} {e : Engine} {c : Nat} {go : Thread → Task → State → State} {P : State → Prop} (hi : exec i s = issue op t f e c s go)
    (lines : List (Nat × Bytes)) (g : Thread → Thread)
    (he : ∃ wd addr hits fills who, go th (withStore s k) (Machine.issued op t f e c th k s) = vaultTraffic t.core (withStore s k) wd addr fills false
      (tally t.core 0x030 hits who (tally t.core 0x031 fills who
        (Machine.modThread t g (modCore t.core (fun x => { x with tex := lines }) (Machine.issued op t f e c th k s))))))
    (hP : ∀ n, n = { s with cores := n.cores, ctxs := n.ctxs, perf := n.perf, free := n.free } →
      CoreFrame t k s n (coreOf s t.core).vreqs (coreOf s t.core).copies (coreOf n t.core).tex → threadOf n t = some (g (stepped s t th)) → P n) :
    Gives i s P :=
  have ⟨wd, addr, hits, fills, who, he⟩ := he
  have ⟨state, frame, thread⟩ := (h.issued e c).sampled (withStore_slot s k) lines g wd addr hits fills who
  h.gives hi (by rw [he]; exact hP _ state frame thread)

/-! ## SMP -/

@[simp] theorem withStore_vregs (s : State) (k : Task) : (withStore s k).vregs = k.vregs := by rw [withStore_eq]
/-- The lines that the samples of the enabled lanes read. -/
def smpLines (th : Thread) (f : KFields) (d : TexDesc) : List Nat :=
  ((List.range 32).filter (fun i => (guardOf th f).testBit i)).flatMap (fun i =>
    (texTaps d f.mod.toNat (lane 32 (rdV th f.b.toNat) i) (lane 32 (rdV th f.c.toNat) i)).map (fun p => texelAddr d p.1 p.2 / 64 * 64))
/-- Channel j of a texture through a core's cache. -/
def smpTex (c : Core) (w : Ward) (d : TexDesc) (j : Nat) : Tex :=
  { w := d.w, h := d.h, border := d.border, at_ := fun x y => texelChan d.fmt j (texelBytes c w d x y) }
/-- The sample of a lane in channel j. -/
def smpLane (c : Core) (w : Ward) (th : Thread) (f : KFields) (d : TexDesc) (j i : Nat) : Nat :=
  sampleTex (smpTex c w d j) f.mod.toNat (lane 32 (rdV th f.b.toNat) i) (lane 32 (rdV th f.c.toNat) i)
/-- The registers that SMP writes. -/
def smpWrites (c : Core) (w : Ward) (th : Thread) (f : KFields) (d : TexDesc) (chans : Nat) (u : Thread) : Thread :=
  (List.range chans).foldl (fun u j => wrLanes 32 (guardOf th f) (f.dst.toNat + j) (smpLane c w th f d j) u) u
theorem smpTex_of_faithful {w : Ward} {c : Core} (h : TexFaithful w c) (d : TexDesc) (j : Nat) : smpTex c w d j =
    { w := d.w, h := d.h, border := d.border
      at_ := fun x y => texelChan d.fmt j (slice (wardRead w (texelAddr d x y / 64 * 64) 64) (texelAddr d x y % 64) (texBytes d.fmt)) } := by
  simp only [smpTex, texelBytes_of_faithful h]

end Sys2Proof.Say
namespace Sys2Proof.Machine
open Sys2Proof.Say

/-- Settles O20: SMP writes one register for each channel, and a line that the cache brings in is as ward memory has it. -/
theorem samples : Obligations.Samples := by
  intro t f s th k h ⟨i, hi, on⟩ kk a d inside ok mapped clean
  have ra : rdS th f.a.toNat = a := rdS_eq th _
  have fits : storeIn (withStore s k) a 32 = true := (storeIn_iff kk a 32).mpr inside
  have some_ : ¬ (List.range 32).filter (fun i => (guardOf th f).testBit i) = [] := fun none_ =>
    List.filter_eq_nil_iff.mp none_ i (List.mem_range.mpr hi) (by rw [testBit_guardOf th f (by omega)]; exact on)
  have desc : texDesc (storeRead (withStore s k) a 32) = d := rfl
  have sound (ls : List Nat) : ls.findSome? (fun l => poisonIn (wardOf s (taskWard s k)) l 64) = none :=
    List.findSome?_eq_none_iff.mpr fun _ _ => by rw [poisonIn, clean]; rfl
  let w := wardOf s (taskWard s k)
  let c := texFill w (smpLines th f d) (coreOf s t.core)
  let chans := min (texChans d.fmt) (k.vregs - f.dst.toNat)
  obtain ⟨rest, others, lanes⟩ := foldl_wrLanes 32 (guardOf th f) f.dst.toNat (smpLane c w th f d) (stepped s t th) chans
  refine h.gives_sampled (exec_smp t f s) c.tex (smpWrites c w th f d chans) ?effect ?registers
  case effect =>
    dsimp only
    rw [if_neg some_, ra, fits, desc, ok, taskWard_withStore, withStore_slot, mapped, sound, withStore_vregs]
    exact ⟨_, _, _, _, _, rfl⟩
  case registers =>
    refine fun n state frame thread => ⟨state, frame, _, thread.trans (congrArg some rest), others, fun j i hj hi off => ?_, fun empty j i hj hi on => ?_⟩
    · refine (lanes j i hj (by omega)).trans ?_
      rw [testBit_guardOf th f (by omega), off]
      rfl
    · have faithful : TexFaithful w c := texFill_faithful w _ fun l hl => by rw [empty] at hl; cases hl
      refine (lanes j i hj (by omega)).trans ?_
      rw [testBit_guardOf th f (by omega), on, if_pos rfl, smpLane, smpTex_of_faithful faithful, lane_rdV, lane_rdV]

end Sys2Proof.Machine
end

section
/-!
PROOFS. Faults of a kernel (05 R216): an instruction whose operands are forbidden tears its context down.
-/
namespace Sys2Proof.Say
open Sys2Proof.Machine

/-! ## Accesses that fault -/

theorem storeBad_range {k : Task} {a n : Nat} (al : Nat) (h : k.size < a + n) : storeBad k a n al = some (0x01, a % 2 ^ 48) := by
  have outside : storeIn k a n = false := by rw [Bool.eq_false_iff, Ne, storeIn_iff]; omega
  rw [storeBad, outside]
  rfl
theorem storeBad_align {k : Task} {a n al : Nat} (h : a + n ≤ k.size) (hal : a % al ≠ 0) : storeBad k a n al = some (0x03, a) := by
  rw [storeBad, (storeIn_iff k a n).mpr h, Bool.not_true, if_neg Bool.false_ne_true, if_pos hal]
  rfl
section
variable {s : State} {k : Task} {a n : Nat} {write : Bool}
theorem wardBad_range (al : Nat) (h : ctxMapped (wardOf s (taskWard s k)) k.slot a n write = false) :
    wardBad s (withStore s k) a n al write = some (0x02, a % 2 ^ 48) := by
  rw [wardBad, taskWard_withStore, withStore_slot, h]
  rfl
theorem wardBad_align {al : Nat} (h : ctxMapped (wardOf s (taskWard s k)) k.slot a n write = true) (hal : a % al ≠ 0) :
    wardBad s (withStore s k) a n al write = some (0x03, a) := by
  rw [wardBad, taskWard_withStore, withStore_slot, h, Bool.not_true, if_neg Bool.false_ne_true, if_pos hal]
  rfl
end

/-! ## An instruction that faults -/

section
variable {op : Nat} {t : ThreadRef} {f : KFields} {s : State} {th : Thread} {k : Task} {x : Ctx} {i : Instr} {e : Engine} {n reason : Nat}

/-- A KERNEL_FAULT of an instruction that may issue, in the state before it. -/
theorem MayIssue.tornDown (h : MayIssue op t f s th k) (hx : ctxOf s k.slot = some x) (th' : Thread) (reason addr : Nat) :
    TornDown (kernelFault th' (withStore s k) reason addr s) k.slot 0x10 reason := by
  have torn := tornDown_kernelFault (k := withStore s k) (s := s) th' reason addr
  rw [withStore_slot] at torn
  exact torn h.conditions.2.1 (by rw [hx]; rfl)
/-- An instruction whose effect under its guard is a fault. -/
theorem MayIssue.falls (h : MayIssue op t f s th k) (hg : guardBit th f 0 = true) (hx : ctxOf s k.slot = some x)
    {body : Thread → Task → State → State}
    (hi : exec i s = issue op t f e n s (fun th k m => if !guard0 th f then m else body th k m))
    (he : ∃ addr, body th (withStore s k) (Machine.issued op t f e n th k s) = kernelFault th (withStore s k) reason addr s) :
    Gives i s (fun n => TornDown n k.slot 0x10 reason) :=
  have ⟨addr, he⟩ := he
  h.gives_eq hg hi he (h.tornDown hx th reason addr)
/-- An instruction with a test of its operands, which they fail. -/
theorem MayIssue.falls_bad (h : MayIssue op t f s th k) (hg : guardBit th f 0 = true) (hx : ctxOf s k.slot = some x)
    {bad : Thread → Task → Option (Nat × Nat)} {go : Thread → Task → State → State}
    (hi : exec i s = issue op t f e n s (fun th k m => if !guard0 th f then m else orFault th k (bad th k) s (go th k m)))
    (hb : ∃ addr, bad th (withStore s k) = some (reason, addr)) : Gives i s (fun n => TornDown n k.slot 0x10 reason) :=
  h.falls hg hx hi (by obtain ⟨addr, hb⟩ := hb; exact ⟨addr, by rw [hb]; rfl⟩)

/-- A load or store of core store. -/
theorem MayIssue.storeFalls (h : MayIssue op t f s th k) (hg : guardBit th f 0 = true) (hx : ctxOf s k.slot = some x)
    {go : Thread → Task → State → State}
    (hi : exec i s = issue op t f e n s (fun th k m => if !guard0 th f then m
      else orFault th k (storeBad k (effAddr th f) (ldSize f.mod.toNat) (ldAlign f.mod.toNat)) s (go th k m))) :
    ((withStore s k).size < address th f + ldSize f.mod.toNat → Gives i s (fun n => TornDown n k.slot 0x10 0x01)) ∧
    (address th f + ldSize f.mod.toNat ≤ (withStore s k).size → address th f % ldAlign f.mod.toNat ≠ 0 →
      Gives i s (fun n => TornDown n k.slot 0x10 0x03)) :=
  ⟨fun outside => h.falls_bad hg hx hi ⟨_, by rw [effAddr_eq, storeBad_range _ outside]⟩,
   fun inside skew => h.falls_bad hg hx hi ⟨_, by rw [effAddr_eq, storeBad_align inside skew]⟩⟩
/-- A load, store or atomic of ward memory. -/
theorem MayIssue.wardFalls (h : MayIssue op t f s th k) (hg : guardBit th f 0 = true) (hx : ctxOf s k.slot = some x)
    {addr : Thread → Nat} {size al : Nat} {write : Bool} {go : Thread → Task → State → State}
    (hi : exec i s = issue op t f e n s (fun th k m => if !guard0 th f then m else orFault th k (wardBad s k (addr th) size al write) s (go th k m))) :
    (ctxMapped (wardOf s (taskWard s k)) k.slot (addr th) size write = false → Gives i s (fun n => TornDown n k.slot 0x10 0x02)) ∧
    (ctxMapped (wardOf s (taskWard s k)) k.slot (addr th) size write = true → addr th % al ≠ 0 → Gives i s (fun n => TornDown n k.slot 0x10 0x03)) :=
  ⟨fun unmapped => h.falls_bad hg hx hi ⟨_, wardBad_range al unmapped⟩, fun mapped skew => h.falls_bad hg hx hi ⟨_, wardBad_align mapped skew⟩⟩
/-- A latch instruction whose latch does not exist. -/
theorem MayIssue.latchFalls (h : MayIssue op t f s th k) (hg : guardBit th f 0 = true) (hx : ctxOf s k.slot = some x)
    {go : Thread → Task → LatchAt → State → State} (hi : exec i s = latchOp op t f s go) (loc : f.imm.getLsbD 16 = false)
    (outside : 8 ≤ latchIndex th f) : Gives i s (fun n => TornDown n k.slot 0x10 0x04) :=
  h.falls hg hx hi ⟨0, by rw [latchNamed_eq, loc]; simp [latchAt, show ¬ latchIndex th f < 8 by omega]; rfl⟩

theorem haspIndex_eq (th : Thread) (f : KFields) : haspIndex th f = haspNum th f := by
  rw [haspIndex, haspNum, rdS_eq, BitVec.toNat_add, BitVec.toNat_ofNat, Nat.add_mod_mod]
  rfl
theorem haspNamed_here (s : State) (k : Task) {idx : Nat} (h : idx < 8192) :
    haspNamed s k idx = ((ctxOf s k.slot).bind (fun x => haspAt x idx)).map .here := if_pos h
/-- A hasp instruction whose guard bit 0 is 1 and whose hasp exists on this device. -/
theorem MayIssue.hasp (h : MayIssue op t f s th k) (hg : guardBit th f 0 = true) {id : Nat} {P : State → Prop}
    {go : Thread → Task → HaspAt → State → State} (hi : exec i s = haspOp op t f s go) (own : haspNum th f < 8192)
    (at_ : (ctxOf s k.slot).bind (fun x => haspAt x (haspNum th f)) = some id)
    (hP : P (go th (withStore s k) (.here id) (Machine.issued op t f .none 0 th k s))) : Gives i s P := by
  refine h.gives_eq hg hi ?_ hP
  rw [haspIndex_eq, haspNamed_here _ _ own, withStore_slot, at_]
  rfl
/-- A hasp instruction whose hasp does not exist. -/
theorem MayIssue.haspFalls (h : MayIssue op t f s th k) (hg : guardBit th f 0 = true) (hx : ctxOf s k.slot = some x)
    {go : Thread → Task → HaspAt → State → State} (hi : exec i s = haspOp op t f s go) (own : haspNum th f < 8192)
    (none_ : haspAt x (haspNum th f) = none) : Gives i s (fun n => TornDown n k.slot 0x10 0x05) :=
  h.falls hg hx hi ⟨0, by rw [haspIndex_eq, haspNamed_here _ _ own, withStore_slot, hx, Option.bind_some, none_]; rfl⟩

end

/-- What a release does on a hasp of this device. -/
theorem IssuedTo.releaseHaspNow {t : ThreadRef} {s m : State} {th : Thread} {k : Task} {idx id : Nat} {hasp : Hasp}
    (h : IssuedTo t k s (stepped s t th) m) (task : tget s.tasks th.task = some k) (own : idx < 8192)
    (at_ : (ctxOf s k.slot).bind (fun x => haspAt x idx) = some id) (hh : tget s.hasps id = some hasp) :
    Machine.releaseHaspNow t idx m = if 0xFFFF ≤ hasp.count.toNat + (recentOf s hasp).length then parkedFault t 0x06 m
      else settleInherit (haspSettle id (modHasp id (haspGive k.slot) m)) := by
  obtain ⟨x, hx, hid⟩ := Option.bind_eq_some_iff.mp at_
  obtain ⟨a, ha⟩ := h.frame.2.ctx_some hx
  have named : haspNamed m k idx = some (.here id) := by
    rw [haspNamed_here _ _ own, ha, Option.bind_some, show haspAt { x with acct := a } idx = some id from hid]
    rfl
  have found : tgetD m.hasps id {} = hasp := by rw [tgetD, show m.hasps = s.hasps by rw [h.frame.1], hh]; rfl
  simp only [Machine.releaseHaspNow, h.thread, Option.bind_some, show tget m.tasks (stepped s t th).task = some k by rw [h.tasks]; exact task,
    named, found, recentOf, h.now]
  rfl
/-- An HREL that would carry the count of its hasp past 0xFFFF. -/
theorem haspOverflow {t : ThreadRef} {f : KFields} {s : State} {th : Thread} {k : Task} {x : Ctx} {id : Nat} {hasp : Hasp}
    (h : MayIssue 0xA5 t f s th k) (hg : guardBit th f 0 = true) (hx : ctxOf s k.slot = some x) (own : haspNum th f < 8192)
    (at_ : haspAt x (haspNum th f) = some id) (hh : tget s.hasps id = some hasp) (full : hasp.count = 0xFFFF) (none_ : copiesOf s t = 0) :
    Gives (.hrel t f) s (fun n => TornDown n k.slot 0x10 0x06) := by
  have issued := h.issued .none 0
  obtain ⟨a, ha⟩ := issued.frame.2.ctx_some hx
  have named : (ctxOf s k.slot).bind (fun x => haspAt x (haspNum th f)) = some id := by rw [hx]; exact at_
  have slots : (Machine.issued 0xA5 t f .none 0 th k s).slots = s.slots := by rw [issued.frame.1]
  refine h.hasp hg (exec_hrel t f s) own named ?_
  rw [if_pos (issued.copiesOf.trans none_), haspIndex_eq, issued.releaseHaspNow h.task own named hh, full,
    if_pos (show 0xFFFF ≤ (0xFFFF : BitVec 16).toNat + _ from Nat.le_add_right ..), parkedFault,
    issued.thread]
  dsimp only
  rw [tgetD, show (stepped s t th).task = th.task from rfl, issued.tasks, h.task]
  exact tornDown_kernelFault _ _ _ ((congrArg (fun l => (tgetD l k.slot {}).state) slots).trans h.conditions.2.1) (by rw [Option.getD_some, ha]; rfl)

end Sys2Proof.Say
namespace Sys2Proof.Machine
open Sys2Proof.Say

/-- Settles O21: each of these instructions tests its operands before its effect, and a test that fails is a KERNEL_FAULT. -/
theorem kernelFaults : Obligations.KernelFaults := by
  intro t f s th k x hx hg kk w falls
  simp only [List.forall_mem_cons, List.not_mem_nil, false_implies, implies_true, and_true]
  have ra : rdS th f.a.toNat = (sA th f).toNat := rdS_eq th _
  have wardOp {op : Nat} (h : MayIssue op t f s th k) {i : Instr} {e : Engine} {n : Nat} {go : Thread → Task → State → State} {write : Bool}
      (hi : exec i s = issue op t f e n s (fun th k m => if !guard0 th f then m
        else orFault th k (wardBad s k (effAddr th f) (ldSize f.mod.toNat) (ldAlign f.mod.toNat) write) s (go th k m))) :=
    effAddr_eq th f ▸ h.wardFalls hg hx (addr := fun th => effAddr th f) hi
  refine ⟨⟨fun h => h.storeFalls hg hx (exec_ldc t f s), fun h => h.storeFalls hg hx (exec_stc t f s)⟩,
    ⟨fun h => wardOp h (exec_ldw t f s), fun h => wardOp h (exec_stw t f s)⟩,
    fun h => ra ▸ h.wardFalls hg hx (addr := fun th => rdS th f.a.toNat) (exec_atom t f s),
    ⟨fun h => h.latchFalls hg hx (exec_lset t f s), fun h => h.latchFalls hg hx (exec_lclr t f s),
      fun h => h.latchFalls hg hx (exec_lwait t f s), fun h => h.latchFalls hg hx (exec_ltest t f s)⟩,
    ⟨fun h => h.haspFalls hg hx (exec_hacq t f s), fun h => h.haspFalls hg hx (exec_hrel t f s), fun h => h.haspFalls hg hx (exec_htry t f s)⟩,
    fun id hasp h own at_ hh full none_ => haspOverflow h hg hx own at_ hh full none_,
    fun h other => h.falls_bad hg hx (exec_tmm t f s) ⟨0, ?tmm⟩, fun h int => h.falls_bad hg hx (exec_tmmb t f s) ⟨0, ?tmmb⟩,
    fun h inside bad => ?smp, fun h blocks inside bad => h.falls hg hx (exec_mcopy t f s) ⟨(sA th f).toNat, ?mcopy⟩⟩
  case tmm =>
    rw [tmmFmtA, if_pos (bne_iff_ne.mpr other)]
    rfl
  case tmmb =>
    rw [int]
    rfl
  case smp =>
    have on : ¬ (List.range 32).filter (fun i => (guardOf th f).testBit i) = [] := fun none_ =>
      List.filter_eq_nil_iff.mp none_ 0 (by decide) ((testBit_guardOf th f (by decide)).trans hg)
    have fits : storeIn (withStore s k) (sA th f).toNat 32 = true := (storeIn_iff kk _ 32).mpr inside
    refine h.gives (exec_smp t f s) ?_
    dsimp only
    rw [if_neg on, ra, fits, bad]
    exact h.tornDown hx th 0x08 _
  case mcopy =>
    have fits : storeIn (withStore s k) (sA th f).toNat 32 = true := (storeIn_iff kk _ 32).mpr inside
    dsimp only
    rw [if_neg (by omega), ra, fits, bad]
    rfl

end Sys2Proof.Machine
end

section
/-!
PROOFS. Limits of waits and uncorrectable replies (05 R201, R204; 12 R432, R434; 15 R482).
-/
namespace Sys2Proof.Say
open Sys2Proof.Machine

/-! ## Contexts that a fault finds live -/

theorem live_of_liveCtx {s : State} {slot : Nat} {x : Ctx} (h : liveCtx s slot = some x) : (slotOf s slot).state = .live := by
  unfold liveCtx at h
  split at h
  · assumption
  · cases h
theorem live_of_namedCtx {s : State} {slot gen : Nat} {x : Ctx} (h : namedCtx s slot gen = some x) : (slotOf s slot).state = .live := by
  unfold namedCtx at h
  split at h
  · next live => exact live.1
  · cases h
/-- A guard that holds. -/
theorem guardThat_true {b : Bool} {why : String} {o : Out} (h : b = true) : guardThat b why o = o := by rw [h]; rfl
theorem limitPast_of {s : State} {since limit : Nat} (h : since + 60 * limit < s.now) : limitPast s since limit = true := decide_eq_true h

/-! ## Limits -/

/-- A KERNEL_FAULT of a parked thread. -/
theorem tornDown_parkedFault {t : ThreadRef} {s : State} {th : Thread} {k : Task} {x : Ctx} (reason : Nat) (thread : threadOf s t = some th)
    (task : tget s.tasks th.task = some k) (ctx : liveCtx s k.slot = some x) : TornDown (parkedFault t reason s) k.slot 0x10 reason := by
  rw [parkedFault, thread]
  dsimp only
  rw [tgetD, task]
  exact tornDown_kernelFault _ _ _ (live_of_liveCtx ctx) (by rw [Option.getD_some, ctxOf_of_liveCtx ctx]; rfl)

theorem waitsHaveLimits_holds : waitsHaveLimits := by
  refine ⟨fun t s th k x thread task ctx parked late => ?wait, fun t s th k x id thread task ctx parked late => ?hasp,
    fun s rec q x remote ctx late => ?remote, fun s rec q x remotes expired ctx => ?expire⟩
  case wait =>
    have waits : (match th.park with | .latch _ _ => true | .pixels _ _ => true | _ => false) = true := by
      rcases parked with ⟨b, i, e⟩ | ⟨q, px, e⟩ <;> rw [e]
    have run : exec (.waitLimit t) s = .next (parkedFault t kfWaitLimit s) := by
      change execWaitLimit t s = _
      rw [execWaitLimit, thread]
      dsimp only [need]
      rw [task, Option.bind_some, ctx]
      exact guardThat_true (Bool.and_eq_true_iff.mpr ⟨waits, limitPast_of late⟩)
    exact ⟨_, run, tornDown_parkedFault _ thread task ctx⟩
  case hasp =>
    have run : exec (.haspTimeout t) s =
        .next (faultOn k.core k.slot kHaspTimeout 0 (natLe 2 (indexOfHasp x id) ++ [0, 0] ++ natLe 4 k.layer) s) := by
      change execHaspTimeout t s = _
      simp only [execHaspTimeout, thread, task, ctx, parked, need]
      exact guardThat_true (limitPast_of late)
    exact ⟨_, run, tornDown_faultOn _ _ _ _ (live_of_liveCtx ctx) (by rw [ctxOf_of_liveCtx ctx]; rfl)⟩
  case remote =>
    have run : exec (.remoteWaitLimit rec) s = .next { s with remotes := tput s.remotes rec { q with expired := true } } := by
      change execRemoteWaitLimit rec s = _
      simp only [execRemoteWaitLimit, remote, ctx, need]
      exact guardThat_true (limitPast_of late)
    exact ⟨_, run, rfl⟩
  case expire =>
    have one : s.remotes.filter (fun r => r.2.expired) = [(rec, q)] := by rw [remotes]; exact List.filter_cons_of_pos expired
    rw [expireRecords, loseRecords, one]
    exact tornDown_faultOn _ _ _ _ (live_of_namedCtx ctx) (by rw [ctxOf_of_namedCtx ctx]; rfl)

theorem uncorrectableReplies_holds : uncorrectableReplies := by
  intro core req s r x hr ctx
  have run : exec (.vaultReply core req true) s = .next (uncorrectable r.slot 0x05 (r.addr / 64 * 64) core
      (modCore core (fun c => { c with vreqs := tdel c.vreqs req }) s)) := by
    rw [exec_vaultReply, execVaultReply, hr]
    dsimp only [need]
    rw [ctx]
    rfl
  exact ⟨_, run, tornDown_uncorrectable _ _ _ (live_of_namedCtx ctx) (Option.isSome_of_eq_some (ctxOf_of_namedCtx ctx))⟩

end Sys2Proof.Say
namespace Sys2Proof.Machine
open Sys2Proof.Say

/-- Settles O22: a limit that has passed, and an uncorrectable reply, begin the teardown of the context that waits. -/
theorem waitsHaveLimits : Obligations.WaitsHaveLimits := ⟨waitsHaveLimits_holds, uncorrectableReplies_holds⟩

end Sys2Proof.Machine
end

section
/-!
PROOFS. The built-in code (05 R193, R215): a system-only instruction steps its thread and is charged, or runs a layer.
-/
namespace Sys2Proof.Say
open Sys2Proof.Machine

/-- Nothing but a core's threads and issues and the counters has changed, and the thread has stepped. -/
structure Stepped (t : ThreadRef) (s : State) (th : Thread) (m : State) : Prop where
  state : m = { s with cores := m.cores, perf := m.perf }
  thread : threadOf m t = some (stepped s t th)

section
variable {t : ThreadRef} {s m : State} {th : Thread}

theorem stepped_counted (h : threadOf s t = some th) (ev n : Nat) (who : Option Who) : Stepped t s th (tally t.core ev n who (stepThread t s)) := by
  obtain ⟨p, eq⟩ := tally_eq t.core ev n who (stepThread t s)
  rw [eq]
  refine ⟨rfl, ?_⟩
  change threadOf (stepThread t s) t = _
  rw [threadOf, stepThread, coreOf_modCore_same]
  dsimp only
  rw [tget_tmod_same, show tget (coreOf s t.core).threads t.slot = some th from h]
  rfl
/-- The network of a task rests on neither the cores nor the counters. -/
theorem Stepped.tileNet (h : Stepped t s th m) (x : Ctx) (k : Task) : Machine.tileNet m x k = Machine.tileNet s x k := by
  rw [h.state]
  rfl
theorem Stepped.ctxs (h : Stepped t s th m) : m.ctxs = s.ctxs := by rw [h.state]
theorem Stepped.tasks (h : Stepped t s th m) : m.tasks = s.tasks := by rw [h.state]

end

/-- A thread may issue an instruction of the built-in code. -/
structure RunsBuiltIn (t : ThreadRef) (s : State) (th : Thread) (k : Task) (x : Ctx) : Prop where
  thread : threadOf s t = some th
  task : tget s.tasks th.task = some k
  park : th.park = .running
  started : k.started = true
  code : k.code = .builtIn
  ctx : liveCtx s k.slot = some x
  core : coreIssues (coreOf s t.core) = true

section
variable {t : ThreadRef} {s : State} {th : Thread} {k : Task} {x : Ctx}

/-- The state after the issue of a system-only instruction, before its work. -/
def builtInIssued (t : ThreadRef) (k : Task) (s : State) : State := tally t.core 0x00A 1 (some (whoOf k)) (stepThread t s)
theorem RunsBuiltIn.issued (h : RunsBuiltIn t s th k x) : Stepped t s th (builtInIssued t k s) := stepped_counted h.thread ..
theorem RunsBuiltIn.exec (h : RunsBuiltIn t s th k x) (op : BuiltIn) : Machine.exec (.builtInInstruction t op) s =
    match op with
    | .layerStep => layerStep th.task k (builtInIssued t k s)
    | .expand | .epilogue | .warpBlend | .composite => .next (chargeWork k.slot (builtInIssued t k s)) := by
  change execBuiltInInstruction t op s = _
  rw [execBuiltInInstruction, h.thread]
  dsimp only [need]
  rw [h.task]
  dsimp only
  rw [h.park, h.started, h.code, h.ctx, h.core]
  cases op <;> rfl

/-- The work of an instruction is charged to its context. -/
theorem RunsBuiltIn.charges (h : RunsBuiltIn t s th k x) {op : BuiltIn}
    (hop : Machine.exec (.builtInInstruction t op) s = .next (chargeWork k.slot (builtInIssued t k s))) :
    Gives (.builtInInstruction t op) s (fun n =>
      n = { s with cores := n.cores, ctxs := n.ctxs, perf := n.perf, free := n.free } ∧ threadOf n t = some (stepped s t th) ∧
      (∀ i, i ≠ k.slot → ctxOf n i = ctxOf s i)) := by
  have stepped := h.issued
  refine ⟨_, hop, ?_, stepped.thread, fun i hi => ?_⟩
  · generalize builtInIssued t k s = m at stepped
    rw [stepped.state]
    rfl
  · refine (ctxOf_modCtx k.slot _ _ i).trans ?_
    rw [if_neg hi]
    exact congrArg (tget · i) stepped.ctxs
/-- The next layer of a network that is no CUSTOM layer and whose tags agree. -/
theorem networkStep_next {id : Nat} {m : State} {net : TileNet} (ctx : ctxOf m k.slot = some x) (runs : tileNet m x k = some net)
    (more : k.progress < net.net.count) (alone : customRuns m id = false)
    (agree : layerSkew (tileEnvNow k net) ((layersOf net.img).getD (net.net.first + k.progress) {}) = none)
    (plain : ((layersOf net.img).getD (net.net.first + k.progress) {}).op ≠ 15) :
    networkStep id k m = .next (modTask id (fun k' => { k' with progress := k'.progress + 1, layer := net.net.first + k.progress }) m) := by
  rw [networkStep, ctx]
  dsimp only [need]
  rw [runs]
  dsimp only
  rw [alone, decide_eq_true more, agree]
  dsimp only
  rw [if_neg plain]
  rfl
theorem layerStep_network {i : Nat} (kind : k.kind = .tile i ∨ k.kind = .train i) (id : Nat) (m : State) : layerStep id k m = networkStep id k m := by
  rcases kind with e | e <;> rw [layerStep, e]

end

end Sys2Proof.Say
namespace Sys2Proof.Machine
open Sys2Proof.Say

/-- Settles O23: a system-only instruction steps its thread, and then is charged or runs the next layer. -/
theorem builtInCode : Obligations.BuiltInCode := by
  intro t s th k x thread task park started code ctx core
  have h : RunsBuiltIn t s th k x := ⟨thread, task, park, started, code, ctx, core⟩
  refine ⟨?work, ?layer⟩
  case work =>
    simp only [List.forall_mem_cons, List.not_mem_nil, false_implies, implies_true, and_true]
    exact ⟨h.charges (h.exec _), h.charges (h.exec _), h.charges (h.exec _), h.charges (h.exec _)⟩
  case layer =>
    intro i net kind runs more alone l agree plain
    have issued := h.issued
    have run : exec (.builtInInstruction t .layerStep) s = .next _ := (h.exec .layerStep).trans <| (layerStep_network kind _ _).trans <|
      networkStep_next ((congrArg (tget · k.slot) issued.ctxs).trans (ctxOf_of_liveCtx ctx)) ((issued.tileNet x k).trans runs) more
        ((congrArg (List.any · _) issued.tasks).trans alone) agree plain
    refine ⟨_, run, ?_, issued.thread, fun j hj => ?_, ?_⟩
    · generalize builtInIssued t k s = m at issued
      rw [issued.state]
      rfl
    · exact (tget_tmod_other _ _ _ _ hj).trans (congrArg (tget · j) issued.tasks)
    · refine (tget_tmod_same ..).trans ?_
      rw [issued.tasks, task]
      rfl

end Sys2Proof.Machine
end

section
/-!
PROOFS. The order of one fabric cycle on a hasp (05 R199, R203): a state in which the count that a later acquirer gives back cannot be taken.
-/
namespace Sys2Proof.Say
open Sys2Proof.Machine

/-- HACQ of hasp index 0, by the first thread of core 0. -/
def acquirer : ThreadRef := { core := 0, slot := 0 }
def hacqWord : KFields := { pneg := false, pred := 0, mod := 0, dst := 0, a := 0, b := 0, c := 0, imm := 0 }
/-- A later thread, of context 3, which took the last count of the hasp in this fabric cycle. -/
def laterAcquirer : ThreadRef := { core := 0, slot := 1 }
def laterThread : Thread := { task := 1 }
def laterTask : Task := { slot := 3 }
/-- Seven contexts hold the hasp, in a table whose first two keys are out of order. -/
def crossedHasp : Hasp :=
  { count := 0, recent := [(laterAcquirer, 0, none)], held := [(5, 1), (3, 2), (6, 1), (7, 1), (8, 1), (9, 1), (10, 1)] }
def crossedTask : Task := { started := true }
def crossedState : State := { State.reset with
  fw := { running := true, ready := true }
  slots := [(0, { state := .live })]
  ctxs := [(0, { hasps := [some 0] })]
  tasks := [(0, crossedTask), (1, laterTask)]
  cores := [(0, { threads := [(0, {}), (1, laterThread)] })]
  hasps := [(0, crossedHasp)] }

theorem crossedState_mayIssue : MayIssue 0xA4 acquirer hacqWord crossedState {} crossedTask := by
  constructor <;> decide +kernel
/-- The hasp would count an eighth holder once the later acquirer has given its count back, so the earlier thread parks. -/
theorem crossedState_parks : ∃ n, exec (.hacq acquirer hacqWord) crossedState = .next n ∧
    (tget n.hasps 0).map (fun h => (h.count, h.parked)) = some (0, [.thread acquirer]) := by
  have parks : (match exec (.hacq acquirer hacqWord) crossedState with
      | .next n => (tget n.hasps 0).map (fun h => (h.count, h.parked)) | _ => none) = some (0, [.thread acquirer]) := by decide +kernel
  split at parks
  · next n run => exact ⟨n, run, parks⟩
  · cases parks

theorem not_haspsInCycle : ¬ haspsInCycle := by
  intro h
  obtain ⟨n, run, parks⟩ := crossedState_parks
  obtain ⟨_, run', takes, -⟩ := (h acquirer hacqWord crossedState {} crossedTask 0 crossedHasp laterAcquirer laterThread crossedState_mayIssue
    (by decide +kernel) (by decide +kernel) (by decide +kernel) rfl rfl (.inr (by decide)) rfl).2
    laterTask rfl (by decide +kernel) rfl rfl rfl (by decide)
  cases run.symm.trans run'
  exact absurd (parks.symm.trans takes) (by decide)

end Sys2Proof.Say
namespace Sys2Proof.Machine
open Sys2Proof.Say

/-- Refutes O16: the statement admits a table of holders whose keys do not rise, into which `haspGive` puts the giver a second time. The
hasp then counts eight holders, and the earlier HACQ parks where the statement has it take the count. No step makes such a table. -/
theorem not_hasps : ¬ Obligations.Hasps := fun h => not_haspsInCycle h.2

end Sys2Proof.Machine
end

section
/-!
PROOFS. The start of a geometry pass (06 R224–R233; 01 R38): what a pass changes of its context, its planes in ward memory, and the tasks
that are dropped.
-/
namespace Sys2Proof.Machine
open Sys2Proof.Say (InFrame)

/-! ## A context and its frame in progress -/

/-- A context without its account. -/
def uncharged (x : Ctx) : Ctx := { x with acct := {} }
/-- A context with a frame in progress. -/
def withFrame (x : Ctx) (f : Frame) : Ctx := { x with fr := { x.fr with cur := some f } }
/-- A frame with another geometry pass. -/
def withGeo (g : GeoState) (f : Frame) : Frame := { f with geo := g }
/-- The context x of a slot stands, but for its account and its frame in progress, which is f. -/
def Computes (s : State) (slot : Nat) (x : Ctx) (f : Frame) : Prop := (ctxOf s slot).map uncharged = some (uncharged (withFrame x f))

/-- Work is charged to the context's account alone, with free values. -/
theorem chargeWork_eq (slot : Nat) (s : State) : ∃ a, chargeWork slot s = { modAcct slot a s with free := s.free + 8 } := ⟨_, rfl⟩

section
variable {s n : State} {slot : Nat} {x : Ctx} {f : Frame}

theorem withFrame_cur (h : x.fr.cur = some f) : withFrame x f = x := by
  unfold withFrame
  rw [← h]
theorem Computes.of_inFrame (h : InFrame s slot x f) : Computes s slot x f := by
  rw [Computes, ctxOf_of_liveCtx h.live, withFrame_cur h.cur]
  rfl
theorem Computes.ctx (h : Computes s slot x f) : ∃ y, ctxOf s slot = some y ∧ uncharged y = uncharged (withFrame x f) :=
  Option.map_eq_some_iff.mp h
theorem Computes.cur_ing (h : Computes s slot x f) : ∃ y, ctxOf s slot = some y ∧ y.fr.cur = some f ∧ y.ing = x.ing := by
  obtain ⟨y, hy, e⟩ := h.ctx
  exact ⟨y, hy, (congrArg (fun z : Ctx => z.fr.cur) e :), (congrArg Ctx.ing e :)⟩
theorem Computes.of_ctxs (h : Computes s slot x f) (e : n.ctxs = s.ctxs) : Computes n slot x f :=
  (congrArg (fun t => (tget t slot).map uncharged) e).trans h
theorem Computes.modFrame (h : Computes s slot x f) (g : Frame → Frame) : Computes (modFrame slot g s) slot x (g f) := by
  obtain ⟨y, hy, e⟩ := h.ctx
  rw [Computes, Machine.modFrame, ctxOf_modCtx, if_pos rfl, hy]
  exact congrArg (fun z : Ctx => some { z with fr := { z.fr with cur := z.fr.cur.map g } }) e
theorem Computes.modAcct (h : Computes s slot x f) (a : Account → Account) : Computes (modAcct slot a s) slot x f := by
  obtain ⟨y, hy, e⟩ := h.ctx
  rw [Computes, Machine.modAcct, ctxOf_modCtx, if_pos rfl, hy]
  exact congrArg some e
theorem Computes.modGeo (h : Computes s slot x f) (g : GeoState → GeoState) : Computes (modGeo slot g s) slot x (withGeo (g f.geo) f) :=
  h.modFrame (fun f => withGeo (g f.geo) f)
theorem Computes.chargeFixed (h : Computes s slot x f) (cycles : Nat) : Computes (chargeFixed slot cycles s) slot x f := h.modAcct _
theorem Computes.chargeWork (h : Computes s slot x f) : Computes (chargeWork slot s) slot x f := by
  obtain ⟨a, charged⟩ := chargeWork_eq slot s
  exact (h.modAcct a).of_ctxs (by rw [charged])
end

theorem ctxOf_modFrame_other {slot i : Nat} (g : Frame → Frame) (s : State) (h : i ≠ slot) : ctxOf (modFrame slot g s) i = ctxOf s i :=
  tget_tmod_other _ _ _ _ h
theorem ctxOf_chargeWork_other {slot i : Nat} (s : State) (h : i ≠ slot) : ctxOf (chargeWork slot s) i = ctxOf s i :=
  tget_tmod_other _ _ _ _ h

/-! ## The planes in ward memory (06 R225, R233) -/

/-- The buffers of a context lie where its allocation says, whatever else changes of the wards. -/
theorem buffersBase_modWard {v : Nat} {g : Ward → Ward}
    (hg : ∀ w, (g w).allocs.map (fun a => (a.kind, a.base)) = w.allocs.map (fun a => (a.kind, a.base))) (s : State) (slot wd : Nat) :
    buffersBase (modWard v g s) slot wd = buffersBase s slot wd := by
  have places (w : Ward) : (w.allocs.find? (fun a => a.kind == .buffers slot)).map (·.base)
      = ((w.allocs.map (fun a => (a.kind, a.base))).find? (fun p => p.1 == .buffers slot)).map (·.2) := by
    rw [List.find?_map, Option.map_map]
    rfl
  simp only [buffersBase, places, wardOf_modWard]
  split
  · next h => rw [hg, h.1]
  · rfl
theorem buffersBase_wardWrite (v a : Nat) (b : Bytes) (s : State) (slot wd : Nat) :
    buffersBase (wardWrite v a b s) slot wd = buffersBase s slot wd := by
  refine buffersBase_modWard ?_ s slot wd
  exact fun _ => rfl
theorem planeAddr_wardWrite (v a : Nat) (b : Bytes) (s : State) (slot wd : Nat) (c : Bytes) (k px : Nat) :
    planeAddr (wardWrite v a b s) slot wd c k px = planeAddr s slot wd c k px := by
  simp only [planeAddr, buffersBase_wardWrite]
/-- A ward with a change of each allocation. -/
def mapAllocs (h : Alloc → Alloc) (w : Ward) : Ward := { w with allocs := w.allocs.map h }
/-- A change of allocations that leaves each in its place. -/
def InPlace (h : Alloc → Alloc) : Prop := ∀ a, ((h a).kind, (h a).base) = (a.kind, a.base)
theorem buffersBase_mapAllocs {h : Alloc → Alloc} (kept : InPlace h) (v : Nat) (s : State) (slot wd : Nat) :
    buffersBase (modWard v (mapAllocs h) s) slot wd = buffersBase s slot wd := by
  refine buffersBase_modWard (fun w => ?_) s slot wd
  simp only [mapAllocs, List.map_map]
  exact List.map_congr_left (fun a _ => kept a)
theorem modWard_mapAllocs_id (v : Nat) (s : State) : modWard v (mapAllocs id) s = s := by
  have same : mapAllocs id = id := funext fun w => by simp [mapAllocs]
  rw [same]
  exact congrArg (fun l => ({ s with wards := l } : State)) (List.modify_id v s.wards)
/-- A statistic is a change of its area's content, in its own context's ward. -/
theorem addStat_eq {s : State} {slot : Nat} {x : Ctx} (off n : Nat) (hx : ctxOf s slot = some x) :
    ∃ h, InPlace h ∧ addStat slot off n s = modWard x.ward (mapAllocs h) s := by
  unfold addStat
  split
  · exact ⟨id, fun _ => rfl, (modWard_mapAllocs_id x.ward s).symm⟩
  · simp only [modStats, hx]
    refine ⟨_, fun a => ?_, rfl⟩
    split <;> rfl

/-- The bytes of the depth, object and motion planes where nothing is covered. -/
def uncoveredPlanes (x : Ctx) (f : Frame) : Bytes :=
  (List.replicate (cbWidth f.config * cbHeight f.config) (natLe 4 (farthest (frameReversed x f)))).flatMap id
    ++ List.replicate (8 * (cbWidth f.config * cbHeight f.config)) 0
theorem clearPlanes_eq (slot : Nat) (x : Ctx) (f : Frame) (s : State) :
    clearPlanes slot x f s = wardWrite x.ward (planeAddr s slot x.ward f.config 0 0) (uncoveredPlanes x f) s := rfl
/-- Byte a of copies of a byte string one after another. -/
theorem getD_flatMap_replicate (b : Bytes) (n : Nat) : ∀ {a : Nat}, a < n * b.length →
    ((List.replicate n b).flatMap id).getD a 0 = b.getD (a % b.length) 0 := by
  induction n with
  | zero => exact fun h => absurd h (by simp)
  | succ n ih =>
    intro a h
    rw [List.replicate_succ, List.flatMap_cons, id]
    rcases Nat.lt_or_ge a b.length with first | later
    · rw [List.getD_append _ _ _ _ first, Nat.mod_eq_of_lt first]
    · rw [List.getD_append_right _ _ _ _ later, ih (by rw [Nat.succ_mul] at h; omega), Nat.mod_eq_sub_mod later]
theorem uncoveredPlanes_length (x : Ctx) (f : Frame) : (uncoveredPlanes x f).length = 12 * (cbWidth f.config * cbHeight f.config) := by
  simp [uncoveredPlanes]
  omega
theorem uncoveredPlanes_getD (x : Ctx) (f : Frame) (a : Nat) : (uncoveredPlanes x f).getD a 0 =
    if a < 4 * (cbWidth f.config * cbHeight f.config) then (natLe 4 (farthest (frameReversed x f))).getD (a % 4) 0 else 0 := by
  have len : ((List.replicate (cbWidth f.config * cbHeight f.config) (natLe 4 (farthest (frameReversed x f)))).flatMap id).length
      = 4 * (cbWidth f.config * cbHeight f.config) := by
    simp
    omega
  unfold uncoveredPlanes
  split
  · next inside =>
    rw [List.getD_append _ _ _ _ (len ▸ inside), getD_flatMap_replicate _ _ (by rw [natLe_length]; omega), natLe_length]
  · next outside =>
    rw [List.getD_append_right _ _ _ _ (by omega)]
    simp [List.getD_eq_getElem?_getD, List.getElem?_replicate]
    split <;> rfl

/-! ## Tasks that are dropped (06 R232, R254) -/

/-- A task that stays fails the test. -/
theorem not_dropped {p : Nat → Task → Bool} {s : State} {t : Nat × Task} (h : t ∈ (dropTasks p s).tasks) : p t.1 t.2 = false := by
  obtain ⟨there, stays⟩ := List.mem_filter.mp h
  by_contra dropped
  have hit : t.1 ∈ (s.tasks.filter (fun x => p x.1 x.2)).map (·.1) :=
    List.mem_map_of_mem (List.mem_filter.mpr ⟨there, Bool.not_eq_false _ ▸ dropped⟩)
  simp only [Bool.not_eq_true', List.contains_eq_mem, decide_eq_false_iff_not] at stays
  exact stays (List.mem_append_left _ hit)

/-! ## The start (06 R231–R233; 01 R38) -/

theorem exec_geometryPassStart (slot : Nat) (s : State) : exec (.geometryPassStart slot) s = execGeometryPassStart slot s := rfl
theorem execGeometryPassStart_next {s : State} {slot : Nat} {x : Ctx} {f : Frame} (h : InFrame s slot x f) (waits : f.geo.phase = .waiting)
    (pose : poseArrived x f = true) : execGeometryPassStart slot s = .next (startGeometry slot x f s) := by
  simp [execGeometryPassStart, need, guardThat, h.live, h.cur, waits, pose]

/-- The frame as its pass begins, its camera fixed and its groups dealt. -/
def begunFrame (x : Ctx) (f : Frame) : Frame := { fixCamera x f with geo := geoInit x (fixCamera x f) (!cbImmediate f.config) }
/-- The state with the frame begun and the triangles left out counted. -/
def beginPass (slot : Nat) (x : Ctx) (f : Frame) (h : Alloc → Alloc) (s : State) : State :=
  modWard x.ward (mapAllocs h) (modFrame slot (fun _ => begunFrame x f) s)
/-- In immediate mode the planes are cleared and the bin tasks dropped as the pass begins. -/
theorem startGeometry_eq {s : State} {slot : Nat} {x : Ctx} (f : Frame) (hx : ctxOf s slot = some x) : ∃ h, InPlace h ∧
    startGeometry slot x f s = if cbImmediate f.config then dropBins slot f.number (clearPlanes slot x (fixCamera x f) (beginPass slot x f h s))
      else beginPass slot x f h s := by
  have framed : ctxOf (modFrame slot (fun _ => begunFrame x f) s) slot
      = some { x with fr := { x.fr with cur := x.fr.cur.map (fun _ => begunFrame x f) } } := by
    simp [modFrame, ctxOf_modCtx, hx]
  obtain ⟨h, kept, counted⟩ := addStat_eq stGeoSkip
    (meshTris (frameMesh x (fixCamera x f)) - drawnTris x (fixCamera x f)) framed
  refine ⟨h, kept, ?_⟩
  rw [beginPass, ← counted]
  unfold startGeometry
  cases hmode : cbImmediate f.config <;> simp [fixCamera, begunFrame, hmode]

section
variable {s : State} {slot : Nat} {x : Ctx} {f : Frame}
theorem beginPass_computes (h : Alloc → Alloc) (inFrame : InFrame s slot x f) :
    Computes (beginPass slot x f h s) slot x (begunFrame x f) :=
  ((Computes.of_inFrame inFrame).modFrame (fun _ => begunFrame x f)).of_ctxs rfl
theorem beginPass_mem (h : Alloc → Alloc) (hwd : x.ward < s.wards.length) :
    (wardOf (beginPass slot x f h s) x.ward).mem = (wardOf s x.ward).mem := by
  rw [beginPass, wardOf_modWard_same _ (s := modFrame slot _ s) hwd]
  rfl
theorem beginPass_planeAddr {h : Alloc → Alloc} (kept : InPlace h) (c : Bytes) (k px : Nat) :
    planeAddr (beginPass slot x f h s) slot x.ward c k px = planeAddr s slot x.ward c k px := by
  simp only [planeAddr, beginPass, buffersBase_mapAllocs kept]
  rfl
/-- A cleared plane reads as uncovered. -/
theorem read_clearPlanes (g : Frame) (hwd : x.ward < s.wards.length) (hwf : Mem.wf (wardOf s x.ward).mem = true) {a : Nat}
    (ha : a < 12 * (cbWidth g.config * cbHeight g.config)) :
    Mem.read (wardOf (clearPlanes slot x g s) x.ward).mem (planeAddr s slot x.ward g.config 0 0 + a) = (uncoveredPlanes x g).getD a 0 := by
  rw [clearPlanes_eq, wardWrite_eq, wardOf_modWard_same _ hwd, overwrite, Mem.read_writeN hwf, uncoveredPlanes_length,
    if_pos ⟨Nat.le_add_right _ _, Nat.add_lt_add_left ha _⟩, Nat.add_sub_cancel_left]
end

end Sys2Proof.Machine

namespace Sys2Proof.Say
open Sys2Proof.Machine

/-- The pass begins, and in immediate mode its planes are cleared after the statistics, which leave the buffers where they lie. -/
theorem geometryStarts_holds : geometryStarts := by
  intro s slot x f inFrame waits pose hward sized hwf
  have hwd : x.ward < s.wards.length := sized.2 ▸ hward
  obtain ⟨h, kept, start⟩ := startGeometry_eq f (ctxOf_of_liveCtx inFrame.live)
  obtain ⟨y, hy, cur, ing⟩ := (beginPass_computes h inFrame).cur_ing
  have others (i : Nat) (hi : i ≠ slot) : ctxOf (beginPass slot x f h s) i = ctxOf s i := ctxOf_modFrame_other _ s hi
  have wards (w : Nat) (hw : w ≠ x.ward) : wardOf (beginPass slot x f h s) w = wardOf s w := wardOf_modWard_other _ _ hw
  have mem := beginPass_mem (slot := slot) (f := f) h hwd
  have run := (exec_geometryPassStart slot s).trans (execGeometryPassStart_next inFrame waits pose)
  rw [start] at run
  cases immediate : cbImmediate f.config with
  | false =>
    rw [immediate, if_neg Bool.false_ne_true] at run
    exact ⟨_, run, rfl, rfl, rfl, wards, others, ⟨y, _, hy, cur, ing, by rw [begunFrame, immediate]⟩, fun _ => ⟨rfl, rfl, mem⟩, nofun, nofun⟩
  | true =>
    rw [immediate, if_pos rfl] at run
    refine ⟨_, run, rfl, rfl, rfl, fun w hw => (wardOf_modWard_other _ _ hw).trans (wards w hw), others,
      ⟨y, _, hy, cur, ing, by rw [begunFrame, immediate]⟩, nofun, fun _ t ht => ?bins, fun _ a ha => ?planes⟩
    case bins =>
      rintro ⟨own, frame, b, kind⟩
      have stays := not_dropped ht
      simp [own, frame, kind] at stays
    case planes =>
      have read := read_clearPlanes (slot := slot) (s := beginPass slot x f h s) (fixCamera x f)
        ((modWard_wards_length ..).symm ▸ hwd) (mem.symm ▸ hwf) ha
      rw [beginPass_planeAddr kept, uncoveredPlanes_getD] at read
      exact read

end Sys2Proof.Say
end

section
/-!
PROOFS. Setup groups of the geometry pass (06 R226, R230–R236): what a front end does with the group that it takes.
-/
namespace Sys2Proof.Machine
open Sys2Proof.Say (InFrame)

/-! ## Setup groups (06 R226, R230–R236) -/

theorem exec_feSetupGroup (fe : Nat) (s : State) : exec (.feSetupGroup fe) s = execFeSetupGroup fe s := rfl
theorem execFeSetupGroup_next {s : State} {fe slot : Nat} {x : Ctx} {f : Frame} (h : feNext s fe = some (slot, x)) (cur : x.fr.cur = some f) :
    execFeSetupGroup fe s = .next (wakePixels slot (setupGroup fe slot x f s)) := by
  simp [execFeSetupGroup, need, h, cur]
/-- A front end takes a group only where it owes no write. -/
theorem feNext_writes {s : State} {fe slot : Nat} {x : Ctx} {f : Frame} (h : feNext s fe = some (slot, x)) (cur : x.fr.cur = some f) :
    (tgetD f.geo.fes fe {}).writes = [] := by
  have wants : feWants fe x = true := by
    have mem : (slot, x) ∈ s.ctxs.filter (fun x => (slotOf s x.1).state == .live && feWants fe x.2) := by
      simp only [feNext, Option.orElse_eq_or, Option.or_eq_some_iff] at h
      rcases h with found | ⟨-, head⟩
      · exact List.mem_of_find?_eq_some found
      · exact List.mem_of_head? head
    obtain ⟨-, both⟩ := List.mem_filter.mp mem
    exact (Bool.and_eq_true_iff.mp both).2
  simp only [feWants, cur, Option.map_some, Option.getD_some, Bool.and_eq_true, List.isEmpty_iff] at wants
  exact wants.2

/-- A write uses units and lists alone, whatever the front ends hold. -/
theorem putWrite_fes (fe cap : Nat) (w : BinWrite) (g : GeoState) (t : Table FrontEnd) :
    putWrite fe cap w { g with fes := t } = (putWrite fe cap w g).map (fun g => { g with fes := t }) := by
  unfold putWrite
  split
  · split <;> rfl
  · dsimp only
    split <;> rfl
theorem drainWrites_fes (fe cap : Nat) (t : Table FrontEnd) (l : List BinWrite) : ∀ (g : GeoState) (n : Nat),
    drainWrites fe cap l { g with fes := t } n =
      ((drainWrites fe cap l g n).1, (drainWrites fe cap l g n).2.1, { (drainWrites fe cap l g n).2.2 with fes := t }) := by
  induction l with
  | nil => exact fun _ _ => rfl
  | cons w l ih =>
    intro g n
    simp only [drainWrites, putWrite_fes]
    cases putWrite fe cap w g with
    | none => rfl
    | some g1 => exact ih g1 _

/-- A front end that has made the writes it owed. -/
def settledFe (e : FrontEnd) : FrontEnd := { e with writes := [], stopped := none }
/-- A front end that makes every write it owes goes on. -/
theorem settleFe_drains {s : State} {slot fe : Nat} {y : Ctx} {f : Frame} {e : FrontEnd} {n : Nat} {g : GeoState}
    (hy : ctxOf s slot = some y) (cur : y.fr.cur = some f) (he : tget f.geo.fes fe = some e)
    (drained : drainWrites fe (1024 * y.pool) e.writes f.geo 0 = (n, [], g)) : ∃ p, settleFe slot fe s =
      modPerf (fun _ => p) (modGeo slot (fun _ => { g with fes := tput g.fes fe (settledFe e) }) s) := by
  obtain ⟨p, counted⟩ := tallyChip_eq 0x212 fe n (some y.ward) (modGeo slot (fun _ => { g with fes := tput g.fes fe (settledFe e) }) s)
  refine ⟨p, ?_⟩
  rw [← counted]
  simp [settleFe, hy, cur, tgetD, he, drained, settledFe]

/-- Two notes change the counters alone. -/
theorem tallyChip_twice (ev1 ev2 u n1 n2 : Nat) (w : Option Nat) (s : State) :
    ∃ p, tallyChip ev1 u n1 w (tallyChip ev2 u n2 w s) = modPerf (fun _ => p) s := by
  obtain ⟨p, second⟩ := tallyChip_eq ev2 u n2 w s
  obtain ⟨q, first⟩ := tallyChip_eq ev1 u n1 w (modPerf (fun _ => p) s)
  exact ⟨q, (congrArg _ second).trans first⟩
/-- The state with a front end of the frame as e, and the slot as the one that it served last. -/
def serveFe (fe slot : Nat) (e : FrontEnd) (s : State) : State :=
  modGeo slot (fun g => { g with fes := tput g.fes fe e }) { s with feLast := tput s.feLast fe slot }
/-- The sub-triangles of a group. -/
def groupTris (x : Ctx) (f : Frame) (k : Nat) : List SubTri :=
  (List.range (min 256 (drawnTris x f - 256 * k))).flatMap (fun i => subTris (rasterIn x f) (256 * k + i))
/-- A front end with a group of triangles set up: what it then owes the pool, or the batches of immediate mode. -/
def withGroup (x : Ctx) (f : Frame) (k : Nat) (rest : List (Option Nat)) (e : FrontEnd) : FrontEnd :=
  if f.geo.binMode then { e with groups := rest, writes := (groupTris x f k).flatMap (subWrites f.config) }
  else { e with groups := rest, batches := e.batches ++ (groupTris x f k).flatMap (subBatches f.config) }

/-- A state without what a setup group changes: contexts, cores, the context last served and the counters. -/
def setupSide (s : State) : State := { s with ctxs := [], cores := [], feLast := [], perf := {} }
theorem eq_of_setupSide {s n : State} (h : setupSide n = setupSide s) :
    n = { s with ctxs := n.ctxs, cores := n.cores, feLast := n.feLast, perf := n.perf } :=
  congrArg (fun q : State => { q with ctxs := n.ctxs, cores := n.cores, feLast := n.feLast, perf := n.perf }) h
@[simp] theorem setupSide_modPerf (g : Perf → Perf) (s : State) : setupSide (modPerf g s) = setupSide s := rfl
@[simp] theorem setupSide_modGeo (slot : Nat) (g : GeoState → GeoState) (s : State) : setupSide (modGeo slot g s) = setupSide s := rfl
@[simp] theorem setupSide_chargeFixed (slot cycles : Nat) (s : State) : setupSide (chargeFixed slot cycles s) = setupSide s := rfl
@[simp] theorem setupSide_feLast (t : Table Nat) (s : State) : setupSide { s with feLast := t } = setupSide s := rfl
@[simp] theorem setupSide_serveFe (fe slot : Nat) (e : FrontEnd) (s : State) : setupSide (serveFe fe slot e s) = setupSide s := rfl
/-- The fragments that go on are threads of cores. -/
@[simp] theorem setupSide_wakePixels (slot : Nat) (s : State) : setupSide (wakePixels slot s) = setupSide s := rfl

section
variable {s : State} {fe slot : Nat} {x : Ctx} {f : Frame} {rest : List (Option Nat)}

/-- The UI layers give the masks of the bins. -/
theorem setupGroup_layers (h : (tgetD f.geo.fes fe {}).groups = none :: rest) : ∃ p cycles, setupGroup fe slot x f s =
    modPerf (fun _ => p) (chargeFixed slot cycles (modGeo slot (fun g => { g with
      uiMasks := uiMasksOf f, fes := tput g.fes fe { tgetD f.geo.fes fe {} with groups := rest } }) { s with feLast := tput s.feLast fe slot })) := by
  simp only [setupGroup, h]
  obtain ⟨p, counted⟩ := tallyChip_twice 0x210 0x211 fe (2 * f.ui.length) (4 * f.ui.length) (some x.ward) (chargeFixed slot (4 * f.ui.length)
    (modGeo slot (fun g => { g with uiMasks := uiMasksOf f, fes := tput g.fes fe { tgetD f.geo.fes fe {} with groups := rest } })
      { s with feLast := tput s.feLast fe slot }))
  exact ⟨p, _, counted⟩
/-- A group of triangles is set up, and then its front end makes the writes that it owes. -/
theorem setupGroup_triangles {k : Nat} (h : (tgetD f.geo.fes fe {}).groups = some k :: rest) : ∃ p cycles, setupGroup fe slot x f s =
    settleFe slot fe (modPerf (fun _ => p) (chargeFixed slot cycles (serveFe fe slot (withGroup x f k rest (tgetD f.geo.fes fe {})) s))) := by
  simp only [setupGroup, h]
  obtain ⟨p, counted⟩ := tallyChip_twice 0x210 0x211 fe (groupTris x f k).length (2 * min 256 (drawnTris x f - 256 * k)) (some x.ward)
    (chargeFixed slot (2 * min 256 (drawnTris x f - 256 * k)) (serveFe fe slot (withGroup x f k rest (tgetD f.geo.fes fe {})) s))
  exact ⟨p, _, congrArg (settleFe slot fe) counted⟩
theorem serveFe_computes (e : FrontEnd) (cycles : Nat) (p : Perf) (inFrame : InFrame s slot x f) :
    Computes (modPerf (fun _ => p) (chargeFixed slot cycles (serveFe fe slot e s))) slot x
      (withGeo { f.geo with fes := tput f.geo.fes fe e } f) := by
  have noted := (Computes.of_inFrame inFrame).of_ctxs (n := { s with feLast := tput s.feLast fe slot }) rfl
  have served := (noted.modGeo (fun g => { g with fes := tput g.fes fe e })).chargeFixed cycles
  exact served.of_ctxs rfl
/-- Where the pool has the units that a group needs, its front end goes on. -/
theorem setupGroup_drains {k m : Nat} {g : GeoState} {e : FrontEnd} (inFrame : InFrame s slot x f)
    (h : (tgetD f.geo.fes fe {}).groups = some k :: rest) (group : withGroup x f k rest (tgetD f.geo.fes fe {}) = e)
    (drained : drainWrites fe (1024 * x.pool) e.writes f.geo 0 = (m, [], g)) :
    setupSide (setupGroup fe slot x f s) = setupSide s ∧ tget (setupGroup fe slot x f s).feLast fe = some slot ∧
      ∃ t, Computes (setupGroup fe slot x f s) slot x (withGeo { g with fes := tput t fe (settledFe e) } f) := by
  obtain ⟨p, cycles, setup⟩ := setupGroup_triangles (s := s) (slot := slot) (x := x) h
  rw [group] at setup
  obtain ⟨y, hy, same⟩ := (serveFe_computes (fe := fe) e cycles p inFrame).ctx
  have pool : y.pool = x.pool := (congrArg Ctx.pool same :)
  have cur : y.fr.cur = some (withGeo { f.geo with fes := tput f.geo.fes fe e } f) := (congrArg (fun z : Ctx => z.fr.cur) same :)
  have writes := drainWrites_fes fe (1024 * y.pool) (tput f.geo.fes fe e) e.writes f.geo 0
  rw [pool, drained, ← pool] at writes
  obtain ⟨q, settled⟩ := settleFe_drains hy cur (tget_tput_same f.geo.fes fe e) writes
  have computes := (serveFe_computes (fe := fe) e cycles p inFrame).modGeo (fun _ => { g with fes := tput (tput f.geo.fes fe e) fe (settledFe e) })
  rw [setup, settled]
  exact ⟨by simp, tget_tput_same _ _ _, _, computes.of_ctxs rfl⟩
end

end Sys2Proof.Machine

namespace Sys2Proof.Say
open Sys2Proof.Machine

/-- A setup group changes its frame's pass, charges and counts; then the fragments that waited for it go on (`wakePixels`), on cores alone. -/
theorem groupsSetUp_holds : groupsSetUp := by
  intro s fe slot x f rest next inFrame e
  have run := (exec_feSetupGroup fe s).trans (execFeSetupGroup_next next inFrame.cur)
  refine ⟨fun layers => ?layers, fun k tris => ⟨fun immediate => ?batches, fun bins => ?bins⟩⟩
  case layers =>
    obtain ⟨p, cycles, setup⟩ := setupGroup_layers (s := s) (slot := slot) (x := x) layers
    rw [setup] at run
    have noted := (Computes.of_inFrame inFrame).of_ctxs (n := { s with feLast := tput s.feLast fe slot }) rfl
    obtain ⟨y, hy, cur, ing⟩ := ((noted.modGeo (fun g => { g with
      uiMasks := uiMasksOf f, fes := tput g.fes fe { e with groups := rest } })).chargeFixed cycles).cur_ing
    exact ⟨_, run, eq_of_setupSide (by simp), tget_tput_same _ _ _, y, _, hy, cur, ing, rfl⟩
  case batches =>
    have group : withGroup x f k rest e = { e with groups := rest, batches := e.batches ++ (groupTris x f k).flatMap (subBatches f.config) } :=
      if_neg (ne_true_of_eq_false immediate)
    have owes : e.writes = [] := feNext_writes next inFrame.cur
    have drained : drainWrites fe (1024 * x.pool) e.writes f.geo 0 = (0, [], f.geo) := by
      rw [owes]
      rfl
    obtain ⟨frame, last, t, computes⟩ := setupGroup_drains inFrame tris group drained
    obtain ⟨y, hy, cur, ing⟩ := (computes.of_ctxs (n := wakePixels slot (setupGroup fe slot x f s)) rfl).cur_ing
    exact ⟨_, run, eq_of_setupSide ((setupSide_wakePixels ..).trans frame), last, y, _, hy, cur, ing, tget_tput_same _ _ _, rfl, rfl⟩
  case bins =>
    intro r none_left
    have group : withGroup x f k rest e = { e with groups := rest, writes := (groupTris x f k).flatMap (subWrites f.config) } := if_pos bins
    have drained : drainWrites fe (1024 * x.pool) ((groupTris x f k).flatMap (subWrites f.config)) f.geo 0 = (r.1, [], r.2.2) := by
      rw [← none_left]
      rfl
    obtain ⟨frame, last, t, computes⟩ := setupGroup_drains inFrame tris group drained
    obtain ⟨y, hy, cur, ing⟩ := (computes.of_ctxs (n := wakePixels slot (setupGroup fe slot x f s)) rfl).cur_ing
    exact ⟨_, run, eq_of_setupSide ((setupSide_wakePixels ..).trans frame), last, y, _, hy, cur, ing, tget_tput_same _ _ _, rfl⟩

end Sys2Proof.Say
end

section
/-!
PROOFS. The geometry pass as it goes on (06 R230, R235–R239, R244, R254): the growth of its pool, the end of binning, and the splat.
-/
namespace Sys2Proof.Machine
open Sys2Proof.Say (InFrame)

/-! ## The growth of the pool (06 R235–R239) -/

theorem exec_poolGrowthComplete (slot : Nat) (s : State) : exec (.poolGrowthComplete slot) s = execPoolGrowthComplete slot s := rfl
theorem execPoolGrowthComplete_next {s : State} {slot k : Nat} {x : Ctx} (hx : liveCtx s slot = some x) (steady : s.fw.switching = false)
    (grows : x.growing = some k) : execPoolGrowthComplete slot s = .next (growthDone slot k s) := by
  simp [execPoolGrowthComplete, need, hx, steady, grows]

/-- The chunks in a context's pool. -/
def poolOf (slot : Nat) (s : State) : Option Nat := (ctxOf s slot).map (·.pool)
theorem poolOf_of_ctxs (slot : Nat) {s n : State} (h : n.ctxs = s.ctxs) : poolOf slot n = poolOf slot s :=
  congrArg (fun t => (tget t slot).map Ctx.pool) h
theorem poolOf_modCtx {g : Ctx → Ctx} (hg : ∀ x, (g x).pool = x.pool) (slot i : Nat) (s : State) : poolOf slot (modCtx i g s) = poolOf slot s := by
  simp only [poolOf, ctxOf_modCtx]
  split
  · next h => simp [h, Option.map_map, Function.comp_def, hg]
  · rfl
theorem poolOf_modGeo (slot i : Nat) (g : GeoState → GeoState) (s : State) : poolOf slot (modGeo i g s) = poolOf slot s := by
  refine poolOf_modCtx ?_ slot i s
  exact fun _ => rfl
theorem poolOf_checkpoint (slot i : Nat) (s : State) : poolOf slot (checkpoint i s) = poolOf slot s := by
  refine poolOf_modCtx ?_ slot i s
  exact fun _ => rfl
theorem poolOf_postEvent (slot i code reason : Nat) (body : Bytes) (s : State) : poolOf slot (postEvent i code reason body s) = poolOf slot s := by
  have kept := congrArg (Option.map Ctx.pool) (ctxOf_of_recordless (recordless_postEvent i code reason body s) slot)
  simp only [Option.map_map] at kept
  exact kept
theorem poolOf_beginGrowth (slot i wd n : Nat) (s : State) : poolOf slot (beginGrowth i wd n s) = poolOf slot s := by
  refine (poolOf_modCtx ?_ slot i _).trans (poolOf_modGeo slot i _ s)
  exact fun _ => rfl
theorem poolOf_goImmediate (slot i reason : Nat) (s : State) : poolOf slot (goImmediate i reason s) = poolOf slot s := by
  unfold goImmediate
  split
  · rfl
  · split
    · rfl
    · exact (poolOf_postEvent ..).trans (poolOf_modGeo ..)
theorem poolOf_requestGrowth (slot i : Nat) (s : State) : poolOf slot (requestGrowth i s) = poolOf slot s := by
  unfold requestGrowth
  split
  · rfl
  · split
    · rfl
    · dsimp only
      split
      · rfl
      · split
        · exact poolOf_goImmediate ..
        · split
          · exact poolOf_beginGrowth ..
          · exact (poolOf_checkpoint ..).trans ((poolOf_postEvent ..).trans (poolOf_modGeo ..))
/-- A front end that makes writes takes units, and no chunk. -/
theorem poolOf_settleFe (slot i fe : Nat) (s : State) : poolOf slot (settleFe i fe s) = poolOf slot s := by
  unfold settleFe
  split
  · rfl
  · split
    · rfl
    · have counted (ev u n : Nat) (w : Option Nat) (g : GeoState → GeoState) : poolOf slot (tallyChip ev u n w (modGeo i g s)) = poolOf slot s :=
        (poolOf_of_ctxs slot (tallyChip_ctxs ..)).trans (poolOf_modGeo ..)
      dsimp only
      split
      · exact (poolOf_requestGrowth ..).trans (counted ..)
      · exact counted ..

section
variable {s : State} {slot : Nat} {x : Ctx}
/-- A growth is in the pool before the stopped front ends go on. -/
theorem growthDone_pool (k : Nat) (hx : ctxOf s slot = some x) : poolOf slot (growthDone slot k s) = some (x.pool + k) := by
  have grown : poolOf slot (modCtx slot (fun x => { x with pool := x.pool + k, growing := none }) s) = some (x.pool + k) := by
    simp [poolOf, ctxOf_modCtx, hx]
  unfold growthDone
  dsimp only
  split
  · exact grown
  · exact (foldl_view (fun s fe => poolOf_settleFe slot slot fe s) _ _).trans grown
/-- Where no front end stands, a growth is its context's alone. -/
theorem growthDone_unstopped (k : Nat) (hx : ctxOf s slot = some x) (none_stopped : ∀ f, x.fr.cur = some f → stoppedFes f.geo = []) :
    growthDone slot k s = modCtx slot (fun x => { x with pool := x.pool + k, growing := none }) s := by
  unfold growthDone
  simp only [ctxOf_modCtx, if_true, hx, Option.map_some, Option.bind_some]
  split
  · rfl
  · next f cur => rw [none_stopped f cur]; rfl
end

/-! ## The end of binning, and the splat (06 R230, R244, R254) -/

theorem exec_binningComplete (slot : Nat) (s : State) : exec (.binningComplete slot) s = execBinningComplete slot s := rfl
theorem exec_splatComplete (slot : Nat) (s : State) : exec (.splatComplete slot) s = execSplatComplete slot s := rfl
section
variable {s : State} {slot : Nat} {x : Ctx} {f : Frame}
theorem execBinningComplete_next (h : InFrame s slot x f) (runs : f.geo.phase = .running) (unbinned : f.geo.binned = false)
    (finished : feDone s slot f = true) : execBinningComplete slot s = .next (binningDone slot f s) := by
  simp [execBinningComplete, need, guardThat, h.live, h.cur, runs, unbinned, finished]
/-- The marks of the frames that a frame splats. -/
def splatMarks (x : Ctx) (f : Frame) : Nat := (splatted x f).foldl (fun m b => match b with | some b => splatFrame x f b m | none => m) 0
theorem execSplatComplete_next (h : InFrame s slot x f) (mesh : hasMeshPass f = true) (runs : f.geo.phase = .running)
    (unsplat : f.geo.splat = false) (decoded : (splatted x f).all (fun b => (b.map (fun b => b.decoded.isSome)).getD false) = true) :
    execSplatComplete slot s = .next (chargeWork slot (modGeo slot (fun g => { g with splat := true, marks := splatMarks x f }) s)) := by
  simp only [execSplatComplete, need, guardThat, h.live, h.cur, mesh, runs, unsplat, decoded]
  rfl

/-- A frame with the geometry latches of tiles set, its pass complete with the last one, and perhaps a checkpoint due. -/
def latchTiles (tiles : List Nat) (due : Bool → Bool) (f : Frame) : Frame :=
  let l := f.geo.latches ++ tiles.filter (fun i => !f.geo.latches.contains i)
  { f with
    geo := { f.geo with latches := l, phase := if l.length = tileCount f.config then .complete else f.geo.phase }
    checkDue := due f.checkDue }
/-- Latches are set in the frame, of which a checkpoint may be due with them. -/
theorem setGeoLatches_eq (slot : Nat) (tiles : List Nat) (s : State) : ∃ due, setGeoLatches slot tiles s = modFrame slot (latchTiles tiles due) s := by
  unfold setGeoLatches
  dsimp only
  split
  · refine ⟨fun _ => true, ?_⟩
    simp only [checkpoint, modFrame, modCtx, tmod_tmod, Option.map_map]
    rfl
  · exact ⟨id, rfl⟩
end

section
variable {s : State} {slot : Nat} {x : Ctx} {f : Frame}
/-- A pass whose bins are available (06 R230, R232). -/
def binnedPass (c : Bytes) (g : GeoState) : GeoState :=
  { g with binned := true, binsDone := if g.binMode then g.binsDone else List.range (binsX c * binsY c), owners := [] }
theorem binningDone_mesh (inFrame : InFrame s slot x f) (mesh : hasMeshPass f = true) :
    binningDone slot f s = modGeo slot (binnedPass f.config) s := by
  simp only [binningDone, ctxOf_of_liveCtx inFrame.live, mesh, if_true]
  rfl
theorem modWard_modWard (wd : Nat) (g h : Ward → Ward) (s : State) : modWard wd h (modWard wd g s) = modWard wd (fun w => h (g w)) s :=
  congrArg (fun l => ({ s with wards := l } : State)) (List.modify_modify_eq g h wd s.wards)
/-- The uncovered values of a frame without primitives (06 R227). -/
def clearPass (slot : Nat) (x : Ctx) (f : Frame) (s : State) : State :=
  clearDisocc slot x f (if f.geo.binMode then clearPlanes slot x f s else s)
theorem clearPass_eq (slot : Nat) (x : Ctx) (f : Frame) (s : State) : ∃ w, clearPass slot x f s = modWard x.ward w s := by
  unfold clearPass
  split
  · exact ⟨_, modWard_modWard x.ward _ _ s⟩
  · exact ⟨_, rfl⟩
theorem binningDone_empty (inFrame : InFrame s slot x f) (mesh : hasMeshPass f = false) :
    binningDone slot f s = setGeoLatches slot (List.range (tileCount f.config)) (clearPass slot x f (modGeo slot (binnedPass f.config) s)) := by
  simp only [binningDone, ctxOf_of_liveCtx inFrame.live, mesh, Bool.false_eq_true, if_false]
  rfl
end

end Sys2Proof.Machine

namespace Sys2Proof.Say
open Sys2Proof.Machine

/-- A growth, the end of binning and the splat: the first two leave the stopped front ends and the tiles of an empty frame to go on. -/
theorem passesGoOn_holds : passesGoOn := by
  refine ⟨fun s slot x k hx steady grows => ?growth, fun s slot x f inFrame runs unbinned finished unlatched => ?binning,
    fun s slot x f inFrame mesh runs unsplat decoded => ?splat⟩
  case growth =>
    have hc := ctxOf_of_liveCtx hx
    refine ⟨_, (exec_poolGrowthComplete slot s).trans (execPoolGrowthComplete_next hx steady grows), growthDone_pool k hc, fun unstopped => ?_⟩
    rw [growthDone_unstopped k hc unstopped]
    exact ⟨rfl, by simp [ctxOf_modCtx, hc], (modCtx_keepsOthers slot _ s).ctxs⟩
  case binning =>
    have run := (exec_binningComplete slot s).trans (execBinningComplete_next inFrame runs unbinned finished)
    cases mesh : hasMeshPass f with
    | true =>
      rw [binningDone_mesh inFrame mesh] at run
      obtain ⟨y, hy, cur, ing⟩ := ((Computes.of_inFrame inFrame).modGeo (binnedPass f.config)).cur_ing
      exact ⟨_, run, rfl, fun i hi => ctxOf_modFrame_other _ s hi, fun _ _ => rfl, y, _, hy, cur, ing, rfl, rfl, rfl, fun _ => ⟨runs, unlatched⟩, nofun⟩
    | false =>
      obtain ⟨w, cleared⟩ := clearPass_eq slot x f (modGeo slot (binnedPass f.config) s)
      obtain ⟨due, latched⟩ := setGeoLatches_eq slot (List.range (tileCount f.config)) (modWard x.ward w (modGeo slot (binnedPass f.config) s))
      rw [binningDone_empty inFrame mesh, cleared, latched] at run
      have kept := ((Computes.of_inFrame inFrame).modGeo (binnedPass f.config)).of_ctxs
        (n := modWard x.ward w (modGeo slot (binnedPass f.config) s)) rfl
      obtain ⟨y, hy, cur, ing⟩ := (kept.modFrame (latchTiles (List.range (tileCount f.config)) due)).cur_ing
      refine ⟨_, run, rfl, fun i hi => (ctxOf_modFrame_other _ _ hi).trans (ctxOf_modFrame_other _ s hi), fun v hv => ?_, y, _, hy, cur, ing, rfl,
        rfl, rfl, nofun, fun _ => ?_⟩
      · exact wardOf_modWard_other _ _ (hv.resolve_right Bool.false_ne_true)
      · have every : (binnedPass f.config f.geo).latches = [] := unlatched
        simp [latchTiles, withGeo, every]
  case splat =>
    obtain ⟨y, hy, cur, ing⟩ := ((Computes.of_inFrame inFrame).modGeo (fun g => { g with splat := true, marks := splatMarks x f })).chargeWork.cur_ing
    exact ⟨_, (exec_splatComplete slot s).trans (execSplatComplete_next inFrame mesh runs unsplat decoded), rfl,
      fun i hi => (ctxOf_chargeWork_other _ hi).trans (ctxOf_modFrame_other _ s hi), y, hy, ing, cur⟩

end Sys2Proof.Say
end

section
/-!
PROOFS. Batches of immediate mode (06 R225, R232, R241–R243), and with them the geometry pass as a whole.
-/
namespace Sys2Proof.Machine
open Sys2Proof.Say (InFrame)

/-! ## Batches of immediate mode (06 R225, R232, R241–R243) -/

theorem exec_fragmentBatch (slot fe core : Nat) (s : State) : exec (.fragmentBatch slot fe core) s = execFragmentBatch slot fe core s := rfl
section
variable {s : State} {slot fe core : Nat} {x : Ctx} {f : Frame} {e : FrontEnd} {b : Batch} {rest : List Batch}

theorem execFragmentBatch_next (h : InFrame s slot x f) (he : tget f.geo.fes fe = some e) (hb : e.batches = b :: rest)
    (runs : f.geo.phase = .running) (immediate : f.geo.binMode = false) (core_runs : (coreOf s core).mode = .running)
    (owner : tget f.geo.owners b.bin = some core ∨ tget f.geo.owners b.bin = none ∧ f.group.testBit core = true) :
    execFragmentBatch slot fe core s = takeBatch slot fe core x f b s := by
  have owns : ((tget f.geo.owners b.bin).map (· == core)).getD (f.group.testBit core) = true := by
    rcases owner with own | ⟨none, member⟩
    · simp [own]
    · simp [none, member]
  simp [execFragmentBatch, need, guardThat, h.live, h.cur, he, hb, runs, immediate, core_runs, owns]

/-- A pass of which a front end has sent its first batch to the core that owns the batch's bin. -/
def sendBatch (fe core bin : Nat) (g : GeoState) : GeoState :=
  { g with owners := tput g.owners bin core, fes := tmod g.fes fe (fun e => { e with batches := e.batches.drop 1 }) }
theorem sendBatch_owner (fe core bin : Nat) (g : GeoState) : tget (sendBatch fe core bin g).owners bin = some core := tget_tput_same _ _ _
theorem sendBatch_fes {g : GeoState} (core bin : Nat) (he : tget g.fes fe = some e) (hb : e.batches = b :: rest) :
    tget (sendBatch fe core bin g).fes fe = some { e with batches := rest } := by
  simp [sendBatch, he, hb]
theorem takeBatch_builtIn (h : blendKernel s x f = none) : takeBatch slot fe core x f b s =
    .next (chargeWork slot (immediateBatch slot x f b (modGeo slot (sendBatch fe core b.bin) s))) := by
  simp only [takeBatch, h]
  rfl
theorem takeBatch_kernel {k : Nat × Nat × KernelRec} (h : blendKernel s x f = some k) (shaded : b.sub.occluder = false)
    (room : roomFor s core 1 k.2.2.vregs (cdiv k.2.2.store 4096) = true) : takeBatch slot fe core x f b s =
      .next (startBlend slot core x f k b none (modGeo slot (sendBatch fe core b.bin) s)) := by
  simp only [takeBatch, h, shaded, guardThat, room]
  rfl
end

/-- The three words of a pixel are written one after another. -/
def writeWords (addr : Nat → Nat) (v : Nat → Nat) (n : Nat) (m : Mem) : Mem :=
  (List.range n).foldl (fun m k => Mem.writeN m (addr k) (natLe 4 (v k))) m
theorem writeWords_succ (addr v : Nat → Nat) (n : Nat) (m : Mem) :
    writeWords addr v (n + 1) m = Mem.writeN (writeWords addr v n m) (addr n) (natLe 4 (v n)) := by
  simp [writeWords, List.range_succ]
theorem writeWords_wf {addr v : Nat → Nat} {m : Mem} (h : Mem.wf m = true) (n : Nat) : Mem.wf (writeWords addr v n m) = true := by
  induction n with
  | zero => exact h
  | succ n ih => exact writeWords_succ addr v n m ▸ Mem.writeN_wf _ ih
/-- A read outside the bytes of a write gives the old bytes. -/
theorem readN_writeN_other {m : Mem} {a j n : Nat} {b : Bytes} (h : j + n ≤ a ∨ a + b.length ≤ j) :
    Mem.readN (Mem.writeN m a b) j n = Mem.readN m j n :=
  List.ext_getElem (by simp) fun i hi _ => by
    rw [Mem.readN_getElem, Mem.readN_getElem, Mem.read_writeN_other]
    have := hi.trans_eq (Mem.readN_length ..)
    omega
/-- Words that lie apart each read as written. -/
theorem readN_writeWords {addr v : Nat → Nat} {m : Mem} (h : Mem.wf m = true) (apart : ∀ i j, i < j → addr i + 4 ≤ addr j) (n : Nat) :
    ∀ k < n, Mem.readN (writeWords addr v n m) (addr k) 4 = natLe 4 (v k) := by
  induction n with
  | zero => exact fun k hk => absurd hk (Nat.not_lt_zero k)
  | succ n ih =>
    intro k hk
    rw [writeWords_succ]
    rcases Nat.lt_succ_iff_lt_or_eq.mp hk with earlier | rfl
    · rw [readN_writeN_other (.inl (apart k n earlier))]
      exact ih k earlier
    · have read := Mem.readN_writeN (writeWords_wf (addr := addr) (v := v) h k) (addr k) (natLe 4 (v k))
      rwa [natLe_length] at read

/-- The memory of the ward after the planes of a pixel are written. -/
theorem putPixel_mem {s : State} {x : Ctx} (slot : Nat) (c : Bytes) (px : Nat) (codes : List Nat) (hwd : x.ward < s.wards.length) :
    (wardOf (putPixel slot x c px codes s) x.ward).mem =
      writeWords (fun k => planeAddr s slot x.ward c k px) (fun k => codes.getD k 0) 3 (wardOf s x.ward).mem := by
  have planes (l : List Nat) : ∀ s : State, x.ward < s.wards.length →
      (wardOf (l.foldl (fun s k => wardWrite x.ward (planeAddr s slot x.ward c k px) (natLe 4 (codes.getD k 0)) s) s) x.ward).mem =
        l.foldl (fun m k => Mem.writeN m (planeAddr s slot x.ward c k px) (natLe 4 (codes.getD k 0))) (wardOf s x.ward).mem := by
    induction l with
    | nil => exact fun _ _ => rfl
    | cons k l ih =>
      intro s hwd
      rw [List.foldl_cons, ih _ ((modWard_wards_length ..).symm ▸ hwd), wardWrite_eq, wardOf_modWard_same _ hwd, List.foldl_cons, ← wardWrite_eq]
      simp only [planeAddr_wardWrite]
      rfl
  exact planes (List.range 3) s hwd
/-- The three planes of a pixel read as they are written (06 R225). -/
theorem readN_putPixel {s : State} {x : Ctx} (slot : Nat) {c : Bytes} (px : Nat) (codes : List Nat) {k : Nat} (hwd : x.ward < s.wards.length)
    (hwf : Mem.wf (wardOf s x.ward).mem = true) (hk : k < 3) (area : 0 < cbWidth c * cbHeight c) :
    Mem.readN (wardOf (putPixel slot x c px codes s) x.ward).mem (planeAddr s slot x.ward c k px) 4 = natLe 4 (codes.getD k 0) := by
  rw [putPixel_mem slot c px codes hwd]
  refine readN_writeWords (addr := fun k => planeAddr s slot x.ward c k px) (v := fun k => codes.getD k 0) hwf (fun i j less => ?_) 3 k hk
  have planes : i * (cbWidth c * cbHeight c) + cbWidth c * cbHeight c ≤ j * (cbWidth c * cbHeight c) := by
    rw [← Nat.succ_mul]
    exact Nat.mul_le_mul_right _ less
  simp only [planeAddr, Nat.mul_assoc]
  omega

/-! ### What a batch leaves -/

/-- A context without its account and its frame's record of which fragment each pixel holds. -/
def keyless (x : Ctx) : Ctx := { x with acct := {}, fr := { x.fr with cur := x.fr.cur.map (fun f => withGeo { f.geo with keys := [] } f) } }
/-- What the pixels of a batch leave: tasks, slots, the other wards, and of the context all but its account and those keys. -/
def pixelSide (slot wd : Nat) (s : State) : Table Task × Table Slot × (Nat → Option Ward) × Option Ctx :=
  (s.tasks, s.slots, fun w => if w = wd then none else some (wardOf s w), (ctxOf s slot).map keyless)
theorem pixelSide_wardWrite (slot wd a : Nat) (b : Bytes) (s : State) : pixelSide slot wd (wardWrite wd a b s) = pixelSide slot wd s := by
  have wards : (fun w => if w = wd then none else some (wardOf (wardWrite wd a b s) w)) = fun w => if w = wd then none else some (wardOf s w) := by
    funext w
    split
    · rfl
    · next h => rw [wardWrite_eq, wardOf_modWard_other _ _ h]
  simp only [pixelSide, wards]
  rfl
theorem pixelSide_putPixel (slot : Nat) (x : Ctx) (c : Bytes) (px : Nat) (codes : List Nat) (s : State) :
    pixelSide slot x.ward (putPixel slot x c px codes s) = pixelSide slot x.ward s :=
  foldl_view (view := pixelSide slot x.ward) (fun s _ => pixelSide_wardWrite slot x.ward _ _ s) (List.range 3) s
theorem pixelSide_keys (slot wd : Nat) (t : GeoState → Table Nat) (s : State) :
    pixelSide slot wd (modGeo slot (fun g => { g with keys := t g }) s) = pixelSide slot wd s := by
  have own : (ctxOf (modGeo slot (fun g => { g with keys := t g }) s) slot).map keyless = (ctxOf s slot).map keyless := by
    simp only [modGeo, modFrame, ctxOf_modCtx, if_true, Option.map_map]
    congr 1
    funext y
    simp only [Function.comp_apply, keyless, Option.map_map]
    rfl
  simp only [pixelSide, own]
  rfl
theorem pixelSide_immediateBatch (slot : Nat) (x : Ctx) (f : Frame) (b : Batch) (s : State) :
    pixelSide slot x.ward (immediateBatch slot x f b s) = pixelSide slot x.ward s := by
  unfold immediateBatch
  refine foldl_view (view := pixelSide slot x.ward) (fun s q => ?_) _ s
  dsimp only
  split
  · exact (pixelSide_putPixel ..).trans (pixelSide_keys ..)
  · rfl

theorem pixelSide_chargeWork (slot wd : Nat) (s : State) : pixelSide slot wd (chargeWork slot s) = pixelSide slot wd s := by
  have own : (ctxOf (chargeWork slot s) slot).map keyless = (ctxOf s slot).map keyless := by
    simp only [ctxOf, chargeWork, modAcct, modCtx_ctxs, tget_tmod_same, Option.map_map]
    rfl
  simp only [pixelSide, own]
  rfl
/-- The context of a batch sent keeps what the pass does not write at its pixels. -/
theorem sent_of_pixelSide {s n : State} {slot wd : Nat} {x : Ctx} {f : Frame} (h : pixelSide slot wd n = pixelSide slot wd s)
    (sent : Computes s slot x f) : ∃ y g, ctxOf n slot = some y ∧ y.fr.cur = some g ∧ y.ing = x.ing ∧
      g.geo.owners = f.geo.owners ∧ g.geo.fes = f.geo.fes := by
  obtain ⟨z, hz, same⟩ := sent.ctx
  have own : (ctxOf n slot).map keyless = some (keyless z) := by
    have both := congrArg (fun p => p.2.2.2) h
    simp only [pixelSide, hz, Option.map_some] at both
    exact both
  obtain ⟨y, hy, e⟩ := Option.map_eq_some_iff.mp own
  have zcur : z.fr.cur = some f := (congrArg (fun c : Ctx => c.fr.cur) same :)
  have cur : y.fr.cur.map (fun f => withGeo { f.geo with keys := [] } f) = some (withGeo { f.geo with keys := [] } f) := by
    have both := congrArg (fun c : Ctx => c.fr.cur) e
    simp only [keyless, zcur, Option.map_some] at both
    exact both
  obtain ⟨g, hg, geo⟩ := Option.map_eq_some_iff.mp cur
  exact ⟨y, g, hy, hg, (congrArg Ctx.ing e :).trans (congrArg Ctx.ing same :), (congrArg (fun q : Frame => q.geo.owners) geo :),
    (congrArg (fun q : Frame => q.geo.fes) geo :)⟩

/-- A fragment alone in its batch, at a pixel that holds none, is written there. -/
theorem immediateBatch_alone {s : State} {slot px : Nat} {x y : Ctx} {f g : Frame} {b : Batch} {q : Frag} (hpx : b.px = [px])
    (hq : b.sub.frag (px % cbWidth f.config) (px / cbWidth f.config) = some q) (place : q.py * cbWidth f.config + q.px = px)
    (hy : ctxOf s slot = some y) (cur : y.fr.cur = some g) (empty : tget g.geo.keys px = none) :
    immediateBatch slot x f b s =
      putPixel slot x f.config px (fragCodes b.sub q) (modGeo slot (fun g => { g with keys := tput g.keys px b.sub.key }) s) := by
  simp [immediateBatch, hpx, hq, place, hy, cur, empty, fragWins]

end Sys2Proof.Machine

namespace Sys2Proof.Say
open Sys2Proof.Machine

/-- A batch is first sent to its owner. Then the built-in code writes its pixels, or it becomes a task. -/
theorem batchesBlend_holds : batchesBlend := by
  intro s slot fe core x f e b rest inFrame he hb runs immediate core_runs owner sent
  have run := (exec_fragmentBatch slot fe core s).trans (execFragmentBatch_next inFrame he hb runs immediate core_runs owner)
  have computes := (Computes.of_inFrame inFrame).modGeo (sendBatch fe core b.bin)
  have hfes := sendBatch_fes core b.bin he hb
  refine ⟨fun builtIn => ?builtIn, fun k kernel shaded room => ?kernel⟩
  case builtIn =>
    have left := (pixelSide_chargeWork slot x.ward _).trans (pixelSide_immediateBatch slot x f b (modGeo slot (sendBatch fe core b.bin) s))
    obtain ⟨y, g, hy, cur, ing, owners, fes⟩ := sent_of_pixelSide left computes
    refine ⟨_, run.trans (takeBatch_builtIn builtIn), ⟨y, g, hy, cur, ing, owners ▸ sendBatch_owner .., fes ▸ hfes⟩,
      congrArg (fun p => p.1) left, congrArg (fun p => p.2.1) left, fun w hw => ?wards, fun px q k hpx hq place empty hk area sized hward hwf => ?pixel⟩
    case wards =>
      have ward := congrFun (congrArg (fun p => p.2.2.1) left) w
      simp only [pixelSide, if_neg hw] at ward
      exact Option.some.inj ward
    case pixel =>
      obtain ⟨z, hz, zcur, -⟩ := computes.cur_ing
      have alone := immediateBatch_alone (x := x) hpx hq place hz zcur empty
      have read := readN_putPixel (x := x) (c := f.config) (s := modGeo slot (fun g => { g with keys := tput g.keys px b.sub.key })
        (modGeo slot (sendBatch fe core b.bin) s)) slot px (fragCodes b.sub q) (sized.2 ▸ hward) hwf hk area
      rw [← alone] at read
      exact read
  case kernel =>
    obtain ⟨y, hy, cur, ing⟩ := computes.cur_ing
    exact ⟨_, run.trans (takeBatch_kernel kernel shaded room), ⟨y, _, hy, cur, ing, sendBatch_owner .., hfes⟩, rfl, rfl, rfl, _,
      tget_tput_same _ _ _, rfl, rfl, rfl, rfl, rfl, rfl, rfl⟩

/-- Settles O37: each part follows its function of the model, `startGeometry`, `setupGroup`, `growthDone`, `binningDone` and `takeBatch`. What
they leave of the context is `Computes`, and a read of the planes is of the last write there. -/
theorem geometry : Obligations.Geometry := ⟨geometryStarts_holds, groupsSetUp_holds, passesGoOn_holds, batchesBlend_holds⟩

end Sys2Proof.Say
end

section
/-!
PROOFS. Ray tasks (06 R245–R254): what the casting of a tile's rays leaves of the tasks and of ward memory, and a ray task's end.
-/
namespace Sys2Proof.Machine
open Sys2Proof.Say (InFrame TaskGone)

/-! ## The start of a ray task (06 R245–R252) -/

theorem exec_rayTaskStart (slot tile : Nat) (s : State) : exec (.rayTaskStart slot tile) s = execRayTaskStart slot tile s := rfl
theorem exec_rayTaskComplete (slot tile : Nat) (s : State) : exec (.rayTaskComplete slot tile) s = execRayTaskComplete slot tile s := rfl

/-- A state without what counting and charging a tile's rays changes: the account of the context, the contents of allocations, the counters. -/
def chargeless (slot : Nat) (s : State) : State := { allocless s with ctxs := tmod s.ctxs slot uncharged, perf := {} }
theorem chargeless_modAcct (slot : Nat) (a : Account → Account) (s : State) : chargeless slot (modAcct slot a s) = chargeless slot s :=
  congrArg (fun t => ({ allocless s with ctxs := t, perf := {} } : State)) (tmod_tmod s.ctxs slot _ uncharged)
theorem chargeless_tallyChip (slot ev u n : Nat) (w : Option Nat) (s : State) : chargeless slot (tallyChip ev u n w s) = chargeless slot s := by
  obtain ⟨p, h⟩ := tallyChip_eq ev u n w s
  exact h ▸ rfl
theorem chargeless_addStat (slot off n : Nat) (s : State) : chargeless slot (addStat slot off n s) = chargeless slot s :=
  congrArg (fun q : State => ({ q with ctxs := tmod q.ctxs slot uncharged, perf := {} } : State)) (allocless_addStat slot off n s)
theorem chargeless_countRays (slot : Nat) (x : Ctx) (f : Frame) (rays : List (Nat × Walk)) (s : State) :
    chargeless slot (countRays slot x f rays s) = chargeless slot s := by
  unfold countRays
  refine (foldl_view (view := chargeless slot) (fun s r => ?_) _ _).trans ((chargeless_addStat ..).trans (chargeless_addStat ..))
  exact (chargeless_modAcct ..).trans ((chargeless_tallyChip ..).trans (chargeless_tallyChip ..))

/-- A state without its tasks and cores. -/
def taskless (s : State) : State := { s with tasks := [], nextTask := 0, cores := [] }
/-- HIT tasks are dealt to cores, and nothing else changes. -/
theorem taskless_dealHits (slot : Nat) (x : Ctx) (f : Frame) (h : Hier) (handle core tile : Nat) (rays : List (Nat × Walk)) (s : State) :
    taskless (dealHits slot x f h handle core tile rays s) = taskless s := by
  unfold dealHits
  split
  · rfl
  · split
    · refine foldl_view (view := taskless) ?_ _ s
      exact fun _ _ => rfl
    · rfl
theorem dealHits_none {slot : Nat} {x : Ctx} {f : Frame} {h : Hier} {handle core tile : Nat} {rays : List (Nat × Walk)} {s : State}
    (unnamed : cbHit f.config = 0xFFFF) : dealHits slot x f h handle core tile rays s = s := if_pos unnamed

/-- The rays of a tile: none without a hierarchy. -/
def tileRays (s : State) (slot tile : Nat) (x : Ctx) (f : Frame) : List (Nat × Walk) :=
  match frameHier x f with | some h => castRays s slot x f h tile | none => []
/-- The state with a tile's disocclusion values written and its rays cast. -/
def castTile (slot tile : Nat) (x : Ctx) (f : Frame) (s : State) : State :=
  modGeo slot (fun g => { g with rays := g.rays ++ [tile] })
    (wardWrite x.ward (disoccAddr s slot x.ward f.config tile 0) (disoccBytes x f (disoccluded s slot x f tile) (tileRays s slot tile x f)) s)

section
variable {s : State} {slot tile : Nat} {x : Ctx} {f : Frame} {t : Nat × Task}
theorem execRayTaskStart_next (h : InFrame s slot x f) (ht : taskOf s slot f (.ray tile) = some t) (started : t.2.started = true)
    (uncast : tile ∉ f.geo.rays) (ready : rayReady f tile = true) (units : frameHier x f = none ∨ rtuList s x.ward f ≠ []) :
    execRayTaskStart slot tile s = .next (startRays slot tile x f t.2.core s) := by
  rcases units with none | some <;> simp_all [execRayTaskStart, need, guardThat, h.live, h.cur]
/-- Where no ray meets an uncorrectable line, a tile's rays are cast, HIT tasks dealt for the hits, and tests counted and charged. -/
theorem startRays_casts (core : Nat)
    (sound : ∀ h, frameHier x f = some h → tileRays s slot tile x f = [] ∨ poisonIn (wardOf s x.ward) h.base h.bytes.length = none) :
    ∃ m, chargeless slot (startRays slot tile x f core s) = chargeless slot m ∧ taskless m = taskless (castTile slot tile x f s) ∧
      (frameHier x f = none ∨ cbHit f.config = 0xFFFF → m = castTile slot tile x f s) := by
  cases hier : frameHier x f with
  | none =>
    refine ⟨castTile slot tile x f s, ?_, rfl, fun _ => rfl⟩
    simp only [startRays, castTile, tileRays, hier, Option.bind_none]
  | some h =>
    have unspoiled : (if (castRays s slot x f h tile).isEmpty then none else poisonIn (wardOf s x.ward) h.base h.bytes.length) = none := by
      have cast : tileRays s slot tile x f = castRays s slot x f h tile := by simp only [tileRays, hier]
      rcases cast ▸ sound h hier with empty | clean
      · simp [empty]
      · simp [clean]
    simp only [startRays, castTile, tileRays, hier, Option.bind_some, unspoiled]
    cases f.hier with
    | none => exact ⟨_, rfl, rfl, fun _ => rfl⟩
    | some r => exact ⟨_, chargeless_countRays .., taskless_dealHits .., fun hit => dealHits_none (hit.resolve_left nofun)⟩

theorem execRayTaskComplete_next (h : InFrame s slot x f) (ht : taskOf s slot f (.ray tile) = some t) (cast : tile ∈ f.geo.rays)
    (hits : taskOf s slot f (.hit tile) = none) : execRayTaskComplete slot tile s =
      .next (chargeWork slot (setGeoLatches slot [tile] (dropTasks (fun k _ => k == t.1) s))) := by
  simp [execRayTaskComplete, need, guardThat, h.live, h.cur, ht, cast, hits]
end

/-! ## What a ray task's start leaves -/

/-- The memories of wards stand where only the contents of allocations change. -/
theorem mem_of_chargeless {slot : Nat} {s n : State} (h : chargeless slot n = chargeless slot s) (w : Nat) :
    (wardOf n w).mem = (wardOf s w).mem := by
  have same : (allocless n).wards = (allocless s).wards := (congrArg State.wards h :)
  have shown (q : State) : ((allocless q).wards.getD w {}).mem = (wardOf q w).mem := by
    simp only [allocless, wardOf, List.getD_eq_getElem?_getD, List.getElem?_map]
    cases q.wards[w]? <;> rfl
  rw [← shown, ← shown, same]
theorem ctxOf_of_chargeless {slot i : Nat} {s n : State} (h : chargeless slot n = chargeless slot s) (hi : i ≠ slot) : ctxOf n i = ctxOf s i := by
  have same : tget (tmod n.ctxs slot uncharged) i = tget (tmod s.ctxs slot uncharged) i := (congrArg (fun q : State => tget q.ctxs i) h :)
  rwa [tget_tmod_other _ _ _ _ hi, tget_tmod_other _ _ _ _ hi] at same
theorem Computes.of_chargeless {slot : Nat} {s n : State} {x : Ctx} {f : Frame} (computes : Computes s slot x f)
    (h : chargeless slot n = chargeless slot s) : Computes n slot x f := by
  have same : tget (tmod n.ctxs slot uncharged) slot = tget (tmod s.ctxs slot uncharged) slot := (congrArg (fun q : State => tget q.ctxs slot) h :)
  rw [tget_tmod_same, tget_tmod_same] at same
  exact same.trans computes

/-- Each of a tile's 4,096 pixels has six bytes of disocclusion values (06 R246). -/
theorem disoccBytes_length (x : Ctx) (f : Frame) (uncovered : List Nat) (rays : List (Nat × Walk)) :
    (disoccBytes x f uncovered rays).length = 24576 := by
  unfold disoccBytes
  dsimp only
  rw [List.length_flatMap, List.map_congr_left (g := fun _ => 6)]
  · simp only [List.map_const', List.length_range, List.sum_replicate, smul_eq_mul]
  · intro k _
    split
    · simp only [List.length_append, natLe_length]
    · split <;> simp only [List.length_append, natLe_length]
theorem readN_overwrite {w : Ward} {a n : Nat} {b : Bytes} (hwf : Mem.wf w.mem = true) (h : b.length = n) :
    Mem.readN (overwrite a b w).mem a n = b := by
  subst h
  exact Mem.readN_writeN hwf a b
theorem wardOf_castTile {s : State} {x : Ctx} (slot tile : Nat) (f : Frame) (hwd : x.ward < s.wards.length) :
    wardOf (castTile slot tile x f s) x.ward = overwrite (disoccAddr s slot x.ward f.config tile 0)
      (disoccBytes x f (disoccluded s slot x f tile) (tileRays s slot tile x f)) (wardOf s x.ward) := wardOf_modWard_same _ hwd

/-! ## The end of a task (10 R358) -/

theorem tget_filter_key {α : Type} (t : Table α) (keep : Nat → Bool) {k : Nat} (h : keep k = true) :
    tget (t.filter (fun e => keep e.1)) k = tget t k := by
  induction t with
  | nil => rfl
  | cons a r ih =>
    obtain ⟨k', v⟩ := a
    rw [List.filter_cons]
    by_cases same : k = k'
    · subst same
      simp [h, tget]
    · split <;> simp [tget, same, ih]
/-- One task is dropped with the kernels of its CUSTOM layers, and every other stands. -/
theorem dropTasks_gone (s : State) (id : Nat) : TaskGone s (dropTasks (fun k _ => k == id) s) id := by
  refine ⟨fun q hq => by simpa using not_dropped hq, fun i q hi hq kernels => ⟨q, ?_, rfl⟩⟩
  refine (tget_filter_key s.tasks (fun k => !_) ?_).trans hq
  simp only [Bool.not_eq_true', List.contains_eq_mem, decide_eq_false_iff_not, List.mem_append, List.mem_map, List.mem_filter]
  rintro (⟨p, ⟨-, own⟩, rfl⟩ | ⟨p, ⟨there, kernel⟩, rfl⟩)
  · exact hi (by simpa using own)
  · split at kernel
    · next id' custom =>
      obtain ⟨⟨-, rfl⟩, -⟩ : (_ ∧ id' = id) ∧ _ := by simpa using kernel
      exact kernels p there rfl custom
    · simp at kernel

end Sys2Proof.Machine

namespace Sys2Proof.Say
open Sys2Proof.Machine

/-- A ray task writes its tile's values before any HIT task is dealt, and ends with its tile's latch. -/
theorem raysRun_holds : raysRun := by
  refine ⟨fun s slot tile x f t inFrame ht started uncast ready units => ?start, fun s slot tile x f t inFrame ht cast hits => ?complete⟩
  case start =>
    intro rays sound
    obtain ⟨m, charged, dealt, plain⟩ := startRays_casts (s := s) (slot := slot) (tile := tile) t.2.core sound
    have computes := ((Computes.of_inFrame inFrame).of_ctxs (n := wardWrite x.ward (disoccAddr s slot x.ward f.config tile 0)
      (disoccBytes x f (disoccluded s slot x f tile) rays) s) rfl).modGeo (fun g => { g with rays := g.rays ++ [tile] })
    have ctxs : m.ctxs = (castTile slot tile x f s).ctxs := (congrArg State.ctxs dealt :)
    obtain ⟨y, hy, cur, ing⟩ := ((computes.of_ctxs ctxs).of_chargeless charged).cur_ing
    refine ⟨_, (exec_rayTaskStart slot tile s).trans (execRayTaskStart_next inFrame ht started uncast ready units), ?_, ?_, ?_, fun i hi => ?_,
      ⟨y, hy, ing, cur⟩, fun noHit => ?_, fun sized hward hwf => ?_⟩
    · exact (congrArg State.slots charged :).trans (congrArg State.slots dealt :)
    · exact (congrArg State.heads charged :).trans (congrArg State.heads dealt :)
    · exact (congrArg State.hasps charged :).trans (congrArg State.hasps dealt :)
    · exact (ctxOf_of_chargeless charged hi).trans ((congrArg (tget · i) ctxs).trans (ctxOf_modFrame_other _ _ hi))
    · rw [plain noHit] at charged
      exact ⟨(congrArg State.tasks charged :), (congrArg State.cores charged :)⟩
    · have ward : wardOf m x.ward = wardOf (castTile slot tile x f s) x.ward := congrArg (fun l : List Ward => l.getD x.ward {}) (congrArg State.wards dealt :)
      rw [mem_of_chargeless charged, ward]
      rw [wardOf_castTile slot tile f (sized.2 ▸ hward)]
      exact readN_overwrite hwf (disoccBytes_length ..)
  case complete =>
    obtain ⟨due, latched⟩ := setGeoLatches_eq slot [tile] (dropTasks (fun k _ => k == t.1) s)
    have run := (exec_rayTaskComplete slot tile s).trans (execRayTaskComplete_next inFrame ht cast hits)
    rw [latched] at run
    have computes := (((Computes.of_inFrame inFrame).of_ctxs (n := dropTasks (fun k _ => k == t.1) s) rfl).modFrame (latchTiles [tile] due)).chargeWork
    obtain ⟨y, hy, cur, ing⟩ := computes.cur_ing
    refine ⟨_, run, rfl, dropTasks_gone s t.1, fun i hi => (ctxOf_chargeWork_other _ hi).trans (ctxOf_modFrame_other _ _ hi), y, _, hy, cur, ing,
      ?_, rfl, fun unlatched last => ?_⟩
    · by_cases there : tile ∈ f.geo.latches <;> simp [latchTiles, there]
    · simp [latchTiles, unlatched, last]

end Sys2Proof.Say
end

section
/-!
PROOFS. Loaded hierarchies (06 R249; 02 R72; 11 Table 11-8): HIER_LOAD, and HIER_UNLOAD with its wait for the frame in progress.
-/
namespace Sys2Proof.Machine
open Sys2Proof.Say (Answered)

/-! ## HIER_LOAD -/

theorem exec_hierLoad (slot seq : Nat) (s : State) : exec (.hierLoad slot seq) s = execHierLoad slot seq s := rfl
theorem exec_hierUnload (slot seq : Nat) (s : State) : exec (.hierUnload slot seq) s = execHierUnload slot seq s := rfl

/-- The bytes of a hierarchy that a command names. -/
def hierBytes (c : Cmd) (s : State) : Bytes := hostRead s (entAddr0 c.entry) (entArg c.entry 0)
/-- A hierarchy as it is loaded for a context. -/
def loadedHier (gen base : Nat) (b : Bytes) (x : Ctx) : Hier :=
  { gen := gen, base := base, bytes := b, digest := if cbDigest x.cfg then some (sha256 b) else none }
/-- A context with one hierarchy more. -/
def mapHier (h : Nat) (q : Ctx → Hier) (x : Ctx) : Ctx := { x with nextHier := x.nextHier + 1, hiers := tput x.hiers h (q x) }
/-- The state as a hierarchy that is loaded leaves it: its bytes charged, allocated in the ward, and mapped under a handle. -/
def loadHier (slot wd len h : Nat) (q : Ctx → Hier) (a : Alloc) (s : State) : State :=
  modCtx slot (mapHier h q) { modWard wd (addAlloc a) (chargeHost slot len 0 s) with nextSerial := s.nextSerial + 1 }

section
variable {s : State} {slot seq : Nat} {c : Cmd} {x : Ctx}
theorem hierLoadGo_rejects {reason : Nat} (bad : hierReject (hierBytes c s) (entArg c.entry 0) = some reason) :
    hierLoadGo slot seq c x s = complete (.ctx slot) seq kHierRejected reason [] (chargeHost slot (entArg c.entry 0) 0 s) := by
  unfold hierBytes at bad
  unfold hierLoadGo
  simp only [bad]
  rfl
theorem hierLoadGo_full (valid : hierReject (hierBytes c s) (entArg c.entry 0) = none) (full : 4 ≤ x.hiers.length) :
    hierLoadGo slot seq c x s = complete (.ctx slot) seq kBadState 0x02 [] (chargeHost slot (entArg c.entry 0) 0 s) := by
  unfold hierBytes at valid
  unfold hierLoadGo
  simp only [valid, full, if_true]
  rfl
/-- A hierarchy that passes its checks and fits is mapped, and its handle and generation are the result. -/
theorem hierLoadGo_loads (valid : hierReject (hierBytes c s) (entArg c.entry 0) = none) (few : x.hiers.length < 4)
    (fits : cdiv (entArg c.entry 0) (2 ^ 18) ≤ freeGranules (wardOf s x.ward)) :
    ∃ addr a, hierLoadGo slot seq c x s =
      completeOk (.ctx slot) seq (natLe 4 (freeKeyFrom x.hiers 1) ++ natLe 2 (x.nextHier % 65536))
        (loadHier slot x.ward (entArg c.entry 0) (freeKeyFrom x.hiers 1) (loadedHier (x.nextHier % 65536) addr (hierBytes c s)) a s) := by
  obtain ⟨addr, a, ha⟩ := allocate_some (s := chargeHost slot (entArg c.entry 0) 0 s) (.hierarchy slot (freeKeyFrom x.hiers 1)) true
    (hierBytes c s) fits
  unfold hierBytes at valid ha
  unfold hierLoadGo
  simp only [valid, if_neg (Nat.not_le.mpr few), ha]
  exact ⟨addr, a, rfl⟩
theorem keepsRing_loadHier (wd len h : Nat) (q : Ctx → Hier) (a : Alloc) : KeepsRing (.ctx slot) s (loadHier slot wd len h q a s) := by
  have mapped (m : State) : KeepsRing (.ctx slot) m (modCtx slot (mapHier h q) m) :=
    ⟨(sameRings_modCtx (g := mapHier h q) (fun _ => rfl) slot m).rings slot, rfl, id⟩
  have allocated : KeepsRing (.ctx slot) s { modWard wd (addAlloc a) (chargeHost slot len 0 s) with nextSerial := s.nextSerial + 1 } :=
    (keepsRing_chargeHost slot slot len 0 s).trans ⟨rfl, rfl, id⟩
  exact allocated.trans (mapped _)
theorem wardOf_loadHier {wd : Nat} (len h : Nat) (q : Ctx → Hier) (a : Alloc) (hwd : wd < s.wards.length) :
    wardOf (loadHier slot wd len h q a s) wd = addAlloc a (wardOf s wd) := wardOf_modWard_same (s := chargeHost slot len 0 s) _ hwd
theorem ctxOf_loadHier (wd len h : Nat) (q : Ctx → Hier) (a : Alloc) (hx : ctxOf s slot = some x) :
    ∃ y z, ctxOf (loadHier slot wd len h q a s) slot = some y ∧ y.hiers = tput x.hiers h (q z) ∧ y.nextHier = x.nextHier + 1 := by
  obtain ⟨z, charged, same⟩ : ∃ z, ctxOf (chargeHost slot len 0 s) slot = some z ∧ uncharged z = uncharged x := by
    simp only [chargeHost, modAcct, ctxOf_modCtx, if_true, hx, Option.map_some]
    exact ⟨_, rfl, rfl⟩
  have hiers : z.hiers = x.hiers := (congrArg Ctx.hiers same :)
  have next : z.nextHier = x.nextHier := (congrArg Ctx.nextHier same :)
  exact ⟨_, z, (tget_tmod_same _ slot (mapHier h q)).trans (congrArg (Option.map _) charged), by rw [mapHier, hiers], by rw [mapHier, next]⟩
theorem complete_slots (r : RingRef) (seq code reason : Nat) (result : Bytes) (s : State) :
    (complete r seq code reason result s).slots = s.slots := (congrArg State.slots (recordless_complete r seq code reason result s) :)
/-- The answer of a command leaves the hierarchies. -/
theorem hiers_complete {r : RingRef} {code reason : Nat} {result : Bytes} {m : State} {t : Table Hier}
    (hx : (ctxOf m slot).map (·.hiers) = some t) : (ctxOf (complete r seq code reason result m) slot).map (·.hiers) = some t := by
  have kept := congrArg (Option.map Ctx.hiers) (ctxOf_of_recordless (recordless_complete r seq code reason result m) slot)
  simp only [Option.map_map] at kept
  exact kept.trans hx

/-! ## HIER_UNLOAD -/

theorem readyCmd_opcode {r : RingRef} {op : Nat} (h : readyCmd r seq op s = some c) : entOpcode c.entry = op := by
  simp only [readyCmd, Option.ite_none_right_eq_some] at h
  obtain ⟨-, h⟩ := h
  split at h
  · cases h
  · split at h
    · cases h
    · simp only [Option.ite_none_right_eq_some, Option.some.injEq] at h
      obtain ⟨⟨op, -⟩, rfl⟩ := h
      exact op
theorem execHierUnload_next (hc : readyCmd (.ctx slot) seq 0x27 s = some c) (hx : ctxOf s slot = some x) (fresh : c.started = false) :
    execHierUnload slot seq s = .next (hierUnloadGo slot seq c x s) := by
  simp [execHierUnload, need, guardThat, hc, hx, fresh]
theorem hierUnloadGo_unknown (unknown : tget x.hiers (entArg c.entry 0) = none) :
    hierUnloadGo slot seq c x s = complete (.ctx slot) seq kBadState 0x03 [] s := by
  unfold hierUnloadGo
  simp only [unknown]
  rfl

/-- A command whose unload waits for the frames that use hierarchy h. -/
def waitingUnload (h : Nat) (c : Cmd) : Cmd := { c with started := true, aux := h }
/-- The state with an unload of hierarchy h begun. -/
def beginUnload (slot seq h : Nat) (q : Hier) (s : State) : State :=
  modCtx slot (fun x => { x with hiers := tput x.hiers h { q with unloading := true } }) (modCmd (.ctx slot) seq (waitingUnload h) s)
theorem hierUnloadGo_begins {q : Hier} (hq : tget x.hiers (entArg c.entry 0) = some q) (gen : q.gen = entArg c.entry 1)
    (loaded : q.unloading = false) :
    hierUnloadGo slot seq c x s = settleHiers slot (beginUnload slot seq (entArg c.entry 0) q s) := by
  unfold hierUnloadGo
  simp only [hq]
  exact if_neg (by simp [gen, loaded])
/-- The context with an unload begun. -/
def unloadingCtx (seq h : Nat) (q : Hier) (x : Ctx) : Ctx :=
  { x with
    ring := { x.ring with cmds := x.ring.cmds.map (fun c => if c.seq == seq then waitingUnload h c else c) }
    hiers := tput x.hiers h { q with unloading := true } }
theorem ctxOf_beginUnload (h : Nat) (q : Hier) (hx : ctxOf s slot = some x) :
    ctxOf (beginUnload slot seq h q s) slot = some (unloadingCtx seq h q x) := by
  simp [beginUnload, modCmd, modRing, ctxOf_modCtx, hx, unloadingCtx]
/-- Where a test fails on every entry of a table, only an entry put may pass it. -/
theorem filter_tput {α : Type} {p : Nat × α → Bool} (k : Nat) (v : α) {t : Table α} (fails : ∀ e ∈ t, p e = false) :
    (tput t k v).filter p = if p (k, v) then [(k, v)] else [] := by
  induction t with
  | nil => rw [tput, List.filter_cons, List.filter_nil]
  | cons a r ih =>
    obtain ⟨k', v'⟩ := a
    have first : p (k', v') = false := fails _ List.mem_cons_self
    have rest : r.filter p = [] := List.filter_eq_nil_iff.mpr fun e he => by simp [fails e (List.mem_cons_of_mem _ he)]
    simp only [tput]
    split
    · simp only [List.filter_cons, first, rest]
      rfl
    · split
      · simp only [List.filter_cons, rest]
      · rw [List.filter_cons, first, if_neg Bool.false_ne_true, ih (fun e he => fails e (List.mem_cons_of_mem _ he))]

/-- The frame in progress uses a hierarchy by its handle and generation. -/
def usesHier (x : Ctx) (h gen : Nat) : Prop := (x.fr.cur.bind (·.hier)).map (fun r => (r.2.1, r.2.2)) = some (h, gen)
/-- The state with a hierarchy unmapped. -/
def unmapHier (slot wd h : Nat) (s : State) : State :=
  modCtx slot (fun x => { x with hiers := tdel x.hiers h }) (release wd (·.kind == .hierarchy slot h) s)
/-- The command whose unload of a hierarchy waits. -/
def unloadWaits (h : Nat) (c : Cmd) : Bool := entOpcode c.entry == 0x27 && c.started && c.aux == h
/-- A hierarchy of a context whose unload waits and that the frame in progress does not use. -/
def unmappable (x : Ctx) (e : Nat × Hier) : Bool :=
  e.2.unloading && !((x.fr.cur.bind (·.hier)).map (fun r => (r.2.1, r.2.2)) == some (e.1, e.2.gen))

section
variable {h : Nat} {q : Hier}
theorem filter_unmappable (seq h : Nat) (q : Hier) (loaded : ∀ e ∈ x.hiers, e.2.unloading = false) :
    (unloadingCtx seq h q x).hiers.filter (unmappable (unloadingCtx seq h q x)) =
      if unmappable (unloadingCtx seq h q x) (h, { q with unloading := true }) then [(h, { q with unloading := true })] else [] :=
  filter_tput h _ (fun e he => by simp [unmappable, loaded e he])
theorem unmappable_iff (seq : Nat) :
    unmappable (unloadingCtx seq h q x) (h, { q with unloading := true }) = true ↔ ¬ usesHier x h q.gen := by
  simp [unmappable, unloadingCtx, usesHier]
/-- An unload of a hierarchy that the frame in progress uses waits. -/
theorem settleHiers_used (hx : ctxOf s slot = some x) (loaded : ∀ e ∈ x.hiers, e.2.unloading = false) (used : usesHier x h q.gen) :
    settleHiers slot (beginUnload slot seq h q s) = beginUnload slot seq h q s := by
  have none_left := filter_unmappable seq h q loaded
  rw [if_neg (fun may => (unmappable_iff seq).mp may used)] at none_left
  unfold settleHiers
  simp only [ctxOf_beginUnload h q hx]
  exact congrArg (List.foldl _ _) none_left
/-- An unload of one that no frame in progress uses completes, by the command that began it. -/
theorem settleHiers_unused {d : Cmd} (hx : ctxOf s slot = some x) (loaded : ∀ e ∈ x.hiers, e.2.unloading = false) (unused : ¬ usesHier x h q.gen)
    (hd : (unloadingCtx seq h q x).ring.cmds.find? (unloadWaits h) = some d) :
    settleHiers slot (beginUnload slot seq h q s) = completeOk (.ctx slot) d.seq [] (unmapHier slot x.ward h (beginUnload slot seq h q s)) := by
  have one_left := filter_unmappable seq h q loaded
  rw [if_pos ((unmappable_iff seq).mpr unused)] at one_left
  unfold settleHiers
  simp only [ctxOf_beginUnload h q hx]
  refine (congrArg (List.foldl _ _) one_left).trans ?_
  rw [List.foldl_cons, List.foldl_nil]
  unfold unloadWaits at hd
  simp only [hd]
  rfl
/-- The command that waits is the one whose unload has begun, where no other one had. -/
theorem find_unloadWaits (hx : ctxOf s slot = some x) (hc : cmdOf s (.ctx slot) seq = some c) (op : entOpcode c.entry = 0x27)
    (alone : ∀ d ∈ x.ring.cmds, entOpcode d.entry = 0x27 → d.started = false) :
    ∃ d, (unloadingCtx seq h q x).ring.cmds.find? (unloadWaits h) = some d ∧ d.seq = seq := by
  have there : c ∈ x.ring.cmds := by
    simp only [cmdOf, ringOf, hx, Option.map_some, Option.bind_some] at hc
    exact List.mem_of_find?_eq_some hc
  obtain ⟨same, -⟩ := cmdOf_some hc
  have waiting : waitingUnload h c ∈ (unloadingCtx seq h q x).ring.cmds :=
    List.mem_map.mpr ⟨c, there, by simp [same]⟩
  have waits : unloadWaits h (waitingUnload h c) = true := by simp [unloadWaits, waitingUnload, op]
  obtain ⟨d, hd⟩ := Option.isSome_iff_exists.mp (List.find?_isSome.mpr ⟨_, waiting, waits⟩)
  refine ⟨d, hd, ?_⟩
  obtain ⟨d0, hd0, from_d0⟩ := List.mem_map.mp (List.mem_of_find?_eq_some hd)
  by_cases its : d0.seq = seq
  · rw [← from_d0, if_pos (by simp [its])]
    exact its
  · rw [if_neg (by simp [its])] at from_d0
    have waits : unloadWaits h d = true := List.find?_some hd
    simp only [unloadWaits, Bool.and_eq_true, beq_iff_eq] at waits
    obtain ⟨⟨unload, began⟩, -⟩ := waits
    rw [← from_d0] at unload began
    exact absurd began (by simp [alone d0 hd0 unload])

/-- What comes after its start is noted leaves a command of the ring as it is. -/
theorem keepsRing_beginUnload (seq h : Nat) (q : Hier) (s : State) :
    KeepsRing (.ctx slot) (modCmd (.ctx slot) seq (waitingUnload h) s) (beginUnload slot seq h q s) :=
  ⟨(sameRings_modCtx (g := fun x => { x with hiers := tput x.hiers h { q with unloading := true } }) (fun _ => rfl) slot _).rings slot, rfl, id⟩
theorem keepsRing_unmapHier (wd h : Nat) (s : State) : KeepsRing (.ctx slot) s (unmapHier slot wd h s) :=
  (keepsRing_modWard (.ctx slot) wd _ s).trans
    ⟨(sameRings_modCtx (g := fun x => { x with hiers := tdel x.hiers h }) (fun _ => rfl) slot _).rings slot, rfl, id⟩
theorem cmdOf_waitingUnload (h : Nat) (hc : cmdOf s (.ctx slot) seq = some c) :
    cmdOf (modCmd (.ctx slot) seq (waitingUnload h) s) (.ctx slot) seq = some (waitingUnload h c) := by
  rw [cmdOf_modCmd (f := waitingUnload h) (fun _ => rfl), hc]
  rfl
/-- The answer of a command stands for the command as it was before its start was noted. -/
theorem answered_of_started {m n : State} (h : Nat) (answered : Answered m n (.ctx slot) (waitingUnload h c) 0 0)
    (kept : KeepsRing (.ctx slot) (modCmd (.ctx slot) seq (waitingUnload h) s) m) : Answered s n (.ctx slot) c 0 0 where
  gone := answered.gone
  record r hr hlost hwf loud := by
    have ring := kept.ring
    rw [modCmd, ringOf_modRing, hr, Option.map_some] at ring
    have record := answered.record _ ring hlost (kept.canonical hwf) loud
    exact record
/-- An allocation that a release leaves fails its test. -/
theorem not_released {wd : Nat} {test : Alloc → Bool} {a : Alloc} (ha : a ∈ (wardOf (release wd test s) wd).allocs) : test a = false := by
  rw [release, wardOf_modWard] at ha
  split at ha
  · simpa using (List.mem_filter.mp ha).2
  · next outside =>
    have absent : wardOf s wd = {} := by simp [wardOf, List.getElem?_eq_none (Nat.le_of_not_lt (fun h => outside ⟨rfl, h⟩))]
    rw [absent] at ha
    cases ha
end
end

end Sys2Proof.Machine

namespace Sys2Proof.Say
open Sys2Proof.Machine

/-- A load is rejected, refused or mapped, and answered; an unload waits while the frame in progress uses its hierarchy, and else unmaps it. -/
theorem hierarchies_holds : hierarchies := by
  refine ⟨fun s slot seq c x sized hc hx hward => ?load, fun s slot seq c x q hc hx fresh => ?unload,
    fun s slot seq c x hc hx fresh unknown => ?unknown⟩
  case load =>
    intro len b
    have run := (exec_hierLoad slot seq s).trans (ctxCommand_next _ hc hx)
    have charged : (ctxOf (chargeHost slot len 0 s) slot).map (·.hiers) = some x.hiers := by simp [chargeHost, modAcct, ctxOf_modCtx, hx]
    have kept := keepsRing_chargeHost slot slot len 0 s
    refine ⟨fun reason bad => ?rejected, fun valid full => ?full, fun valid few fits => ?mapped⟩
    case rejected =>
      exact ⟨_, run.trans (congrArg _ (hierLoadGo_rejects bad)), complete_answered_after _ reason [] hc kept, complete_wards .., hiers_complete charged⟩
    case full =>
      exact ⟨_, run.trans (congrArg _ (hierLoadGo_full valid full)), complete_answered_after _ 0x02 [] hc kept, complete_wards ..,
        hiers_complete charged⟩
    case mapped =>
      intro h
      obtain ⟨addr, a, loads⟩ := hierLoadGo_loads (slot := slot) (seq := seq) valid few fits
      obtain ⟨z, charged, hz, hiers, next⟩ := ctxOf_loadHier x.ward len h (loadedHier (x.nextHier % 65536) addr b) a hx
      obtain ⟨y, hy, same⟩ := ctx_of_recordless (recordless_complete (.ctx slot) seq 0 0 (natLe 4 h ++ natLe 2 (x.nextHier % 65536))
        (loadHier slot x.ward len h (loadedHier (x.nextHier % 65536) addr b) a s)) hz
      refine ⟨_, run.trans (congrArg _ loads), completeOk_result_after _ hc (keepsRing_loadHier ..), fun w hw => ?_, ?_, y, _, hy,
        (congrArg Ctx.hiers same :).trans hiers, (congrArg Ctx.nextHier same :).trans next, rfl, rfl, rfl⟩
      · exact (wardOf_complete ..).trans (wardOf_modWard_other _ (chargeHost slot len 0 s) hw)
      · rw [completeOk, wardOf_complete, wardOf_loadHier _ _ _ _ (sized.2 ▸ hward)]
        rfl
  case unload =>
    intro h hq gen loaded alone used
    obtain ⟨hcmd, running, steady⟩ := readyCmd_some hc
    have run := ((exec_hierUnload slot seq s).trans (execHierUnload_next hc hx fresh)).trans
      (congrArg _ (hierUnloadGo_begins hq gen (loaded _ (tget_mem hq))))
    refine ⟨fun unused => ?unmaps, fun uses => ?waits⟩
    case unmaps =>
      obtain ⟨d, hd, rfl⟩ := find_unloadWaits hx hcmd (readyCmd_opcode hc) alone
      rw [settleHiers_unused hx loaded unused hd] at run
      have kept := (keepsRing_beginUnload (slot := slot) d.seq h q s).trans (keepsRing_unmapHier x.ward h _)
      have answered := complete_answered 0 0 [] ((cmdOf_of_keepsRing kept d.seq).trans (cmdOf_waitingUnload h hcmd))
        ((congrArg Firmware.running kept.fw).trans running) ((congrArg Firmware.switching kept.fw).trans steady)
      refine ⟨_, run, answered_of_started h answered kept, ?_, hiers_complete ?_, fun a ha of => ?_⟩
      · exact complete_slots ..
      · have begun := ctxOf_beginUnload (seq := d.seq) h q hx
        have released : ctxOf (release x.ward (·.kind == .hierarchy slot h) (beginUnload slot d.seq h q s)) slot = _ := begun
        simp [unmapHier, ctxOf_modCtx, released, unloadingCtx]
      · rw [completeOk, wardOf_complete] at ha
        have stays := not_released (s := beginUnload slot d.seq h q s) ha
        simp [of] at stays
    case waits =>
      rw [settleHiers_used hx loaded uses] at run
      refine ⟨_, run, rfl, ?_, by simp [ctxOf_beginUnload h q hx, unloadingCtx]⟩
      exact (cmdOf_of_keepsRing (keepsRing_beginUnload seq h q s) seq).trans (cmdOf_waitingUnload h hcmd)
  case unknown =>
    exact ⟨_, ((exec_hierUnload slot seq s).trans (execHierUnload_next hc hx fresh)).trans (congrArg _ (hierUnloadGo_unknown unknown)),
      complete_answered_after _ 0x03 [] hc (.refl _ s), complete_wards ..⟩

/-- Settles O38: rays leave all but tasks, cores, statistics and their tile's values (`startRays_casts`). A hierarchy is mapped as its command
is answered, and an unload that waits is answered as the command that began it (`answered_of_started`). -/
theorem raysAndHierarchies : Obligations.RaysAndHierarchies := ⟨raysRun_holds, hierarchies_holds⟩

end Sys2Proof.Say
end

section
/-!
PROOFS. A context beside the device (11 R395, R402; 08 R287): what the answers and events of its own ring leave, the commands in flight
after them, and a change of its adaptation.
-/
namespace Sys2Proof.Machine

/-! ## The answers and events of a context's ring -/

theorem postOther_keepsFrame (slot : Nat) (r : Rec) (s : State) : KeepsFrame slot s (postOther (.ctx slot) r s) := by
  unfold postOther
  split
  · exact .refl slot s
  · exact ite_keepsFrame (postAlways_keepsFrame slot r s) (modRing_keepsFrame slot _ s)
theorem settleLost_keepsFrame (slot : Nat) (s : State) : KeepsFrame slot s (settleLost (.ctx slot) s) := by
  unfold settleLost
  split
  · exact .refl slot s
  · exact ite_keepsFrame ((modRing_keepsFrame slot _ s).trans (postAlways_keepsFrame slot _ _)) (.refl slot s)
/-- There is nothing to answer where no command has the SEQ. -/
theorem complete_of_none {r : RingRef} {seq : Nat} {s : State} (code reason : Nat) (result : Bytes) (h : cmdOf s r seq = none) :
    complete r seq code reason result s = s := by rw [complete, h]
/-- The answer of a command of a context's ring keeps its frame. -/
theorem complete_keepsFrame (slot seq code reason : Nat) (result : Bytes) (s : State) :
    KeepsFrame slot s (complete (.ctx slot) seq code reason result s) := by
  cases hc : cmdOf s (.ctx slot) seq with
  | none => exact (complete_of_none code reason result hc).symm ▸ .refl slot s
  | some c =>
    rw [complete_eq code reason result hc]
    have retired : KeepsFrame slot s (retire (.ctx slot) seq s) := modRing_keepsFrame slot _ s
    exact (ite_keepsFrame retired (retired.trans (postAlways_keepsFrame slot _ _))).trans (settleLost_keepsFrame slot _)

/-- What a context shows besides its ring and account, records leave. -/
theorem ctx_map_of_recordless {β : Type} {v : Ctx → β} (hv : ∀ x, v (unposted x) = v x) {s n : State} (h : recordless n = recordless s)
    (i : Nat) : (ctxOf n i).map v = (ctxOf s i).map v := by
  have shown := congrArg (Option.map v) (ctxOf_of_recordless h i)
  simpa only [Option.map_map, Function.comp_def, hv] using shown

/-- Records leave slots, heads and tasks. -/
theorem tables_of_recordless {s n : State} (h : recordless n = recordless s) : n.slots = s.slots ∧ n.heads = s.heads ∧ n.tasks = s.tasks :=
  ⟨(congrArg State.slots h :), (congrArg State.heads h :), (congrArg State.tasks h :)⟩

/-! ## The commands in flight -/

theorem cmds_postAlways (r : RingRef) (x : Rec) (s : State) : (ringOf (postAlways r x s) r).map Ring.cmds = (ringOf s r).map Ring.cmds := by
  have kept := congrArg (Option.map Prod.fst) (ringOf_postAlways r x s)
  simp only [Option.map_map] at kept
  exact kept
@[simp] theorem cmdOf_postOther (r : RingRef) (x : Rec) (s : State) (seq : Nat) : cmdOf (postOther r x s) r seq = cmdOf s r seq := by
  unfold postOther
  split
  · rfl
  · split
    · rw [cmdOf_eq, cmds_postAlways, ← cmdOf_eq]
    · rw [cmdOf_eq, ringOf_modRing, cmdOf_eq, Option.map_map]
      rfl
@[simp] theorem cmdOf_postEvent (slot code reason : Nat) (body : Bytes) (s : State) (seq : Nat) :
    cmdOf (postEvent slot code reason body s) (.ctx slot) seq = cmdOf s (.ctx slot) seq := cmdOf_postOther ..
/-- The answer of a command takes it, and no other, from those in flight. -/
theorem cmdOf_completed (slot seq code reason : Nat) (result : Bytes) (s : State) (q : Nat) :
    cmdOf (complete (.ctx slot) seq code reason result s) (.ctx slot) q = if q = seq then none else cmdOf s (.ctx slot) q := by
  cases hc : cmdOf s (.ctx slot) seq with
  | none =>
    rw [complete_of_none code reason result hc]
    split
    · next h => rw [h]; exact hc
    · rfl
  | some c =>
    split
    · next h => rw [h]; exact cmdOf_complete code reason result hc
    · next h =>
      have left (l : List Cmd) : (l.filter (fun c => c.seq != seq)).find? (fun c => c.seq == q) = l.find? (fun c => c.seq == q) := by
        rw [List.find?_filter]
        refine congrArg (List.find? · l) (funext fun d => ?_)
        by_cases own : d.seq = q <;> simp [own, h]
      have retired : cmdOf (retire (.ctx slot) seq s) (.ctx slot) q = cmdOf s (.ctx slot) q := by
        simp only [cmdOf, retire, ringOf_modRing, Option.bind_map, Function.comp_def, left]
      rw [complete_eq code reason result hc]
      refine Eq.trans ?_ retired
      refine (cmdOf_eq ..).trans ((congrArg (Option.bind · _) (ringOf_settleLost (.ctx slot) _)).trans ((cmdOf_eq ..).symm.trans ?_))
      split
      · rfl
      · rw [cmdOf_eq, cmds_postAlways, ← cmdOf_eq]

/-! ## A change of a context's adaptation -/

/-- A context without its adaptation, ring, account, ingest and runs. -/
def adaptless (x : Ctx) : Ctx := { frameSide x with ad := {} }

/-- From s to n the adaptation of a slot's context changes by f. Its ring, account, ingest and runs may change with it, and tasks of it go:
wards, slots, heads and the other contexts stand, and no command comes into flight. -/
structure Adapts (slot : Nat) (f : Adapt → Adapt) (s n : State) : Prop where
  now : n.now = s.now
  nextTask : n.nextTask = s.nextTask
  wards : n.wards = s.wards
  slots : n.slots = s.slots
  heads : n.heads = s.heads
  ctxs : ∀ i, i ≠ slot → ctxOf n i = ctxOf s i
  gone : ∀ seq, cmdOf s (.ctx slot) seq = none → cmdOf n (.ctx slot) seq = none
  ctx : ∀ x, ctxOf s slot = some x → ∃ y, ctxOf n slot = some y ∧ y.ad = f x.ad ∧ adaptless y = adaptless x

section
variable {slot : Nat} {f g : Adapt → Adapt} {s m n : State}

theorem Adapts.refl (slot : Nat) (s : State) : Adapts slot id s s := ⟨rfl, rfl, rfl, rfl, rfl, fun _ _ => rfl, fun _ => id, fun x hx => ⟨x, hx, rfl, rfl⟩⟩
theorem Adapts.trans (a : Adapts slot f s m) (b : Adapts slot g m n) : Adapts slot (g ∘ f) s n where
  now := b.now.trans a.now
  nextTask := b.nextTask.trans a.nextTask
  wards := b.wards.trans a.wards
  slots := b.slots.trans a.slots
  heads := b.heads.trans a.heads
  ctxs i hi := (b.ctxs i hi).trans (a.ctxs i hi)
  gone seq := b.gone seq ∘ a.gone seq
  ctx x hx := by
    obtain ⟨y, hy, ady, sidey⟩ := a.ctx x hx
    obtain ⟨z, hz, adz, sidez⟩ := b.ctx y hy
    exact ⟨z, hz, adz.trans (congrArg g ady), sidez.trans sidey⟩
theorem Adapts.of_keepsFrame (h : KeepsFrame slot s n) (now : n.now = s.now) (nextTask : n.nextTask = s.nextTask)
    (gone : ∀ seq, cmdOf s (.ctx slot) seq = none → cmdOf n (.ctx slot) seq = none) : Adapts slot id s n := by
  refine ⟨now, nextTask, h.wards, h.slots, h.heads, h.ctxs, gone, fun x hx => ?_⟩
  obtain ⟨y, hy, side⟩ := h.ctx_some hx
  exact ⟨y, hy, (congrArg Ctx.ad side :), (congrArg (fun z : Ctx => { z with ad := {} }) side :)⟩
theorem Adapts.foldl {α : Type} {step : State → α → State} (h : ∀ s a, Adapts slot id s (step s a)) (l : List α) (s : State) :
    Adapts slot id s (l.foldl step s) :=
  List.foldlRecOn l step (.refl slot s) (fun _ kept a _ => kept.trans (h _ a))

/-- A change of the context that keeps its commands, and all but its adaptation, account, ingest and runs. -/
theorem adapts_modCtx {k : Ctx → Ctx} (ring : ∀ x, (k x).ring = x.ring) (ad : ∀ x, (k x).ad = f x.ad)
    (side : ∀ x, adaptless (k x) = adaptless x) (s : State) : Adapts slot f s (modCtx slot k s) := by
  refine ⟨rfl, rfl, rfl, rfl, rfl, fun i hi => by rw [ctxOf_modCtx, if_neg hi], fun seq gone => ?_, fun x hx => ⟨k x, ?_, ad x, side x⟩⟩
  · exact (congrArg (Option.bind · _) ((sameRings_modCtx ring slot s).rings slot)).trans gone
  · rw [ctxOf_modCtx, if_pos rfl, hx]
    rfl
theorem adapts_modAd (slot : Nat) (f : Adapt → Adapt) (s : State) : Adapts slot f s (modAd slot f s) :=
  adapts_modCtx (k := fun x => { x with ad := f x.ad }) (fun _ => rfl) (fun _ => rfl) (fun _ => rfl) s
theorem adapts_modAcct (slot : Nat) (a : Account → Account) (s : State) : Adapts slot id s (modAcct slot a s) :=
  adapts_modCtx (k := fun x => { x with acct := a x.acct }) (fun _ => rfl) (fun _ => rfl) (fun _ => rfl) s
theorem adapts_chargeWork (slot : Nat) (s : State) : Adapts slot id s (chargeWork slot s) := by
  obtain ⟨a, charged⟩ := chargeWork_eq slot s
  obtain ⟨now, nextTask, wards, slots, heads, ctxs, gone, ctx⟩ := adapts_modAcct slot a s
  rw [charged]
  exact ⟨now, nextTask, wards, slots, heads, ctxs, gone, ctx⟩
theorem adapts_settleSets (slot : Nat) (s : State) : Adapts slot id s (settleSets slot s) := by
  refine adapts_modCtx ?_ ?_ ?_ s <;> exact fun _ => rfl
theorem adapts_dropTasks (slot : Nat) (p : Nat → Task → Bool) (s : State) : Adapts slot id s (dropTasks p s) :=
  ⟨rfl, rfl, rfl, rfl, rfl, fun _ _ => rfl, fun _ => id, fun x hx => ⟨x, hx, rfl, rfl⟩⟩
theorem adapts_abandonStep (slot : Nat) (s : State) : Adapts slot (fun a => { a with running := none }) s (abandonStep slot s) :=
  (adapts_modAd slot _ s).trans (adapts_dropTasks slot _ _)
theorem adapts_complete (slot seq code reason : Nat) (result : Bytes) (s : State) :
    Adapts slot id s (complete (.ctx slot) seq code reason result s) := by
  have records := recordless_complete (.ctx slot) seq code reason result s
  refine .of_keepsFrame (complete_keepsFrame ..) (congrArg State.now records :) (congrArg State.nextTask records :) fun q gone => ?_
  rw [cmdOf_completed, gone, ite_self]
theorem adapts_postEvent (slot code reason : Nat) (body : Bytes) (s : State) : Adapts slot id s (postEvent slot code reason body s) := by
  have records := recordless_postEvent slot code reason body s
  exact .of_keepsFrame (postEvent_keepsFrame ..) (congrArg State.now records :) (congrArg State.nextTask records :)
    fun q gone => (cmdOf_postEvent ..).trans gone
end

/-- A state without what work that ends changes: free values, contexts, cores and tasks. -/
def workless (s : State) : State := { s with free := 0, ctxs := [], cores := [], tasks := [] }
theorem eq_of_workless {s n : State} (h : workless n = workless s) : n = { s with free := n.free, ctxs := n.ctxs, cores := n.cores, tasks := n.tasks } :=
  (congrArg (fun q : State => { q with free := n.free, ctxs := n.ctxs, cores := n.cores, tasks := n.tasks }) h :)
@[simp] theorem workless_modCtx (slot : Nat) (k : Ctx → Ctx) (s : State) : workless (modCtx slot k s) = workless s := rfl
@[simp] theorem workless_modAd (slot : Nat) (f : Adapt → Adapt) (s : State) : workless (modAd slot f s) = workless s := rfl
@[simp] theorem workless_chargeWork (slot : Nat) (s : State) : workless (chargeWork slot s) = workless s := rfl
@[simp] theorem workless_dropTasks (p : Nat → Task → Bool) (s : State) : workless (dropTasks p s) = workless s := rfl
@[simp] theorem workless_settleSets (slot : Nat) (s : State) : workless (settleSets slot s) = workless s := rfl
@[simp] theorem workless_abandonStep (slot : Nat) (s : State) : workless (abandonStep slot s) = workless s := rfl

theorem ctxOf_modAd {s : State} {slot : Nat} {x : Ctx} (f : Adapt → Adapt) (hx : ctxOf s slot = some x) :
    ctxOf (modAd slot f s) slot = some { x with ad := f x.ad } := by
  rw [modAd, ctxOf_modCtx, if_pos rfl, hx]
  rfl
theorem ctxOf_abandonStep {s : State} {slot : Nat} {x : Ctx} (hx : ctxOf s slot = some x) :
    ctxOf (abandonStep slot s) slot = some { x with ad := { x.ad with running := none } } := ctxOf_modAd (fun a => { a with running := none }) hx
/-- An abandoned step has no task left. -/
theorem abandonStep_tasks {s : State} {slot : Nat} {t : Nat × Task} (h : t ∈ (abandonStep slot s).tasks) :
    ¬ (t.2.slot = slot ∧ ∃ k, t.2.kind = .train k) := by
  have stays := not_dropped h
  rintro ⟨own, k, kind⟩
  simp [own, kind] at stays

end Sys2Proof.Machine
end

section
/-!
PROOFS. Captures and bindings (08 R289, R294–R297; 04 R144): CAPTURE_TASK and IMAGE_BIND.
-/
namespace Sys2Proof.Machine
open Sys2Proof.Say (Answered)

/-! ## CAPTURE_TASK -/

theorem exec_captureTask (slot p : Nat) (s : State) : exec (.captureTask slot p) s = execCaptureTask slot p s := rfl
/-- A patch is put in its place among those of its frame's anchor. -/
def stagePatch (now number : Nat) (patch : Patch) (a : Adapt) : Adapt :=
  { a with staging := a.staging.map (fun an =>
      if an.frame = number then { an with left := an.left - 1, lastAt := now, patches := insertPatch patch an.patches } else an) }
theorem execCaptureTask_next {s : State} {slot p : Nat} {x : Ctx} {t : Nat × Task} {f : Frame} {img : Bytes} (hx : liveCtx s slot = some x)
    (ht : s.tasks.find? (fun t => t.2.slot == slot && t.2.kind == .capture p && t.2.started) = some t)
    (hf : anchorFrame x (t.2.frame.getD 0) = some f) (him : frameImage s x f = some img) :
    execCaptureTask slot p s = .next (settleSets slot (modAd slot (stagePatch s.now f.number (capturePatch s slot x f img p))
      (chargeWork slot (dropTasks (fun k _ => k == t.1) s)))) := by
  simp only [execCaptureTask, need, hx, ht, hf, him]
  rfl

/-! ## IMAGE_BIND -/

theorem exec_imageBind (slot seq : Nat) (s : State) : exec (.imageBind slot seq) s = execImageBind slot seq s := rfl

/-- A state without what giving memory changes. -/
def unallocated (s : State) : State := { s with wards := [], nextSerial := 0 }
/-- What giving memory leaves. -/
structure MemoryGiven (s n : State) : Prop where
  ctxs : n.ctxs = s.ctxs
  slots : n.slots = s.slots
  heads : n.heads = s.heads
  tasks : n.tasks = s.tasks
  hostMem : n.hostMem = s.hostMem
  fw : n.fw = s.fw
theorem memoryGiven_of_unallocated {s n : State} (h : unallocated n = unallocated s) : MemoryGiven s n :=
  ⟨(congrArg State.ctxs h :), (congrArg State.slots h :), (congrArg State.heads h :), (congrArg State.tasks h :),
    (congrArg State.hostMem h :), (congrArg State.fw h :)⟩
theorem unallocated_allocate (wd count : Nat) (kind : AllocKind) (ro : Bool) (content : Bytes) (s : State) :
    unallocated (((allocate wd count kind ro content s).map (·.2)).getD s) = unallocated s := by
  unfold allocate
  extract_lets w base a
  split <;> rfl
theorem unallocated_resizeObject (wd count : Nat) (kind : AllocKind) (s : State) : unallocated (resizeObject wd count kind s) = unallocated s := by
  unfold resizeObject take
  split
  · rfl
  · split
    · rfl
    · exact unallocated_allocate ..

/-- The memory that a bound image takes in a ward: layer entries, the sample store, frame-scope tensors and the copies of its weights. -/
def takeBound (slot h : Nat) (x : Ctx) (img : Bytes) (s : State) : State :=
  bindCopies slot x.ward img (bindTensors slot x.ward h x img
    (resizeObject x.ward (storeGranules (some img) x.cfg) (.store slot) (bindStats slot x.ward (imCount img 0x03) s)))
theorem unallocated_takeBound (slot h : Nat) (x : Ctx) (img : Bytes) (s : State) : unallocated (takeBound slot h x img s) = unallocated s := by
  have copies (q : State) : unallocated (bindCopies slot x.ward img q) = unallocated q := by
    unfold bindCopies
    dsimp only
    split
    · rfl
    · exact unallocated_allocate ..
  have tensors (q : State) : unallocated (bindTensors slot x.ward h x img q) = unallocated q := unallocated_resizeObject ..
  have stats (q : State) : unallocated (bindStats slot x.ward (imCount img 0x03) q) = unallocated q := rfl
  rw [takeBound, copies, tensors, unallocated_resizeObject, stats]
/-- A context with an image bound to it: its initial adapters are in force, and its store is empty. -/
def bindCtx (h : Nat) (img : Bytes) (x : Ctx) : Ctx :=
  { x with
    image := some h, stripeLatches := stripeLatchCount img, hist := []
    runs := (x.runs.filter (fun r => r.2.running)).map (fun r => (r.1, { r.2 with hist := r.2.hist.orElse (fun _ => some x.hist) }))
    fr := { x.fr with fresh := true, zeroNext := true, cur := x.fr.cur.map (fun f => { f with hist := f.hist.orElse (fun _ => some x.hist) }) }
    ad := { clearStore 0 (startFrom (initialSet img) x.ad) with
      live := initialSet img, digest := adapterDigestOf (initialSet img), ready := none, due := false, hist := [] } }
/-- The state with an image bound, before its degenerate layers are reported. -/
def bound (slot h : Nat) (x : Ctx) (img : Bytes) (s : State) : State := modCtx slot (bindCtx h img) (takeBound slot h x img (abandonStep slot s))
theorem bindImage_eq (slot h : Nat) (x : Ctx) (img : Bytes) (s : State) : bindImage slot h x img s =
    (degenerates img).foldl (fun s d => postEvent slot kDegenerate 0 (natLe 4 d.1 ++ natLe 4 d.2) s) (bound slot h x img s) := rfl
theorem recordless_bindImage (slot h : Nat) (x : Ctx) (img : Bytes) (s : State) :
    recordless (bindImage slot h x img s) = recordless (bound slot h x img s) :=
  (congrArg recordless (bindImage_eq slot h x img s)).trans (foldl_view (fun _ _ => recordless_postEvent ..) _ _)

section
variable {s : State} {slot seq h : Nat} {x : Ctx} {c : Cmd} {im : Image} {img : Bytes}
/-- What a binding gives and takes of memory leaves the context as the step abandoned left it. -/
theorem ctxOf_bound (h : Nat) (img : Bytes) (hx : ctxOf s slot = some x) :
    ctxOf (bound slot h x img s) slot = some (bindCtx h img { x with ad := { x.ad with running := none } }) := by
  have taken : ctxOf (takeBound slot h x img (abandonStep slot s)) slot = ctxOf (abandonStep slot s) slot :=
    congrArg (tget · slot) (memoryGiven_of_unallocated (unallocated_takeBound slot h x img (abandonStep slot s))).ctxs
  rw [bound, ctxOf_modCtx, if_pos rfl, taken, ctxOf_abandonStep hx]
  rfl
theorem keepsRing_bound (h : Nat) (img : Bytes) (hx : ctxOf s slot = some x) : KeepsRing (.ctx slot) s (bound slot h x img s) := by
  have given := memoryGiven_of_unallocated (unallocated_takeBound slot h x img (abandonStep slot s))
  refine ⟨?_, ?_, fun canonical => ?_⟩
  · rw [ringOf, ctxOf_bound h img hx, ringOf, hx]
    rfl
  · rw [bound, modCtx_fw]
    exact given.fw
  · rw [bound, modCtx_hostMem, given.hostMem]
    exact canonical
theorem bound_tables (slot h : Nat) (x : Ctx) (img : Bytes) (s : State) : (bound slot h x img s).slots = s.slots ∧
    (bound slot h x img s).heads = s.heads ∧ (bound slot h x img s).tasks = (abandonStep slot s).tasks := by
  have given := memoryGiven_of_unallocated (unallocated_takeBound slot h x img (abandonStep slot s))
  rw [bound, modCtx_slots, modCtx_heads, modCtx_tasks]
  exact ⟨given.slots, given.heads, given.tasks⟩
theorem cmdOf_bindImage (h : Nat) (img : Bytes) (hx : ctxOf s slot = some x) :
    cmdOf (bindImage slot h x img s) (.ctx slot) seq = cmdOf s (.ctx slot) seq := by
  rw [bindImage_eq]
  refine (foldl_view (view := fun q => cmdOf q (.ctx slot) seq) ?_ _ _).trans (cmdOf_of_keepsRing (keepsRing_bound h img hx) seq)
  exact fun _ _ => cmdOf_postEvent ..

theorem imageBindGo_refuses {code reason off : Nat} (him : tget (wardOf s x.ward).images (entArg c.entry 0) = some im)
    (bad : bindBad s slot x im.bytes = some (code, reason, off)) :
    ∃ result, imageBindGo slot seq c x s = complete (.ctx slot) seq code reason result s := by
  simp only [imageBindGo, him, bad]
  split
  · exact ⟨_, rfl⟩
  · exact ⟨[], rfl⟩
theorem imageBindGo_binds (him : tget (wardOf s x.ward).images (entArg c.entry 0) = some im) (fits : bindBad s slot x im.bytes = none) :
    imageBindGo slot seq c x s = completeOk (.ctx slot) seq [] (bindImage slot (entArg c.entry 0) x im.bytes s) := by
  simp only [imageBindGo, him, fits]
end

end Sys2Proof.Machine

namespace Sys2Proof.Say
open Sys2Proof.Machine

theorem captures_holds : captures := by
  intro s slot p x t f img hx ht hf him
  have run := (exec_captureTask slot p s).trans (execCaptureTask_next hx ht hf him)
  have steps := (((adapts_dropTasks slot (fun k _ => k == t.1) s).trans (adapts_chargeWork slot _)).trans
    (adapts_modAd slot (stagePatch s.now f.number (capturePatch s slot x f img p)) _)).trans (adapts_settleSets slot _)
  obtain ⟨y, hy, ad, side⟩ := steps.ctx x (ctxOf_of_liveCtx hx)
  exact ⟨_, run, eq_of_workless (by simp), dropTasks_gone s t.1, steps.ctxs, y, hy, (congrArg Ctx.fr side :), ad⟩

/-- A refused binding is answered and nothing else; a binding leaves what `bindCtx` says, and the events of degenerate layers are records. -/
theorem imagesBind_holds : imagesBind := by
  intro s slot seq c x im hc hx h him
  have run := (exec_imageBind slot seq s).trans (ctxCommand_next (imageBindGo slot seq) hc hx)
  refine ⟨fun code reason off bad => ?refused, fun fits => ?bound⟩
  case refused =>
    obtain ⟨result, refused⟩ := imageBindGo_refuses (seq := seq) him bad
    have records := recordless_complete (.ctx slot) seq code reason result s
    refine ⟨_, run.trans (congrArg _ refused), complete_answered_after code reason result hc (.refl _ s), complete_wards ..,
      (congrArg State.tasks records :), ?_⟩
    exact (ctx_map_of_recordless (v := fun y => (y.image, y.ad)) (fun _ => rfl) records slot).trans (congrArg _ hx)
  case bound =>
    have records := (recordless_complete (.ctx slot) seq 0 0 [] (bindImage slot h x im.bytes s)).trans (recordless_bindImage slot h x im.bytes s)
    obtain ⟨slots, heads, tasks⟩ := bound_tables slot h x im.bytes s
    obtain ⟨y, hy, same⟩ := ctx_of_recordless records (ctxOf_bound h im.bytes hx)
    have ad : y.ad = (bindCtx h im.bytes { x with ad := { x.ad with running := none } }).ad := (congrArg Ctx.ad same :)
    refine ⟨_, run.trans (congrArg _ (imageBindGo_binds him fits)), fun whole => ?_, ?_, ?slots, ?heads, fun t ht => abandonStep_tasks (s := s) ?tasks, y, hy,
      (congrArg Ctx.image same :), (congrArg Ctx.hist same :), (congrArg Ctx.ing same :), ?_, ?_⟩
    · rw [bindImage_eq, whole]
      exact complete_answered_after 0 0 [] hc (keepsRing_bound h im.bytes hx)
    · exact cmdOf_complete 0 0 [] ((cmdOf_bindImage h im.bytes hx).trans (readyCmd_some hc).1)
    case slots => exact (tables_of_recordless records).1.trans slots
    case heads => exact (tables_of_recordless records).2.1.trans heads
    case tasks => exact Eq.mp (congrArg (t ∈ ·) ((tables_of_recordless records).2.2.trans tasks)) ht
    · rw [ad]; rfl
    · rw [ad]; rfl

end Sys2Proof.Say
end

section
/-!
PROOFS. Step boundaries (08 R288, R298–R305, R313, R316): parameters, TRAIN_CONTROL, commits, the publish and the next step, each as a
change of the context's adaptation; of the wards, lines that a commit writes are no longer poisoned.
-/
namespace Sys2Proof.Machine

/-! ## Adaptation without its samples -/

/-- Adaptation without its sample store, the staged captures and the cursor. -/
def sampleless (a : Adapt) : Adapt :=
  { a with store := [], captured := 0, committed := 0, staging := [], epoch := 0, pos := 0, size := 0, oldest := 0, begun := false,
           sinceCommit := 0, anyCommit := false }

theorem sampleless_takeParams (old new : Bytes) (a : Adapt) : sampleless (takeParams old new a) = { sampleless a with block := new } := by
  unfold takeParams
  dsimp only
  split
  · rfl
  · split <;> rfl
theorem sampleless_commitAnchor (capacity : Nat) (an : Anchor) (a : Adapt) : sampleless (commitAnchor capacity an a) = sampleless a := by
  unfold commitAnchor
  extract_lets a1
  have taken : sampleless a1 = sampleless a :=
    List.foldlRecOn (motive := fun b => sampleless b = sampleless a) _ _ rfl (fun _ kept _ _ => kept)
  exact taken
theorem sampleless_commits (c : Bytes) (now : Nat) : ∀ (n : Nat) (a : Adapt), sampleless (commits c now n a) = sampleless a
  | 0, _ => rfl
  | n + 1, a => by
    unfold commits
    split
    · rfl
    · split
      · rfl
      · split
        · exact (sampleless_commits c now n _).trans (sampleless_commitAnchor ..)
        · split
          · exact sampleless_commitAnchor ..
          · rfl

theorem sampleless_beginEpoch {c : Bytes} {e : Nat} {a b : Adapt} (h : beginEpoch c e a = some b) : sampleless b = sampleless a := by
  unfold beginEpoch at h
  dsimp only at h
  split at h
  · cases h
  · exact Option.some.inj h ▸ rfl
theorem sampleless_nextPosition {c : Bytes} {a b : Adapt} {q : Nat × Nat × Nat} (h : nextPosition c a = some (q, b)) :
    sampleless b = sampleless a := by
  unfold nextPosition at h
  split at h
  · cases h
  · next d taken =>
    cases h
    refine Eq.trans (b := sampleless d) rfl ?_
    split at taken
    · exact sampleless_beginEpoch taken
    · split at taken
      · exact sampleless_beginEpoch taken
      · exact Option.some.inj taken ▸ rfl
section
variable {s : State} {slot wd : Nat} {img c : Bytes}
theorem sampleless_takeSample {a b : Adapt} {p : Option Patch} {ev : List Bytes} {r : List Nat}
    (h : takeSample s slot wd img c a = some (p, ev, r, b)) : sampleless b = sampleless a := by
  unfold takeSample at h
  split at h
  · cases h
  · next position =>
    have kept := sampleless_nextPosition position
    split at h <;> cases h <;> exact kept
theorem sampleless_takeFirst : ∀ (n : Nat) (q : Assembly), sampleless (takeFirst s slot wd img c n q).ad = sampleless q.ad
  | 0, _ => rfl
  | n + 1, q => by
    unfold takeFirst
    split
    · rfl
    · next taken => exact (sampleless_takeFirst n _).trans (sampleless_takeSample taken)
theorem sampleless_searchSample (place : Nat) : ∀ (n : Nat) (q : Assembly), sampleless (searchSample s slot wd img c place n q).ad = sampleless q.ad
  | 0, _ => rfl
  | n + 1, q => by
    unfold searchSample
    split
    · rfl
    · next taken => exact sampleless_takeSample taken
    · next taken => exact (sampleless_searchSample place n _).trans (sampleless_takeSample taken)
/-- A batch rests on the wards alone. -/
theorem assemble_of_wards {n : State} (h : n.wards = s.wards) (a : Adapt) : assemble n slot wd img c a = assemble s slot wd img c a := by
  have ward : wardOf n wd = wardOf s wd := congrArg (fun l : List Ward => l.getD wd {}) h
  have bad : sampleBad n slot wd img c = sampleBad s slot wd img c := by
    unfold sampleBad slotRange
    rw [ward]
  have sample : takeSample n slot wd img c = takeSample s slot wd img c := by
    unfold takeSample
    rw [bad]
  have first (k : Nat) : ∀ q, takeFirst n slot wd img c k q = takeFirst s slot wd img c k q := by
    induction k with
    | zero => exact fun _ => rfl
    | succ k ih => intro q; simp only [takeFirst, sample, ih]
  have search (place k : Nat) : ∀ q, searchSample n slot wd img c place k q = searchSample s slot wd img c place k q := by
    induction k with
    | zero => exact fun _ => rfl
    | succ k ih => intro q; simp only [searchSample, sample, ih]
  simp only [assemble, first, search]
/-- A batch takes samples and moves the cursor. -/
theorem sampleless_assemble (a : Adapt) : sampleless (assemble s slot wd img c a).ad = sampleless a := by
  have first := sampleless_takeFirst (s := s) (slot := slot) (wd := wd) (img := img) (c := c) (cbBatch c) { ad := a }
  unfold assemble
  dsimp only
  split
  · exact first
  · refine List.foldlRecOn (motive := fun q : Assembly => sampleless q.ad = sampleless a) _ _ first (fun q kept i _ => ?_)
    split
    · exact kept
    · exact (sampleless_searchSample i _ q).trans kept
end

/-! ## What each part of a boundary makes of the adaptation -/

/-- TRAIN_CONTROL commands have taken effect, one after another. -/
def controlled (l : List Cmd) (a : Adapt) : Adapt := l.foldl (fun a c => { a with paused := entArg c.entry 0 % 2 == 1 }) a
/-- Anchors that the gate admits are committed, while adaptation is on. -/
def committed (now : Nat) (a : Adapt) : Adapt := if cbAdapt a.block then commits a.block now (a.staging.length + 1) a else a
/-- A publish that is due is made. -/
def published (now : Nat) (a : Adapt) : Adapt :=
  if a.due then { a with ready := some (a.master, adapterDigestOf a.master, a.step), readyAt := now, due := false, applied := 0 } else a
/-- The adaptation of a context as a boundary leaves it before the next step. -/
def readied (now : Nat) (x : Ctx) : Adapt :=
  published now (committed now (controlled (waitingCmds x 0x34) (takeParams x.ad.block x.cfg { x.ad with running := none })))

theorem controlled_eq (l : List Cmd) : ∀ a : Adapt, ∃ p, controlled l a = { a with paused := p } := by
  induction l with
  | nil => exact fun a => ⟨a.paused, rfl⟩
  | cons c l ih => exact fun a => ih { a with paused := entArg c.entry 0 % 2 == 1 }
theorem sampleless_controlled (l : List Cmd) : ∀ a : Adapt, sampleless (controlled l a) = controlled l (sampleless a) := by
  induction l with
  | nil => exact fun _ => rfl
  | cons c l ih => exact fun a => ih { a with paused := entArg c.entry 0 % 2 == 1 }
theorem sampleless_committed (now : Nat) (a : Adapt) : sampleless (committed now a) = sampleless a := by
  unfold committed
  split
  · exact sampleless_commits ..
  · rfl
theorem sampleless_published (now : Nat) (a : Adapt) : sampleless (published now a) = published now (sampleless a) := by
  unfold published
  have due : (sampleless a).due = a.due := rfl
  rw [due]
  split <;> rfl
theorem sampleless_readied (now : Nat) (x : Ctx) : sampleless (readied now x) =
    published now (controlled (waitingCmds x 0x34) { sampleless x.ad with block := x.cfg, running := none }) := by
  rw [readied, sampleless_published, sampleless_committed, sampleless_controlled, sampleless_takeParams]
  rfl
section
variable (now : Nat) (a : Adapt)
@[simp] theorem published_live : (published now a).live = a.live := by unfold published; split <;> rfl
@[simp] theorem published_master : (published now a).master = a.master := by unfold published; split <;> rfl
@[simp] theorem published_step : (published now a).step = a.step := by unfold published; split <;> rfl
@[simp] theorem published_block : (published now a).block = a.block := by unfold published; split <;> rfl
@[simp] theorem published_running : (published now a).running = a.running := by unfold published; split <;> rfl
@[simp] theorem published_paused : (published now a).paused = a.paused := by unfold published; split <;> rfl
@[simp] theorem published_staging : (published now a).staging = a.staging := by unfold published; split <;> rfl
@[simp] theorem published_due : (published now a).due = false := by
  unfold published
  split
  · rfl
  · next undue => exact eq_false_of_ne_true undue
theorem published_ready : (published now a).ready = if a.due then some (a.master, adapterDigestOf a.master, a.step) else a.ready := by
  unfold published
  split <;> rfl
end
theorem readied_block (now : Nat) (x : Ctx) : (readied now x).block = x.cfg := by
  obtain ⟨p, paused⟩ := controlled_eq (waitingCmds x 0x34) { sampleless x.ad with block := x.cfg, running := none }
  refine (congrArg Adapt.block (sampleless_readied now x) :).trans ?_
  rw [paused, published_block]
theorem readied_running (now : Nat) (x : Ctx) : (readied now x).running = none := by
  obtain ⟨p, paused⟩ := controlled_eq (waitingCmds x 0x34) { sampleless x.ad with block := x.cfg, running := none }
  refine (congrArg Adapt.running (sampleless_readied now x) :).trans ?_
  rw [paused, published_running]
/-- With adaptation off nothing is staged. -/
theorem readied_staging_off {x : Ctx} (now : Nat) (off : cbAdapt x.cfg = false) : (readied now x).staging = [] := by
  obtain ⟨p, paused⟩ := controlled_eq (waitingCmds x 0x34) (takeParams x.ad.block x.cfg { x.ad with running := none })
  have staging : (takeParams x.ad.block x.cfg { x.ad with running := none }).staging = [] := if_neg (by simp [off])
  have uncommitted (a : Adapt) (block : a.block = x.cfg) : committed now a = a := if_neg (by simp [block, off])
  rw [readied, paused, uncommitted _ rfl, published_staging]
  exact staging
/-- A boundary at which nothing changes, waits, is staged or is due. -/
structure Idle (x : Ctx) : Prop where
  block : x.ad.block = x.cfg
  running : x.ad.running = none
  staging : x.ad.staging = []
  uncontrolled : waitingCmds x 0x34 = []
  due : x.ad.due = false
theorem Idle.entered {x : Ctx} (idle : Idle x) :
    controlled (waitingCmds x 0x34) (takeParams x.ad.block x.cfg { x.ad with running := none }) = x.ad := by
  obtain ⟨block, running, staging, uncontrolled, -⟩ := idle
  have same : ({ x.ad with running := none } : Adapt) = x.ad := by rw [← running]
  have still : (if cbAdapt x.ad.block = true then x.ad.staging else []) = x.ad.staging := by simp [staging]
  rw [uncontrolled, same, ← block]
  simp only [controlled, List.foldl_nil, takeParams, bne_self_eq_false, Bool.and_false, Bool.false_eq_true, if_false, Bool.or_false, still]
theorem Idle.committed {x : Ctx} (idle : Idle x) (now : Nat) : committed now x.ad = x.ad := by
  unfold Machine.committed
  split
  · unfold commits
    rw [idle.staging]
  · rfl
theorem Idle.readied {x : Ctx} (idle : Idle x) (now : Nat) : readied now x = x.ad := by
  rw [Machine.readied, idle.entered, idle.committed, published, idle.due]
  rfl

/-! ## The parts of a boundary -/

theorem Adapts.congr {slot : Nat} {f g : Adapt → Adapt} {s n : State} {x : Ctx} (h : Adapts slot f s n) (hx : ctxOf s slot = some x)
    (same : f x.ad = g x.ad) : Adapts slot g s n := by
  refine { h with ctx := fun z hz => ?_ }
  obtain rfl := Option.some.inj (hx.symm.trans hz)
  exact same ▸ h.ctx x hx
theorem takeControl_adapts (slot : Nat) (l : List Cmd) : ∀ s : State, Adapts slot (controlled l) s (l.foldl (fun (s : State) (c : Cmd) =>
    completeOk (.ctx slot) c.seq [] (modAd slot (fun a => { a with paused := entArg c.entry 0 % 2 == 1 }) s)) s) := by
  induction l with
  | nil => exact .refl slot
  | cons c l ih => exact fun s => ((adapts_modAd slot _ s).trans (adapts_complete slot c.seq 0 0 [] _)).trans (ih _)
theorem publish_adapts {slot : Nat} {s : State} {x : Ctx} (hx : ctxOf s slot = some x) : Adapts slot (published s.now) s (publish slot x s) := by
  unfold publish
  split
  · next due =>
    refine Adapts.congr ((adapts_modAd slot _ s).trans (.foldl (fun s (c : Cmd) => adapts_complete slot c.seq 0 0 _ s) _ _)) hx ?_
    exact (if_pos due).symm
  · next due => exact Adapts.congr (.refl slot s) hx (if_neg due).symm

/-- A ward with those of its poisoned lines that pass a test. -/
def keepLines (p : Nat → Bool) (w : Ward) : Ward := { w with poisoned := w.poisoned.filter p }
theorem modWard_keepLines_all (wd : Nat) (s : State) : modWard wd (keepLines (fun _ => true)) s = s := by
  have same : keepLines (fun _ => true) = id := funext fun w => by simp [keepLines]
  rw [same]
  exact congrArg (fun l => ({ s with wards := l } : State)) (List.modify_id wd s.wards)
/-- Renewed slots hold no poisoned line; where no slot is filled every line stands. -/
theorem renewSlots_eq {slot : Nat} {s : State} {x y : Ctx} (hy : ctxOf s slot = some y) : ∃ p, renewSlots slot x s = modWard x.ward (keepLines p) s ∧
    (y.ad.captured = x.ad.captured → p = fun _ => true) := by
  unfold renewSlots
  rw [hy]
  split
  · next z _ same =>
    cases same
    refine ⟨_, rfl, fun unfilled => ?_⟩
    simp [unfilled]
  · exact ⟨_, (modWard_keepLines_all x.ward s).symm, fun _ => rfl⟩

/-- Go on with the context of a slot. -/
def withCtx (slot : Nat) (g : Ctx → State → State) (s : State) : State := match ctxOf s slot with | some x => g x s | none => s
theorem withCtx_some {slot : Nat} {s : State} {x : Ctx} (g : Ctx → State → State) (hx : ctxOf s slot = some x) : withCtx slot g s = g x s := by
  rw [withCtx, hx]
/-- The commits of a boundary. -/
def commitStaged (slot : Nat) (x : Ctx) (s : State) : State :=
  if cbAdapt x.ad.block then settleSets slot (renewSlots slot x (modAd slot (fun a => commits a.block s.now (a.staging.length + 1) a) s)) else s
theorem commitStaged_adapts {slot : Nat} {s : State} {x : Ctx} (hx : ctxOf s slot = some x) : ∃ m p, Adapts slot (committed s.now) s m ∧
    Adapts slot id (modWard x.ward (keepLines p) m) (commitStaged slot x s) ∧
    ((committed s.now x.ad).captured = x.ad.captured → p = fun _ => true) := by
  unfold commitStaged committed
  split
  · next on =>
    have commit := adapts_modAd slot (fun a => commits a.block s.now (a.staging.length + 1) a) s
    obtain ⟨p, renewed, unfilled⟩ := renewSlots_eq (x := x) (ctxOf_modAd (fun a => commits a.block s.now (a.staging.length + 1) a) hx)
    refine ⟨_, p, commit.congr hx (if_pos on).symm, ?_, unfilled⟩
    rw [renewed]
    exact adapts_settleSets slot _
  · next off =>
    refine ⟨s, fun _ => true, Adapts.congr (.refl slot s) hx (if_neg off).symm, ?_, fun _ => rfl⟩
    rw [modWard_keepLines_all]
    exact .refl slot s

/-- A ward without its poisoned lines. -/
def unpoisoned (w : Ward) : Ward := { w with poisoned := [] }
theorem unpoisoned_keepLines (wd : Nat) (p : Nat → Bool) (s : State) (w : Nat) :
    unpoisoned (wardOf (modWard wd (keepLines p) s) w) = unpoisoned (wardOf s w) := by
  rw [wardOf_modWard]
  split
  · next same => rw [same.1]; rfl
  · rfl

/-- What a boundary makes of the state before the next step: the context's adaptation is readied. -/
structure Readied (slot : Nat) (x : Ctx) (s n : State) : Prop where
  nextTask : n.nextTask = s.nextTask
  slots : n.slots = s.slots
  heads : n.heads = s.heads
  ctxs : ∀ i, i ≠ slot → ctxOf n i = ctxOf s i
  wards : ∀ w, unpoisoned (wardOf n w) = unpoisoned (wardOf s w)
  calm : Idle x → n.wards = s.wards
  answered : ∀ c, waitingCmds x 0x34 = [c] → cmdOf n (.ctx slot) c.seq = none
  ctx : ∃ y, ctxOf n slot = some y ∧ y.ad = readied s.now x ∧ adaptless y = adaptless x

theorem atBoundary_eq (slot : Nat) (s : State) : atBoundary slot s = withCtx slot (startStep slot) (withCtx slot (publish slot)
    (withCtx slot (commitStaged slot) (withCtx slot (takeControl slot)
      (withCtx slot (fun x s => modAd slot (takeParams x.ad.block x.cfg) s) (abandonStep slot s))))) := rfl
theorem atBoundary_readied {slot : Nat} {s : State} {x : Ctx} (hx : ctxOf s slot = some x) :
    ∃ n, Readied slot x s n ∧ atBoundary slot s = withCtx slot (startStep slot) n := by
  have entered := (adapts_abandonStep slot s).trans (adapts_modAd slot (takeParams x.ad.block x.cfg) _)
  have hx1 := ctxOf_modAd (takeParams x.ad.block x.cfg) (ctxOf_abandonStep hx)
  have control := takeControl_adapts slot (waitingCmds x 0x34) (modAd slot (takeParams x.ad.block x.cfg) (abandonStep slot s))
  have steps := entered.trans control
  obtain ⟨x2, hx2, ad2, side2⟩ := steps.ctx x hx
  obtain ⟨m, p, commits, settled, unfilled⟩ := commitStaged_adapts hx2
  have before := steps.trans commits
  obtain ⟨x3, hx3, ad3, side3⟩ := before.ctx x hx
  obtain ⟨x4, hx4, ad4, side4⟩ := settled.ctx x3 hx3
  have publishes := publish_adapts hx4
  have after := settled.trans publishes
  obtain ⟨y, hy, ad, side⟩ := publishes.ctx x4 hx4
  have ward : x2.ward = x.ward := (congrArg Ctx.ward side2 :)
  have now4 := settled.now.trans before.now
  refine ⟨_, ⟨after.nextTask.trans before.nextTask, after.slots.trans before.slots, after.heads.trans before.heads,
    fun i hi => (after.ctxs i hi).trans (before.ctxs i hi), fun w => ?wards, fun idle => ?calm, fun c waits => ?answered, y, hy, ?ad,
    side.trans (side4.trans side3)⟩, ?runs⟩
  case wards =>
    have kept : wardOf (publish slot x4 _) w = wardOf _ w := congrArg (fun l : List Ward => l.getD w {}) after.wards
    rw [kept, unpoisoned_keepLines]
    exact congrArg (fun l : List Ward => unpoisoned (l.getD w {})) before.wards
  case calm =>
    have ad : x2.ad = x.ad := ad2.trans idle.entered
    rw [unfilled (by rw [ad, idle.committed]), modWard_keepLines_all] at after
    exact after.wards.trans before.wards
  case answered =>
    refine after.gone c.seq (commits.gone c.seq ?_)
    rw [waits, List.foldl_cons, List.foldl_nil, completeOk, cmdOf_completed, if_pos rfl]
  case ad =>
    rw [ad, ad4, ad3, now4, control.now.trans entered.now]
    rfl
  case runs =>
    rw [atBoundary_eq, withCtx_some _ (ctxOf_abandonStep hx), withCtx_some _ hx1]
    refine congrArg (withCtx slot (startStep slot)) ?_
    refine (congrArg (withCtx slot (publish slot)) (withCtx_some _ hx2)).trans (withCtx_some _ hx4)

/-! ## The next step -/

/-- The samples that a batch dropped are reported. -/
def reportDrops (slot : Nat) (q : Assembly) (s : State) : State :=
  (List.range q.events.length).foldl (fun s i => postEvent slot kSampleDrop (q.reasons.getD i 0) (q.events.getD i []) s) s
/-- The adaptation of a context in a step over a batch. -/
def stepping (block : Bytes) (q : Assembly) : Adapt := { q.ad with running := some { block := block, batch := q.got, short := q.short } }
/-- The tasks of a step over a batch. -/
def stepTasks (q : Assembly) : Nat := if q.short then 0 else (q.got.filterMap id).length
/-- The state with a step over a batch begun. -/
def beginStep (slot : Nat) (x : Ctx) (net : Net) (q : Assembly) (s : State) : State :=
  dealTraining slot x net x.ad.step (stepTasks q) (modAd slot (fun _ => stepping x.ad.block q) (reportDrops slot q s))

section
variable {slot : Nat} {x : Ctx} {s : State}
theorem startStep_cases (slot : Nat) (x : Ctx) (s : State) : startStep slot x s = s ∨ cbAdapt x.ad.block = true ∧
    ∃ img net, startStep slot x s = beginStep slot x net (assemble s slot x.ward img x.ad.block x.ad) s := by
  unfold startStep
  dsimp only
  split
  · exact .inl rfl
  · split
    · exact .inl rfl
    · split
      · next may =>
        simp only [Bool.and_eq_true] at may
        exact .inr ⟨may.1.1.1, _, _, rfl⟩
      · exact .inl rfl
theorem startStep_begins {img : Bytes} {k : Nat} {net : Net} (him : boundImage s x = some img) (hnet : trainNet img x.ad.block = some (k, net))
    (on : cbAdapt x.ad.block = true) (free : cbLockstep x.ad.block = false) (unpaused : x.ad.paused = false)
    (batch : cbBatch x.ad.block ≤ validSlots x.ad) :
    startStep slot x s = beginStep slot x net (assemble s slot x.ward img x.ad.block x.ad) s := by
  unfold startStep
  simp only [him, hnet, on, free, unpaused, batch, Bool.not_false, decide_true, Bool.and_self, Bool.true_or, if_true]
  rfl

theorem dealt_nextTask {t : State → Nat → Task} (l : List Nat) :
    ∀ s : State, (l.foldl (fun s i => dealTask (t s i) s) s).nextTask = s.nextTask + l.length := by
  induction l with
  | nil => exact fun _ => rfl
  | cons i l ih =>
    intro s
    have first : (dealTask (t s i) s).nextTask = s.nextTask + 1 := rfl
    rw [List.foldl_cons, ih, first, List.length_cons]
    omega
theorem taskless_dealTraining (slot : Nat) (x : Ctx) (net : Net) (step n : Nat) (s : State) :
    taskless (dealTraining slot x net step n s) = taskless s := by
  refine foldl_view (view := taskless) ?_ _ s
  exact fun _ _ => rfl
/-- A step begins: its batch is taken, drops are reported, and its tasks are dealt. -/
theorem beginStep_adapts (slot : Nat) (x : Ctx) (net : Net) (q : Assembly) (s : State) : ∃ m, Adapts slot (fun _ => stepping x.ad.block q) s m ∧
    taskless (beginStep slot x net q s) = taskless m ∧ (beginStep slot x net q s).nextTask = s.nextTask + 4 * stepTasks q := by
  have reported : Adapts slot id s (reportDrops slot q s) := .foldl (fun s i => adapts_postEvent slot _ _ _ s) _ s
  have taken := reported.trans (adapts_modAd slot (fun _ => stepping x.ad.block q) _)
  refine ⟨_, taken, taskless_dealTraining .., (dealt_nextTask (List.range (4 * stepTasks q)) _).trans ?_⟩
  rw [taken.nextTask, List.length_range]
/-- What a step's start leaves of the device, and of the adaptation besides its samples. -/
structure Started (slot : Nat) (x : Ctx) (s n : State) : Prop where
  slots : n.slots = s.slots
  heads : n.heads = s.heads
  wards : n.wards = s.wards
  ctxs : ∀ i, i ≠ slot → ctxOf n i = ctxOf s i
  gone : ∀ seq, cmdOf s (.ctx slot) seq = none → cmdOf n (.ctx slot) seq = none
  ctx : ∃ y, ctxOf n slot = some y ∧ adaptless y = adaptless x ∧ sampleless { y.ad with running := none } = sampleless { x.ad with running := none }
  off : cbAdapt x.ad.block = false → n = s
theorem startStep_started (hx : ctxOf s slot = some x) : Started slot x s (startStep slot x s) := by
  rcases startStep_cases slot x s with idle | ⟨on, img, net, begins⟩
  · rw [idle]
    exact ⟨rfl, rfl, rfl, fun _ _ => rfl, fun _ => id, ⟨x, hx, rfl, rfl⟩, fun _ => rfl⟩
  · obtain ⟨m, taken, dealt, -⟩ := beginStep_adapts slot x net (assemble s slot x.ward img x.ad.block x.ad) s
    obtain ⟨y, hy, ad, side⟩ := taken.ctx x hx
    have ctxs : (beginStep slot x net (assemble s slot x.ward img x.ad.block x.ad) s).ctxs = m.ctxs := (congrArg State.ctxs dealt :)
    rw [begins]
    refine ⟨(congrArg State.slots dealt :).trans taken.slots, (congrArg State.heads dealt :).trans taken.heads,
      (congrArg State.wards dealt :).trans taken.wards, fun i hi => (congrArg (tget · i) ctxs).trans (taken.ctxs i hi), fun seq gone => ?_,
      ⟨y, (congrArg (tget · slot) ctxs).trans hy, side, ?_⟩, fun off => absurd on (by simp [off])⟩
    · exact (congrArg (fun t => ((tget t slot).map Ctx.ring).bind (fun g => g.cmds.find? (fun (c : Cmd) => c.seq == seq))) ctxs).trans (taken.gone seq gone)
    · rw [ad]
      exact congrArg (fun a : Adapt => { a with running := none }) (sampleless_assemble x.ad)
end

/-! ## STEP_BOUNDARY -/

theorem exec_stepBoundary (slot : Nat) (s : State) : exec (.stepBoundary slot) s = execStepBoundary slot s := rfl
theorem execStepBoundary_next {slot : Nat} {s : State} {x : Ctx} (hx : liveCtx s slot = some x)
    (may : x.ad.running = none ∨ cbAdapt x.cfg = false) : execStepBoundary slot s = .next (atBoundary slot s) := by
  rcases may with idle | off
  · simp [execStepBoundary, need, guardThat, hx, idle]
  · simp [execStepBoundary, need, guardThat, hx, off]

end Sys2Proof.Machine

namespace Sys2Proof.Say
open Sys2Proof.Machine

/-- A boundary readies the adaptation (`atBoundary_readied`) and starts a step or none (`startStep_started`): what neither does to weights,
publish and pause is read off the adaptation without its samples (`sampleless_readied`). -/
theorem boundaries_holds : boundaries := by
  intro s slot x live may
  have hx := ctxOf_of_liveCtx live
  obtain ⟨m, ready, runs⟩ := atBoundary_readied hx
  obtain ⟨z, hz, adz, sidez⟩ := ready.ctx
  rw [withCtx_some _ hz] at runs
  have started := startStep_started hz
  obtain ⟨y, hy, side, learnt⟩ := started.ctx
  have shown : sampleless { y.ad with running := none } =
      { published s.now (controlled (waitingCmds x 0x34) { sampleless x.ad with block := x.cfg, running := none }) with running := none } := by
    rw [learnt, adz]
    exact congrArg (fun a : Adapt => { a with running := none }) (sampleless_readied s.now x)
  obtain ⟨p, paused⟩ := controlled_eq (waitingCmds x 0x34) { sampleless x.ad with block := x.cfg, running := none }
  refine ⟨_, (exec_stepBoundary slot s).trans ((execStepBoundary_next live may).trans (congrArg _ runs)), started.slots.trans ready.slots,
    started.heads.trans ready.heads, fun w => ?wards, fun i hi => (started.ctxs i hi).trans (ready.ctxs i hi), y, hy, ?block,
    (congrArg Ctx.fr (side.trans sidez) :), ?learned, fun off => ?off, fun due => ?due, fun undue => ?undue, fun c waits => ⟨?paused, ?answered⟩,
    fun none_waits => ?unpaused, fun img k net him hnet on free block running staging unpaused none_waits undue batch => ?steps⟩
  case wards =>
    exact (congrArg (fun l : List Ward => unpoisoned (l.getD w {})) started.wards).trans (ready.wards w)
  case block =>
    rw [paused] at shown
    simpa [sampleless] using congrArg Adapt.block shown
  case learned =>
    rw [paused] at shown
    simpa [sampleless] using congrArg (fun a : Adapt => (a.live, a.master, a.step)) shown
  case off =>
    rw [started.off (by rw [adz, readied_block, off]), hz] at hy
    cases hy
    exact adz ▸ ⟨readied_running s.now x, readied_staging_off s.now off⟩
  case due =>
    rw [paused] at shown
    simpa [sampleless, published_ready, due] using congrArg (fun a : Adapt => (a.due, a.ready)) shown
  case undue =>
    rw [paused] at shown
    simpa [sampleless, published_ready, undue] using congrArg (fun a : Adapt => (a.due, a.ready)) shown
  case paused =>
    rw [waits] at shown
    simpa [sampleless, controlled] using congrArg Adapt.paused shown
  case answered => exact started.gone c.seq (ready.answered c waits)
  case unpaused =>
    rw [none_waits] at shown
    simpa [sampleless, controlled] using congrArg Adapt.paused shown
  case steps =>
    intro q
    have idle : Idle x := ⟨block, running, staging, none_waits, undue⟩
    have ward : z.ward = x.ward := (congrArg Ctx.ward sidez :)
    have image : z.image = x.image := (congrArg Ctx.image sidez :)
    have ad : z.ad = x.ad := adz.trans (idle.readied s.now)
    have bound : boundImage m z = some img := by
      simpa only [boundImage, image, ward, wardOf, ready.calm idle] using him
    have begins := startStep_begins (slot := slot) (s := m) (x := z) bound (by rw [ad, block, hnet]) (by rw [ad, block, on]) (by rw [ad, block, free])
      (ad ▸ unpaused) (by rw [ad, block]; exact batch)
    rw [ward, ad, block, assemble_of_wards (ready.calm idle)] at begins
    obtain ⟨b, taken, dealt, tasks⟩ := beginStep_adapts slot z net q m
    obtain ⟨y', hy', ad', -⟩ := taken.ctx z hz
    have same : ctxOf (beginStep slot z net q m) slot = ctxOf b slot := (congrArg (fun n : State => tget n.ctxs slot) dealt :)
    rw [begins, same, hy'] at hy
    cases hy
    rw [begins]
    refine ⟨?_, tasks.trans (congrArg (· + 4 * stepTasks q) ready.nextTask |>.trans ?_)⟩
    · rw [ad', ad, block]
      rfl
    · rw [stepTasks]
      split <;> rfl

end Sys2Proof.Say
end

section
/-!
PROOFS. The end of a training step and the commands of adaptation (08 R311, R312, R316–R318; 13 R454; 11 Table 11-8).
-/
namespace Sys2Proof.Machine
open Sys2Proof.Say (Answered Result)

/-! ## Statistics (14 R477) -/

theorem allocless_modStats (slot : Nat) (g : Bytes → Bytes) (s : State) : allocless (modStats slot g s) = allocless s := by
  unfold modStats
  split
  · rfl
  · refine allocless_modWard ?_ _ s
    exact fun _ => rfl
theorem allocless_addLayerStat (slot i f n : Nat) (s : State) : allocless (addLayerStat slot i f n s) = allocless s := by
  unfold addLayerStat
  split
  · rfl
  · exact allocless_modStats ..
theorem allocless_countLayer (slot idx : Nat) (deg : Bool) (r : EncRes) (s : State) : allocless (countLayer slot idx deg r s) = allocless s := by
  simp only [countLayer, allocless_addLayerStat, allocless_addStat]
theorem allocless_countForward (slot : Nat) (img : Bytes) (fs : List Fwd) (s : State) : allocless (countForward slot img fs s) = allocless s := by
  unfold countForward
  refine foldl_view (view := allocless) (fun s f => ?_) fs s
  exact foldl_view (view := allocless) (fun s e => allocless_countLayer ..) f.encs s

/-! ## TRAINING_STEP_COMPLETE -/

/-- Where only statistics are counted, contexts, tasks and all else but the wards stand. -/
theorem rest_of_allocless {s n : State} (h : allocless n = allocless s) : n.ctxs = s.ctxs ∧ n.tasks = s.tasks ∧ n = { s with wards := n.wards } :=
  ⟨(congrArg State.ctxs h :), (congrArg State.tasks h :), (congrArg (fun q : State => { q with wards := n.wards }) h :)⟩

theorem exec_trainingStepComplete (slot : Nat) (s : State) : exec (.trainingStepComplete slot) s = execTrainingStepComplete slot s := rfl
/-- Work that read no uncorrectable line ends as it would. -/
theorem unlessSpoiled_sound {slot : Nat} {s : State} {x : Ctx} (core : Nat) (go : State → State) (hx : liveCtx s slot = some x)
    (sound : (wardOf s x.ward).poisoned = []) : unlessSpoiled slot core s go = go s := by
  simp only [unlessSpoiled, hx, Option.bind_some, sound, List.find?_nil]
/-- The tasks of a context's training step. -/
def trainTasks (slot : Nat) (s : State) : List (Nat × Task) :=
  s.tasks.filter (fun t => t.2.slot == slot && (match t.2.kind with | .train _ => true | _ => false))
/-- How a step ends, and its forward pass. -/
def stepResult (slot : Nat) (st : Step) (img : Bytes) (net : Net) (x : Ctx) (s : State) : StepEnd × List Fwd :=
  runStep st.block img ((((wardOf s x.ward).allocs.find? (fun q => q.kind == .copies slot)).map (·.content)).getD []) net x.ad.hist
    (fun k => (((trainTasks slot s).find? (fun t => t.2.index == k)).map (·.2.customs)).getD []) x.ad.step
    (if st.short then [] else st.batch.filterMap id) (learnedOf x.ad)
/-- The adaptation after a step: its number advances, and an applied one changes what is learned. -/
def steppedAd (st : Step) (img : Bytes) (x : Ctx) (r : StepEnd × List Fwd) : Adapt :=
  let a := x.ad
  let after := { a with running := none, step := (a.step + 1) % 2 ^ 32, sinceCommit := a.sinceCommit + 1 }
  match r.1 with
  | .applied l =>
    { after with
      master := l.master, mCodes := l.m.codes, mScales := l.m.scales, vCodes := l.v.codes, vScales := l.v.scales
      p1 := l.p1, p2 := l.p2, t := a.t + 1, applied := a.applied + 1, hist := pushForward img r.2 a.hist
      due := a.due || (decide (cbPublish st.block ≤ a.applied + 1) && !cbReplay x.cfgInForce) }
  | _ => after
theorem endStep_eq (slot : Nat) (st : Step) (img : Bytes) (net : Net) (x : Ctx) (s : State) : allocless (endStep slot st img net x s) =
    allocless (modAd slot (fun _ => steppedAd st img x (stepResult slot st img net x s)) (chargeWork slot (abandonStep slot s))) := by
  have counted (a : Adapt) : allocless (modAd slot (fun _ => a) (countForward slot img (stepResult slot st img net x s).2
      (chargeWork slot (abandonStep slot s)))) = allocless (modAd slot (fun _ => a) (chargeWork slot (abandonStep slot s))) :=
    congrArg (modAd slot (fun _ => a)) (allocless_countForward ..)
  unfold endStep
  extract_lets a ps mine customs copies r s1 after
  have same : stepResult slot st img net x s = r := rfl
  rw [same] at counted ⊢
  split
  · next ended => simp only [steppedAd, ended]; exact (allocless_addStat ..).trans (counted _)
  · next ended => simp only [steppedAd, ended]; exact (allocless_addStat ..).trans (counted _)
  · next l ended => simp only [steppedAd, ended]; exact (allocless_addStat ..).trans (counted _)
/-- A step's tasks are dropped, its work charged and its effect noted, and then its conversions counted. -/
theorem rest_of_step {s m n : State} (counted : n = { m with wards := n.wards })
    (charged : m = { s with free := m.free, ctxs := m.ctxs, cores := m.cores, tasks := m.tasks }) :
    n = { s with free := n.free, wards := n.wards, ctxs := n.ctxs, cores := n.cores, tasks := n.tasks } :=
  (congrArg (fun q : State => { q with free := n.free, wards := n.wards, ctxs := n.ctxs, cores := n.cores, tasks := n.tasks }) counted :).trans
    (congrArg (fun q : State => { q with free := n.free, wards := n.wards, ctxs := n.ctxs, cores := n.cores, tasks := n.tasks }) charged :)
theorem execTrainingStepComplete_next {slot k : Nat} {s : State} {x : Ctx} {st : Step} {img : Bytes} {net : Net} (hx : liveCtx s slot = some x)
    (runs : x.ad.running = some st) (on : cbAdapt x.cfg = true) (him : boundImage s x = some img) (hnet : trainNet img st.block = some (k, net))
    (sound : (wardOf s x.ward).poisoned = [])
    (ended : ∀ t ∈ s.tasks, t.2.slot = slot → (∃ j, t.2.kind = .train j) → t.2.started = true ∧ allEnded s t.1 t.2 = true) :
    execTrainingStepComplete slot s = .next (endStep slot st img net x s) := by
  have all_ended : s.tasks.all (fun t => t.2.slot != slot ||
      (match t.2.kind with | .train _ => t.2.started && allEnded s t.1 t.2 | _ => true)) = true := by
    refine List.all_eq_true.mpr fun t ht => ?_
    by_cases own : t.2.slot = slot
    · split
      · next j kind => simp [ended t ht own ⟨j, kind⟩]
      · simp
    · simp [own]
  simp only [execTrainingStepComplete, need, guardThat, hx, runs, on, him, hnet, if_true]
  refine (if_pos all_ended).trans (congrArg _ ?_)
  exact unlessSpoiled_sound _ _ hx sound

/-! ## Commands -/

theorem exec_adaptPublish (slot seq : Nat) (s : State) : exec (.adaptPublish slot seq) s = execAdaptPublish slot seq s := rfl
theorem exec_adapterLoad (slot seq : Nat) (s : State) : exec (.adapterLoad slot seq) s = execAdapterLoad slot seq s := rfl
theorem exec_adapterExport (slot seq : Nat) (s : State) : exec (.adapterExport slot seq) s = execAdapterExport slot seq s := rfl
theorem exec_storeClear (slot seq : Nat) (s : State) : exec (.storeClear slot seq) s = execStoreClear slot seq s := rfl
theorem exec_trainControl (slot seq : Nat) (s : State) : exec (.trainControl slot seq) s = execTrainControl slot seq s := rfl

theorem keepsRing_of_sameRings {s n : State} (h : SameRings s n) (slot : Nat) : KeepsRing (.ctx slot) s n :=
  ⟨h.rings slot, h.fw, fun canonical => h.hostMem ▸ canonical⟩
theorem sameRings_modAd (slot : Nat) (f : Adapt → Adapt) (s : State) : SameRings s (modAd slot f s) :=
  sameRings_modCtx (g := fun x => { x with ad := f x.ad }) (fun _ => rfl) slot s
theorem sameRings_chargeHost (slot rx tx : Nat) (s : State) : SameRings s (chargeHost slot rx tx s) := by
  refine sameRings_modCtx ?_ slot s
  exact fun _ => rfl
theorem adapts_chargeHost (slot rx tx : Nat) (s : State) : Adapts slot id s (chargeHost slot rx tx s) := adapts_modAcct slot _ s

section
variable {s m : State} {slot seq op : Nat} {c : Cmd} {x : Ctx} {f : Adapt → Adapt}
theorem boundaryCommand_next (go : Cmd → Ctx → State → State) (hc : readyCmd (.ctx slot) seq op s = some c) (hx : ctxOf s slot = some x)
    (fresh : c.started = false) : boundaryCommand slot seq op s go = .next (go c x s) := by
  simp [boundaryCommand, need, guardThat, hc, hx, fresh]
theorem Adapts.ad (h : Adapts slot f s m) (hx : ctxOf s slot = some x) : (ctxOf m slot).map (·.ad) = some (f x.ad) := by
  obtain ⟨y, hy, ad, -⟩ := h.ctx x hx
  rw [hy, Option.map_some, ad]
/-- A command that goes on at the next boundary leaves the device but for its context's adaptation, and is started. -/
theorem awaitBoundary_waits (h : Adapts slot f s m) (rings : SameRings s m) (hx : ctxOf s slot = some x) (hc : cmdOf s (.ctx slot) seq = some c) :
    let n := awaitBoundary (.ctx slot) seq m
    (n.slots = s.slots ∧ n.wards = s.wards ∧ n.hostMem = s.hostMem ∧ (∀ i, i ≠ slot → ctxOf n i = ctxOf s i) ∧
      cmdOf n (.ctx slot) seq = some { c with started := true }) ∧ (ctxOf n slot).map (·.ad) = some (f x.ad) := by
  have marked : KeepsFrame slot m (awaitBoundary (.ctx slot) seq m) := by
    unfold awaitBoundary modCmd
    exact modRing_keepsFrame slot _ m
  obtain ⟨y, hy, ad, -⟩ := h.ctx x hx
  obtain ⟨z, hz, side⟩ := marked.ctx_some hy
  refine ⟨⟨marked.slots.trans h.slots, marked.wards.trans h.wards, rings.hostMem, fun i hi => (marked.ctxs i hi).trans (h.ctxs i hi), ?_⟩, ?_⟩
  · refine (cmdOf_modCmd (f := fun c => { c with started := true }) (fun _ => rfl) m).trans ?_
    rw [cmdOf_of_keepsRing (keepsRing_of_sameRings rings slot), hc]
    rfl
  · have same : z.ad = y.ad := (congrArg Ctx.ad side :)
    rw [hz, Option.map_some, same, ad]

theorem adaptPublishGo_unbound (unbound : x.image = none) :
    adaptPublishGo slot seq x s = complete (.ctx slot) seq kBadState 0x01 [] s := by
  rw [adaptPublishGo, unbound]
  rfl
theorem adaptPublishGo_replay (bound : x.image ≠ none) (replay : cbReplay x.cfgInForce = true) :
    adaptPublishGo slot seq x s = completeOk (.ctx slot) seq x.ad.digest s := by
  simp [adaptPublishGo, bound, replay]
theorem adaptPublishGo_waits (bound : x.image ≠ none) (live : cbReplay x.cfgInForce = false) :
    adaptPublishGo slot seq x s = awaitBoundary (.ctx slot) seq (modAd slot (fun a => { a with due := true }) s) := by
  simp [adaptPublishGo, bound, live]

/-- The elements of a set of adapters that a command names. -/
def loadedSet (k : Nat) (c : Cmd) (s : State) : List Nat := (List.range k).map (fun i => fld (hostRead s (entAddr0 c.entry) (2 * k)) (2 * i) 2)
/-- The state with a set of adapters loaded in place of the one learned. -/
def loadSet (slot k : Nat) (c : Cmd) (s : State) : State :=
  modAd slot (fun a => { startFrom (loadedSet k c s) a with due := true }) (abandonStep slot (chargeHost slot (2 * k) 0 s))
theorem adapterLoadGo_refuses {img : Bytes} (him : boundImage s x = some img)
    (bad : totalElements img = 0 ∨ entArg c.entry 0 ≠ 2 * totalElements img) :
    adapterLoadGo slot seq c x s = complete (.ctx slot) seq kBadEntry 0x06 [] s := by
  simp only [adapterLoadGo, him]
  exact if_pos bad
theorem adapterLoadGo_loads {img : Bytes} (him : boundImage s x = some img) (some_elements : totalElements img ≠ 0)
    (len : entArg c.entry 0 = 2 * totalElements img) :
    adapterLoadGo slot seq c x s = awaitBoundary (.ctx slot) seq (loadSet slot (totalElements img) c s) := by
  simp only [adapterLoadGo, him]
  refine (if_neg ?_).trans rfl
  simp [some_elements, len]
theorem loadSet_adapts (slot k : Nat) (c : Cmd) (s : State) :
    Adapts slot (fun a => { startFrom (loadedSet k c s) { a with running := none } with due := true }) s (loadSet slot k c s) :=
  ((adapts_chargeHost slot (2 * k) 0 s).trans (adapts_abandonStep slot _)).trans
    (adapts_modAd slot (fun a => { startFrom (loadedSet k c s) a with due := true }) _)
theorem sameRings_abandonStep (slot : Nat) (s : State) : SameRings s (abandonStep slot s) :=
  (sameRings_modAd slot (fun a => { a with running := none }) s).trans ⟨fun _ => rfl, rfl, rfl⟩
theorem sameRings_loadSet (slot k : Nat) (c : Cmd) (s : State) : SameRings s (loadSet slot k c s) :=
  ((sameRings_chargeHost slot (2 * k) 0 s).trans (sameRings_abandonStep slot _)).trans (sameRings_modAd slot _ _)

/-- The state with the live set written to host memory. -/
def writeLive (slot : Nat) (c : Cmd) (x : Ctx) (s : State) : State :=
  chargeHost slot 0 (bfBytes x.ad.live).length (hostWrite (entAddr0 c.entry) (bfBytes x.ad.live) s)
theorem execAdapterExport_unbound (hc : readyCmd (.ctx slot) seq 0x32 s = some c) (hx : ctxOf s slot = some x) (unbound : x.image = none) :
    execAdapterExport slot seq s = .next (complete (.ctx slot) seq kBadState 0x01 [] s) := by
  refine (ctxCommand_next _ hc hx).trans (congrArg _ ?_)
  simp only [unbound, Option.isNone_none, if_true]
  rfl
theorem execAdapterExport_writes (hc : readyCmd (.ctx slot) seq 0x32 s = some c) (hx : ctxOf s slot = some x) (bound : x.image ≠ none) :
    execAdapterExport slot seq s = .next (completeOk (.ctx slot) seq (x.ad.digest ++ natLe 4 x.ad.liveStep) (writeLive slot c x s)) := by
  refine (ctxCommand_next _ hc hx).trans (congrArg _ ?_)
  simp only [Option.isNone_iff_eq_none, bound, if_false]
  rfl
theorem keepsRing_writeLive (slot : Nat) (c : Cmd) (x : Ctx) (s : State) : KeepsRing (.ctx slot) s (writeLive slot c x s) :=
  (keepsRing_hostWrite ..).trans (keepsRing_chargeHost ..)
theorem writeLive_adapts (slot : Nat) (c : Cmd) (x : Ctx) (s : State) : Adapts slot id s (writeLive slot c x s) := by
  have written : Adapts slot id s (hostWrite (entAddr0 c.entry) (bfBytes x.ad.live) s) :=
    ⟨rfl, rfl, rfl, rfl, rfl, fun _ _ => rfl, fun _ => id, fun x hx => ⟨x, hx, rfl, rfl⟩⟩
  exact written.trans (adapts_chargeHost ..)

/-- The state with a context's sample store cleared. -/
def clearSamples (slot : Nat) (s : State) : State := settleSets slot (modAd slot (fun a => clearStore (a.epoch + 1) a) s)
theorem execStoreClear_next (hc : readyCmd (.ctx slot) seq 0x33 s = some c) (hx : ctxOf s slot = some x) :
    execStoreClear slot seq s = .next (completeOk (.ctx slot) seq [] (clearSamples slot s)) := ctxCommand_next _ hc hx
theorem clearSamples_adapts (slot : Nat) (s : State) : Adapts slot (fun a => clearStore (a.epoch + 1) a) s (clearSamples slot s) :=
  (adapts_modAd slot _ s).trans (adapts_settleSets slot _)
theorem keepsRing_clearSamples (slot : Nat) (s : State) : KeepsRing (.ctx slot) s (clearSamples slot s) :=
  keepsRing_of_sameRings ((sameRings_modAd slot _ s).trans (sameRings_settleSets slot _)) slot
end

end Sys2Proof.Machine

namespace Sys2Proof.Say
open Sys2Proof.Machine

/-- A step's end is a change of its context's adaptation (`steppedAd`), with its tasks dropped; the rest is charges and statistics. -/
theorem stepsEnd_holds : stepsEnd := by
  intro s slot x st img k net live runs on him hnet sound ended a mine customs copies r after
  have run := (exec_trainingStepComplete slot s).trans (execTrainingStepComplete_next live runs on him hnet sound ended)
  have steps := ((adapts_abandonStep slot s).trans (adapts_chargeWork slot _)).trans (adapts_modAd slot (fun _ => steppedAd st img x r) _)
  obtain ⟨y, hy, ad, side⟩ := steps.ctx x (ctxOf_of_liveCtx live)
  obtain ⟨ctxs, tasks, rest⟩ := rest_of_allocless (endStep_eq slot st img net x s)
  refine ⟨_, run, ?rest, fun t ht => abandonStep_tasks (tasks ▸ ht), fun i hi => (congrArg (tget · i) ctxs).trans (steps.ctxs i hi), y,
    (congrArg (tget · slot) ctxs).trans hy, (congrArg Ctx.fr side :), ?ad⟩
  case rest =>
    exact rest_of_step rest (eq_of_workless (by simp))
  case ad =>
    unfold steppedAd at ad
    cases result : r.1 with
    | applied l =>
      rw [result] at ad
      rw [ad]
      exact ⟨rfl, rfl, rfl, rfl⟩
    | empty =>
      rw [result] at ad
      exact ad
    | skipped =>
      rw [result] at ad
      exact ad

/-- Each command answers at once, or changes the adaptation and waits for a boundary (`awaitBoundary_waits`). -/
theorem adaptationCommands_holds : adaptationCommands := by
  intro s slot seq c x hx waits
  have answered {op code reason : Nat} (result : Bytes) (hc : readyCmd (.ctx slot) seq op s = some c) :
      Answered s (complete (.ctx slot) seq code reason result s) (.ctx slot) c code reason := complete_answered_after code reason result hc (.refl _ s)
  refine ⟨fun hc fresh => ?publish, fun img hc fresh him => ?load, fun hc => ?exported, fun hc => ?clear, fun hc fresh => ?control⟩
  case publish =>
    have run := (exec_adaptPublish slot seq s).trans (boundaryCommand_next (fun _ x s => adaptPublishGo slot seq x s) hc hx fresh)
    refine ⟨fun unbound => ?_, fun bound replay => ?_, fun bound live => ?_⟩
    · exact ⟨_, run.trans (congrArg _ (adaptPublishGo_unbound unbound)), answered [] hc, complete_wards ..⟩
    · exact ⟨_, run.trans (congrArg _ (adaptPublishGo_replay bound replay)), completeOk_result_after _ hc (.refl _ s),
        (adapts_complete ..).ad hx⟩
    · exact ⟨_, run.trans (congrArg _ (adaptPublishGo_waits bound live)),
        awaitBoundary_waits (adapts_modAd slot _ s) (sameRings_modAd slot _ s) hx (readyCmd_some hc).1⟩
  case load =>
    intro k
    have run := (exec_adapterLoad slot seq s).trans (boundaryCommand_next (fun c x s => adapterLoadGo slot seq c x s) hc hx fresh)
    refine ⟨fun bad => ?_, fun some_elements len => ?_⟩
    · exact ⟨_, run.trans (congrArg _ (adapterLoadGo_refuses him bad)), answered [] hc, (adapts_complete ..).ad hx⟩
    · exact ⟨_, run.trans (congrArg _ (adapterLoadGo_loads him some_elements len)),
        awaitBoundary_waits (loadSet_adapts slot k c s) (sameRings_loadSet slot k c s) hx (readyCmd_some hc).1⟩
  case exported =>
    refine ⟨fun unbound => ?_, fun bound => ?_⟩
    · exact ⟨_, (exec_adapterExport slot seq s).trans (execAdapterExport_unbound hc hx unbound), answered [] hc, complete_wards ..⟩
    · have kept := keepsRing_writeLive slot c x s
      refine ⟨_, (exec_adapterExport slot seq s).trans (execAdapterExport_writes hc hx bound), complete_answered_after 0 0 _ hc kept,
        ((writeLive_adapts slot c x s).trans (adapts_complete ..)).ad hx, complete_wards .., fun a canonical settled low high outside => ?_⟩
      obtain ⟨hcmd, running, steady⟩ := readyCmd_some hc
      have ring : ringOf s (.ctx slot) = some x.ring := congrArg (Option.map _) hx
      refine (complete_hostMem_outside 0 0 _ ((cmdOf_of_keepsRing kept seq).trans hcmd) (kept.fw ▸ running) (kept.fw ▸ steady)
        (kept.ring.trans ring) settled outside).trans ((Mem.read_writeN canonical _ _ a).trans ?_)
      exact if_pos ⟨low, high⟩
  case clear =>
    have cleared := (clearSamples_adapts slot s).trans (adapts_complete slot seq 0 0 [] _)
    exact ⟨_, (exec_storeClear slot seq s).trans (execStoreClear_next hc hx), complete_answered_after 0 0 [] hc (keepsRing_clearSamples slot s),
      cleared.ad hx, cleared.wards, cleared.slots⟩
  case control =>
    exact ⟨_, (exec_trainControl slot seq s).trans (boundaryCommand_next (fun _ _ s => awaitBoundary (.ctx slot) seq s) hc hx fresh),
      awaitBoundary_waits (.refl slot s) (.refl s) hx (readyCmd_some hc).1⟩

end Sys2Proof.Say
namespace Sys2Proof.Machine
open Sys2Proof.Say

/-- Settles O41: what each part says of a context is a change of its adaptation (`Adapts`), beside records, charges and statistics; a boundary
is such changes in order (`atBoundary_readied`), and a binding gives memory and then the image (`bindImage_eq`). -/
theorem adaptation : Obligations.Adaptation :=
  ⟨captures_holds, imagesBind_holds, boundaries_holds, stepsEnd_holds, adaptationCommands_holds⟩

end Sys2Proof.Machine
end

section
/-!
PROOFS. Runs of a frame graph (07 R259–R270): a run among those of its context, the start of a node, and the slices of the flow engines.
-/
namespace Sys2Proof.Machine
open Sys2Proof.Say (RunAmong)

/-! ## A run among those of its context -/

section
variable {s : State} {slot : Nat} {x : Ctx} {l r : List GraphRun} {g : GraphRun}
/-- The oldest run that passes a test is found. -/
theorem find_among {p : GraphRun → Bool} (among : RunAmong x l g r) (older : ∀ q ∈ l, p q = false) (here : p g = true) :
    x.graphRuns.find? p = some g := by
  rw [among.1, List.find?_append, List.find?_eq_none.mpr fun q hq => by simp [older q hq], Option.none_or, List.find?_cons_of_pos here]
theorem map_among (among : RunAmong x l g r) (f : GraphRun → GraphRun) :
    x.graphRuns.map (fun q => if q.id = g.id then f q else q) = l ++ f g :: r := by
  have others {k : List GraphRun} (apart : ∀ q ∈ k, q.id ≠ g.id) : k.map (fun q => if q.id = g.id then f q else q) = k :=
    (List.map_congr_left fun q hq => if_neg (apart q hq)).trans (List.map_id k)
  rw [among.1, List.map_append, List.map_cons, if_pos rfl, others fun q hq => among.2 q (List.mem_append_left _ hq),
    others fun q hq => among.2 q (List.mem_append_right _ hq)]
theorem filter_among (among : RunAmong x l g r) : x.graphRuns.filter (·.id != g.id) = l ++ r := by
  have others {k : List GraphRun} (apart : ∀ q ∈ k, q.id ≠ g.id) : k.filter (·.id != g.id) = k :=
    List.filter_eq_self.mpr fun q hq => by simp [apart q hq]
  rw [among.1, List.filter_append, List.filter_cons_of_neg (by simp), others fun q hq => among.2 q (List.mem_append_left _ hq),
    others fun q hq => among.2 q (List.mem_append_right _ hq)]
/-- A change of one run. -/
theorem ctxOf_modGraph (among : RunAmong x l g r) (f : GraphRun → GraphRun) (hx : ctxOf s slot = some x) :
    ctxOf (modGraph slot g.id f s) slot = some { x with graphRuns := l ++ f g :: r } := by
  rw [modGraph, ctxOf_modCtx, if_pos rfl, hx, Option.map_some, map_among among f]
theorem ctxOf_modGraph_other {i : Nat} (run : Nat) (f : GraphRun → GraphRun) (s : State) (hi : i ≠ slot) :
    ctxOf (modGraph slot run f s) i = ctxOf s i := tget_tmod_other _ _ _ _ hi
end

/-! ## The start of a network's run (04 R159) -/

/-- A run that starts is the latest of its network, and its context is otherwise as it was. -/
theorem ctxOf_startRun {slot : Nat} {s : State} {x : Ctx} (net : Nat) (r : NetRun) (srcs : NEnv → NEnv) (hx : ctxOf s slot = some x) :
    ∃ v, ctxOf (startRun slot net r srcs s) slot = some { x with runs := tput x.runs net { r with vals := v } } := by
  unfold startRun
  simp only [hx]
  generalize srcs _ = e
  have start : ctxOf (modCtx slot (fun x => { x with runs := tput x.runs net { r with vals := e.vals } }) s) slot =
      some { x with runs := tput x.runs net { r with vals := e.vals } } := by
    rw [ctxOf_modCtx, if_pos rfl, hx]
    rfl
  refine ⟨e.vals, Eq.trans ?_ start⟩
  refine (KeepsFrame.trans (slot := slot + 1) (KeepsFrame.foldl (fun s i => ?_) _ _) ((settleInherit_keepsFrame _ _).trans
    (submitDetect_keepsFrame _ slot net _))).ctxs slot (Nat.ne_of_lt (Nat.lt_succ_self slot))
  split
  · exact .refl _ s
  · exact KeepsFrame.foldl (fun s j => dealTask_keepsFrame _ _ s) _ s

/-! ## VISION_NODE_START (07 R267–R269) -/

/-- A source buffer that a node reads is decided, where it is not yet. -/
def decideSource (s : State) (slot : Nat) (x : Ctx) (g q : GraphRun) (b : Nat) : GraphRun :=
  match tget q.inputs b with
  | some _ => q
  | none => { q with inputs := tput q.inputs b (inputImg s slot x g b) }
/-- What deciding sources makes of a run: those decided stay, and each of the list stands as it is found. -/
structure Decided (s : State) (slot : Nat) (x : Ctx) (g : GraphRun) (sources : List Nat) (q p : GraphRun) : Prop where
  rest : p = { q with inputs := p.inputs }
  stays : ∀ b v, tget q.inputs b = some v → tget p.inputs b = some v
  found : ∀ b ∈ sources, tget q.inputs b = none → tget p.inputs b = some (inputImg s slot x g b)

section
variable {s : State} {slot node : Nat} {x : Ctx} {g : GraphRun}
theorem decideSource_decided (s : State) (slot : Nat) (x : Ctx) (g q : GraphRun) (b : Nat) :
    Decided s slot x g [b] q (decideSource s slot x g q b) ∧ ∀ c, c ≠ b → tget (decideSource s slot x g q b).inputs c = tget q.inputs c := by
  unfold decideSource
  split
  · next v decided =>
    refine ⟨⟨rfl, fun _ _ => id, fun c hc none_yet => ?_⟩, fun _ _ => rfl⟩
    rw [List.mem_singleton.mp hc, decided] at none_yet
    cases none_yet
  · next open_ =>
    refine ⟨⟨rfl, fun c v decided => ?_, fun c hc _ => ?_⟩, fun c apart => tget_tput_other _ _ _ _ apart⟩
    · rw [tget_tput_other _ _ _ _ (by rintro rfl; cases open_.symm.trans decided)]
      exact decided
    · rw [List.mem_singleton.mp hc]
      exact tget_tput_same _ _ _
theorem decideSources_decided (s : State) (slot : Nat) (x : Ctx) (g : GraphRun) (sources : List Nat) :
    ∀ q, Decided s slot x g sources q (sources.foldl (decideSource s slot x g) q) := by
  induction sources with
  | nil => exact fun q => ⟨rfl, fun _ _ => id, nofun⟩
  | cons b l ih =>
    intro q
    obtain ⟨first, apart⟩ := decideSource_decided s slot x g q b
    have later := ih (decideSource s slot x g q b)
    refine ⟨?_, fun c v decided => later.stays c v (first.stays c v decided), fun c hc none_yet => ?_⟩
    · rw [List.foldl_cons]
      generalize l.foldl (decideSource s slot x g) (decideSource s slot x g q b) = p at later
      exact later.rest.trans (congrArg (fun z : GraphRun => { z with inputs := p.inputs }) first.rest)
    · by_cases same : c = b
      · exact later.stays c _ (first.found c (List.mem_singleton.mpr same) none_yet)
      · exact later.found c ((List.mem_cons.mp hc).resolve_left same) ((apart c same).trans none_yet)

/-- A run with a node begun, and the sources decided that it reads. -/
def begunRun (s : State) (slot : Nat) (x : Ctx) (g : GraphRun) (node : Nat) (q : GraphRun) : GraphRun :=
  ((nodeInputs g.graph node).filter (gbSourceAt g.graph)).foldl (decideSource s slot x g) { q with begun := q.begun ++ [node] }
/-- What a node's begin makes of its run. -/
theorem begunRun_decides : begunRun s slot x g node g = { g with begun := g.begun ++ [node], inputs := (begunRun s slot x g node g).inputs } ∧
    (∀ b v, tget g.inputs b = some v → tget (begunRun s slot x g node g).inputs b = some v) ∧
    ∀ b ∈ nodeInputs g.graph node, gbSourceAt g.graph b = true → tget g.inputs b = none →
      tget (begunRun s slot x g node g).inputs b = some (inputImg s slot x g b) := by
  obtain ⟨rest, stays, found⟩ := decideSources_decided s slot x g ((nodeInputs g.graph node).filter (gbSourceAt g.graph))
    { g with begun := g.begun ++ [node] }
  exact ⟨rest, stays, fun b hb source => found b (List.mem_filter.mpr ⟨hb, source⟩)⟩
theorem startNode_served (served : fld (fgNode g.graph node) 0 1 ≠ 3) :
    startNode slot x g node s = modGraph slot g.id (begunRun s slot x g node) s := by
  simp only [startNode, if_neg served]
  rfl
/-- A NETWORK node begins with a run of its network. -/
theorem startNode_network {h : Nat} {im : Image} (network : fld (fgNode g.graph node) 0 1 = 3) (hh : x.image = some h)
    (him : tget (wardOf s x.ward).images h = some im) : ∃ r srcs, startNode slot x g node s =
      startRun slot (fld (fgNode g.graph node) 16 4) r srcs (modGraph slot g.id (begunRun s slot x g node) s) ∧
      r.image = h ∧ r.why = .node g.id node ∧ r.running = true ∧ r.made = [] := by
  have image : auxImage s x = some (h, im.bytes) := by simp [auxImage, hh, him]
  simp only [startNode, if_pos network, image]
  exact ⟨_, _, rfl, rfl, rfl, rfl, rfl⟩

theorem exec_visionNodeStart (slot node : Nat) (s : State) : exec (.visionNodeStart slot node) s = execVisionNodeStart slot node s := rfl
theorem execVisionNodeStart_next {l r : List GraphRun} (hx : liveCtx s slot = some x) (among : RunAmong x l g r)
    (older : ∀ q ∈ l, nodeCanStart s slot x node q = false) (inGraph : node < fgNodes g.graph) (fresh : node ∉ g.begun)
    (ready : (nodeInputs g.graph node).all (bufferReady s slot x g) = true)
    (idle : fld (fgNode g.graph node) 0 1 = 3 → ∀ q ∈ x.runs, q.1 = fld (fgNode g.graph node) 16 4 → q.2.running = false) :
    execVisionNodeStart slot node s = .next (startNode slot x g node s) := by
  have can : nodeCanStart s slot x node g = true := by
    have free : (fld (fgNode g.graph node) 0 1 == 3 && x.runs.any (fun r => r.2.running && r.1 == nodeNet (fgNode g.graph node))) = false := by
      by_cases network : fld (fgNode g.graph node) 0 1 = 3
      · simp only [network, beq_self_eq_true, Bool.true_and, List.any_eq_false, Bool.and_eq_true, beq_iff_eq, not_and]
        exact fun q hq runs own => absurd runs (by simp [idle network q hq own])
      · simp [network]
    simp only [nodeCanStart, inGraph, fresh, ready, free, decide_true, List.contains_eq_mem, decide_false, Bool.not_false, Bool.and_self]
  simp only [execVisionNodeStart, need, hx, find_among among older can]
end

/-! ## VISION_SLICE_BOUNDARY (07 R258–R260) -/

theorem exec_visionSliceBoundary (e : Nat) (s : State) : exec (.visionSliceBoundary e) s = execVisionSliceBoundary e s := rfl
theorem liveCtx_of_namedCtx {s : State} {slot gen : Nat} {x : Ctx} (h : namedCtx s slot gen = some x) : liveCtx s slot = some x := by
  simp only [namedCtx, Option.ite_none_right_eq_some] at h
  exact (if_pos h.1.1).trans h.2

section
variable {s : State} {e : Nat} {j : Slice} {x : Ctx}
/-- An engine that ran none takes a slice, of an LC node or a BE one. -/
def takeSlice (s : State) (e : Nat) (j : Slice) (lc : Bool) : FlowEngine where
  job := some j
  since := s.now
  lastLc := if lc then j.slot else (engineOf s e).lastLc
  lastBe := if lc then (engineOf s e).lastBe else j.slot
/-- An engine that ran no slice takes the next one. -/
theorem execVisionSliceBoundary_takes {lc : Bool} (he : e < 8) (idle : (engineOf s e).job = none) (next : nextSlice s e = some (j, lc)) :
    execVisionSliceBoundary e s = .next { s with engines := tput s.engines e (takeSlice s e j lc) } := by
  have unserved : endSlice e s = s := by
    unfold endSlice
    simp only [idle]
  simp only [execVisionSliceBoundary, guardThat, he, idle, Option.isNone_none, Bool.true_or, decide_true, Bool.and_self, if_true, unserved, next]
  rfl
/-- An engine whose slice ends takes another or none. -/
theorem execVisionSliceBoundary_ends (he : e < 8) (hj : (engineOf s e).job = some j) (inTime : s.now < (engineOf s e).since + 8 * 4096 + 8) :
    ∃ q, execVisionSliceBoundary e s = .next { endSlice e s with engines := tput (endSlice e s).engines e q } := by
  simp only [execVisionSliceBoundary, guardThat, he, hj, inTime, Option.isNone_some, Bool.false_or, decide_true, Bool.and_self, if_true]
  split
  · exact ⟨_, rfl⟩
  · exact ⟨_, rfl⟩
/-- The cycles of an engine's slice. -/
def sliceCycles (s : State) (e : Nat) : Nat := min 4096 ((s.now - (engineOf s e).since) / 8)
/-- A run with an engine's work added to a node. -/
def workedRun (node n : Nat) (g : GraphRun) : GraphRun :=
  { g with work := tput g.work node (min (fgWork g.graph node) (tgetD g.work node 0 + n)) }
/-- A slice that read no uncorrectable line is charged, counted and added to its node. -/
theorem endSlice_works (hj : (engineOf s e).job = some j) (hx : namedCtx s j.slot j.gen = some x) (sound : (wardOf s x.ward).poisoned = []) :
    endSlice e s = modGraph j.slot j.run (workedRun j.node (sliceCycles s e))
      (tallyChip 0x220 e (sliceCycles s e) (some x.ward) (chargeFixed j.slot (sliceCycles s e) s)) := by
  unfold endSlice
  simp only [hj, hx]
  exact unlessSpoiled_sound _ _ (liveCtx_of_namedCtx hx) sound
theorem endSlice_eq (hj : (engineOf s e).job = some j) (hx : namedCtx s j.slot j.gen = some x) (sound : (wardOf s x.ward).poisoned = []) :
    ∃ p, endSlice e s = modGraph j.slot j.run (workedRun j.node (sliceCycles s e)) (modPerf (fun _ => p) (chargeFixed j.slot (sliceCycles s e) s)) := by
  obtain ⟨p, hp⟩ := tallyChip_eq 0x220 e (sliceCycles s e) (some x.ward) (chargeFixed j.slot (sliceCycles s e) s)
  exact ⟨p, (endSlice_works hj hx sound).trans (congrArg _ hp)⟩
/-- A state without what a slice's end changes. -/
def sliceless (s : State) : State := { s with ctxs := [], engines := [], perf := {} }
theorem eq_of_sliceless {s n : State} (h : sliceless n = sliceless s) : n = { s with ctxs := n.ctxs, engines := n.engines, perf := n.perf } :=
  (congrArg (fun q : State => { q with ctxs := n.ctxs, engines := n.engines, perf := n.perf }) h :)
theorem sliceless_modCtx (slot : Nat) (f : Ctx → Ctx) (s : State) : sliceless (modCtx slot f s) = sliceless s := rfl
theorem sliceless_modPerf (f : Perf → Perf) (s : State) : sliceless (modPerf f s) = sliceless s := rfl
/-- What the end of a slice does to the contexts: the run's node has the work. -/
theorem endSlice_effect {l r : List GraphRun} {g : GraphRun} (hj : (engineOf s e).job = some j) (hx : namedCtx s j.slot j.gen = some x)
    (sound : (wardOf s x.ward).poisoned = []) (among : RunAmong x l g r) (own : g.id = j.run) :
    sliceless (endSlice e s) = sliceless s ∧ (endSlice e s).engines = s.engines ∧ (∀ i, i ≠ j.slot → ctxOf (endSlice e s) i = ctxOf s i) ∧
    ∃ a, ctxOf (endSlice e s) j.slot = some { x with acct := a, graphRuns := l ++ workedRun j.node (sliceCycles s e) g :: r } := by
  obtain ⟨p, hp⟩ := endSlice_eq hj hx sound
  obtain ⟨a, charge⟩ : ∃ a, chargeFixed j.slot (sliceCycles s e) s = modAcct j.slot a s := ⟨_, rfl⟩
  have charged : ctxOf (modPerf (fun _ => p) (modAcct j.slot a s)) j.slot = some { x with acct := a x.acct } := by
    rw [show ctxOf (modPerf (fun _ => p) (modAcct j.slot a s)) j.slot = ctxOf (modAcct j.slot a s) j.slot from rfl, modAcct, ctxOf_modCtx,
      if_pos rfl, ctxOf_of_namedCtx hx]
    rfl
  rw [hp, ← own, charge]
  refine ⟨?_, ?_, fun i hi => (ctxOf_modGraph_other _ _ _ hi).trans ?_, a x.acct,
    ctxOf_modGraph (x := { x with acct := a x.acct }) among (workedRun j.node (sliceCycles s e)) charged⟩
  · exact (sliceless_modCtx ..).trans ((sliceless_modPerf ..).trans (sliceless_modCtx ..))
  · rfl
  · exact tget_tmod_other _ _ _ _ hi
theorem engineOf_same {n : State} {t : Table FlowEngine} {q : FlowEngine} (h : n.engines = tput t e q) : engineOf n e = q := by
  rw [engineOf, tgetD, h, tget_tput_same]
  rfl
theorem engineOf_other {i : Nat} {s n : State} {t : Table FlowEngine} {q : FlowEngine} (h : n.engines = tput t e q) (same : t = s.engines)
    (hi : i ≠ e) : engineOf n i = engineOf s i := by
  rw [engineOf, engineOf, tgetD, tgetD, h, same, tget_tput_other _ _ _ _ hi]
end

end Sys2Proof.Machine
end

section
/-!
PROOFS. The bands of FLOW and DISPARITY nodes (07 R268, R278, R282): the records that a band writes, its latch, and what else it may change.
-/
namespace Sys2Proof.Machine
open Sys2Proof.Say (RunAmong)

/-! ## What a band leaves as it was -/

/-- A state without what a band's end changes. -/
def bandless (s : State) : State := { s with wards := [], ctxs := [], detect := [] }
theorem eq_of_bandless {s n : State} (h : bandless n = bandless s) : n = { s with wards := n.wards, ctxs := n.ctxs, detect := n.detect } :=
  (congrArg (fun q : State => { q with wards := n.wards, ctxs := n.ctxs, detect := n.detect }) h :)

/-- Beside wards and detection jobs only the context changes, and it keeps its graph runs. -/
structure KeepsRuns (slot : Nat) (s n : State) : Prop where
  rest : bandless n = bandless s
  ctxs : ∀ i, i ≠ slot → ctxOf n i = ctxOf s i
  runs : (ctxOf n slot).map Ctx.graphRuns = (ctxOf s slot).map Ctx.graphRuns

section
variable {slot : Nat} {s m n : State}
theorem KeepsRuns.refl (slot : Nat) (s : State) : KeepsRuns slot s s := ⟨rfl, fun _ _ => rfl, rfl⟩
theorem KeepsRuns.trans (a : KeepsRuns slot s m) (b : KeepsRuns slot m n) : KeepsRuns slot s n :=
  ⟨b.rest.trans a.rest, fun i hi => (b.ctxs i hi).trans (a.ctxs i hi), b.runs.trans a.runs⟩
theorem KeepsRuns.foldl {α : Type} {f : State → α → State} (hf : ∀ s a, KeepsRuns slot s (f s a)) (l : List α) (s : State) :
    KeepsRuns slot s (l.foldl f s) :=
  List.foldlRecOn l f (.refl slot s) (fun _ h a _ => h.trans (hf _ a))
theorem KeepsRuns.of_ctxs (rest : bandless n = bandless s) (ctxs : n.ctxs = s.ctxs) : KeepsRuns slot s n :=
  ⟨rest, fun i _ => congrArg (tget · i) ctxs, congrArg (fun t => (tget t slot).map Ctx.graphRuns) ctxs⟩
theorem keepsRuns_modCtx {g : Ctx → Ctx} (hg : ∀ x, (g x).graphRuns = x.graphRuns) (s : State) : KeepsRuns slot s (modCtx slot g s) :=
  ⟨rfl, fun i hi => tget_tmod_other _ _ _ _ hi, by simp [ctxOf_modCtx, Option.map_map, Function.comp_def, hg]⟩
end

theorem keepsRuns_addStat (slot off n : Nat) (s : State) : KeepsRuns slot s (addStat slot off n s) := by
  refine .of_ctxs ?_ (addStat_ctxs slot off n s)
  exact (congrArg bandless (allocless_addStat slot off n s) :)
theorem keepsRuns_modAcct (slot : Nat) (g : Account → Account) (s : State) : KeepsRuns slot s (modAcct slot g s) :=
  keepsRuns_modCtx (g := fun c => { c with acct := g c.acct }) (fun _ => rfl) s
theorem keepsRuns_modRun (slot net : Nat) (g : NetRun → NetRun) (s : State) : KeepsRuns slot s (modRun slot net g s) :=
  keepsRuns_modCtx (g := fun x => { x with runs := tmod x.runs net g }) (fun _ => rfl) s
theorem keepsRuns_hostBuffer (slot wd : Nat) (buf : Bytes) (off : Nat) (b : Bytes) (s : State) :
    KeepsRuns slot s (hostBuffer slot wd buf off b s) := by
  unfold hostBuffer
  dsimp only
  split
  · exact KeepsRuns.trans (m := chargeVault slot 0 b.length s) (keepsRuns_modAcct slot _ s) (.of_ctxs rfl rfl)
  · exact .refl slot s

/-- Free post-processors take jobs: only detection changes. -/
theorem settleDetect_rest (s : State) : ({ settleDetect s with detect := [] } : State) = { s with detect := [] } := by
  refine foldl_view (view := fun s : State => { s with detect := [] }) (fun s u => ?_) _ s
  dsimp only
  split
  · rfl
  · split <;> rfl
theorem submitDetect_rest (slot net : Nat) (s : State) : ({ submitDetect slot net s with detect := [] } : State) = { s with detect := [] } := by
  unfold submitDetect
  split
  · rfl
  · split
    · rfl
    · exact (settleDetect_rest _).trans rfl
theorem keepsRuns_submitDetect (slot i net : Nat) (s : State) : KeepsRuns slot s (submitDetect i net s) := by
  have rest := submitDetect_rest i net s
  exact .of_ctxs (congrArg bandless rest :) (congrArg State.ctxs rest :)
theorem keepsRuns_bindMotion (slot n : Nat) (motion : SrcPlane) (s : State) : KeepsRuns slot s (bindMotion slot n motion s) := by
  unfold bindMotion
  split
  · exact .refl slot s
  · refine .foldl (fun s r => ?_) _ s
    exact (keepsRuns_modRun slot r.1 (fun r => { r with vals := _, awaits := none }) s).trans (keepsRuns_submitDetect slot slot r.1 _)

/-! ## The records of a band -/

/-- The records of a buffer after a band's are written from a place on, over a buffer that may end before it. -/
def writeRecs (old : List Nat) (first : Nat) (rs : List (Nat × Nat)) : List Nat :=
  old.take first ++ List.replicate (first - old.length) 0 ++ rs.map (·.2) ++ old.drop (first + rs.length)
theorem writeRecs_getD (old : List Nat) (first : Nat) (rs : List (Nat × Nat)) {i : Nat} (hi : i < rs.length) :
    (writeRecs old first rs).getD (first + i) 0 = (rs.getD i (0, 0)).2 := by
  have front : (old.take first ++ List.replicate (first - old.length) 0).length = first := by
    rw [List.length_append, List.length_take, List.length_replicate]
    omega
  rw [writeRecs, List.append_assoc, List.getD_append_right _ _ _ _ (by omega), front, Nat.add_sub_cancel_left,
    List.getD_append _ _ _ _ (by simpa using hi)]
  exact List.getD_map rs (0, 0) Prod.snd

/-- The latches of a node's output with a band's set. -/
def bandLatched (g : GraphRun) (node band : Nat) : Nat := tgetD g.latches (fld (fgNode g.graph node) 3 1) 0 ||| 2 ^ band
/-- Where a band's records begin: a FLOW band has eight rows of blocks. -/
def bandFirst (g : GraphRun) (node band : Nat) : Nat :=
  if fld (fgNode g.graph node) 0 1 == 1 then 8 * band * cdiv (fld (fgBuffer g.graph (fld (fgNode g.graph node) 3 1)) 4 2) 8 else 0
/-- A run with the records of a band written and its latch set; the last band ends the node. -/
def bandedRun (g : GraphRun) (node band : Nat) (rs : List (Nat × Nat)) (q : GraphRun) : GraphRun :=
  let out := fld (fgNode g.graph node) 3 1
  { q with
    recs := tput q.recs out (writeRecs (tgetD g.recs out []) (bandFirst g node band) rs)
    latches := tput q.latches out (bandLatched g node band)
    ended := if bandLatched g node band == 2 ^ bandsOf g.graph out - 1 then q.ended ++ [node] else q.ended }

/-- The buffer sets of a run's frame take a band of MOTION_OUT. -/
def showMotion (g : GraphRun) (node band : Nat) (rs : List (Nat × Nat)) (x : Ctx) : Ctx :=
  let out := fld (fgNode g.graph node) 3 1
  let buf := fgBuffer g.graph out
  { x with ing := { x.ing with sets := x.ing.sets.map (fun q =>
    if q.use != .free && q.frame == g.render then
      { q with
        flowMotion := some (expandMotion (fld buf 4 2) (fld buf 6 2) (writeRecs (tgetD g.recs out []) (bandFirst g node band) rs)
          (64 * band) (64 * band + 64) q.flowMotion)
        flowBands := bandLatched g node band
        flowDone := bandLatched g node band == 2 ^ bandsOf g.graph out - 1 }
    else q) } }
theorem showMotion_flowBands (g : GraphRun) (node band : Nat) (rs : List (Nat × Nat)) (x : Ctx) :
    ∀ b ∈ (showMotion g node band rs x).ing.sets, b.use ≠ .free → b.frame = g.render → b.flowBands = bandLatched g node band := by
  intro b hb used own
  obtain ⟨q, _, rfl⟩ := List.mem_map.mp hb
  split at used
  · next shown => rw [if_pos shown]
  · next other =>
    rw [if_neg other] at own
    exact absurd (by simp [used, own]) other

section
variable {s : State} {slot node band : Nat} {x : Ctx} {g : GraphRun}
/-- A band of a node completes in its run; what is done before and after leaves the run alone. Where the buffer is MOTION_OUT, the sets of
its frame have the band's latches. -/
theorem bandComplete_effect (slot : Nat) (x : Ctx) (g : GraphRun) (node band : Nat) (s : State) :
    (∃ m, KeepsRuns slot s m ∧
      KeepsRuns slot (modGraph slot g.id (bandedRun g node band (bandRecords s slot x g node band)) m) (bandComplete slot x g node band s)) ∧
      (fld (fgBuffer g.graph (fld (fgNode g.graph node) 3 1)) 0 1 = 0x10 → ∀ y, ctxOf (bandComplete slot x g node band s) slot = some y →
        ∀ b ∈ y.ing.sets, b.use ≠ .free → b.frame = g.render → b.flowBands = bandLatched g node band) := by
  unfold bandComplete
  extract_lets n flow out buf rs bw at_ o recs e s1 latches full s2 s3
  have counted : KeepsRuns slot s s1 := .foldl (fun s k => keepsRuns_addStat slot _ _ s) _ s
  have written : KeepsRuns slot s2 s3 := keepsRuns_hostBuffer ..
  have stored : s2 = modGraph slot g.id (bandedRun g node band rs) s1 := rfl
  refine ⟨⟨s1, counted, ?_⟩, fun motionOut y hy => ?_⟩
  · rw [← stored]
    split
    · refine KeepsRuns.trans ?_ (keepsRuns_modCtx (g := showMotion g node band rs) (fun _ => rfl) _)
      split
      · exact written.trans (keepsRuns_bindMotion ..)
      · exact written
    · exact written
  · rw [if_pos motionOut, ctxOf_modCtx, if_pos rfl, Option.map_eq_some_iff] at hy
    obtain ⟨z, _, rfl⟩ := hy
    exact showMotion_flowBands g node band rs z

/-- The run that a band completes in has its records and its latch; of the rest of the device, wards and detection jobs alone may change. -/
theorem bandComplete_runs {l r : List GraphRun} (hx : ctxOf s slot = some x) (among : RunAmong x l g r) :
    bandless (bandComplete slot x g node band s) = bandless s ∧ (∀ i, i ≠ slot → ctxOf (bandComplete slot x g node band s) i = ctxOf s i) ∧
    ∃ y, ctxOf (bandComplete slot x g node band s) slot = some y ∧
      y.graphRuns = l ++ bandedRun g node band (bandRecords s slot x g node band) g :: r := by
  obtain ⟨⟨m, before, after⟩, -⟩ := bandComplete_effect slot x g node band s
  obtain ⟨z, hz, runs⟩ := Option.map_eq_some_iff.mp (before.runs.trans (congrArg (Option.map Ctx.graphRuns) hx))
  have banded := after.runs.trans (congrArg (Option.map Ctx.graphRuns) (ctxOf_modGraph (x := z) ⟨runs.trans among.1, among.2⟩ _ hz))
  exact ⟨after.rest.trans before.rest, fun i hi => (after.ctxs i hi).trans ((ctxOf_modGraph_other _ _ m hi).trans (before.ctxs i hi)),
    Option.map_eq_some_iff.mp banded⟩
theorem exec_flowBandComplete (slot node band : Nat) (s : State) : exec (.flowBandComplete slot node band) s = execFlowBandComplete slot node band s :=
  rfl
theorem execFlowBandComplete_next {l r : List GraphRun} (hx : liveCtx s slot = some x) (among : RunAmong x l g r)
    (older : ∀ q ∈ l, bandCan node band q = false) (begun : node ∈ g.begun)
    (kind : fld (fgNode g.graph node) 0 1 = 1 ∨ fld (fgNode g.graph node) 0 1 = 2)
    (inBuffer : band < bandsOf g.graph (fld (fgNode g.graph node) 3 1))
    (fresh : (tgetD g.latches (fld (fgNode g.graph node) 3 1) 0).testBit band = false)
    (worked : bandWork g.graph node band ≤ tgetD g.work node 0) :
    execFlowBandComplete slot node band s = .next (bandComplete slot x g node band s) := by
  have can : bandCan node band g = true := by simp [bandCan, begun, kind, inBuffer, fresh, worked]
  simp only [execFlowBandComplete, need, hx, find_among among older can]
end

end Sys2Proof.Machine
end

section
/-!
PROOFS. The end of a graph run and its record (07 R264), and what the events of the frame graphs give.
-/
namespace Sys2Proof.Machine
open Sys2Proof.Say (RunAmong Posts)

/-! ## A record that has room (11 Table 11-10) -/

/-- The fields and the body of a record, whatever sequence number it gets. -/
theorem recBytes_fields (g : Ring) (admin : Bool) (x : Rec) : (recBytes g admin x).length = 32 ∧ fld (recBytes g admin x) 8 1 = x.type % 256 ∧
    fld (recBytes g admin x) 9 1 = x.code % 256 ∧ fld (recBytes g admin x) 10 1 = x.reason % 256 ∧
    slice (recBytes g admin x) 12 20 = fit 20 x.body := by
  obtain ⟨seq, hseq⟩ : ∃ seq, seq = x.seq.getD ((g.nextSeq + 2 ^ 32 - 1) % 2 ^ 32) := ⟨_, rfl⟩
  have numbered : recBytes g admin x = recBytes g admin { x with seq := some seq } := by simp only [recBytes, hseq, Option.getD_some]
  rw [numbered]
  obtain ⟨-, type, code, reason, -⟩ := fld_recBytes g admin { x with seq := some seq } rfl
  obtain ⟨flags, bytes⟩ := recBytes_eq g admin { x with seq := some seq } rfl
  refine ⟨recBytes_length g admin _ rfl, type, code, reason, ?_⟩
  rw [bytes]
  simp [slice, List.drop_append, List.drop_eq_nil_of_le]
/-- A record posted where its ring has room stands at the ring's next place. -/
theorem postOther_posts {slot : Nat} {s m : State} (x : Rec) (kept : KeepsRing (.ctx slot) s m) :
    Posts s (postOther (.ctx slot) x m) slot x.type x.code x.reason x.body := by
  intro y hy roomy canonical running steady b
  have ring : ringOf m (.ctx slot) = some y.ring := kept.ring.trans (congrArg (Option.map Ctx.ring) hy)
  have posted : postOther (.ctx slot) x m = putRecord (.ctx slot) x m := by
    simp [postOther, ring, roomy, postAlways, kept.fw, running, steady]
  obtain ⟨len, fields⟩ := recBytes_fields y.ring (isAdmin (.ctx slot)) x
  have read := Mem.readN_writeN (kept.canonical canonical) (recordAddr y.ring) (recBytes y.ring (isAdmin (.ctx slot)) x)
  rw [len, ← putRecord_hostMem x ring, ← posted] at read
  rw [show b = recBytes y.ring (isAdmin (.ctx slot)) x from read]
  exact fields

/-! ## GRAPH_RUN_END (07 R264) -/

section
variable {s : State} {slot : Nat} {x : Ctx} {l r : List GraphRun} {g : GraphRun}
/-- A context without one of its graph runs. -/
def dropRun (slot id : Nat) (s : State) : State := modCtx slot (fun x => { x with graphRuns := x.graphRuns.filter (·.id != id) }) s
theorem ctxOf_dropRun (hx : ctxOf s slot = some x) (among : RunAmong x l g r) :
    ctxOf (dropRun slot g.id s) slot = some { x with graphRuns := l ++ r } := by
  rw [dropRun, ctxOf_modCtx, if_pos rfl, hx, Option.map_some, filter_among among]
theorem keepsRing_dropRun (slot id : Nat) (s : State) : KeepsRing (.ctx slot) s (dropRun slot id s) :=
  keepsRing_of_sameRings (sameRings_modCtx (g := fun x => { x with graphRuns := x.graphRuns.filter (·.id != id) }) (fun _ => rfl) slot s) slot
theorem exec_graphRunEnd (slot : Nat) (s : State) : exec (.graphRunEnd slot) s = execGraphRunEnd slot s := rfl
theorem execGraphRunEnd_next (hx : liveCtx s slot = some x) (among : RunAmong x l g r) (older : ∀ q ∈ l, graphEnded q = false)
    (ended : ∀ k, k < fgNodes g.graph → k ∈ g.ended) : execGraphRunEnd slot s = .next (if hasHost g.graph then
      postOther (.ctx slot) { type := 7, body := natLe 4 g.render, fence := true, slot := slot, gen := x.gen } (dropRun slot g.id s)
      else dropRun slot g.id s) := by
  have passes : graphEnded g = true := by simpa [graphEnded] using ended
  simp only [execGraphRunEnd, need, hx, find_among among older passes]
  rfl
end

end Sys2Proof.Machine

namespace Sys2Proof.Say
open Sys2Proof.Machine

/-- Each event changes one run of the context (`ctxOf_modGraph`); what a network's run, a slice or a band does beside that leaves the runs
alone. -/
theorem graphsRun_holds : graphsRun := by
  refine ⟨?nodes, ?slices, ?bands, ?ends⟩
  case nodes =>
    intro s slot node x l g r live among older inGraph fresh ready net begun
    have run (idle) := (exec_visionNodeStart slot node s).trans (execVisionNodeStart_next live among older inGraph fresh ready idle)
    have begins : begun (begunRun s slot x g node g) := begunRun_decides
    have ctx := ctxOf_modGraph among (begunRun s slot x g node) (ctxOf_of_liveCtx live)
    refine ⟨fun served => ?_, fun h im network hh him idle => ?_⟩
    · exact ⟨_, (run fun network => absurd network served).trans (congrArg _ (startNode_served served)), rfl,
        fun i hi => ctxOf_modGraph_other _ _ s hi, _, begins, ctx⟩
    · obtain ⟨k, srcs, started, image, why, runs, made⟩ := startNode_network network hh him
      have kept := startRun_keepsFrame slot net k srcs (modGraph slot g.id (begunRun s slot x g node) s)
      obtain ⟨v, hy⟩ := ctxOf_startRun net k srcs ctx
      exact ⟨_, (run fun _ => idle).trans (congrArg _ started), kept.wards, kept.slots, kept.heads, _, _, _, hy, begins, rfl, rfl,
        tget_tput_same _ _ _, image, why, runs, made⟩
  case slices =>
    intro s e he eng
    refine ⟨fun j lc idle next => ?_, fun j x l g r hj inTime hx among own sound => ?_⟩
    · exact ⟨_, (exec_visionSliceBoundary e s).trans (execVisionSliceBoundary_takes he idle next), rfl, fun i hi => engineOf_other rfl rfl hi,
        engineOf_same rfl⟩
    · obtain ⟨q, run⟩ := execVisionSliceBoundary_ends he hj inTime
      obtain ⟨rest, engines, others, a, ctx⟩ := endSlice_effect hj hx sound among own
      exact ⟨_, (exec_visionSliceBoundary e s).trans run, eq_of_sliceless (rest : sliceless (endSlice e s) = sliceless s), others,
        fun i hi => engineOf_other rfl engines hi, _, ctx, rfl, rfl⟩
  case bands =>
    intro s slot node band x l g r live among older begun nd out kind inBuffer fresh worked rs first latches
    obtain ⟨rest, others, y, ctx, runs⟩ := bandComplete_runs (node := node) (band := band) (ctxOf_of_liveCtx live) among
    obtain ⟨-, shown⟩ := bandComplete_effect slot x g node band s
    refine ⟨_, (exec_flowBandComplete slot node band s).trans (execFlowBandComplete_next live among older begun kind inBuffer fresh worked),
      eq_of_bandless rest, others, y, _, ctx, runs, congrArg (Option.getD · 0) (tget_tput_same ..), rfl, ?ended, fun i hi => ?records,
      fun motionOut => shown motionOut y ctx⟩
    case ended =>
      simp only [bandedRun, beq_iff_eq]
      rfl
    case records =>
      have place : bandFirst g node band = first := by simp only [bandFirst, beq_iff_eq]; rfl
      rw [← place]
      exact (congrArg (fun o => (Option.getD o []).getD _ 0) (tget_tput_same ..)).trans (writeRecs_getD _ _ rs hi)
  case ends =>
    intro s slot x l g r live among older ended
    have run := (exec_graphRunEnd slot s).trans (execGraphRunEnd_next live among older ended)
    have dropped := ctxOf_dropRun (ctxOf_of_liveCtx live) among
    refine ⟨fun own => ?_, fun host => ?_⟩
    · rw [own] at run
      exact ⟨_, run, rfl, fun i hi => tget_tmod_other _ _ _ _ hi, dropped⟩
    · rw [host] at run
      have posted := recordless_postOther (.ctx slot)
        { type := 7, body := natLe 4 g.render, fence := true, slot := slot, gen := x.gen } (dropRun slot g.id s)
      refine ⟨_, run, (congrArg State.wards posted :), (tables_of_recordless posted).1,
        (ctx_map_of_recordless (v := Ctx.graphRuns) (fun _ => rfl) posted slot).trans (congrArg (Option.map _) dropped),
        postOther_posts _ (keepsRing_dropRun ..)⟩

end Sys2Proof.Say
end

section
/-!
PROOFS. The commands of frame graphs and networks: GRAPH_LOAD, GRAPH_UNLOAD and AUX_RUN (07 R258–R265; 11 Table 11-8).
-/
namespace Sys2Proof.Machine
open Sys2Proof.Say (Answered AnsweredWith)

/-! ## Answers -/

section
variable {s m : State} {slot seq op : Nat} {c : Cmd} {x : Ctx}
/-- An answer with its RESULT, where a record is written. -/
theorem complete_answeredWith {r : RingRef} (code reason : Nat) (result : Bytes) (hc : readyCmd r seq op s = some c) (kept : KeepsRing r s m) :
    AnsweredWith s (complete r seq code reason result m) r c code reason result := by
  refine ⟨complete_answered_after code reason result hc kept, fun g hg hlost hwf loud => ?_⟩
  obtain ⟨hcmd, running, steady⟩ := readyCmd_some hc
  have recorded : ¬ (entQuiet c.entry = true ∧ code = 0) := by
    rintro ⟨quiet, ok⟩
    simp [quiet, ok] at loud
  obtain ⟨q, hmem⟩ := complete_hostMem code reason result ((cmdOf_of_keepsRing kept seq).trans hcmd) (kept.fw ▸ running) (kept.fw ▸ steady)
    (kept.ring.trans hg) hlost recorded
  have read := Mem.readN_writeN (kept.canonical hwf) (recordAddr g) (recBytes q (isAdmin r) (completion m r c seq code reason result))
  rw [recBytes_length _ _ _ rfl, ← hmem] at read
  exact (congrArg (slice · 16 16) read).trans (slice_completion q m r c seq code reason result)
/-- An answer leaves the wards, the slots, and what its context has beside its records. -/
theorem complete_leaves {β : Type} {v : Ctx → β} {b : β} (hv : ∀ x, v (unposted x) = v x) (code reason : Nat) (result : Bytes)
    (wards : m.wards = s.wards) (slots : m.slots = s.slots) (hb : (ctxOf m slot).map v = some b) :
    let n := complete (.ctx slot) seq code reason result m
    n.wards = s.wards ∧ n.slots = s.slots ∧ (ctxOf n slot).map v = some b :=
  ⟨(complete_wards ..).trans wards, (complete_slots ..).trans slots,
    (ctx_map_of_recordless hv (recordless_complete (.ctx slot) seq code reason result m) slot).trans hb⟩

/-! ## GRAPH_LOAD and GRAPH_UNLOAD -/

theorem exec_graphLoad (slot seq : Nat) (s : State) : exec (.graphLoad slot seq) s = execGraphLoad slot seq s := rfl
theorem exec_graphUnload (slot seq : Nat) (s : State) : exec (.graphUnload slot seq) s = execGraphUnload slot seq s := rfl
theorem exec_auxRun (slot seq : Nat) (s : State) : exec (.auxRun slot seq) s = execAuxRun slot seq s := rfl

/-- A context that takes up a graph from the next packet. -/
def takeGraph (now : Nat) (g : Bytes) (x : Ctx) : Ctx :=
  { noteGraph now x with graph := some g, graphDigest := if cbDigest x.cfg then some (sha256 g) else none, bandLatches := graphLatches g }
/-- A context that gives its graph up. -/
def leaveGraph (now : Nat) (x : Ctx) : Ctx := { noteGraph now x with graph := none, graphDigest := none, bandLatches := 0 }
theorem noteGraph_ring (now : Nat) (x : Ctx) : (noteGraph now x).ring = x.ring := by
  unfold noteGraph
  split <;> rfl
theorem noteGraph_graphRuns (now : Nat) (x : Ctx) : (noteGraph now x).graphRuns = x.graphRuns := by
  unfold noteGraph
  split <;> rfl
theorem takeGraph_view (now : Nat) (g : Bytes) (x : Ctx) :
    ((takeGraph now g x).graph, (takeGraph now g x).bandLatches, (takeGraph now g x).graphRuns) = (some g, graphLatches g, x.graphRuns) :=
  congrArg (fun l => (some g, graphLatches g, l)) (noteGraph_graphRuns now x)
theorem leaveGraph_view (now : Nat) (x : Ctx) :
    ((leaveGraph now x).graph, (leaveGraph now x).bandLatches, (leaveGraph now x).graphRuns) = (none, 0, x.graphRuns) :=
  congrArg (fun l => (none, 0, l)) (noteGraph_graphRuns now x)

theorem graphLoadGo_builtIn (flow : cbFlow x.cfg = true) :
    graphLoadGo slot seq c x s = complete (.ctx slot) seq kConflict 0x04 [] (chargeHost slot (entArg c.entry 0) 0 s) := if_pos flow
theorem graphLoadGo_engineless (flow : cbFlow x.cfg = false) (engines : (wardOf s x.ward).cfg.flowMask = 0) :
    graphLoadGo slot seq c x s = complete (.ctx slot) seq kConflict 0x05 [] (chargeHost slot (entArg c.entry 0) 0 s) :=
  (if_neg (by simp [flow])).trans (if_pos engines)
theorem graphLoadGo_rejects {reason i : Nat} (flow : cbFlow x.cfg = false) (engines : (wardOf s x.ward).cfg.flowMask ≠ 0)
    (bad : graphReject s x (hostRead s (entAddr0 c.entry) (entArg c.entry 0)) (entArg c.entry 0) = some (reason, i)) :
    graphLoadGo slot seq c x s = complete (.ctx slot) seq kGraphRejected reason (natLe 4 i) (chargeHost slot (entArg c.entry 0) 0 s) := by
  simp only [graphLoadGo, flow, Bool.false_eq_true, if_false, engines, bad]
theorem graphLoadGo_takes (flow : cbFlow x.cfg = false) (engines : (wardOf s x.ward).cfg.flowMask ≠ 0)
    (good : graphReject s x (hostRead s (entAddr0 c.entry) (entArg c.entry 0)) (entArg c.entry 0) = none)
    (room : latchesUsed s x.ward - x.bandLatches + graphLatches (hostRead s (entAddr0 c.entry) (entArg c.entry 0)) ≤
      64 * (wardOf s x.ward).cfg.latches) :
    graphLoadGo slot seq c x s = completeOk (.ctx slot) seq []
      (modCtx slot (takeGraph s.now (hostRead s (entAddr0 c.entry) (entArg c.entry 0))) (chargeHost slot (entArg c.entry 0) 0 s)) := by
  simp only [graphLoadGo, flow, Bool.false_eq_true, if_false, engines, good, Nat.not_lt.mpr room]
  rfl
theorem ctxOf_chargeHost (len tx : Nat) (hx : ctxOf s slot = some x) : ∃ a, ctxOf (chargeHost slot len tx s) slot = some { x with acct := a } :=
  ⟨_, (ctxOf_modCtx ..).trans ((if_pos rfl).trans (congrArg _ hx))⟩
theorem sameRings_takeGraph (now : Nat) (g : Bytes) (s : State) : SameRings s (modCtx slot (takeGraph now g) s) :=
  sameRings_modCtx (g := takeGraph now g) (fun x => noteGraph_ring now x) slot s
theorem sameRings_leaveGraph (now : Nat) (s : State) : SameRings s (modCtx slot (leaveGraph now) s) :=
  sameRings_modCtx (g := leaveGraph now) (fun x => noteGraph_ring now x) slot s

theorem graphUnloadGo_without (unloaded : x.graph = none) : graphUnloadGo slot seq c x s = complete (.ctx slot) seq kBadState 0x03 [] s := by
  simp [graphUnloadGo, unloaded, fail]
theorem graphUnloadGo_leaves (loaded : x.graph ≠ none) :
    graphUnloadGo slot seq c x s = completeOk (.ctx slot) seq [] (modCtx slot (leaveGraph s.now) s) := by
  refine (if_neg ?_).trans rfl
  simpa using loaded

/-! ## AUX_RUN -/

/-- The bytes of the tensor that a network of an image reads from ward memory, and of the one that it writes there. -/
def auxIn (b : Bytes) (n : Net) : Nat :=
  ((((((layersOf b).drop n.first).take n.count).flatMap layerReads).map (tn (tensorsOf b))).find? (fun t => t.src == 0x40)).map streamBytes |>.getD 0
def auxOut (b : Bytes) (n : Net) : Nat :=
  (((((layersOf b).drop n.first).take n.count).map (fun l => tn (tensorsOf b) l.out)).find? (fun t => t.src == 0x41)).map streamBytes |>.getD 0
/-- AUX_RUN names an AUXILIARY network of the image and addresses of the context. -/
def AuxNamed (s : State) (slot : Nat) (c : Cmd) (x : Ctx) (b : Bytes) (net : Nat) : Prop :=
  net < (netsOf b).length ∧ ((netsOf b).getD net {}).role = 4 ∧
    ctxMapped (wardOf s x.ward) slot (entAddr0 c.entry) (auxIn b ((netsOf b).getD net {})) false = true ∧
    ctxMapped (wardOf s x.ward) slot (entAddr1 c.entry) (auxOut b ((netsOf b).getD net {})) true = true

theorem execAuxRun_next (hc : readyCmd (.ctx slot) seq 0x2C s = some c) (hx : ctxOf s slot = some x) (fresh : c.started = false)
    (idle : ∀ r ∈ x.runs, r.1 = entArg c.entry 0 → r.2.running = false) :
    execAuxRun slot seq s = .next (auxRunGo slot seq (entArg c.entry 0) c x s) := by
  have free : x.runs.any (fun r => r.1 == entArg c.entry 0 && r.2.running) = false := by
    simp only [List.any_eq_false, Bool.and_eq_true, beq_iff_eq, not_and]
    exact fun r hr own => by simp [idle r hr own]
  simp only [execAuxRun, need, hc, hx, guardThat, fresh, free, Bool.not_false, Bool.and_self, if_true]
theorem auxRunGo_unbound (net : Nat) (unbound : x.image = none) :
    auxRunGo slot seq net c x s = complete (.ctx slot) seq kBadState 0x01 [] s := by
  simp only [auxRunGo, unbound, Option.bind_none, fail]
section
variable {net h : Nat} {im : Image}
theorem auxRunGo_refuses (hh : x.image = some h) (him : tget (wardOf s x.ward).images h = some im) (bad : ¬ AuxNamed s slot c x im.bytes net) :
    auxRunGo slot seq net c x s = complete (.ctx slot) seq kBadState 0x03 [] s := by
  simp only [auxRunGo, hh, him, Option.bind_some, Option.map_some]
  refine if_pos ?_
  by_contra named
  simp only [not_or, Nat.not_le, not_not, Bool.not_eq_true', Bool.not_eq_false] at named
  exact bad named
/-- The command begins a run of the network, and is started. -/
theorem auxRunGo_runs (hh : x.image = some h) (him : tget (wardOf s x.ward).images h = some im) (named : AuxNamed s slot c x im.bytes net) :
    ∃ r srcs rd, auxRunGo slot seq net c x s =
      startRun slot net r srcs (chargeVault slot rd 0 (modCmd (.ctx slot) seq (fun c => { c with started := true }) s)) ∧
      r.image = h ∧ r.why = .command seq ∧ r.running = true := by
  obtain ⟨inImage, role, readable, writable⟩ := named
  simp only [auxRunGo, hh, him, Option.bind_some, Option.map_some]
  refine ⟨_, _, _, if_neg ?_, rfl, rfl, rfl⟩
  simp only [not_or, Nat.not_le, not_not, Bool.not_eq_true', Bool.not_eq_false]
  exact ⟨inImage, role, readable, writable⟩
/-- The start of a run leaves the context's commands in flight. -/
theorem cmdOf_startRun (r : NetRun) (srcs : NEnv → NEnv) (hx : ctxOf s slot = some x) (q : Nat) :
    cmdOf (startRun slot net r srcs s) (.ctx slot) q = cmdOf s (.ctx slot) q := by
  obtain ⟨v, hy⟩ := ctxOf_startRun net r srcs hx
  have ring : ringOf (startRun slot net r srcs s) (.ctx slot) = ringOf s (.ctx slot) :=
    (congrArg (Option.map Ctx.ring) hy).trans (congrArg (Option.map Ctx.ring) hx).symm
  exact congrArg (Option.bind · _) ring
theorem chargeVault_keepsFrame (slot rd wr : Nat) (s : State) : KeepsFrame slot s (chargeVault slot rd wr s) := modAcct_keepsFrame slot _ s
/-- A state in which a command has begun a run of a network. -/
theorem auxRun_begins {r : NetRun} {srcs : NEnv → NEnv} {rd : Nat} (hx : ctxOf s slot = some x) (hc : cmdOf s (.ctx slot) seq = some c) :
    let n := startRun slot net r srcs (chargeVault slot rd 0 (modCmd (.ctx slot) seq (fun c => { c with started := true }) s))
    n.wards = s.wards ∧ n.slots = s.slots ∧ n.heads = s.heads ∧ cmdOf n (.ctx slot) seq = some { c with started := true } ∧
      ∃ y v, ctxOf n slot = some y ∧ y.fr = x.fr ∧ tget y.runs net = some { r with vals := v } := by
  have marked : KeepsFrame slot s (modCmd (.ctx slot) seq (fun c => { c with started := true }) s) := modRing_keepsFrame slot _ s
  have begun := marked.trans (chargeVault_keepsFrame slot rd 0 _)
  obtain ⟨z, hz, side⟩ := begun.ctx_some hx
  obtain ⟨v, hy⟩ := ctxOf_startRun net r srcs hz
  have kept := begun.trans (startRun_keepsFrame slot net r srcs _)
  refine ⟨kept.wards, kept.slots, kept.heads, ?_, _, v, hy, (congrArg Ctx.fr side :), tget_tput_same _ _ _⟩
  rw [cmdOf_startRun r srcs hz, cmdOf_of_keepsRing (keepsRing_chargeVault ..), cmdOf_modCmd (f := fun c => { c with started := true }) (fun _ => rfl), hc]
  rfl
end
end

end Sys2Proof.Machine

namespace Sys2Proof.Say
open Sys2Proof.Machine

/-- Each command answers from the state that it leaves, or begins a run. -/
theorem graphCommands_holds : graphCommands := by
  intro s slot seq c x hx
  refine ⟨fun hc => ?load, fun hc => ?unload, fun hc fresh => ?aux⟩
  case load =>
    intro len g keeps
    have run := (exec_graphLoad slot seq s).trans (ctxCommand_next (graphLoadGo slot seq) hc hx)
    have charged := keepsRing_chargeHost slot slot len 0 s
    obtain ⟨a, hm⟩ := ctxOf_chargeHost len 0 hx
    have leaves (code reason : Nat) (result : Bytes) : keeps (complete (.ctx slot) seq code reason result (chargeHost slot len 0 s)) :=
      complete_leaves (v := Ctx.graph) (fun _ => rfl) code reason result rfl rfl (congrArg (Option.map Ctx.graph) hm)
    refine ⟨fun flow => ?_, fun flow engines => ?_, fun flow engines => ⟨fun reason i bad => ?_, fun good room => ?_⟩⟩
    · exact ⟨_, run.trans (congrArg _ (graphLoadGo_builtIn flow)), complete_answered_after _ _ _ hc charged, leaves ..⟩
    · exact ⟨_, run.trans (congrArg _ (graphLoadGo_engineless flow engines)), complete_answered_after _ _ _ hc charged, leaves ..⟩
    · exact ⟨_, run.trans (congrArg _ (graphLoadGo_rejects flow engines bad)), complete_answeredWith _ _ _ hc charged, leaves ..⟩
    · refine ⟨_, run.trans (congrArg _ (graphLoadGo_takes flow engines good room)),
        complete_answered_after 0 0 [] hc (charged.trans (keepsRing_of_sameRings (sameRings_takeGraph ..) slot)),
        complete_leaves (v := fun y => (y.graph, y.bandLatches, y.graphRuns)) (fun _ => rfl) 0 0 [] rfl rfl ?_⟩
      rw [ctxOf_modCtx, if_pos rfl, hm]
      exact congrArg some (takeGraph_view ..)
  case unload =>
    have run := (exec_graphUnload slot seq s).trans (ctxCommand_next (graphUnloadGo slot seq) hc hx)
    refine ⟨fun unloaded => ?_, fun loaded => ?_⟩
    · exact ⟨_, run.trans (congrArg _ (graphUnloadGo_without unloaded)), complete_answered_after _ _ _ hc (.refl _ s), complete_wards ..⟩
    · refine ⟨_, run.trans (congrArg _ (graphUnloadGo_leaves loaded)),
        complete_answered_after 0 0 [] hc (keepsRing_of_sameRings (sameRings_leaveGraph ..) slot),
        complete_leaves (v := fun y => (y.graph, y.bandLatches, y.graphRuns)) (fun _ => rfl) 0 0 [] rfl rfl ?_⟩
      rw [ctxOf_modCtx, if_pos rfl, hx]
      exact congrArg some (leaveGraph_view ..)
  case aux =>
    intro net idle
    have run := (exec_auxRun slot seq s).trans (execAuxRun_next hc hx fresh idle)
    refine ⟨fun unbound => ?_, fun h im hh him => ?_⟩
    · exact ⟨_, run.trans (congrArg _ (auxRunGo_unbound _ unbound)), complete_answered_after _ _ _ hc (.refl _ s), complete_wards ..⟩
    · intro rec_ ts ls ins outs ok
      have named : ok ↔ AuxNamed s slot c x im.bytes net := Iff.rfl
      refine ⟨fun bad => ?_, fun good => ?_⟩
      · exact ⟨_, run.trans (congrArg _ (auxRunGo_refuses hh him (mt named.mpr bad))), complete_answered_after _ _ _ hc (.refl _ s),
          complete_wards ..⟩
      · obtain ⟨r, srcs, rd, begins, image, why, runs⟩ := auxRunGo_runs (seq := seq) hh him (named.mp good)
        obtain ⟨wards, slots, heads, started, y, v, hy, fr, hr⟩ :=
          auxRun_begins (net := net) (r := r) (srcs := srcs) (rd := rd) hx (readyCmd_some hc).1
        exact ⟨_, run.trans (congrArg _ begins), wards, slots, heads, started, y, _, hy, fr, hr, image, why, runs⟩

end Sys2Proof.Say
namespace Sys2Proof.Machine
open Sys2Proof.Say

/-- Settles O42: each event changes one run of its context (`ctxOf_modGraph`), and each command answers or begins a run
(`ctxOf_startRun`); what it does beside that leaves the runs and the rest of the device alone. -/
theorem vision : Obligations.Vision := ⟨graphsRun_holds, graphCommands_holds⟩

end Sys2Proof.Machine
end

section
/-!
PROOFS. One head beside the device (09 R319, R344): what leaves every head, what sets one of them, and the answers of commands that Phipel
holds in flight.
-/
namespace Sys2Proof.Machine
open Sys2Proof.Say (AnsweredWith Result HeadOnly HingeSide)

/-! ## What leaves the heads -/

/-- Wards, slots, tasks, the tap and every head stand. -/
structure KeepsHeads (s n : State) : Prop where
  wards : n.wards = s.wards
  slots : n.slots = s.slots
  tasks : n.tasks = s.tasks
  tap : n.tap = s.tap
  heads : n.heads = s.heads
theorem KeepsHeads.refl (s : State) : KeepsHeads s s := ⟨rfl, rfl, rfl, rfl, rfl⟩
theorem KeepsHeads.trans {s m n : State} (a : KeepsHeads s m) (b : KeepsHeads m n) : KeepsHeads s n :=
  ⟨b.wards.trans a.wards, b.slots.trans a.slots, b.tasks.trans a.tasks, b.tap.trans a.tap, b.heads.trans a.heads⟩
theorem KeepsHeads.head {s n : State} (h : KeepsHeads s n) (i : Nat) : headOf n i = headOf s i := congrArg (fun t : Table Head => tgetD t i {}) h.heads

/-- Records leave the heads. -/
theorem keepsHeads_of_recordless {s n : State} (h : recordless n = recordless s) : KeepsHeads s n := by
  obtain ⟨slots, heads, tasks⟩ := tables_of_recordless h
  exact ⟨(congrArg State.wards h :), slots, tasks, (congrArg State.tap h :), heads⟩
theorem keepsHeads_complete (r : RingRef) (seq code reason : Nat) (result : Bytes) (s : State) :
    KeepsHeads s (complete r seq code reason result s) := keepsHeads_of_recordless (recordless_complete ..)
theorem keepsHeads_postOther (r : RingRef) (x : Rec) (s : State) : KeepsHeads s (postOther r x s) :=
  keepsHeads_of_recordless (recordless_postOther ..)
theorem keepsHeads_modCtx (slot : Nat) (g : Ctx → Ctx) (s : State) : KeepsHeads s (modCtx slot g s) := ⟨rfl, rfl, rfl, rfl, rfl⟩
theorem keepsHeads_hostWrite (a : Nat) (b : Bytes) (s : State) : KeepsHeads s (hostWrite a b s) := ⟨rfl, rfl, rfl, rfl, rfl⟩
theorem keepsHeads_of_hingeSide {s n : State} (h : HingeSide s n) : KeepsHeads s n := by
  rw [h]
  exact ⟨rfl, rfl, rfl, rfl, rfl⟩

/-! ## What sets one head -/

/-- One head is set to h; the others, and wards, slots, tasks and the tap, stand. -/
structure SetsHead (head : Nat) (h : Head) (s n : State) : Prop where
  only : HeadOnly s n head
  eq : headOf n head = h

section
variable {head : Nat} {h k : Head} {s m n : State}

theorem setsHead_modHead (head : Nat) (g : Head → Head) (s : State) : SetsHead head (g (headOf s head)) s (modHead head g s) :=
  ⟨⟨rfl, rfl, rfl, rfl, fun i hi => by rw [headOf_modHead, if_neg hi]⟩, by rw [headOf_modHead, if_pos rfl]⟩
theorem KeepsHeads.setsHead (a : KeepsHeads s n) (head : Nat) : SetsHead head (headOf s head) s n :=
  ⟨⟨a.wards, a.slots, a.tasks, a.tap, fun i _ => a.head i⟩, a.head head⟩
theorem SetsHead.trans (a : SetsHead head h s m) (b : SetsHead head k m n) : SetsHead head k s n := by
  obtain ⟨⟨wards, slots, tasks, tap, heads⟩, -⟩ := a
  obtain ⟨⟨wards', slots', tasks', tap', heads'⟩, eq⟩ := b
  exact ⟨⟨wards'.trans wards, slots'.trans slots, tasks'.trans tasks, tap'.trans tap, fun i hi => (heads' i hi).trans (heads i hi)⟩, eq⟩
/-- What follows leaves the head as it was set. -/
theorem SetsHead.keep (a : SetsHead head h s m) (b : KeepsHeads m n) : SetsHead head h s n :=
  ⟨(a.trans (b.setsHead head)).only, (b.head head).trans a.eq⟩
theorem SetsHead.complete (a : SetsHead head h s m) (r : RingRef) (seq code reason : Nat) (result : Bytes) :
    SetsHead head h s (complete r seq code reason result m) := a.keep (keepsHeads_complete ..)
/-- A head that has been set is changed. -/
theorem SetsHead.modHead (a : SetsHead head h s m) (g : Head → Head) : SetsHead head (g h) s (modHead head g m) :=
  a.eq ▸ a.trans (setsHead_modHead head g m)
end

/-! ## Answers of commands in flight (11 R397, R402) -/

theorem keepsRing_modHead (r : RingRef) (head : Nat) (g : Head → Head) (s : State) : KeepsRing r s (modHead head g s) := by
  refine ⟨?_, rfl, id⟩
  cases r <;> rfl
theorem keepsRing_modCtx {g : Ctx → Ctx} (hg : ∀ x, (g x).ring = x.ring) (slot : Nat) (s : State) : KeepsRing (.ctx slot) s (modCtx slot g s) :=
  keepsRing_of_sameRings (sameRings_modCtx hg slot s) slot

/-- After its answer no command with the SEQ is in flight. -/
theorem complete_gone (r : RingRef) (seq code reason : Nat) (result : Bytes) (s : State) : cmdOf (complete r seq code reason result s) r seq = none := by
  cases hc : cmdOf s r seq with
  | none => rw [complete_of_none code reason result hc, hc]
  | some c => exact cmdOf_complete code reason result hc

/-- A command is in flight, and Phipel answers it. -/
structure Served (s : State) (r : RingRef) (c : Cmd) : Prop where
  cmd : cmdOf s r c.seq = some c
  running : s.fw.running = true
  steady : s.fw.switching = false
/-- A command in flight that has had its effect is answered as it was fetched. -/
theorem Served.answeredWith {s m : State} {r : RingRef} {c : Cmd} (h : Served s r c) (code reason : Nat) (result : Bytes) (kept : KeepsRing r s m) :
    AnsweredWith s (complete r c.seq code reason result m) r c code reason result := by
  obtain ⟨cmd, running, steady⟩ := h
  have cmd' : cmdOf m r c.seq = some c := (cmdOf_of_keepsRing kept c.seq).trans cmd
  have answered := complete_answered code reason result cmd' (kept.fw ▸ running) (kept.fw ▸ steady)
  refine ⟨⟨answered.gone, fun g hg hlost hwf => answered.record g (kept.ring.trans hg) hlost (kept.canonical hwf)⟩, fun g hg hlost hwf loud => ?_⟩
  have recorded : ¬ (entQuiet c.entry = true ∧ code = 0) := by
    rintro ⟨quiet, ok⟩
    simp [quiet, ok] at loud
  obtain ⟨q, hmem⟩ := complete_hostMem code reason result cmd' (kept.fw ▸ running) (kept.fw ▸ steady) (kept.ring.trans hg) hlost recorded
  have read := Mem.readN_writeN (kept.canonical hwf) (recordAddr g) (recBytes q (isAdmin r) (completion m r c c.seq code reason result))
  rw [recBytes_length _ _ _ rfl, ← hmem] at read
  exact (congrArg (slice · 16 16) read).trans (slice_completion q m r c c.seq code reason result)
theorem Served.result {s m : State} {r : RingRef} {c : Cmd} (h : Served s r c) (result : Bytes) (kept : KeepsRing r s m) :
    Result s (completeOk r c.seq result m) r c result := by
  obtain ⟨answered, shown⟩ := h.answeredWith 0 0 result kept
  exact ⟨answered, fun g hg hlost hwf loud => shown g hg hlost hwf (.inr loud)⟩

end Sys2Proof.Machine
end

section
/-!
PROOFS. Heads: HEAD_CONFIG and link training, links, HEAD_QUERY and the tap (09 R319–R321, R336–R338).
-/
namespace Sys2Proof.Machine

/-! ## HEAD_CONFIG (09 R320) -/

theorem exec_headConfig (fn seq : Nat) (s : State) : exec (.headConfig fn seq) s = execHeadConfig fn seq s := rfl
theorem execHeadConfig_next {fn seq : Nat} {s : State} {c : Cmd} (hc : readyCmd (.admin fn) seq 0x08 s = some c) (fresh : c.started = false) :
    execHeadConfig fn seq s = .next (headConfigGo fn seq (hostRead s (entAddr0 c.entry) 128) s) := by
  simp [execHeadConfig, need, guardThat, hc, fresh]

/-- The sink's report draws a free value at most. -/
theorem noteSink_eq (b : Bytes) (s : State) : ∃ k, noteSink b s = { s with free := k } := by
  unfold noteSink
  split
  · exact ⟨_, rfl⟩
  · exact ⟨_, rfl⟩

section
variable {fn seq : Nat} {b : Bytes} {s : State}
theorem keepsRing_noteSink (r : RingRef) (b : Bytes) (s : State) : KeepsRing r s (noteSink b s) := by
  obtain ⟨k, h⟩ := noteSink_eq b s
  rw [h]
  exact ⟨by cases r <;> rfl, rfl, id⟩
theorem keepsHeads_noteSink (b : Bytes) (s : State) : KeepsHeads s (noteSink b s) := by
  obtain ⟨k, h⟩ := noteSink_eq b s
  rw [h]
  exact ⟨rfl, rfl, rfl, rfl, rfl⟩
theorem headConflict_noteSink (b c : Bytes) (s : State) : headConflict (noteSink c s) b = headConflict s b := by
  obtain ⟨k, h⟩ := noteSink_eq c s
  rw [h]
  rfl

theorem headConfigGo_badField {off : Nat} (bad : headBlockBad (headInWard s fn (hbHead b)) b = some off) :
    headConfigGo fn seq b s = complete (.admin fn) seq kBadConfig ccValue (natLe 4 off) (noteSink b s) := by
  simp only [headConfigGo, bad, Option.orElse_some]
theorem headConfigGo_noAdaptive (good : headBlockBad (headInWard s fn (hbHead b)) b = none) (sink : noAdaptive s b = true) :
    headConfigGo fn seq b s = complete (.admin fn) seq kBadConfig ccValue (natLe 4 0x03) (noteSink b s) := by
  simp only [headConfigGo, good, sink, if_true, Option.orElse_none]
theorem headConfigGo_fixed (good : headBlockBad (headInWard s fn (hbHead b)) b = none) (sink : noAdaptive s b = false)
    (changed : fixedChanged (headOf s (hbHead b)) b = true) : headConfigGo fn seq b s = fail (.admin fn) seq kBadState 0x02 (noteSink b s) := by
  simp only [headConfigGo, good, sink, Option.orElse_none, Bool.false_eq_true, if_false, (keepsHeads_noteSink b s).head, changed, if_true]
theorem headConfigGo_conflict {k : Nat} (good : headBlockBad (headInWard s fn (hbHead b)) b = none) (sink : noAdaptive s b = false)
    (same : fixedChanged (headOf s (hbHead b)) b = false) (conflict : headConflict s b = some k) :
    headConfigGo fn seq b s = fail (.admin fn) seq kConflict k (noteSink b s) := by
  simp only [headConfigGo, good, sink, Option.orElse_none, Bool.false_eq_true, if_false, (keepsHeads_noteSink b s).head, same,
    headConflict_noteSink, conflict]
/-- An accepted block: a physical head trains its link first. -/
theorem headConfigGo_accepts (good : headBlockBad (headInWard s fn (hbHead b)) b = none) (sink : noAdaptive s b = false)
    (same : fixedChanged (headOf s (hbHead b)) b = false) (clear : headConflict s b = none) :
    headConfigGo fn seq b s =
      if 1024 ≤ hbHead b then modCmd (.admin fn) seq (fun c => { c with started := true, block := b, aux := hbHead b }) (noteSink b s)
      else completeOk (.admin fn) seq (natLe 4 0) (acceptHead (hbHead b) b (noteSink b s)) := by
  simp only [headConfigGo, good, sink, Option.orElse_none, Bool.false_eq_true, if_false, (keepsHeads_noteSink b s).head, same,
    headConflict_noteSink, clear]
end

/-- A head with an accepted block: in force at once where it had none, and at the next period start otherwise. -/
def accepted (now : Nat) (b : Bytes) (h : Head) : Head :=
  if h.cfg.isSome then { h with pendingCfg := some b } else { h with cfg := some b, nextStart := now, sliceCredits := hbEntryCount b }
theorem acceptHead_eq (head : Nat) (b : Bytes) (s : State) : acceptHead head b s = modHead head (accepted (nowHead s) b) s := rfl
theorem accepted_ctx (now : Nat) (b : Bytes) (h : Head) : (accepted now b h).ctx = h.ctx := by
  unfold accepted
  split <;> rfl
theorem accepted_linkUp (now : Nat) (b : Bytes) (h : Head) : (accepted now b h).linkUp = h.linkUp := by
  unfold accepted
  split <;> rfl

/-! ## Links (09 R336, R337) -/

/-- A head whose link is up. -/
def linked (q : LinkResult) (h : Head) : Head := { h with linkUp := true, lanes := q.lanes, rate := q.rate }
/-- A head whose link is down. -/
def unlinked (h : Head) : Head := { h with linkUp := false }
theorem unlinked_of_down {h : Head} (down : h.linkUp = false) : unlinked h = h := by
  unfold unlinked
  rw [← down]

theorem keepsHeads_postLink (head reason lanes rate : Nat) (s : State) : KeepsHeads s (postLink head reason lanes rate s) := by
  unfold postLink
  split
  · exact keepsHeads_postOther ..
  · exact .refl s
theorem postLink_unbound {head : Nat} {s : State} (reason lanes rate : Nat) (unbound : (headOf s head).ctx = none) :
    postLink head reason lanes rate s = s := by
  simp only [postLink, unbound]
theorem headOf_modHead_same (head : Nat) (g : Head → Head) (s : State) : headOf (modHead head g s) head = g (headOf s head) := by
  rw [headOf_modHead, if_pos rfl]

section
variable {head : Nat} {s : State}
theorem linkRise_sets (head : Nat) (q : LinkResult) (s : State) : SetsHead head (linked q (headOf s head)) s (linkRise head q s) := by
  have raised : SetsHead head (linked q (headOf s head)) s (modHead head (linked q) s) := setsHead_modHead ..
  unfold linkRise
  dsimp only
  split
  · exact raised
  · exact raised.keep (keepsHeads_postLink ..)
/-- A link that comes up is not reported where no context is bound, nor where it was up before. -/
theorem linkRise_quiet (q : LinkResult) (quiet : (headOf s head).ctx = none ∨ (headOf s head).linkUp = true) :
    linkRise head q s = modHead head (linked q) s := by
  unfold linkRise
  dsimp only
  split
  · rfl
  · next down =>
    have unbound : (headOf (modHead head (linked q) s) head).ctx = none := by
      rw [headOf_modHead_same]
      exact quiet.resolve_right down
    exact postLink_unbound _ _ _ unbound
theorem linkFall_sets (head : Nat) (s : State) : SetsHead head (unlinked (headOf s head)) s (linkFall head s) := by
  unfold linkFall
  dsimp only
  split
  · exact (setsHead_modHead head unlinked s).keep (keepsHeads_postLink ..)
  · next down => exact (unlinked_of_down (Bool.eq_false_of_not_eq_true down)).symm ▸ (KeepsHeads.refl s).setsHead head
theorem linkFall_unbound (unbound : (headOf s head).ctx = none) :
    linkFall head s = if (headOf s head).linkUp then modHead head unlinked s else s := by
  have unbound' : (headOf (modHead head unlinked s) head).ctx = none := by rw [headOf_modHead_same]; exact unbound
  unfold linkFall
  dsimp only
  split
  · exact postLink_unbound _ _ _ unbound'
  · rfl
theorem linkFall_down (down : (headOf s head).linkUp = false) : linkFall head s = s := by
  simp only [linkFall, down, Bool.false_eq_true, if_false]
theorem keepsRing_linkFall (r : RingRef) (lost : (headOf s head).ctx = none ∨ (headOf s head).linkUp = false) : KeepsRing r s (linkFall head s) := by
  rcases lost with unbound | down
  · rw [linkFall_unbound unbound]
    split
    · exact keepsRing_modHead ..
    · exact .refl r s
  · rw [linkFall_down down]
    exact .refl r s

/-! ## The end of link training (09 R337) -/

theorem exec_dpLinkTrainingEnd (head : Nat) (q : LinkResult) (s : State) : exec (.dpLinkTrainingEnd head q) s = execDpLinkTrainingEnd head q s := rfl
theorem execDpLinkTrainingEnd_next {fn : Nat} {c : Cmd} (q : LinkResult) (served : keeperServes s = true) (hc : trainingCmd s head = some (fn, c)) :
    execDpLinkTrainingEnd head q s = .next (trainingEnd head fn c q s) := by
  simp [execDpLinkTrainingEnd, need, guardThat, served, hc]
theorem trainingEnd_conflict {fn k : Nat} {c : Cmd} (q : LinkResult) (conflict : headConflict s c.block = some k) :
    trainingEnd head fn c q s = fail (.admin fn) c.seq kConflict k s := by
  simp only [trainingEnd, conflict]
theorem trainingEnd_fixed {fn : Nat} {c : Cmd} (q : LinkResult) (clear : headConflict s c.block = none)
    (changed : fixedChanged (headOf s head) c.block = true) : trainingEnd head fn c q s = fail (.admin fn) c.seq kBadState 0x02 s := by
  simp only [trainingEnd, clear, changed, if_true]
theorem trainingEnd_ends {fn : Nat} {c : Cmd} (q : LinkResult) (clear : headConflict s c.block = none)
    (same : fixedChanged (headOf s head) c.block = false) : trainingEnd head fn c q s =
      if q.ok then completeOk (.admin fn) c.seq (natLe 4 1) (linkRise head q (acceptHead head c.block s))
      else complete (.admin fn) c.seq kBadConfig ccLink (natLe 4 0x44) (linkFall head s) := by
  simp only [trainingEnd, clear, same, Bool.false_eq_true, if_false]

/-! ## HEAD_QUERY, links that come and go (09 R336, R337) -/

theorem exec_dpHotPlug (head : Nat) (q : LinkResult) (s : State) : exec (.dpHotPlug head q) s = execDpHotPlug head q s := rfl
theorem exec_dpLinkLoss (head : Nat) (s : State) : exec (.dpLinkLoss head) s = execDpLinkLoss head s := rfl
theorem exec_headQuery (fn seq : Nat) (sink : Bool) (edid dpcd : Bytes) (s : State) :
    exec (.headQuery fn seq sink edid dpcd) s = execHeadQuery fn seq sink edid dpcd s := rfl
theorem exec_tapConfig (fn seq : Nat) (s : State) : exec (.tapConfig fn seq) s = execTapConfig fn seq s := rfl
theorem execDpHotPlug_next (q : LinkResult) (physical : 1024 ≤ head) (low : head ≤ 1025) (configured : (headOf s head).cfg.isSome = true)
    (down : (headOf s head).linkUp = false) : execDpHotPlug head q s = .next (if q.ok then linkRise head q s else s) := by
  simp only [execDpHotPlug, guardThat, physical, low, configured, down, decide_true, Bool.not_false, Bool.and_self, if_true]
  split <;> rfl
theorem execDpLinkLoss_next (up : (headOf s head).linkUp = true) : execDpLinkLoss head s = .next (linkFall head s) := by
  simp only [execDpLinkLoss, guardThat, up, if_true]
end

section
variable {fn seq : Nat} {c : Cmd} {s : State}
theorem headQueryGo_foreign (sink : Bool) (edid dpcd : Bytes) (foreign : headInWard s fn (entArg c.entry 0) = false) :
    headQueryGo fn seq c sink edid dpcd s = fail (.admin fn) seq kBadState 0x03 s := by
  simp only [headQueryGo, foreign, Bool.not_false, if_true]
theorem headQueryGo_sink (edid dpcd : Bytes) (mine : headInWard s fn (entArg c.entry 0) = true) (physical : 1024 ≤ entArg c.entry 0) :
    headQueryGo fn seq c true edid dpcd s =
      completeOk (.admin fn) seq (natLe 4 1) (hostWrite (entAddr0 c.entry) (fit 512 edid ++ fit 512 dpcd) s) := by
  simp [headQueryGo, mine, physical, b2n]
theorem headQueryGo_noSink {sink : Bool} (edid dpcd : Bytes) (mine : headInWard s fn (entArg c.entry 0) = true)
    (none_ : sink = false ∨ entArg c.entry 0 < 1024) : headQueryGo fn seq c sink edid dpcd s =
      completeOk (.admin fn) seq (natLe 4 0) (linkFall (entArg c.entry 0) (hostWrite (entAddr0 c.entry) (fit 512 edid ++ fit 512 dpcd) s)) := by
  have absent : (sink && decide (1024 ≤ entArg c.entry 0)) = false := by
    rcases none_ with h | h <;> simp [h]
  simp [headQueryGo, mine, absent, b2n]

/-! ## The tap (09 R338) -/

theorem tapConfigGo_off (off : entArg c.entry 0 < 2 ^ 31) : tapConfigGo fn seq c s = completeOk (.admin fn) seq [] { s with tap := none } := if_pos off
theorem tapConfigGo_physical (on : 2 ^ 31 ≤ entArg c.entry 0) (physical : 1024 ≤ entArg c.entry 0 % 2048) :
    tapConfigGo fn seq c s = fail (.admin fn) seq kBadState 0x03 s := (if_neg (Nat.not_lt.mpr on)).trans (if_pos physical)
/-- The first failing field of the tap's block, which is for head 1025. -/
def tapBlockBad (b : Bytes) : Option Nat := if hbHead b ≠ 1025 then some 0x04 else headBlockBad true b
section
variable (on : 2 ^ 31 ≤ entArg c.entry 0) (virtual : entArg c.entry 0 % 2048 < 1024)
include on virtual
theorem tapConfigGo_bad {off : Nat} (bad : tapBlockBad (hostRead s (entAddr0 c.entry) 128) = some off) :
    tapConfigGo fn seq c s = complete (.admin fn) seq kBadConfig ccValue (natLe 4 off) s := by
  unfold tapBlockBad at bad
  simp only [tapConfigGo, Nat.not_lt.mpr on, Nat.not_le.mpr virtual, if_false, bad]
theorem tapConfigGo_taken (good : tapBlockBad (hostRead s (entAddr0 c.entry) 128) = none) (taken : (headOf s 1025).cfg.isSome = true) :
    tapConfigGo fn seq c s = fail (.admin fn) seq kConflict 0x01 s := by
  unfold tapBlockBad at good
  simp only [tapConfigGo, Nat.not_lt.mpr on, Nat.not_le.mpr virtual, if_false, good, taken, if_true]
theorem tapConfigGo_taps (good : tapBlockBad (hostRead s (entAddr0 c.entry) 128) = none) (free : (headOf s 1025).cfg = none) :
    tapConfigGo fn seq c s = completeOk (.admin fn) seq []
      { s with tap := some { head := entArg c.entry 0 % 2048, cfg := hostRead s (entAddr0 c.entry) 128, nextStart := nowHead s } } := by
  unfold tapBlockBad at good
  simp only [tapConfigGo, Nat.not_lt.mpr on, Nat.not_le.mpr virtual, if_false, good, free, Option.isSome_none, Bool.false_eq_true]
end
theorem keepsRing_tap (r : RingRef) (t : Option Tap) (s : State) : KeepsRing r s { s with tap := t } := ⟨by cases r <;> rfl, rfl, id⟩
end

end Sys2Proof.Machine
end

section
/-!
PROOFS. HEAD_BIND and HEAD_UNBIND (09 R319, R321, R324, R344), and what the commands and events of heads give.
-/
namespace Sys2Proof.Machine

/-! ## HEAD_BIND (09 R324, R344) -/

section
variable {slot seq : Nat} {c : Cmd} {x : Ctx} {s : State} {b : Bytes}

theorem exec_headBind (slot seq : Nat) (s : State) : exec (.headBind slot seq) s = execHeadBind slot seq s := rfl
theorem exec_headUnbind (slot seq : Nat) (s : State) : exec (.headUnbind slot seq) s = execHeadUnbind slot seq s := rfl

/-- The cores of a BE context's group are another's, once this head is bound. -/
def CoresTaken (s : State) (slot : Nat) (c : Cmd) (x : Ctx) : Prop :=
  cbClassBE x.cfg = true ∧ groupConflict s { ctxEnv s slot x with head := some (entArg c.entry 0) } x.cfg = true
/-- The counters' frame timer is on for the head. -/
def TimerTaken (s : State) (c : Cmd) (x : Ctx) : Prop := cbReplay x.cfg = false ∧ s.perf.timerOn = true ∧ s.perf.head = entArg c.entry 0
/-- A context that is bound to a head from its next frame. -/
def boundTo (head : Nat) (y : Ctx) : Ctx := { y with head := some head, fr := { y.fr with cut := false, fresh := true } }

theorem headBindGo_unknown (h : headInWard s x.ward (entArg c.entry 0) = false ∨ headCfg (headOf s (entArg c.entry 0)) = none) :
    headBindGo slot seq c x s = fail (.ctx slot) seq kBadState 0x03 s := by
  have unknown : (if headInWard s x.ward (entArg c.entry 0) then headCfg (headOf s (entArg c.entry 0)) else none) = none := by
    rcases h with foreign | unconfigured
    · rw [foreign]; rfl
    · rw [unconfigured, ite_self]
  simp only [headBindGo, unknown]
section
variable (mine : headInWard s x.ward (entArg c.entry 0) = true) (cfg : headCfg (headOf s (entArg c.entry 0)) = some b)
include mine cfg
theorem headBindGo_bound (taken : (headOf s (entArg c.entry 0)).ctx.isSome = true ∨ x.head.isSome = true) :
    headBindGo slot seq c x s = fail (.ctx slot) seq kConflict 0x07 s := by
  simp only [headBindGo, mine, if_true, cfg, taken]
variable (free : (headOf s (entArg c.entry 0)).ctx = none) (headless : x.head = none)
include free headless
theorem headBindGo_cores (cores : CoresTaken s slot c x) : headBindGo slot seq c x s = fail (.ctx slot) seq kConflict 0x06 s := by
  unfold CoresTaken at cores
  simp only [headBindGo, mine, if_true, cfg, free, headless, Option.isSome_none, Bool.false_eq_true, or_self, if_false]
  exact if_pos cores
theorem headBindGo_timer (cores : ¬ CoresTaken s slot c x) (timer : TimerTaken s c x) :
    headBindGo slot seq c x s = fail (.ctx slot) seq kConflict 0x03 s := by
  unfold CoresTaken at cores
  obtain ⟨live, on, own⟩ := timer
  simp only [headBindGo, mine, if_true, cfg, free, headless, Option.isSome_none, Bool.false_eq_true, or_self, if_false, live, on, own,
    Bool.not_false, and_self]
  exact if_neg cores
theorem headBindGo_bad {off : Nat} (cores : ¬ CoresTaken s slot c x) (timer : ¬ TimerTaken s c x) (bad : headBindBad s x b = some off) :
    headBindGo slot seq c x s = complete (.ctx slot) seq kBadConfig ccValue (natLe 4 off) s := by
  unfold CoresTaken at cores
  unfold TimerTaken at timer
  simp only [headBindGo, mine, if_true, cfg, free, headless, Option.isSome_none, Bool.false_eq_true, or_self, if_false, Bool.not_eq_true', bad]
  exact (if_neg cores).trans (if_neg timer)
theorem headBindGo_binds (cores : ¬ CoresTaken s slot c x) (timer : ¬ TimerTaken s c x) (good : headBindBad s x b = none) :
    headBindGo slot seq c x s = completeOk (.ctx slot) seq (natLe 4 x.fr.nextNumber) (modCtx slot (boundTo (entArg c.entry 0))
      (modHead (entArg c.entry 0) (boundHead slot x.gen x.fr.nextNumber
        (referenceInstant s (headOf s (entArg c.entry 0)) b (entAddr1 c.entry)) b) s)) := by
  unfold CoresTaken at cores
  unfold TimerTaken at timer
  simp only [headBindGo, mine, if_true, cfg, free, headless, Option.isSome_none, Bool.false_eq_true, or_self, if_false, Bool.not_eq_true', good]
  exact (if_neg cores).trans (if_neg timer)
end

/-! ## HEAD_UNBIND (09 R321) -/

theorem execHeadUnbind_unbound (hc : readyCmd (.ctx slot) seq 0x2B s = some c) (fresh : c.started = false) (hx : ctxOf s slot = some x)
    (headless : x.head = none) : execHeadUnbind slot seq s = .next (fail (.ctx slot) seq kBadState 0x01 s) := by
  simp [execHeadUnbind, need, guardThat, hc, fresh, hx, headless]
theorem execHeadUnbind_waits {head : Nat} (hc : readyCmd (.ctx slot) seq 0x2B s = some c) (fresh : c.started = false)
    (hx : ctxOf s slot = some x) (hh : x.head = some head) : execHeadUnbind slot seq s =
      .next (modHead head (fun h => { h with unbindSeq := some seq }) (modCmd (.ctx slot) seq (fun c => { c with started := true }) s)) := by
  simp [execHeadUnbind, need, guardThat, hc, fresh, hx, hh]
/-- An answer leaves the head to which the context is bound. -/
theorem ctx_head_complete (r : RingRef) (seq code reason : Nat) (result : Bytes) (s : State) (i : Nat) :
    (ctxOf (complete r seq code reason result s) i).map (·.head) = (ctxOf s i).map (·.head) :=
  ctx_map_of_recordless (v := Ctx.head) (fun _ => rfl) (recordless_complete ..) i
end

end Sys2Proof.Machine

namespace Sys2Proof.Say
open Sys2Proof.Machine

/-- Each refusal answers from the state with the sink's report drawn; an accepted block changes its head, or waits for the link. -/
theorem headsConfigured_holds : headsConfigured := by
  refine ⟨fun s fn seq c hc fresh => ?config, fun s head fn c serves training hc => ?trained⟩
  case config =>
    intro b head h
    have run := (exec_headConfig fn seq s).trans (execHeadConfig_next hc fresh)
    have noted := keepsRing_noteSink (.admin fn) b s
    have stands (code reason : Nat) (result : Bytes) : (complete (.admin fn) seq code reason result (noteSink b s)).heads = s.heads :=
      ((keepsHeads_noteSink b s).trans (keepsHeads_complete ..)).heads
    refine ⟨fun off bad => ?_, fun good sink => ?_, fun good sink => ⟨fun changed => ?_, fun k same conflict => ?_, fun same clear => ⟨fun virtual => ?_,
      fun physical _ _ => ?_⟩⟩⟩
    · exact ⟨_, run.trans (congrArg _ (headConfigGo_badField bad)), complete_answeredWith _ _ _ hc noted, stands ..⟩
    · exact ⟨_, run.trans (congrArg _ (headConfigGo_noAdaptive good sink)), complete_answeredWith _ _ _ hc noted, stands ..⟩
    · exact ⟨_, run.trans (congrArg _ (headConfigGo_fixed good sink changed)), complete_answered_after _ _ _ hc noted, stands ..⟩
    · exact ⟨_, run.trans (congrArg _ (headConfigGo_conflict good sink same conflict)), complete_answered_after _ _ _ hc noted, stands ..⟩
    all_goals have accepts := run.trans (congrArg _ (headConfigGo_accepts (seq := seq) good sink same clear))
    · rw [if_neg (Nat.not_le.mpr virtual)] at accepts
      have taken := (((keepsHeads_noteSink b s).setsHead head).modHead (accepted (nowHead (noteSink b s)) b)).complete (.admin fn) seq 0 0 (natLe 4 0)
      have now : nowHead (noteSink b s) = nowHead s := by
        obtain ⟨k, e⟩ := noteSink_eq b s
        rw [e]
        rfl
      exact ⟨_, accepts, completeOk_result_after _ hc (noted.trans (keepsRing_modHead ..)), taken.only, now ▸ taken.eq⟩
    · rw [if_pos physical] at accepts
      refine ⟨_, accepts, ?_, ?_⟩
      · obtain ⟨k, e⟩ := noteSink_eq b s
        rw [e]
        rfl
      · rw [cmdOf_modCmd ?_, cmdOf_of_keepsRing noted, (readyCmd_some hc).1]
        · rfl
        · exact fun _ => rfl
  case trained =>
    have served : Served s (.admin fn) c := by
      obtain ⟨⟨running, -⟩, steady⟩ : (s.fw.running = true ∧ s.fw.ready = true) ∧ s.fw.switching = false := by simpa [keeperServes] using serves
      exact ⟨hc, running, steady⟩
    intro h answered
    have run (q : LinkResult) := (exec_dpLinkTrainingEnd head q s).trans (execDpLinkTrainingEnd_next q serves training)
    refine ⟨fun k conflict q => ?_, fun clear changed q => ?_, fun clear same => ?_⟩
    · exact ⟨_, (run q).trans (congrArg _ (trainingEnd_conflict q conflict)), (served.answeredWith _ _ _ (.refl _ s)).1, (keepsHeads_complete ..).heads⟩
    · exact ⟨_, (run q).trans (congrArg _ (trainingEnd_fixed q clear changed)), (served.answeredWith _ _ _ (.refl _ s)).1, (keepsHeads_complete ..).heads⟩
    intro quiet lost
    refine ⟨fun q ok => ?_, fun q bad => ?_⟩
    all_goals have ends := (run q).trans (congrArg _ (trainingEnd_ends q clear same))
    · rw [if_pos ok, acceptHead_eq] at ends
      have taken : SetsHead head (accepted (nowHead s) c.block h) s (modHead head (accepted (nowHead s) c.block) s) := setsHead_modHead ..
      have risen := (taken.trans (linkRise_sets head q _)).complete (.admin fn) c.seq 0 0 (natLe 4 1)
      refine ⟨_, ends, complete_gone .., risen.only, fun still => ?_, risen.eq.trans (congrArg (linked q) taken.eq)⟩
      rw [linkRise_quiet q ?_]
      · exact served.result _ ((keepsRing_modHead ..).trans (keepsRing_modHead ..))
      · rw [taken.eq, accepted_ctx, accepted_linkUp]
        exact still
    · rw [if_neg (by simp [bad])] at ends
      have fallen := (linkFall_sets head s).complete (.admin fn) c.seq kBadConfig ccLink (natLe 4 0x44)
      exact ⟨_, ends, complete_gone .., fallen.only, fun still => served.answeredWith _ _ _ (keepsRing_linkFall _ still), fallen.eq⟩

/-- A link changes its own head alone; a query and the tap answer after what they write or set. -/
theorem linksAndTap_holds : linksAndTap := by
  refine ⟨fun s head physical low configured down q => ?plug, fun s head up => ?loss, fun s fn seq c sink edid dpcd hc => ?query,
    fun s fn seq c hc => ?tap⟩
  case plug =>
    have run := (exec_dpHotPlug head q s).trans (execDpHotPlug_next q physical low configured down)
    refine ⟨fun ok => ?_, fun bad => ?_⟩
    · exact ⟨_, run.trans (congrArg _ (if_pos ok)), (linkRise_sets head q s).only, (linkRise_sets head q s).eq⟩
    · exact ⟨_, run.trans (congrArg _ (if_neg (by simp [bad]))), rfl⟩
  case loss =>
    refine ⟨_, (exec_dpLinkLoss head s).trans (execDpLinkLoss_next up), (linkFall_sets head s).only, (linkFall_sets head s).eq, fun unbound => ?_⟩
    rw [linkFall_unbound unbound, if_pos up]
    rfl
  case query =>
    intro head
    have run := (exec_headQuery fn seq sink edid dpcd s).trans (command_next _ hc)
    have wrote := keepsRing_hostWrite (.admin fn) (entAddr0 c.entry) (fit 512 edid ++ fit 512 dpcd) s
    refine ⟨fun foreign => ?_, fun mine => ⟨fun there physical => ?_, fun absent => ?_⟩⟩
    · exact ⟨_, run.trans (congrArg _ (headQueryGo_foreign _ _ _ foreign)), complete_answered_after _ _ _ hc (.refl _ s),
        (keepsHeads_complete ..).heads⟩
    · subst there
      refine ⟨_, run.trans (congrArg _ (headQueryGo_sink _ _ mine physical)), completeOk_result_after _ hc wrote,
        ((keepsHeads_hostWrite ..).trans (keepsHeads_complete ..)).heads, fun g i hg hlost hwf hi outside => ?_⟩
      obtain ⟨hcmd, running, steady⟩ := readyCmd_some hc
      refine (complete_hostMem_outside 0 0 _ ((cmdOf_of_keepsRing wrote seq).trans hcmd) running steady (wrote.ring.trans hg) hlost outside).trans ?_
      have inside : entAddr0 c.entry ≤ entAddr0 c.entry + i ∧ entAddr0 c.entry + i < entAddr0 c.entry + (fit 512 edid ++ fit 512 dpcd).length := by
        rw [List.length_append, fit_length, fit_length]
        omega
      rw [hostWrite_hostMem, Mem.read_writeN hwf, if_pos inside, Nat.add_sub_cancel_left]
    · have fallen := (((keepsHeads_hostWrite (entAddr0 c.entry) (fit 512 edid ++ fit 512 dpcd) s).setsHead head).trans (linkFall_sets head _)).complete
        (.admin fn) seq 0 0 (natLe 4 0)
      exact ⟨_, run.trans (congrArg _ (headQueryGo_noSink _ _ mine absent)), complete_gone .., fallen.only, fallen.eq⟩
  case tap =>
    intro arg b
    have run := (exec_tapConfig fn seq s).trans (command_next (fun c s => tapConfigGo fn seq c s) hc)
    have refused (code reason : Nat) (result : Bytes) : (complete (.admin fn) seq code reason result s).tap = s.tap := (keepsHeads_complete ..).tap
    have set (t : Option Tap) := keepsHeads_complete (.admin fn) seq 0 0 [] { s with tap := t }
    refine ⟨fun off => ?_, fun on physical => ?_, fun on virtual => ⟨fun off bad => ?_, fun head good => ?_⟩⟩
    · exact ⟨_, run.trans (congrArg _ (tapConfigGo_off off)), complete_answered_after _ _ _ hc (keepsRing_tap ..), (set none).tap, (set none).heads⟩
    · exact ⟨_, run.trans (congrArg _ (tapConfigGo_physical on physical)), complete_answered_after _ _ _ hc (.refl _ s), refused ..⟩
    · exact ⟨_, run.trans (congrArg _ (tapConfigGo_bad on virtual bad)), complete_answeredWith _ _ _ hc (.refl _ s), refused ..⟩
    · have passes : tapBlockBad b = none := (if_neg (not_not.mpr head)).trans good
      refine ⟨fun taken => ?_, fun free => ?_⟩
      · exact ⟨_, run.trans (congrArg _ (tapConfigGo_taken on virtual passes taken)), complete_answered_after _ _ _ hc (.refl _ s), refused ..⟩
      · exact ⟨_, run.trans (congrArg _ (tapConfigGo_taps on virtual passes free)), complete_answered_after _ _ _ hc (keepsRing_tap ..),
          (set _).heads, (set _).tap⟩

/-- A binding is refused by the first rule that it breaks, or sets its head and names it in the context; an unbinding waits. -/
theorem headsBound_holds : headsBound := by
  refine ⟨fun s slot seq c x hc hx => ?bind, fun s slot seq c x hc fresh hx => ?unbind⟩
  case bind =>
    intro head h refused
    have run := (exec_headBind slot seq s).trans (ctxCommand_next (headBindGo slot seq) hc hx)
    have refuses {code reason : Nat} (go : headBindGo slot seq c x s = fail (.ctx slot) seq code reason s) : refused code reason :=
      ⟨_, run.trans (congrArg _ go), complete_answered_after _ _ _ hc (.refl _ s), (keepsHeads_complete ..).heads,
        (ctx_head_complete ..).trans (congrArg _ hx)⟩
    refine ⟨fun unknown => refuses (headBindGo_unknown unknown), fun b mine cfg => ⟨fun taken => refuses (headBindGo_bound mine cfg taken),
      fun free headless => ?_⟩⟩
    intro cores timer
    refine ⟨fun hcores => refuses (headBindGo_cores mine cfg free headless hcores),
      fun hcores htimer => refuses (headBindGo_timer mine cfg free headless hcores htimer), fun off hcores htimer bad => ?_, fun hcores htimer good => ?_⟩
    · exact ⟨_, run.trans (congrArg _ (headBindGo_bad mine cfg free headless hcores htimer bad)), complete_answeredWith _ _ _ hc (.refl _ s),
        (keepsHeads_complete ..).heads⟩
    · have kept : KeepsRing (.ctx slot) s (modCtx slot (boundTo head)
          (modHead head (boundHead slot x.gen x.fr.nextNumber (referenceInstant s h b (entAddr1 c.entry)) b) s)) :=
        (keepsRing_modHead ..).trans (keepsRing_modCtx (g := boundTo head) (fun _ => rfl) slot _)
      have set := (setsHead_modHead head (boundHead slot x.gen x.fr.nextNumber (referenceInstant s h b (entAddr1 c.entry)) b) s).keep
        ((keepsHeads_modCtx slot (boundTo head) _).trans (keepsHeads_complete (.ctx slot) seq 0 0 (natLe 4 x.fr.nextNumber) _))
      refine ⟨_, run.trans (congrArg _ (headBindGo_binds mine cfg free headless hcores htimer good)), completeOk_result_after _ hc kept, set.only,
        (ctx_head_complete ..).trans ?_, _, set.eq, ?_⟩
      · rw [ctxOf_modCtx, if_pos rfl]
        exact congrArg (fun y : Option Ctx => (y.map (boundTo head)).map (·.head)) hx
      · exact ⟨rfl, rfl, rfl, rfl, rfl, rfl, rfl, rfl, rfl, rfl, rfl⟩
  case unbind =>
    refine ⟨fun headless => ?_, fun head hh => ?_⟩
    · exact ⟨_, (exec_headUnbind slot seq s).trans (execHeadUnbind_unbound hc fresh hx headless), complete_answered_after _ _ _ hc (.refl _ s),
        (keepsHeads_complete ..).heads⟩
    · have marked : KeepsHeads s (modCmd (.ctx slot) seq (fun c => { c with started := true }) s) := ⟨rfl, rfl, rfl, rfl, rfl⟩
      have set := (marked.setsHead head).modHead (fun h => { h with unbindSeq := some seq })
      refine ⟨_, (exec_headUnbind slot seq s).trans (execHeadUnbind_waits hc fresh hx hh), rfl, set.only, set.eq, ?_⟩
      rw [cmdOf_of_keepsRing (keepsRing_modHead ..), cmdOf_modCmd ?_, (readyCmd_some hc).1]
      · rfl
      · exact fun _ => rfl

end Sys2Proof.Say
namespace Sys2Proof.Machine
open Sys2Proof.Say

/-- Settles O44: every command is an answer after the change of one head, and what answers and reports of a link leave every head alone
(`SetsHead.keep`). -/
theorem heads : Obligations.Heads := ⟨headsConfigured_holds, linksAndTap_holds, headsBound_holds⟩

end Sys2Proof.Machine
end

section
/-!
PROOFS. Period starts (09 R320–R326, R338, R341): configurations that take effect, slots and what they show, unbinding, and the tap.
-/
namespace Sys2Proof.Machine
open Sys2Proof.Say (reconfigured)

/-! ## The other contexts -/

/-- Every context but that of one slot stands. -/
structure LeavesOtherCtxs (slot : Nat) (s n : State) : Prop where
  ctxs : ∀ i, i ≠ slot → ctxOf n i = ctxOf s i
theorem LeavesOtherCtxs.trans {slot : Nat} {s m n : State} (a : LeavesOtherCtxs slot s m) (b : LeavesOtherCtxs slot m n) : LeavesOtherCtxs slot s n :=
  ⟨fun i hi => (b.ctxs i hi).trans (a.ctxs i hi)⟩
theorem leaves_of_keepsOthers {slot : Nat} {s n : State} (h : KeepsOthers slot s n) : LeavesOtherCtxs slot s n := ⟨h.ctxs⟩
theorem leaves_modCtx (slot : Nat) (g : Ctx → Ctx) (s : State) : LeavesOtherCtxs slot s (modCtx slot g s) :=
  leaves_of_keepsOthers (modCtx_keepsOthers slot g s)
theorem leaves_modHead (slot head : Nat) (g : Head → Head) (s : State) : LeavesOtherCtxs slot s (modHead head g s) := ⟨fun _ _ => rfl⟩

/-! ## A configuration that takes effect (09 R320, R333) -/

/-- A waiting configuration changes the block in force and, with a new ring, its indices. -/
theorem reconfigured_eq {h : Head} {b : Bytes} (cfg : h.cfg = some b) : ∃ c prod beg consumer,
    reconfigured h b = { h with cfg := some c, pendingCfg := none, prod := prod, beg := beg, consumer := consumer } := by
  unfold reconfigured
  split
  · next waiting => exact ⟨b, h.prod, h.beg, h.consumer, by rw [← cfg, ← waiting]⟩
  · split
    · exact ⟨_, _, _, _, rfl⟩
    · exact ⟨_, _, _, _, rfl⟩

/-- A head that takes up its waiting block. -/
def takeBlock (p : Bytes) (h : Head) : Head := { h with cfg := some p, pendingCfg := none }
/-- A head whose ring begins at index 0. -/
def freshRing (h : Head) : Head := { h with prod := 0, beg := 0, consumer := 0 }

section
variable {head : Nat} {s : State} {b : Bytes}
theorem takeConfig_sets (cfg : (headOf s head).cfg = some b) : SetsHead head (reconfigured (headOf s head) b) s (takeConfig head s) := by
  cases waiting : (headOf s head).pendingCfg with
  | none =>
    simp only [takeConfig, reconfigured, waiting]
    exact (KeepsHeads.refl s).setsHead head
  | some p =>
    have taken := setsHead_modHead head (takeBlock p) s
    have fresh := taken.modHead freshRing
    simp only [takeConfig, reconfigured, waiting, cfg]
    split
    · split
      · exact fresh.keep (keepsHeads_hostWrite ..)
      · exact fresh
    · exact taken
/-- A period start's configuration changes heads, and host memory where a new ring's producer index is written. -/
theorem takeConfig_eq (head : Nat) (s : State) : ∃ t, takeConfig head s = { s with heads := t } ∨
    ∃ a v, takeConfig head s = hostWrite a v { s with heads := t } := by
  unfold takeConfig
  dsimp only
  split
  · split
    · split
      · exact ⟨_, .inr ⟨_, _, rfl⟩⟩
      · exact ⟨_, .inl rfl⟩
    · exact ⟨_, .inl rfl⟩
  · exact ⟨_, .inl rfl⟩
theorem takeConfig_state (head : Nat) (s : State) :
    takeConfig head s = { s with heads := (takeConfig head s).heads, hostMem := (takeConfig head s).hostMem } := by
  obtain ⟨t, h | ⟨a, v, h⟩⟩ := takeConfig_eq head s
  · rw [h]
  · rw [h]
    rfl
theorem leaves_takeConfig (slot head : Nat) (s : State) : LeavesOtherCtxs slot s (takeConfig head s) :=
  ⟨fun i _ => by rw [takeConfig_state head s]; rfl⟩
theorem keepsRing_takeConfig (r : RingRef) (head : Nat) (s : State) : KeepsRing r s (takeConfig head s) := by
  have heads (t : Table Head) : KeepsRing r s { s with heads := t } := ⟨by cases r <;> rfl, rfl, id⟩
  obtain ⟨t, h | ⟨a, v, h⟩⟩ := takeConfig_eq head s <;> rw [h]
  · exact heads t
  · exact (heads t).trans (keepsRing_hostWrite ..)
/-- Host memory stands where the block stays in force. -/
theorem takeConfig_hostMem (cfg : (headOf s head).cfg = some b) (stays : (reconfigured (headOf s head) b).cfg = some b) :
    (takeConfig head s).hostMem = s.hostMem := by
  cases waiting : (headOf s head).pendingCfg with
  | none => simp only [takeConfig, waiting]
  | some p =>
    have same : p = b := by
      simp only [reconfigured, waiting] at stays
      split at stays <;> exact Option.some.inj stays
    simp [takeConfig, waiting, cfg, same, ringChanged]
end

/-! ## Period starts without a slot (09 R324) -/

/-- A head whose period starts at an instant. -/
def periodAt (at_ : Nat) (h : Head) : Head := { h with prevStart := some at_, nextStart := at_ + (h.cfg.map headInterval).getD 1 }
theorem plainStart_eq (head at_ : Nat) (s : State) : plainStart head at_ s = modHead head (periodAt at_) s := rfl
theorem periodAt_of_cfg {h : Head} {c : Bytes} (at_ : Nat) (cfg : h.cfg = some c) :
    periodAt at_ h = { h with prevStart := some at_, nextStart := at_ + headInterval c } := by
  simp only [periodAt, cfg, Option.map_some, Option.getD_some]

/-! ## What a slot shows (09 R326, R341, R342) -/

/-- A head without its count of skips, its freeze detector and the marks that they set. -/
def uncounted (h : Head) : Head :=
  { h with skips := 0, wrapped := false, fresh := 0, freezeRun := 0, prevShown := none, freezePosted := false, freeze := false }
theorem freezeStep_sets (head slot : Nat) (b : Bytes) (r : Ready) (s : State) :
    ∃ m, SetsHead head m s (freezeStep head slot b r s) ∧ uncounted m = uncounted (headOf s head) := by
  unfold freezeStep
  dsimp only
  split
  · exact ⟨_, (setsHead_modHead ..).keep (keepsHeads_postOther ..), rfl⟩
  · exact ⟨_, setsHead_modHead .., rfl⟩
theorem freezeStep_leaves (head slot : Nat) (b : Bytes) (r : Ready) (s : State) : LeavesOtherCtxs slot s (freezeStep head slot b r s) := by
  unfold freezeStep
  dsimp only
  split
  · exact (leaves_modHead slot head _ s).trans (leaves_of_keepsOthers (postEvent_keepsFrame slot ..).toKeepsOthers)
  · exact leaves_modHead ..
/-- A head that shows a ready frame. -/
def showing (r : Ready) (h : Head) : Head := { h with shown := .frame r.frame.number, isRepeat := false, store := some r }
theorem showFrame_sets (head slot : Nat) (b : Bytes) (x : Ctx) (r : Ready) (s : State) :
    ∃ m, SetsHead head m s (showFrame head slot b x r s) ∧ uncounted m = uncounted (showing r (headOf s head)) := by
  have shown := setsHead_modHead head (fun h => bumpSkips (skippedBelow h x r.frame.number) (showing r h)) s
  unfold showFrame
  dsimp only
  generalize marked : modCtx slot _ _ = q
  have kept := shown.keep (marked ▸ keepsHeads_modCtx slot _ _)
  obtain ⟨m, set, same⟩ := freezeStep_sets head slot b r q
  exact ⟨m, (kept.trans set).keep (keepsHeads_modCtx ..), same.trans ((congrArg uncounted kept.eq).trans rfl)⟩
theorem showFrame_leaves (head slot : Nat) (b : Bytes) (x : Ctx) (r : Ready) (s : State) :
    LeavesOtherCtxs slot s (showFrame head slot b x r s) := by
  unfold showFrame
  dsimp only
  exact (((leaves_modHead ..).trans (leaves_modCtx ..)).trans (freezeStep_leaves ..)).trans (leaves_modCtx ..)

/-- A head as the slot of a frame begins. -/
def slotBegun (slotF at_ : Nat) (b : Bytes) (h : Head) : Head :=
  { h with
    refFrame := slotF, refInstant := at_, begun := true, prevStart := some at_, nextStart := at_ + headInterval b
    slotFrame := slotF, scanStart := at_, lastStart := BitVec.ofNat 64 (tbOfHead at_), lastFrame := BitVec.ofNat 32 slotF
    nextDeadline := BitVec.ofNat 64 (tbOfHead (at_ + headInterval b)), slicesBegun := 0, inFlight := [], lastPx := none
    droppedFrame := 0, underrunFrame := 0, scanDone := false }
/-- What a head shows and counts of that, taken away. -/
def blank (h : Head) : Head := { h with shown := .nothing, isRepeat := false, everBlack := false, store := none, repeats := 0 }
/-- A head without what it shows and what it counts of that. -/
def unshown (h : Head) : Head := blank (uncounted h)
theorem unshown_showAgain (h : Head) : unshown (showAgain h) = unshown h := by
  unfold showAgain
  split <;> rfl
theorem showAgain_counts (h : Head) : (showAgain h).store = h.store ∧ (showAgain h).repeats = h.repeats + 1 := by
  unfold showAgain
  split
  · next stored => exact ⟨stored ▸ rfl, rfl⟩
  · next empty => exact ⟨empty ▸ rfl, rfl⟩
theorem showAgain_frame {h : Head} {r : Ready} (stored : h.store = some r) :
    (showAgain h).shown = .frame r.frame.number ∧ (showAgain h).isRepeat = true := by
  simp only [showAgain, stored, bumpRepeats, and_self]
theorem showAgain_black {h : Head} (empty : h.store = none) : (showAgain h).shown = .black := by
  simp only [showAgain, empty, bumpRepeats]

/-- What stands of a head from the beginning of a slot, whatever it shows. -/
theorem slot_fields {m h : Head} {slotF at_ : Nat} {b : Bytes} (e : unshown m = unshown (slotBegun slotF at_ b h)) :
    m.cfg = h.cfg ∧ m.pendingCfg = h.pendingCfg ∧ m.ctx = h.ctx ∧ m.begun = true ∧ m.slotFrame = slotF ∧ m.refFrame = slotF ∧
      m.refInstant = at_ ∧ m.scanStart = at_ ∧ m.prevStart = some at_ ∧ m.nextStart = at_ + headInterval b ∧ m.scanDone = false ∧
      m.slicesBegun = 0 ∧ m.inFlight = [] ∧ m.lastFrame = BitVec.ofNat 32 slotF :=
  ⟨(congrArg Head.cfg e :), (congrArg Head.pendingCfg e :), (congrArg Head.ctx e :), (congrArg Head.begun e :), (congrArg Head.slotFrame e :),
    (congrArg Head.refFrame e :), (congrArg Head.refInstant e :), (congrArg Head.scanStart e :), (congrArg Head.prevStart e :),
    (congrArg Head.nextStart e :), (congrArg Head.scanDone e :), (congrArg Head.slicesBegun e :), (congrArg Head.inFlight e :),
    (congrArg Head.lastFrame e :)⟩

/-- The latest ready frame that a slot may show. -/
def latestFor (h : Head) (b : Bytes) (slotF at_ : Nat) (x : Ctx) : Option Ready := latestReady (x.fr.ready.filter (qualifiesAt h b slotF at_))
section
variable {head slot slotF at_ : Nat} {b : Bytes} {x : Ctx} {s : State}
theorem beginSlot_shows {r : Ready} (latest : latestFor (headOf s head) b slotF at_ x = some r) : ∃ m,
    SetsHead head m s (beginSlot head slot slotF at_ b x s) ∧ uncounted m = uncounted (showing r (slotBegun slotF at_ b (headOf s head))) := by
  unfold latestFor at latest
  have begun := setsHead_modHead head (slotBegun slotF at_ b) s
  obtain ⟨m, set, same⟩ := showFrame_sets head slot b x r (modHead head (slotBegun slotF at_ b) s)
  rw [begun.eq] at same
  simp only [beginSlot, latest]
  exact ⟨m, (begun.trans set).keep (keepsHeads_modCtx ..), same⟩
theorem beginSlot_again (latest : latestFor (headOf s head) b slotF at_ x = none) :
    SetsHead head (showAgain (slotBegun slotF at_ b (headOf s head))) s (beginSlot head slot slotF at_ b x s) := by
  unfold latestFor at latest
  simp only [beginSlot, latest]
  exact ((setsHead_modHead head (slotBegun slotF at_ b) s).modHead showAgain).keep (keepsHeads_modCtx ..)
/-- The head as a slot begins: the latest frame that qualifies is shown, else the last one again, or black. -/
theorem beginSlot_sets {h : Head} {latest : Option Ready} (own : headOf s head = h) (hl : latestFor h b slotF at_ x = latest) : ∃ m,
    SetsHead head m s (beginSlot head slot slotF at_ b x s) ∧ unshown m = unshown (slotBegun slotF at_ b h) ∧
    (∀ r, latest = some r → m.shown = .frame r.frame.number ∧ m.isRepeat = false ∧ m.store = some r ∧ m.repeats = h.repeats) ∧
    (latest = none → m.store = h.store ∧ m.repeats = h.repeats + 1 ∧
      (∀ r, h.store = some r → m.shown = .frame r.frame.number ∧ m.isRepeat = true) ∧ (h.store = none → m.shown = .black)) := by
  subst own
  cases latest with
  | some r =>
    obtain ⟨m, set, e⟩ := beginSlot_shows (slot := slot) hl
    refine ⟨m, set, (congrArg blank e).trans rfl, fun q hq => ?_, fun none_ => absurd none_ (Option.some_ne_none r)⟩
    cases hq
    exact ⟨(congrArg Head.shown e :), (congrArg Head.isRepeat e :), (congrArg Head.store e :), (congrArg Head.repeats e :)⟩
  | none =>
    refine ⟨_, beginSlot_again hl, unshown_showAgain _, fun r some_ => absurd some_.symm (Option.some_ne_none r), fun _ => ?_⟩
    exact ⟨(showAgain_counts _).1, (showAgain_counts _).2, fun r stored => showAgain_frame stored, fun empty => showAgain_black empty⟩
theorem beginSlot_leaves (head slot slotF at_ : Nat) (b : Bytes) (x : Ctx) (s : State) :
    LeavesOtherCtxs slot s (beginSlot head slot slotF at_ b x s) := by
  unfold beginSlot
  dsimp only
  refine LeavesOtherCtxs.trans ?_ (leaves_modCtx ..)
  split
  · exact (leaves_modHead ..).trans (showFrame_leaves ..)
  · exact (leaves_modHead ..).trans (leaves_modHead ..)
end

/-! ## HEAD_UNBIND takes effect (09 R321) -/

/-- A head without its context. -/
def unboundHead (h : Head) : Head := { h with ctx := none, nextDeadline := 0, unbindSeq := none, begun := false, shown := .nothing, store := none }
/-- A context without its head: nothing of it is shown from here on. -/
def headlessCtx (x : Ctx) : Ctx := { x with head := none, fr := { x.fr with ready := x.fr.ready.map (fun r => { r with shown := true }) } }
/-- The state that the answer of an unbinding is given from. -/
def unbound (head slot : Nat) (s : State) : State := pruneReady slot (modCtx slot headlessCtx (modHead head unboundHead s))
theorem unbindHead_eq (head slot seq : Nat) (s : State) : unbindHead head slot seq s = completeOk (.ctx slot) seq [] (unbound head slot s) := rfl
theorem unbound_sets (head slot : Nat) (s : State) : SetsHead head (unboundHead (headOf s head)) s (unbound head slot s) :=
  (setsHead_modHead head unboundHead s).keep ((keepsHeads_modCtx slot headlessCtx _).trans (keepsHeads_modCtx ..))
theorem keepsRing_unbound (head slot : Nat) (s : State) : KeepsRing (.ctx slot) s (unbound head slot s) :=
  ((keepsRing_modHead ..).trans (keepsRing_modCtx (g := headlessCtx) (fun _ => rfl) slot _)).trans
    (keepsRing_of_sameRings (sameRings_modCtx (by exact fun _ => rfl) slot _) slot)
theorem unbound_leaves (head slot : Nat) (s : State) : LeavesOtherCtxs slot s (unbound head slot s) :=
  ((leaves_modHead ..).trans (leaves_modCtx slot headlessCtx _)).trans (leaves_modCtx ..)
theorem unbound_ctx {slot : Nat} {s : State} {x : Ctx} (head : Nat) (hx : ctxOf s slot = some x) :
    (ctxOf (unbound head slot s) slot).map (·.head) = some none := by
  have hy : ctxOf (modHead head unboundHead s) slot = some x := hx
  simp [unbound, pruneReady, ctxOf_modCtx, hy, headlessCtx]

/-! ## HEAD_PERIOD_START -/

theorem exec_headPeriodStart (head : Nat) (s : State) : exec (.headPeriodStart head) s = execHeadPeriodStart head s := rfl
section
variable {head at_ slot : Nat} {s : State} {b : Bytes} {x : Ctx}
theorem execHeadPeriodStart_tap {t : Tap} (free : (headOf s 1025).cfg = none) (on : s.tap = some t) (due : headReached s t.nextStart = true) :
    execHeadPeriodStart 1025 s = .next (tapStart t s) := by
  simp [execHeadPeriodStart, headDue, free, on, guardThat, due]
theorem headDue_unbound (cfg : (headOf s head).cfg = some b) (unbound : (headOf s head).ctx = none) :
    headDue s (headOf s head) = some ((headOf s head).nextStart, false) := by
  simp [headDue, cfg, boundCtx, unbound]
theorem boundCtx_of_live (bound : (headOf s head).ctx = some slot) (hx : liveCtx s slot = some x) : boundCtx s (headOf s head) = some x := by
  simp [boundCtx, bound, hx]
section
variable (done : (headOf s head).scanDone = true) (come : headReached s at_ = true)
include done come
theorem execHeadPeriodStart_plain (due : headDue s (headOf s head) = some (at_, false)) :
    execHeadPeriodStart head s = .next (plainStart head at_ (if (headOf s head).ctx.isSome then s else takeConfig head s)) := by
  simp [execHeadPeriodStart, due, guardThat, done, come]
theorem execHeadPeriodStart_scan (bound : (headOf s head).ctx = some slot) (hx : liveCtx s slot = some x)
    (due : headDue s (headOf s head) = some (at_, true)) : execHeadPeriodStart head s = .next (scanStartAt head slot at_ x s) := by
  simp [execHeadPeriodStart, due, guardThat, done, come, need, boundCtx_of_live bound hx, bound]
end
theorem scanStartAt_unbinds {seq : Nat} (x : Ctx) (waits : (headOf s head).unbindSeq = some seq) :
    scanStartAt head slot at_ x s = unbindHead head slot seq (plainStart head at_ (takeConfig head s)) := by
  simp only [scanStartAt, waits]
theorem scanStartAt_begins {c : Bytes} (x : Ctx) (stays : (headOf s head).unbindSeq = none) (cfg : (headOf (takeConfig head s) head).cfg = some c) :
    scanStartAt head slot at_ x s = beginSlot head slot (nextSlot (headOf s head)) at_ c x (takeConfig head s) := by
  simp only [scanStartAt, stays, cfg, Option.getD_some]
theorem tapStart_eq (t : Tap) (s : State) : tapStart t s = { s with tap := some { t with
    nextStart := t.nextStart + headInterval t.cfg
    shown := if (headOf s t.head).store.isSome then (headOf s t.head).store else t.shown } } := rfl
end

end Sys2Proof.Machine

namespace Sys2Proof.Say
open Sys2Proof.Machine

/-- A period start takes up the waiting configuration (`takeConfig_sets`), and then starts the period, unbinds or begins a slot. -/
theorem periodsStart_holds : periodsStart := by
  refine ⟨fun s t free on due => ?tap, fun s head b cfg free done come => ?unbound, fun s head slot b at_ x cfg bound hx done come => ?bound⟩
  case tap =>
    refine ⟨_, (exec_headPeriodStart 1025 s).trans (execHeadPeriodStart_tap free on due), rfl, ?_⟩
    cases stored : (headOf s t.head).store <;> simp [tapStart_eq, stored]
  case unbound =>
    intro h
    have run := (exec_headPeriodStart head s).trans (execHeadPeriodStart_plain done come (headDue_unbound cfg free))
    rw [if_neg (by simp [free]), plainStart_eq] at run
    have set := (takeConfig_sets cfg).modHead (periodAt (headOf s head).nextStart)
    obtain ⟨c, prod, beg, consumer, taken⟩ := reconfigured_eq cfg
    refine ⟨_, run, ?_, set.only, ?_, fun stays => takeConfig_hostMem cfg stays⟩
    · rw [takeConfig_state head s]
      rfl
    · rw [set.eq]
      simp only [h, taken, periodAt, Option.map_some, Option.getD_some]
  case bound =>
    intro o h c
    have taken := takeConfig_sets cfg
    obtain ⟨c', prod, beg, consumer, hh⟩ : ∃ c' prod beg consumer,
      h = { o with cfg := some c', pendingCfg := none, prod := prod, beg := beg, consumer := consumer } := reconfigured_eq cfg
    have hcfg : h.cfg = some c := by simp only [c, hh, Option.getD_some]
    refine ⟨fun due => ?plain, fun seq q due waits running steady hq => ?unbinds, fun due stays => ?begins⟩
    case plain =>
      have run := (exec_headPeriodStart head s).trans (execHeadPeriodStart_plain done come due)
      rw [if_pos (by simp [bound]), plainStart_eq] at run
      have set := setsHead_modHead head (periodAt at_) s
      exact ⟨_, run, rfl, set.only, set.eq.trans (periodAt_of_cfg at_ cfg)⟩
    case unbinds =>
      obtain ⟨rfl, -⟩ := cmdOf_some hq
      have run := (exec_headPeriodStart head s).trans (execHeadPeriodStart_scan done come bound hx due)
      rw [scanStartAt_unbinds x waits, unbindHead_eq, plainStart_eq] at run
      have started := taken.modHead (periodAt at_)
      have set := (started.trans (unbound_sets head slot _)).complete (.ctx slot) q.seq 0 0 []
      have kept := ((keepsRing_takeConfig (.ctx slot) head s).trans (keepsRing_modHead _ head (periodAt at_) _)).trans (keepsRing_unbound head slot _)
      have others := (((leaves_takeConfig slot head s).trans (leaves_modHead _ head (periodAt at_) _)).trans (unbound_leaves head slot _)).trans
        (leaves_of_keepsOthers (complete_keepsFrame slot q.seq 0 0 [] _).toKeepsOthers)
      have hx' : ctxOf (modHead head (periodAt at_) (takeConfig head s)) slot = some x := by
        rw [takeConfig_state head s]
        exact ctxOf_of_liveCtx hx
      refine ⟨_, run, (Served.answeredWith ⟨hq, running, steady⟩ 0 0 [] kept).1, set.only, (ctx_head_complete ..).trans (unbound_ctx head hx'),
        others.ctxs, ?_⟩
      exact set.eq.trans ((congrArg unboundHead started.eq).trans (congrArg unboundHead (periodAt_of_cfg at_ hcfg)))
    case begins =>
      have run := (exec_headPeriodStart head s).trans (execHeadPeriodStart_scan done come bound hx due)
      rw [scanStartAt_begins x stays ((congrArg Head.cfg taken.eq).trans hcfg)] at run
      have others := (leaves_takeConfig slot head s).trans (beginSlot_leaves head slot (nextSlot o) at_ c x _)
      have waiting : h.pendingCfg = none := (congrArg Head.pendingCfg hh :)
      have own : h.ctx = some slot := (congrArg Head.ctx hh :).trans bound
      have qualified : latestFor h c (nextSlot o) at_ x = latestReady (x.fr.ready.filter (qualifiesAt o c (nextSlot o) at_)) :=
        congrArg (fun k => latestReady (x.fr.ready.filter (qualifiesAt { o with boundFrame := k } c (nextSlot o) at_)))
          (congrArg Head.boundFrame hh :)
      obtain ⟨m, set, begun, shows, again⟩ := beginSlot_sets (slot := slot) taken.eq qualified
      rw [show (reconfigured (headOf s head) b).repeats = o.repeats from (congrArg Head.repeats hh :)] at shows again
      rw [show (reconfigured (headOf s head) b).store = o.store from (congrArg Head.store hh :)] at again
      obtain ⟨ecfg, ewaiting, eown, fields⟩ := slot_fields begun
      obtain ⟨hbegun, slot_, ref, inst, scan, prev, next, done', slices, flight, last⟩ := fields
      refine ⟨_, run, (taken.trans set).only, others.ctxs, ?_⟩
      rw [set.eq]
      exact ⟨ecfg, ewaiting.trans waiting, eown.trans own, hbegun, slot_, ref, inst, scan, prev, next, done', slices, flight, last, shows, again⟩

end Sys2Proof.Say
end

section
/-!
PROOFS. Slices (09 R331–R335; 12 R428): slices begun and dropped, the entry that a slice is written as, and the error of a failed write.
-/
namespace Sys2Proof.Machine
open Sys2Proof.Say (Posts errSet)

/-! ## Counters of a head, and its events -/

/-- A counter that counts once wraps from all ones. -/
theorem bump32_one (c : U32) : bump32 c 1 = (c + 1, c == BitVec.allOnes 32) := by
  have wraps : 2 ^ 32 ≤ c.toNat + 1 ↔ c = BitVec.allOnes 32 := by
    rw [← BitVec.toNat_inj, BitVec.toNat_allOnes]
    have := c.isLt
    omega
  exact Prod.ext rfl (decide_eq_decide.mpr wraps)
/-- The number that an event of a head names: the frame shown, or the slot's. -/
def namedFrame (h : Head) : Nat := match h.shown with | .frame f => f | _ => h.slotFrame
theorem postEvent_posts {slot : Nat} {s m : State} (code reason : Nat) (body : Bytes) (kept : KeepsRing (.ctx slot) s m) :
    Posts s (postEvent slot code reason body m) slot 3 code reason body := postOther_posts _ kept

/-! ## SLICE_BEGIN (09 R331–R334) -/

/-- A head whose next slice has begun. -/
def sliceBegun (b : Bytes) (h : Head) : Head :=
  { h with
    slicesBegun := h.slicesBegun + 1
    inFlight := h.inFlight ++ [(h.slicesBegun, tbOfHead (lineStart h b (h.slicesBegun * hbSlice b)))]
    beg := if hbHinge b then h.beg else h.beg + 1, sliceCredits := if hbHinge b then h.sliceCredits - 1 else h.sliceCredits }
/-- A head whose next slice has been dropped. -/
def sliceDropped (h : Head) : Head :=
  { h with
    slicesBegun := h.slicesBegun + 1, ringDrops := h.ringDrops + 1, wrapped := h.wrapped || h.ringDrops == BitVec.allOnes 32
    fresh := headFresh h 1024 (h.ringDrops == BitVec.allOnes 32), ringFull := true, droppedFrame := h.droppedFrame + 1, afterDrop := true }
theorem bumpDrops_begun (h : Head) : bumpDrops { h with slicesBegun := h.slicesBegun + 1 } = sliceDropped h := by
  simp only [bumpDrops, bump32_one]
  rfl

section
variable {head slot : Nat} {s : State} {b : Bytes}
theorem exec_sliceBegin (head : Nat) (s : State) : exec (.sliceBegin head) s = execSliceBegin head s := rfl
theorem execSliceBegin_next (cfg : (headOf s head).cfg = some b) (bound : (headOf s head).ctx = some slot) (virtual : head < 1024)
    (scanning : (headOf s head).scanDone = false) (left : (headOf s head).slicesBegun < slotSlices (headOf s head) b)
    (come : headReached s (lineStart (headOf s head) b ((headOf s head).slicesBegun * hbSlice b)) = true) :
    execSliceBegin head s = .next (beginSlice head slot (headOf s head) b s) := by
  simp [execSliceBegin, need, guardThat, cfg, bound, virtual, scanning, left, come]
theorem keepsHeads_postDrops (head slot : Nat) (s : State) : KeepsHeads s (postDrops head slot s) := by
  unfold postDrops
  dsimp only
  split
  · exact .refl s
  · exact keepsHeads_postOther ..
theorem postDrops_none (none_ : (headOf s head).droppedFrame = 0) : postDrops head slot s = s := if_pos none_
theorem postDrops_some (some_ : (headOf s head).droppedFrame ≠ 0) : postDrops head slot s = postEvent slot kUnderrun 0x02
    (natLe 4 (namedFrame (headOf s head)) ++ natLe 2 head ++ natLe 4 (headOf s head).droppedFrame) s := if_neg some_
theorem beginSlice_begins (slot : Nat) (room : noRoom (headOf s head) b = false) (clean : (headOf s head).droppedFrame = 0) :
    beginSlice head slot (headOf s head) b s = modHead head (sliceBegun b) s := by
  have begun : (headOf (modHead head (sliceBegun b) s) head).droppedFrame = 0 := by rw [headOf_modHead_same]; exact clean
  simp only [beginSlice, room, clean, Nat.lt_irrefl, decide_false, Bool.or_self, Bool.false_eq_true, if_false]
  split
  · exact postDrops_none begun
  · rfl
theorem beginSlice_drops (slot : Nat) (full : noRoom (headOf s head) b = true ∨ 0 < (headOf s head).droppedFrame) :
    beginSlice head slot (headOf s head) b s =
      if (headOf s head).slicesBegun + 1 = slotSlices (headOf s head) b then postDrops head slot (modHead head sliceDropped s)
      else modHead head sliceDropped s := by
  have drop : (decide (0 < (headOf s head).droppedFrame) || noRoom (headOf s head) b) = true := by
    rcases full with h | h <;> simp [h]
  have dropped : modHead head (fun h => bumpDrops { h with slicesBegun := (headOf s head).slicesBegun + 1 }) s = modHead head sliceDropped s :=
    congrArg (fun h => modHead head (fun _ => h) s) (bumpDrops_begun (headOf s head))
  simp only [beginSlice, drop, if_true, dropped]
end

/-! ## The entry of a slice (09 R332, R333) -/

/-- A head without what missed lines count and mark. -/
def unmissed (h : Head) : Head := { h with underruns := 0, wrapped := false, fresh := 0, underrun := false, underrunFrame := 0 }
theorem unmissed_bumpUnderruns (n : Nat) (h : Head) : unmissed (bumpUnderruns n h) = unmissed h := by
  unfold bumpUnderruns
  split <;> rfl
theorem bumpUnderruns_underruns (n : Nat) (h : Head) : (bumpUnderruns n h).underruns = h.underruns + BitVec.ofNat 32 n := by
  unfold bumpUnderruns
  split
  · next none_ => simp [none_]
  · rfl
/-- A head whose oldest slice is no longer in flight. -/
def sliceTaken (padded : Nat) (rs : List LineRead) (h : Head) : Head :=
  bumpUnderruns padded { h with
    inFlight := h.inFlight.drop 1, afterDrop := false, lastPx := (rs.getLast?.bind (·.last)).orElse (fun _ => h.lastPx) }
theorem fields_of_unmissed {m h : Head} (e : unmissed m = unmissed h) : m.inFlight = h.inFlight ∧ m.afterDrop = h.afterDrop ∧ m.prod = h.prod ∧
    m.beg = h.beg ∧ m.slicesBegun = h.slicesBegun ∧ m.cfg = h.cfg ∧ m.shown = h.shown :=
  ⟨(congrArg Head.inFlight e :), (congrArg Head.afterDrop e :), (congrArg Head.prod e :), (congrArg Head.beg e :), (congrArg Head.slicesBegun e :),
    (congrArg Head.cfg e :), (congrArg Head.shown e :)⟩
theorem sliceTaken_fields (padded : Nat) (rs : List LineRead) (h : Head) :
    (sliceTaken padded rs h).inFlight = h.inFlight.drop 1 ∧ (sliceTaken padded rs h).afterDrop = false ∧ (sliceTaken padded rs h).prod = h.prod ∧
      (sliceTaken padded rs h).beg = h.beg ∧ (sliceTaken padded rs h).slicesBegun = h.slicesBegun ∧ (sliceTaken padded rs h).cfg = h.cfg ∧
      (sliceTaken padded rs h).shown = h.shown := fields_of_unmissed (unmissed_bumpUnderruns ..)
/-- A head whose ring has one entry more. -/
def produced (h : Head) : Head := { h with prod := h.prod + 1 }
/-- A head whose entry has been delivered: a ring's producer index moves on. -/
def delivered (b : Bytes) (h : Head) : Head := { h with prod := if hbHinge b then h.prod else h.prod + 1 }
/-- The address of a ring's next entry. -/
def entryAddr (b : Bytes) (h : Head) : Nat := hbRingBase b + hbEntryBytes b * (h.prod.toNat % hbEntryCount b)

theorem delivered_fields (b : Bytes) (h : Head) : (delivered b h).inFlight = h.inFlight ∧ (delivered b h).afterDrop = h.afterDrop ∧
    (delivered b h).prod = (if hbHinge b then h.prod else h.prod + 1) ∧ (delivered b h).beg = h.beg ∧ (delivered b h).slicesBegun = h.slicesBegun ∧
    (delivered b h).underruns = h.underruns ∧ (delivered b h).cfg = h.cfg ∧ (delivered b h).shown = h.shown :=
  ⟨rfl, rfl, rfl, rfl, rfl, rfl, rfl, rfl⟩
/-- A head as its oldest slice is taken and its entry delivered. -/
theorem delivered_sliceTaken_fields (b : Bytes) (padded : Nat) (rs : List LineRead) (h : Head) {m : Head}
    (hm : m = delivered b (sliceTaken padded rs h)) : m.inFlight = h.inFlight.drop 1 ∧ m.afterDrop = false ∧
      m.prod = (if hbHinge b then h.prod else h.prod + 1) ∧ m.beg = h.beg ∧ m.slicesBegun = h.slicesBegun ∧
      m.underruns = h.underruns + BitVec.ofNat 32 padded ∧ m.cfg = h.cfg ∧ m.shown = h.shown := by
  obtain ⟨flight, drop, prod, beg, begun, cfg, shown⟩ := sliceTaken_fields padded rs h
  obtain ⟨flight', drop', prod', beg', begun', underruns', cfg', shown'⟩ := delivered_fields b (sliceTaken padded rs h)
  rw [hm]
  exact ⟨flight'.trans flight, drop'.trans drop, prod'.trans (congrArg (fun p : U32 => if hbHinge b then p else p + 1) prod), beg'.trans beg,
    begun'.trans begun, underruns'.trans (bumpUnderruns_underruns ..), cfg'.trans cfg, shown'.trans shown⟩
theorem keepsHeads_sendMsix (fn v : Nat) (s : State) : KeepsHeads s (sendMsix fn v s) := keepsHeads_of_recordless (recordless_sendMsix fn v s)
theorem keepsHeads_chargeHost (slot rx tx : Nat) (s : State) : KeepsHeads s (chargeHost slot rx tx s) := keepsHeads_modCtx slot _ s
theorem keepsHeads_spoilHost (addr n : Nat) (s : State) : KeepsHeads s (spoilHost addr n s) := ⟨rfl, rfl, rfl, rfl, rfl⟩

/-! ## Errors (11 R409, R410) -/

/-- A function with an error noted in its registers. -/
def noteErr (bit : Nat) (st : U32) (info : U64) (f : Fn) : Fn :=
  { f with errStatus := st, errFresh := f.errFresh ||| BitVec.ofNat 32 (2 ^ bit), errInfo := info }
/-- An error sets its bit in a function's registers, and may send a message. -/
theorem raiseErrFn_eq (fn bit unit detail : Nat) (s : State) : ∃ k info m,
    m = modFn fn (noteErr bit ((fnOf s fn).errStatus ||| BitVec.ofNat 32 (2 ^ bit)) info) { s with free := k } ∧
    (raiseErrFn fn bit unit detail s = m ∨ ∃ v, raiseErrFn fn bit unit detail s = sendMsix fn v m) := by
  unfold raiseErrFn
  dsimp only
  by_cases free : unit = 0
  all_goals
    simp only [free, if_true, if_false]
    split
    · exact ⟨_, _, _, rfl, .inr ⟨_, rfl⟩⟩
    · exact ⟨_, _, _, rfl, .inl rfl⟩
theorem errStatus_sendMsix (fn v : Nat) (s : State) (f : Nat) : (fnOf (sendMsix fn v s) f).errStatus = (fnOf s f).errStatus := by
  unfold sendMsix
  split
  · rw [fnOf_modFn]
    split
    · next own => rw [own.1]
    · rfl
  · rfl
theorem mem_sent_sendMsix {fn v : Nat} {s : State} {m : HostMsg} (h : m ∈ s.sent) : m ∈ (sendMsix fn v s).sent := by
  unfold sendMsix
  split
  · exact h
  · exact List.mem_append_left _ h
section
variable {fn bit unit detail : Nat} {s : State}
theorem errStatus_raiseErrFn (f : Nat) : (fnOf (raiseErrFn fn bit unit detail s) f).errStatus =
    if f = fn ∧ fn < s.fns.length then (fnOf s fn).errStatus ||| BitVec.ofNat 32 (2 ^ bit) else (fnOf s f).errStatus := by
  obtain ⟨k, info, m, hm, raised⟩ := raiseErrFn_eq fn bit unit detail s
  have noted : (fnOf m f).errStatus =
      if f = fn ∧ fn < s.fns.length then (fnOf s fn).errStatus ||| BitVec.ofNat 32 (2 ^ bit) else (fnOf s f).errStatus := by
    rw [hm, fnOf_modFn]
    split <;> rfl
  obtain e | ⟨v, e⟩ := raised
  · rw [e, noted]
  · rw [e, errStatus_sendMsix, noted]
theorem mem_sent_raiseErrFn {m : HostMsg} (h : m ∈ s.sent) : m ∈ (raiseErrFn fn bit unit detail s).sent := by
  obtain ⟨k, info, q, rfl, e | ⟨v, e⟩⟩ := raiseErrFn_eq fn bit unit detail s <;> rw [e]
  · exact h
  · exact mem_sent_sendMsix h
theorem keepsHeads_raiseErrFn (fn bit unit detail : Nat) (s : State) : KeepsHeads s (raiseErrFn fn bit unit detail s) := by
  obtain ⟨k, info, q, hq, raised⟩ := raiseErrFn_eq fn bit unit detail s
  have noted : KeepsHeads s q := hq ▸ ⟨rfl, rfl, rfl, rfl, rfl⟩
  obtain e | ⟨v, e⟩ := raised <;> rw [e]
  · exact noted
  · exact noted.trans (keepsHeads_sendMsix ..)
/-- A bit of an error register that is set stays set when an error is raised. -/
theorem errSet_raiseErrFn {f i : Nat} (h : errSet s f i) : errSet (raiseErrFn fn bit unit detail s) f i := by
  unfold errSet at h ⊢
  rw [errStatus_raiseErrFn]
  split
  · next own => rw [← own.1, BitVec.getLsbD_or, h, Bool.true_or]
  · exact h
theorem errSet_of_fns {m n : State} {f i : Nat} (fns : n.fns = m.fns) (h : errSet m f i) : errSet n f i := by
  unfold errSet fnOf at h ⊢
  rwa [fns]
theorem errSet_raiseErrFn_own (hfn : fn < s.fns.length) (hbit : bit < 32) : errSet (raiseErrFn fn bit unit detail s) fn bit := by
  unfold errSet
  rw [errStatus_raiseErrFn, if_pos ⟨rfl, hfn⟩, BitVec.getLsbD_or, BitVec.getLsbD_ofNat, Nat.testBit_two_pow_self]
  simp [hbit]
end
theorem raiseErr_eq (bit unit detail w : Nat) (s : State) : raiseErr bit unit detail (some w) s =
    if w ≠ 0 ∧ w ≤ s.vfs then raiseErrFn w bit unit detail (raiseErrFn 0 bit unit detail s) else raiseErrFn 0 bit unit detail s := rfl
theorem keepsHeads_hostDmaFailed (w addr : Nat) (s : State) : KeepsHeads s (hostDmaFailed w addr s) := by
  have reported : KeepsHeads s { s with sent := s.sent ++ [.aerHostAccess] } := ⟨rfl, rfl, rfl, rfl, rfl⟩
  rw [hostDmaFailed, raiseErr_eq]
  split
  · exact (reported.trans (keepsHeads_raiseErrFn ..)).trans (keepsHeads_raiseErrFn ..)
  · exact reported.trans (keepsHeads_raiseErrFn ..)
/-- A failed transfer sets HOST_DMA in the PF's registers and is reported to the host. -/
theorem hostDmaFailed_reports {s : State} (w addr : Nat) (pf : 0 < s.fns.length) :
    errSet (hostDmaFailed w addr s) 0 3 ∧ HostMsg.aerHostAccess ∈ (hostDmaFailed w addr s).sent := by
  have noted := errSet_raiseErrFn_own (s := { s with sent := s.sent ++ [.aerHostAccess] }) (bit := eHostDma) (unit := 0) (detail := addr) pf (by decide)
  have sent : HostMsg.aerHostAccess ∈ (raiseErrFn 0 eHostDma 0 addr { s with sent := s.sent ++ [.aerHostAccess] }).sent :=
    mem_sent_raiseErrFn (List.mem_append_right _ (List.mem_singleton_self _))
  rw [hostDmaFailed, raiseErr_eq]
  split
  · exact ⟨errSet_raiseErrFn noted, mem_sent_raiseErrFn sent⟩
  · exact ⟨noted, sent⟩

/-! ## SLICE_WRITTEN (09 R333; 12 R428) -/

section
variable {head slot : Nat} {s : State} {b : Bytes}
theorem exec_sliceWritten (head : Nat) (got : List Nat) (ok : Bool) (s : State) :
    exec (.sliceWritten head got ok) s = execSliceWritten head got ok s := rfl
theorem execSliceWritten_next {k start : Nat} {rest : List (Nat × Nat)} (got : List Nat) (ok : Bool) (cfg : (headOf s head).cfg = some b)
    (bound : (headOf s head).ctx = some slot) (oldest : (headOf s head).inFlight = (k, start) :: rest) :
    execSliceWritten head got ok s = .next (writeSlice head slot (headOf s head) b k start got ok s) := by
  simp [execSliceWritten, need, cfg, bound, oldest]
/-- The state as the entry stands in host memory, or as its transfer has failed. -/
def placed (head : Nat) (b entry : Bytes) (ok : Bool) (s : State) : State :=
  if ok then hostWrite (entryAddr b (headOf s head)) entry s
  else spoilHost (entryAddr b (headOf s head)) entry.length (hostDmaFailed (headFn s head) (entryAddr b (headOf s head)) s)
/-- The same with the producer index written after the entry, and both charged. -/
def producing (head slot : Nat) (b entry : Bytes) (ok : Bool) (s : State) : State :=
  chargeHost slot 0 (entry.length + 4) (hostWrite (hbProducer b) (natLe 4 ((headOf s head).prod + 1).toNat) (placed head b entry ok s))
theorem deliver_ring (slot : Nat) (entry : Bytes) (ok : Bool) (ring : hbHinge b = false) :
    deliver head slot b entry ok s = modHead head produced (producing head slot b entry ok s) := by
  simp only [deliver, ring, Bool.false_eq_true, if_false]
  rfl
theorem deliver_hostMem (slot : Nat) (entry : Bytes) (ring : hbHinge b = false) : (deliver head slot b entry true s).hostMem =
    Mem.writeN (Mem.writeN s.hostMem (entryAddr b (headOf s head)) entry) (hbProducer b) (natLe 4 ((headOf s head).prod + 1).toNat) := by
  rw [deliver_ring slot entry true ring]
  rfl
theorem producing_fails (head slot : Nat) (b entry : Bytes) (s : State) :
    (producing head slot b entry false s).fns = (hostDmaFailed (headFn s head) (entryAddr b (headOf s head)) s).fns ∧
      (producing head slot b entry false s).sent = (hostDmaFailed (headFn s head) (entryAddr b (headOf s head)) s).sent := ⟨rfl, rfl⟩
theorem deliver_fails (slot : Nat) (entry : Bytes) (ring : hbHinge b = false) (pf : 0 < s.fns.length) :
    errSet (deliver head slot b entry false s) 0 3 ∧ HostMsg.aerHostAccess ∈ (deliver head slot b entry false s).sent := by
  obtain ⟨noted, reported⟩ := hostDmaFailed_reports (headFn s head) (entryAddr b (headOf s head)) pf
  obtain ⟨fns, sent⟩ := producing_fails head slot b entry s
  rw [deliver_ring slot entry false ring, modHead_sent, sent]
  exact ⟨errSet_of_fns ((modHead_fns ..).trans fns) noted, reported⟩
theorem keepsHeads_placed (head : Nat) (b entry : Bytes) (ok : Bool) (s : State) : KeepsHeads s (placed head b entry ok s) := by
  unfold placed
  split
  · exact keepsHeads_hostWrite ..
  · exact (keepsHeads_hostDmaFailed ..).trans (keepsHeads_spoilHost ..)
theorem deliver_sets (head slot : Nat) (b entry : Bytes) (ok : Bool) (s : State) :
    SetsHead head (delivered b (headOf s head)) s (deliver head slot b entry ok s) := by
  cases hinge : hbHinge b with
  | false =>
    rw [deliver_ring slot entry ok hinge]
    have written : KeepsHeads s (producing head slot b entry ok s) :=
      ((keepsHeads_placed head b entry ok s).trans (keepsHeads_hostWrite ..)).trans (keepsHeads_chargeHost ..)
    have moved : delivered b (headOf s head) = produced (headOf s head) := by simp [delivered, produced, hinge]
    rw [moved]
    exact (written.setsHead head).modHead produced
  | true =>
    have same : delivered b (headOf s head) = headOf s head := by simp [delivered, hinge]
    have keeps : KeepsHeads s (deliver head slot b entry ok s) := by
      simp only [deliver, hinge, if_true]
      split
      · exact .refl s
      · exact (keepsHeads_modCtx ..).trans (keepsHeads_of_hingeSide (Say.sendFor_hingeSide ..))
    rw [same]
    exact keeps.setsHead head
end

end Sys2Proof.Machine

namespace Sys2Proof.Say
open Sys2Proof.Machine

/-- A slice begun or dropped sets its head and, at the last one, reports what was dropped; a slice written is its entry, the producer
index after it, and the head. -/
theorem slicesGoOut_holds : slicesGoOut := by
  refine ⟨fun s head slot b cfg bound virtual scanning => ?begin_, fun s head slot b k start rest got cfg bound oldest => ?write⟩
  case begin_ =>
    intro h left come
    have run := (exec_sliceBegin head s).trans (execSliceBegin_next cfg bound virtual scanning left come)
    refine ⟨fun room clean => ?_, fun full => ?_⟩
    · have set := setsHead_modHead head (sliceBegun b) s
      exact ⟨_, run.trans (congrArg _ (beginSlice_begins slot room clean)), rfl, set.only, set.eq⟩
    · have set := setsHead_modHead head sliceDropped s
      rw [beginSlice_drops slot full] at run
      by_cases last : h.slicesBegun + 1 = slotSlices h b
      · rw [if_pos last] at run
        have reported := set.keep (keepsHeads_postDrops head slot _)
        refine ⟨_, run, reported.only, reported.eq, fun more => absurd last more.ne, fun _ => ?_⟩
        rw [postDrops_some (by rw [set.eq]; exact Nat.succ_ne_zero _), set.eq]
        exact postEvent_posts _ _ _ (keepsRing_modHead ..)
      · rw [if_neg last] at run
        exact ⟨_, run, set.only, set.eq, fun _ => rfl, fun e => absurd e last⟩
  case write =>
    intro h rs padded entry addr
    have run (ok : Bool) : exec (.sliceWritten head got ok) s = .next (deliver head slot b entry ok (modHead head (sliceTaken padded rs) s)) :=
      (exec_sliceWritten head got ok s).trans (execSliceWritten_next got ok cfg bound oldest)
    have taken := setsHead_modHead head (sliceTaken padded rs) s
    refine ⟨fun ok => ?_, fun ring canonical => ?_, fun ring sized => ?_⟩
    · have set := taken.trans (deliver_sets head slot b entry ok _)
      rw [taken.eq] at set
      obtain ⟨flight, fields⟩ := delivered_sliceTaken_fields b padded rs h set.eq
      exact ⟨_, run ok, set.only, flight.trans (congrArg (List.drop 1) oldest), fields⟩
    · obtain ⟨-, -, prod, -⟩ := sliceTaken_fields padded rs h
      have place : entryAddr b (sliceTaken padded rs h) = addr :=
        congrArg (fun p : U32 => hbRingBase b + hbEntryBytes b * (p.toNat % hbEntryCount b)) prod
      have next : (sliceTaken padded rs h).prod + 1 = h.prod + 1 := congrArg (· + 1) prod
      have number : (h.prod + 1).toNat = (h.prod.toNat + 1) % 2 ^ 32 := BitVec.toNat_add ..
      have mem := deliver_hostMem (head := head) (s := modHead head (sliceTaken padded rs) s) slot entry ring
      rw [taken.eq, modHead_hostMem, place, next, number] at mem
      have entered := Mem.writeN_wf entry (a := addr) canonical
      refine ⟨_, run true, ?_, fun i hi apart => ?_, fun a apart apart' => ?_⟩
      · have read := Mem.readN_writeN entered (hbProducer b) (natLe 4 ((h.prod.toNat + 1) % 2 ^ 32))
        rwa [natLe_length, ← mem] at read
      · rw [mem, Mem.read_writeN_other _ (by rw [natLe_length]; exact apart), Mem.read_writeN canonical, if_pos (by omega), Nat.add_sub_cancel_left]
      · rw [mem, Mem.read_writeN_other _ (by rw [natLe_length]; exact apart'), Mem.read_writeN_other _ apart]
    · have pf : 0 < (modHead head (sliceTaken padded rs) s).fns.length := sized.1 ▸ (by decide : 0 < 16)
      exact ⟨_, run false, deliver_fails slot entry ring pf⟩

end Sys2Proof.Say
end

section
/-!
PROOFS. Active lines, the end of a scan, the ring's consumer (09 R333, R339, R340) and genlock (09 R327).
-/
namespace Sys2Proof.Machine

/-! ## ACTIVE_LINE_SCAN (09 R339) -/

theorem bumpUnderruns_zero (h : Head) : bumpUnderruns 0 h = h := rfl
theorem bumpUnderruns_one (h : Head) : bumpUnderruns 1 h = { h with
    underruns := h.underruns + 1, wrapped := h.wrapped || h.underruns == BitVec.allOnes 32
    fresh := headFresh h 256 (h.underruns == BitVec.allOnes 32), underrun := true, underrunFrame := h.underrunFrame + 1 } := by
  simp only [bumpUnderruns, bump32_one]
  rfl
/-- A head that has sent its next active line. -/
def lineScanned (b : Bytes) (r : LineRead) (h : Head) : Head :=
  { h with slicesBegun := h.slicesBegun + 1, lastPx := r.last, lineSent := sentLine b ((shownReady h).map (·.img)) h.slicesBegun r }
/-- A line of a shown frame is not read in time. -/
def lineMissed (b : Bytes) (delivered : Nat) (h : Head) : Bool := (shownReady h).isSome && decide (delivered < hbWidth b)

section
variable {head slot : Nat} {s : State} {b : Bytes}
theorem exec_activeLineScan (head delivered : Nat) (s : State) : exec (.activeLineScan head delivered) s = execActiveLineScan head delivered s := rfl
theorem execActiveLineScan_next (delivered : Nat) (cfg : (headOf s head).cfg = some b) (physical : 1024 ≤ head)
    (scanning : (headOf s head).scanDone = false) (left : (headOf s head).slicesBegun < hbHeight b)
    (come : headReached s (lineStart (headOf s head) b (headOf s head).slicesBegun) = true) : execActiveLineScan head delivered s =
      .next (modHead head (fun h => bumpUnderruns (b2n (lineMissed b delivered (headOf s head)))
        (lineScanned b (physicalRead (headOf s head) b delivered) h)) s) := by
  simp only [execActiveLineScan, need, guardThat, cfg, physical, scanning, left, come, decide_true, Bool.not_false, Bool.and_self, if_true]
  rfl

/-! ## FRAME_SCAN_END (09 R340) -/

theorem exec_frameScanEnd (head : Nat) (s : State) : exec (.frameScanEnd head) s = execFrameScanEnd head s := rfl
theorem execFrameScanEnd_next (cfg : (headOf s head).cfg = some b) (bound : (headOf s head).ctx = some slot)
    (scanning : (headOf s head).scanDone = false) (scanned : allScanned head (headOf s head) b = true)
    (come : headReached s (lineStart (headOf s head) b (if headerOnly (headOf s head) b then 0 else hbHeight b)) = true) :
    execFrameScanEnd head s = .next (endScan head slot (headOf s head) b s) := by
  simp only [execFrameScanEnd, need, guardThat, cfg, bound, scanning, scanned, come, Bool.not_false, Bool.and_self, if_true]
/-- A head whose scan has ended. -/
def scanEnded (h : Head) : Head := { h with scanDone := true }
/-- The same with the signature of the frame that it shows. -/
def scanSigned (b : Bytes) (r : Ready) (h : Head) : Head :=
  { h with scanDone := true, signature := BitVec.ofNat 32 (signatureOf b r.img), sigFrame := BitVec.ofNat 32 r.frame.number }
/-- UNDERRUN, where lines of the scan were missed. -/
def reportMissed (head slot : Nat) (h : Head) (s : State) : State :=
  if h.underrunFrame = 0 then s else postEvent slot kUnderrun 0x01 (natLe 4 (namedFrame h) ++ natLe 2 head ++ natLe 4 h.underrunFrame) s
theorem keepsHeads_reportMissed (head slot : Nat) (h : Head) (s : State) : KeepsHeads s (reportMissed head slot h s) := by
  unfold reportMissed
  split
  · exact .refl s
  · exact keepsHeads_postOther ..
/-- The end of a scan: a frame shown for the first time leaves its signature, and missed lines are reported. -/
theorem endScan_eq (head slot : Nat) (h : Head) (b : Bytes) (s : State) : ∃ g, endScan head slot h b s = reportMissed head slot h (modHead head g s) ∧
    (∀ r, shownReady h = some r → h.isRepeat = false → g = scanSigned b r) ∧ (shownReady h = none ∨ h.isRepeat = true → g = scanEnded) := by
  cases shown : shownReady h with
  | none =>
    refine ⟨scanEnded, ?_, fun r some_ => absurd some_ (Option.some_ne_none r).symm, fun _ => rfl⟩
    simp only [endScan, shown]
    rfl
  | some r =>
    cases again : h.isRepeat with
    | true =>
      refine ⟨scanEnded, ?_, fun _ _ unrepeated => absurd unrepeated (by decide), fun _ => rfl⟩
      simp only [endScan, shown, again, if_true]
      rfl
    | false =>
      refine ⟨scanSigned b r, ?_, fun q hq _ => congrArg (scanSigned b) (Option.some.inj hq), fun unsigned => ?_⟩
      · simp only [endScan, shown, again, Bool.false_eq_true, if_false]
        rfl
      · exact absurd unsigned (by simp)

/-! ## RING_CONSUMER_WRITE (09 R333) -/

theorem exec_ringConsumerWrite (fn head v : Nat) (s : State) : exec (.ringConsumerWrite fn head v) s = execRingConsumerWrite fn head v s := rfl
theorem execRingConsumerWrite_eq (fn head v : Nat) (s : State) : execRingConsumerWrite fn head v s =
    .next (if barsOpen s fn = true ∧ head ≤ 1025 ∧ (fn = 0 ∨ headInWard s fn head = true) then writeConsumerIndex head v s else s) := by
  have opens : (barsOpen s fn && headOpen s fn head) = true ↔ barsOpen s fn = true ∧ head ≤ 1025 ∧ (fn = 0 ∨ headInWard s fn head = true) := by
    simp [headOpen]
  unfold execRingConsumerWrite
  simp only [opens]
  split <;> rfl
/-- A head whose ring's consumer index has moved. -/
def consumed (v : Nat) (h : Head) : Head := { h with consumer := BitVec.ofNat 32 v }
theorem writeConsumerIndex_moves {v : Nat} (cfg : (headOf s head).cfg = some b) (virtual : head < 1024)
    (owed : ((headOf s head).prod - BitVec.ofNat 32 v).toNat ≤ hbEntryCount b) :
    writeConsumerIndex head v s = modHead head (consumed v) s := by
  refine if_neg ?_
  rw [cfg]
  exact not_or.mpr ⟨Nat.not_le.mpr virtual, Nat.not_lt.mpr owed⟩
theorem writeConsumerIndex_ignores {v : Nat} (cfg : (headOf s head).cfg = some b)
    (bad : 1024 ≤ head ∨ hbEntryCount b < ((headOf s head).prod - BitVec.ofNat 32 v).toNat) : writeConsumerIndex head v s = s := by
  refine if_pos ?_
  rw [cfg]
  exact bad

/-! ## GPIO_SYNC_EDGE (09 R327) -/

/-- The genlocked heads of a device, with their blocks. -/
def genlocked (s : State) : List (Nat × Bytes) :=
  s.heads.filterMap (fun x => x.2.cfg.bind (fun b => if hbGenlock b then some (x.1, b) else none))
theorem exec_gpioSyncEdge (s : State) : exec .gpioSyncEdge s = execGpioSyncEdge s := rfl
theorem execGpioSyncEdge_next (untaken : s.perf.externalOn = false) :
    execGpioSyncEdge s = .next ((genlocked s).foldl (fun q x => genlockEdge x.1 (nowHead q) x.2 q) s) := by
  unfold execGpioSyncEdge genlocked
  dsimp only
  rw [untaken, if_neg Bool.false_ne_true]
/-- The edge comes within one line of a predicted start. -/
def near (b : Bytes) (dst p : Nat) : Bool := decide ((max dst p - min dst p) * hbVt b ≤ hbPeriod b)
/-- A head that an edge near its predicted start locks. -/
def locked (h : Head) : Head := { h with locked := true, outside := 0 }
/-- A head that an edge elsewhere leaves unlocked. -/
def unlocked (h : Head) : Head := { h with locked := false, outside := h.outside + 1 }
theorem genlockEdge_near {e p : Nat} (hp : predicted s (headOf s head) = p) (close : near b (e + hbOffset b) p = true) :
    genlockEdge head e b s = modHead head locked (moveStart head p (e + hbOffset b) s) := by
  subst hp
  exact if_pos close
theorem genlockEdge_first {e p : Nat} (hp : predicted s (headOf s head) = p) (far : ¬ near b (e + hbOffset b) p = true)
    (clean : (headOf s head).outside = 0) : genlockEdge head e b s = modHead head unlocked s := by
  subst hp
  exact (if_neg far).trans (if_pos clean)
theorem genlockEdge_later {e p : Nat} (hp : predicted s (headOf s head) = p) (far : ¬ near b (e + hbOffset b) p = true)
    (later : 0 < (headOf s head).outside) :
    genlockEdge head e b s = moveStart head p (e + hbOffset b) (modHead head unlocked s) := by
  subst hp
  exact (if_neg far).trans (if_neg later.ne')

/-- A head whose next period starts elsewhere. -/
def movedTo (dst : Nat) (h : Head) : Head := { h with nextStart := dst }
/-- A bound head whose next slot starts elsewhere. -/
def slotMoved (from_ dst : Nat) (h : Head) : Head :=
  { h with
    refInstant := ((h.refInstant : Int) + (dst : Int) - (from_ : Int)).toNat, nextStart := if h.begun then dst else h.nextStart
    nextDeadline := BitVec.ofNat 64 (tbOfHead dst) }
theorem slotMoved_begun {h : Head} (from_ dst : Nat) (begun : h.begun = true) : slotMoved from_ dst h = { h with
    refInstant := ((h.refInstant : Int) + (dst : Int) - (from_ : Int)).toNat, nextStart := dst
    nextDeadline := BitVec.ofNat 64 (tbOfHead dst) } := by
  simp only [slotMoved, begun, if_true]
theorem modHead_modHead (head : Nat) (f g : Head → Head) (s : State) : modHead head g (modHead head f s) = modHead head (fun h => g (f h)) s := by
  unfold modHead
  rw [show headOf { s with heads := tput s.heads head (f (headOf s head)) } head = f (headOf s head) from headOf_modHead_same head f s, tput_tput]
theorem moveStart_unbound {from_ dst : Nat} (free : (headOf s head).ctx = none) :
    moveStart head from_ dst s = modHead head (movedTo dst) s := by
  have unbound : boundCtx s (headOf s head) = none := by simp [boundCtx, free]
  simp only [moveStart, unbound]
  rfl
theorem moveStart_bound {from_ dst : Nat} {x : Ctx} (bound : (headOf s head).ctx = some slot) (hx : liveCtx s slot = some x) :
    moveStart head from_ dst s = refreshDeadline head slot (modHead head (slotMoved from_ dst) s) := by
  have own : (headOf s head).ctx.getD 0 = slot := by rw [bound]; rfl
  simp only [moveStart, boundCtx_of_live bound hx, own]
  rfl
theorem keepsHeads_refreshDeadline (head slot : Nat) (s : State) : KeepsHeads s (refreshDeadline head slot s) := keepsHeads_modCtx slot _ s
theorem predicted_unbound (free : (headOf s head).ctx = none) : predicted s (headOf s head) = (headOf s head).nextStart := by
  simp [predicted, boundCtx, free]
theorem predicted_begun {x : Ctx} (bound : (headOf s head).ctx = some slot) (hx : liveCtx s slot = some x)
    (begun : (headOf s head).begun = true) : predicted s (headOf s head) = (headOf s head).nextStart := by
  simp [predicted, boundCtx_of_live bound hx, slotDeadline, begun]
end

end Sys2Proof.Machine

namespace Sys2Proof.Say
open Sys2Proof.Machine

/-- A line, the end of a scan and the consumer index each set their head; missed lines are reported at the end. -/
theorem scansEnd_holds : scansEnd := by
  refine ⟨fun s head b delivered cfg physical scanning => ?line, fun s head slot b cfg bound scanning => ?ends, fun s fn head v b hv cfg => ?consumer⟩
  case line =>
    intro h r line left come
    have run := (exec_activeLineScan head delivered s).trans (execActiveLineScan_next delivered cfg physical scanning left come)
    have set := setsHead_modHead head (fun h' => bumpUnderruns (b2n (lineMissed b delivered h)) (lineScanned b r h')) s
    refine ⟨_, run, rfl, set.only, fun inTime => ?_, fun shown late => ?_⟩
    · have none_ : lineMissed b delivered h = false := by
        rcases inTime with black | read
        · simp [lineMissed, black]
        · simp [lineMissed, Nat.not_lt.mpr read]
      refine set.eq.trans ?_
      rw [none_]
      exact bumpUnderruns_zero _
    · have missed : lineMissed b delivered h = true := by simp [lineMissed, shown, late]
      refine set.eq.trans ?_
      rw [missed]
      exact bumpUnderruns_one _
  case ends =>
    intro h scanned come
    have run := (exec_frameScanEnd head s).trans (execFrameScanEnd_next cfg bound scanning scanned come)
    obtain ⟨g, ended, signs, plain⟩ := endScan_eq head slot h b s
    have set := (setsHead_modHead head g s).keep (keepsHeads_reportMissed head slot h _)
    refine ⟨_, run.trans (congrArg _ ended), set.only, fun r shown unrepeated => ?_, fun unsigned => ?_, fun clean => ?_, fun missed => ?_⟩
    · exact set.eq.trans (congrArg (fun k => k h) (signs r shown unrepeated))
    · exact set.eq.trans (congrArg (fun k => k h) (plain unsigned))
    · rw [reportMissed, if_pos clean]
      rfl
    · rw [reportMissed, if_neg missed.ne']
      exact postEvent_posts _ _ _ (keepsRing_modHead ..)
  case consumer =>
    intro h open_ owed
    have run := (exec_ringConsumerWrite fn head v s).trans (execRingConsumerWrite_eq fn head v s)
    refine ⟨fun opens virtual low => ?_, fun refused => ?_⟩
    · rw [if_pos opens, writeConsumerIndex_moves cfg virtual low] at run
      exact ⟨_, run, rfl, (setsHead_modHead head (consumed v) s).only, (setsHead_modHead head (consumed v) s).eq⟩
    · refine ⟨s, run.trans (congrArg _ ?_), rfl⟩
      split
      · next opens => exact writeConsumerIndex_ignores cfg (refused.resolve_left (not_not.mpr opens))
      · rfl

section
variable {s : State} {head : Nat} {b : Bytes}
/-- One genlocked head takes the edge. -/
theorem gpioSyncEdge_one (untaken : s.perf.externalOn = false) (only : genlocked s = [(head, b)]) :
    exec .gpioSyncEdge s = .next (genlockEdge head (nowHead s) b s) := by
  rw [exec_gpioSyncEdge, execGpioSyncEdge_next untaken, only, List.foldl_cons, List.foldl_nil]
variable (free : (headOf s head).ctx = none)
include free
theorem genlockEdge_locks_free {e : Nat} (close : near b (e + hbOffset b) (headOf s head).nextStart = true) :
    genlockEdge head e b s = modHead head (fun h => locked (movedTo (e + hbOffset b) h)) s := by
  rw [genlockEdge_near (predicted_unbound free) close, moveStart_unbound free, modHead_modHead]
theorem genlockEdge_moves_free {e : Nat} (far : ¬ near b (e + hbOffset b) (headOf s head).nextStart = true)
    (later : 0 < (headOf s head).outside) :
    genlockEdge head e b s = modHead head (fun h => movedTo (e + hbOffset b) (unlocked h)) s := by
  have free' : (headOf (modHead head unlocked s) head).ctx = none := by rw [headOf_modHead_same]; exact free
  rw [genlockEdge_later (predicted_unbound free) far later, moveStart_unbound free', modHead_modHead]
end

/-- One genlocked head takes the edge: it locks, or moves its start from the second edge elsewhere on. -/
theorem genlock_holds : genlock := by
  intro s untaken
  refine ⟨fun none_ => ?alone, fun head b only free => ?free, fun head b slot x only bound hx begun => ?bound⟩
  case alone =>
    refine ⟨_, (exec_gpioSyncEdge s).trans (execGpioSyncEdge_next untaken), ?_⟩
    rw [show genlocked s = [] from none_]
    rfl
  case free =>
    intro h dst close
    have edge := gpioSyncEdge_one untaken only
    have set (g : Head → Head) := setsHead_modHead head g s
    by_cases hclose : near b dst h.nextStart = true
    · have inside : close := of_decide_eq_true hclose
      rw [genlockEdge_locks_free free hclose] at edge
      exact ⟨_, edge, rfl, (set _).only, fun _ => (set _).eq, fun outside => absurd inside outside, fun outside => absurd inside outside⟩
    · have outside : ¬ close := fun inside => hclose (decide_eq_true inside)
      by_cases clean : h.outside = 0
      · rw [genlockEdge_first (predicted_unbound free) hclose clean] at edge
        refine ⟨_, edge, rfl, (set _).only, fun inside => absurd inside outside, fun _ _ => ?_, fun _ later => absurd clean later.ne'⟩
        rw [(set _).eq, unlocked, clean]
      · rw [genlockEdge_moves_free free hclose (Nat.pos_of_ne_zero clean)] at edge
        exact ⟨_, edge, rfl, (set _).only, fun inside => absurd inside outside, fun _ e => absurd e clean, fun _ _ => (set _).eq⟩
  case bound =>
    intro h dst inside
    have edge := gpioSyncEdge_one untaken only
    rw [genlockEdge_near (predicted_begun bound hx begun) (decide_eq_true inside), moveStart_bound bound hx] at edge
    have set := ((setsHead_modHead head (slotMoved h.nextStart dst) s).keep (keepsHeads_refreshDeadline head slot _)).modHead locked
    refine ⟨_, edge, rfl, set.only, set.eq.trans ?_⟩
    exact congrArg locked (slotMoved_begun h.nextStart dst begun)

end Sys2Proof.Say
namespace Sys2Proof.Machine
open Sys2Proof.Say

/-- Settles O45: a period start begins a slot with what it shows (`beginSlot_sets`), and slices, lines and edges each set one head
(`SetsHead.modHead`); an entry's bytes and its producer index are two writes to host memory (`deliver_hostMem`). -/
theorem scanOut : Obligations.ScanOut := ⟨periodsStart_holds, slicesGoOut_holds, scansEnd_holds, genlock_holds⟩

end Sys2Proof.Machine
end

section
/-! PROOFS. What reset leaves: the invariant, and the spec's reset values. -/
namespace Sys2Proof.Machine

theorem getD_replicate {α : Type} (n i : Nat) (d : α) : (List.replicate n d).getD i d = d := by
  rw [List.getD_eq_getElem?_getD, List.getElem?_getD_replicate_default_eq]
theorem sound_reset : Sound State.reset where
  host := rfl
  wards w hw := by rw [List.eq_of_mem_replicate hw]; rfl
  stores _ ht := nomatch ht
  sixteenWards := rfl
  sixteenFns := rfl
  fourPorts := rfl
/-- Settles O58: at reset there is no memory to keep in form, and no ward, function or port is missing. -/
theorem invariantAtReset : Obligations.InvariantAtReset := sound_reset

theorem wardOf_reset (w : Nat) : wardOf State.reset w = {} := getD_replicate 16 w ({} : Ward)
theorem fnOf_reset (f : Nat) : fnOf State.reset f = {} := getD_replicate 16 f ({} : Fn)
theorem portOf_reset (p : Nat) : portOf State.reset p = {} := getD_replicate 4 p ({} : Port)
theorem corePerf_reset (c : Nat) : corePerf State.reset c = {} := rfl

/-- Settles O56: each table that reset fills holds its default everywhere (`getD_replicate`); the rest is read off the state. -/
theorem resetState : Obligations.ResetState := by
  refine ⟨fun i => ⟨rfl, rfl, rfl, rfl⟩, fun w => ?_, fun f => ?_, fun h => ⟨rfl, rfl⟩, rfl, rfl, fun p => ?_, rfl, fun c i => ?_, fun i => rfl, ?_⟩
  · rw [wardOf_reset]; exact ⟨rfl, rfl, rfl, by decide⟩
  · rw [fnOf_reset]; exact ⟨rfl, rfl, rfl, rfl, rfl, rfl⟩
  · rw [portOf_reset]; exact ⟨rfl, rfl, rfl, rfl⟩
  · rw [corePerf_reset]; exact ⟨getD_replicate 8 i 0, getD_replicate 8 i 0, rfl⟩
  · decide
end Sys2Proof.Machine
end

section
/-! PROOFS. What every step keeps: the memories' canonical form, and the wards, functions and ports. -/
namespace Sys2Proof.Machine

/-! ## The invariant from one state to another -/

/-- A state that an operation leaves: sound where the first was, with the first one's queue and part. -/
structure KeepsSound (a s : State) : Prop where
  sound : Sound a → Sound s
  pending : s.pending = a.pending
  part : s.part = a.part
/-- An outcome whose next state, if there is one, keeps the first state's soundness, queue and part. -/
def AnswersSound (a : State) (o : Out) : Prop := ∀ n, o = .next n → KeepsSound a n

theorem KeepsSound.refl (a : State) : KeepsSound a a := ⟨id, rfl, rfl⟩

section
variable {a s n : State}
/-- What the invariant reads stands unchanged. -/
theorem KeepsSound.same {now free vfs nextTask nextSerial : Nat} {fw : Firmware} {boot : Boot} {flash : Flash} {op : OpPoint} {ras : Ras}
    {sec : Sec} {smb : Smb} {fns : List Fn} {slots : Table Slot} {ctxs : Table Ctx} {heads : Table Head} {tap : Option Tap}
    {cores : Table Core} {hasps : Table Hasp} {cycleOps : List WardOp} {detect : List DetectJob} {engines : Table FlowEngine}
    {feLast : Table Nat} {hinge : Hinge} {remotes : Table Remote} {perf : Perf} {sent : List HostMsg} {lastRead : Bytes} {lastPoisoned : Bool}
    (h : KeepsSound a s) (fnsLen : fns.length = s.fns.length := by rfl)
    (portsLen : hinge.ports.length = s.hinge.ports.length := by rfl) : KeepsSound a { s with
      now := now, free := free, fw := fw, boot := boot, flash := flash, op := op, ras := ras, sec := sec, smb := smb, vfs := vfs, fns := fns
      slots := slots, ctxs := ctxs, heads := heads, tap := tap, cores := cores, nextTask := nextTask, nextSerial := nextSerial, hasps := hasps
      cycleOps := cycleOps, detect := detect, engines := engines, feLast := feLast, hinge := hinge, remotes := remotes, perf := perf
      sent := sent, lastRead := lastRead, lastPoisoned := lastPoisoned } where
  sound ha := { h.sound ha with sixteenFns := fnsLen.trans (h.sound ha).sixteenFns, fourPorts := portsLen.trans (h.sound ha).fourPorts }
  pending := h.pending
  part := h.part
theorem KeepsSound.trans {m : State} (h : KeepsSound a s) (k : KeepsSound s m) : KeepsSound a m :=
  ⟨k.sound ∘ h.sound, k.pending.trans h.pending, k.part.trans h.part⟩
theorem KeepsSound.ite {p : Prop} [Decidable p] (h : KeepsSound a s) (k : KeepsSound a n) : KeepsSound a (if p then s else n) := by
  split
  · exact h
  · exact k
/-- A fold keeps what each of its steps keeps. -/
theorem KeepsSound.foldl {β : Type} {f : State → β → State} {l : List β} (h : KeepsSound a s)
    (step : ∀ s b, KeepsSound a s → KeepsSound a (f s b)) : KeepsSound a (l.foldl f s) := by
  induction l generalizing s with
  | nil => exact h
  | cons b l ih => exact ih (step s b h)

theorem AnswersSound.next (h : KeepsSound a s) : AnswersSound a (.next s) := fun _ e => by cases e; exact h
theorem AnswersSound.refused {r : Refusal} : AnswersSound a (.refused r) := fun _ e => nomatch e
theorem AnswersSound.notNow {why : String} : AnswersSound a (notNow why) := .refused
theorem AnswersSound.ite {p : Prop} [Decidable p] {o q : Out} (h : AnswersSound a o) (k : AnswersSound a q) :
    AnswersSound a (if p then o else q) := by
  split
  · exact h
  · exact k
theorem AnswersSound.need {α : Type} {o : Option α} {why : String} {f : α → Out} (h : ∀ x, o = some x → AnswersSound a (f x)) :
    AnswersSound a (need o why f) := by
  cases o with
  | none => exact .notNow
  | some x => exact h x rfl
theorem AnswersSound.guardThat {b : Bool} {why : String} {o : Out} (h : AnswersSound a o) : AnswersSound a (guardThat b why o) :=
  .ite h .notNow
end

/-! ## The updates of the tables -/

section
variable {a s : State}
theorem forall_mem_lmod {α : Type} {p : α → Prop} {l : List α} {i : Nat} {g : α → α} (h : ∀ x ∈ l, p x) (hg : ∀ x, p x → p (g x)) :
    ∀ x ∈ lmod l i g, p x := by
  intro x hx
  obtain ⟨j, hj⟩ := List.mem_iff_getElem?.mp hx
  rw [lmod, List.getElem?_modify] at hj
  obtain ⟨y, hy, rfl⟩ := Option.map_eq_some_iff.mp hj
  have hp := h y (List.mem_of_getElem? hy)
  split
  · exact hg y hp
  · exact hp

theorem Mem.wf_foldl {α : Type} {f : Mem → α → Mem} (step : ∀ m x, Mem.wf m = true → Mem.wf (f m x) = true) (l : List α) {m : Mem}
    (h : Mem.wf m = true) : Mem.wf (l.foldl f m) = true := by
  induction l generalizing m with
  | nil => exact h
  | cons x l ih => exact ih (step m x h)


theorem KeepsSound.hostWrite {i : Nat} {b : Bytes} (h : KeepsSound a s) : KeepsSound a (hostWrite i b s) where
  sound ha := { h.sound ha with host := Mem.writeN_wf b (h.sound ha).host }
  pending := h.pending
  part := h.part
theorem KeepsSound.spoilHost {i k : Nat} (h : KeepsSound a s) : KeepsSound a (spoilHost i k s) :=
  h.hostWrite.same
theorem KeepsSound.modFn {i : Nat} {g : Fn → Fn} (h : KeepsSound a s) : KeepsSound a (modFn i g s) :=
  h.same (fnsLen := List.length_modify ..)
theorem KeepsSound.modWard {i : Nat} {g : Ward → Ward} (h : KeepsSound a s)
    (hg : ∀ w, Mem.wf w.mem = true → Mem.wf (g w).mem = true := by exact fun _ h => h) : KeepsSound a (modWard i g s) where
  sound ha := { h.sound ha with
    wards := forall_mem_lmod (h.sound ha).wards hg
    sixteenWards := (List.length_modify ..).trans (h.sound ha).sixteenWards }
  pending := h.pending
  part := h.part
theorem KeepsSound.modTask {i : Nat} {g : Task → Task} (h : KeepsSound a s)
    (hg : ∀ k, Mem.wf k.store = true → Mem.wf (g k).store = true := by exact fun _ h => h) : KeepsSound a (modTask i g s) where
  sound ha := { h.sound ha with
    stores := fun t ht => by
      rcases tmod_mem ht with hm | ⟨k, hk, e⟩
      · exact (h.sound ha).stores t hm
      · exact e ▸ hg k ((h.sound ha).stores _ hk) }
  pending := h.pending
  part := h.part

theorem KeepsSound.mapWards {g : Ward → Ward} (h : KeepsSound a s)
    (hg : ∀ w, Mem.wf w.mem = true → Mem.wf (g w).mem = true := by exact fun _ h => h) : KeepsSound a { s with wards := s.wards.map g } where
  sound ha := { h.sound ha with
    wards := fun w hw => by
      obtain ⟨v, hv, rfl⟩ := List.mem_map.mp hw
      exact hg v ((h.sound ha).wards v hv)
    sixteenWards := (List.length_map _).trans (h.sound ha).sixteenWards }
  pending := h.pending
  part := h.part
theorem KeepsSound.fourPorts {hinge : Hinge} (h : KeepsSound a s) (four : hinge.ports.length = 4) : KeepsSound a { s with hinge := hinge } where
  sound ha := { h.sound ha with fourPorts := four }
  pending := h.pending
  part := h.part
/-- Every ward and every function at its reset values (11 R411). -/
theorem KeepsSound.freshWards {heads : Table Head} {tap : Option Tap} {vfs : Nat} {fw : Firmware} (h : KeepsSound a s) : KeepsSound a { s with
    wards := List.replicate 16 {}, heads := heads, tap := tap, vfs := vfs, fns := List.replicate 16 {}, fw := fw } where
  sound ha := { h.sound ha with
    wards := fun w hw => by rw [List.eq_of_mem_replicate hw]; rfl
    sixteenWards := rfl
    sixteenFns := rfl }
  pending := h.pending
  part := h.part
theorem KeepsSound.putTask {id next : Nat} {t : Task} (h : KeepsSound a s)
    (ht : Sound a → Mem.wf t.store = true := by exact fun _ => rfl) : KeepsSound a { s with tasks := tput s.tasks id t, nextTask := next } where
  sound ha := { h.sound ha with
    stores := fun q hq => by
      rcases tput_mem hq with rfl | hq
      · exact ht ha
      · exact (h.sound ha).stores q hq }
  pending := h.pending
  part := h.part
theorem KeepsSound.filterTasks {p : Nat × Task → Bool} {cores : Table Core} {heads : Table Head} (h : KeepsSound a s) :
    KeepsSound a { s with tasks := s.tasks.filter p, cores := cores, heads := heads } where
  sound ha := { h.sound ha with stores := fun t ht => (h.sound ha).stores t (List.mem_of_mem_filter ht) }
  pending := h.pending
  part := h.part
theorem KeepsSound.mapTasks {g : Nat × Task → Task} {ctxs : Table Ctx} (h : KeepsSound a s) (hg : ∀ x, (g x).store = x.2.store) :
    KeepsSound a { s with tasks := s.tasks.map (fun x => (x.1, g x)), ctxs := ctxs } where
  sound ha := { h.sound ha with
    stores := fun t ht => by
      obtain ⟨x, hx, rfl⟩ := List.mem_map.mp ht
      exact (congrArg Mem.wf (hg x)).trans ((h.sound ha).stores x hx) }
  pending := h.pending
  part := h.part
end


section
-- One proof at a time: hundreds elaborated at once need a thread, and its stack, each.
set_option Elab.async false
variable {s₀ s : State} (h : KeepsSound s₀ s)
include h

/-! ## Rings, records and ward memory (Machine/Ops) -/

theorem KeepsSound.settleOp : KeepsSound s₀ (settleOp s) := .ite h.same h
theorem KeepsSound.modSlot {i : Nat} {g : Slot → Slot} : KeepsSound s₀ (modSlot i g s) := h.same
theorem KeepsSound.modCtx {i : Nat} {g : Ctx → Ctx} : KeepsSound s₀ (modCtx i g s) := h.same
theorem KeepsSound.modHead {hd : Nat} {g : Head → Head} : KeepsSound s₀ (modHead hd g s) := h.same
theorem KeepsSound.modCore {c : Nat} {g : Core → Core} : KeepsSound s₀ (modCore c g s) := h.same
theorem KeepsSound.modThread {t : ThreadRef} {g : Thread → Thread} : KeepsSound s₀ (modThread t g s) := h.modCore
theorem KeepsSound.modHasp {hd : Nat} {g : Hasp → Hasp} : KeepsSound s₀ (modHasp hd g s) := h.same
theorem KeepsSound.drawFree_snd : KeepsSound s₀ (drawFree s).2 := h.same
theorem KeepsSound.modAcct {slot : Nat} {g : Account → Account} : KeepsSound s₀ (modAcct slot g s) := h.modCtx
theorem KeepsSound.chargeHost {slot rx tx : Nat} : KeepsSound s₀ (chargeHost slot rx tx s) := h.modAcct
theorem KeepsSound.chargeHinge {slot rx tx : Nat} : KeepsSound s₀ (chargeHinge slot rx tx s) := h.modAcct
theorem KeepsSound.chargeFixed {slot n : Nat} : KeepsSound s₀ (chargeFixed slot n s) := h.modAcct
theorem KeepsSound.chargeVault {slot rd wr : Nat} : KeepsSound s₀ (chargeVault slot rd wr s) := h.modAcct
theorem KeepsSound.chargeWork {slot : Nat} : KeepsSound s₀ (chargeWork slot s) := .same h.modAcct
theorem KeepsSound.sendMsix {fn vector : Nat} : KeepsSound s₀ (sendMsix fn vector s) := .ite h.modFn h.same
theorem KeepsSound.raiseErrFn {fn bit unit detail : Nat} : KeepsSound s₀ (raiseErrFn fn bit unit detail s) :=
  .ite (.sendMsix (.modFn (.ite h.same h))) (.modFn (.ite h.same h))
theorem KeepsSound.raiseErr {bit unit detail : Nat} {ward : Option Nat} : KeepsSound s₀ (raiseErr bit unit detail ward s) := by
  unfold Machine.raiseErr
  split
  · exact .ite (.raiseErrFn h.raiseErrFn) h.raiseErrFn
  · exact h.raiseErrFn
theorem KeepsSound.raiseHostDma {fn addr : Nat} : KeepsSound s₀ (raiseHostDma fn addr s) := h.raiseErrFn
theorem KeepsSound.hostDmaFailed {ward addr : Nat} : KeepsSound s₀ (hostDmaFailed ward addr s) := .raiseErr h.same
theorem KeepsSound.modRing {r : RingRef} {g : Ring → Ring} : KeepsSound s₀ (modRing r g s) := by
  unfold Machine.modRing
  split
  · exact h.modFn
  · exact h.modCtx
theorem KeepsSound.putRecord {r : RingRef} {x : Rec} : KeepsSound s₀ (putRecord r x s) := by
  unfold Machine.putRecord
  split
  · exact h
  · extract_lets admin addr raises s1 s2 s3 armed
    have h2 : KeepsSound s₀ s2 := by
      unfold s2
      split
      · exact .chargeHost h.hostWrite
      · exact h.hostWrite
    exact .ite (.sendMsix (.modRing h2.modRing)) h2.modRing
theorem KeepsSound.postAlways {r : RingRef} {x : Rec} : KeepsSound s₀ (postAlways r x s) := .ite h.same (.ite h.putRecord h)
theorem KeepsSound.settleLost {r : RingRef} : KeepsSound s₀ (settleLost r s) := by
  unfold Machine.settleLost
  split
  · exact h
  · exact .ite (.postAlways h.modRing) h
theorem KeepsSound.postOther {r : RingRef} {x : Rec} : KeepsSound s₀ (postOther r x s) := by
  unfold Machine.postOther
  split
  · exact h
  · exact .ite h.postAlways h.modRing
theorem KeepsSound.repost {r : RingRef} : KeepsSound s₀ (repost r s) := by
  unfold Machine.repost
  split
  · exact h
  · exact .ite h (.foldl h.modRing (fun _ _ h' => .postOther h'.modRing))
theorem KeepsSound.postEvent {slot code reason : Nat} {body : Bytes} : KeepsSound s₀ (postEvent slot code reason body s) := h.postOther
theorem KeepsSound.postFnEvent {fn code reason slot gen : Nat} {body : Bytes} : KeepsSound s₀ (postFnEvent fn code reason slot gen body s) :=
  h.postOther
theorem KeepsSound.modCmd {r : RingRef} {seq : Nat} {g : Cmd → Cmd} : KeepsSound s₀ (modCmd r seq g s) := h.modRing
theorem KeepsSound.settleDisable {r : RingRef} : KeepsSound s₀ (settleDisable r s) := by
  unfold Machine.settleDisable
  split
  · exact .ite h.modFn h
  · exact h
theorem KeepsSound.complete {r : RingRef} {seq code reason : Nat} {result : Bytes} : KeepsSound s₀ (complete r seq code reason result s) := by
  unfold Machine.complete
  split
  · exact h
  · exact .settleDisable (.settleLost (.ite h.modRing (.postAlways h.modRing)))
theorem KeepsSound.completeOk {r : RingRef} {seq : Nat} {result : Bytes} : KeepsSound s₀ (completeOk r seq result s) := h.complete
theorem KeepsSound.wardWrite {wd addr : Nat} {b : Bytes} : KeepsSound s₀ (wardWrite wd addr b s) := h.modWard (hg := fun _ => Mem.writeN_wf _)
theorem KeepsSound.allocate {n : State} {wd count base : Nat} {kind : AllocKind} {ro : Bool} {content : Bytes}
    (e : allocate wd count kind ro content s = some (base, n)) : KeepsSound s₀ n := by
  unfold Machine.allocate at e
  dsimp only at e
  split at e
  · cases e
  · cases e
    exact .same h.modWard
theorem KeepsSound.release {wd : Nat} {test : Alloc → Bool} : KeepsSound s₀ (release wd test s) :=
  h.modWard (hg := fun _ => Mem.wf_foldl (fun _ _ => Mem.scrub_wf) _)

/-! ## Counting (Machine/Tally) -/

theorem KeepsSound.modPerf {g : Perf → Perf} : KeepsSound s₀ (modPerf g s) := h.same
theorem KeepsSound.modCorePerf {c : Nat} {g : CorePerf → CorePerf} : KeepsSound s₀ (modCorePerf c g s) := h.modPerf
theorem KeepsSound.loseSample : KeepsSound s₀ (loseSample s) := h.modPerf
theorem KeepsSound.triggerSample {c trigger mask : Nat} : KeepsSound s₀ (triggerSample c trigger mask s) := .ite h (.ite h.loseSample h.modCorePerf)
theorem KeepsSound.triggerAll {trigger : Nat} : KeepsSound s₀ (triggerAll trigger s) := h.foldl (fun _ _ h' => h'.triggerSample)
theorem KeepsSound.note {o : Occurrence} : KeepsSound s₀ (note o s) := h.modPerf
theorem KeepsSound.tally {c ev n : Nat} {who : Option Who} : KeepsSound s₀ (tally c ev n who s) := .ite h h.note
theorem KeepsSound.countCore {c cycles : Nat} {hit : Nat → Bool} {l : List Occurrence} : KeepsSound s₀ (countCore c cycles hit l s) := by
  unfold Machine.countCore
  split
  · exact h
  · exact .ite h.modCorePerf (.triggerSample h.modCorePerf)
theorem KeepsSound.portBytes {c port n : Nat} : KeepsSound s₀ (portBytes c port n s) := by
  unfold Machine.portBytes
  split
  · exact h
  · exact .ite h.modCorePerf h
theorem KeepsSound.tallyChip {ev unit n : Nat} {ward : Option Nat} : KeepsSound s₀ (tallyChip ev unit n ward s) := .ite h h.note
theorem KeepsSound.countChip {l : List Occurrence} : KeepsSound s₀ (countChip l s) := by
  unfold Machine.countChip
  exact h.modPerf
theorem KeepsSound.modStats {slot : Nat} {g : Bytes → Bytes} : KeepsSound s₀ (modStats slot g s) := by
  unfold Machine.modStats
  split
  · exact h
  · exact h.modWard
theorem KeepsSound.addStat {slot off n : Nat} : KeepsSound s₀ (addStat slot off n s) := .ite h h.modStats
theorem KeepsSound.addLayerStat {slot i f n : Nat} : KeepsSound s₀ (addLayerStat slot i f n s) := .ite h h.modStats

/-! ## Messages of the hinge (Machine/Links) -/

theorem KeepsSound.modPort {p : Nat} {g : Port → Port} : KeepsSound s₀ (modPort p g s) := h.same (portsLen := List.length_modify ..)
theorem KeepsSound.sendPort {p : Nat} {g : Port → Port} : KeepsSound s₀ (sendPort p g s) := .foldl (.tallyChip h.modPort) (fun _ _ h' => h'.tallyChip)
theorem KeepsSound.discardAt {p n : Nat} : KeepsSound s₀ (discardAt p n s) := h.modPort
theorem KeepsSound.queueAt {p : Nat} {m : HMsg} : KeepsSound s₀ (queueAt p m s) := .ite h.discardAt h.sendPort
theorem KeepsSound.sendMsg {n : State} {ward : Option Nat} {ty cls status dest tag op : Nat} {payload : Bytes}
    (e : sendMsg ward ty cls status dest tag payload op s = some n) : KeepsSound s₀ n := by
  unfold Machine.sendMsg at e
  split at e
  · cases e
    exact h.queueAt
  · cases e
theorem KeepsSound.sendFor {ward : Option Nat} {ty cls status dest tag op : Nat} {payload : Bytes} :
    KeepsSound s₀ (sendFor ward ty cls status dest tag payload op s) := by
  unfold Machine.sendFor
  cases e : Machine.sendMsg ward ty cls status dest tag payload op s with
  | none => exact h
  | some n => exact h.sendMsg e
theorem KeepsSound.sendOrDrop {ty cls status dest tag : Nat} {payload : Bytes} {op : Nat} :
    KeepsSound s₀ (sendOrDrop ty cls status dest tag payload op s) := h.sendFor

/-! ## Hasps (Machine/Hasps) -/

theorem KeepsSound.replyTo {dev tag op status : Nat} : KeepsSound s₀ (replyTo dev tag op status s) := h.sendOrDrop
theorem KeepsSound.giveWay {id : Nat} {r : ThreadRef × Nat × Option Nat} : KeepsSound s₀ (giveWay id r s) := by
  unfold Machine.giveWay
  split
  · exact .modThread h.modHasp
  · exact .modHasp (.modThread h.modHasp)
theorem KeepsSound.acquire {n : State} {id slot : Nat} {t : ThreadRef} {dst : Option Nat}
    (e : acquire id t slot dst s = some n) : KeepsSound s₀ n := by
  unfold Machine.acquire at e
  dsimp only at e
  split at e
  · cases e
    exact h.modHasp
  · split at e
    · cases e
    · split at e
      · cases e
        exact .modHasp h.giveWay
      · cases e
theorem KeepsSound.serveWaiter {id : Nat} {w : Waiter} : KeepsSound s₀ (serveWaiter id w s) := by
  unfold Machine.serveWaiter
  split
  · exact .modThread (.modHasp h.modHasp)
  · exact .replyTo (.modHasp h.modHasp)
theorem KeepsSound.haspServe {i fuel : Nat} : KeepsSound s₀ (haspServe i fuel s) := by
  induction fuel generalizing s with
  | zero => exact h
  | succ fuel ih =>
    unfold Machine.haspServe
    split
    · exact h
    · split
      · exact h
      · exact ih h.serveWaiter
theorem KeepsSound.haspReap {id : Nat} : KeepsSound s₀ (haspReap id s) := by
  unfold Machine.haspReap
  split
  · exact .ite h.same h
  · exact h
theorem KeepsSound.haspSettle {id : Nat} : KeepsSound s₀ (haspSettle id s) := h.haspServe
theorem KeepsSound.haspDropCtx {slot id : Nat} : KeepsSound s₀ (haspDropCtx slot id s) := by
  unfold Machine.haspDropCtx
  split
  · exact h
  · refine .haspReap (.haspSettle (.modHasp ?_))
    refine h.foldl (fun _ _ h' => ?_)
    split
    · exact h'.replyTo
    · exact h'
theorem KeepsSound.haspTeardown {slot : Nat} : KeepsSound s₀ (haspTeardown slot s) := h.foldl (fun _ _ h' => h'.haspDropCtx)
theorem KeepsSound.haspDropPeer {p : Peer} {id : Nat} : KeepsSound s₀ (haspDropPeer p id s) := .haspSettle h.modHasp

/-! ## Teardowns (Machine/Teardown) -/

theorem KeepsSound.sendGone {slot : Nat} {x : Ctx} : KeepsSound s₀ (sendGone slot x s) := h.foldl (fun _ _ h' => h'.sendOrDrop)
theorem KeepsSound.goneWaiters {x : Ctx} : KeepsSound s₀ (goneWaiters x s) := by
  unfold Machine.goneWaiters
  refine h.foldl (fun _ _ h' => ?_)
  split
  · exact h'.replyTo
  · exact h'
theorem KeepsSound.startTeardown {slot : Nat} {r0 : FaultReport} : KeepsSound s₀ (startTeardown slot r0 s) :=
  .ite h.modCtx (.ite h (.modSlot (.modCtx (.modWard (.filterTasks (.goneWaiters (.sendGone h.haspTeardown)))))))
theorem KeepsSound.faultOn {core slot code reason : Nat} {detail : Bytes} : KeepsSound s₀ (faultOn core slot code reason detail s) := h.startTeardown
theorem KeepsSound.faultCtx {slot code reason : Nat} {detail : Bytes} : KeepsSound s₀ (faultCtx slot code reason detail s) := h.faultOn
theorem KeepsSound.uncorrectable {slot reason addr core : Nat} : KeepsSound s₀ (uncorrectable slot reason addr core s) := .faultOn (.ite h.same h)
theorem KeepsSound.unlessSpoiled {slot core : Nat} {go : State → State} (hgo : ∀ n, KeepsSound s₀ n → KeepsSound s₀ (go n)) :
    KeepsSound s₀ (unlessSpoiled slot core s go) := by
  unfold Machine.unlessSpoiled
  split
  · exact h.uncorrectable
  · exact hgo _ h

/-! ## Threads and their faults (Machine/Threads) -/

theorem KeepsSound.chargeEngine {slot : Nat} {e : Engine} {n point : Nat} : KeepsSound s₀ (chargeEngine slot e n point s) := h.modAcct
theorem KeepsSound.occupy {c i n point : Nat} {lc : Bool} : KeepsSound s₀ (occupy c i n point lc s) := h.modCore
theorem KeepsSound.countIssue {op : Nat} {t : ThreadRef} {f : KFields} {e : Engine} {n : Nat} {th : Thread} {k : Task} :
    KeepsSound s₀ (countIssue op t f e n th k s) := by
  unfold Machine.countIssue
  split
  · exact .ite (.tally h.tally) h.tally
  · exact .ite (.tally (.occupy (.tally (.ite (.tally h.tally) h.tally)))) (.occupy (.tally (.ite (.tally h.tally) h.tally)))
theorem KeepsSound.stepThread {t : ThreadRef} : KeepsSound s₀ (stepThread t s) := h.modCore
theorem KeepsSound.issued {op : Nat} {t : ThreadRef} {f : KFields} {e : Engine} {n : Nat} {th : Thread} {k : Task} :
    KeepsSound s₀ (issued op t f e n th k s) := .countIssue (.chargeEngine h.stepThread)
theorem KeepsSound.issue {op : Nat} {t : ThreadRef} {f : KFields} {e : Engine} {n : Nat} {go : Thread → Task → State → State} (hgo : ∀ th k n,
    KeepsSound s₀ n → KeepsSound s₀ (go th k n)) : AnswersSound s₀ (issue op t f e n s go) := by
  unfold Machine.issue
  split
  · split
    · exact .notNow
    · split
      · exact .notNow
      · exact .next (hgo _ _ _ h.issued)
  · exact .notNow
theorem KeepsSound.issueS {op : Nat} {t : ThreadRef} {f : KFields} {val : Thread → Nat} : AnswersSound s₀ (issueS op t f s val) :=
  h.issue (fun _ _ _ h' => .ite h'.modThread h')
theorem KeepsSound.issueP {op : Nat} {t : ThreadRef} {f : KFields} {val : Thread → Nat} : AnswersSound s₀ (issueP op t f s val) :=
  h.issue (fun _ _ _ h' => .ite h'.modThread h')
theorem KeepsSound.issueV {op : Nat} {t : ThreadRef} {f : KFields} {cycles w : Nat} {val : Thread → Nat → Nat} :
    AnswersSound s₀ (issueV op t f cycles w s val) := h.issue (fun _ _ _ h' => h'.modThread)
theorem KeepsSound.kernelFault {th : Thread} {k : Task} {reason addr : Nat} : KeepsSound s₀ (kernelFault th k reason addr s) := h.faultOn
theorem KeepsSound.orFault {after : State} {th : Thread} {k : Task} {bad : Option (Nat × Nat)}
    (h' : KeepsSound s₀ after) : KeepsSound s₀ (orFault th k bad s after) := by
  unfold Machine.orFault
  split
  · exact h.kernelFault
  · exact h'
theorem KeepsSound.storeWrite {task a : Nat} {b : Bytes} : KeepsSound s₀ (storeWrite task a b s) := by
  unfold Machine.storeWrite
  dsimp only
  split
  · exact .modTask (h.modTask (hg := fun _ => Mem.writeN_wf _)) (hg := fun _ => Mem.writeN_wf _)
  · exact h.modTask (hg := fun _ => Mem.writeN_wf _)

/-! ## Doorbells, fetches and completions (Machine/Keyway) -/

theorem KeepsSound.writeTail {r : RingRef} {value : Nat} : KeepsSound s₀ (writeTail r value s) := by
  unfold Machine.writeTail
  split
  · exact h
  · exact .ite h.raiseHostDma h.modRing
theorem KeepsSound.writeHead {r : RingRef} {value : Nat} : KeepsSound s₀ (writeHead r value s) := by
  unfold Machine.writeHead
  split
  · exact h
  · exact .ite h (.settleLost (.repost h.modRing))
theorem KeepsSound.writeArm {r : RingRef} {value : Nat} : KeepsSound s₀ (writeArm r value s) := by
  unfold Machine.writeArm
  split
  · exact h
  · exact .ite h.modRing (.ite (.sendMsix h.modRing) h.modRing)
theorem KeepsSound.doorbellReg {r : RingRef} {reg value : Nat} : KeepsSound s₀ (doorbellReg r reg value s) :=
  .ite h.writeTail (.ite h.writeHead h.writeArm)
theorem KeepsSound.doorbellAct {r : RingRef} {reg value : Nat} : KeepsSound s₀ (doorbellAct r reg value s) := by
  unfold Machine.doorbellAct
  split
  · exact .ite h.doorbellReg h
  · exact .ite h.doorbellReg h
theorem KeepsSound.doorbell {fn : Nat} {r : RingRef} {reg value : Nat} : KeepsSound s₀ (doorbell fn r reg value s) :=
  .ite h (.ite h.same h.doorbellAct)
theorem KeepsSound.execKwSqDb {fn slot value : Nat} : AnswersSound s₀ (execKwSqDb fn slot value s) := .next h.doorbell
theorem KeepsSound.execKwCqDb {fn slot value : Nat} : AnswersSound s₀ (execKwCqDb fn slot value s) := .next h.doorbell
theorem KeepsSound.execKwCqArm {fn slot value : Nat} : AnswersSound s₀ (execKwCqArm fn slot value s) := .next h.doorbell
theorem KeepsSound.execKwAdmSqDb {fn value : Nat} : AnswersSound s₀ (execKwAdmSqDb fn value s) := .next h.doorbell
theorem KeepsSound.execKwAdmCqDb {fn value : Nat} : AnswersSound s₀ (execKwAdmCqDb fn value s) := .next h.doorbell
theorem KeepsSound.execKwAdmArm {fn value : Nat} : AnswersSound s₀ (execKwAdmArm fn value s) := .next h.doorbell
theorem KeepsSound.readBack {b : Bytes} : KeepsSound s₀ (readBack b s) := h.same
theorem KeepsSound.execKwCqLost {fn slot : Nat} : AnswersSound s₀ (execKwCqLost fn slot s) := .ite (.next (.modRing h.readBack)) (.next h.readBack)
theorem KeepsSound.writeAdmCfg {fn value : Nat} : KeepsSound s₀ (writeAdmCfg fn value s) :=
  .ite h (.ite (.ite h.modFn (.modFn h.modFn)) (.ite (.settleDisable (.modFn h.modFn)) h.modFn))
theorem KeepsSound.execAdminEnable {fn value : Nat} : AnswersSound s₀ (execAdminEnable fn value s) := .next h.writeAdmCfg
theorem KeepsSound.execAdminDisable {fn value : Nat} : AnswersSound s₀ (execAdminDisable fn value s) := .next h.writeAdmCfg
theorem KeepsSound.takeEntry {r : RingRef} {e : Bytes} : KeepsSound s₀ (takeEntry r e s) := h.modRing
theorem KeepsSound.fetchEntry {r : RingRef} {g : Ring} {ok : Bool} : KeepsSound s₀ (fetchEntry r g ok s) := by
  unfold Machine.fetchEntry
  dsimp only
  split
  · split
    · refine .complete (.takeEntry ?_)
      split
      · exact h.chargeHost
      · exact h
    · refine .takeEntry ?_
      split
      · exact h.chargeHost
      · exact h
  · exact .complete (.takeEntry h.hostDmaFailed)
theorem KeepsSound.execCommandFetch {ring : RingRef} {ok : Bool} : AnswersSound s₀ (execCommandFetch ring ok s) := by
  unfold Machine.execCommandFetch
  refine .guardThat ?_
  split
  · exact .next h.fetchEntry
  · exact .notNow
theorem KeepsSound.command {r : RingRef} {seq op : Nat} {go : Cmd → State → State} (hgo : ∀ c n, KeepsSound s₀ n → KeepsSound s₀ (go c n)) :
    AnswersSound s₀ (command r seq op s go) := .need (fun _ _ => .next (hgo _ _ h))
theorem KeepsSound.ctxCommand {slot seq op : Nat} {go : Cmd → Ctx → State → State} (hgo : ∀ c x n, KeepsSound s₀ n → KeepsSound s₀ (go c x n)) :
    AnswersSound s₀ (ctxCommand slot seq op s go) := .need (fun _ _ => .need (fun _ _ => .next (hgo _ _ _ h)))
theorem KeepsSound.fail {r : RingRef} {seq code reason : Nat} : KeepsSound s₀ (fail r seq code reason s) := h.complete
theorem KeepsSound.execKwNop {slot seq : Nat} : AnswersSound s₀ (execKwNop slot seq s) := h.command (fun _ _ h' => h'.completeOk)
theorem KeepsSound.execKwFence {slot seq : Nat} : AnswersSound s₀ (execKwFence slot seq s) := h.command (fun _ _ h' => h'.completeOk)

/-! ## Wards (Machine/Wards) -/

theorem KeepsSound.newKey {w : Nat} : KeepsSound s₀ (newKey w s) := .same h.modWard
theorem KeepsSound.dropHead {hd : Nat} : KeepsSound s₀ (dropHead hd s) := h.modHead
theorem KeepsSound.applyWard {w : Nat} {n : WardCfg} : KeepsSound s₀ (applyWard w n s) :=
  .ite (.ite (.modWard (h.foldl (fun _ _ h' => h'.dropHead))) (.newKey (.modWard (h.foldl (fun _ _ h' => h'.dropHead))))) (.modWard (.modWard
    (h.foldl (fun _ _ h' => h'.dropHead))) (hg := fun _ _ => rfl))
theorem KeepsSound.execWardConfig {fn seq : Nat} : AnswersSound s₀ (execWardConfig fn seq s) := by
  unfold Machine.execWardConfig
  dsimp only
  refine h.command (fun _ _ h' => ?_)
  split
  · exact h'.complete
  · exact .completeOk h'.applyWard
theorem KeepsSound.teardownWard {w : Nat} : KeepsSound s₀ (teardownWard w s) := h.foldl (fun _ _ h' => h'.startTeardown)
theorem KeepsSound.resetWard {w : Nat} : KeepsSound s₀ (resetWard w s) :=
  .ite (.newKey (.modWard h.teardownWard (hg := fun _ _ => rfl))) h.teardownWard
theorem KeepsSound.execWardReset {fn seq : Nat} : AnswersSound s₀ (execWardReset fn seq s) :=
  .need (fun _ _ => .guardThat (.ite (.next h.complete) (.ite (.next (.modCmd h.resetWard)) (.next (.completeOk h.resetWard)))))

/-! ## Memory instructions (Machine/CoreMemory) -/

theorem KeepsSound.execLdc {t : ThreadRef} {f : KFields} : AnswersSound s₀ (execLdc t f s) :=
  h.issue (fun _ _ _ h' => .ite h' (h.orFault h'.modThread))
theorem KeepsSound.execStc {t : ThreadRef} {f : KFields} : AnswersSound s₀ (execStc t f s) :=
  h.issue (fun _ _ _ h' => .ite h' (h.orFault (h'.foldl (fun _ _ h'' => h''.storeWrite))))
theorem KeepsSound.execLdcx {t : ThreadRef} {f : KFields} : AnswersSound s₀ (execLdcx t f s) :=
  h.issue (fun _ _ _ h' => .ite h' (h.orFault h'.modThread))
theorem KeepsSound.vaultTraffic {core : Nat} {k : Task} {ward addr n : Nat} {write : Bool} :
    KeepsSound s₀ (vaultTraffic core k ward addr n write s) := .ite h (.ite h.portBytes (.ite (.tallyChip (.chargeVault (.tally (.portBytes (.tally
      h.drawFree_snd))))) (.tally (.portBytes (.tally h.drawFree_snd)))))
theorem KeepsSound.request {t : ThreadRef} {k : Task} {d : Dest} {value addr : Nat} : KeepsSound s₀ (request t k d value addr s) :=
  .vaultTraffic h.modCore
theorem KeepsSound.execLdw {t : ThreadRef} {f : KFields} : AnswersSound s₀ (execLdw t f s) := h.issue (fun _ _ _ h' => .ite h' (h.orFault h'.request))
theorem KeepsSound.writeAll {wd : Nat} {l : List (Nat × Bytes)} : KeepsSound s₀ (writeAll wd l s) := h.foldl (fun _ _ h' => h'.wardWrite)
theorem KeepsSound.doOp_snd {o : WardOp} : KeepsSound s₀ (doOp o s).2 := by
  unfold Machine.doOp
  split
  · exact h.writeAll
  · dsimp only
    exact KeepsSound.modCore h.writeAll
omit h in
/-- Operations are carried out in turn, each with what it notes. -/
theorem KeepsSound.foldl_doOp (l : List WardOp) {acc : List WardOp × State} (h : KeepsSound s₀ acc.2) :
    KeepsSound s₀ (l.foldl (fun (acc : List WardOp × State) p => let d := doOp p acc.2; (acc.1 ++ [d.1], d.2)) acc).2 := by
  induction l generalizing acc with
  | nil => exact h
  | cons p l ih => exact ih h.doOp_snd
theorem KeepsSound.doInCycle {o : WardOp} : KeepsSound s₀ (doInCycle o s) :=
  .same (.foldl_doOp _ (.doOp_snd (.foldl h fun _ _ h => h.writeAll)))
theorem KeepsSound.execStw {t : ThreadRef} {f : KFields} : AnswersSound s₀ (execStw t f s) :=
  h.issue (fun _ _ _ h' => .ite h' (h.orFault (.vaultTraffic h'.doInCycle)))
theorem KeepsSound.execAtom {t : ThreadRef} {f : KFields} : AnswersSound s₀ (execAtom t f s) :=
  h.issue (fun _ _ _ h' => .ite h' (h.orFault (.doInCycle (.request (.modThread h'.vaultTraffic)))))
theorem KeepsSound.beginCopy {t : ThreadRef} {k : Task} {addr : Nat} {wardW storeW : List (Nat × Bytes)} {reads : List (Nat × Nat)} :
    KeepsSound s₀ (beginCopy t k addr wardW storeW reads s) := .vaultTraffic (.vaultTraffic h.modCore)
theorem KeepsSound.execMcopy {t : ThreadRef} {f : KFields} : AnswersSound s₀ (execMcopy t f s) := by
  unfold Machine.execMcopy
  dsimp only
  refine h.issue (fun _ _ _ h' => ?_)
  split
  · exact h'
  · split
    · exact .ite h.kernelFault (h.orFault (.ite h'.beginCopy h'.beginCopy))
    · split
      · exact h.kernelFault
      · split
        · exact h.kernelFault
        · split
          · split
            · exact h.kernelFault
            · split
              · exact .faultOn h.drawFree_snd
              · exact h'.beginCopy
          · exact h.orFault h'.beginCopy

/-! ## Tensor instructions (Machine/CoreTensor) -/

theorem KeepsSound.execTzero {t : ThreadRef} {f : KFields} : AnswersSound s₀ (execTzero t f s) := h.issue (fun _ _ _ h' => .ite h'.modThread h')
theorem KeepsSound.execTmm {t : ThreadRef} {f : KFields} : AnswersSound s₀ (execTmm t f s) := by
  unfold Machine.execTmm
  exact h.issue (fun _ _ _ h' => .ite h' (h.orFault h'.modThread))
theorem KeepsSound.execTmmb {t : ThreadRef} {f : KFields} : AnswersSound s₀ (execTmmb t f s) := by
  unfold Machine.execTmmb
  exact h.issue (fun _ _ _ h' => .ite h' (h.orFault h'.modThread))
theorem KeepsSound.execTrd {t : ThreadRef} {f : KFields} : AnswersSound s₀ (execTrd t f s) := h.issue (fun _ _ _ h' => .ite h'.modThread h')

/-! ## Samples (Machine/Sampler) -/

theorem KeepsSound.execSmp {t : ThreadRef} {f : KFields} : AnswersSound s₀ (execSmp t f s) := by
  unfold Machine.execSmp
  dsimp only
  refine h.issue (fun _ _ _ h' => ?_)
  split
  · exact h'
  · split
    · exact h.kernelFault
    · split
      · exact h.kernelFault
      · split
        · exact h.kernelFault
        · split
          · exact h'.uncorrectable
          · exact .vaultTraffic (.tally (.tally (.modThread h'.modCore)))

/-! ## Inheritance (Machine/Inherit) -/

theorem KeepsSound.inheritPeers {id : Nat} : KeepsSound s₀ (inheritPeers id s) := by
  unfold Machine.inheritPeers
  split
  · exact h
  · exact .modHasp (.foldl (h.foldl (fun _ _ h' => h'.sendOrDrop)) (fun _ _ h' => h'.sendOrDrop))
omit h in
theorem inheritTask_store (s : State) (k : Option (Option Nat)) (t : Task) : (inheritTask s k t).store = t.store := by
  unfold inheritTask
  split
  · split
    · split <;> rfl
    · split <;> rfl
  · rfl
theorem KeepsSound.settleInherit : KeepsSound s₀ (settleInherit s) := by
  refine KeepsSound.foldl (h.mapTasks fun x => ?_) fun _ _ h => h.inheritPeers
  split
  · rfl
  · exact inheritTask_store ..

/-! ## Contexts (Machine/Contexts) -/

theorem KeepsSound.refuseBlock {r : RingRef} {seq status : Nat} {x : CtxBad} : KeepsSound s₀ (refuseBlock r seq status x s) :=
  .ite h.complete h.complete
theorem KeepsSound.take {wd count : Nat} {kind : AllocKind} : KeepsSound s₀ (take wd count kind s) := by
  unfold Machine.take
  refine .ite h ?_
  cases e : Machine.allocate wd count kind false [] s with
  | none => exact h
  | some r => exact h.allocate e
theorem KeepsSound.takeGeneral_snd {wd slot count : Nat} : KeepsSound s₀ (takeGeneral wd slot count s).2 :=
  .same h.modWard
theorem KeepsSound.takeStaging {wd slot units : Nat} : KeepsSound s₀ (takeStaging wd slot units s) := .ite h (.same h.modWard)
theorem KeepsSound.takeHasps_snd {wd slot init n : Nat} {old : List (Option Nat)} :
    KeepsSound s₀ (takeHasps wd slot init old n s).2 := by
  induction n with
  | zero => exact h
  | succ n ih =>
    unfold Machine.takeHasps
    dsimp only
    split
    · exact ih
    · exact ih.same
theorem KeepsSound.createCtx_snd {wd slot : Nat} {c : Bytes} : KeepsSound s₀ (createCtx wd slot c s).2 := by
  unfold Machine.createCtx
  dsimp only
  exact KeepsSound.modSlot (KeepsSound.same (.takeHasps_snd (.takeStaging (.take (.take h.takeGeneral_snd)))))
theorem KeepsSound.ctxCreateGo {fn seq : Nat} {b : Bytes} : KeepsSound s₀ (ctxCreateGo fn seq b s) := by
  unfold Machine.ctxCreateGo
  split
  · exact h.complete
  · split
    · exact h.refuseBlock
    · exact .completeOk h.createCtx_snd
theorem KeepsSound.execCtxCreate {fn seq : Nat} : AnswersSound s₀ (execCtxCreate fn seq s) := h.command (fun _ _ h' => h'.ctxCreateGo)
theorem KeepsSound.dropHasps {slot n : Nat} {old : List (Option Nat)} : KeepsSound s₀ (dropHasps slot n old s) := by
  unfold Machine.dropHasps
  refine h.foldl (fun _ _ h' => ?_)
  split
  · exact .haspReap h'.modHasp
  · exact h'
theorem KeepsSound.resizeObject {wd count : Nat} {kind : AllocKind} : KeepsSound s₀ (resizeObject wd count kind s) := .ite h (.take h.release)
theorem KeepsSound.resizePool {slot wd new : Nat} {x : Ctx} : KeepsSound s₀ (resizePool slot wd new x s) := .modCtx (.ite h.modWard (.ite h.take h))
theorem KeepsSound.resizeStaging {wd slot units : Nat} : KeepsSound s₀ (resizeStaging wd slot units s) :=
  .ite (.ite h.release h.modWard) h.takeStaging
theorem KeepsSound.applyCtx {slot : Nat} {x : Ctx} {b : Bytes} : KeepsSound s₀ (applyCtx slot x b s) :=
  .modCtx (.takeHasps_snd (.dropHasps (.resizeStaging (.resizeObject (.resizeObject h.resizePool)))))
theorem KeepsSound.ctxConfigureGo {slot seq : Nat} {x : Ctx} {raw : Bytes} : KeepsSound s₀ (ctxConfigureGo slot seq x raw s) := by
  unfold Machine.ctxConfigureGo
  dsimp only
  split
  · exact h.refuseBlock
  · exact .completeOk h.applyCtx
theorem KeepsSound.execCtxConfigure {slot seq : Nat} : AnswersSound s₀ (execCtxConfigure slot seq s) :=
  h.ctxCommand (fun _ _ _ h' => .ctxConfigureGo h'.chargeHost)
theorem KeepsSound.ctxDestroyGo {fn seq : Nat} {c : Cmd} : KeepsSound s₀ (ctxDestroyGo fn seq c s) := .ite (.modCmd h.startTeardown) h.complete
theorem KeepsSound.execCtxDestroy {fn seq : Nat} : AnswersSound s₀ (execCtxDestroy fn seq s) := .need (fun _ _ => .guardThat (.next h.ctxDestroyGo))
theorem KeepsSound.haspGrantGo {slot seq : Nat} {c : Cmd} {x : Ctx} : KeepsSound s₀ (haspGrantGo slot seq c x s) := by
  unfold Machine.haspGrantGo
  dsimp only
  split
  · exact .ite h.fail (.ite h.fail (.ite h.fail (.completeOk (.modHasp h.modCtx))))
  · exact h.fail
theorem KeepsSound.execHaspGrant {slot seq : Nat} : AnswersSound s₀ (execHaspGrant slot seq s) := h.ctxCommand (fun _ _ _ h' => h'.haspGrantGo)
theorem KeepsSound.haspReleaseGo {slot seq : Nat} {c : Cmd} {x : Ctx} : KeepsSound s₀ (haspReleaseGo slot seq c x s) := by
  unfold Machine.haspReleaseGo
  dsimp only
  split
  · exact h.fail
  · exact .ite h.fail (.completeOk (.haspReap (.modHasp h.modCtx)))
theorem KeepsSound.execHaspRelease {slot seq : Nat} : AnswersSound s₀ (execHaspRelease slot seq s) := h.ctxCommand (fun _ _ _ h' => h'.haspReleaseGo)
theorem KeepsSound.execAcctQuery {slot seq : Nat} : AnswersSound s₀ (execAcctQuery slot seq s) :=
  h.ctxCommand (fun _ _ _ h' => .completeOk (.chargeHost h'.hostWrite))

/-! ## Ingest (Machine/Ingest) -/

theorem KeepsSound.settleSets {slot : Nat} : KeepsSound s₀ (settleSets slot s) := h.modCtx
theorem KeepsSound.ingestGo {pose : Bool} {slot seq : Nat} {c : Cmd} {x : Ctx} : KeepsSound s₀ (ingestGo pose slot seq c x s) :=
  .ite h.fail (.modCmd (.modWard h.chargeHost))
theorem KeepsSound.ingestCommand {pose : Bool} {slot seq op : Nat} : AnswersSound s₀ (ingestCommand pose slot seq op s) :=
  .need (fun _ _ => .need (fun _ _ => .guardThat (.next h.ingestGo)))
theorem KeepsSound.arrive {wd : Nat} {p0 : Packet} : KeepsSound s₀ (arrive wd p0 s) := by
  unfold Machine.arrive
  dsimp only
  split
  · split
    · exact .ite (.modCtx (.modWard h.tallyChip)) (.modWard h.tallyChip)
    · exact .modWard h.tallyChip
  · exact .modWard h.tallyChip
theorem KeepsSound.execPacketArrival {ward index : Nat} : AnswersSound s₀ (execPacketArrival ward index s) :=
  .need (fun _ _ => .guardThat (.next (.arrive h.modWard)))
theorem KeepsSound.rejectPacket {p : Packet} {slot frame reason : Nat} : KeepsSound s₀ (rejectPacket p slot frame reason s) := by
  unfold Machine.rejectPacket
  split
  · exact h.complete
  · exact h.postEvent
theorem KeepsSound.postMissing {slot frame : Nat} {missing : List (Nat × Nat)} : KeepsSound s₀ (postMissing slot frame missing s) :=
  h.foldl (fun _ _ h' => h'.foldl (fun _ _ h'' => h''.postEvent))
theorem KeepsSound.discardPacket {wd : Nat} : KeepsSound s₀ (discardPacket wd s) := .foldl h.modWard (fun _ _ h' => h'.addStat)
theorem KeepsSound.acceptPacket {slot : Nat} {x : Ctx} {pk : Packet} : KeepsSound s₀ (acceptPacket slot x pk s) := .modCtx (.tallyChip h.postMissing)
theorem KeepsSound.checkPacket {wd : Nat} {pk : Packet} : KeepsSound s₀ (checkPacket wd pk s) := by
  unfold Machine.checkPacket
  dsimp only
  split
  · exact h.discardPacket
  · split
    · exact h.discardPacket
    · split
      · exact .ite (.rejectPacket h.tallyChip) (.modCtx (.rejectPacket h.tallyChip))
      · exact h.acceptPacket
theorem KeepsSound.execIngestCheck {ward : Nat} : AnswersSound s₀ (execIngestCheck ward s) := by
  unfold Machine.execIngestCheck
  split
  · exact .notNow
  · exact .next (.checkPacket h.modWard)
theorem KeepsSound.ingestPose {slot : Nat} : KeepsSound s₀ (ingestPose slot s) := h.modCtx
theorem KeepsSound.finishPose {wd : Nat} {pk : Packet} : KeepsSound s₀ (finishPose wd pk s) := by
  unfold Machine.finishPose
  dsimp only
  split
  · exact h.discardPacket
  · split
    · exact h.discardPacket
    · split
      · split
        · exact .completeOk h.ingestPose
        · exact h.ingestPose
      · exact .rejectPacket h.tallyChip
theorem KeepsSound.execPoseIngestComplete {ward : Nat} : AnswersSound s₀ (execPoseIngestComplete ward s) := by
  unfold Machine.execPoseIngestComplete
  split
  · exact .notNow
  · exact .next (.finishPose h.modWard)

/-! ## Tasks (Machine/Tasks) -/

theorem KeepsSound.dealTask {t : Task} (ht : Sound s₀ → Mem.wf t.store = true := by exact fun _ => rfl) :
    KeepsSound s₀ (dealTask t s) :=
  .putTask h.modCore ht
theorem KeepsSound.dropTasks {p : Nat → Task → Bool} : KeepsSound s₀ (dropTasks p s) := h.filterTasks
theorem KeepsSound.bootTask {id : Nat} {t : Task} {entry : Nat} : KeepsSound s₀ (bootTask id t entry s) := h.modCore
theorem KeepsSound.modFrame {slot : Nat} {g : Frame → Frame} : KeepsSound s₀ (modFrame slot g s) := h.modCtx
theorem KeepsSound.checkpoint {slot : Nat} : KeepsSound s₀ (checkpoint slot s) := h.modFrame

/-! ## Network runs (Machine/NetRun) -/

theorem KeepsSound.modRun {slot net : Nat} {g : NetRun → NetRun} : KeepsSound s₀ (modRun slot net g s) := h.modCtx
theorem KeepsSound.settleDetect : KeepsSound s₀ (settleDetect s) := by
  unfold Machine.settleDetect
  dsimp only
  refine h.foldl (fun _ _ h' => ?_)
  split
  · exact h'
  · split
    · exact h'.same
    · exact h'
theorem KeepsSound.submitDetect {slot net : Nat} : KeepsSound s₀ (submitDetect slot net s) := by
  unfold Machine.submitDetect
  split
  · exact h
  · split
    · exact h
    · exact .settleDetect h.same
theorem KeepsSound.startRun {slot net : Nat} {r : NetRun} {srcs : NEnv → NEnv} : KeepsSound s₀ (startRun slot net r srcs s) := by
  unfold Machine.startRun
  split
  · exact h
  · exact .submitDetect (.settleInherit (.foldl h.modCtx (fun _ _ h' => .ite h' (h'.foldl (fun _ _ h'' => h''.dealTask)))))
theorem KeepsSound.placeInputs {slot wd : Nat} {qp : Bytes} {ts : List Tensor} {r : NetRun} {l : Layer} :
    KeepsSound s₀ (placeInputs slot wd qp ts r l s) := h.foldl (fun _ _ h' => .ite h' (.wardWrite h'.wardWrite))
theorem KeepsSound.countLayer {slot idx : Nat} {deg : Bool} {r : EncRes} : KeepsSound s₀ (countLayer slot idx deg r s) :=
  .addLayerStat (.addLayerStat (.addLayerStat (.addStat (.addStat (.addStat h.addStat)))))
theorem KeepsSound.countFallback {core : Nat} {t : Task} {b : Bytes} {r : NetRun} {i j : Nat} : KeepsSound s₀ (countFallback core t b r i j s) :=
  .ite h h.tally
theorem KeepsSound.pushHalos {source : Option (Nat × Who)} {slot net : Nat} {b : Bytes} {r : NetRun} {idx j : Nat} :
    KeepsSound s₀ (pushHalos source slot net b r idx j s) := by
  unfold Machine.pushHalos
  dsimp only
  split
  · exact h
  · refine h.foldl (fun _ _ h' => ?_)
    split
    · split
      · exact h'
      · split
        · exact h'
        · refine .portBytes (.tally (.tally (.modCore ?_)))
          split
          · exact .ite h' (.portBytes h'.tally)
          · exact h'
    · exact h'
theorem KeepsSound.makeStripe {source : Option (Nat × Who)} {slot net idx j : Nat} : KeepsSound s₀ (makeStripe source slot net idx j s) := by
  unfold Machine.makeStripe
  split
  · exact h
  · split
    · exact h
    · exact .submitDetect (.pushHalos (.ite (.countLayer h.modRun) (.ite (.modRun (.countLayer h.modRun)) (.modCtx (.countLayer h.modRun)))))
theorem KeepsSound.bindMotion {slot n : Nat} {motion : SrcPlane} : KeepsSound s₀ (bindMotion slot n motion s) := by
  unfold Machine.bindMotion
  split
  · exact h
  · exact h.foldl (fun _ _ h' => .submitDetect h'.modRun)
theorem KeepsSound.startGuard {slot : Nat} {f : Frame} : KeepsSound s₀ (startGuard slot f s) := by
  unfold Machine.startGuard
  split
  · exact h
  · split
    · exact h
    · split
      · exact h
      · exact h.startRun
theorem KeepsSound.hostBuffer {slot wd : Nat} {buf : Bytes} {off : Nat} {b : Bytes} : KeepsSound s₀ (hostBuffer slot wd buf off b s) :=
  .ite (.wardWrite h.chargeVault) h
theorem KeepsSound.modGraph {slot run : Nat} {g : GraphRun → GraphRun} : KeepsSound s₀ (modGraph slot run g s) := h.modCtx
theorem KeepsSound.endRun {slot net : Nat} : KeepsSound s₀ (endRun slot net s) := by
  unfold Machine.endRun
  dsimp only
  split
  · exact h
  · split
    · exact h
    · split
      · exact .modCtx h.modRun
      · split
        · exact h.modRun
        · exact .modGraph (.hostBuffer h.modRun)
      · split
        · exact h.modRun
        · exact .completeOk (.wardWrite (.chargeVault h.modRun))
theorem KeepsSound.stripeEnd {source : Option (Nat × Who)} {slot net idx j : Nat} : KeepsSound s₀ (stripeEnd source slot net idx j s) := by
  unfold Machine.stripeEnd
  dsimp only
  split
  · exact h
  · split
    · exact h
    · refine h.unlessSpoiled (fun _ h' => ?_)
      split
      · exact h'.faultCtx
      · split
        · exact .ite (.endRun (.settleInherit (.makeStripe h'.chargeWork))) (.settleInherit (.makeStripe h'.chargeWork))
        · exact .settleInherit (.makeStripe h'.chargeWork)
theorem KeepsSound.execStripeTaskComplete {core task : Nat} : AnswersSound s₀ (execStripeTaskComplete core task s) := by
  unfold Machine.execStripeTaskComplete
  refine .need (fun _ _ => ?_)
  split
  · exact .guardThat (.need (fun _ _ => .next (.stripeEnd (.modCore (.dropTasks h.countFallback)))))
  · exact .notNow
theorem KeepsSound.execDetectJobComplete {unit : Nat} : AnswersSound s₀ (execDetectJobComplete unit s) :=
  .need (fun _ _ => .next (.settleDetect (.ite (.stripeEnd (.tallyChip h.same)) (.tallyChip h.same))))

/-! ## Remote operations (Machine/Remotes) -/

theorem KeepsSound.remoteLost {slot layer dev reason : Nat} : KeepsSound s₀ (remoteLost slot layer dev reason s) := h.faultCtx
theorem KeepsSound.parkedFault {t : ThreadRef} {reason : Nat} : KeepsSound s₀ (parkedFault t reason s) := by
  unfold Machine.parkedFault
  split
  · exact h
  · exact h.kernelFault
theorem KeepsSound.parkThread {t : ThreadRef} {p : Park} {hd : Option Held} : KeepsSound s₀ (parkThread t p hd s) := h.modThread
theorem KeepsSound.openRecord {t : ThreadRef} {op dst : Nat} {e : RemoteRange} {r : Nat} {k : Task} :
    KeepsSound s₀ (openRecord t op dst e r k s) := by
  unfold Machine.openRecord
  dsimp only
  split
  · exact h.remoteLost
  · exact .sendFor (.modThread h.same)
theorem KeepsSound.startRemote {t : ThreadRef} {op r dst : Nat} : KeepsSound s₀ (startRemote t op r dst s) := by
  unfold Machine.startRemote
  split
  · exact h
  · split
    · exact h.parkedFault
    · split
      · exact h.parkThread
      · exact .ite h.openRecord h.parkThread
theorem KeepsSound.retryRemote {t : ThreadRef} : KeepsSound s₀ (retryRemote t s) := by
  unfold Machine.retryRemote
  split
  · exact .startRemote h.modThread
  · exact h
theorem KeepsSound.serveRecords {wd : Nat} : KeepsSound s₀ (serveRecords wd s) := h.foldl (fun _ _ h' => .ite h'.retryRemote h')
theorem KeepsSound.recordEnds {id : Nat} {q : Remote} {ok : Bool} : KeepsSound s₀ (recordEnds id q ok s) := by
  unfold Machine.recordEnds
  refine .serveRecords ?_
  split
  · exact .ite (.ite (.retryRemote (.modThread (.modCtx h.same))) (.ite (.modThread (.modThread (.modCtx h.same))) (.modThread (.modCtx h.same))))
      (.modCtx h.same)
  · exact .modCtx h.same
theorem KeepsSound.cancelRecords {slot wd : Nat} : KeepsSound s₀ (cancelRecords slot wd s) := .serveRecords h.same

/-! ## The end of a teardown (Machine/Finish) -/

theorem KeepsSound.endCommands {slot : Nat} {r : FaultReport} : KeepsSound s₀ (endCommands slot r s) :=
  h.foldl (fun _ _ h' => .ite h'.complete h'.complete)
theorem KeepsSound.postFault {slot fn : Nat} {r : FaultReport} : KeepsSound s₀ (postFault slot fn r s) := .postFnEvent h.postAlways
theorem KeepsSound.postAccounting {slot : Nat} {x : Ctx} : KeepsSound s₀ (postAccounting slot x s) := .postAlways h.hostWrite
theorem KeepsSound.returnMemory {slot : Nat} {x : Ctx} : KeepsSound s₀ (returnMemory slot x s) :=
  .modWard h.release fun w hw => by
    split
    · exact hw
    · exact hw
theorem KeepsSound.dropEngineWork {slot : Nat} : KeepsSound s₀ (dropEngineWork slot s) := .settleDetect h.same
theorem KeepsSound.freeCtxSlot {slot : Nat} : KeepsSound s₀ (freeCtxSlot slot s) := .modSlot h.same
theorem KeepsSound.endDestroys {slot wd : Nat} : KeepsSound s₀ (endDestroys slot wd s) :=
  h.foldl (fun _ _ h' => h'.foldl (fun _ _ h'' => .ite h'' (.ite h''.completeOk (.ite h''.completeOk h''))))
theorem KeepsSound.finishTeardown {slot : Nat} {x : Ctx} : KeepsSound s₀ (finishTeardown slot x s) :=
  .endDestroys (.freeCtxSlot (.returnMemory (.postAccounting (.ite (.postFault (.endCommands (.dropEngineWork h.cancelRecords))) (.endCommands
    (.dropEngineWork h.cancelRecords))))))
theorem KeepsSound.execTeardownComplete {slot : Nat} : AnswersSound s₀ (execTeardownComplete slot s) :=
  .guardThat (.need (fun _ _ => .next h.finishTeardown))

/-! ## Counters and samples (Machine/Counters) -/

theorem KeepsSound.writeCnt {c i v : Nat} : KeepsSound s₀ (writeCnt c i v s) := h.modCorePerf
theorem KeepsSound.writeSel {c i v : Nat} : KeepsSound s₀ (writeSel c i v s) := h.modCorePerf
theorem KeepsSound.writeBwCfg {c v : Nat} : KeepsSound s₀ (writeBwCfg c v s) := h.modCorePerf
theorem KeepsSound.execBwCfgWrite {core value : Nat} : AnswersSound s₀ (execBwCfgWrite core value s) := .ite (.next h.writeBwCfg) (.next h)
theorem KeepsSound.endWindow {core : Nat} : KeepsSound s₀ (endWindow core s) := h.modCorePerf
theorem KeepsSound.execBwWindowEnd {core : Nat} : AnswersSound s₀ (execBwWindowEnd core s) := .guardThat (.next h.endWindow)
theorem KeepsSound.execCounterFreeze {freeze : Bool} : AnswersSound s₀ (execCounterFreeze freeze s) := .ite (.next h.modPerf) (.next h)
theorem KeepsSound.clearCounters : KeepsSound s₀ (clearCounters s) := h.modPerf
theorem KeepsSound.execCounterClear : AnswersSound s₀ (execCounterClear s) := .ite (.next h.clearCounters) (.next h)
theorem KeepsSound.writeSampleCtrl {v : Nat} : KeepsSound s₀ (writeSampleCtrl v s) := .ite h.modPerf (.ite h.modPerf (.ite h h.modPerf))
theorem KeepsSound.execSampleTimerEnable {value : Nat} : AnswersSound s₀ (execSampleTimerEnable value s) := .ite (.next h.writeSampleCtrl) (.next h)
theorem KeepsSound.execSampleExternalEnable {value : Nat} : AnswersSound s₀ (execSampleExternalEnable value s) :=
  .ite (.next h.writeSampleCtrl) (.next h)
theorem KeepsSound.execSampleTimer : AnswersSound s₀ (execSampleTimer s) := .guardThat (.next (.triggerAll h.modPerf))
theorem KeepsSound.writeSample {core : Nat} {q : PSample} {thread : Option Nat} {ok : Bool} : KeepsSound s₀ (writeSample core q thread ok s) :=
  .ite (.sendMsix (.modPerf (.modCorePerf (.ite h.hostWrite (.spoilHost h.hostDmaFailed))))) (.modPerf (.modCorePerf (.ite h.hostWrite (.spoilHost
    h.hostDmaFailed))))
theorem KeepsSound.execSampleRecordWrite {core : Nat} {thread : Option Nat} {ok : Bool} : AnswersSound s₀ (execSampleRecordWrite core thread ok s) :=
  .need (fun _ _ => .guardThat (.next h.writeSample))
theorem KeepsSound.writeSbufCfg {v : Nat} : KeepsSound s₀ (writeSbufCfg v s) := .ite (.ite h h.modPerf) h.modPerf
theorem KeepsSound.execSbufEnable {value : Nat} : AnswersSound s₀ (execSbufEnable value s) := .ite (.next h.writeSbufCfg) (.next h)
theorem KeepsSound.writeConsumer {v : Nat} : KeepsSound s₀ (writeConsumer v s) := .ite h.modPerf h
theorem KeepsSound.execSbufConsumerWrite {value : Nat} : AnswersSound s₀ (execSbufConsumerWrite value s) := .ite (.next h.writeConsumer) (.next h)
theorem KeepsSound.execSbufLostRead : AnswersSound s₀ (execSbufLostRead s) := .ite (.next (.modPerf h.same)) (.next h.same)
theorem KeepsSound.writePerfUser {slot : Nat} {set : Bool} : KeepsSound s₀ (writePerfUser slot set s) := .ite h (.modPerf h.modSlot)
theorem KeepsSound.execPerfUserWrite {slot : Nat} {set : Bool} : AnswersSound s₀ (execPerfUserWrite slot set s) :=
  .ite (.next h.writePerfUser) (.next h)
theorem KeepsSound.pcWrite {o v : Nat} {lo hi : Bool} : KeepsSound s₀ (pcWrite o v lo hi s) :=
  .ite (.ite h (.ite h.writeCnt (.ite h.writeSel (.ite h.modCorePerf (.ite h.writeBwCfg h))))) (.ite h.modPerf (.ite h.modPerf (.ite (.ite
    (.clearCounters h.modPerf) h.modPerf) (.ite (.ite h h.modPerf) (.ite h.writeSbufCfg (.ite h.writeConsumer (.ite h.writeSampleCtrl (.ite h.modPerf
    (.ite (h.foldl (fun _ _ h' => .ite h'.writePerfUser h')) h)))))))))
theorem KeepsSound.noteCycles {c n : Nat} : KeepsSound s₀ (noteCycles c n s) := by
  unfold Machine.noteCycles
  extract_lets k s2 s3 s4 s5
  have h2 : KeepsSound s₀ s2 := by
    unfold s2
    split
    · exact h.tally
    · exact h
  have h4 : KeepsSound s₀ s4 := .ite (.tally h2.tally) h2.tally
  have h5 : KeepsSound s₀ s5 := h4.foldl fun _ _ h' => by
    split
    · exact h'.tally
    · exact h'
  exact h5.foldl fun _ _ h' => .ite h'.tally h'
theorem KeepsSound.noteCycle {t0 : Nat} : KeepsSound s₀ (noteCycle t0 s) := .tallyChip (h.foldl (fun _ _ h' => .ite h'.noteCycles h'))
theorem KeepsSound.countCycle {t0 : Nat} : KeepsSound s₀ (countCycle t0 s) := by
  unfold Machine.countCycle
  exact .modPerf (.ite h (.countChip (h.foldl (fun _ _ h' => .ite h'.countCore h'))))

/-! ## Vision nodes (Machine/Vision) -/

theorem KeepsSound.startGraph {slot : Nat} {b : BufferSet} : KeepsSound s₀ (startGraph slot b s) := by
  unfold Machine.startGraph
  split
  · exact h
  · split
    · exact h
    · exact h.modCtx
theorem KeepsSound.keepSources {wd : Nat} : KeepsSound s₀ (keepSources wd s) := h.foldl (fun _ _ h' => h'.modCtx)
theorem KeepsSound.startNode {slot : Nat} {x : Ctx} {g : GraphRun} {k : Nat} : KeepsSound s₀ (startNode slot x g k s) := by
  unfold Machine.startNode
  dsimp only
  split
  · exact h.modGraph
  · exact .startRun h.modGraph
theorem KeepsSound.execVisionNodeStart {slot node : Nat} : AnswersSound s₀ (execVisionNodeStart slot node s) :=
  .need (fun _ _ => .need (fun _ _ => .next h.startNode))
theorem KeepsSound.endSlice {e : Nat} : KeepsSound s₀ (endSlice e s) := by
  unfold Machine.endSlice
  dsimp only
  split
  · exact h
  · split
    · exact h
    · exact h.unlessSpoiled (fun _ h' => .modGraph (.tallyChip h'.chargeFixed))
theorem KeepsSound.execVisionSliceBoundary {engine : Nat} : AnswersSound s₀ (execVisionSliceBoundary engine s) := by
  unfold Machine.execVisionSliceBoundary
  dsimp only
  refine .guardThat ?_
  split
  · exact .next (.same h.endSlice)
  · exact .ite .notNow (.next (.same h.endSlice))
theorem KeepsSound.bandComplete {slot : Nat} {x : Ctx} {g : GraphRun} {node band : Nat} : KeepsSound s₀ (bandComplete slot x g node band s) :=
  .ite (.modCtx (.ite (.bindMotion (.hostBuffer (.modGraph (h.foldl (fun _ _ h' => h'.addStat))))) (.hostBuffer (.modGraph (h.foldl (fun _ _ h' =>
    h'.addStat)))))) (.hostBuffer (.modGraph (h.foldl (fun _ _ h' => h'.addStat))))
theorem KeepsSound.execFlowBandComplete {slot node band : Nat} : AnswersSound s₀ (execFlowBandComplete slot node band s) :=
  .need (fun _ _ => .need (fun _ _ => .next h.bandComplete))
theorem KeepsSound.execGraphRunEnd {slot : Nat} : AnswersSound s₀ (execGraphRunEnd slot s) :=
  .need (fun _ _ => .need (fun _ _ => .next (.ite (.postOther h.modCtx) h.modCtx)))

/-! ## Frame graphs (Machine/Graphs) -/

theorem KeepsSound.graphLoadGo {slot seq : Nat} {c : Cmd} {x : Ctx} : KeepsSound s₀ (graphLoadGo slot seq c x s) := by
  unfold Machine.graphLoadGo
  dsimp only
  split
  · exact .fail h.chargeHost
  · split
    · exact .fail h.chargeHost
    · split
      · exact .complete h.chargeHost
      · exact .ite (.fail h.chargeHost) (.completeOk (.modCtx h.chargeHost))
theorem KeepsSound.execGraphLoad {slot seq : Nat} : AnswersSound s₀ (execGraphLoad slot seq s) := h.ctxCommand (fun _ _ _ h' => h'.graphLoadGo)
theorem KeepsSound.graphUnloadGo {slot seq : Nat} {x : Cmd} {x' : Ctx} : KeepsSound s₀ (graphUnloadGo slot seq x x' s) :=
  .ite h.fail (.completeOk h.modCtx)
theorem KeepsSound.execGraphUnload {slot seq : Nat} : AnswersSound s₀ (execGraphUnload slot seq s) := h.ctxCommand (fun _ _ _ h' => h'.graphUnloadGo)
theorem KeepsSound.auxRunGo {slot seq net : Nat} {c : Cmd} {x : Ctx} : KeepsSound s₀ (auxRunGo slot seq net c x s) := by
  unfold Machine.auxRunGo
  split
  · exact h.fail
  · exact .ite h.fail (.startRun (.chargeVault h.modCmd))
theorem KeepsSound.execAuxRun {slot seq : Nat} : AnswersSound s₀ (execAuxRun slot seq s) :=
  .need (fun _ _ => .need (fun _ _ => .guardThat (.next h.auxRunGo)))

/-! ## Images and copies (Machine/Objects) -/

theorem KeepsSound.imageLoadGo {fn seq : Nat} {c : Cmd} : KeepsSound s₀ (imageLoadGo fn seq c s) := by
  unfold Machine.imageLoadGo
  extract_lets r len b
  generalize e : Machine.allocate fn (cdiv len (2 ^ 18)) (.image (freeKeyFrom (wardOf s fn).images 1)) true b s = placed
  cases imageReject b len with
  | some x => exact h.complete
  | none =>
    cases placed with
    | none => exact h.fail
    | some p => exact .completeOk (.modWard (h.allocate e))
theorem KeepsSound.execImageLoad {fn seq : Nat} : AnswersSound s₀ (execImageLoad fn seq s) := h.command (fun _ _ h' => h'.imageLoadGo)
theorem KeepsSound.imageUnloadGo {fn seq : Nat} {c : Cmd} : KeepsSound s₀ (imageUnloadGo fn seq c s) :=
  .ite h.fail (.ite h.fail (.completeOk (.modWard h.release)))
theorem KeepsSound.execImageUnload {fn seq : Nat} : AnswersSound s₀ (execImageUnload fn seq s) := h.command (fun _ _ h' => h'.imageUnloadGo)
theorem KeepsSound.copyGo {slot seq : Nat} {c : Cmd} {x : Ctx} : KeepsSound s₀ (copyGo slot seq c x s) := by
  unfold Machine.copyGo
  dsimp only
  split
  · exact .ite (.completeOk (.chargeVault (.chargeHost h.wardWrite))) h.fail
  · split
    · exact h.fail
    · split
      · exact h.fail
      · split
        · exact h.uncorrectable
        · exact .ite (.completeOk (.chargeVault (.chargeHost h.hostWrite))) (.completeOk (.chargeVault h.wardWrite))
theorem KeepsSound.execCopy {slot seq : Nat} : AnswersSound s₀ (execCopy slot seq s) := h.ctxCommand (fun _ _ _ h' => h'.copyGo)
theorem KeepsSound.execBar2Read {fn offset length : Nat} : AnswersSound s₀ (execBar2Read fn offset length s) := .ite (.next h.same) (.next h.same)
theorem KeepsSound.execBar2Write {fn offset : Nat} {data : Bytes} : AnswersSound s₀ (execBar2Write fn offset data s) :=
  .ite (.ite (.next h.wardWrite) (.next h.raiseHostDma)) (.next h)
theorem KeepsSound.dropTransit {r : RingRef} {seq : Nat} : KeepsSound s₀ (dropTransit r seq s) := by
  unfold Machine.dropTransit
  split
  · exact h
  · exact h.modWard
theorem KeepsSound.execHostDmaComplete {target : DmaTarget} {ok : Bool} : AnswersSound s₀ (execHostDmaComplete target ok s) := by
  unfold Machine.execHostDmaComplete
  split
  · refine .need (fun _ _ => (.guardThat ?_))
    split
    · exact .next h
    · refine .next (.complete (.dropTransit ?_))
      split
      · exact .spoilHost h.hostDmaFailed
      · exact h.hostDmaFailed
  · exact .ite (.next h) (.next (.hostDmaFailed h.drawFree_snd))

/-! ## Captures (Machine/Captures) -/

theorem KeepsSound.execCaptureTask {slot p : Nat} : AnswersSound s₀ (execCaptureTask slot p s) :=
  .need (fun _ _ => .need (fun _ _ => .need (fun _ _ => .need (fun _ _ => .next (.settleSets (.modCtx (.chargeWork h.dropTasks)))))))

/-! ## Adaptation (Machine/Adapt) -/

theorem KeepsSound.modAd {slot : Nat} {g : Adapt → Adapt} : KeepsSound s₀ (modAd slot g s) := h.modCtx
theorem KeepsSound.abandonStep {slot : Nat} : KeepsSound s₀ (abandonStep slot s) := .dropTasks h.modAd
theorem KeepsSound.bindCopies {slot wd : Nat} {img : Bytes} : KeepsSound s₀ (bindCopies slot wd img s) := by
  unfold Machine.bindCopies
  extract_lets s1
  have h1 : KeepsSound s₀ s1 := h.release
  refine .ite h1 ?_
  cases e : Machine.allocate wd (copyGranules img) (.copies slot) true (weightCopies img) s1 with
  | none => exact h1
  | some r => exact h1.allocate e
theorem KeepsSound.bindStats {slot wd layers : Nat} : KeepsSound s₀ (bindStats slot wd layers s) := h.modWard
theorem KeepsSound.bindTensors {slot wd hd : Nat} {x : Ctx} {img : Bytes} : KeepsSound s₀ (bindTensors slot wd hd x img s) := .resizeObject h.release
theorem KeepsSound.bindImage {slot hd : Nat} {x : Ctx} {img : Bytes} : KeepsSound s₀ (bindImage slot hd x img s) :=
  .foldl (.modCtx (.bindCopies (.bindTensors (.resizeObject (.bindStats h.abandonStep))))) (fun _ _ h' => h'.postEvent)
theorem KeepsSound.imageBindGo {slot seq : Nat} {c : Cmd} {x : Ctx} : KeepsSound s₀ (imageBindGo slot seq c x s) := by
  unfold Machine.imageBindGo
  split
  · exact h.fail
  · split
    · exact .ite h.complete h.fail
    · exact .completeOk h.bindImage
theorem KeepsSound.execImageBind {slot seq : Nat} : AnswersSound s₀ (execImageBind slot seq s) := h.ctxCommand (fun _ _ _ h' => h'.imageBindGo)
theorem KeepsSound.takeControl {slot : Nat} {x : Ctx} : KeepsSound s₀ (takeControl slot x s) := h.foldl (fun _ _ h' => .completeOk h'.modAd)
theorem KeepsSound.publish {slot : Nat} {x : Ctx} : KeepsSound s₀ (publish slot x s) := .ite (.foldl h.modAd (fun _ _ h' => h'.completeOk)) h
theorem KeepsSound.dealTraining {slot : Nat} {x : Ctx} {net : Net} {step n : Nat} : KeepsSound s₀ (dealTraining slot x net step n s) :=
  h.foldl (fun _ _ h' => h'.dealTask)
theorem KeepsSound.startStep {slot : Nat} {x : Ctx} : KeepsSound s₀ (startStep slot x s) := by
  unfold Machine.startStep
  dsimp only
  split
  · exact h
  · split
    · exact h
    · exact .ite (.dealTraining (.modAd (h.foldl (fun _ _ h' => h'.postEvent)))) h
theorem KeepsSound.renewSlots {slot : Nat} {x : Ctx} : KeepsSound s₀ (renewSlots slot x s) := by
  unfold Machine.renewSlots
  split
  · exact h.modWard
  · exact h
/-- An operation on a context, where there is one. -/
theorem KeepsSound.onCtx {slot : Nat} {g : Ctx → State → State}
    (hg : ∀ x, KeepsSound s₀ (g x s)) : KeepsSound s₀ (match ctxOf s slot with | some x => g x s | none => s) := by
  split
  · exact hg _
  · exact h
theorem KeepsSound.atBoundary {slot : Nat} : KeepsSound s₀ (atBoundary slot s) := by
  unfold Machine.atBoundary
  extract_lets on s1 s2 s3
  have h1 : KeepsSound s₀ s1 := .onCtx h.abandonStep fun _ => .modAd h.abandonStep
  have h2 : KeepsSound s₀ s2 := h1.onCtx fun _ => h1.takeControl
  have h3 : KeepsSound s₀ s3 := h2.onCtx fun _ => .ite (.settleSets (.renewSlots h2.modAd)) h2
  have h4 : KeepsSound s₀ (on (Machine.publish slot) s3) := h3.onCtx fun _ => h3.publish
  exact h4.onCtx fun _ => h4.startStep
theorem KeepsSound.execStepBoundary {slot : Nat} : AnswersSound s₀ (execStepBoundary slot s) := .need (fun _ _ => .guardThat (.next h.atBoundary))
theorem KeepsSound.countForward {slot : Nat} {img : Bytes} {fs : List Fwd} : KeepsSound s₀ (countForward slot img fs s) :=
  h.foldl (fun _ _ h' => h'.foldl (fun _ _ h'' => h''.countLayer))
theorem KeepsSound.endStep {slot : Nat} {st : Step} {img : Bytes} {net : Net} {x : Ctx} : KeepsSound s₀ (endStep slot st img net x s) := by
  unfold Machine.endStep
  dsimp only
  split
  · exact .addStat (.modAd (.countForward (.chargeWork h.abandonStep)))
  · exact .addStat (.modAd (.countForward (.chargeWork h.abandonStep)))
  · exact .addStat (.modAd (.countForward (.chargeWork h.abandonStep)))
theorem KeepsSound.execTrainingStepComplete {slot : Nat} : AnswersSound s₀ (execTrainingStepComplete slot s) :=
  .need (fun _ _ => .need (fun _ _ => .guardThat (.need (fun _ _ => .need (fun _ _ => .guardThat (.next (h.unlessSpoiled (fun _ h' =>
    h'.endStep))))))))
theorem KeepsSound.awaitBoundary {r : RingRef} {seq : Nat} : KeepsSound s₀ (awaitBoundary r seq s) := h.modCmd
theorem KeepsSound.adaptPublishGo {slot seq : Nat} {x : Ctx} : KeepsSound s₀ (adaptPublishGo slot seq x s) :=
  .ite h.fail (.ite h.completeOk (.awaitBoundary h.modAd))
theorem KeepsSound.boundaryCommand {slot seq op : Nat} {go : Cmd → Ctx → State → State} (hgo : ∀ c x n, KeepsSound s₀ n → KeepsSound s₀ (go c x n)) :
    AnswersSound s₀ (boundaryCommand slot seq op s go) := .need (fun _ _ => .need (fun _ _ => .guardThat (.next (hgo _ _ _ h))))
theorem KeepsSound.execAdaptPublish {slot seq : Nat} : AnswersSound s₀ (execAdaptPublish slot seq s) :=
  h.boundaryCommand (fun _ _ _ h' => h'.adaptPublishGo)
theorem KeepsSound.adapterLoadGo {slot seq : Nat} {c : Cmd} {x : Ctx} : KeepsSound s₀ (adapterLoadGo slot seq c x s) := by
  unfold Machine.adapterLoadGo
  split
  · exact h.fail
  · exact .ite h.fail (.awaitBoundary (.modAd (.abandonStep h.chargeHost)))
theorem KeepsSound.execAdapterLoad {slot seq : Nat} : AnswersSound s₀ (execAdapterLoad slot seq s) :=
  h.boundaryCommand (fun _ _ _ h' => h'.adapterLoadGo)
theorem KeepsSound.execAdapterExport {slot seq : Nat} : AnswersSound s₀ (execAdapterExport slot seq s) :=
  h.ctxCommand (fun _ _ _ h' => .ite h'.fail (.completeOk (.chargeHost h'.hostWrite)))
theorem KeepsSound.execStoreClear {slot seq : Nat} : AnswersSound s₀ (execStoreClear slot seq s) :=
  h.ctxCommand (fun _ _ _ h' => .completeOk (.settleSets h'.modAd))
theorem KeepsSound.execTrainControl {slot seq : Nat} : AnswersSound s₀ (execTrainControl slot seq s) :=
  h.boundaryCommand (fun _ _ _ h' => h'.awaitBoundary)

/-! ## Frames (Machine/Frames) -/

theorem KeepsSound.swapAdapters {slot number t0 : Nat} : KeepsSound s₀ (swapAdapters slot number t0 s) := by
  unfold Machine.swapAdapters
  split
  · exact h
  · exact .postEvent h.modCtx
theorem KeepsSound.dealFrame {slot : Nat} {x : Ctx} {f : Frame} {captures : Nat} : KeepsSound s₀ (dealFrame slot x f captures s) :=
  .settleInherit (.foldl (.ite (.foldl (h.foldl (fun _ _ h' => h'.dealTask)) (fun _ _ h' => .dealTask (h'.foldl (fun _ _ h'' => h''.dealTask))))
    (h.foldl (fun _ _ h' => h'.dealTask))) (fun _ _ h' => h'.dealTask))
theorem KeepsSound.startFrame {slot hd : Nat} {x0 : Ctx} {p : Plan} : KeepsSound s₀ (startFrame slot hd x0 p s) := by
  unfold Machine.startFrame
  dsimp only
  split
  · exact h
  · exact .ite (.startGuard (.settleSets (.ite (.postEvent (.dealFrame (.ite (.modCtx h.swapAdapters) (.settleOp (.same (.modCtx
      h.swapAdapters)))))) (.dealFrame (.ite (.modCtx h.swapAdapters) (.settleOp (.same (.modCtx h.swapAdapters)))))))) (.settleSets (.ite (.postEvent
      (.dealFrame (.ite (.modCtx h.swapAdapters) (.settleOp (.same (.modCtx h.swapAdapters)))))) (.dealFrame (.ite (.modCtx h.swapAdapters) (.settleOp
      (.same (.modCtx h.swapAdapters)))))))
theorem KeepsSound.execFrameStart {slot : Nat} : AnswersSound s₀ (execFrameStart slot s) :=
  .need (fun _ _ => .need (fun _ _ => .need (fun _ _ => .guardThat (.next h.startFrame))))
theorem KeepsSound.execCutOff {slot : Nat} : AnswersSound s₀ (execCutOff slot s) := .need (fun _ _ => .need (fun _ _ => .guardThat (.next h.modCtx)))
theorem KeepsSound.settleHiers {slot : Nat} : KeepsSound s₀ (settleHiers slot s) := by
  unfold Machine.settleHiers
  split
  · exact h
  · refine h.foldl (fun _ _ h' => ?_)
    split
    · exact .completeOk (.modCtx h'.release)
    · exact .modCtx h'.release
theorem KeepsSound.abandonFrame {slot : Nat} : KeepsSound s₀ (abandonFrame slot s) := by
  unfold Machine.abandonFrame
  split
  · exact h
  · exact .settleHiers (.modCtx (.modWard h.dropTasks))
theorem KeepsSound.postRung {slot : Nat} {f : Frame} : KeepsSound s₀ (postRung slot f s) := .ite h.postEvent h
theorem KeepsSound.countMiss {head slot : Nat} : KeepsSound s₀ (countMiss head slot s) := .ite h.modHead h
theorem KeepsSound.frameReady {slot : Nat} : KeepsSound s₀ (frameReady slot s) := by
  unfold Machine.frameReady
  split
  · exact h
  · split
    · exact h
    · exact .modHead (.settleHiers (.settleSets (.modCtx (.ite (.countMiss (.postEvent h.postRung)) h.postRung))))

/-! ## Digests (Machine/Digests) -/

theorem KeepsSound.pruneReady {slot : Nat} : KeepsSound s₀ (pruneReady slot s) := h.modCtx
theorem KeepsSound.writeInfo {slot : Nat} {x : Ctx} {r : Ready} {ok : Bool} : KeepsSound s₀ (writeInfo slot x r ok s) :=
  .pruneReady (.modCtx (.ite (.tallyChip (.postOther (.ite (.chargeHost (.hostWrite h.same)) (.spoilHost (.hostDmaFailed h.same))))) (.postOther
    (.ite (.chargeHost (.hostWrite h.same)) (.spoilHost (.hostDmaFailed h.same))))))
theorem KeepsSound.execDigestComplete {slot : Nat} {infoOk : Bool} : AnswersSound s₀ (execDigestComplete slot infoOk s) :=
  .need (fun _ _ => .need (fun _ _ => .next h.writeInfo))
theorem KeepsSound.replayFrameGo {slot seq : Nat} {c : Cmd} {x : Ctx} : KeepsSound s₀ (replayFrameGo slot seq c x s) :=
  .ite h.fail (.ite h.fail (.ite h.fail (.ite h.fail (.completeOk (.modCtx h.chargeHost)))))
theorem KeepsSound.execReplayFrame {slot seq : Nat} : AnswersSound s₀ (execReplayFrame slot seq s) := h.ctxCommand (fun _ _ _ h' => h'.replayFrameGo)

/-! ## Heads (Machine/Heads) -/

theorem KeepsSound.postLink {head reason lanes rate : Nat} : KeepsSound s₀ (postLink head reason lanes rate s) := by
  unfold Machine.postLink
  split
  · exact h.postFnEvent
  · exact h
theorem KeepsSound.linkRise {head : Nat} {r : LinkResult} : KeepsSound s₀ (linkRise head r s) := .ite h.modHead (.postLink h.modHead)
theorem KeepsSound.linkFall {head : Nat} : KeepsSound s₀ (linkFall head s) := .ite (.postLink h.modHead) h
theorem KeepsSound.acceptHead {head : Nat} {b : Bytes} : KeepsSound s₀ (acceptHead head b s) := h.modHead
theorem KeepsSound.noteSink {b : Bytes} : KeepsSound s₀ (noteSink b s) := .ite h.same h
theorem KeepsSound.headConfigGo {fn seq : Nat} {b : Bytes} : KeepsSound s₀ (headConfigGo fn seq b s) := by
  unfold Machine.headConfigGo
  dsimp only
  split
  · exact .complete h.noteSink
  · split
    · exact .fail h.noteSink
    · split
      · exact .fail h.noteSink
      · exact .ite (.modCmd h.noteSink) (.completeOk (.acceptHead h.noteSink))
theorem KeepsSound.execHeadConfig {fn seq : Nat} : AnswersSound s₀ (execHeadConfig fn seq s) := .need (fun _ _ => .guardThat (.next h.headConfigGo))
theorem KeepsSound.trainingEnd {head fn : Nat} {c : Cmd} {q : LinkResult} : KeepsSound s₀ (trainingEnd head fn c q s) := by
  unfold Machine.trainingEnd
  split
  · exact h.fail
  · exact .ite h.fail (.ite (.completeOk (.linkRise h.acceptHead)) (.complete h.linkFall))
theorem KeepsSound.execDpLinkTrainingEnd {head : Nat} {result : LinkResult} : AnswersSound s₀ (execDpLinkTrainingEnd head result s) :=
  .guardThat (.need (fun _ _ => .next h.trainingEnd))
theorem KeepsSound.execDpHotPlug {head : Nat} {result : LinkResult} : AnswersSound s₀ (execDpHotPlug head result s) :=
  .guardThat (.ite (.next h.linkRise) (.next h))
theorem KeepsSound.execDpLinkLoss {head : Nat} : AnswersSound s₀ (execDpLinkLoss head s) := .guardThat (.next h.linkFall)
theorem KeepsSound.headQueryGo {fn seq : Nat} {c : Cmd} {sink : Bool} {edid dpcd : Bytes} : KeepsSound s₀ (headQueryGo fn seq c sink edid dpcd s) :=
  .ite h.fail (.completeOk (.ite h.hostWrite (.linkFall h.hostWrite)))
theorem KeepsSound.execHeadQuery {fn seq : Nat} {sink : Bool} {edid dpcd : Bytes} : AnswersSound s₀ (execHeadQuery fn seq sink edid dpcd s) :=
  h.command (fun _ _ h' => h'.headQueryGo)
theorem KeepsSound.tapConfigGo {fn seq : Nat} {c : Cmd} : KeepsSound s₀ (tapConfigGo fn seq c s) := by
  unfold Machine.tapConfigGo
  dsimp only
  split
  · exact .completeOk h.same
  · split
    · exact h.fail
    · split
      · exact h.complete
      · exact .ite h.fail (.completeOk h.same)
theorem KeepsSound.execTapConfig {fn seq : Nat} : AnswersSound s₀ (execTapConfig fn seq s) := h.command (fun _ _ h' => h'.tapConfigGo)
theorem KeepsSound.headBindGo {slot seq : Nat} {c : Cmd} {x : Ctx} :
    KeepsSound s₀ (headBindGo slot seq c x s) := by
  unfold Machine.headBindGo
  extract_lets r head hd
  split
  · exact h.fail
  · refine .ite h.fail (.ite h.fail (.ite h.fail ?_))
    split
    · exact h.complete
    · exact .completeOk (.modCtx h.modHead)
theorem KeepsSound.execHeadBind {slot seq : Nat} : AnswersSound s₀ (execHeadBind slot seq s) := h.ctxCommand (fun _ _ _ h' => h'.headBindGo)
theorem KeepsSound.execHeadUnbind {slot seq : Nat} : AnswersSound s₀ (execHeadUnbind slot seq s) := by
  unfold Machine.execHeadUnbind
  refine .need (fun _ _ => (.guardThat ?_))
  split
  · exact .next h.fail
  · exact .next (.modHead h.modCmd)

/-! ## Functions (Machine/Functions) -/

theorem KeepsSound.dropHeldAdmin {fn : Nat} : KeepsSound s₀ (dropHeldAdmin fn s) := h.same
theorem KeepsSound.flrVf {fn : Nat} : KeepsSound s₀ (flrVf fn s) := .dropHeldAdmin (.modFn h.resetWard)
theorem KeepsSound.resetPfRegs : KeepsSound s₀ (resetPfRegs s) := h.same (portsLen := List.length_map ..)
theorem KeepsSound.flrPf : KeepsSound s₀ (flrPf s) := by
  have down : KeepsSound s₀ ((List.range 16).foldl (fun s w => Machine.teardownWard w s) s) := h.foldl fun _ _ h => h.teardownWard
  unfold Machine.flrPf
  generalize (List.range 16).foldl (fun s w => Machine.teardownWard w s) s = s1 at down ⊢
  exact .ite (.same (.resetPfRegs down.freshWards)) (.resetPfRegs down.freshWards)
theorem KeepsSound.execFlrVf {fn : Nat} : AnswersSound s₀ (execFlrVf fn s) := .ite (.next h.flrVf) (.next h)
theorem KeepsSound.execFlrPf : AnswersSound s₀ (execFlrPf s) := .ite (.next h.flrPf) (.next h)
theorem KeepsSound.linkResetNow : KeepsSound s₀ (linkResetNow s) := .same h.flrPf
theorem KeepsSound.execLinkReset : AnswersSound s₀ (execLinkReset s) := .ite (.next h) (.ite (.next h.same) (.next h.linkResetNow))
theorem KeepsSound.execVfEnable {count : Nat} : AnswersSound s₀ (execVfEnable count s) :=
  .ite (.next (.same (h.foldl (fun _ _ h' => .modFn h'.flrVf)))) (.next h)
theorem KeepsSound.execD3hotEntry {fn : Nat} : AnswersSound s₀ (execD3hotEntry fn s) := .ite (.next (.modFn (.ite h.flrPf h.flrVf))) (.next h)
theorem KeepsSound.execD0Return {fn : Nat} : AnswersSound s₀ (execD0Return fn s) := .ite (.next h.modFn) (.next h)
theorem KeepsSound.execKeeperHeartbeat : AnswersSound s₀ (execKeeperHeartbeat s) := .guardThat (.next h.same)
theorem KeepsSound.execBar0ImproperAccess {fn : Nat} {write : Bool} : AnswersSound s₀ (execBar0ImproperAccess fn write s) :=
  .ite (.next (.raiseHostDma (.ite h h.readBack))) (.next h)

/-! ## Geometry (Machine/Geometry) -/

theorem KeepsSound.modGeo {slot : Nat} {g : GeoState → GeoState} : KeepsSound s₀ (modGeo slot g s) := h.modFrame
theorem KeepsSound.clearPlanes {slot : Nat} {x : Ctx} {f : Frame} : KeepsSound s₀ (clearPlanes slot x f s) := h.wardWrite
theorem KeepsSound.clearDisocc {slot : Nat} {x : Ctx} {f : Frame} : KeepsSound s₀ (clearDisocc slot x f s) := h.wardWrite
theorem KeepsSound.dropBins {slot number : Nat} : KeepsSound s₀ (dropBins slot number s) := h.dropTasks
theorem KeepsSound.startGeometry {slot : Nat} {x : Ctx} {f0 : Frame} : KeepsSound s₀ (startGeometry slot x f0 s) :=
  .ite (.addStat h.modFrame) (.dropBins (.clearPlanes (.addStat h.modFrame)))
theorem KeepsSound.execGeometryPassStart {slot : Nat} : AnswersSound s₀ (execGeometryPassStart slot s) :=
  .need (fun _ _ => .need (fun _ _ => .guardThat (.next h.startGeometry)))
theorem KeepsSound.goImmediate {slot reason : Nat} : KeepsSound s₀ (goImmediate slot reason s) := by
  unfold Machine.goImmediate
  split
  · exact h
  · split
    · exact h
    · exact .postEvent (.modGeo (.dropBins h.clearPlanes))
theorem KeepsSound.beginGrowth {slot wd chunks : Nat} : KeepsSound s₀ (beginGrowth slot wd chunks s) := .modWard (.modCtx h.modGeo)
theorem KeepsSound.requestGrowth {slot : Nat} : KeepsSound s₀ (requestGrowth slot s) := by
  unfold Machine.requestGrowth
  split
  · exact h
  · split
    · exact h
    · refine .ite h (.ite h.goImmediate (.ite h.beginGrowth (.checkpoint (.postEvent (.modGeo (h.modWard fun w hw => ?_))))))
      split
      · exact hw
      · exact hw
theorem KeepsSound.settleFe {slot fe : Nat} : KeepsSound s₀ (settleFe slot fe s) := by
  unfold Machine.settleFe
  split
  · exact h
  · split
    · exact h
    · exact .ite (.requestGrowth (.tallyChip h.modGeo)) (.tallyChip h.modGeo)
theorem KeepsSound.growthDone {slot n : Nat} : KeepsSound s₀ (growthDone slot n s) := by
  unfold Machine.growthDone
  dsimp only
  split
  · exact h.modCtx
  · exact .foldl h.modCtx (fun _ _ h' => h'.settleFe)
theorem KeepsSound.execPoolGrowthComplete {slot : Nat} : AnswersSound s₀ (execPoolGrowthComplete slot s) :=
  .need (fun _ _ => .need (fun _ _ => .next h.growthDone))
theorem KeepsSound.serveGrowth {wd fuel : Nat} : KeepsSound s₀ (serveGrowth wd fuel s) := by
  induction fuel generalizing s with
  | zero => exact h
  | succ fuel ih =>
    unfold Machine.serveGrowth
    split
    · exact h
    · exact .ite h (ih (.beginGrowth h.modWard))
theorem KeepsSound.memoryGrantGo {fn seq : Nat} {c : Cmd} : KeepsSound s₀ (memoryGrantGo fn seq c s) := by
  unfold Machine.memoryGrantGo
  dsimp only
  split
  · exact .ite h.fail (.completeOk h.modWard)
  · split
    · exact h.fail
    · rename_i e
      exact .completeOk (.serveGrowth (.modWard (h.allocate e)))
theorem KeepsSound.execMemoryGrant {fn seq : Nat} : AnswersSound s₀ (execMemoryGrant fn seq s) := h.command (fun _ _ h' => h'.memoryGrantGo)
theorem KeepsSound.setupGroup {fe slot : Nat} {x : Ctx} {f : Frame} : KeepsSound s₀ (setupGroup fe slot x f s) := by
  unfold Machine.setupGroup
  dsimp only
  split
  · exact h
  · exact .tallyChip (.tallyChip (.chargeFixed (.modGeo h.same)))
  · exact .settleFe (.tallyChip (.tallyChip (.chargeFixed (.modGeo h.same))))
theorem KeepsSound.putPixel {slot : Nat} {x : Ctx} {c : Bytes} {px : Nat} {codes : List Nat} : KeepsSound s₀ (putPixel slot x c px codes s) :=
  h.foldl (fun _ _ h' => h'.wardWrite)
theorem KeepsSound.startBlend {slot core : Nat} {x : Ctx} {f : Frame} {k : Nat × Nat × KernelRec} {b : Batch}
    {parent : Option Nat} : KeepsSound s₀ (startBlend slot core x f k b parent s) :=
  .bootTask h.putTask
theorem KeepsSound.wakePixels {slot : Nat} : KeepsSound s₀ (wakePixels slot s) := h.same
theorem KeepsSound.execFeSetupGroup {fe : Nat} : AnswersSound s₀ (execFeSetupGroup fe s) :=
  .need (fun _ _ => .need (fun _ _ => .next (.wakePixels h.setupGroup)))
theorem KeepsSound.blendPixels {reversed : Bool} {t : SubTri} {frs : List Frag} {read : Nat → Frag → State → Nat} {write : Frag → List Nat → State →
    State} (hwrite : ∀ q l n, KeepsSound s₀ n → KeepsSound s₀ (write q l n)) : KeepsSound s₀ (blendPixels reversed t frs read write s) := h.foldl (fun _ _
    h' => .ite (hwrite _ _ _ h') h')
omit h in
theorem initStore_wf (far : Nat) : Mem.wf (initStore far) = true := Mem.writeN_wf _ rfl
theorem KeepsSound.beginBatch {id far : Nat} : KeepsSound s₀ (Machine.modTask id (fun t => { t with
    progress := t.progress + 1, store := if t.progress = 0 then initStore far else t.store }) s) :=
  h.modTask fun k hk => by
    dsimp only
    split
    · exact initStore_wf far
    · exact hk
theorem KeepsSound.binStep {n : State} {id : Nat} {t : Task} (e : binStep id t s = some n) : KeepsSound s₀ n := by
  unfold Machine.binStep at e
  split at e
  · split at e
    · cases e
    · split at e
      · dsimp only at e
        split at e
        · split at e
          · cases e
            exact .blendPixels h.beginBatch fun _ _ _ h => h.foldl fun _ _ h => h.storeWrite
          · cases e
        · split at e
          · cases e
            exact .startBlend h.beginBatch
          · cases e
      · cases e
  · cases e
theorem KeepsSound.endBin {id : Nat} {t : Task} {bin : Nat} : KeepsSound s₀ (endBin id t bin s) := by
  unfold Machine.endBin
  split
  · exact h
  · split
    · exact h
    · exact h.unlessSpoiled (fun _ h' => .chargeWork (.dropTasks (.modGeo (h'.foldl (fun _ _ h'' => h''.putPixel)))))
theorem KeepsSound.immediateBatch {slot : Nat} {x : Ctx} {f : Frame} {b : Batch} : KeepsSound s₀ (immediateBatch slot x f b s) :=
  h.foldl (fun _ _ h' => .ite (.putPixel h'.modGeo) h')
theorem KeepsSound.immediateOccluder {slot : Nat} {x : Ctx} {f : Frame} {b : Batch} : KeepsSound s₀ (immediateOccluder slot x f b s) := by
  unfold Machine.immediateOccluder
  exact h.blendPixels (fun _ _ _ h' => h'.putPixel)
theorem KeepsSound.takeBatch {slot fe core : Nat} {x : Ctx} {f : Frame} {b : Batch} : AnswersSound s₀ (takeBatch slot fe core x f b s) := by
  unfold Machine.takeBatch
  dsimp only
  split
  · exact .next (.chargeWork (.immediateBatch h.modGeo))
  · split
    · split
      · exact .notNow
      · exact .need (fun _ _ => .guardThat (.next (.wakePixels (.immediateOccluder h.modGeo))))
    · exact .guardThat (.next (.startBlend h.modGeo))
theorem KeepsSound.execFragmentBatch {slot fe core : Nat} : AnswersSound s₀ (execFragmentBatch slot fe core s) :=
  .need (fun _ _ => .need (fun _ _ => .need (fun _ _ => .guardThat h.takeBatch)))
theorem KeepsSound.setGeoLatches {slot : Nat} {tiles : List Nat} : KeepsSound s₀ (setGeoLatches slot tiles s) :=
  .ite (.checkpoint h.modFrame) h.modFrame
theorem KeepsSound.binningDone {slot : Nat} {f : Frame} : KeepsSound s₀ (binningDone slot f s) := by
  unfold Machine.binningDone
  split
  · exact h.modGeo
  · exact .ite h.modGeo (.setGeoLatches (.clearDisocc (.ite (.clearPlanes h.modGeo) h.modGeo)))
theorem KeepsSound.execBinningComplete {slot : Nat} : AnswersSound s₀ (execBinningComplete slot s) :=
  .need (fun _ _ => .need (fun _ _ => .guardThat (.next h.binningDone)))
theorem KeepsSound.execSplatComplete {slot : Nat} : AnswersSound s₀ (execSplatComplete slot s) :=
  .need (fun _ _ => .need (fun _ _ => .guardThat (.next (.chargeWork h.modGeo))))

/-! ## Latches, hasps and the end of threads (Machine/CoreSync) -/

theorem KeepsSound.fenceDone {t : ThreadRef} {scopes : Nat} : KeepsSound s₀ (fenceDone t scopes s) := .ite h.modCore h
theorem KeepsSound.wakeLatch {staging : Bool} {index : Nat} {mine : Nat → Bool} : KeepsSound s₀ (wakeLatch staging index mine s) := h.same
theorem KeepsSound.setLocal {task index : Nat} : KeepsSound s₀ (setLocal task index s) := .wakeLatch h.modTask
theorem KeepsSound.setStaging {slot index : Nat} : KeepsSound s₀ (setStaging slot index s) := by
  unfold Machine.setStaging
  refine .foldl (.wakeLatch h.modCtx) (fun _ _ h' => ?_)
  split
  · exact h'.replyTo
  · exact h'
theorem KeepsSound.clearLocal {task index : Nat} : KeepsSound s₀ (clearLocal task index s) :=
  h.modTask fun k hk => by
    split
    · exact hk
    · exact hk
theorem KeepsSound.clearStaging {slot index : Nat} : KeepsSound s₀ (clearStaging slot index s) := h.modCtx
theorem KeepsSound.setLatchNow {t : ThreadRef} {staging : Bool} {index : Nat} : KeepsSound s₀ (setLatchNow t staging index s) := by
  unfold Machine.setLatchNow
  split
  · exact h
  · split
    · exact h
    · split
      · exact h.parkedFault
      · exact h.setLocal
      · exact h.setStaging
      · exact h.startRemote
theorem KeepsSound.releaseHaspNow {t : ThreadRef} {index : Nat} : KeepsSound s₀ (releaseHaspNow t index s) := by
  unfold Machine.releaseHaspNow
  split
  · exact h
  · split
    · exact h.parkedFault
    · exact .ite h.parkedFault (.settleInherit (.haspSettle h.modHasp))
    · exact h.startRemote
theorem KeepsSound.startCustom {n : State} {id : Nat} {x : Ctx} {k : Task} {net : TileNet} {l : Layer}
    (e : startCustom id x k net l s = some n) : KeepsSound s₀ n := by
  unfold Machine.startCustom at e
  split at e
  · cases e
  · dsimp only at e
    split at e
    · cases e
      exact KeepsSound.bootTask (h.putTask fun _ => Mem.wf_foldl (fun _ _ h => Mem.writeN_wf _ (Mem.writeN_wf _ h)) _ rfl)
    · cases e
theorem KeepsSound.endCustom {id parent : Nat} {k : Task} {n : TileNet} : KeepsSound s₀ (endCustom id parent k n s) :=
  .modTask (.dropTasks h.chargeWork)
theorem KeepsSound.endTile {id i : Nat} {x : Ctx} {k : Task} : KeepsSound s₀ (endTile id i x k s) := by
  unfold Machine.endTile
  split
  · exact h.dropTasks
  · exact h.unlessSpoiled (fun _ h' => .ite (.frameReady (.modFrame (.dropTasks (.chargeWork (.ite (.tallyChip (h'.foldl (fun _ _ h'' =>
      h''.countLayer))) (h'.foldl (fun _ _ h'' => h''.countLayer))))))) (.modFrame (.dropTasks (.chargeWork (.ite (.tallyChip (h'.foldl (fun _ _ h''
      => h''.countLayer))) (h'.foldl (fun _ _ h'' => h''.countLayer)))))))
theorem KeepsSound.taskEnds {id : Nat} : KeepsSound s₀ (taskEnds id s) := by
  unfold Machine.taskEnds
  split
  · exact h
  · split
    · exact h
    · split
      · exact h.endBin
      · exact .wakePixels (.chargeWork h.dropTasks)
      · exact .chargeWork h.dropTasks
      · split
        · exact h.endCustom
        · exact h.dropTasks
      · exact h.endTile
      · exact h
theorem KeepsSound.endNow {t : ThreadRef} : KeepsSound s₀ (endNow t s) := by
  unfold Machine.endNow
  split
  · exact h
  · exact .taskEnds (.wakePixels (.fenceDone h.modThread))
theorem KeepsSound.heldNow {t : ThreadRef} {hd : Option Held} : KeepsSound s₀ (heldNow t hd s) := by
  unfold Machine.heldNow
  split
  · exact h.setLatchNow
  · exact h.releaseHaspNow
  · exact h
theorem KeepsSound.settleThread {t : ThreadRef} : KeepsSound s₀ (settleThread t s) := by
  unfold Machine.settleThread
  split
  · exact h
  · split
    · exact .ite h.modThread h
    · exact .ite (.fenceDone h.modThread) h
    · exact .ite (.heldNow h.modThread) h
    · exact .ite h.endNow h
    · exact h
theorem KeepsSound.replyLands {id : Nat} {q : Remote} {ok : Bool} : KeepsSound s₀ (replyLands id q ok s) := .settleThread h.recordEnds
theorem KeepsSound.execEndThread {t : ThreadRef} {f : KFields} : AnswersSound s₀ (execEndThread t f s) :=
  .guardThat (h.issue (fun _ _ _ h' => .ite h' (.ite h'.endNow h'.parkThread)))
theorem KeepsSound.execPcrd {t : ThreadRef} {f : KFields} : AnswersSound s₀ (execPcrd t f s) := h.issue (fun _ _ _ h' => .ite h' h'.modThread)
theorem KeepsSound.execVaultReply {core req : Nat} {bad : Bool} : AnswersSound s₀ (execVaultReply core req bad s) := by
  unfold Machine.execVaultReply
  refine .need (fun _ _ => ?_)
  split
  · exact .next h.modCore
  · exact .ite (.next (.uncorrectable h.modCore)) (.next (.settleThread (.modThread h.modCore)))
theorem KeepsSound.execMcopyComplete {core copy : Nat} : AnswersSound s₀ (execMcopyComplete core copy s) := by
  unfold Machine.execMcopyComplete
  dsimp only
  refine .need (fun _ _ => ?_)
  split
  · split
    · exact .next (.uncorrectable h.modCore)
    · exact .next (.settleThread (.foldl (.foldl h.modCore (fun _ _ h' => h'.wardWrite)) (fun _ _ h' => h'.storeWrite)))
  · exact .next h.modCore
theorem KeepsSound.execWaitc {t : ThreadRef} {f : KFields} : AnswersSound s₀ (execWaitc t f s) := h.issue (fun _ _ _ h' => .ite h'.parkThread h')
theorem KeepsSound.execFenceScope {t : ThreadRef} {f : KFields} : AnswersSound s₀ (execFenceScope t f s) :=
  h.issue (fun _ _ _ h' => .ite h' (.ite h'.fenceDone h'.parkThread))
theorem KeepsSound.latchOp {op : Nat} {t : ThreadRef} {f : KFields} {go : Thread → Task → LatchAt → State → State} (hgo : ∀ th k p n, KeepsSound s₀ n
    → KeepsSound s₀ (go th k p n)) : AnswersSound s₀ (latchOp op t f s go) := by
  unfold Machine.latchOp
  refine h.issue (fun _ _ _ h' => ?_)
  split
  · exact h'
  · split
    · exact h.kernelFault
    · exact hgo _ _ _ _ h'
theorem KeepsSound.execLset {t : ThreadRef} {f : KFields} : AnswersSound s₀ (execLset t f s) :=
  h.latchOp (fun _ _ _ _ h' => .ite h'.setLatchNow h'.parkThread)
theorem KeepsSound.execLclr {t : ThreadRef} {f : KFields} : AnswersSound s₀ (execLclr t f s) := by
  unfold Machine.execLclr
  refine h.latchOp (fun _ _ _ _ h' => ?_)
  split
  · exact h'.clearLocal
  · exact h'.clearStaging
  · exact h'.startRemote
theorem KeepsSound.execLwait {t : ThreadRef} {f : KFields} : AnswersSound s₀ (execLwait t f s) := by
  unfold Machine.execLwait
  refine h.latchOp (fun _ _ _ _ h' => ?_)
  split
  · exact h'.startRemote
  · exact .ite h' h'.parkThread
  · exact .ite h' h'.parkThread
theorem KeepsSound.execLtest {t : ThreadRef} {f : KFields} : AnswersSound s₀ (execLtest t f s) := by
  unfold Machine.execLtest
  refine h.latchOp (fun _ _ _ _ h' => ?_)
  split
  · exact h'.startRemote
  · exact h'.modThread
theorem KeepsSound.haspOp {op : Nat} {t : ThreadRef} {f : KFields} {go : Thread → Task → HaspAt → State → State} (hgo : ∀ th k p n, KeepsSound s₀ n →
    KeepsSound s₀ (go th k p n)) : AnswersSound s₀ (haspOp op t f s go) := by
  unfold Machine.haspOp
  refine h.issue (fun _ _ _ h' => ?_)
  split
  · exact h'
  · split
    · exact h.kernelFault
    · exact hgo _ _ _ _ h'
theorem KeepsSound.execHacq {t : ThreadRef} {f : KFields} : AnswersSound s₀ (execHacq t f s) := by
  unfold Machine.execHacq
  refine h.haspOp (fun _ _ _ _ h' => ?_)
  split
  · exact h'.startRemote
  · split
    · rename_i e
      exact .settleInherit (h'.acquire e)
    · exact .settleInherit (.parkThread h'.modHasp)
theorem KeepsSound.execHrel {t : ThreadRef} {f : KFields} : AnswersSound s₀ (execHrel t f s) :=
  h.haspOp (fun _ _ _ _ h' => .ite h'.releaseHaspNow h'.parkThread)
theorem KeepsSound.execHtry {t : ThreadRef} {f : KFields} : AnswersSound s₀ (execHtry t f s) := by
  unfold Machine.execHtry
  refine h.haspOp (fun _ _ _ _ h' => ?_)
  split
  · exact h'.startRemote
  · split
    · rename_i e
      exact .settleInherit (.modThread (h'.acquire e))
    · exact h'.modThread
theorem KeepsSound.execPxlock {t : ThreadRef} {f : KFields} : AnswersSound s₀ (execPxlock t f s) := by
  unfold Machine.execPxlock
  refine h.issue (fun _ _ _ h' => ?_)
  split
  · exact h'
  · split
    · exact .ite h' h'.parkThread
    · exact h'
theorem KeepsSound.execPxunlock {t : ThreadRef} {f : KFields} : AnswersSound s₀ (execPxunlock t f s) :=
  h.issue (fun _ _ _ h' => .ite h' (.wakePixels h'.modThread))
theorem KeepsSound.networkStep {id : Nat} {k : Task} : AnswersSound s₀ (networkStep id k s) := by
  unfold Machine.networkStep
  dsimp only
  refine .need (fun _ _ => (.need (fun _ _ => (.guardThat ?_))))
  split
  · exact .next h.faultOn
  · exact .ite (.need (fun _ e'' => .next (h.startCustom e''))) (.next h.modTask)
theorem KeepsSound.layerStep {id : Nat} {k : Task} : AnswersSound s₀ (layerStep id k s) := by
  unfold Machine.layerStep
  split
  · exact .need (fun _ e => .next (h.binStep e))
  · exact h.networkStep
  · exact h.networkStep
  · exact .notNow
theorem KeepsSound.execBuiltInInstruction {t : ThreadRef} {op : BuiltIn} : AnswersSound s₀ (execBuiltInInstruction t op s) := by
  unfold Machine.execBuiltInInstruction
  refine .need (fun _ _ => (.need (fun _ _ => (.guardThat ?_))))
  split
  · exact .layerStep (.tally h.stepThread)
  · exact .next (.chargeWork (.tally h.stepThread))
  · exact .next (.chargeWork (.tally h.stepThread))
  · exact .next (.chargeWork (.tally h.stepThread))
  · exact .next (.chargeWork (.tally h.stepThread))
theorem KeepsSound.execWaitLimit {t : ThreadRef} : AnswersSound s₀ (execWaitLimit t s) :=
  .need (fun _ _ => .need (fun _ _ => .guardThat (.next h.parkedFault)))
theorem KeepsSound.execHaspTimeout {t : ThreadRef} : AnswersSound s₀ (execHaspTimeout t s) := by
  unfold Machine.execHaspTimeout
  refine .need (fun _ _ => (.need (fun _ _ => (.need (fun _ _ => ?_)))))
  split
  · exact .guardThat (.next h.faultOn)
  · exact .notNow
theorem KeepsSound.execRemoteWaitLimit {rec : Nat} : AnswersSound s₀ (execRemoteWaitLimit rec s) :=
  .need (fun _ _ => .need (fun _ _ => .guardThat (.next h.same)))

/-! ## Hinge ports (Machine/HingePort) -/

theorem KeepsSound.execFlit {port : Nat} {bits : BitVec 2048} : AnswersSound s₀ (execFlit port bits s) := .ite (.next h.sendPort) (.next h)
theorem KeepsSound.loseRecords {test : Remote → Bool} {reason : Nat} : KeepsSound s₀ (loseRecords test reason s) :=
  h.foldl (fun _ _ h' => h'.remoteLost)
theorem KeepsSound.dropPeers {test : Peer → Bool} : KeepsSound s₀ (dropPeers test s) :=
  .settleInherit (.same (h.foldl (fun _ _ h' => h'.foldl (fun _ _ h'' => .ite h''.haspDropPeer h''))))
theorem KeepsSound.settleUnreachable : KeepsSound s₀ (settleUnreachable s) := .dropPeers h.loseRecords
theorem KeepsSound.learnBreak {b : Bytes} {l : Nat × Nat} : KeepsSound s₀ (learnBreak b l s) := .loseRecords h.same
theorem KeepsSound.portDown {p : Nat} : KeepsSound s₀ (portDown p s) := by
  unfold Machine.portDown
  exact .loseRecords (.discardAt h.modPort)
theorem KeepsSound.sendLink {p ty op : Nat} : KeepsSound s₀ (sendLink p ty op s) := by
  unfold Machine.sendLink
  split
  · exact h.queueAt
  · exact h
theorem KeepsSound.sendNotice {p ty : Nat} {l : Nat × Nat} : KeepsSound s₀ (sendNotice p ty l s) := h.sendLink
theorem KeepsSound.restoreLink {p : Nat} {b : Bytes} : KeepsSound s₀ (restoreLink p b s) := .ite (.ite (.sendNotice h.same) h.same) h
theorem KeepsSound.execPortTrained {port : Nat} {up : Bool} {lanes : Nat} : AnswersSound s₀ (execPortTrained port up lanes s) :=
  .need (fun _ _ => .guardThat (.ite (.next (.restoreLink (.sendLink h.modPort))) (.ite (.next h.portDown) (.next h))))
theorem KeepsSound.execLaneFail {port lanes : Nat} : AnswersSound s₀ (execLaneFail port lanes s) := .guardThat (.next h.modPort)
theorem KeepsSound.degrade {port : Nat} : KeepsSound s₀ (degrade port s) := by
  unfold Machine.degrade
  exact .raiseErr (.modPort h.drawFree_snd)
theorem KeepsSound.execRetrainComplete {port : Nat} {ok : Bool} : AnswersSound s₀ (execRetrainComplete port ok s) :=
  .guardThat (.ite (.next (.ite (.degrade (.sendLink h.sendPort)) (.sendLink h.sendPort))) (.next h.portDown))
theorem KeepsSound.execNeighbourLoss {port : Nat} : AnswersSound s₀ (execNeighbourLoss port s) :=
  .need (fun _ _ => .guardThat (.ite (.next (.sendNotice (.learnBreak (.ite h h.portDown)))) (.next (.settleUnreachable (.same (.learnBreak (.ite h
    h.portDown)))))))
theorem KeepsSound.execReroute : AnswersSound s₀ (execReroute s) := .guardThat (.next (.settleUnreachable h.same))
theorem KeepsSound.hingeConfigGo {fn seq : Nat} {c : Cmd} : KeepsSound s₀ (hingeConfigGo fn seq c s) := by
  unfold Machine.hingeConfigGo
  dsimp only
  split
  · exact h.fail
  · split
    · exact h.complete
    · exact .ite h.fail (.completeOk (.settleUnreachable (h.fourPorts ((List.length_map _).trans List.length_range))))
theorem KeepsSound.execHingeConfig {fn seq : Nat} : AnswersSound s₀ (execHingeConfig fn seq s) := h.command (fun _ _ h' => h'.hingeConfigGo)

/-! ## Hinge messages (Machine/HingeMsgs) -/

theorem KeepsSound.popMsg {port : Nat} : KeepsSound s₀ (popMsg port s) := h.modPort
theorem KeepsSound.forwardMsg {port : Nat} {m : HMsg} : KeepsSound s₀ (forwardMsg port m s) := by
  unfold Machine.forwardMsg
  split
  · exact h.queueAt
  · exact h.discardAt
theorem KeepsSound.message {port ty : Nat} {ward : HMsg → Option Nat} {go : HMsg → Nat → State → State} (hgo : ∀ m i n, KeepsSound s₀ n → KeepsSound
    s₀ (go m i n)) : AnswersSound s₀ (message port ty s ward go) := by
  unfold Machine.message
  refine .need (fun _ _ => ?_)
  split
  · exact .next (.forwardMsg h.popMsg)
  · split
    · exact .ite (.next (hgo _ _ _ h.popMsg)) (.next (.discardAt h.popMsg))
    · exact .next (.discardAt h.popMsg)
theorem KeepsSound.ingestFrom {pose : Bool} {port : Nat} {m : HMsg} {wd : Nat} : KeepsSound s₀ (ingestFrom pose port m wd s) :=
  .modWard (.ite h.chargeHinge h)
theorem KeepsSound.execRender {port : Nat} : AnswersSound s₀ (execRender port s) := h.message (fun _ _ _ h' => h'.ingestFrom)
theorem KeepsSound.execPose {port : Nat} : AnswersSound s₀ (execPose port s) := h.message (fun _ _ _ h' => h'.ingestFrom)
theorem KeepsSound.execSlice {port : Nat} : AnswersSound s₀ (execSlice port s) :=
  .need (fun _ _ => .ite (.next (.forwardMsg h.popMsg)) (.next h.popMsg))
theorem KeepsSound.execSliceCredit {port : Nat} : AnswersSound s₀ (execSliceCredit port s) :=
  h.message (fun _ _ _ h' => h'.foldl (fun _ _ h'' => h''.modHead))
theorem KeepsSound.haspRequest {q : Req} {id : Nat} : KeepsSound s₀ (haspRequest q id s) :=
  .ite (.ite (.settleInherit (.replyTo h.modHasp)) (.settleInherit h.modHasp)) (.ite (.ite (.settleInherit (.replyTo h.modHasp)) h.replyTo) (.ite
    h.replyTo (.settleInherit (.haspSettle (.replyTo h.modHasp)))))
theorem KeepsSound.latchRequest {q : Req} {x : Ctx} : KeepsSound s₀ (latchRequest q x s) :=
  .ite (.replyTo h.setStaging) (.ite (.replyTo h.clearStaging) (.ite (.ite h.replyTo h.modCtx) h.replyTo))
theorem KeepsSound.serveRequest {q : Req} : KeepsSound s₀ (serveRequest q s) := by
  unfold Machine.serveRequest
  split
  · exact h.replyTo
  · split
    · split
      · exact h.haspRequest
      · exact h.replyTo
    · exact .ite h.latchRequest h.replyTo
theorem KeepsSound.execRemoteReq {port : Nat} : AnswersSound s₀ (execRemoteReq port s) := h.message (fun _ _ _ h' => h'.same)
theorem KeepsSound.serveRequests : KeepsSound s₀ (serveRequests s) := .foldl h.same (fun _ _ h' => h'.serveRequest)
theorem KeepsSound.expireRecords : KeepsSound s₀ (expireRecords s) := h.loseRecords
theorem KeepsSound.landReply {m : HMsg} : KeepsSound s₀ (landReply m s) := by
  unfold Machine.landReply
  dsimp only
  split
  · exact h
  · exact .ite h.loseRecords h.replyLands
theorem KeepsSound.execRemoteRep {port : Nat} : AnswersSound s₀ (execRemoteRep port s) := h.message (fun _ _ _ h' => h'.landReply)
theorem KeepsSound.execInherit {port : Nat} : AnswersSound s₀ (execInherit port s) := h.message (fun _ _ _ h' => .ite (.settleInherit h'.modCtx) h')
theorem KeepsSound.execHolderGone {port : Nat} : AnswersSound s₀ (execHolderGone port s) := h.message (fun _ _ _ h' => h'.dropPeers)
theorem KeepsSound.execHello {port : Nat} : AnswersSound s₀ (execHello port s) :=
  .need (fun _ _ => .ite (.next (.modPort (.portDown (.modPort h.popMsg)))) (.next (.modPort h.popMsg)))
theorem KeepsSound.execLinkDown {port : Nat} : AnswersSound s₀ (execLinkDown port s) := by
  unfold Machine.execLinkDown
  refine .need (fun _ _ => ?_)
  split
  · exact .ite (.next (.queueAt (.learnBreak h.popMsg))) (.next h.popMsg)
  · exact .next h.popMsg
theorem KeepsSound.execLinkUp {port : Nat} : AnswersSound s₀ (execLinkUp port s) :=
  .need (fun _ _ => .ite (.next (.queueAt (.same h.popMsg))) (.next h.popMsg))

/-! ## Ray tasks and hierarchies (Machine/RayTasks) -/

theorem KeepsSound.dealHits {slot : Nat} {x : Ctx} {f : Frame} {hier : Hier} {handle core tile : Nat} {rays : List (Nat × Walk)} :
    KeepsSound s₀ (dealHits slot x f hier handle core tile rays s) := by
  unfold Machine.dealHits
  split
  · exact h
  · split
    · exact h.foldl (fun _ _ h' => h'.dealTask)
    · exact h
theorem KeepsSound.countRays {slot : Nat} {x : Ctx} {f : Frame} {rays : List (Nat × Walk)} : KeepsSound s₀ (countRays slot x f rays s) :=
  .foldl (.addStat h.addStat) (fun _ _ h' => .chargeFixed (.tallyChip h'.tallyChip))
theorem KeepsSound.startRays {slot tile : Nat} {x : Ctx} {f : Frame} {core : Nat} : KeepsSound s₀ (startRays slot tile x f core s) := by
  unfold Machine.startRays
  dsimp only
  split
  · exact h.uncorrectable
  · split
    · exact .countRays (.dealHits (.modGeo h.wardWrite))
    · exact .modGeo h.wardWrite
theorem KeepsSound.execRayTaskStart {slot tile : Nat} : AnswersSound s₀ (execRayTaskStart slot tile s) :=
  .need (fun _ _ => .need (fun _ _ => .need (fun _ _ => .guardThat (.next h.startRays))))
theorem KeepsSound.execRayTaskComplete {slot tile : Nat} : AnswersSound s₀ (execRayTaskComplete slot tile s) :=
  .need (fun _ _ => .need (fun _ _ => .need (fun _ _ => .guardThat (.next (.chargeWork (.setGeoLatches h.dropTasks))))))
theorem KeepsSound.hierLoadGo {slot seq : Nat} {c : Cmd} {x : Ctx} : KeepsSound s₀ (hierLoadGo slot seq c x s) := by
  unfold Machine.hierLoadGo
  dsimp only
  split
  · exact .fail h.chargeHost
  · split
    · exact .fail h.chargeHost
    · split
      · exact .fail h.chargeHost
      · rename_i e
        exact .completeOk (.modCtx (.allocate h.chargeHost e))
theorem KeepsSound.execHierLoad {slot seq : Nat} : AnswersSound s₀ (execHierLoad slot seq s) := h.ctxCommand (fun _ _ _ h' => h'.hierLoadGo)
theorem KeepsSound.hierUnloadGo {slot seq : Nat} {c : Cmd} {x : Ctx} : KeepsSound s₀ (hierUnloadGo slot seq c x s) := by
  unfold Machine.hierUnloadGo
  dsimp only
  split
  · exact h.fail
  · exact .ite h.fail (.settleHiers (.modCtx h.modCmd))
theorem KeepsSound.execHierUnload {slot seq : Nat} : AnswersSound s₀ (execHierUnload slot seq s) :=
  .need (fun _ _ => .need (fun _ _ => .guardThat (.next h.hierUnloadGo)))

/-! ## The Tumbler (Machine/Tumbler) -/

theorem KeepsSound.prepareStripe_snd {t : Task} : KeepsSound s₀ (prepareStripe t s).2 := by
  unfold Machine.prepareStripe
  split
  · split
    · exact h.placeInputs
    · exact h
  · exact h
omit h in
theorem prepareStripe_store (t : Task) (s : State) : (prepareStripe t s).1.store = t.store := by
  unfold prepareStripe
  split
  · split <;> rfl
  · rfl
theorem KeepsSound.noteTile {t : Task} : KeepsSound s₀ (noteTile t s) := by
  unfold Machine.noteTile
  split
  · exact h.modFrame
  · exact h
theorem KeepsSound.takeBack {id : Nat} : KeepsSound s₀ (takeBack id s) := h.same
theorem KeepsSound.admitTask {core id : Nat} {t : Task} {stolen : Bool}
    (ht : Sound s₀ → Mem.wf t.store = true) : KeepsSound s₀ (admitTask core id t stolen s) := by
  unfold Machine.admitTask
  extract_lets s1 n rung p t1 p2 s2 s3 s4
  have h1 : KeepsSound s₀ s1 := .ite h.takeBack h
  have hp : Sound s₀ → Mem.wf t1.store = true := fun ha => (congrArg Mem.wf (prepareStripe_store _ s1)).trans (ht ha)
  have h2 : KeepsSound s₀ s2 := KeepsSound.putTask (s := p.2) h1.prepareStripe_snd hp
  have h4 : KeepsSound s₀ s4 := .tally (.noteTile (.bootTask h2.modCore))
  exact .settleInherit (.ite h4.tally h4)
omit h in
theorem mem_dequeInsert {x y : Nat × Task} {l : List (Nat × Task)} (h : x ∈ dequeInsert y l) : x = y ∨ x ∈ l := by
  induction l with
  | nil => exact .inl (List.mem_singleton.mp h)
  | cons z l ih =>
    simp only [dequeInsert] at h
    split at h
    · exact List.mem_cons.mp h
    · rcases List.mem_cons.mp h with rfl | h
      · exact .inr List.mem_cons_self
      · exact (ih h).imp_right (List.mem_cons_of_mem _)
omit h in
theorem mem_foldl_dequeInsert {x : Nat × Task} (l : List (Nat × Task)) : ∀ {d : List (Nat × Task)},
    x ∈ l.foldl (fun d y => dequeInsert y d) d → x ∈ d ∨ x ∈ l := by
  induction l with
  | nil => exact .inl
  | cons y l ih =>
    intro d h
    rcases ih h with h | h
    · rcases mem_dequeInsert h with rfl | h
      · exact .inr List.mem_cons_self
      · exact .inl h
    · exact .inr (List.mem_cons_of_mem _ h)
omit h in
theorem mem_deque {s : State} {c : Nat} {x : Nat × Task} (h : x ∈ deque s c) : x ∈ s.tasks := by
  rcases mem_foldl_dequeInsert _ h with h | h
  · nomatch h
  · exact List.mem_of_mem_filter h
omit h in
/-- A task that a core may admit waits in a deque, or was stolen in the same fabric cycle and waits there again. -/
theorem firstFit_mem {s : State} {v c : Nat} {ok : Task → Bool} {x : Nat × Task} (h : firstFit s v c ok = some x) :
    x ∈ s.tasks ∨ ∃ q, (x.1, q) ∈ s.tasks ∧ x.2 = { q with core := v, started := false, pages := [], stolenFrom := none } := by
  rcases mem_foldl_dequeInsert _ (List.mem_of_find?_eq_some h) with h | h
  · exact .inl (mem_deque h)
  · obtain ⟨q, hq, rfl⟩ := List.mem_map.mp h
    exact .inr ⟨q.2, List.mem_of_mem_filter hq, rfl⟩
theorem KeepsSound.firstFit_store {v c : Nat} {ok : Task → Bool} {x : Nat × Task}
    (e : firstFit s v c ok = some x) (ha : Sound s₀) : Mem.wf x.2.store = true := by
  rcases firstFit_mem e with hx | ⟨q, hq, hx⟩
  · exact (h.sound ha).stores x hx
  · rw [hx]
    exact (h.sound ha).stores (x.1, q) hq
theorem KeepsSound.execTaskAdmit {core : Nat} : AnswersSound s₀ (execTaskAdmit core s) :=
  .guardThat (.need fun _ e => .next (h.admitTask (h.firstFit_store e)))
theorem KeepsSound.execSteal {core : Nat} : AnswersSound s₀ (execSteal core s) := by
  unfold Machine.execSteal
  refine .need fun wd _ => .guardThat ?_
  dsimp only
  split
  · split
    · rename_i e
      exact .next (KeepsSound.admitTask (.tally h.tally) (h.firstFit_store e))
    · exact .next h
  · exact .next (.modCore (.tally h.tally))
theorem KeepsSound.execStealWaitExpiry {core : Nat} : AnswersSound s₀ (execStealWaitExpiry core s) := .need (fun _ _ => .guardThat (.next h.modCore))
theorem KeepsSound.execQuantumBoundary {core : Nat} : AnswersSound s₀ (execQuantumBoundary core s) := .guardThat (.next h.modCore)

/-! ## The clock (Machine/Clock) -/

theorem KeepsSound.clearFresh : KeepsSound s₀ (clearFresh s) := h.same (fnsLen := List.length_map ..) (portsLen := List.length_map ..)
theorem KeepsSound.endCycle : KeepsSound s₀ (endCycle s) := .clearFresh (.expireRecords h.serveRequests)
theorem KeepsSound.noteReserve {t0 : Nat} : KeepsSound s₀ (noteReserve t0 s) := by
  unfold Machine.noteReserve
  refine h.foldl (fun _ _ h' => ?_)
  split
  · exact h'.tally
  · exact h'
theorem KeepsSound.tick : KeepsSound s₀ (tick s) := .ite (.countCycle (.noteReserve (.noteCycle (.same h.endCycle)))) h

/-! ## The SMBus endpoint (Machine/Smbus) -/

theorem KeepsSound.modSmb {g : Smb → Smb} : KeepsSound s₀ (modSmb g s) := h.same
theorem KeepsSound.discoveryReply_snd {request : Nat} : KeepsSound s₀ (discoveryReply request s).2 := by
  unfold Machine.discoveryReply
  split
  · exact h
  · split
    · exact h
    · split
      · exact h.drawFree_snd
      · exact h
theorem KeepsSound.smbAnswer {kind arg : Nat} : KeepsSound s₀ (smbAnswer kind arg s) := by
  unfold Machine.smbAnswer
  split
  · exact .modSmb h.modSmb
  · exact .modSmb h.modSmb
  · exact .modSmb h.discoveryReply_snd
  · exact h.modSmb
  · exact h.modSmb
  · exact h.modSmb
theorem KeepsSound.smbDrain : KeepsSound s₀ (smbDrain s) := .foldl h.modSmb (fun _ _ h' => h'.smbAnswer)
theorem KeepsSound.smbRequest {kind arg : Nat} : AnswersSound s₀ (smbRequest kind arg s) := .ite (.next h) (.ite (.next h.modSmb) (.next h.smbAnswer))

/-! ## Firmware (Machine/Firmware) -/

theorem KeepsSound.setResident {slot : Nat} {b : Option Bytes} : KeepsSound s₀ (setResident slot b s) := h.same
theorem KeepsSound.execFwStage {fn seq : Nat} : AnswersSound s₀ (execFwStage fn seq s) := by
  unfold Machine.execFwStage
  dsimp only
  refine .need (fun _ _ => (.guardThat ?_))
  split
  · exact .next h.complete
  · exact .next (.modCmd (.same h.setResident))
theorem KeepsSound.overtakenGo {fn seq : Nat} : AnswersSound s₀ (overtakenGo fn seq s) := .need (fun _ _ => .guardThat (.next (.same h.modCmd)))
theorem KeepsSound.execFwActivate {fn seq : Nat} : AnswersSound s₀ (execFwActivate fn seq s) := by
  unfold Machine.execFwActivate
  dsimp only
  split
  · exact h.overtakenGo
  · refine .need (fun _ _ => (.guardThat ?_))
    split
    · exact .next h.complete
    · exact .next (.same h.modCmd)
theorem KeepsSound.stopKeeper : KeepsSound s₀ (stopKeeper s) := .raiseErr h.same
theorem KeepsSound.startRecovery : KeepsSound s₀ (startRecovery s) := h.same
theorem KeepsSound.execKeeperWatchdog {codeError stateLost : Bool} : AnswersSound s₀ (execKeeperWatchdog codeError stateLost s) :=
  .guardThat (.ite (.next (.smbDrain h.stopKeeper)) (.next h.startRecovery))
theorem KeepsSound.releaseDoorbells : KeepsSound s₀ (releaseDoorbells s) := .foldl h.same (fun _ _ h' => h'.doorbellAct)
theorem KeepsSound.releaseRecords : KeepsSound s₀ (releaseRecords s) := .foldl h.same (fun _ _ h' => h'.postAlways)
theorem KeepsSound.postSwitchEvents {quiesce reason : Nat} : KeepsSound s₀ (postSwitchEvents quiesce reason s) :=
  h.foldl (fun _ _ h' => h'.postFnEvent)
theorem KeepsSound.endActivate : KeepsSound s₀ (endActivate s) := by
  unfold Machine.endActivate
  split
  · exact h
  · exact .ite (.complete h.same) (.ite (.same h.same) (.completeOk h.same))
theorem KeepsSound.endSwitch : KeepsSound s₀ (endSwitch s) :=
  .endActivate (.postSwitchEvents (.releaseRecords (.releaseDoorbells (.raiseErr h.same))))
theorem KeepsSound.execFwSwitchComplete : AnswersSound s₀ (execFwSwitchComplete s) :=
  .guardThat (.next (.ite (.linkResetNow (.smbDrain h.endSwitch)) (.smbDrain h.endSwitch)))
theorem KeepsSound.endProgram {slot : Nat} {b : Bytes} : KeepsSound s₀ (endProgram slot b s) :=
  .foldl h.same (fun _ _ h' => .ite h' (.ite h'.completeOk (.ite h'.completeOk h')))
theorem KeepsSound.execFlashProgramComplete : AnswersSound s₀ (execFlashProgramComplete s) := .guardThat (.need (fun _ _ => .next h.endProgram))

/-! ## Repair (Machine/Repair) -/

theorem KeepsSound.modRas {g : Ras → Ras} : KeepsSound s₀ (modRas g s) := h.same
theorem KeepsSound.countCorrected {c : Corrected} : KeepsSound s₀ (countCorrected c s) := .ite (.raiseErr h.modRas) h.modRas
theorem KeepsSound.latentLine {l : Nat × Nat} : KeepsSound s₀ (latentLine l s) := .ite (.modWard h.modRas) h.modRas
theorem KeepsSound.execScrubPass {vault : Bool} {corrected : Corrected} {latent : List (Nat × Nat)} :
    AnswersSound s₀ (execScrubPass vault corrected latent s) := .guardThat (.next (.modRas (.foldl h.countCorrected (fun _ _ h' => h'.latentLine))))
theorem KeepsSound.execRowSpare {channel : Nat} : AnswersSound s₀ (execRowSpare channel s) := .guardThat (.next (.raiseErr h.modRas))
theorem KeepsSound.takeSpareChannel {channel : Nat} : KeepsSound s₀ (takeSpareChannel channel s) := .raiseErr h.modRas
theorem KeepsSound.execChannelSpareStart {channel : Nat} : AnswersSound s₀ (execChannelSpareStart channel s) := .guardThat (.next h.modRas)
theorem KeepsSound.execChannelSpareComplete {channel : Nat} : AnswersSound s₀ (execChannelSpareComplete channel s) :=
  .guardThat (.next h.takeSpareChannel)
theorem KeepsSound.loseChannelData {channel wd : Nat} : KeepsSound s₀ (loseChannelData channel wd s) := by
  unfold Machine.loseChannelData
  refine KeepsSound.foldl (h.modWard fun w hw => ?_) fun _ _ h => h.uncorrectable
  exact Mem.wf_foldl (fun _ _ h => Mem.wf_foldl (fun _ _ h => Mem.scrub_wf h) _ h) _ hw
theorem KeepsSound.failChannel {channel : Nat} : KeepsSound s₀ (failChannel channel s) := .mapWards h.modRas
theorem KeepsSound.execChannelLost {channel : Nat} : AnswersSound s₀ (execChannelLost channel s) :=
  .guardThat (.next (.ite (.takeSpareChannel (h.foldl (fun _ _ h' => h'.loseChannelData))) (.failChannel (h.foldl (fun _ _ h' =>
    h'.loseChannelData)))))
theorem KeepsSound.restartTask {id : Nat} {t : Task} : KeepsSound s₀ (restartTask id t s) := by
  refine .putTask (.tally (.dropTasks ?_))
  split
  · exact .modFrame h.dropTasks
  · exact h.dropTasks
theorem KeepsSound.restartCore {core : Nat} : KeepsSound s₀ (restartCore core s) := by
  unfold Machine.restartCore
  refine .same (.foldl (h.foldl (fun _ _ h' => h'.uncorrectable)) (fun _ _ h' => ?_))
  split
  · exact .ite h'.restartTask h'
  · exact h'
theorem KeepsSound.failCore {core : Nat} : KeepsSound s₀ (failCore core s) := by
  refine KeepsSound.mapTasks (.mapWards h.modCore) fun x => ?_
  split
  · rfl
  · rfl
theorem KeepsSound.noteRetirement {logical phys cause : Nat} : KeepsSound s₀ (noteRetirement logical phys cause s) := h.modRas
theorem KeepsSound.moveCore {core : Nat} {cause : CoreCause} : KeepsSound s₀ (moveCore core cause s) := by
  unfold Machine.moveCore
  dsimp only
  split
  · exact .settleInherit (.failCore (.noteRetirement h.modRas))
  · exact .settleInherit (.raiseErr (.modRas (.modCore (.noteRetirement h.modRas))))
theorem KeepsSound.startDrain {core : Nat} {cause : CoreCause} : AnswersSound s₀ (startDrain core cause s) := .guardThat (.next h.modCore)
theorem KeepsSound.execCoreDrainStart {core : Nat} {cause : CoreCause} : AnswersSound s₀ (execCoreDrainStart core cause s) := .guardThat h.startDrain
theorem KeepsSound.execCoreDrainEnd {core : Nat} {timedOut : Bool} : AnswersSound s₀ (execCoreDrainEnd core timedOut s) := by
  unfold Machine.execCoreDrainEnd
  split
  · exact .ite (.guardThat (.next (.moveCore h.restartCore))) (.guardThat (.next h.moveCore))
  · exact .notNow
theorem KeepsSound.execCoreRetireImmediate {core : Nat} {cause : CoreCause} : AnswersSound s₀ (execCoreRetireImmediate core cause s) :=
  .guardThat (.next (.moveCore h.restartCore))
theorem KeepsSound.execSelfTestComplete {phys : Nat} {pass : Bool} : AnswersSound s₀ (execSelfTestComplete phys pass s) := by
  unfold Machine.execSelfTestComplete
  split
  · exact .ite (.next (.modRas h.modRas)) (.next (.noteRetirement h.modRas))
  · exact .guardThat (.ite (.next h) (.next (.noteRetirement (.drawFree_snd h.modRas))))
theorem KeepsSound.execUnitParityError {unit : FixedUnit} {served : Option Nat} : AnswersSound s₀ (execUnitParityError unit served s) := by
  unfold Machine.execUnitParityError
  refine .guardThat ?_
  split
  · exact .next h.raiseErr
  · exact .need (fun _ _ => .guardThat (.next h.uncorrectable))
theorem KeepsSound.execDeviceUncorrectable {unit : Option FaultUnit} : AnswersSound s₀ (execDeviceUncorrectable unit s) :=
  .guardThat (.next h.raiseErr)

/-! ## Resets and start-up (Machine/Boot) -/

theorem KeepsSound.deviceReset {cause : Nat} : KeepsSound s₀ (deviceReset cause s) where
  sound ha := { sound_reset with host := (h.sound ha).host }
  pending := h.pending
  part := h.part
theorem KeepsSound.modBoot {g : Boot → Boot} : KeepsSound s₀ (modBoot g s) := h.same
theorem KeepsSound.execPowerOnReset : AnswersSound s₀ (execPowerOnReset s) := .next (.modBoot h.deviceReset)
theorem KeepsSound.execPowerFail : AnswersSound s₀ (execPowerFail s) := .ite (.next (.modBoot h.deviceReset)) (.next h)
theorem KeepsSound.execColdReset : AnswersSound s₀ (execColdReset s) := .ite (.next h) (.ite (.next (.modBoot h.deviceReset)) (.next h.modBoot))
theorem KeepsSound.execPerstNRelease : AnswersSound s₀ (execPerstNRelease s) := .ite (.next (.modBoot (.ite h.deviceReset h))) (.next h)
theorem KeepsSound.execPllLock : AnswersSound s₀ (execPllLock s) := .guardThat (.next (.same h.modBoot))
theorem KeepsSound.startPhipel {first : Nat} {c0 c1 : Option Nat} : KeepsSound s₀ (startPhipel s first c0 c1) :=
  .ite (.modBoot (.same h.same)) (.modBoot h.same)
theorem KeepsSound.execBootImageCheck {flashOk : Bool} : AnswersSound s₀ (execBootImageCheck flashOk s) :=
  .guardThat (.ite (.next h.startPhipel) (.next h.modBoot))
theorem KeepsSound.execVaultTrain {failed : List Nat} : AnswersSound s₀ (execVaultTrain failed s) :=
  .guardThat (.next (.modBoot (.foldl h.modRas (fun _ _ h' => .ite h'.takeSpareChannel h'.failChannel))))
theorem KeepsSound.numberCores {failed : List Nat} : KeepsSound s₀ (numberCores failed s) := .same h.modRas
theorem KeepsSound.execCoreBringup {failed : List Nat} : AnswersSound s₀ (execCoreBringup failed s) := .guardThat (.next (.modBoot h.numberCores))
theorem KeepsSound.execConfigReady : AnswersSound s₀ (execConfigReady s) := .guardThat (.next (.same h.modBoot))

/-! ## Scalar instructions (Machine/CoreScalar) -/

theorem KeepsSound.execNop {t : ThreadRef} {f : KFields} : AnswersSound s₀ (execNop t f s) := h.issue (fun _ _ _ h' => h')
theorem KeepsSound.execBr {t : ThreadRef} {f : KFields} : AnswersSound s₀ (execBr t f s) := h.issue (fun _ _ _ h' => .ite h'.modThread h')

/-! ## Vector instructions (Machine/CoreVector) -/

theorem KeepsSound.issueBin {op : Nat} {t : ThreadRef} {f : KFields} {cycles : Nat} {fp : Fmt → Nat → Nat → Nat} {int : ℤ → ℤ → ℤ} :
    AnswersSound s₀ (issueBin op t f cycles s fp int) := h.issueV
theorem KeepsSound.execVcmp {t : ThreadRef} {f : KFields} : AnswersSound s₀ (execVcmp t f s) := h.issue (fun _ _ _ h' => h'.modThread)
theorem KeepsSound.execVsum {t : ThreadRef} {f : KFields} : AnswersSound s₀ (execVsum t f s) := h.issue (fun _ _ _ h' => h'.modThread)
theorem KeepsSound.execVbsc {t : ThreadRef} {f : KFields} : AnswersSound s₀ (execVbsc t f s) := h.issue (fun _ _ _ h' => h'.modThread)
theorem KeepsSound.execVpack {t : ThreadRef} {f : KFields} : AnswersSound s₀ (execVpack t f s) := h.issue (fun _ _ _ h' => h'.modThread)
theorem KeepsSound.execVunpk {t : ThreadRef} {f : KFields} : AnswersSound s₀ (execVunpk t f s) := h.issue (fun _ _ _ h' => h'.modThread)

/-! ## The Detent (Machine/Detent) -/

theorem KeepsSound.abandonCaptures {slot : Nat} {f : Frame} : KeepsSound s₀ (abandonCaptures slot f s) := .postEvent (.modCtx h.dropTasks)
theorem KeepsSound.setComparator {f : Frame} {c : Option Nat} : KeepsSound s₀ (setComparator f c s) := h.modHead
theorem KeepsSound.detentDecide {slot : Nat} {x : Ctx} {f : Frame} : KeepsSound s₀ (detentDecide slot x f s) :=
  .ite (.ite (.abandonCaptures h.setComparator) h.setComparator) (.setComparator (.ite (.goImmediate (.ite (.tallyChip h.modFrame) h)) (.ite
    (.tallyChip h.modFrame) h)))
theorem KeepsSound.detentCheck {slot : Nat} {x : Ctx} {f : Frame} : KeepsSound s₀ (detentCheck slot x f s) :=
  .ite (.setComparator (.tallyChip h.modFrame)) (.detentDecide (.tallyChip h.modFrame))
theorem KeepsSound.execDetentCheck {slot : Nat} : AnswersSound s₀ (execDetentCheck slot s) :=
  .need (fun _ _ => .need (fun _ _ => .guardThat (.next h.detentCheck)))
theorem KeepsSound.execDetentComparator {head : Nat} : AnswersSound s₀ (execDetentComparator head s) :=
  .need (fun _ _ => .guardThat (.next (.foldl h.modHead (fun _ _ h' => h'.checkpoint))))

/-! ## Decoding (Machine/IngestDecode) -/

theorem KeepsSound.refreshFrame {slot : Nat} {own : Bool} : KeepsSound s₀ (refreshFrame slot own s) := h.modCtx
theorem KeepsSound.decodeComplete {slot set : Nat} {x : Ctx} {b : BufferSet} : KeepsSound s₀ (decodeComplete slot set x b s) := by
  unfold Machine.decodeComplete
  extract_lets p n d ok cam keep eff k full replaced s1 s2 mine s3 s4 s5
  have h2 : KeepsSound s₀ s2 := .modCtx (.addStat (.tallyChip (.tallyChip h.postMissing)))
  have h3 : KeepsSound s₀ s3 := .ite (.keepSources (.startGraph h2.refreshFrame)) (.ite h2.abandonFrame h2.refreshFrame)
  have h4 : KeepsSound s₀ s4 := by
    unfold s4
    split
    · split
      · exact .checkpoint (.ite h3 h3.startGuard)
      · exact h3
    · exact h3
  have h5 : KeepsSound s₀ s5 := by
    unfold s5
    split
    · exact h4.completeOk
    · exact h4
  exact h5.settleSets
theorem KeepsSound.execIngestDecodeComplete {slot set : Nat} : AnswersSound s₀ (execIngestDecodeComplete slot set s) :=
  .need (fun _ _ => .need (fun _ _ => .guardThat (.next h.decodeComplete)))

/-! ## Security (Machine/Security) -/

theorem KeepsSound.modSec {g : Sec → Sec} : KeepsSound s₀ (modSec g s) := h.same
theorem KeepsSound.setTamper {bit : Nat} : KeepsSound s₀ (setTamper bit s) := h.modSec
theorem KeepsSound.execRngFail : AnswersSound s₀ (execRngFail s) := .guardThat (.next (.raiseErr h.modSec))
theorem KeepsSound.sensorReset {cause : SensorCause} : KeepsSound s₀ (sensorReset cause s) := .setTamper (.deviceReset h.same)
theorem KeepsSound.execSensorReset {cause : SensorCause} : AnswersSound s₀ (execSensorReset cause s) := .ite (.next h.sensorReset) (.next h)
theorem KeepsSound.loadIr {op : Nat} {pins : PinMode} {out : Nat} : KeepsSound s₀ (loadIr op pins out s) := h.modSec
theorem KeepsSound.loadOpen {op : Nat} {pins : PinMode} : KeepsSound s₀ (loadOpen op pins s) := .loadIr h.drawFree_snd
theorem KeepsSound.jtag {go : State → State} (hgo : ∀ n, KeepsSound s₀ n → KeepsSound s₀ (go n)) : AnswersSound s₀ (jtag s go) :=
  .ite (.next (hgo _ h)) (.next h)
theorem KeepsSound.execBypass : AnswersSound s₀ (execBypass s) := h.jtag (fun _ h' => h'.loadIr)
theorem KeepsSound.execIdcode : AnswersSound s₀ (execIdcode s) := h.jtag (fun _ h' => h'.loadIr)
theorem KeepsSound.execSamplePreload : AnswersSound s₀ (execSamplePreload s) := h.jtag (fun _ h' => h'.loadOpen)
theorem KeepsSound.takePins {op : Nat} {pins : PinMode} : AnswersSound s₀ (takePins op pins s) := h.jtag (fun _ h' => .loadOpen h'.sensorReset)
theorem KeepsSound.execTapReset : AnswersSound s₀ (execTapReset s) := .next h.modSec
theorem KeepsSound.challenge : KeepsSound s₀ (challenge s) := .ite (.modSec h.loadOpen) (.modSec (.loadIr h.drawFree_snd))
theorem KeepsSound.execUnlockChallenge : AnswersSound s₀ (execUnlockChallenge s) := h.jtag (fun _ h' => h'.challenge)
theorem KeepsSound.unlock : KeepsSound s₀ (unlock s) := by
  have keyless : KeepsSound s₀ { s with wards := s.wards.map destroyKey } := h.mapWards fun _ _ => rfl
  have down : KeepsSound s₀ ((List.range 16).foldl (fun s w => Machine.teardownWard w s) { s with wards := s.wards.map destroyKey }) :=
    keyless.foldl fun _ _ h => h.teardownWard
  unfold Machine.unlock
  generalize (List.range 16).foldl (fun s w => Machine.teardownWard w s) { s with wards := s.wards.map destroyKey } = s1 at down ⊢
  exact .modSec down.setTamper
theorem KeepsSound.execUnlockResponse {r s' : Nat} : AnswersSound s₀ (execUnlockResponse r s' s) :=
  h.jtag (fun _ h' => .ite (.unlock h'.loadIr) (.modSec h'.loadIr))
theorem KeepsSound.execUnlockHoldoffExpiry : AnswersSound s₀ (execUnlockHoldoffExpiry s) := .guardThat (.next h.modSec)
theorem KeepsSound.execYakabryDebugAccess {op : Nat} : AnswersSound s₀ (execYakabryDebugAccess op s) :=
  h.jtag (fun _ h' => .ite h'.loadOpen h'.loadIr)

/-! ## Power (Machine/Power) -/

theorem KeepsSound.modOp {g : OpPoint → OpPoint} : KeepsSound s₀ (modOp g s) := h.same
theorem KeepsSound.execMgRefresh {r : Readings} : AnswersSound s₀ (execMgRefresh r s) := .guardThat (.next (.modOp h.modOp))
theorem KeepsSound.execThermNChange {level : Bool} : AnswersSound s₀ (execThermNChange level s) := .guardThat (.next h.modBoot)
theorem KeepsSound.decideOp {new : Nat} : KeepsSound s₀ (decideOp new s) := .settleOp h.modOp
theorem KeepsSound.evaluateOp {ms : Nat} : KeepsSound s₀ (evaluateOp ms s) :=
  .ite (.raiseErr (.modOp (.ite h.decideOp h))) (.modOp (.ite h.decideOp h))
theorem KeepsSound.execOpEvaluation : AnswersSound s₀ (execOpEvaluation s) :=
  .guardThat (.next (.ite (.settleOp h.modOp) (.evaluateOp (.settleOp h.modOp))))
theorem KeepsSound.writeOpCtrl {v : Nat} : KeepsSound s₀ (writeOpCtrl v s) := by
  unfold Machine.writeOpCtrl
  exact h.modOp
theorem KeepsSound.execOpCtrlWrite {value : Nat} : AnswersSound s₀ (execOpCtrlWrite value s) := .ite (.next h.writeOpCtrl) (.next h)
theorem KeepsSound.execThermalPeakRead : AnswersSound s₀ (execThermalPeakRead s) := .ite (.next (.modOp h.readBack)) (.next h)
theorem KeepsSound.execPowerPeakRead : AnswersSound s₀ (execPowerPeakRead s) := .ite (.next (.modOp h.readBack)) (.next h)

/-! ## Scan-out (Machine/ScanOut) -/

theorem KeepsSound.takeConfig {head : Nat} : KeepsSound s₀ (takeConfig head s) := by
  unfold Machine.takeConfig
  dsimp only
  split
  · exact .ite (.ite (.hostWrite (.modHead h.modHead)) (.modHead h.modHead)) h.modHead
  · exact h
theorem KeepsSound.plainStart {head at_ : Nat} : KeepsSound s₀ (plainStart head at_ s) := h.modHead
theorem KeepsSound.unbindHead {head slot seq : Nat} : KeepsSound s₀ (unbindHead head slot seq s) := .completeOk (.pruneReady (.modCtx h.modHead))
theorem KeepsSound.freezeStep {head slot : Nat} {b : Bytes} {r : Ready} : KeepsSound s₀ (freezeStep head slot b r s) :=
  .ite (.postEvent h.modHead) h.modHead
theorem KeepsSound.showFrame {head slot : Nat} {b : Bytes} {x : Ctx} {r : Ready} : KeepsSound s₀ (showFrame head slot b x r s) :=
  .pruneReady (.freezeStep (.modCtx h.modHead))
theorem KeepsSound.refreshDeadline {head slot : Nat} : KeepsSound s₀ (refreshDeadline head slot s) := h.modCtx
theorem KeepsSound.beginSlot {head slot slotF at_ : Nat} {b : Bytes} {x : Ctx} : KeepsSound s₀ (beginSlot head slot slotF at_ b x s) := by
  unfold Machine.beginSlot
  refine .refreshDeadline ?_
  split
  · exact .showFrame h.modHead
  · exact .modHead h.modHead
theorem KeepsSound.scanStartAt {head slot at_ : Nat} {x : Ctx} : KeepsSound s₀ (scanStartAt head slot at_ x s) := by
  unfold Machine.scanStartAt
  split
  · exact .unbindHead (.plainStart h.takeConfig)
  · exact .beginSlot h.takeConfig
theorem KeepsSound.tapStart {t : Tap} : KeepsSound s₀ (tapStart t s) := h.same
theorem KeepsSound.execHeadPeriodStart {head : Nat} : AnswersSound s₀ (execHeadPeriodStart head s) := by
  unfold Machine.execHeadPeriodStart
  dsimp only
  split
  · split
    · exact .guardThat (.next h.tapStart)
    · exact .notNow
  · exact .guardThat (.ite (.need (fun _ _ => .next h.scanStartAt)) (.next (.plainStart (.ite h h.takeConfig))))
theorem KeepsSound.postDrops {head slot : Nat} : KeepsSound s₀ (postDrops head slot s) := .ite h h.postEvent
theorem KeepsSound.beginSlice {head slot : Nat} {hd : Head} {b : Bytes} : KeepsSound s₀ (beginSlice head slot hd b s) :=
  .ite (.postDrops h.modHead) h.modHead
theorem KeepsSound.execSliceBegin {head : Nat} : AnswersSound s₀ (execSliceBegin head s) :=
  .need (fun _ _ => .need (fun _ _ => .guardThat (.next h.beginSlice)))
theorem KeepsSound.deliver {head slot : Nat} {b entry : Bytes} {ok : Bool} : KeepsSound s₀ (deliver head slot b entry ok s) :=
  .ite (.ite h (.sendFor h.chargeHinge)) (.modHead (.chargeHost (.hostWrite (.ite h.hostWrite (.spoilHost h.hostDmaFailed)))))
theorem KeepsSound.writeSlice {head slot : Nat} {hd : Head} {b : Bytes} {k start : Nat} {got : List Nat} {ok : Bool} :
    KeepsSound s₀ (writeSlice head slot hd b k start got ok s) := .deliver h.modHead
theorem KeepsSound.execSliceWritten {head : Nat} {underrun : List Nat} {entryOk : Bool} :
    AnswersSound s₀ (execSliceWritten head underrun entryOk s) := .need (fun _ _ => .need (fun _ _ => .need (fun _ _ => .next h.writeSlice)))
theorem KeepsSound.execActiveLineScan {head delivered : Nat} : AnswersSound s₀ (execActiveLineScan head delivered s) :=
  .need (fun _ _ => .guardThat (.next h.modHead))
theorem KeepsSound.endScan {head slot : Nat} {hd : Head} {b : Bytes} : KeepsSound s₀ (endScan head slot hd b s) :=
  .ite h.modHead (.postEvent h.modHead)
theorem KeepsSound.execFrameScanEnd {head : Nat} : AnswersSound s₀ (execFrameScanEnd head s) :=
  .need (fun _ _ => .need (fun _ _ => .guardThat (.next h.endScan)))
theorem KeepsSound.writeConsumerIndex {head value : Nat} : KeepsSound s₀ (writeConsumerIndex head value s) := .ite h h.modHead
theorem KeepsSound.execRingConsumerWrite {fn head value : Nat} : AnswersSound s₀ (execRingConsumerWrite fn head value s) :=
  .ite (.next h.writeConsumerIndex) (.next h)
theorem KeepsSound.moveStart {head from_ dst : Nat} : KeepsSound s₀ (moveStart head from_ dst s) := by
  unfold Machine.moveStart
  dsimp only
  split
  · exact .refreshDeadline h.modHead
  · exact h.modHead
theorem KeepsSound.genlockEdge {head e : Nat} {b : Bytes} : KeepsSound s₀ (genlockEdge head e b s) :=
  .ite (.modHead h.moveStart) (.ite h.modHead (.moveStart h.modHead))
theorem KeepsSound.execGpioSyncEdge : AnswersSound s₀ (execGpioSyncEdge s) :=
  .next (.ite (.triggerAll (h.foldl (fun _ _ h' => h'.genlockEdge))) (h.foldl (fun _ _ h' => h'.genlockEdge)))

/-! ## Registers (Machine/Registers) -/

theorem KeepsSound.globalWrite {fn o v : Nat} {lo hi : Bool} : KeepsSound s₀ (globalWrite fn o v lo hi s) := by
  unfold Machine.globalWrite
  split
  · exact .ite (.ite (.sendMsix (.modFn (.ite h.modFn h))) (.modFn (.ite h.modFn h))) (.ite h.modFn h)
  · exact h.modFn
  · exact .ite h h.modFn
  · exact .ite h h.modFn
  · exact .ite h.writeAdmCfg h
  · exact h
theorem KeepsSound.doorbellPageWrite {fn : Nat} {r : RingRef} {o v : Nat} {lo hi : Bool} : KeepsSound s₀ (doorbellPageWrite fn r o v lo hi s) := by
  unfold Machine.doorbellPageWrite
  split
  · exact .ite (.doorbell (.ite h.doorbell h)) (.ite h.doorbell h)
  · exact .ite h.doorbell h
  · exact h
theorem KeepsSound.headWrite {head o v : Nat} {lo hi : Bool} : KeepsSound s₀ (headWrite head o v lo hi s) := by
  unfold Machine.headWrite
  split
  · exact .ite h.modHead h
  · exact .ite h.writeConsumerIndex h
  · exact h
theorem KeepsSound.mgWrite {o v : Nat} {lo : Bool} : KeepsSound s₀ (mgWrite o v lo s) := by
  unfold Machine.mgWrite
  split
  · exact h
  · split
    · exact h.writeOpCtrl
    · exact h.modOp
    · exact h.modSec
    · exact h
theorem KeepsSound.hgWrite {o v : Nat} {lo : Bool} : KeepsSound s₀ (hgWrite o v lo s) := .ite h.modPort h
theorem KeepsSound.bar0Write {fn o v0 : Nat} {lo hi : Bool} : KeepsSound s₀ (bar0Write fn o v0 lo hi s) :=
  .ite h.globalWrite (.ite h.doorbellPageWrite (.ite h (.ite (.ite h.mgWrite h) (.ite (.ite h.headWrite h) (.ite h (.ite (.ite h.pcWrite h) (.ite
    (.ite h.hgWrite h) (.ite h h.doorbellPageWrite))))))))
theorem KeepsSound.bar4Write {fn o v0 : Nat} {lo hi : Bool} : KeepsSound s₀ (bar4Write fn o v0 lo hi s) :=
  .ite h (.ite h.modFn (.ite (.sendMsix (.modFn h.modFn)) h.modFn))
theorem KeepsSound.execRegisterWrite {fn bar offset width value : Nat} : AnswersSound s₀ (execRegisterWrite fn bar offset width value s) :=
  .ite (.next h) (.ite (.next (.ite h.bar0Write h)) (.next (.ite h.bar4Write h)))

/-! ## The dispatch and the step -/

/-- Every command keeps the invariant, the queue and the part: its meaning is one of the functions above. -/
theorem KeepsSound.exec (c : Instr) : AnswersSound s₀ (exec c s) := by
  cases c with
  | ingestRender => exact h.ingestCommand
  | ingestPose => exact h.ingestCommand
  | packetArrival => exact h.execPacketArrival
  | ingestCheck => exact h.execIngestCheck
  | ingestDecodeComplete => exact h.execIngestDecodeComplete
  | poseIngestComplete => exact h.execPoseIngestComplete
  | frameStart => exact h.execFrameStart
  | cutOff => exact h.execCutOff
  | geometryPassStart => exact h.execGeometryPassStart
  | feSetupGroup => exact h.execFeSetupGroup
  | poolGrowthComplete => exact h.execPoolGrowthComplete
  | binningComplete => exact h.execBinningComplete
  | fragmentBatch => exact h.execFragmentBatch
  | splatComplete => exact h.execSplatComplete
  | rayTaskStart => exact h.execRayTaskStart
  | rayTaskComplete => exact h.execRayTaskComplete
  | taskAdmit => exact h.execTaskAdmit
  | steal => exact h.execSteal
  | stealWaitExpiry => exact h.execStealWaitExpiry
  | quantumBoundary => exact h.execQuantumBoundary
  | stripeTaskComplete => exact h.execStripeTaskComplete
  | digestComplete => exact h.execDigestComplete
  | detentCheck => exact h.execDetentCheck
  | detentComparator => exact h.execDetentComparator
  | captureTask => exact h.execCaptureTask
  | stepBoundary => exact h.execStepBoundary
  | trainingStepComplete => exact h.execTrainingStepComplete
  | visionNodeStart => exact h.execVisionNodeStart
  | visionSliceBoundary => exact h.execVisionSliceBoundary
  | flowBandComplete => exact h.execFlowBandComplete
  | graphRunEnd => exact h.execGraphRunEnd
  | headPeriodStart => exact h.execHeadPeriodStart
  | sliceBegin => exact h.execSliceBegin
  | sliceWritten => exact h.execSliceWritten
  | frameScanEnd => exact h.execFrameScanEnd
  | gpioSyncEdge => exact h.execGpioSyncEdge
  | dpLinkLoss => exact h.execDpLinkLoss
  | ringConsumerWrite => exact h.execRingConsumerWrite
  | waitLimit => exact h.execWaitLimit
  | haspTimeout => exact h.execHaspTimeout
  | remoteWaitLimit => exact h.execRemoteWaitLimit
  | teardownComplete => exact h.execTeardownComplete
  | nop => exact h.execNop
  | endThread => exact h.execEndThread
  | br => exact h.execBr
  | add => exact h.issueS
  | sub => exact h.issueS
  | mul => exact h.issueS
  | div => exact h.issueS
  | andS => exact h.issueS
  | orS => exact h.issueS
  | xorS => exact h.issueS
  | shl => exact h.issueS
  | shr => exact h.issueS
  | sra => exact h.issueS
  | minS => exact h.issueS
  | maxS => exact h.issueS
  | addi => exact h.issueS
  | movi => exact h.issueS
  | movh => exact h.issueS
  | cmp => exact h.issueP
  | cmpi => exact h.issueP
  | sel => exact h.issueS
  | plog => exact h.issueP
  | rdtb => exact h.issueS
  | pcrd => exact h.execPcrd
  | vadd => exact h.issueBin
  | vsub => exact h.issueBin
  | vmul => exact h.issueBin
  | vfma => exact h.issueV
  | vmin => exact h.issueBin
  | vmax => exact h.issueBin
  | vdiv => exact h.issueBin
  | vsqrt => exact h.issueV
  | vfn => exact h.issueV
  | vcvt => exact h.issueV
  | vcmp => exact h.execVcmp
  | vsel => exact h.issueV
  | vlog => exact h.issueV
  | vsh => exact h.issueV
  | vbcast => exact h.issueV
  | viota => exact h.issueV
  | vsum => exact h.execVsum
  | vrq => exact h.issueV
  | vbsc => exact h.execVbsc
  | vpack => exact h.execVpack
  | vunpk => exact h.execVunpk
  | ldc => exact h.execLdc
  | stc => exact h.execStc
  | ldcx => exact h.execLdcx
  | ldw => exact h.execLdw
  | stw => exact h.execStw
  | atom => exact h.execAtom
  | vaultReply => exact h.execVaultReply
  | mcopy => exact h.execMcopy
  | mcopyComplete => exact h.execMcopyComplete
  | waitc => exact h.execWaitc
  | fenceScope => exact h.execFenceScope
  | lset => exact h.execLset
  | lclr => exact h.execLclr
  | lwait => exact h.execLwait
  | ltest => exact h.execLtest
  | hacq => exact h.execHacq
  | hrel => exact h.execHrel
  | htry => exact h.execHtry
  | pxlock => exact h.execPxlock
  | pxunlock => exact h.execPxunlock
  | tzero => exact h.execTzero
  | tmm => exact h.execTmm
  | tmmb => exact h.execTmmb
  | trd => exact h.execTrd
  | smp => exact h.execSmp
  | kwSqDb => exact h.execKwSqDb
  | kwCqDb => exact h.execKwCqDb
  | kwCqArm => exact h.execKwCqArm
  | kwCqLost => exact h.execKwCqLost
  | kwAdmSqDb => exact h.execKwAdmSqDb
  | kwAdmCqDb => exact h.execKwAdmCqDb
  | kwAdmArm => exact h.execKwAdmArm
  | adminEnable => exact h.execAdminEnable
  | adminDisable => exact h.execAdminDisable
  | registerWrite => exact h.execRegisterWrite
  | bar2Read => exact h.execBar2Read
  | bar2Write => exact h.execBar2Write
  | commandFetch => exact h.execCommandFetch
  | wardConfig => exact h.execWardConfig
  | wardReset => exact h.execWardReset
  | memoryGrant => exact h.execMemoryGrant
  | ctxCreate => exact h.execCtxCreate
  | ctxDestroy => exact h.execCtxDestroy
  | imageLoad => exact h.execImageLoad
  | imageUnload => exact h.execImageUnload
  | headConfig => exact h.execHeadConfig
  | headQuery => exact h.execHeadQuery
  | tapConfig => exact h.execTapConfig
  | hingeConfig => exact h.execHingeConfig
  | fwStage => exact h.execFwStage
  | fwActivate => exact h.execFwActivate
  | fwSwitchComplete => exact h.execFwSwitchComplete
  | kwNop => exact h.execKwNop
  | kwFence => exact h.execKwFence
  | ctxConfigure => exact h.execCtxConfigure
  | imageBind => exact h.execImageBind
  | hierLoad => exact h.execHierLoad
  | hierUnload => exact h.execHierUnload
  | graphLoad => exact h.execGraphLoad
  | graphUnload => exact h.execGraphUnload
  | headBind => exact h.execHeadBind
  | headUnbind => exact h.execHeadUnbind
  | auxRun => exact h.execAuxRun
  | haspGrant => exact h.execHaspGrant
  | haspRelease => exact h.execHaspRelease
  | copy => exact h.execCopy
  | adaptPublish => exact h.execAdaptPublish
  | adapterLoad => exact h.execAdapterLoad
  | adapterExport => exact h.execAdapterExport
  | storeClear => exact h.execStoreClear
  | trainControl => exact h.execTrainControl
  | acctQuery => exact h.execAcctQuery
  | replayFrame => exact h.execReplayFrame
  | flrVf => exact h.execFlrVf
  | flrPf => exact h.execFlrPf
  | keeperHeartbeat => exact h.execKeeperHeartbeat
  | render => exact h.execRender
  | pose => exact h.execPose
  | slice => exact h.execSlice
  | sliceCredit => exact h.execSliceCredit
  | remoteReq => exact h.execRemoteReq
  | remoteRep => exact h.execRemoteRep
  | inherit => exact h.execInherit
  | holderGone => exact h.execHolderGone
  | hello => exact h.execHello
  | linkDown => exact h.execLinkDown
  | linkUp => exact h.execLinkUp
  | portTrained => exact h.execPortTrained
  | laneFail => exact h.execLaneFail
  | retrainComplete => exact h.execRetrainComplete
  | neighbourLoss => exact h.execNeighbourLoss
  | reroute => exact h.execReroute
  | bwCfgWrite => exact h.execBwCfgWrite
  | bwWindowEnd => exact h.execBwWindowEnd
  | counterFreeze => exact h.execCounterFreeze
  | counterClear => exact h.execCounterClear
  | sampleTimerEnable => exact h.execSampleTimerEnable
  | sampleExternalEnable => exact h.execSampleExternalEnable
  | sampleTimer => exact h.execSampleTimer
  | sampleRecordWrite => exact h.execSampleRecordWrite
  | sbufEnable => exact h.execSbufEnable
  | sbufConsumerWrite => exact h.execSbufConsumerWrite
  | sbufLostRead => exact h.execSbufLostRead
  | perfUserWrite => exact h.execPerfUserWrite
  | scrubPass => exact h.execScrubPass
  | rowSpare => exact h.execRowSpare
  | channelSpareStart => exact h.execChannelSpareStart
  | channelSpareComplete => exact h.execChannelSpareComplete
  | channelLost => exact h.execChannelLost
  | coreSelfTest => exact h.startDrain
  | coreDrainStart => exact h.execCoreDrainStart
  | coreDrainEnd => exact h.execCoreDrainEnd
  | coreRetireImmediate => exact h.execCoreRetireImmediate
  | keeperWatchdog => exact h.execKeeperWatchdog
  | rngFail => exact h.execRngFail
  | sensorReset => exact h.execSensorReset
  | bypass => exact h.execBypass
  | idcode => exact h.execIdcode
  | samplePreload => exact h.execSamplePreload
  | extest => exact h.takePins
  | clamp => exact h.takePins
  | highz => exact h.takePins
  | unlockChallenge => exact h.execUnlockChallenge
  | unlockResponse => exact h.execUnlockResponse
  | unlockHoldoffExpiry => exact h.execUnlockHoldoffExpiry
  | yakabryDebugAccess => exact h.execYakabryDebugAccess
  | bootImageCheck => exact h.execBootImageCheck
  | vaultTrain => exact h.execVaultTrain
  | coreBringup => exact h.execCoreBringup
  | opCtrlWrite => exact h.execOpCtrlWrite
  | mgRefresh => exact h.execMgRefresh
  | thermNChange => exact h.execThermNChange
  | d3hotEntry => exact h.execD3hotEntry
  | d0Return => exact h.execD0Return
  | smbusArp => exact h.smbRequest
  | setEndpointId => exact h.smbRequest
  | pldmDiscovery => exact h.smbRequest
  | getPdr => exact h.smbRequest
  | getSensorReading => exact h.smbRequest
  | getStateSensorReadings => exact h.smbRequest
  | flit => exact h.execFlit
  | dpHotPlug => exact h.execDpHotPlug
  | dpLinkTrainingEnd => exact h.execDpLinkTrainingEnd
  | activeLineScan => exact h.execActiveLineScan
  | selfTestComplete => exact h.execSelfTestComplete
  | unitParityError => exact h.execUnitParityError
  | deviceUncorrectable => exact h.execDeviceUncorrectable
  | vfEnable => exact h.execVfEnable
  | hostDmaComplete => exact h.execHostDmaComplete
  | bar0ImproperAccess => exact h.execBar0ImproperAccess
  | builtInInstruction => exact h.execBuiltInInstruction
  | detectJobComplete => exact h.execDetectJobComplete
  | powerOnReset => exact h.execPowerOnReset
  | powerFail => exact h.execPowerFail
  | coldReset => exact h.execColdReset
  | perstNRelease => exact h.execPerstNRelease
  | linkReset => exact h.execLinkReset
  | pllLock => exact h.execPllLock
  | configReady => exact h.execConfigReady
  | opEvaluation => exact h.execOpEvaluation
  | thermalPeakRead => exact h.execThermalPeakRead
  | powerPeakRead => exact h.execPowerPeakRead
  | tapReset => exact h.execTapReset
  | flashProgramComplete => exact h.execFlashProgramComplete
end

/-- What the invariant reads does not include the queue. -/
theorem Sound.withPending {s : State} (h : Sound s) (l : List Instr) : Sound { s with pending := l } :=
  ⟨h.host, h.wards, h.stores, h.sixteenWards, h.sixteenFns, h.fourPorts⟩

theorem sound_step {s n : State} (h : Sound s) (e : step s = .next n) : Sound n := by
  unfold step at e
  split at e
  · cases e
    exact (KeepsSound.refl s).tick.sound h
  · exact ((KeepsSound.refl _).exec _ n e).sound (h.withPending _)

/-- Settles O59: every function of the model that answers a state keeps the invariant, those that write memory because a write keeps the
canonical form, and those that change a table of fixed length because they change its elements alone. -/
theorem invariantKept : Obligations.InvariantKept := fun _ _ => sound_step

end Sys2Proof.Machine
end

section
/-! PROOFS. Wards and their memory (10 R345–R350, R377, R379): WARD_CONFIG, WARD_RESET and MEMORY_GRANT. -/
namespace Sys2Proof.Machine

/-! ## WARD_CONFIG (10 R346, R348) -/

theorem exec_wardConfig (fn seq : Nat) (s : State) : exec (.wardConfig fn seq) s = execWardConfig fn seq s := rfl

/-- What a list of checks passes, it passes check by check. -/
theorem passed_of_firstBad {l : List (Bool × Nat × Nat)} {p : Bool × Nat × Nat} (h : firstBad l = none) (hp : p ∈ l) : p.1 = false := by
  have none_ := List.find?_eq_none.mp (Option.map_eq_none_iff.mp h)
  simpa using none_ p hp
/-- An accepted block names one of the sixteen wards. -/
theorem wbWard_lt_of_accepted {s : State} {b : Bytes} (h : wardRefusal s b = none) : wbWard b < 16 := by
  unfold wardRefusal at h
  split at h
  · cases h
  · next passed =>
    have fields : wardFieldsBad s b = none := by
      rw [wardBlockBad] at passed
      exact (Option.or_eq_none_iff.mp ((Option.orElse_eq_or ..).symm.trans passed)).1
    have known : decide (15 < wbWard b) = false := passed_of_firstBad fields (p := (_, _, _)) (.tail _ (.head _))
    have := of_decide_eq_false known
    omega

theorem execWardConfig_refused {fn seq off reason : Nat} {s : State} {c : Cmd} (hc : readyCmd (.admin fn) seq 0x01 s = some c)
    (bad : wardRefusal s (hostRead s (entAddr0 c.entry) 16896) = some (off, reason)) :
    execWardConfig fn seq s = .next (complete (.admin fn) seq kWardRefused reason (natLe 4 off) s) := by
  rw [execWardConfig, command_next _ hc]
  simp only [bad]
theorem execWardConfig_accepted {fn seq : Nat} {s : State} {c : Cmd} (hc : readyCmd (.admin fn) seq 0x01 s = some c)
    (good : wardRefusal s (hostRead s (entAddr0 c.entry) 16896) = none) :
    execWardConfig fn seq s = .next (completeOk (.admin fn) seq [] (applyWard (wbWard (hostRead s (entAddr0 c.entry) 16896))
      (wardCfgOf (hostRead s (entAddr0 c.entry) 16896)) s)) := by
  rw [execWardConfig, command_next _ hc]
  simp only [good]

/-- A state but for its heads. -/
def headless (s : State) : State := { s with heads := [] }
/-- A ward's configuration replaced. -/
def withCfg (n : WardCfg) (x : Ward) : Ward := { x with cfg := n }
/-- A ward's key replaced. -/
def withKey (key : Nat) (x : Ward) : Ward := { x with key := some key }
/-- What a configuration that is put in force makes of its ward: an active one holds a key, a new one where it had none. -/
def configured (n : WardCfg) (key : Nat) (x : Ward) : Ward :=
  if wardActive n then (if x.key.isSome then withCfg n x else withKey key (withCfg n x)) else emptyWard (withCfg n x)

theorem headless_dropHeads (l : List Nat) (s : State) : headless (l.foldl (fun s h => dropHead h s) s) = headless s :=
  foldl_view (view := headless) (f := fun s h => dropHead h s) (fun _ _ => rfl) l s
theorem wardOf_newKey_same {w : Nat} {s : State} (h : w < s.wards.length) : wardOf (newKey w s) w = withKey s.nextSerial (wardOf s w) :=
  wardOf_modWard_same (withKey s.nextSerial) h
theorem wardOf_newKey_other {w v : Nat} (s : State) (h : v ≠ w) : wardOf (newKey w s) v = wardOf s v :=
  wardOf_modWard_other (withKey s.nextSerial) s h
theorem keepsRing_newKey (r : RingRef) (w : Nat) (s : State) : KeepsRing r s (newKey w s) := by
  refine ⟨?_, rfl, id⟩
  cases r <;> rfl

section
variable (w : Nat) (n : WardCfg) (s : State)
/-- The heads that leave the ward are dropped, the ward itself is changed, and nothing else is. -/
theorem applyWard_eq : ∃ m, headless m = headless s ∧ applyWard w n s =
    if wardActive n then (if (wardOf s w).key.isSome then modWard w (withCfg n) m else newKey w (modWard w (withCfg n) m))
    else modWard w emptyWard (modWard w (withCfg n) m) :=
  ⟨_, headless_dropHeads _ s, rfl⟩
theorem keepsRing_of_headless {m : State} (r : RingRef) (h : headless m = headless s) : KeepsRing r s m := by
  refine ⟨?_, (congrArg State.fw h :), fun canonical => (congrArg State.hostMem h :) ▸ canonical⟩
  cases r with
  | ctx i => exact (congrArg (fun s => ringOf s (.ctx i)) h :)
  | admin f => exact (congrArg (fun s => ringOf s (.admin f)) h :)
theorem keepsRing_applyWard (r : RingRef) : KeepsRing r s (applyWard w n s) := by
  obtain ⟨m, same, h⟩ := applyWard_eq w n s
  have kept := (keepsRing_of_headless s r same).trans (keepsRing_modWard r w (withCfg n) m)
  rw [h]
  split
  · split
    · exact kept
    · exact kept.trans (keepsRing_newKey ..)
  · exact kept.trans (keepsRing_modWard ..)
theorem wardOf_applyWard_other {v : Nat} (h : v ≠ w) : wardOf (applyWard w n s) v = wardOf s v := by
  obtain ⟨m, same, e⟩ := applyWard_eq w n s
  have kept : wardOf (modWard w (withCfg n) m) v = wardOf s v :=
    (wardOf_modWard_other _ m h).trans (congrArg (fun s => wardOf s v) same :)
  rw [e]
  split
  · split
    · exact kept
    · exact (wardOf_newKey_other _ h).trans kept
  · exact (wardOf_modWard_other _ _ h).trans kept
theorem wardOf_applyWard_same (h : w < s.wards.length) : ∃ key, wardOf (applyWard w n s) w = configured n key (wardOf s w) := by
  obtain ⟨m, same, e⟩ := applyWard_eq w n s
  have wards : m.wards = s.wards := (congrArg State.wards same :)
  have in_ : w < (modWard w (withCfg n) m).wards.length := by rwa [modWard_wards_length, wards]
  have kept : wardOf (modWard w (withCfg n) m) w = withCfg n (wardOf s w) :=
    (wardOf_modWard_same _ (wards ▸ h)).trans (congrArg (fun l => withCfg n (l.getD w {})) wards)
  refine ⟨m.nextSerial, ?_⟩
  rw [e, configured]
  split
  · split
    · exact kept
    · exact (wardOf_newKey_same in_).trans (congrArg _ kept)
  · exact (wardOf_modWard_same _ in_).trans (congrArg _ kept)
end

theorem configured_cfg (n : WardCfg) (key : Nat) (x : Ward) : (configured n key x).cfg = n := by
  unfold configured
  split
  · split <;> rfl
  · rfl
theorem configured_active {n : WardCfg} (key : Nat) (x : Ward) (active : wardActive n = true) :
    (configured n key x).key.isSome = true ∧ (configured n key x).mem = x.mem := by
  rw [configured, if_pos active]
  split
  · next keyed => exact ⟨keyed, rfl⟩
  · exact ⟨rfl, rfl⟩
theorem configured_inactive {n : WardCfg} (key : Nat) (x : Ward) (inactive : wardActive n = false) :
    configured n key x = emptyWard (withCfg n x) := by
  simp [configured, inactive]

/-! ## WARD_RESET (10 R379) -/

theorem exec_wardReset (fn seq : Nat) (s : State) : exec (.wardReset fn seq) s = execWardReset fn seq s := rfl

/-- What a reset takes from a ward. -/
def resetMemory (x : Ward) : Ward :=
  { x with
    mem := [], images := [], poisoned := [], growthWait := []
    allocs := x.allocs.filter (fun a => match a.kind with | .image _ => false | _ => true)
    transit := [], ingestQ := [], poseQ := [] }

theorem isHeld_of_isLive {x : SlotState} (h : isLive x = true) : isHeld x = true := by simp_all [isLive, isHeld]
/-- A ward without contexts has none that is torn down. -/
theorem teardownWard_idle {s : State} {w : Nat} (idle : wardTearing s w = false) : teardownWard w s = s := by
  have held : wardCtxs s w isHeld = [] := by simpa [wardTearing] using idle
  have none_ : wardCtxs s w isLive = [] := by
    rw [wardCtxs, List.filter_eq_nil_iff] at held ⊢
    intro x hx live
    simp only [Bool.and_eq_true] at live
    exact held x hx (Bool.and_eq_true _ _ ▸ ⟨live.1, isHeld_of_isLive live.2⟩)
  rw [teardownWard, none_, List.foldl_nil]
theorem resetWard_idle {s : State} {w : Nat} (idle : wardTearing s w = false) (keyed : (wardOf s w).key.isSome = true) :
    resetWard w s = newKey w (modWard w resetMemory s) := by
  simp only [resetWard, teardownWard_idle idle, keyed, if_true]
  rfl
/-- The reset of a ward without contexts ends at once. -/
theorem execWardReset_idle {fn seq : Nat} {s : State} {c : Cmd} (hc : readyCmd (.admin fn) seq 0x02 s = some c) (fresh : c.started = false)
    (known : entArg c.entry 0 < 16) (idle : wardTearing s (entArg c.entry 0) = false)
    (keyed : (wardOf s (entArg c.entry 0)).key.isSome = true) :
    execWardReset fn seq s = .next (completeOk (.admin fn) seq []
      (newKey (entArg c.entry 0) (modWard (entArg c.entry 0) resetMemory s))) := by
  have still : wardTearing (newKey (entArg c.entry 0) (modWard (entArg c.entry 0) resetMemory s)) (entArg c.entry 0) = false := idle
  simp only [execWardReset, hc, need, guardThat, fresh, Bool.not_false, if_true, if_neg (show ¬ 15 < entArg c.entry 0 by omega),
    resetWard_idle idle keyed, still]
  rfl

/-! ## MEMORY_GRANT (10 R377) -/

theorem exec_memoryGrant (fn seq : Nat) (s : State) : exec (.memoryGrant fn seq) s = execMemoryGrant fn seq s := rfl

/-- A ward whose spare pool has chunks more. -/
def moreSpare (n : Nat) (w : Ward) : Ward := { w with spare := w.spare + 4 * n }
/-- A ward that gives granules of its spare pool back. -/
def lessSpare (n : Nat) (w : Ward) : Ward := { w with spare := w.spare - 4 * n, allocs := dropSpare n w.allocs }
/-- The state as a grant leaves it: granules allocated, and their chunks in the spare pool. -/
def granted (fn n : Nat) (a : Alloc) (s : State) : State :=
  modWard fn (moreSpare n) { modWard fn (addAlloc a) s with nextSerial := s.nextSerial + 1 }
theorem wardOf_granted_same {fn : Nat} {s : State} (n : Nat) (a : Alloc) (h : fn < s.wards.length) :
    wardOf (granted fn n a s) fn = moreSpare n (addAlloc a (wardOf s fn)) := by
  rw [granted, wardOf_modWard_same _ ((modWard_wards_length fn _ s).symm ▸ h)]
  exact congrArg _ (wardOf_modWard_same _ h)
theorem wardOf_granted_other {fn v : Nat} (n : Nat) (a : Alloc) (s : State) (h : v ≠ fn) : wardOf (granted fn n a s) v = wardOf s v :=
  (wardOf_modWard_other _ _ h).trans (wardOf_modWard_other _ s h)
theorem keepsRing_granted (r : RingRef) (fn n : Nat) (a : Alloc) (s : State) : KeepsRing r s (granted fn n a s) := by
  refine ⟨?_, rfl, id⟩
  cases r <;> rfl
theorem serveGrowth_unasked {wd : Nat} {s : State} (k : Nat) (h : (wardOf s wd).growthWait = []) : serveGrowth wd k s = s := by
  cases k with
  | zero => rfl
  | succ k => simp only [serveGrowth, h]

section
variable {fn seq : Nat} {s : State} {c : Cmd} (hwd : fn < s.wards.length)
include hwd
theorem memoryGrantGo_gives (unasked : (wardOf s fn).growthWait = []) (give : entArg c.entry 1 % 2 = 0)
    (fits : entArg c.entry 0 ≤ freeGranules (wardOf s fn)) : ∃ a, memoryGrantGo fn seq c s =
      completeOk (.admin fn) seq (natLe 4 ((wardOf s fn).spare + 4 * entArg c.entry 0)) (granted fn (entArg c.entry 0) a s) := by
  obtain ⟨addr, a, ha⟩ := allocate_some .spare false [] fits
  have own := wardOf_granted_same (entArg c.entry 0) a hwd
  have served : serveGrowth fn 1024 (granted fn (entArg c.entry 0) a s) = granted fn (entArg c.entry 0) a s :=
    serveGrowth_unasked _ ((congrArg Ward.growthWait own).trans unasked)
  have spare : (wardOf (granted fn (entArg c.entry 0) a s) fn).spare = (wardOf s fn).spare + 4 * entArg c.entry 0 := congrArg Ward.spare own
  refine ⟨a, ?_⟩
  rw [← spare, ← congrArg (completeOk (.admin fn) seq _) served]
  simp only [memoryGrantGo, Nat.testBit_zero, give, ha]
  rfl
theorem memoryGrantGo_returns (take : entArg c.entry 1 % 2 = 1) (has : 4 * entArg c.entry 0 ≤ (wardOf s fn).spare) :
    memoryGrantGo fn seq c s =
      completeOk (.admin fn) seq (natLe 4 ((wardOf s fn).spare - 4 * entArg c.entry 0)) (modWard fn (lessSpare (entArg c.entry 0)) s) := by
  have spare : (wardOf (modWard fn (lessSpare (entArg c.entry 0)) s) fn).spare = (wardOf s fn).spare - 4 * entArg c.entry 0 :=
    congrArg Ward.spare (wardOf_modWard_same _ hwd)
  rw [← spare]
  simp only [memoryGrantGo, Nat.testBit_zero, take, decide_true, if_true, if_neg (Nat.not_lt.mpr has)]
  rfl
end

end Sys2Proof.Machine

namespace Sys2Proof.Say
open Sys2Proof.Machine

/-- Settles O31: each command changes its own ward (`configured`, `resetMemory`, `moreSpare` and `lessSpare`), and its answer leaves the wards
(`complete_wards`). -/
theorem wardCommands : Obligations.WardCommands := by
  unfold Obligations.WardCommands
  refine ⟨fun s fn seq c hs hc => ⟨fun good => ?accepted, fun off reason bad => ?refused⟩,
    fun s fn seq c hs hc fresh => ?reset, fun s fn seq c hs hfn hc unasked => ⟨fun give fits => ?gives, fun take has => ?returns⟩⟩
  case accepted =>
    have known := wbWard_lt_of_accepted good
    obtain ⟨key, own⟩ := wardOf_applyWard_same _ (wardCfgOf (hostRead s (entAddr0 c.entry) 16896)) s (hs.2 ▸ known)
    have own := (wardOf_complete (.admin fn) seq 0 0 [] _ _).trans own
    refine ⟨_, (exec_wardConfig fn seq s).trans (execWardConfig_accepted hc good), complete_answered_after 0 0 [] hc (keepsRing_applyWard ..),
      (congrArg Ward.cfg own).trans (configured_cfg ..), fun v hv => (wardOf_complete ..).trans (wardOf_applyWard_other _ _ s hv),
      fun active => ?_, fun inactive => ?_⟩
    · obtain ⟨keyed, mem⟩ := configured_active key (wardOf s (wbWard (hostRead s (entAddr0 c.entry) 16896))) active
      exact ⟨(congrArg (fun x : Ward => x.key.isSome) own).trans keyed, (congrArg Ward.mem own).trans mem⟩
    · have empty := own.trans (configured_inactive key _ inactive)
      exact ⟨congrArg Ward.key empty, congrArg Ward.mem empty, congrArg Ward.images empty⟩
  case refused =>
    exact ⟨_, (exec_wardConfig fn seq s).trans (execWardConfig_refused hc bad), complete_answered_after _ reason _ hc (.refl _ s),
      complete_wards ..⟩
  case reset =>
    intro w known idle keyed
    have hwd : w < s.wards.length := hs.2 ▸ known
    have own : wardOf (completeOk (.admin fn) seq [] (newKey w (modWard w resetMemory s))) w = withKey s.nextSerial (resetMemory (wardOf s w)) :=
      (wardOf_complete ..).trans ((wardOf_newKey_same ((modWard_wards_length ..).symm ▸ hwd)).trans (congrArg _ (wardOf_modWard_same _ hwd)))
    refine ⟨_, (exec_wardReset fn seq s).trans (execWardReset_idle hc fresh known idle keyed),
      complete_answered_after 0 0 [] hc ((keepsRing_modWard ..).trans (keepsRing_newKey ..)), congrArg Ward.mem own, congrArg Ward.images own,
      congrArg Ward.key own, (congrArg Ward.cfg own :), fun v hv => ?_⟩
    exact (wardOf_complete ..).trans ((wardOf_newKey_other _ hv).trans (wardOf_modWard_other _ s hv))
  case gives =>
    have hwd : fn < s.wards.length := hs.2 ▸ hfn
    obtain ⟨a, gives⟩ := memoryGrantGo_gives (seq := seq) hwd unasked give fits
    have own := (wardOf_complete (.admin fn) seq 0 0 (natLe 4 ((wardOf s fn).spare + 4 * entArg c.entry 0)) _ _).trans
      (wardOf_granted_same (entArg c.entry 0) a hwd)
    exact ⟨_, ((exec_memoryGrant fn seq s).trans (command_next _ hc)).trans (congrArg _ gives), completeOk_result_after _ hc (keepsRing_granted ..),
      congrArg Ward.spare own, (congrArg Ward.mem own :), fun v hv => (wardOf_complete ..).trans (wardOf_granted_other _ a s hv)⟩
  case returns =>
    have hwd : fn < s.wards.length := hs.2 ▸ hfn
    have own := (wardOf_complete (.admin fn) seq 0 0 (natLe 4 ((wardOf s fn).spare - 4 * entArg c.entry 0)) _ _).trans
      (wardOf_modWard_same (lessSpare (entArg c.entry 0)) hwd)
    exact ⟨_, ((exec_memoryGrant fn seq s).trans (command_next _ hc)).trans (congrArg _ (memoryGrantGo_returns hwd take has)),
      completeOk_result_after _ hc (keepsRing_modWard ..), congrArg Ward.spare own, (congrArg Ward.mem own :),
      fun v hv => (wardOf_complete ..).trans (wardOf_modWard_other _ s hv)⟩

end Sys2Proof.Say
end

section
/-!
PROOFS. The life of a context (10 R350–R354, R377; 11 R401, R404): creation, reconfiguration, and the beginning and the end of a teardown.
-/
namespace Sys2Proof.Machine

/-! ## Admin answers -/

theorem sendMsix_ctxs (fn v : Nat) (s : State) : (sendMsix fn v s).ctxs = s.ctxs := by
  unfold sendMsix
  split <;> rfl
theorem postAlways_admin_ctxs (fn : Nat) (x : Rec) (s : State) : (postAlways (.admin fn) x s).ctxs = s.ctxs := by
  unfold postAlways
  split
  · rfl
  · split
    · cases hg : ringOf s (.admin fn) with
      | none => simp [putRecord, hg]
      | some g =>
        obtain ⟨f, -, h | ⟨fn, v, h⟩⟩ := putRecord_cases x hg
        · rw [h]; rfl
        · rw [h, sendMsix_ctxs]; rfl
    · rfl
theorem settleLost_admin_ctxs (fn : Nat) (s : State) : (settleLost (.admin fn) s).ctxs = s.ctxs := by
  unfold settleLost
  split
  · rfl
  · split
    · exact postAlways_admin_ctxs ..
    · rfl
theorem settleDisable_ctxs (r : RingRef) (s : State) : (settleDisable r s).ctxs = s.ctxs := by
  cases r with
  | ctx i => rfl
  | admin fn => unfold settleDisable; dsimp only; split <;> rfl
/-- The answer of an admin command leaves the contexts. -/
theorem complete_admin_ctxs (fn seq code reason : Nat) (result : Bytes) (s : State) :
    (complete (.admin fn) seq code reason result s).ctxs = s.ctxs := by
  cases hc : cmdOf s (.admin fn) seq with
  | none => rw [complete_of_none code reason result hc]
  | some c =>
    rw [complete_eq code reason result hc, settleDisable_ctxs, settleLost_admin_ctxs]
    split
    · rfl
    · exact postAlways_admin_ctxs ..

/-! ## Memory and hasps of a context -/

/-- A state without the wards, the allocations' serial numbers and the hasps. -/
def unsupplied (s : State) : State := { s with wards := [], nextSerial := 0, hasps := [] }
/-- One ward's memory and the hasps may change, and nothing else. -/
structure Supplies (wd : Nat) (s n : State) : Prop where
  rest : unsupplied n = unsupplied s
  others : ∀ w, w ≠ wd → wardOf n w = wardOf s w

section
variable {wd : Nat} {s m n : State}
theorem Supplies.refl (wd : Nat) (s : State) : Supplies wd s s := ⟨rfl, fun _ _ => rfl⟩
theorem Supplies.trans (a : Supplies wd s m) (b : Supplies wd m n) : Supplies wd s n :=
  ⟨b.rest.trans a.rest, fun w hw => (b.others w hw).trans (a.others w hw)⟩
theorem Supplies.ite {p : Prop} [Decidable p] (a : Supplies wd s m) (b : Supplies wd s n) : Supplies wd s (if p then m else n) := by
  split
  · exact a
  · exact b
theorem Supplies.foldl {α : Type} {f : State → α → State} (hf : ∀ s a, Supplies wd s (f s a)) (l : List α) (s : State) :
    Supplies wd s (l.foldl f s) :=
  List.foldlRecOn l f (.refl wd s) (fun _ h a _ => h.trans (hf _ a))
theorem Supplies.ctxs (h : Supplies wd s n) : n.ctxs = s.ctxs := (congrArg State.ctxs h.rest :)
theorem Supplies.slots (h : Supplies wd s n) : n.slots = s.slots := (congrArg State.slots h.rest :)
theorem Supplies.keepsRing (h : Supplies wd s n) (r : RingRef) : KeepsRing r s n := by
  refine ⟨?_, (congrArg State.fw h.rest :), fun canonical => (congrArg State.hostMem h.rest :) ▸ canonical⟩
  cases r with
  | ctx i => exact (congrArg (fun s => ringOf s (.ctx i)) h.rest :)
  | admin f => exact (congrArg (fun s => ringOf s (.admin f)) h.rest :)

theorem supplies_modWard (wd : Nat) (g : Ward → Ward) (s : State) : Supplies wd s (modWard wd g s) :=
  ⟨rfl, fun _ h => wardOf_modWard_other g s h⟩
/-- An allocation in a ward, and the serial numbers that it draws. -/
theorem supplies_serial (wd k : Nat) (g : Ward → Ward) (s : State) : Supplies wd s { modWard wd g s with nextSerial := k } :=
  ⟨rfl, fun _ h => wardOf_modWard_other g s h⟩
theorem supplies_hasps (wd : Nat) (t : Table Hasp) (s : State) : Supplies wd s { s with hasps := t } := ⟨rfl, fun _ _ => rfl⟩
theorem supplies_take (wd count : Nat) (kind : AllocKind) (s : State) : Supplies wd s (take wd count kind s) := by
  unfold take allocate
  extract_lets w base a
  split
  · exact .refl wd s
  · split
    · exact .refl wd s
    · exact supplies_serial wd (s.nextSerial + 1) _ s
theorem supplies_release (wd : Nat) (test : Alloc → Bool) (s : State) : Supplies wd s (release wd test s) := supplies_modWard wd _ s
theorem supplies_takeGeneral (wd slot count : Nat) (s : State) : Supplies wd s (takeGeneral wd slot count s).2 := by
  unfold takeGeneral
  exact supplies_serial wd (s.nextSerial + 2) _ s
theorem supplies_takeStaging (wd slot units : Nat) (s : State) : Supplies wd s (takeStaging wd slot units s) := by
  unfold takeStaging
  split
  · exact .refl wd s
  · exact supplies_serial wd (s.nextSerial + 1) _ s
theorem supplies_takeHasps (wd slot init : Nat) (old : List (Option Nat)) (k : Nat) (s : State) :
    Supplies wd s (takeHasps wd slot init old k s).2 := by
  induction k with
  | zero => exact .refl wd s
  | succ k ih =>
    simp only [takeHasps]
    split
    · exact ih
    · exact ih.trans (supplies_hasps ..)
theorem takeHasps_length (wd slot init : Nat) (old : List (Option Nat)) (k : Nat) (s : State) :
    (takeHasps wd slot init old k s).1.length = k := by
  induction k with
  | zero => rfl
  | succ k ih =>
    simp only [takeHasps]
    split <;> simp [ih]
theorem supplies_resizeObject (wd count : Nat) (kind : AllocKind) (s : State) : Supplies wd s (resizeObject wd count kind s) :=
  .ite (.refl wd s) ((supplies_release ..).trans (supplies_take ..))
theorem supplies_resizeStaging (wd slot units : Nat) (s : State) : Supplies wd s (resizeStaging wd slot units s) :=
  .ite (.ite (supplies_release ..) (supplies_modWard ..)) (supplies_takeStaging ..)
theorem supplies_haspReap (wd id : Nat) (s : State) : Supplies wd s (haspReap id s) := by
  unfold haspReap
  split
  · exact .ite (supplies_hasps ..) (.refl wd s)
  · exact .refl wd s
theorem supplies_dropHasps (wd slot k : Nat) (old : List (Option Nat)) (s : State) : Supplies wd s (dropHasps slot k old s) := by
  refine .foldl (fun s h => ?_) _ s
  split
  · exact (supplies_hasps ..).trans (supplies_haspReap ..)
  · exact .refl wd s
end

/-! ## CTX_CREATE (10 R352, R353) -/

theorem exec_ctxCreate (fn seq : Nat) (s : State) : exec (.ctxCreate fn seq) s = execCtxCreate fn seq s := rfl
theorem slotOf_modSlot_same (i : Nat) (g : Slot → Slot) (s : State) : slotOf (modSlot i g s) i = g (slotOf s i) := by
  rw [slotOf_modSlot, if_pos rfl]
theorem slotOf_modSlot_other {i j : Nat} (g : Slot → Slot) (s : State) (h : j ≠ i) : slotOf (modSlot i g s) j = slotOf s j := by
  rw [slotOf_modSlot, if_neg h]

/-- A slot that a context takes. -/
def enlivened (y : Slot) : Slot := { y with state := .live, perfUser := false }
/-- The state as a context that takes a slot leaves it. -/
def settled (slot : Nat) (x : Ctx) (m : State) : State := modSlot slot enlivened { m with ctxs := tput m.ctxs slot x }
/-- A context as it is created: its block in force, its ring at the start, and its rate of hasps. -/
structure Fresh (wd : Nat) (b : Bytes) (gen : Nat) (x : Ctx) : Prop where
  ward : x.ward = wd
  gen : x.gen = gen
  cfg : x.cfg = b
  cfgInForce : x.cfgInForce = b
  ring : x.ring = ctxRing b
  head : x.head = none
  image : x.image = none
  hasps : x.hasps.length = cbHasps b

section
variable {fn seq slot : Nat} {s : State}
theorem createCtx_settles (b : Bytes) (s : State) :
    ∃ m x, Supplies fn s m ∧ Fresh fn b (slotOf s slot).gen x ∧ (createCtx fn slot b s).2 = settled slot x m :=
  ⟨_, _, ((((supplies_takeGeneral ..).trans (supplies_take ..)).trans (supplies_take ..)).trans (supplies_takeStaging ..)).trans
    (supplies_takeHasps ..), ⟨rfl, rfl, rfl, rfl, rfl, rfl, rfl, takeHasps_length ..⟩, rfl⟩
theorem ctxCreateGo_creates {b : Bytes} (room : limitReached s fn = false) (good : ctxBlockBad s { ward := fn } b = none)
    (free : freeSlot s = some slot) : ctxCreateGo fn seq b s =
      completeOk (.admin fn) seq (createResult slot (slotOf s slot).gen (createCtx fn slot b s).1) (createCtx fn slot b s).2 := by
  simp [ctxCreateGo, room, good, free]

variable (slot) (x : Ctx) (m : State)
theorem keepsRing_settled (fn : Nat) : KeepsRing (.admin fn) m (settled slot x m) := ⟨rfl, rfl, id⟩
theorem slotOf_settled_same : slotOf (settled slot x m) slot = enlivened (slotOf m slot) := slotOf_modSlot_same ..
theorem slotOf_settled_other {i : Nat} (h : i ≠ slot) : slotOf (settled slot x m) i = slotOf m i := slotOf_modSlot_other enlivened _ h
theorem ctxOf_settled_same : ctxOf (settled slot x m) slot = some x := tget_tput_same ..
theorem ctxOf_settled_other {i : Nat} (h : i ≠ slot) : ctxOf (settled slot x m) i = ctxOf m i := tget_tput_other _ _ _ _ h
end

/-! ## CTX_CONFIGURE (11 R401) -/

theorem exec_ctxConfigure (slot seq : Nat) (s : State) : exec (.ctxConfigure slot seq) s = execCtxConfigure slot seq s := rfl

/-- A context with a bin pool of a new size. -/
def withPool (new : Nat) (c : Ctx) : Ctx := { c with pool := new }
/-- A context under a new block. -/
def underBlock (now : Nat) (x : Ctx) (b : Bytes) (hasps : List (Option Nat)) (c : Ctx) : Ctx :=
  { noteGraph now c with
    cfg := b, fr := replan x.cfg b { c.fr with held := if cbReplay b then c.fr.held else [] }, hasps := hasps
    bandLatches := if cbFlow b then flowBands b else if x.graph.isSome then c.bandLatches else 0 }

section
variable {slot seq : Nat} {s : State} {x : Ctx} {b : Bytes}
theorem ctxConfigureGo_accepts {raw : Bytes} (good : ctxBlockBad s (ctxEnv s slot x) (keepCreation x.cfg raw) = none) :
    ctxConfigureGo slot seq x raw s = completeOk (.ctx slot) seq [] (applyCtx slot x (keepCreation x.cfg raw) s) := by
  simp only [ctxConfigureGo, good]

theorem resizePool_eq (slot wd new : Nat) (x : Ctx) (s : State) :
    ∃ m, Supplies wd s m ∧ resizePool slot wd new x s = modCtx slot (withPool new) m :=
  ⟨_, .ite (supplies_modWard ..) (.ite (supplies_take ..) (.refl wd s)), rfl⟩
/-- A new block gives and takes memory and hasps, and changes its context. -/
theorem applyCtx_eq (slot : Nat) (x : Ctx) (b : Bytes) (s : State) : ∃ m n hasps, Supplies x.ward s m ∧
    Supplies x.ward (modCtx slot (withPool (poolAfter (ctxEnv s slot x) b)) m) n ∧
    applyCtx slot x b s = modCtx slot (underBlock s.now x b hasps) n := by
  obtain ⟨m, given, pool⟩ := resizePool_eq slot x.ward (poolAfter (ctxEnv s slot x) b) x s
  exact ⟨m, _, _, given, pool ▸ ((((supplies_resizeObject ..).trans (supplies_resizeObject ..)).trans (supplies_resizeStaging ..)).trans
    (supplies_dropHasps ..)).trans (supplies_takeHasps ..), rfl⟩

theorem noteGraph_eq (now : Nat) (x : Ctx) : ∃ g, noteGraph now x = { x with graphOld := g } := by
  unfold noteGraph
  split
  · exact ⟨x.graphOld, rfl⟩
  · exact ⟨_, rfl⟩
theorem underBlock_ring (now : Nat) (x : Ctx) (b : Bytes) (hasps : List (Option Nat)) (c : Ctx) : (underBlock now x b hasps c).ring = c.ring := by
  obtain ⟨g, h⟩ := noteGraph_eq now c
  rw [underBlock, h]
/-- What a new block leaves of the device, and of its context. -/
structure Reconfigured (slot : Nat) (b : Bytes) (s n : State) : Prop where
  ring : KeepsRing (.ctx slot) s n
  slots : n.slots = s.slots
  others : ∀ i, i ≠ slot → ctxOf n i = ctxOf s i
  cfg : (ctxOf n slot).map (·.cfg) = (ctxOf s slot).map (fun _ => b)
  inForce : (ctxOf n slot).map (·.cfgInForce) = (ctxOf s slot).map (·.cfgInForce)
  bound : (ctxOf n slot).map (fun y => (y.ward, y.gen, y.head, y.image)) = (ctxOf s slot).map (fun y => (y.ward, y.gen, y.head, y.image))
theorem applyCtx_reconfigures (slot : Nat) (x : Ctx) (b : Bytes) (s : State) : Reconfigured slot b s (applyCtx slot x b s) := by
  obtain ⟨m, n, hasps, before, after, eq⟩ := applyCtx_eq slot x b s
  have own : ctxOf (modCtx slot (underBlock s.now x b hasps) n) slot =
      (ctxOf s slot).map (fun c => underBlock s.now x b hasps (withPool (poolAfter (ctxEnv s slot x) b) c)) := by
    rw [ctxOf_modCtx, if_pos rfl, ctxOf, after.ctxs, ← ctxOf, ctxOf_modCtx, if_pos rfl, ctxOf, before.ctxs, Option.map_map]
    rfl
  have view {β : Type} {v w : Ctx → β} (h : ∀ c, v (underBlock s.now x b hasps (withPool (poolAfter (ctxEnv s slot x) b) c)) = w c) :
      (ctxOf (modCtx slot (underBlock s.now x b hasps) n) slot).map v = (ctxOf s slot).map w := by
    rw [own, Option.map_map]
    exact congrArg (Option.map · _) (funext h)
  rw [eq]
  refine ⟨?ring, after.slots.trans before.slots, fun i hi => ?others, view fun _ => rfl, view fun c => ?inForce, view fun c => ?bound⟩
  case ring =>
    exact (((before.keepsRing _).trans (keepsRing_modCtx (g := withPool _) (fun _ => rfl) slot m)).trans (after.keepsRing _)).trans
      (keepsRing_modCtx (underBlock_ring s.now x b hasps) slot n)
  case others =>
    rw [ctxOf_modCtx, if_neg hi, ctxOf, after.ctxs, ← ctxOf, ctxOf_modCtx, if_neg hi, ctxOf, before.ctxs, ← ctxOf]
  all_goals
    obtain ⟨g, h⟩ := noteGraph_eq s.now (withPool (poolAfter (ctxEnv s slot x) b) c)
    rw [underBlock, h]
    rfl
end

/-! ## The beginning of a teardown (10 R376, R377; 11 R404) -/

theorem exec_ctxDestroy (fn seq : Nat) (s : State) : exec (.ctxDestroy fn seq) s = execCtxDestroy fn seq s := rfl

/-- A command whose destroy waits for the teardown of a slot. -/
def waitingDestroy (slot : Nat) (c : Cmd) : Cmd := { c with started := true, aux := slot }
theorem execCtxDestroy_begins {fn seq : Nat} {s : State} {c : Cmd} {x : Ctx} (hc : readyCmd (.admin fn) seq 0x05 s = some c)
    (fresh : c.started = false) (known : entArg c.entry 0 < 1024) (gen : (slotOf s (entArg c.entry 0)).gen = entArg c.entry 1)
    (live : (slotOf s (entArg c.entry 0)).state = .live) (hx : ctxOf s (entArg c.entry 0) = some x) (own : x.ward = fn) :
    execCtxDestroy fn seq s =
      .next (modCmd (.admin fn) seq (waitingDestroy (entArg c.entry 0)) (startTeardown (entArg c.entry 0) {} s)) := by
  subst own
  simp [execCtxDestroy, need, hc, guardThat, fresh, ctxDestroyGo, known, gen, live, hx, isHeld]
  rfl

/-- A state without the work of a context: its threads, its tasks, and what its head shows of it. -/
def withoutWork (slot : Nat) (s : State) : State :=
  { s with
    cores := s.cores.map (fun x => (x.1, coreDropCtx s slot x.2))
    tasks := s.tasks.filter (fun x => x.2.slot != slot)
    heads := s.heads.map (fun x => (x.1, headDropCtx slot x.2)) }
/-- A slot whose context is being torn down. -/
def tearing (y : Slot) : Slot := { y with state := .teardown }
/-- A ward without the growth that a context waits for. -/
def withoutGrowth (slot : Nat) (w : Ward) : Ward := { w with growthWait := w.growthWait.filter (·.slot != slot) }

/-- The state as the beginning of a teardown leaves it, after the hasps and the messages. -/
def stopped (slot : Nat) (r : FaultReport) (now : Nat) (wd : Nat) (m : State) : State :=
  modSlot slot tearing (modCtx slot (fun c => ctxStopped r { c with ring := untail now c.ring })
    (modWard wd (withoutGrowth slot) (withoutWork slot m)))

/-- The teardown of a live context ends its work. -/
theorem startTeardown_live {slot : Nat} {s : State} (live : (slotOf s slot).state = .live) (r : FaultReport) : ∃ m, Say.HaspSide s m ∧
    startTeardown slot r s = stopped slot { r with raisedAt := s.now } s.now ((ctxOf s slot).getD {}).ward m := by
  refine ⟨goneWaiters ((ctxOf s slot).getD {}) (sendGone slot ((ctxOf s slot).getD {}) (haspTeardown slot s)),
    ((Say.haspTeardown_haspSide slot s).trans (Say.sendGone_hingeSide ..).haspSide).trans (Say.goneWaiters_hingeSide ..).haspSide, ?_⟩
  unfold startTeardown
  rw [if_neg (by rw [live]; decide), if_neg (by rw [live]; decide)]
  rfl
theorem slotOf_of_slots {s n : State} (h : n.slots = s.slots) (i : Nat) : slotOf n i = slotOf s i := by rw [slotOf, h, ← slotOf]
/-- What the beginning of a teardown does to its slot, its context and the tasks. -/
structure BeginsTeardown (slot : Nat) (r : FaultReport) (s n : State) : Prop where
  own : slotOf n slot = tearing (slotOf s slot)
  others : ∀ i, i ≠ slot → slotOf n i = slotOf s i
  fault : ∀ x, ctxOf s slot = some x → (ctxOf n slot).bind (·.fault) = some r
  tasks : ∀ k ∈ n.tasks, k.2.slot ≠ slot
theorem startTeardown_begins {slot : Nat} {s : State} (live : (slotOf s slot).state = .live) (r : FaultReport) :
    BeginsTeardown slot { r with raisedAt := s.now } s (startTeardown slot r s) := by
  obtain ⟨m, side, eq⟩ := startTeardown_live live r
  rw [eq]
  refine ⟨?_, fun i hi => ?_, fun x hx => ?_, fun k hk => by simpa using (List.mem_filter.mp hk).2⟩
  · exact (slotOf_modSlot_same ..).trans (congrArg tearing (slotOf_of_slots side.slots slot))
  · exact (slotOf_modSlot_other tearing _ hi).trans (slotOf_of_slots side.slots i)
  · exact Say.fault_of_stopped (fun c => { c with ring := untail s.now c.ring }) ((congrArg (tget · slot) side.ctxs).trans hx)

/-! ## The end of a teardown (10 R352, R377) -/

theorem exec_teardownComplete (slot : Nat) (s : State) : exec (.teardownComplete slot) s = execTeardownComplete slot s := rfl
theorem execTeardownComplete_next {slot : Nat} {s : State} {x : Ctx} (torn : (slotOf s slot).state = .teardown)
    (steady : s.fw.switching = false) (hx : ctxOf s slot = some x) : execTeardownComplete slot s = .next (finishTeardown slot x s) := by
  simp [execTeardownComplete, guardThat, need, torn, steady, hx]

/-- A slot that is torn down stands. -/
structure TornStands (slot : Nat) (s n : State) : Prop where
  slot : (slotOf s slot).state = .teardown → slotOf n slot = slotOf s slot

section
variable {slot : Nat} {s m n : State}
theorem TornStands.of_slots (h : n.slots = s.slots) : TornStands slot s n := ⟨fun _ => slotOf_of_slots h slot⟩
theorem TornStands.trans (a : TornStands slot s m) (b : TornStands slot m n) : TornStands slot s n :=
  ⟨fun torn => (b.slot ((congrArg Slot.state (a.slot torn)).trans torn)).trans (a.slot torn)⟩
theorem TornStands.foldl {α : Type} {f : State → α → State} (hf : ∀ s a, TornStands slot s (f s a)) (l : List α) (s : State) :
    TornStands slot s (l.foldl f s) :=
  List.foldlRecOn l f (.of_slots rfl) (fun _ h a _ => h.trans (hf _ a))
theorem tornStands_recordless (h : recordless n = recordless s) : TornStands slot s n := .of_slots (tables_of_recordless h).1
theorem tornStands_startTeardown (slot i : Nat) (r : FaultReport) (s : State) : TornStands slot s (startTeardown i r s) := by
  refine ⟨fun torn => ?_⟩
  by_cases live : (slotOf s i).state = .live
  · exact (startTeardown_begins live r).others slot fun e => by rw [e, live] at torn; cases torn
  · unfold startTeardown
    dsimp only
    split <;> rfl
theorem tornStands_parkedFault (t : ThreadRef) (reason : Nat) (s : State) : TornStands slot s (parkedFault t reason s) := by
  unfold parkedFault
  split
  · exact .of_slots rfl
  · exact tornStands_startTeardown ..
theorem tornStands_openRecord (t : ThreadRef) (op dst : Nat) (e : RemoteRange) (r : Nat) (k : Task) (s : State) :
    TornStands slot s (openRecord t op dst e r k s) := by
  unfold openRecord
  dsimp only
  split
  · exact tornStands_startTeardown ..
  · exact .of_slots ((Say.sendFor_hingeSide ..).haspSide.slots)
theorem tornStands_startRemote (t : ThreadRef) (op r dst : Nat) (s : State) : TornStands slot s (startRemote t op r dst s) := by
  unfold startRemote
  split
  · exact .of_slots rfl
  · split
    · exact tornStands_parkedFault ..
    · split
      · exact .of_slots rfl
      · split
        · exact tornStands_openRecord ..
        · exact .of_slots rfl
theorem tornStands_retryRemote (t : ThreadRef) (s : State) : TornStands slot s (retryRemote t s) := by
  unfold retryRemote
  split
  · exact TornStands.trans (m := modThread t _ s) (.of_slots rfl) (tornStands_startRemote ..)
  · exact .of_slots rfl
theorem tornStands_cancelRecords (slot i wd : Nat) (s : State) : TornStands slot s (cancelRecords i wd s) := by
  refine TornStands.trans (m := { s with remotes := s.remotes.filter (fun r => r.2.slot != i) }) (.of_slots rfl) (.foldl (fun s t => ?_) _ _)
  split
  · exact tornStands_retryRemote ..
  · exact .of_slots rfl
theorem tornStands_dropEngineWork (slot i : Nat) (s : State) : TornStands slot s (dropEngineWork i s) :=
  .of_slots (congrArg State.slots (settleDetect_rest _) :)
end

/-! ## What a teardown posts -/

section
variable (slot : Nat) (s : State)
theorem recordless_endCommands (r : FaultReport) : recordless (endCommands slot r s) = recordless s := by
  refine foldl_view (fun s c => ?_) _ s
  split <;> exact recordless_complete ..
theorem recordless_postFault (fn : Nat) (r : FaultReport) : recordless (postFault slot fn r s) = recordless s :=
  (recordless_postOther ..).trans (recordless_postAlways ..)
theorem recordless_postAccounting (x : Ctx) : recordless (postAccounting slot x s) = recordless s :=
  (recordless_postAlways ..).trans (recordless_hostWrite ..)
theorem recordless_endDestroys (wd : Nat) : recordless (endDestroys slot wd s) = recordless s := by
  refine foldl_view (fun s fn => foldl_view (fun s c => ?_) _ s) _ s
  split
  · rfl
  · split
    · exact recordless_complete ..
    · split
      · exact recordless_complete ..
      · rfl
end

/-- A slot that is freed, or retired at its last generation. -/
def freedSlot (y : Slot) : Slot :=
  if y.gen = 0xFFFF then { y with state := .retired, perfUser := false } else { state := .free, gen := y.gen + 1 }
/-- A teardown ends with the records, the memory and the slot, in this order. -/
theorem finishTeardown_eq (slot : Nat) (x : Ctx) (s : State) : ∃ m, TornStands slot s m ∧
    finishTeardown slot x s = endDestroys slot x.ward (freeCtxSlot slot (returnMemory slot x m)) := by
  refine ⟨_, ?_, rfl⟩
  have ended : TornStands slot s (endCommands slot (x.fault.getD {}) (dropEngineWork slot (cancelRecords slot x.ward s))) :=
    ((tornStands_cancelRecords ..).trans (tornStands_dropEngineWork ..)).trans (tornStands_recordless (recordless_endCommands ..))
  refine TornStands.trans ?_ (tornStands_recordless (recordless_postAccounting ..))
  split
  · exact ended.trans (tornStands_recordless (recordless_postFault ..))
  · exact ended
theorem slotOf_freeCtxSlot (slot : Nat) (s : State) : slotOf (freeCtxSlot slot s) slot = freedSlot (slotOf s slot) :=
  slotOf_modSlot_same slot freedSlot { s with ctxs := tdel s.ctxs slot }
theorem freedSlot_state (y : Slot) : (freedSlot y).state = if y.gen = 0xFFFF then .retired else .free := by
  unfold freedSlot
  split <;> rfl
theorem freedSlot_gen (y : Slot) : (freedSlot y).gen = if y.gen = 0xFFFF then 0xFFFF else y.gen + 1 := by
  unfold freedSlot
  split
  · next last => exact last
  · rfl
/-- A state has no ward at a place, or a change of that ward shows there. -/
theorem wardOf_modWard_cases (wd : Nat) (g : Ward → Ward) (s : State) :
    wardOf (modWard wd g s) wd = g (wardOf s wd) ∨ wardOf (modWard wd g s) wd = {} := by
  by_cases h : wd < s.wards.length
  · exact .inl (wardOf_modWard_same g h)
  · refine .inr ?_
    have beyond : (modWard wd g s).wards.length ≤ wd := by rw [modWard_wards_length]; exact Nat.le_of_not_lt h
    rw [wardOf, List.getD_eq_default _ _ beyond]
/-- No allocation of a context stays in its ward. -/
theorem allocs_returnMemory (slot : Nat) (x : Ctx) (s : State) : ∀ a ∈ (wardOf (returnMemory slot x s) x.ward).allocs, ofCtx slot a = false := by
  have released : ∀ a ∈ (wardOf (release x.ward (ofCtx slot) s) x.ward).allocs, ofCtx slot a = false := by
    intro a ha
    rcases wardOf_modWard_cases x.ward _ s with h | h
    · rw [release, h] at ha
      simpa using (List.mem_filter.mp ha).2
    · rw [release, h] at ha
      cases ha
  intro a ha
  unfold returnMemory at ha
  rcases wardOf_modWard_cases x.ward _ (release x.ward (ofCtx slot) s) with h | h
  · rw [h] at ha
    split at ha
    · obtain ⟨b, hb, rfl⟩ := List.mem_map.mp ha
      split
      · rfl
      · exact released b hb
    · exact released a ha
  · rw [h] at ha
    cases ha

end Sys2Proof.Machine

namespace Sys2Proof.Say
open Sys2Proof.Machine

/-- Settles O32: a creation gives its ward's memory and hasps and settles a slot (`settled`), a new block does the same and changes its context
(`applyCtx_reconfigures`), and a teardown stops a live context's work (`startTeardown_begins`) and at its end
returns the memory and frees the slot. -/
theorem contextLifecycle : Obligations.ContextLifecycle := by
  unfold Obligations.ContextLifecycle
  refine ⟨fun s fn seq c slot hs hfn hc => ?create, fun s slot seq c x hc hx => ?configure, fun s fn seq c x hc fresh => ?destroy,
    fun s slot x hs torn steady hx hward => ?finish⟩
  case create =>
    intro b room good free
    obtain ⟨m, x, given, made, eq⟩ := createCtx_settles (fn := fn) (slot := slot) b s
    have run := (exec_ctxCreate fn seq s).trans (command_next (fun c s => ctxCreateGo fn seq (hostRead s (entAddr0 c.entry) 256) s) hc)
    have ctx (i : Nat) : ctxOf (completeOk (.admin fn) seq (createResult slot (slotOf s slot).gen (createCtx fn slot b s).1) (settled slot x m)) i =
        ctxOf (settled slot x m) i := congrArg (tget · i) (complete_admin_ctxs ..)
    refine ⟨_, run.trans (congrArg _ ((ctxCreateGo_creates room good free).trans (congrArg _ eq))),
      complete_answered_after 0 0 _ hc ((given.keepsRing _).trans (keepsRing_settled ..)), ?own, fun i hi => ?slots, fun i hi => ?ctxs,
      fun w hw => ?wards,
      x, (ctx slot).trans (ctxOf_settled_same ..), made.ward, made.gen, made.cfg, made.cfgInForce, made.ring, made.head, made.image, made.hasps⟩
    case own =>
      rw [completeOk, slotOf_of_slots (complete_slots ..), slotOf_settled_same, slotOf_of_slots given.slots]
      rfl
    case slots => rw [completeOk, slotOf_of_slots (complete_slots ..), slotOf_settled_other _ _ _ hi, slotOf_of_slots given.slots]
    case ctxs => rw [ctx, ctxOf_settled_other _ _ _ hi, ctxOf, given.ctxs, ← ctxOf]
    case wards => exact (wardOf_complete ..).trans (given.others w hw)
  case configure =>
    intro b good
    have done := applyCtx_reconfigures slot x b (chargeHost slot 256 0 s)
    have charged : KeepsFrame slot s (chargeHost slot 256 0 s) := modAcct_keepsFrame slot _ s
    obtain ⟨y, hy, same⟩ := Option.map_eq_some_iff.mp (charged.ctx.trans (congrArg (Option.map frameSide) hx))
    have kept := recordless_complete (.ctx slot) seq 0 0 [] (applyCtx slot x b (chargeHost slot 256 0 s))
    have run := (exec_ctxConfigure slot seq s).trans (ctxCommand_next _ hc hx)
    refine ⟨_, run.trans (congrArg _ (ctxConfigureGo_accepts good)), complete_answered_after 0 0 [] hc ((keepsRing_chargeHost ..).trans done.ring),
      (complete_slots ..).trans done.slots, (ctx_map_of_recordless (fun _ => rfl) kept slot).trans (done.cfg.trans ?_),
      (ctx_map_of_recordless (fun _ => rfl) kept slot).trans (done.inForce.trans ?_),
      (ctx_map_of_recordless (fun _ => rfl) kept slot).trans (done.bound.trans ?_),
      fun i hi => (((complete_keepsFrame ..).ctxs i hi).trans (done.others i hi)).trans (charged.ctxs i hi)⟩
    all_goals rw [hy]
    · rfl
    · exact congrArg (fun z => some z.cfgInForce) same
    · exact congrArg (fun z => some (z.ward, z.gen, z.head, z.image)) same
  case destroy =>
    intro slot known gen live hx own
    have begun := startTeardown_begins live {}
    exact ⟨_, (exec_ctxDestroy fn seq s).trans (execCtxDestroy_begins hc fresh known gen live hx own), congrArg Slot.state begun.own,
      (congrArg (Option.map FaultReport.isFault) (begun.fault x hx) :), begun.tasks, begun.others⟩
  case finish =>
    obtain ⟨m, stands, eq⟩ := finishTeardown_eq slot x s
    have kept := recordless_endDestroys slot (freeCtxSlot slot (returnMemory slot x m)) x.ward
    have own : slotOf (finishTeardown slot x s) slot = freedSlot (slotOf s slot) := by
      rw [eq, slotOf_of_slots (tables_of_recordless kept).1, slotOf_freeCtxSlot, ← stands.slot torn]
      rfl
    refine ⟨_, (exec_teardownComplete slot s).trans (execTeardownComplete_next torn steady hx), (congrArg Slot.state own).trans (freedSlot_state _),
      (congrArg Slot.gen own).trans (freedSlot_gen _), fun a ha => ?_⟩
    rw [eq, wardOf_of_recordless kept] at ha
    exact allocs_returnMemory slot x m a ha

end Sys2Proof.Say
end

section
/-! PROOFS. HASP_GRANT, HASP_RELEASE and ACCT_QUERY (10 R365, R381–R383). -/
namespace Sys2Proof.Machine

theorem exec_haspGrant (slot seq : Nat) (s : State) : exec (.haspGrant slot seq) s = execHaspGrant slot seq s := rfl
theorem exec_haspRelease (slot seq : Nat) (s : State) : exec (.haspRelease slot seq) s = execHaspRelease slot seq s := rfl
theorem exec_acctQuery (slot seq : Nat) (s : State) : exec (.acctQuery slot seq) s = execAcctQuery slot seq s := rfl

/-- The answer of a command leaves the hasps. -/
theorem complete_hasps (r : RingRef) (seq code reason : Nat) (result : Bytes) (s : State) :
    (complete r seq code reason result s).hasps = s.hasps := (congrArg State.hasps (recordless_complete r seq code reason result s) :)

/-! ## HASP_GRANT (10 R365) -/

/-- A context with an index for a granted hasp. -/
def grantedAt (i id : Nat) (y : Ctx) : Ctx := { y with granted := tput y.granted i id }
/-- A hasp with one grant more. -/
def grantedTo (g i : Nat) (h : Hasp) : Hasp := { h with grants := h.grants ++ [(g, i)] }
/-- The state as a grant leaves it. -/
def afterGrant (g i id : Nat) (s : State) : State := modHasp id (grantedTo g i) (modCtx g (grantedAt i id) s)

section
variable {slot seq g id : Nat} {c : Cmd} {x y : Ctx} {h : Hasp} {s : State}
theorem haspGrantGo_grants (own : entArg c.entry 0 < 4096) (hid : haspAt x (entArg c.entry 0) = some id)
    (named : namedCtx s (entArg c.entry 1) (entArg c.entry 2) = some y) (ward : y.ward = x.ward) (other : entArg c.entry 1 ≠ slot)
    (hh : tget s.hasps id = some h) (few : h.grants.length < 64) (fresh : y.granted.all (fun e => e.2 != id) = true)
    (room : freeKeyFrom y.granted 4096 < 8192) : haspGrantGo slot seq c x s =
      completeOk (.ctx slot) seq (natLe 4 (freeKeyFrom y.granted 4096)) (afterGrant (entArg c.entry 1) (freeKeyFrom y.granted 4096) id s) := by
  have ungranted : y.granted.any (fun e => e.2 == id) = false := by simpa using fresh
  simp only [haspGrantGo, own, if_true, hid, named, ward, other, hh, ungranted, Option.map_some, Option.getD_some, ne_eq, not_true_eq_false,
    Bool.false_eq_true, or_self, if_false, Nat.not_le.mpr few, Nat.not_le.mpr room]
  rfl
theorem keepsRing_afterGrant (slot g i id : Nat) (s : State) : KeepsRing (.ctx slot) s (afterGrant g i id s) :=
  ⟨(sameRings_modCtx (g := grantedAt i id) (fun _ => rfl) g s).rings slot, rfl, fun h => h⟩
theorem granted_afterGrant (i id : Nat) (hy : ctxOf s g = some y) :
    (ctxOf (afterGrant g i id s) g).map (·.granted) = some (tput y.granted i id) :=
  congrArg (Option.map (·.granted)) ((tget_tmod_same s.ctxs g (grantedAt i id)).trans (congrArg _ hy))
theorem hasps_afterGrant (g i : Nat) (hh : tget s.hasps id = some h) : tget (afterGrant g i id s).hasps id = some (grantedTo g i h) :=
  (tget_tmod_same s.hasps id (grantedTo g i)).trans (congrArg _ hh)
end

/-! ## HASP_RELEASE (10 R365) -/

/-- A context without its own or granted hasp of an index. -/
def givenUp (i : Nat) (y : Ctx) : Ctx :=
  { y with hasps := if i < 4096 then y.hasps.set i none else y.hasps, granted := if i < 4096 then y.granted else tdel y.granted i }
/-- A hasp without its owner, or without a grant. -/
def gaveUp (slot i : Nat) (h : Hasp) : Hasp :=
  { h with owner := if i < 4096 then none else h.owner, grants := if i < 4096 then h.grants else h.grants.filter (· != (slot, i)) }
/-- The state as a release leaves it: the hasp goes with its last holder of an index. -/
def afterRelease (slot i id : Nat) (s : State) : State := haspReap id (modHasp id (gaveUp slot i) (modCtx slot (givenUp i) s))

section
variable {slot seq id : Nat} {c : Cmd} {x : Ctx} {h : Hasp} {s : State}
theorem haspReleaseGo_releases (hid : haspAt x (entArg c.entry 0) = some id) (hh : tget s.hasps id = some h) (unheld : tgetD h.held slot 0 = 0)
    (unparked : h.parked = []) : haspReleaseGo slot seq c x s = completeOk (.ctx slot) seq [] (afterRelease slot (entArg c.entry 0) id s) := by
  simp only [haspReleaseGo, hid, hh, Option.getD_some, unheld, unparked, List.any_nil, Nat.lt_irrefl, Bool.false_eq_true, or_self, if_false]
  rfl
theorem afterRelease_side (slot i id : Nat) (s : State) : Say.HaspSide (modCtx slot (givenUp i) s) (afterRelease slot i id s) :=
  (Say.modHasp_haspSide id (gaveUp slot i) _).trans (Say.haspReap_haspSide ..)
theorem afterRelease_eq (slot i id : Nat) (s : State) : ∃ t, afterRelease slot i id s = { modCtx slot (givenUp i) s with hasps := t } := by
  unfold afterRelease haspReap
  split
  · split <;> exact ⟨_, rfl⟩
  · exact ⟨_, rfl⟩
theorem keepsRing_afterRelease (slot i id : Nat) (s : State) : KeepsRing (.ctx slot) s (afterRelease slot i id s) := by
  obtain ⟨t, eq⟩ := afterRelease_eq slot i id s
  exact eq ▸ ⟨(keepsRing_modCtx (g := givenUp i) (fun _ => rfl) slot s).ring, rfl, fun h => h⟩
theorem ctxOf_afterRelease (i id : Nat) (hx : ctxOf s slot = some x) : ctxOf (afterRelease slot i id s) slot = some (givenUp i x) :=
  (congrArg (tget · slot) (afterRelease_side slot i id s).ctxs).trans ((tget_tmod_same s.ctxs slot (givenUp i)).trans (congrArg _ hx))
end

/-! ## ACCT_QUERY (10 R381–R383) -/

theorem acctRecord_length (s : State) (slot gen : Nat) (a : Account) : (acctRecord s slot gen a).length = 128 := by
  simp [acctRecord]
/-- The state as a query leaves it before its answer: the record stands in host memory, and is charged. -/
def queried (slot addr : Nat) (b : Bytes) (s : State) : State := chargeHost slot 0 128 (hostWrite addr b s)
theorem queried_hostMem (slot addr : Nat) (b : Bytes) (s : State) : (queried slot addr b s).hostMem = Mem.writeN s.hostMem addr b := rfl
theorem keepsRing_queried (slot addr : Nat) (b : Bytes) (s : State) : KeepsRing (.ctx slot) s (queried slot addr b s) :=
  (keepsRing_hostWrite ..).trans (keepsRing_chargeHost ..)
theorem queried_wards (slot addr : Nat) (b : Bytes) (s : State) : (queried slot addr b s).wards = s.wards := rfl
theorem queried_slots (slot addr : Nat) (b : Bytes) (s : State) : (queried slot addr b s).slots = s.slots := rfl
theorem execAcctQuery_next {slot seq : Nat} {c : Cmd} {x : Ctx} {s : State} (hc : readyCmd (.ctx slot) seq 0x35 s = some c)
    (hx : ctxOf s slot = some x) :
    execAcctQuery slot seq s = .next (completeOk (.ctx slot) seq [] (queried slot (entAddr0 c.entry) (acctRecord s slot x.gen x.acct) s)) :=
  ctxCommand_next _ hc hx

end Sys2Proof.Machine

namespace Sys2Proof.Say
open Sys2Proof.Machine

/-- Settles O33: a grant and a release each change a context's indices and a hasp (`afterGrant`, `afterRelease`), and a query writes the record
before its answer, which leaves every byte outside the completion queue (`complete_hostMem_outside`). -/
theorem grantsAndAccounts : Obligations.GrantsAndAccounts := by
  unfold Obligations.GrantsAndAccounts
  refine ⟨fun s slot seq c x id y h hc hx => ?grant, fun s slot seq c x id h hc hx => ?release, fun s slot seq c x hc hx => ?query⟩
  case grant =>
    intro g own hid named ward other hh few fresh room
    have kept := recordless_complete (.ctx slot) seq 0 0 (natLe 4 (freeKeyFrom y.granted 4096)) (afterGrant g (freeKeyFrom y.granted 4096) id s)
    refine ⟨_, ((exec_haspGrant slot seq s).trans (ctxCommand_next _ hc hx)).trans
      (congrArg _ (haspGrantGo_grants own hid named ward other hh few fresh room)), completeOk_result_after _ hc (keepsRing_afterGrant ..),
      (ctx_map_of_recordless (fun _ => rfl) kept g).trans (granted_afterGrant _ id (ctxOf_of_namedCtx named)), ?_,
      complete_wards .., complete_slots ..⟩
    rw [completeOk, complete_hasps]
    exact hasps_afterGrant g _ hh
  case release =>
    intro i hid hh unheld unparked
    have kept := recordless_complete (.ctx slot) seq 0 0 [] (afterRelease slot i id s)
    have side := afterRelease_side slot i id s
    have indices := (ctx_map_of_recordless (v := fun y => (y.hasps, y.granted)) (fun _ => rfl) kept slot).trans
      (congrArg (Option.map _) (ctxOf_afterRelease i id hx))
    refine ⟨_, ((exec_haspRelease slot seq s).trans (ctxCommand_next _ hc hx)).trans (congrArg _ (haspReleaseGo_releases hid hh unheld unparked)),
      complete_answered_after 0 0 [] hc (keepsRing_afterRelease ..), (complete_wards ..).trans side.wards, (complete_slots ..).trans side.slots,
      fun own => indices.trans ?_, fun granted => indices.trans ?_⟩
    · simp only [Option.map_some, givenUp, own, if_true]
    · simp only [Option.map_some, givenUp, Nat.not_lt.mpr granted, if_false]
  case query =>
    have kept := keepsRing_queried slot (entAddr0 c.entry) (acctRecord s slot x.gen x.acct) s
    refine ⟨_, (exec_acctQuery slot seq s).trans (execAcctQuery_next hc hx), complete_answered_after 0 0 [] hc kept,
      (complete_wards ..).trans (queried_wards ..), (complete_slots ..).trans (queried_slots ..), fun g a hg hwf hlost low high outside => ?_⟩
    subst hg
    obtain ⟨hcmd, running, steady⟩ := readyCmd_some hc
    have hring : ringOf s (.ctx slot) = some x.ring := congrArg (Option.map _) hx
    have stands := complete_hostMem_outside 0 0 [] ((cmdOf_of_keepsRing kept seq).trans hcmd) ((congrArg Firmware.running kept.fw).trans running)
      ((congrArg Firmware.switching kept.fw).trans steady) (kept.ring.trans hring) hlost outside
    refine stands.trans ?_
    rw [queried_hostMem, Mem.read_writeN hwf, acctRecord_length, if_pos ⟨low, high⟩]

end Sys2Proof.Say
end

section
/-! PROOFS. Tasks on cores (10 R356–R363): a core that takes a task back while one of the task's threads stands on it. -/
namespace Sys2Proof.Machine

/-- Core 1 has stolen task 7 from core 0 in this fabric cycle, and a thread of the task stands on core 0. -/
def strayThread : State :=
  { State.reset with
    slots := [(0, { state := .live })], ctxs := [(0, {})]
    cores := [(0, { mode := .running, threads := [(0, { task := 7 })] }), (1, { mode := .running })]
    tasks := [(7, { core := 1, started := true, stolenFrom := some 0, threads := 1 })] }
/-- The thread slots in use on a core of the state that a step answers. -/
def slotsInUse (core : Nat) : Out → List Nat
  | .next n => (coreOf n core).threads.map Prod.fst
  | _ => []

/-- Core 0 takes the task back, of which it then has a place for one thread. -/
theorem strayThread_fits : (firstFit strayThread 0 0 (fun _ => true)).map (fun x => (x.1, (taskSize strayThread x.2).1)) = some (7, 1) := by
  decide +kernel
/-- The thread stands in the slot that the stray one held, which went with its task's claim on core 1. -/
theorem strayThread_slots : slotsInUse 0 (exec (.taskAdmit 0) strayThread) = [0] := by decide +kernel

/-- The slot of the task's thread was not free. -/
theorem not_tasksStart : ¬ Say.tasksStart := by
  rintro ⟨admits, -, -⟩
  obtain ⟨⟨id, t⟩, fit, size⟩ := Option.map_eq_some_iff.mp strayThread_fits
  obtain ⟨rfl, threads⟩ := Prod.mk.inj size
  obtain ⟨n, run, admitted⟩ := admits strayThread 0 7 t (by decide) rfl fit
  obtain ⟨j, th, free, -, stands, -⟩ := admitted.threads 0 (threads ▸ Nat.one_pos)
  have used := strayThread_slots
  rw [run] at used
  have place : j ∈ [0] := used ▸ List.mem_map_of_mem (f := Prod.fst) (tget_mem stands)
  obtain rfl := List.mem_singleton.mp place
  cases free

/-- Refutes O39: TASK_ADMIT drops every thread of a task that it takes back from a thief before it looks for free slots, so that
`strayThread`, where such a thread stands on the admitting core, gives the task a slot that was not free (10 R363). No step makes such a state. -/
theorem not_tasks : ¬ Obligations.Tasks := fun h => not_tasksStart h.1

end Sys2Proof.Machine
end

section
/-! PROOFS. The Detent (10 R369–R375): a checkpoint's decision, and the comparators. -/
namespace Sys2Proof.Machine

theorem exec_detentCheck (slot : Nat) (s : State) : exec (.detentCheck slot) s = execDetentCheck slot s := rfl
theorem exec_detentComparator (head : Nat) (s : State) : exec (.detentComparator head) s = execDetentComparator head s := rfl

/-! ## The projection does not read frames in progress -/

/-- A context without its frames. -/
def frameless (x : Ctx) : Ctx := { x with fr := {} }
/-- A state whose contexts have no frames, and without its counters. -/
def framelessState (s : State) : State := { s with ctxs := s.ctxs.map (fun e => (e.1, frameless e.2)), perf := {} }
/-- A context whose frame in progress is changed. -/
def mapFrame (g : Frame → Frame) (x : Ctx) : Ctx := { x with fr := { x.fr with cur := x.fr.cur.map g } }
theorem framelessState_modFrame (slot : Nat) (g : Frame → Frame) (s : State) : framelessState (modFrame slot g s) = framelessState s :=
  congrArg (fun t => { s with ctxs := t, perf := {} }) (map_tmod (view := frameless) (g := mapFrame g) (fun _ => rfl) s.ctxs slot)
theorem contenders_frameless (s : State) (slot wd : Nat) (c : Bytes) (group : Nat) :
    contenders (framelessState s) slot wd c group = contenders s slot wd c group := by
  simp only [contenders, wardCtxs, framelessState, List.filter_map, List.length_map, List.filter_filter]
  rfl
theorem projection_frameless (s : State) (slot : Nat) (x : Ctx) (f : Frame) (k : Nat) :
    projection (framelessState s) slot x f k = projection s slot x f k := by
  simp only [projection, restWork, startedWork, workTime, contenders_frameless]
  rfl

/-! ## A checkpoint and what it leaves (10 R371) -/

/-- A frame after a checkpoint that saw these terms. -/
def noted (terms : List Nat) (g : Frame) : Frame := { g with checkDue := false, seen := terms }
/-- A state with a context's frame changed, and other counters. -/
def reframed (slot : Nat) (g : Frame → Frame) (p : Perf) (s : State) : State := modPerf (fun _ => p) (modFrame slot g s)
section
variable {slot : Nat} {s : State} {x : Ctx} {f : Frame}
theorem ctxOf_reframed (g : Frame → Frame) (p : Perf) (hx : ctxOf s slot = some x) (cur : x.fr.cur = some f) :
    ctxOf (reframed slot g p s) slot = some (withFrame x (g f)) := by
  refine (ctxOf_modCtx ..).trans ?_
  simp only [if_true, hx, Option.map_some, cur]
  rfl
theorem framelessState_reframed (slot : Nat) (g : Frame → Frame) (p : Perf) (s : State) :
    framelessState (reframed slot g p s) = framelessState s := framelessState_modFrame slot g s
theorem tallyChip_reframed (ev u k : Nat) (w : Option Nat) (g : Frame → Frame) (p : Perf) :
    ∃ q, tallyChip ev u k w (reframed slot g p s) = reframed slot g q s := by
  obtain ⟨q, h⟩ := tallyChip_eq ev u k w (reframed slot g p s)
  exact ⟨q, h⟩
theorem modFrame_reframed (g h : Frame → Frame) (p : Perf) :
    modFrame slot h (reframed slot g p s) = reframed slot (fun f => h (g f)) p s := by
  simp only [reframed, modPerf, modFrame, modCtx, tmod_tmod, Option.map_map, Function.comp_def]
end

/-! ## The decision (10 R372, R374) -/

/-- A frame whose rung falls to k, or one that keeps its rung. -/
def loweredTo (now k : Nat) (f g : Frame) : Frame := if f.rung < k then lowerTo now k g else g
theorem loweredTo_fields (now k : Nat) (f g : Frame) (rung : g.rung = f.rung) : (loweredTo now k f g).checkDue = g.checkDue ∧
    (loweredTo now k f g).seen = g.seen ∧ (loweredTo now k f g).rung = max k f.rung ∧ (loweredTo now k f g).tiles = g.tiles ∧
      (loweredTo now k f g).geo = g.geo := by
  unfold loweredTo
  split
  · next lower => exact ⟨rfl, rfl, (Nat.max_eq_left lower.le).symm, rfl, rfl⟩
  · next stays => exact ⟨rfl, rfl, rung.trans (Nat.max_eq_right (Nat.le_of_not_lt stays)).symm, rfl, rfl⟩

section
variable {slot : Nat} {s : State} {x : Ctx} {f : Frame}
theorem execDetentCheck_next (hx : liveCtx s slot = some x) (cur : x.fr.cur = some f)
    (due : f.checkDue = true ∨ f.seen ≠ detentTerms s slot x f) : execDetentCheck slot s = .next (detentCheck slot x f s) := by
  have passes : (f.checkDue || f.seen != detentTerms s slot x f) = true := by simpa using due
  simp only [execDetentCheck, need, hx, cur, guardThat, passes, if_true]
/-- A checkpoint is noted, and then nothing is decided, or what the frame's kind calls for. -/
theorem detentCheck_eq (slot : Nat) (x : Ctx) (f : Frame) (s : State) : ∃ p, detentCheck slot x f s =
    if f.held.isSome || cbReplay f.config || decide (f.cutoff < (f.t0 : Int)) || unstarted s slot f == 0
    then setComparator f none (reframed slot (noted (detentTerms s slot x f)) p s)
    else detentDecide slot x f (reframed slot (noted (detentTerms s slot x f)) p s) := by
  obtain ⟨p, h⟩ := tallyChip_eq 0x238 0 1 (some x.ward) (modFrame slot (noted (detentTerms s slot x f)) s)
  refine ⟨p, ?_⟩
  unfold reframed
  rw [← h]
  rfl
theorem detentCheck_idle (idle : f.held.isSome = true ∨ cbReplay f.config = true ∨ f.cutoff < (f.t0 : Int) ∨ unstarted s slot f = 0) :
    ∃ p, detentCheck slot x f s = setComparator f none (reframed slot (noted (detentTerms s slot x f)) p s) := by
  obtain ⟨p, h⟩ := detentCheck_eq slot x f s
  exact ⟨p, h.trans (if_pos (by simpa [or_assoc] using idle))⟩
theorem detentCheck_decides (unheld : f.held = none) (fresh : cbReplay f.config = false) (inTime : (f.t0 : Int) ≤ f.cutoff)
    (work : unstarted s slot f ≠ 0) :
    ∃ p, detentCheck slot x f s = detentDecide slot x f (reframed slot (noted (detentTerms s slot x f)) p s) := by
  obtain ⟨p, h⟩ := detentCheck_eq slot x f s
  exact ⟨p, h.trans (if_neg (by simp [unheld, fresh, inTime, work]))⟩

/-- What a decision reads of the state, the note of the checkpoint leaves. -/
theorem projection_reframed (g : Frame → Frame) (p : Perf) (k : Nat) : projection (reframed slot g p s) slot x f k = projection s slot x f k := by
  rw [← projection_frameless, framelessState_reframed, projection_frameless]
theorem lastStart_reframed (g : Frame → Frame) (p : Perf) : lastStart (reframed slot g p s) f = lastStart s f := rfl

variable (g : Frame → Frame) (p : Perf)
theorem detentDecide_safe (a : f.kind = .a) (fits : Q.lt (Q.ofInt (lastStart s f)) (projection s slot x f 3) = false) :
    detentDecide slot x f (reframed slot g p s) = setComparator f none (reframed slot g p s) := by
  simp only [detentDecide, a, if_true, lastStart_reframed, projection_reframed, fits, Bool.false_eq_true, if_false]
theorem detentDecide_abandons (a : f.kind = .a) (risk : Q.lt (Q.ofInt (lastStart s f)) (projection s slot x f 3) = true) :
    detentDecide slot x f (reframed slot g p s) = abandonCaptures slot f (setComparator f none (reframed slot g p s)) := by
  simp only [detentDecide, a, if_true, lastStart_reframed, projection_reframed, risk]
/-- The instant that a comparator takes: that at which rung 3 still fits, if a rung below it fits and the instant is to come. -/
def comparatorOf (s : State) (slot : Nat) (x : Ctx) (f : Frame) : Option Nat :=
  let c := Q.sub (Q.ofInt (lastStart s f)) (Q.sub (projection s slot x f 3) (Q.ofInt s.now))
  if fitRung (lastStart s f) (projection s slot x f) f.rung < 3 ∧ Q.lt (Q.ofInt s.now) c = true then some (Q.ceil c).toNat else none
theorem detentDecide_rung (other : f.kind ≠ .a) (granted : f.geo.waitsGrant = false) (earlier : f.geo.grantedAt ≠ some s.now) :
    ∃ q, detentDecide slot x f (reframed slot g p s) = setComparator f (comparatorOf s slot x f)
      (reframed slot (fun h => loweredTo s.now (fitRung (lastStart s f) (projection s slot x f) f.rung) f (g h)) q s) := by
  have now : (reframed slot g p s).now = s.now := rfl
  have same : projection (reframed slot g p s) slot x f = projection s slot x f := funext fun k => projection_reframed g p k
  have unstopped : (f.geo.waitsGrant || f.geo.grantedAt == some s.now) = false := by simp [granted, earlier]
  simp only [detentDecide, other, if_false, lastStart_reframed, same, now, unstopped, Bool.false_and, Bool.or_false, Bool.and_eq_true,
    decide_eq_true_eq, Bool.false_eq_true, modFrame_reframed]
  by_cases lower : f.rung < fitRung (lastStart s f) (projection s slot x f) f.rung
  · obtain ⟨q, h⟩ := tallyChip_reframed (s := s) (slot := slot) 0x239 0 1 (some x.ward)
      (fun h => lowerTo s.now (fitRung (lastStart s f) (projection s slot x f) f.rung) (g h)) p
    refine ⟨q, ?_⟩
    simp only [lower, if_true, loweredTo, h]
    rfl
  · refine ⟨p, ?_⟩
    simp only [lower, if_false, loweredTo]
    rfl
end

/-! ## A watched frame -/

/-- What a decision on a frame leaves: its context with the frame as it is then, and its head's comparator. -/
structure Watching (slot : Nat) (x : Ctx) (f g : Frame) (c : Option Nat) (s n : State) : Prop where
  slots : n.slots = s.slots
  hasps : n.hasps = s.hasps
  tasks : n.tasks = s.tasks
  wards : n.wards = s.wards
  others : ∀ i, i ≠ slot → ctxOf n i = ctxOf s i
  heads : ∀ h, h ≠ f.head → headOf n h = headOf s h
  head : headOf n f.head = { headOf s f.head with detentAt := c }
  ctx : ctxOf n slot = some (withFrame x g)
theorem watching_setComparator {slot : Nat} {s : State} {x : Ctx} {f : Frame} (hx : ctxOf s slot = some x) (cur : x.fr.cur = some f)
    (g : Frame → Frame) (p : Perf) (c : Option Nat) : Watching slot x f (g f) c s (setComparator f c (reframed slot g p s)) :=
  ⟨rfl, rfl, rfl, rfl, fun _ hi => ctxOf_modFrame_other g s hi, fun _ hh => by rw [setComparator, headOf_modHead, if_neg hh]; rfl,
    (headOf_modHead_same ..).trans rfl, ctxOf_reframed g p hx cur⟩

/-! ## Captures that are abandoned (08 R297) -/

/-- A context that expects fewer captures of a frame. -/
def expectFewer (number k : Nat) (x : Ctx) : Ctx :=
  { x with ad := { x.ad with staging := x.ad.staging.map (fun a => if a.frame = number then { a with left := a.left - k } else a) } }
/-- A state without a frame's captures that have not started. -/
def uncaptured (slot : Nat) (f : Frame) (s : State) : State :=
  modCtx slot (expectFewer f.number (captureTasks s slot f false).length)
    (dropTasks (fun k _ => ((captureTasks s slot f false).map (·.1)).contains k) s)

section
variable {slot : Nat} {s : State} {f : Frame}
theorem abandonCaptures_eq (slot : Nat) (f : Frame) (s : State) : ∃ body, abandonCaptures slot f s =
    postEvent slot kCaptureShort 0x01 body (uncaptured slot f s) := by
  simp only [abandonCaptures, List.length_map]
  exact ⟨_, rfl⟩
/-- No capture of the frame is left that has not started. -/
theorem captureTasks_uncaptured : captureTasks (uncaptured slot f s) slot f false = [] := by
  refine List.filter_eq_nil_iff.mpr fun t ht waits => ?_
  have there : t ∈ s.tasks := List.mem_of_mem_filter ht
  have kept : ((captureTasks s slot f false).map (·.1)).contains t.1 = false := 
    not_dropped (p := fun k _ => ((captureTasks s slot f false).map (·.1)).contains k) (s := s) ht
  have waiting : t ∈ captureTasks s slot f false := List.mem_filter.mpr ⟨there, waits⟩
  simp only [List.contains_eq_mem, decide_eq_false_iff_not] at kept
  exact kept (List.mem_map_of_mem waiting)
theorem ctxOf_uncaptured_same {x : Ctx} (hx : ctxOf s slot = some x) :
    ctxOf (uncaptured slot f s) slot = some (expectFewer f.number (captureTasks s slot f false).length x) :=
  (tget_tmod_same ..).trans (congrArg _ hx)
theorem ctxOf_uncaptured_other {i : Nat} (h : i ≠ slot) : ctxOf (uncaptured slot f s) i = ctxOf s i := tget_tmod_other _ _ _ _ h
end

/-! ## DETENT_COMPARATOR (10 R373) -/

/-- A frame of which a checkpoint is due. -/
def checkedSoon (f : Frame) : Frame := { f with checkDue := true }
/-- A head whose comparator is clear. -/
def unwatched (h : Head) : Head := { h with detentAt := none }

section
variable {head c : Nat} {s : State}
theorem execDetentComparator_next (set : (headOf s head).detentAt = some c) (come : c ≤ s.now) : execDetentComparator head s =
    .next ((watched s head).foldl (fun s slot => checkpoint slot s) (modHead head unwatched s)) := by
  simp only [execDetentComparator, need, set, guardThat, come, decide_true, if_true]
  rfl
theorem watched_of_inFrame {slot : Nat} {x : Ctx} {f : Frame} (h : Say.InFrame s slot x f) (on : f.head = head) : slot ∈ watched s head := by
  refine List.mem_map.mpr ⟨(slot, x), List.mem_filter.mpr ⟨tget_mem (ctxOf_of_liveCtx h.live), ?_⟩, rfl⟩
  simp [Say.live_of_liveCtx h.live, h.cur, on]
end

/-- Checkpoints change contexts alone. -/
theorem checkpoints_eq (l : List Nat) (s : State) : ∃ t, l.foldl (fun s slot => checkpoint slot s) s = { s with ctxs := t } := by
  have rest := foldl_view (view := fun s : State => { s with ctxs := [] }) (f := fun s slot => checkpoint slot s) (fun _ _ => rfl) l s
  exact ⟨(l.foldl (fun s slot => checkpoint slot s) s).ctxs,
    (congrArg (fun q : State => { q with ctxs := (l.foldl (fun s slot => checkpoint slot s) s).ctxs }) rest :)⟩
/-- A context whose frame a checkpoint has come to keeps it. -/
theorem ctxOf_checkpoint (i slot : Nat) (s : State) :
    ctxOf (checkpoint i s) slot = if slot = i then (ctxOf s i).map (mapFrame checkedSoon) else ctxOf s slot := ctxOf_modCtx ..
theorem checkpoints_due {slot : Nat} {x : Ctx} {f : Frame} (cur : x.fr.cur = some f) (l : List Nat) : ∀ {s : State},
    (ctxOf s slot = some x ∧ slot ∈ l ∨ ctxOf s slot = some (withFrame x (checkedSoon f))) →
      ctxOf (l.foldl (fun s slot => checkpoint slot s) s) slot = some (withFrame x (checkedSoon f)) := by
  induction l with
  | nil =>
    rintro s (⟨-, nowhere⟩ | done)
    · cases nowhere
    · exact done
  | cons i l ih =>
    intro s h
    refine ih ?_
    rw [ctxOf_checkpoint]
    by_cases here : slot = i
    · subst here
      rw [if_pos rfl]
      rcases h with ⟨hx, -⟩ | done
      · exact .inr (by rw [hx]; simp only [Option.map_some, mapFrame, cur, withFrame])
      · exact .inr (by rw [done]; rfl)
    · rw [if_neg here]
      exact h.imp_left fun ⟨hx, among⟩ => ⟨hx, (List.mem_cons.mp among).resolve_left here⟩

end Sys2Proof.Machine

namespace Sys2Proof.Say
open Sys2Proof.Machine

/-- Settles O40: a checkpoint notes what it saw, and its decision is one change of the frame and of its head's comparator (`Watching`). What it
projects it reads from a state whose frames it has not changed (`projection_frameless`). -/
theorem detent : Obligations.Detent := by
  unfold Obligations.Detent
  refine ⟨fun s slot x f inFrame due => ?check, fun s head c set come => ?comparator⟩
  case check =>
    intro watch checked
    have hx := ctxOf_of_liveCtx inFrame.live
    have run := (exec_detentCheck slot s).trans (execDetentCheck_next inFrame.live inFrame.cur due)
    have watching (g : Frame → Frame) (p : Perf) (c : Option Nat) := watching_setComparator hx inFrame.cur g p c
    refine ⟨fun idle => ?idle, fun unheld fresh inTime work => ?decides⟩
    case idle =>
      obtain ⟨p, eq⟩ := detentCheck_idle (x := x) idle
      have w := watching (noted (detentTerms s slot x f)) p none
      exact ⟨_, run.trans (congrArg _ eq), ⟨w.slots, w.hasps, w.others, w.heads, w.head⟩, ⟨_, _, w.ctx, rfl, rfl, rfl, rfl, rfl, rfl, rfl⟩,
        w.tasks, w.wards⟩
    case decides =>
      intro z p3
      obtain ⟨p, eq⟩ := detentCheck_decides (x := x) unheld fresh inTime work
      refine ⟨fun a fits => ?safe, fun a risk => ?abandons, fun other granted earlier => ?rung⟩
      case safe =>
        have w := watching (noted (detentTerms s slot x f)) p none
        exact ⟨_, run.trans (congrArg _ (eq.trans (detentDecide_safe _ p a fits))), ⟨w.slots, w.hasps, w.others, w.heads, w.head⟩,
          ⟨_, _, w.ctx, rfl, rfl, rfl, rfl, rfl, rfl, rfl⟩, w.tasks⟩
      case abandons =>
        have w := watching (noted (detentTerms s slot x f)) p none
        obtain ⟨body, posted⟩ := abandonCaptures_eq slot f (setComparator f none (reframed slot (noted (detentTerms s slot x f)) p s))
        have kept := recordless_postEvent slot kCaptureShort 0x01 body
          (uncaptured slot f (setComparator f none (reframed slot (noted (detentTerms s slot x f)) p s)))
        obtain ⟨slots, heads, tasks⟩ := tables_of_recordless kept
        obtain ⟨y, hy, same⟩ := ctx_of_recordless kept (ctxOf_uncaptured_same w.ctx)
        refine ⟨_, run.trans (congrArg _ (eq.trans ((detentDecide_abandons _ p a risk).trans posted))),
          ⟨slots.trans w.slots, (congrArg State.hasps kept :).trans w.hasps, fun i hi => ?others, fun h hh => ?heads, ?head⟩, ?gone,
          y, noted (detentTerms s slot x f) f, hy, (congrArg (fun z => z.fr.cur) same :), (congrArg Ctx.ing same :), rfl, rfl, rfl, rfl, rfl⟩
        case others => exact ((postEvent_keepsFrame ..).ctxs i hi).trans ((ctxOf_uncaptured_other hi).trans (w.others i hi))
        case heads => exact (congrArg (tgetD · h {}) heads :).trans (w.heads h hh)
        case head => exact (congrArg (tgetD · f.head {}) heads :).trans w.head
        case gone =>
          rw [captureTasks, tasks, ← captureTasks, captureTasks_uncaptured]
          rfl
      case rung =>
        obtain ⟨q, decided⟩ := detentDecide_rung (noted (detentTerms s slot x f)) p other granted earlier
        have w := watching (fun h => loweredTo s.now (fitRung (lastStart s f) (projection s slot x f) f.rung) f (noted (detentTerms s slot x f) h)) q
          (comparatorOf s slot x f)
        refine ⟨_, run.trans (congrArg _ (eq.trans decided)), w.tasks, w.wards, ⟨_, _, w.ctx, rfl, rfl, loweredTo_fields _ _ f _ rfl⟩,
          w.slots, w.hasps, w.others, w.heads, w.head⟩
  case comparator =>
    obtain ⟨t, eq⟩ := checkpoints_eq (watched s head) (modHead head unwatched s)
    refine ⟨_, (exec_detentComparator head s).trans ((execDetentComparator_next set come).trans (congrArg _ eq)), rfl,
      headOf_modHead_same head unwatched s, fun h hh => (headOf_modHead head unwatched s h).trans (if_neg hh), fun slot x f inFrame on => ?_⟩
    have noted := checkpoints_due inFrame.cur (watched s head) (s := modHead head unwatched s)
      (.inl ⟨ctxOf_of_liveCtx inFrame.live, watched_of_inFrame inFrame on⟩)
    rw [eq] at noted
    exact ⟨_, noted, rfl⟩

end Sys2Proof.Say
end
